-- ==== Sys2Proof/Word.lean ====
section
/-! DEFINITION. The plain data types shared by every file of the model: bytes, byte strings, 32- and 64-bit words and
the sparse table type. Their operations stand in Machine/Ops.lean. -/

namespace Sys2Proof

/-- One byte. -/
abbrev Byte := BitVec 8

/-- A byte string, first byte first (R11 of 00_scope.md: integers in it are little-endian unless a rule says otherwise). -/
abbrev Bytes := List Byte

/-- A 32-bit register (R73 of 02_unit_pages.md). -/
abbrev Word32 := BitVec 32

/-- A 64-bit word of a Carit core or of a Sail operand (R11 of 00_scope.md). -/
abbrev Word64 := BitVec 64

/-- A sparse table keyed by a number. The canonical form (Machine/Ops.lean, `Tab.wf`) lists keys strictly rising and
lists no entry equal to the table's default, so that equal tables are equal data. -/
abbrev Tab (α : Type) := List (Nat × α)

end Sys2Proof
end

