-- ==== Sys2Proof/Syntax.lean ====
section
/-! DEFINITION. The commands of the block: `Instr` has one constructor per row of spec/opcode_table.json. Operands name
what is addressed (an accessor, a page, an instance, a job serial) and carry the data that comes from outside the device
(bytes a host read returned, a frame, an APDU, the outcome of an analog event). -/

namespace Sys2Proof

/-- The accessors of R317 (06_tether.md) that a register access comes from: the physical functions of host ports 0 and 1,
ring 0 firmware and ring 1 firmware (the two share one copy of every per-accessor register), or a virtual function. -/
inductive Acc where
  | pf0 | pf1 | fw0 | fw1 | vf
  deriving DecidableEq, Repr

/-- A bridle frame (R695 of 17_gondolas_and_bridle.md): class, VLANE, source and destination member, forward identifier,
LSEQ, class data and body. -/
structure Frame where
  cls : Nat := 0
  vlane : Nat := 0
  src : Nat := 0
  dst : Nat := 0
  fwdId : Nat := 0
  lseq : Nat := 0
  cdata : Bytes := []
  body : Bytes := []
  deriving DecidableEq, Repr

/-- The commands. -/
inductive Instr where
  /-- RING_DOORBELL (R124): A write of any value to RING_DOORBELL wakes the intake bound to the ring, which scans
  from RING_HEAD. -/
  | ringDoorbell (inst ring : Nat)
  /-- ENTRY_READ_COMPLETE (R140): The aligned 64-byte read of an entry returns, and the intake takes it, refuses it,
  or puts the ring in ERROR on a failed read. -/
  | entryReadComplete (chan : Nat) (ok : Bool) (data : Bytes)
  /-- BALLAST_WAIT_END (R48): When buffers are freed, waiting intakes take free buffers in round-robin order of
  channel number and resume taking entries. -/
  | ballastWaitEnd
  /-- ORDERED_RELEASE (R158): An ORDERED entry or chain begins step 4 once every entry taken earlier from its ring
  has its completion written or discarded. -/
  | orderedRelease (job : Nat)
  /-- JOB_HANDOFF (R56): The intake hands a taken job to a channel of the instance's share, and a core stalled on
  JOB_NEXT receives its serial. -/
  | jobHandoff (job chan core : Nat)
  /-- HOST_READ_COMPLETE (R165): A host-memory read of a key blob, input or proof store returns, data or error, and
  the job continues or ends with HOST_READ_FAULT. -/
  | hostReadComplete (job : Nat) (ok : Bool) (data : Bytes)
  /-- UNWRAP_COMPLETE (R279): The lane finishes authenticating and decrypting a blob; header checks are made,
  entries written with a new fill serial and capabilities made for waiting jobs. -/
  | unwrapComplete (job : Nat)
  /-- RESULT_FINAL (R62): A job's result becomes final and its audit port builds the 64-byte leaf; later chain
  members start or are ABORTED. -/
  | resultFinal (job : Nat)
  /-- LEAF_COMMIT (R377): A leaf receives its SEQ, is stamped with position and tether state, and its record is
  issued to the audit ring when space and RING_EN allow. -/
  | leafCommit (job : Nat)
  /-- COMPLETION_WRITE (R64): After the generation check of R63, the device writes output, entry bytes 1 to 63, then
  byte 0 with OWN = 0, or discards them. -/
  | completionWrite (job : Nat)
  /-- OUTPUT_SEGMENT_WRITE (R188): A two-buffer job writes each output segment but the last as produced, after a
  generation comparison. -/
  | outputSegmentWrite (job : Nat)
  /-- FORWARD (R67): A FORWARD frame with entry, blob and input arrives at the executing member, which checks its
  tag and generation, takes ballast and runs the job. -/
  | forward (line : Nat) (frame : Frame)
  /-- FORWARD_SEND (R67): The origin sends a job or chain to a chosen member in one frame with forward identifier
  and GMAC tag, agreeing a pairwise key if needed. -/
  | forwardSend (job member : Nat)
  /-- RESULT (R67): A RESULT frame arrives at the origin, which commits the leaf and acknowledges with FWD_ACK. -/
  | result (line : Nat) (frame : Frame)
  /-- UNIT_ENABLE (R102): Writing UNIT_CTRL.ENABLE = 1 starts the unit, or sets ENABLE_PENDING while its parent is
  not running or it is still stopping. -/
  | unitEnable (acc : Acc) (page : Nat)
  /-- UNIT_DISABLE (R102): Writing UNIT_CTRL.ENABLE = 0 puts the unit in STOPPING; new work stops and children pass
  to OFF. -/
  | unitDisable (acc : Acc) (page : Nat)
  /-- UNIT_QUIESCE (R102): Writing UNIT_CTRL.QUIESCE = 1 stops new work; STATE becomes QUIESCED when work in flight
  completes. -/
  | unitQuiesce (acc : Acc) (page : Nat)
  /-- UNIT_UNQUIESCE (R102): Writing UNIT_CTRL.QUIESCE = 0 returns a QUIESCED unit to RUNNING when its parent runs.
  -/
  | unitUnquiesce (acc : Acc) (page : Nat)
  /-- UNIT_LEVEL_CHANGE (R109): A write of UNIT_CTRL.LEVEL changes the basic or expert level only in OFF or
  QUIESCED, withdrawing or returning the unit and resetting expert registers. -/
  | unitLevelChange (acc : Acc) (page : Nat) (level : Bool)
  /-- UNIT_START_COMPLETE (R106): A STARTING unit finishes its start and enters RUNNING or QUIESCED. -/
  | unitStartComplete (page : Nat)
  /-- UNIT_DRAIN_COMPLETE (R102): When all work in flight completes, a STOPPING unit reaches OFF, or a draining unit
  reaches QUIESCED, and restarts if ENABLE is 1 again. -/
  | unitDrainComplete (page : Nat)
  /-- FAULT_CLEAR (R87): Writing UNIT_FAULT.CLEAR = 1 sets TRANSIENT and LAST_CAUSE to 0. -/
  | faultClear (acc : Acc) (page : Nat)
  /-- RETIRE_REQUEST (R90): Writing 0xD1E5 to UNIT_RETIRE of an unlocked channel or bridle-line page retires it
  through STOPPING. -/
  | retireRequest (acc : Acc) (page : Nat)
  /-- UNIT_EVENT_CLEAR (R94): A W1C write to UNIT_EVENT clears event bits, and the root resends the management
  message if still raised. -/
  | unitEventClear (acc : Acc) (page : Nat) (mask : Word32)
  /-- UNIT_EVENT_EN_WRITE (R96): A write to UNIT_EVENT_EN changes which events raise the unit, and the root resends
  the management message if still raised. -/
  | unitEventEnWrite (acc : Acc) (page : Nat) (value : Word32)
  /-- UNIT_LOCK_SET (R98): Writing 1 to UNIT_LOCK.LOCK freezes every RWL field of the page until start-up. -/
  | unitLockSet (acc : Acc) (page : Nat)
  /-- REGISTER_WRITE (R12): A write to a register field with no row of its own takes effect by its access type, or
  is refused, dropped or counted as R73 and R108 state. -/
  | registerWrite (acc : Acc) (page offset : Nat) (value : Word32)
  /-- SNAPSHOT_READ (R317): A read of the LO half of a 64-bit counter or position takes the accessor's snapshot of
  the whole value. -/
  | snapshotRead (acc : Acc) (page offset : Nat)
  /-- RING_CONFIG_WRITE (R128): A write of RING_BASE_LO, RING_BASE_HI or RING_SIZE takes effect only while the ring
  is disabled and idle, and sets RING_HEAD to 0. -/
  | ringConfigWrite (inst ring offset : Nat) (value : Word32)
  /-- RING_ENABLE (R129): Writing RING_STATUS.ENABLE from 0 to 1 clears errors, checks LOG2 and address, and scans
  from RING_HEAD if the ring becomes ACTIVE. -/
  | ringEnable (inst ring : Nat)
  /-- RING_DISABLE (R131): Writing RING_STATUS.ENABLE from 1 to 0 stops the taking of entries; taken jobs finish and
  IDLE becomes 1 after the last. -/
  | ringDisable (inst ring : Nat)
  /-- BUS_MASTER_ENABLE_CHANGE (R133): A change of Bus Master Enable of a virtual function stops or resumes reads
  and the writing of held completions. -/
  | busMasterEnableChange (inst : Nat) (on : Bool)
  /-- MSIX_UNMASK (R169): Unmasking an MSI-X entry sends the one message for completions that occurred while it was
  pending. -/
  | msixUnmask (func entry : Nat)
  /-- SIGN (R201): Opcode 0x0101 signs the input with a private record and releases the signature after the cross-
  check. -/
  | sign (job : Nat)
  /-- VERIFY (R203): Opcode 0x0102 verifies one signature, gathered into batches where possible. -/
  | verify (job : Nat)
  /-- VERIFY_BATCH (R206): Opcode 0x0103 verifies 1 to 64 signatures of one algorithm and returns the member map. -/
  | verifyBatch (job : Nat)
  /-- ATTEST_KEY (R297): Opcode 0x0104 writes an attestation statement for a private record signed by both identity
  keys. -/
  | attestKey (job : Nat)
  /-- TRANSLATE_PIN (R216): Opcode 0x0201 decrypts a PIN block under one key and re-encrypts it in the requested
  format under another. -/
  | translatePin (job : Nat)
  /-- VERIFY_PIN_OFFSET (R217): Opcode 0x0202 checks a PIN against its offset by decimalised encipherment. -/
  | verifyPinOffset (job : Nat)
  /-- GENERATE_PIN_OFFSET (R217): Opcode 0x0203 computes the offset of a PIN by decimalised encipherment. -/
  | generatePinOffset (job : Nat)
  /-- DUKPT_TRANSLATE_PIN_AES (R219): Opcode 0x0204 derives the AES DUKPT PIN key from the BDK and KSN and
  translates the block. -/
  | dukptTranslatePinAes (job : Nat)
  /-- DUKPT_TRANSLATE_PIN_TDEA (R219): Opcode 0x0205 derives the TDEA DUKPT PIN key from the BDK and KSN and
  translates the block. -/
  | dukptTranslatePinTdea (job : Nat)
  /-- ARQC_VERIFY (R223): Opcode 0x0301 derives card and session keys and verifies the application cryptogram. -/
  | arqcVerify (job : Nat)
  /-- ARPC_GENERATE (R224): Opcode 0x0302 makes the authorisation response cryptogram by method 1 or 2. -/
  | arpcGenerate (job : Nat)
  /-- ARQC_VERIFY_ARPC (R224): Opcode 0x0303 verifies the ARQC and, if valid, makes the ARPC. -/
  | arqcVerifyArpc (job : Nat)
  /-- MAC_GENERATE (R225): Opcode 0x0304 computes a MAC over the input and returns it inline. -/
  | macGenerate (job : Nat)
  /-- MAC_VERIFY (R225): Opcode 0x0305 checks a MAC over the data. -/
  | macVerify (job : Nat)
  /-- GENERATE (R226): Opcode 0x0401 generates a symmetric key as a version D key block under the current KBPK. -/
  | generate (job : Nat)
  /-- GENERATE_PAIR (R228): Opcode 0x0402 generates an asymmetric or lattice key pair as a sealed record and public
  key. -/
  | generatePair (job : Nat)
  /-- IMPORT (R230): Opcode 0x0403 unwraps a subject key block under a K1 key and writes it under the current KBPK.
  -/
  | importKey (job : Nat)
  /-- TRANSLATE_KEYBLOCK (R231): Opcode 0x0404 writes a blob again under the current KBPK generation. -/
  | translateKeyblock (job : Nat)
  /-- EXPORT_UNDER_KEK (R232): Opcode 0x0405 wraps an exportable key as a version D block under an AES K1 key. -/
  | exportUnderKek (job : Nat)
  /-- KCV (R233): Opcode 0x0406 returns a symmetric key's check value. -/
  | kcv (job : Nat)
  /-- IMPORT_PUBLIC (R234): Opcode 0x0407 validates a public key and writes a sealed public record. -/
  | importPublic (job : Nat)
  /-- PUBLIC_KEY (R235): Opcode 0x0408 writes the public key of a sealed record. -/
  | publicKey (job : Nat)
  /-- ENCAPSULATE (R236): Opcode 0x0409 writes an ML-KEM ciphertext and a key block holding the shared secret. -/
  | encapsulate (job : Nat)
  /-- DECAPSULATE (R237): Opcode 0x040A decapsulates a ciphertext into a key block, with implicit rejection. -/
  | decapsulate (job : Nat)
  /-- ENCRYPT (R239): Opcode 0x0501 encrypts data in ECB, CBC, CTR, GCM or GCM-SIV. -/
  | encrypt (job : Nat)
  /-- DECRYPT (R242): Opcode 0x0502 decrypts data, refusing output on a failed tag. -/
  | decrypt (job : Nat)
  /-- TOKENISE (R243): Opcode 0x0503 enciphers PAN digits with FF1, repeating for LUHN_FAIL. -/
  | tokenise (job : Nat)
  /-- DETOKENISE (R245): Opcode 0x0504 deciphers a token with FF1. -/
  | detokenise (job : Nat)
  /-- HASH (R246): Opcode 0x0505 hashes the input with a SHA-2, SHA-3 or SHAKE function. -/
  | hash (job : Nat)
  /-- GET_RANDOM (R247): Opcode 0x0601 writes OUT_CAP bytes from the channel DRBG in one generate call. -/
  | getRandom (job : Nat)
  /-- AUDIT_PROOF (R403): Opcode 0x0602 reads the proof store and writes the inclusion proof of a leaf against its
  seal. -/
  | auditProof (job : Nat)
  /-- NOP_FENCE (R249): Opcode 0x0603 writes only its completion and leaf. -/
  | nopFence (job : Nat)
  /-- KC_FLUSH (R282): Writing KC_FLUSH.GO starts a flush of the selected instances' or generations' entries. -/
  | kcFlush (acc : Acc) (value : Word32)
  /-- KC_FLUSH_DONE (R282): The flush walk ends, BUSY falls and FLUSH_DONE is set. -/
  | kcFlushDone
  /-- TETHER_PPS_PULSE (R308): A qualified edge on TETHER_PPS is accepted or ignored, starting a second and stepping
  or holding the position. -/
  | tetherPpsPulse (rising : Bool) (held : Nat)
  /-- TETHER_TOD_FRAME (R305): A complete 10-character frame on TETHER_TOD is checked and its number made pending,
  or discarded. -/
  | tetherTodFrame (chars : Bytes) (bad : Bool)
  /-- TOD_IDLE_EXPIRY (R305): The line idles two character times before a frame's tenth character, and the frame is
  discarded as a framing error. -/
  | todIdleExpiry
  /-- TETHER_NEXT_SEC (R306): A write to TETHER_NEXT_SEC_LO makes {HI, LO} the pending number while SOURCE is not 0.
  -/
  | tetherNextSec (acc : Acc) (value : Word32)
  /-- TETHER_STROBE (R303): A write to TETHER_STROBE while SOURCE is 2 is a pulse. -/
  | tetherStrobe (acc : Acc) (value : Word32)
  /-- TETHER_ADRIFT (R310): The extrapolated count reaches 0x10_CCCC ticks or 1.05 s passes, and the tether enters
  ADRIFT with the position held. -/
  | tetherAdrift
  /-- CATCHUP_END (R311): The extrapolated count reaches the held value, CATCHUP becomes 0 and the position follows
  the count. -/
  | catchupEnd
  /-- TETHER_MARK (R314): A TETHER frame carrying second M is relayed and its first copy treated as a pulse at its
  send time plus accumulated delay. -/
  | tetherMark (line second delay : Nat)
  /-- EVENT_FIRE (R321): The position reaches an ARMED entry's POSITION and the entry fires in order, becoming DONE,
  FAILED or re-armed for its period. -/
  | eventFire (index : Nat)
  /-- PERIODIC_SEAL_FIRE (R320): The position reaches a multiple of an instance's seal period and a periodic seal
  fires. -/
  | periodicSealFire (inst : Nat)
  /-- ARM (R325): EVT_CTRL.CMD ARM checks the selected entry's fields and sets it ARMED. -/
  | arm (acc : Acc)
  /-- DISARM (R326): EVT_CTRL.CMD DISARM sets an ARMED entry EMPTY keeping its fields. -/
  | disarm (acc : Acc)
  /-- EVENT_CLEAR (R326): EVT_CTRL.CMD CLEAR sets the selected entry EMPTY with every field 0. -/
  | eventClear (acc : Acc)
  /-- DRK_GENERATE (R337): Once seed is available, the keel erases the store and KBPKs, draws a new DRK, writes its
  check value and burns DRK_EVER. -/
  | drkGenerate
  /-- SEAL_WRITE (R389): A seal's signature passes its cross-check, or R458 applies, and the seal record is written
  to the audit ring and seal table. -/
  | sealWrite (inst : Nat)
  /-- KEY_RECORD_WRITE (R397): A key record's identity signatures complete and the 80-slot record is written to the
  audit ring. -/
  | keyRecordWrite (inst : Nat)
  /-- AUD_RING_RD_WRITE (R396): A write to AUD_RING_RD releases slots, and commits waiting for space proceed. -/
  | audRingRdWrite (acc : Acc) (value : Word32)
  /-- AUD_RING_CONFIG_WRITE (R407): A write of AUD_RING_BASE or AUD_RING_SIZE takes effect only while RING_EN is 0
  and resets WR and RD. -/
  | audRingConfigWrite (acc : Acc) (offset : Nat) (value : Word32)
  /-- AUD_RING_ENABLE (R407): Writing AUD_CFG.RING_EN to 1 checks the ring configuration and enables or sets
  CFG_ERR. -/
  | audRingEnable (acc : Acc)
  /-- AUD_PS_ENABLE (R402): Writing AUD_CFG.PS_EN to 1 rebases the open seal to FILL, sets PROVABLE_FROM and writes
  the held complete nodes. -/
  | audPsEnable (acc : Acc)
  /-- SAIL_MOD_SET (R418): MOD_SET fills a modulus slot from an odd modulus. -/
  | sailModSet (page : Nat) (word : Word32)
  /-- SAIL_TO_MONT (R419): TO_MONT converts an operand into Montgomery form. -/
  | sailToMont (page : Nat) (word : Word32)
  /-- SAIL_FROM_MONT (R419): FROM_MONT converts an operand out of Montgomery form. -/
  | sailFromMont (page : Nat) (word : Word32)
  /-- SAIL_ADD (R425): ADD computes a modular sum. -/
  | sailAdd (page : Nat) (word : Word32)
  /-- SAIL_SUB (R425): SUB computes a modular difference. -/
  | sailSub (page : Nat) (word : Word32)
  /-- SAIL_MUL (R425): MUL computes a Montgomery product. -/
  | sailMul (page : Nat) (word : Word32)
  /-- SAIL_SQR (R425): SQR computes a Montgomery square. -/
  | sailSqr (page : Nat) (word : Word32)
  /-- SAIL_INV (R425): INV computes a modular inverse or gives NOT_INVERTIBLE. -/
  | sailInv (page : Nat) (word : Word32)
  /-- SAIL_EXP (R428): EXP computes a modular power by ladder with exponent blinding where required. -/
  | sailExp (page : Nat) (word : Word32)
  /-- SAIL_REDUCE (R425): REDUCE reduces a value modulo the slot's modulus. -/
  | sailReduce (page : Nat) (word : Word32)
  /-- SAIL_RAND (R425): RAND fills an operand from the channel DRBG, uniform below m if asked. -/
  | sailRand (page : Nat) (word : Word32)
  /-- SAIL_KEY_LOAD (R425): KEY_LOAD copies key material from a capability into operand memory as SECRET and BIND.
  -/
  | sailKeyLoad (page : Nat) (word : Word32)
  /-- SAIL_CLEAR (R425): CLEAR sets an operand to 0. -/
  | sailClear (page : Nat) (word : Word32)
  /-- SAIL_COPY (R425): COPY copies an operand. -/
  | sailCopy (page : Nat) (word : Word32)
  /-- SAIL_EQ (R425): EQ sets FLAG to operand equality, refused on SECRET words. -/
  | sailEq (page : Nat) (word : Word32)
  /-- SAIL_CURVE_SET (R420): CURVE_SET fills a curve slot and two modulus slots from a named or explicit curve. -/
  | sailCurveSet (page : Nat) (word : Word32)
  /-- SAIL_POC (R425): POC sets FLAG to whether an affine point lies on the curve. -/
  | sailPoc (page : Nat) (word : Word32)
  /-- SAIL_PLOAD (R426): PLOAD checks an affine point and writes it projective with random Z. -/
  | sailPload (page : Nat) (word : Word32)
  /-- SAIL_PSTORE (R425): PSTORE converts a projective point to affine, flagging the identity. -/
  | sailPstore (page : Nat) (word : Word32)
  /-- SAIL_PDBL (R426): PDBL doubles a projective point. -/
  | sailPdbl (page : Nat) (word : Word32)
  /-- SAIL_PADD (R426): PADD adds two projective points. -/
  | sailPadd (page : Nat) (word : Word32)
  /-- SAIL_PMUL (R428): PMUL multiplies an affine point by a scalar with blinding and splitting where required. -/
  | sailPmul (page : Nat) (word : Word32)
  /-- SAIL_PDECOMP (R425): PDECOMP recovers an affine point from one coordinate and parity, or gives NO_ROOT. -/
  | sailPdecomp (page : Nat) (word : Word32)
  /-- SAIL_LANE_SET (R431): LANE_SET selects q for lane-split mode. -/
  | sailLaneSet (page : Nat) (word : Word32)
  /-- SAIL_NTT (R432): NTT transforms polynomials forward. -/
  | sailNtt (page : Nat) (word : Word32)
  /-- SAIL_INTT (R432): INTT transforms polynomials back, with scaling. -/
  | sailIntt (page : Nat) (word : Word32)
  /-- SAIL_PWMUL (R432): PWMUL multiplies polynomials pointwise in the transform domain. -/
  | sailPwmul (page : Nat) (word : Word32)
  /-- SAIL_PWADD (R432): PWADD adds polynomials coefficient-wise. -/
  | sailPwadd (page : Nat) (word : Word32)
  /-- SAIL_PWSUB (R432): PWSUB subtracts polynomials coefficient-wise. -/
  | sailPwsub (page : Nat) (word : Word32)
  /-- SAIL_SIGN (R434): The SIGN sequence produces a public signature from a SECRET private key. -/
  | sailSign (page : Nat) (word : Word32)
  /-- SAIL_VERIFY (R434): The VERIFY sequence sets FLAG to the validity of one signature. -/
  | sailVerify (page : Nat) (word : Word32)
  /-- SAIL_BATCH_VERIFY (R434): The BATCH_VERIFY sequence evaluates members and writes the member map. -/
  | sailBatchVerify (page : Nat) (word : Word32)
  /-- SAIL_KEYGEN (R434): The KEYGEN sequence generates private and public key material. -/
  | sailKeygen (page : Nat) (word : Word32)
  /-- SAIL_ENCAPS (R434): The ENCAPS sequence writes an ML-KEM ciphertext and SECRET shared secret. -/
  | sailEncaps (page : Nat) (word : Word32)
  /-- SAIL_DECAPS (R434): The DECAPS sequence writes the SECRET shared secret with implicit rejection. -/
  | sailDecaps (page : Nat) (word : Word32)
  /-- SAIL_COMMAND_END (R422): A running Sail command ends with its result, writing its destination unless an end-
  time error arose. -/
  | sailCommandEnd (page : Nat)
  /-- SAIL_ABORT (R444): Writing 0x0000_A5A5 to SAIL_ABORT, or another abort cause, stops the engine's command and
  starts a wipe. -/
  | sailAbort (acc : Acc) (page : Nat) (value : Word32)
  /-- WIPE_COMPLETE (R441): The zero and read-back passes end, or a nonzero word triggers row repair and a repeat,
  and ESTATE returns to IDLE. -/
  | wipeComplete (page : Nat) (nonzero : Bool)
  /-- SAIL_MEM_READ (R449): A read of SAIL_MEM_LO takes the word at ADDR, and of SAIL_MEM_HI returns its upper half
  and advances ADDR, SECRET words reading 0. -/
  | sailMemRead (acc : Acc) (page : Nat) (hi : Bool)
  /-- SAIL_MEM_WRITE (R449): A write of SAIL_MEM_LO is held and a write of SAIL_MEM_HI writes the word and advances
  ADDR. -/
  | sailMemWrite (acc : Acc) (page : Nat) (hi : Bool) (value : Word32)
  /-- CHECK_FORM (R463): A free checking engine forms a key-table, batch or single check from own signatures waiting
  on its half. -/
  | checkForm (page : Nat)
  /-- VERIFY_GATHER (R469): A free engine takes waiting VERIFY jobs of one algorithm as one batch. -/
  | verifyGather (page : Nat)
  /-- EVALUATION_COMPLETE (R473): An evaluation of a group ends; passing members are decided valid and failing
  groups bisected. -/
  | evaluationComplete (page : Nat) (flip : Bool)
  /-- ARBITRATION_COMPLETE (R465): The arbitration VERIFY ends, the mismatch is charged to checker or signer and the
  job is signed again. -/
  | arbitrationComplete (page : Nat) (flip : Bool)
  /-- STRIPE_COMPLETE (R491): A lane finishes a 4 KiB stripe of a split job and returns output and any GHASH
  partial. -/
  | stripeComplete (chan stripe : Nat)
  /-- HASH_START (R500): Expert BULK_CMD HASH_START begins a keyless hash of XLEN bytes. -/
  | hashStart (acc : Acc) (chan alg : Nat)
  /-- BULK_FEED (R500): A write of BULK_FEED supplies four message bytes, or sets OVERRUN beyond XLEN. -/
  | bulkFeed (acc : Acc) (chan : Nat) (value : Word32)
  /-- HASH_END (R500): Expert BULK_CMD HASH_END finishes the hash into BULK_DIGEST. -/
  | hashEnd (acc : Acc) (chan : Nat)
  /-- SELFTEST (R501): Expert BULK_CMD SELFTEST runs one known-answer test. -/
  | selftest (acc : Acc) (chan param : Nat)
  /-- SELFTEST_ALL (R501): Expert BULK_CMD SELFTEST_ALL runs every known-answer test. -/
  | selftestAll (acc : Acc) (chan : Nat)
  /-- BULK_CMD_DONE (R498): An expert bulk command ends with its result and sets CMD_DONE. -/
  | bulkCmdDone (chan pass : Nat)
  /-- SOURCE_HEALTH_FAILURE (R506): A noise source fails a health test; FAIL_RUN rises, the source enters RETEST or
  is retired, pool blocks are discarded and affected DRBGs unseeded. -/
  | sourceHealthFailure (src : Nat) (apt : Bool)
  /-- SOURCE_TEST_PASS (R505): A source completes 1,024 start-up samples without failure and becomes HEALTHY. -/
  | sourceTestPass (src : Nat)
  /-- FAIL_RUN_RESET (R506): After 2^24 consecutive healthy samples, FAIL_RUN returns to 0. -/
  | failRunReset (src : Nat)
  /-- SEED_BLOCK_RELEASE (R509): A 640-sample block whose windows all passed is released to the seed pool, and
  GATHERED may become 1. -/
  | seedBlockRelease (src : Nat)
  /-- SEED_REQUEST_SERVE (R511): The conditioner serves the first waiting seed request once the pool holds its
  blocks, instantiating or reseeding a DRBG or the DRK. -/
  | seedRequestServe
  /-- DRBG_CALL_DELIVER (R918): A generate call delivers its output to the waiting consumer, counts the call, and
  posts a reseed or stops at the limit. -/
  | drbgCallDeliver (drbg : Nat)
  /-- RESEED (R519): Writing DRBG_CTRL.RESEED = 1 requests a reseed of the channel DRBG. -/
  | reseed (acc : Acc) (drbg : Nat)
  /-- PAIR_INSTRUCTION (R540): A pair instruction executes short operations A then B as one whole instruction. -/
  | pairInstruction (core a b : Nat)
  /-- LIT24 (R546): LIT24 pushes a sign-extended 24-bit value. -/
  | lit24 (core imm : Nat)
  /-- LITHI (R546): LITHI shifts TOS left 24 and ors in a value. -/
  | lithi (core imm : Nat)
  /-- CALL (R555): CALL pushes the return address on the return stack and jumps. -/
  | call (core off : Nat)
  /-- CALLI (R555): CALLI calls the popped address. -/
  | calli (core : Nat)
  /-- JMP (R546): JMP jumps by a word offset. -/
  | jmp (core off : Nat)
  /-- JMPI (R546): JMPI jumps to the popped address. -/
  | jmpi (core : Nat)
  /-- BZL (R546): BZL pops and jumps if zero. -/
  | bzl (core off : Nat)
  /-- BNZL (R546): BNZL pops and jumps if not zero. -/
  | bnzl (core off : Nat)
  /-- LOOP (R551): LOOP opens a loop level with the popped count. -/
  | loop (core last : Nat)
  /-- LOOPI (R551): LOOPI opens a loop level with an immediate count. -/
  | loopi (core count last : Nat)
  /-- LD (R546): LD loads 1 to 8 bytes from the popped address plus displacement. -/
  | ld (core size : Nat) (signed : Bool) (disp : Nat)
  /-- ST (R546): ST stores NOS at TOS plus displacement, clearing granule tags. -/
  | st (core size disp : Nat)
  /-- LDC (R548): LDC loads through a capability register after the checks of R286. -/
  | ldc (core k size : Nat) (signed : Bool) (disp : Nat)
  /-- STC (R548): STC stores through a capability register after the checks of R286. -/
  | stc (core k size disp : Nat)
  /-- CLD (R547): CLD loads a 16-byte granule and its tag into a capability register. -/
  | cld (core k : Nat) (via : Bool) (j : Nat)
  /-- CST (R547): CST stores a capability register and its tag into a granule. -/
  | cst (core k : Nat) (via : Bool) (j : Nat)
  /-- CPUSH (R549): CPUSH pushes a capability as two tagged entries, aligning first. -/
  | cpush (core k : Nat)
  /-- CPOP (R549): CPOP pops two entries into a capability register, tagged only if both halves are. -/
  | cpop (core k : Nat)
  /-- CNARROW (R550): CNARROW narrows a capability under R293, clearing its tag if not allowed. -/
  | cnarrow (core k : Nat)
  /-- CTEST (R546): CTEST pushes a capability register's tag. -/
  | ctest (core k : Nat)
  /-- CFIELD (R546): CFIELD pushes a field of a capability register. -/
  | cfield (core k field : Nat)
  /-- CNULL (R546): CNULL clears a capability register and its tag. -/
  | cnull (core k : Nat)
  /-- BMOVE (R559): BMOVE moves a block between local memory, capability windows and Sail memory, resumably by
  16-byte units. -/
  | bmove (core operand : Nat)
  /-- HSTART (R546): HSTART starts a hash, or an HMAC under a capability, in the lane's JOB context. -/
  | hstart (core alg : Nat) (keyed : Bool) (k : Nat)
  /-- HFEED (R559): HFEED feeds bytes to the lane in 64-byte resumable units. -/
  | hfeed (core : Nat) (cap : Bool) (k : Nat)
  /-- HEND (R546): HEND finishes the hash and writes the digest locally. -/
  | hend (core : Nat)
  /-- SCMD (R546): SCMD pops a command word and operands and issues the command to a Sail engine. -/
  | scmd (core engine : Nat)
  /-- SKEY (R546): SKEY issues KEY_LOAD to a Sail engine with a capability register. -/
  | skey (core engine k : Nat)
  /-- SWAIT (R559): SWAIT waits until no masked Sail engine is BUSY. -/
  | swait (core mask : Nat)
  /-- SSTAT (R546): SSTAT pushes SAIL_CSTAT of an engine. -/
  | sstat (core engine : Nat)
  /-- RNG_DATA_READ (R522): DEVRD of RNG_DATA stalls until 64 bits of the channel DRBG are delivered. -/
  | rngDataRead (core : Nat)
  /-- JOB_NEXT (R562): DEVRD of JOB_NEXT stalls until the channel hands the core a job, setting CTX. -/
  | jobNext (core : Nat)
  /-- LEAF_WAIT (R562): DEVRD of LEAF_WAIT stalls until the current job's leaf is committed. -/
  | leafWait (core : Nat)
  /-- CORE_ID (R562): DEVRD of CORE_ID returns channel, core and half. -/
  | coreId (core : Nat)
  /-- TETHER_READ (R562): DEVRD of TETHER returns the tether position. -/
  | tetherRead (core : Nat)
  /-- JOB_SERIAL (R562): DEVRD of JOB_SERIAL returns the current job's serial. -/
  | jobSerial (core : Nat)
  /-- JOB_END (R578): DEVWR of JOB_END hands on status and output length and clears the context instance. -/
  | jobEnd (core : Nat)
  /-- LEAF_SUBMIT (R562): DEVWR of LEAF_SUBMIT hands the built leaf to the audit port. -/
  | leafSubmit (core : Nat)
  /-- TRAP (R581): TRAP n enters the trap vector of the handling ring. -/
  | trap (core n : Nat)
  /-- RETX (R587): RETX restores a frame and resumes its ring, or raises PRIVILEGE_FORGE for a forged return. -/
  | retx (core : Nat)
  /-- MFS (R531): MFS pushes a special register. -/
  | mfs (core reg : Nat)
  /-- MTS (R531): MTS pops into a special register, staging protection rules or acting as the register defines. -/
  | mts (core reg : Nat)
  /-- MPUSYNC (R606): MPUSYNC commits every staged protection rule at once. -/
  | mpusync (core : Nat)
  /-- FENCE (R546): FENCE orders every later access after every earlier one. -/
  | fence (core : Nat)
  /-- WAITI (R546): WAITI waits until an interrupt is pending. -/
  | waiti (core : Nat)
  /-- SLD (R546): SLD loads 8 bytes through a LOAD_SECRET capability into a secret register. -/
  | sld (core sd k disp : Nat)
  /-- SXOR (R546): SXOR exclusive-ors two secret registers. -/
  | sxor (core sd ss : Nat)
  /-- SGFM (R546): SGFM multiplies each byte of a secret register by a constant in GF(2^8). -/
  | sgfm (core sd k : Nat)
  /-- SCLR (R546): SCLR clears one or every secret register. -/
  | sclr (core sd : Nat) (all : Bool)
  /-- SPUT (R546): SPUT copies four secret registers to the keel staging input or card-bus share buffer and clears
  SPORT. -/
  | sput (core ss dest : Nat)
  /-- SRAND (R546): SRAND fills a secret register from the channel DRBG, stalling until delivered. -/
  | srand (core sd : Nat)
  /-- INTERRUPT_TAKEN (R591): A pending interrupt is taken at an interrupt boundary in its handling ring,
  withdrawing any stall. -/
  | interruptTaken (core : Nat)
  /-- NOINT_EXPIRE (R594): The non-interruptible window's count reaches 0 and held interrupts may be taken. -/
  | nointExpire (core : Nat)
  /-- DEBUG_CHALLENGE (R612): A debugger asks for a challenge and the gate draws a nonce and enters CHALLENGED. -/
  | debugChallenge
  /-- DEBUG_RESPONSE (R612): A debugger's certificate, instance and signature are checked and the gate enters OPEN
  or refuses. -/
  | debugResponse (chain : Bytes) (inst : Nat) (sig : Bytes)
  /-- DEBUG_ACCESS (R613): A 32-bit debug read or write of a core's local memory is performed or refused. -/
  | debugAccess (core : Nat) (write : Bool) (addr : Nat) (value : Word32)
  /-- DEBUG_CLOSE (R615): A close instruction puts the gate in CLOSED. -/
  | debugClose
  /-- CREATE (R623): Manager request CREATE creates an instance with its pools, shares and new log. -/
  | create (acc : Acc) (inst : Nat)
  /-- RESET (R636): Manager request RESET raises the generation, resets rings and aborts jobs not begun at step 5.
  -/
  | reset (acc : Acc) (inst : Nat)
  /-- REMOVE (R638): Manager request REMOVE stops the instance and drains its work. -/
  | remove (acc : Acc) (inst : Nat)
  /-- REMOVE_COMPLETE (R638): When every completion is written or discarded, the removal takes effect and resources
  return to pools. -/
  | removeComplete (inst : Nat)
  /-- FREEZE (R640): Manager request FREEZE sets QUIESCE and stops the instance's intakes. -/
  | freeze (acc : Acc) (inst : Nat)
  /-- FREEZE_COMPLETE (R640): When the last completion is written, the FREEZE seal is made and the instance becomes
  QUIESCED. -/
  | freezeComplete (inst : Nat)
  /-- THAW (R641): Manager request THAW returns a frozen instance to RUNNING. -/
  | thaw (acc : Acc) (inst : Nat)
  /-- TICKET (R642): Manager request TICKET reserves an instance number and writes a signed migration ticket. -/
  | ticket (acc : Acc) (inst : Nat)
  /-- SAVE (R645): Manager request SAVE encrypts the instance payload to a ticket and writes the record. -/
  | save (acc : Acc) (inst : Nat) (ok : Bool) (data : Bytes)
  /-- RESTORE (R652): Manager request RESTORE opens a record and creates the instance at the destination. -/
  | restore (acc : Acc) (inst : Nat) (ok : Bool) (data : Bytes)
  /-- CONFIGURE (R632): Manager request CONFIGURE changes an instance's shares, weights and binding at one instant.
  -/
  | configure (acc : Acc) (inst : Nat)
  /-- MC_BIND (R623): Manager request MC_BIND binds or unbinds a microcode slot to an instance. -/
  | mcBind (acc : Acc) (inst : Nat)
  /-- CER_JOIN (R920): Manager request CER_JOIN has firmware read a share from a card slot into a staging slot. -/
  | cerJoin (acc : Acc) (inst : Nat)
  /-- CER_SPLIT (R350): Manager request CER_SPLIT generates a KBPK and writes N share records to cards. -/
  | cerSplit (acc : Acc) (inst : Nat)
  /-- CER_ABANDON (R351): Manager request CER_ABANDON empties a staging slot held by the instance. -/
  | cerAbandon (acc : Acc) (inst : Nat)
  /-- CER_ACTIVATE (R352): Manager request CER_ACTIVATE has firmware arm a KEY_ACTIVATE entry at a position. -/
  | cerActivate (acc : Acc) (inst : Nat)
  /-- MC_LOAD (R570): Manager request MC_LOAD reads, checks and loads a microcode image into a slot. -/
  | mcLoad (acc : Acc) (inst : Nat) (ok : Bool) (data : Bytes)
  /-- GENERATION_WRAP_WAIT_END (R634): A request waiting for jobs under a reused generation value proceeds once they
  are done. -/
  | generationWrapWaitEnd (inst : Nat)
  /-- FUNCTION_LEVEL_RESET_VF (R635): A Function Level Reset of a virtual function resets its instance. -/
  | functionLevelResetVf (inst : Nat)
  /-- TRANSIENT_FAULT (R661): A transient fault is charged to a unit, counted and handled by repetition or re-run.
  -/
  | transientFault (page cause job : Nat)
  /-- SRAM_CORRECTED_ERROR (R660): A single-bit SRAM error is corrected and written back, and a second in a row
  makes the row due for repair. -/
  | sramCorrectedError (page block row : Nat)
  /-- SRAM_UNCORRECTED_ERROR (R670): An uncorrectable SRAM error repairs the row into a spare and the owning unit
  handles the lost content. -/
  | sramUncorrectedError (page block row : Nat)
  /-- NETWORK_PARITY_ERROR (R660): A parity error on an on-package transfer repeats the transfer up to 3 times. -/
  | networkParityError (page job times : Nat)
  /-- RETIREMENT_RECORDED (R675): The repair-map record is written, the OTP mask bit burned and the channel becomes
  RETIRED and power-gated. -/
  | retirementRecorded (page : Nat)
  /-- FIELD_TEST_START (R684): An in-field test of a channel begins, for a stand-in, a firing, or a threshold test
  once the channel is idle. -/
  | fieldTestStart (chan : Nat)
  /-- FIELD_TEST_RESULT (R687): An in-field test ends, passing, failing into retirement or skipped. -/
  | fieldTestResult (chan result step : Nat)
  /-- LINE_SIGNAL_DETECT (R693): An enabled line in DOWN detects signal and begins a training attempt. -/
  | lineSignalDetect (line : Nat)
  /-- LINE_TRAINING_ATTEMPT (R693): A training attempt ends; trained positions carry frames, failed lanes are
  retired, or the attempt fails. -/
  | lineTrainingAttempt (line : Nat) (good : List Nat)
  /-- LANE_LOSS_OF_LOCK (R694): Loss of lock on a lane of an UP line starts retraining. -/
  | laneLossOfLock (line lane : Nat)
  /-- FRAME_RELAY (R698): A frame for another member is relayed cut-through, re-encrypted and stomped if its trailer
  fails. -/
  | frameRelay (line : Nat) (frame : Frame) (ok : Bool)
  /-- LSEQ_REKEY (R697): When a direction's LSEQ reaches 2^47, the line agrees new keys without retraining. -/
  | lseqRekey (line : Nat)
  /-- HELLO (R706): A HELLO message carries certificate, record identity and nonce, and the peer checks it. -/
  | hello (line : Nat) (cert : Bytes) (sysId serial : Nat) (digest : Bytes) (peerLine : Nat) (nonce : Bytes)
  /-- KEY (R706): A KEY message carries ephemeral keys, and link keys are derived after encapsulation and transcript
  signing. -/
  | key (line : Nat) (ecdh kem ct sigEc sigPq : Bytes)
  /-- RECORD (R708): A RECORD message with a higher SERIAL is checked and adopted. -/
  | record (line : Nat) (data : Bytes)
  /-- LINK_STATE (R709): A LINK_STATE flood updates the present set, routes, quorum and roots. -/
  | linkState (line member version : Nat) (lines peers : List Nat)
  /-- ROOT (R711): A ROOT message naming the root in office is accepted if it agrees. -/
  | root (line gondola member : Nat)
  /-- COSIGN_REQ (R712): A COSIGN_REQ statement is checked and answered with COSIGN. -/
  | cosignReq (line from_ gondola sysId serial : Nat) (digest ecPub pqPub : Bytes) (pos : Nat)
  /-- COSIGN (R712): A COSIGN reaches the root, which issues the certificate once quorum co-signs. -/
  | cosign (line member gondola : Nat) (sig : Bytes)
  /-- CERT (R713): A CERT flood brings the gondola certificate and the views become RUNNING. -/
  | cert (line gondola pos root : Nat) (pub : Bytes) (cosigners : List Nat) (data : Bytes)
  /-- KBPK (R361): A KBPK formation frame stages a key at a span member with its own KCV check. -/
  | kbpk (line from_ kind inst slot gen pos : Nat) (kcv key : Bytes)
  /-- SPAN (R653): A SPAN formation frame reserves an instance's number and shares on a member. -/
  | span (line from_ kind inst kc ballast overlap : Nat) (mc : Bytes)
  /-- SIGN_REQ (R715): A SIGN_REQ asks the gondola root to sign under the gondola key. -/
  | signReq (line from_ gondola : Nat) (msg : Bytes)
  /-- SIGNED (R715): A SIGNED message returns a cross-checked gondola signature. -/
  | signed (line from_ : Nat) (ec pq : Bytes)
  /-- LEAVE (R721): A LEAVE flood removes a member from the present set and spans. -/
  | leave (line member : Nat)
  /-- EXPEL (R722): An EXPEL flood sets every line to the target member to MISMATCH. -/
  | expel (line member : Nat)
  /-- ACK (R699): An ACK releases acknowledged frames from the replay buffer. -/
  | ack (line lseq : Nat)
  /-- NAK (R699): A NAK makes the sender replay from an LSEQ, retraining after a third failure. -/
  | nak (line lseq : Nat)
  /-- CREDIT (R702): A CREDIT grants flits for a class and VLANE on a line. -/
  | credit (line cls vlane flits : Nat)
  /-- FWD_ACK (R68): An FWD_ACK lets the executing member drop the kept result and leaf. -/
  | fwdAck (line : Nat) (frame : Frame)
  /-- NAK_FWD (R701): A NAK_FWD makes the origin send the forward again. -/
  | nakFwd (line : Nat) (frame : Frame)
  /-- NAK_RES (R701): A NAK_RES makes the executing member resend its kept result. -/
  | nakRes (line : Nat) (frame : Frame)
  /-- LOST (R701): A LOST makes the origin resend the forward or request the result. -/
  | lost (line : Nat) (frame : Frame)
  /-- RETURNED (R362): A RETURNED forward is run by the origin or sent to a matching member. -/
  | returned (line : Nat) (frame : Frame)
  /-- LOAD (R725): A LOAD flood updates a member's idle channels and free buffers for forwarding choice. -/
  | load (line member idle free : Nat)
  /-- FORM_LOAD (R704): BRL_FORM.CMD LOAD reads and checks a formation record and forms again. -/
  | formLoad (acc : Acc) (ok : Bool) (data : Bytes)
  /-- FORM_JOIN (R729): BRL_FORM.CMD JOIN begins formation again at G3 from ISOLATED. -/
  | formJoin (acc : Acc)
  /-- FORM_LEAVE (R721): BRL_FORM.CMD LEAVE drains forwards and isolates the device. -/
  | formLeave (acc : Acc)
  /-- FORM_EXPEL (R722): BRL_FORM.CMD EXPEL at the outermost root floods EXPEL for TARGET. -/
  | formExpel (acc : Acc)
  /-- FORM_CLEAR (R705): BRL_FORM.CMD CLEAR leaves and drops the record. -/
  | formClear (acc : Acc)
  /-- TAMPER_FIRE (R734): A source asserted in FILTER consecutive samples, or an event, fires on main power and its
  rung acts within the episode. -/
  | tamperFire (src machine unit : Nat)
  /-- TMP_FIRED_CLEAR (R742): A W1C write to TMP_FIRED clears bits of unasserted sources and closes the episode when
  all are clear. -/
  | tmpFiredClear (acc : Acc) (hi : Bool) (mask : Word32)
  /-- EVIDENCE_BIT_BURN (R746): A thermometer bit is burned and verified while the count is below EVID_TARGET. -/
  | evidenceBitBurn
  /-- TMP_TEST (R748): Writing TMP_TEST.GO stimulates a source at its sensor. -/
  | tmpTest (acc : Acc) (value : Word32)
  /-- TMP_TEST_DONE (R749): A test ends, the stimulus is removed and RESULT set. -/
  | tmpTestDone (pass : Bool)
  /-- TMP_FUSE_BURN (R736): A keyed write to TMP_FUSE_BURN burns disable bits for external loops and lid switches.
  -/
  | tmpFuseBurn (acc : Acc) (value : Word32)
  /-- TMP_SRC_CFG_WRITE (R738): A write of a source's RESPONSE or FILTER takes effect at its next sample, respecting
  FLOOR, and updates the mooring shadow. -/
  | tmpSrcCfgWrite (acc : Acc) (src : Nat) (value : Word32)
  /-- VIN_LOSS (R752): VIN falls below the absence level; the mooring domain takes over on the cell and the device
  is MOORED. -/
  | vinLoss
  /-- CELL_TAMPER_FIRE (R753): A source fires on the cell; the mooring log is written, evidence raised and the
  ripcord pulled on VBAT if its rung says so. -/
  | cellTamperFire (src : Nat)
  /-- VBAT_COLLAPSE (R755): VBAT falls below 2.0 V without VIN and all mooring state is lost. -/
  | vbatCollapse
  /-- MOORING_LOG_CLEAR (R760): Writing 0xC1EA to MOOR_CTRL empties the mooring log when unlocked and no episode is
  open. -/
  | mooringLogClear (acc : Acc) (value : Word32)
  /-- FL_WIN_DATA_READ (R767): A read of FL_WIN_DATA returns array data, the status word or an error response, and
  may advance ADDR. -/
  | flWinDataRead (acc : Acc) (ecc : Nat)
  /-- PROGRAM_GRANULE (R771): Command 0x40 programs one granule. -/
  | programGranule (acc : Acc) (addr : Nat) (w0 w1 w2 w3 : Word32)
  /-- BUFFERED_PROGRAM (R771): Command 0x41 programs 1 to 16 granules in one page. -/
  | bufferedProgram (acc : Acc) (addr : Nat) (data : Bytes)
  /-- SECTOR_ERASE (R771): Command 0x62 erases a sector. -/
  | sectorErase (acc : Acc) (addr : Nat)
  /-- ERASE_SUSPEND (R777): Command 0x6B asks a running erase to suspend. -/
  | eraseSuspend (acc : Acc) (bank : Nat)
  /-- ERASE_SUSPENDED (R779): The erase suspends, no earlier than 200 µs after its last resume. -/
  | eraseSuspended (bank : Nat)
  /-- ERASE_RESUME (R777): Command 0x6C resumes a suspended erase. -/
  | eraseResume (acc : Acc) (bank : Nat)
  /-- READ_STATUS (R771): Command 0x90 puts the bank in status mode. -/
  | readStatus (acc : Acc) (bank : Nat)
  /-- RETURN_TO_READ_ARRAY (R771): Command 0xF0 ends status mode. -/
  | returnToReadArray (acc : Acc) (bank : Nat)
  /-- FLASH_OPERATION_END (R776): A program or erase ends, BUSY clears and RESULT is set after verification. -/
  | flashOperationEnd (bank good : Nat)
  /-- BROWNOUT (R782): The brown-out detector asserts; no new pulse starts and the running operation ends with
  BROWNOUT. -/
  | brownout
  /-- STORE_COMPACTION (R792): With fewer than 3 free store sectors, the keel copies live tail records, erases the
  tail and records the new tail. -/
  | storeCompaction
  /-- SLOT_PRESENT (R796): A detect switch reads low for 10 ms, the slot becomes PRESENT and is brought up,
  announced, assigned and negotiated. -/
  | slotPresent (slot : Nat)
  /-- SLOT_REMOVAL (R812): A detect switch reads high twice; the slot is powered down in order and its command ends.
  -/
  | slotRemoval (slots : List Nat)
  /-- CCB_OVERCURRENT (R797): An overcurrent on a slot supply is handled as a removal and sets OVERCURRENT. -/
  | ccbOvercurrent (slot : Nat)
  /-- CARD_REPLY (R801): A reply frame arrives from a card and the command continues, is retried or ends. -/
  | cardReply (addr status : Nat) (data : Word32) (crcOk : Bool)
  /-- CARD_BLOCK (R802): A data block from a card arrives and is checked by CRC. -/
  | cardBlock (data : Bytes) (crc : Nat)
  /-- CARD_BUSY_END (R802): The card releases DAT0 after programming and the command ends. -/
  | cardBusyEnd
  /-- READ_RECORD (R816): CCB_CMD READ_RECORD reads a card record into the keel share buffer. -/
  | readRecord (acc : Acc) (slot record : Nat)
  /-- WRITE_RECORD (R799): CCB_CMD WRITE_RECORD writes the share buffer to a card record against EXPECT. -/
  | writeRecord (acc : Acc) (slot record : Nat)
  /-- STATUS (R804): CCB_CMD STATUS reads a card's state, lock and failure count. -/
  | status (acc : Acc) (slot : Nat)
  /-- SET_PWD (R803): CCB_CMD SET_PWD sets a card password by CREDENTIAL. -/
  | setPwd (acc : Acc) (slot : Nat)
  /-- CLR_PWD (R803): CCB_CMD CLR_PWD clears a card password. -/
  | clrPwd (acc : Acc) (slot : Nat)
  /-- LOCK (R803): CCB_CMD LOCK locks a card. -/
  | lock (acc : Acc) (slot : Nat)
  /-- UNLOCK (R800): CCB_CMD UNLOCK unlocks a card with its password. -/
  | unlock (acc : Acc) (slot : Nat)
  /-- FORCE_ERASE (R800): CCB_CMD FORCE_ERASE clears a card's password, failure count and records. -/
  | forceErase (acc : Acc) (slot : Nat)
  /-- CCB_ABORT (R808): Writing 0xAB07 to CCB_CTRL ends the accessor's waiting card command with ABORTED. -/
  | ccbAbort (acc : Acc) (value : Word32)
  /-- FIELD_ON (R825): The RF field stays above H_DETECT for 1 ms; the tag enters IDLE with a new random UID. -/
  | fieldOn
  /-- FIELD_OFF (R825): The field stays below H_DETECT for 1 ms; tag, session and keys are discarded. -/
  | fieldOff
  /-- FD_WAKE_RELEASE (R829): 10 ms after field-off, FD_WAKE is released. -/
  | fdWakeRelease
  /-- REQA (R824): REQA moves the tag from IDLE or READY to READY with ATQA. -/
  | reqa
  /-- WUPA (R824): WUPA moves the tag from IDLE, HALT or READY to READY with ATQA. -/
  | wupa
  /-- ANTICOLLISION (R826): ANTICOLLISION with matching UID bits is answered with the remaining bits. -/
  | anticollision (nvb : Nat) (bits : Bytes)
  /-- SELECT (R826): A full SELECT with matching UID makes the tag ACTIVE with SAK. -/
  | select (nvb : Nat) (bits : Bytes) (crcOk : Bool)
  /-- HLTA (R824): HLTA moves an ACTIVE tag to HALT. -/
  | hlta (crcOk : Bool)
  /-- RATS (R824): RATS moves an ACTIVE tag to PROTOCOL with ATS. -/
  | rats (param : Nat) (crcOk : Bool)
  /-- S_DESELECT (R824): S(DESELECT) moves the tag from PROTOCOL to HALT. -/
  | sDeselect (crcOk : Bool)
  /-- SELECT_AID (R830): APDU SELECT with the application AID selects the custody application. -/
  | selectAid (cla p1 p2 : Nat) (data : Bytes)
  /-- GET_EVIDENCE (R834): APDU GET_EVIDENCE returns the 24-byte evidence block. -/
  | getEvidence (cla p1 p2 : Nat) (data : Bytes)
  /-- READ_JOURNAL (R831): APDU READ_JOURNAL returns a journal record. -/
  | readJournal (cla p1 p2 : Nat) (data : Bytes)
  /-- AUTH_BEGIN (R833): APDU AUTH_BEGIN returns RndT and closes any session. -/
  | authBegin (cla p1 p2 : Nat) (data : Bytes)
  /-- AUTH_END (R833): APDU AUTH_END checks MAC_R, returns MAC_T and opens a session, or blocks authentication. -/
  | authEnd (cla p1 p2 : Nat) (data : Bytes)
  /-- READ_IDENTITY (R835): APDU READ_IDENTITY returns the fingerprint, part number and lifecycle under a READ
  session. -/
  | readIdentity (cla p1 p2 : Nat) (data : Bytes)
  /-- READ_MOOR_LOG (R831): APDU READ_MOOR_LOG returns a mooring-log entry under a READ session. -/
  | readMoorLog (cla p1 p2 : Nat) (data : Bytes)
  /-- APPEND (R842): APDU APPEND programs a journal record in three verified steps under a JOURNAL session. -/
  | append (cla p1 p2 : Nat) (data : Bytes)
  /-- APPEND_RESUME (R843): A waiting append resumes its step when the field returns to H_WRITE. -/
  | appendResume (strong : Bool)
  /-- DEVICE_APPEND (R840): Writing TAG_APP_CTRL.GO appends a device record with EXPECT. -/
  | deviceAppend (acc : Acc) (value : Word32)
  /-- TAG_KEY_WRITE (R836): Writing TAG_KEY_CTRL.GO sets or clears K_READ or K_JOURNAL. -/
  | tagKeyWrite (acc : Acc) (value : Word32)
  /-- TAG_JRNL_CLR (R838): Writing 0xC1E7 to TAG_JRNL_CLR empties the journal before commissioning. -/
  | tagJrnlClr (acc : Acc) (value : Word32)
  /-- VF_ENABLE_WRITE (R856): A write of VF Enable creates virtual functions, or clearing it resets every instance
  of the port. -/
  | vfEnableWrite (port : Nat) (on : Bool) (numVf : Nat)
  /-- FUNCTION_LEVEL_RESET_PF (R857): A Function Level Reset of a physical function resets its configuration, MSI-X,
  per-accessor registers and VF Enable. -/
  | functionLevelResetPf (port : Nat)
  /-- PORT_RESET (R888): PERSTn_N low, hot reset or link down resets port n's configuration, IDE keys and sessions.
  -/
  | portReset (port cause : Nat)
  /-- LINK_UP (R889): A port's link reaches L0 and a STARTING port becomes RUNNING. -/
  | linkUp (port speed width : Nat)
  /-- COMPLETION_TIMEOUT (R852): With Completion Timeout enabled, a read with no completion in range is treated as
  an error completion. -/
  | completionTimeout (job : Nat)
  /-- TLP_RECEIVE (R863): A received TLP not carried by a Secure stream is discarded while REQUIRE is 1. -/
  | tlpReceive (port : Nat) (exempt : Bool) (stream : Nat)
  /-- IDE_INTEGRITY_FAIL (R863): A TLP failing its IDE integrity check takes its stream Insecure and sets IDE_FAIL.
  -/
  | ideIntegrityFail (port stream : Nat)
  /-- GET_VERSION (R859): SPDM GET_VERSION is answered. -/
  | getVersion (port : Nat) (data : Bytes)
  /-- GET_CAPABILITIES (R859): SPDM GET_CAPABILITIES is answered. -/
  | getCapabilities (port : Nat) (data : Bytes)
  /-- NEGOTIATE_ALGORITHMS (R859): SPDM NEGOTIATE_ALGORITHMS is answered. -/
  | negotiateAlgorithms (port : Nat) (data : Bytes)
  /-- GET_DIGESTS (R859): SPDM GET_DIGESTS is answered. -/
  | getDigests (port : Nat) (data : Bytes)
  /-- GET_CERTIFICATE (R859): SPDM GET_CERTIFICATE returns the slot 0 chain. -/
  | getCertificate (port : Nat) (data : Bytes)
  /-- SPDM_CHALLENGE (R861): SPDM CHALLENGE is answered with a cross-checked identity signature. -/
  | spdmChallenge (port : Nat) (data : Bytes)
  /-- GET_MEASUREMENTS (R860): SPDM GET_MEASUREMENTS returns the measurement blocks. -/
  | getMeasurements (port : Nat) (data : Bytes)
  /-- KEY_EXCHANGE (R859): SPDM KEY_EXCHANGE begins a session. -/
  | keyExchange (port : Nat) (data : Bytes)
  /-- FINISH (R859): SPDM FINISH completes a session. -/
  | finish (port : Nat) (data : Bytes)
  /-- KEY_UPDATE (R859): SPDM KEY_UPDATE updates session keys. -/
  | keyUpdate (port session : Nat) (data : Bytes)
  /-- END_SESSION (R859): SPDM END_SESSION ends a session. -/
  | endSession (port session : Nat)
  /-- QUERY (R862): IDE_KM QUERY is answered within a session. -/
  | query (port session stream : Nat)
  /-- KEY_PROG (R862): IDE_KM KEY_PROG programs a key set of a stream. -/
  | keyProg (port session stream keySet : Nat) (tx : Bool) (key : Bytes)
  /-- K_SET_GO (R862): IDE_KM K_SET_GO starts using a key set. -/
  | kSetGo (port session stream keySet : Nat) (tx : Bool)
  /-- K_SET_STOP (R862): IDE_KM K_SET_STOP stops a key set. -/
  | kSetStop (port session stream keySet : Nat) (tx : Bool)
  /-- IDLE_ENTRY (R865): After IDLE_DELAY with no work, the device enters IDLE and gates clocks. -/
  | idleEntry
  /-- STANDBY (R866): Writing PWR_CTRL.STANDBY = 1 checks and enters STANDBY, removing power from the compute dies.
  -/
  | standby (acc : Acc)
  /-- WAKE (R868): Writing PWR_CTRL.WAKE = 1, a held request or a NOTIFY firing returns the device from STANDBY to
  RUN. -/
  | wake (acc : Acc)
  /-- VIN_VALID (R872): VIN stays above the lower threshold for 2 ms and start-up runs its steps to READY. -/
  | vinValid (straps : Nat)
  /-- RESET_N_LOW (R888): RESET_N low, or the tamper RESET rung, resets the device and start-up begins at step 1. -/
  | resetNLow (tamper : Bool)
  /-- FW_STAGE (R875): Writing FW_CTRL.GO has firmware read, check and stage an image set for installation. -/
  | fwStage (acc : Acc) (ok : Bool) (data : Bytes)
  /-- CHALLENGE (R879): LC_CMD CHALLENGE draws a nonce into LC_NONCE. -/
  | challenge (acc : Acc)
  /-- SHIP (R878): LC_CMD SHIP writes the device certificate and moves FACTORY to UNCOMMISSIONED. -/
  | ship (acc : Acc) (ok : Bool) (data : Bytes)
  /-- COMMISSION (R880): LC_CMD COMMISSION binds the owner root certificate and moves to COMMISSIONED. -/
  | commission (acc : Acc) (ok : Bool) (data : Bytes)
  /-- OWNER_LIST (R882): LC_CMD OWNER_LIST checks and replaces the owner device list. -/
  | ownerList (acc : Acc) (ok : Bool) (data : Bytes)
  /-- ZEROISE (R881): LC_CMD ZEROISE pulls the ripcord and moves the device to ZEROISED. -/
  | zeroise (acc : Acc) (ok : Bool) (data : Bytes)
  /-- SMBUS_SET_POINTER (R906): SMBus command 0x01 sets the port's BAR0 address pointer. -/
  | smbusSetPointer (ptr : Nat) (pecOk : Bool)
  /-- SMBUS_WRITE (R906): SMBus command 0x02 writes 32 bits at a BAR0 offset as host port 0's accessor. -/
  | smbusWrite (ptr : Nat) (value : Word32) (pecOk : Bool)
  /-- SMBUS_READ (R906): SMBus command 0x03 reads 32 bits at the address pointer. -/
  | smbusRead
  /-- ALERT_RESPONSE (R908): A read of the Alert Response Address while ALERT_N is low returns the device's address.
  -/
  | alertResponse
  /-- TAMPER_SAMPLE (R734): A tamper source's sample that does not fire raises its filter count or returns it to 0,
  changing TMP_LIVE and possibly closing the open episode under R742. -/
  | tamperSample (src : Nat) (asserted : Bool)
  /-- LOAD_FLOOD (R725): A member floods LOAD once its idle count has changed by 4 or more and 100 µs have passed
  since its last LOAD. -/
  | loadFlood
  /-- PORT_HASH_COMPLETE (R437): The bulk lane finishes a hash that a Sail sequence asked for through its port, and
  the engine leaves WAIT_LANE and continues its command. -/
  | portHashComplete (page : Nat)
  /-- BROWNOUT_DEASSERT (R782): The flash brown-out detector deasserts, FL_BROWNOUT.ASSERTED returns to 0, and new
  program and erase commands are accepted again. -/
  | brownoutDeassert
  /-- PHYSICAL_FUNCTION_BUS_MASTER_ENABLE (R858): A change of Bus Master Enable of a physical function stops or
  resumes the audit-ring and proof-store writes issued through it, and the commits that wait on them. -/
  | physicalFunctionBusMasterEnable (port : Nat) (on : Bool)
  /-- PERST_RELEASE (R872): PERSTn_N of a port goes high, HP_LINK.PERST clears, and the port begins link training.
  -/
  | perstRelease (port : Nat)
  deriving DecidableEq, Repr

end Sys2Proof
end

