-- ==== Sys2Proof/Decode.lean ====
section
/-! DEFINITION. The command that a word spells. The table gives no row any bits, so no word spells a command; the formats of
Carit instruction words stand in Machine/CaritDecode.lean, where the checks of a microcode image use them. -/

namespace Sys2Proof

/-- The command spelled by `nbits` bits of value `w`: none, since no row of the table has bits. -/
def decodeTableWord (_nbits _w : Nat) : Option Instr := none

end Sys2Proof
end

