-- ==== Sys2Proof/Config.lean ====
section
/-! DEFINITION. What an implementation or an outside standard fixes, as constants without a body: free values, the
results of cryptographic primitives whose standards stand outside the spec, and the part's factory data. Every result
has a fixed length, so that no statement rests on more than the spec says. -/

namespace Sys2Proof.Config

/-- A free byte: value number `n`, byte `i`. Nothing constrains it (DESIGN CHOICE, log 9). -/
opaque freeByte (n i : Nat) : Byte

/-- A free natural number, taken modulo what the rule that asks for it allows. -/
opaque freeNat (n : Nat) : Nat

/-- Primitives of standards outside the spec, each applied to byte-string arguments in the order its user names. -/
inductive Prim where
  | sha1 | sha224 | sha256 | sha384 | sha512 | sha512_256 | sha3_224 | sha3_256 | sha3_384 | sha3_512
  | shake128 | shake256
  | aesEnc | aesDec | tdeaEnc | tdeaDec | aesCbcEnc | aesCbcDec | tdeaCbcEnc | tdeaCbcDec | aesCtr
  | gcmEnc | gcmDec | gcmTag | gcmSivEnc | gcmSivDec | gcmSivTag | gmac
  | aesCmac | tdeaCmac | tdeaMac | hmac | kdf | hkdf
  | kbpkEncKey | kbpkMacKey
  | ff1Enc | ff1Dec
  | dukptAes | dukptTdea | emvSession
  | sign | publicOf | genPair | kemEncaps | kemDecaps | kemShared | ecdh
  | identityPub | deviceFp | unitFp | signerFp | x509
  | firmware | spdm | ideKm | pairwise | linkKey | sessionKey
  deriving DecidableEq, Repr

/-- Byte `i` of the result of a primitive. -/
opaque prim (p : Prim) (args : List Bytes) (i : Nat) : Byte

/-- Whether a check of a primitive passes: a signature, a tag, a public-key validation, a certificate. -/
opaque check (p : Prim) (args : List Bytes) : Bool

/-- A number that a primitive or a format outside the spec gives (a length, a version, a field of a certificate). -/
opaque measure (p : Prim) (args : List Bytes) : Nat

/-- The first `n` bytes of a primitive's result. -/
def out (p : Prim) (args : List Bytes) (n : Nat) : Bytes := (List.range n).map (prim p args)

/-- Contents of a granule of a flash area whose layout the spec does not give, and whether it is programmed, by the version of
the area and the granule's number (R762, R787, R788 of 19_flash.md). -/
opaque flashGranule (version granule : Nat) : BitVec 128
opaque flashUsed (version granule : Nat) : Bool

/-- The device identity seed and identity private keys of the part as manufactured (R25, R29 of 01). -/
opaque identitySeed : BitVec 256
opaque identityEcPriv : BitVec 384
opaque identityPqPriv : BitVec 256

/-- The part is an ECZ-B5120-E rather than an ECZ-B5120-C (R1 of 00_scope.md). -/
opaque gradeE : Bool

end Sys2Proof.Config
end

