-- ==== Sys2Proof/Machine/State.lean ====
section
/-! DEFINITION. The state of the block as plain data: every register, buffer, counter, mode and pin the spec names, with
its width, its rule and its reset value in the docstring; `State.reset`; the outcomes' reasons. -/

namespace Sys2Proof.Machine

/-! ## Units (02_unit_pages.md) -/

/-- UNIT_STATE.STATE of R84. -/
inductive UState where
  | off | starting | running | stopping | quiesced | faulted | retired
  deriving DecidableEq, Repr

/-- The common header of a unit page (R80 to R101). One per page that holds a unit. -/
structure UnitHdr where
  /-- UNIT_STATE.STATE (3 bits, R84); reset: as start-up leaves it, R35 and R36 -/
  state : UState := .running
  /-- UNIT_STATE.ENABLE_PENDING (1 bit, R84); reset 0 -/
  pending : Bool := false
  /-- UNIT_CTRL.ENABLE (1 bit, R86); reset 1 for a unit that start-up brought to RUNNING -/
  enable : Bool := true
  /-- UNIT_CTRL.LEVEL (1 bit, R86); reset 0, basic -/
  level : Bool := false
  /-- UNIT_CTRL.QUIESCE (1 bit, R86); reset 0 -/
  quiesce : Bool := false
  /-- a drain toward QUIESCED is in progress, STATE still reading RUNNING (R102); reset false -/
  draining : Bool := false
  /-- an accepted retirement request is being carried out: STOPPING leads to RETIRED (R102); reset false -/
  retiring : Bool := false
  /-- UNIT_FAULT.TRANSIENT (8 bits, R87); reset 0 -/
  transient : Nat := 0
  /-- UNIT_FAULT.LAST_CAUSE (8 bits, R87); reset 0 -/
  lastCause : Nat := 0
  /-- UNIT_FAULT.PERM_CAUSE (8 bits, R87); reset 0, or the repair map's for a retired unit -/
  permCause : Nat := 0
  /-- UNIT_FAULT.PERMANENT (1 bit, R87); reset 0, or 1 for a retired unit -/
  permanent : Bool := false
  /-- UNIT_RETIRE.FACTORY (1 bit, R89); reset from the repair map -/
  factory : Bool := false
  /-- UNIT_RETIRE.FIELD (1 bit, R89); reset from the repair map -/
  field : Bool := false
  /-- UNIT_RETIRE.MAP_INDEX (8 bits, R89); reset 0xFF, no record -/
  mapIndex : Nat := 255
  /-- UNIT_EVENT (32 bits, R94), bit 4 CHILD not held here but computed; reset 0 -/
  event : Word32 := 0
  /-- UNIT_EVENT_EN (32 bits, R94); reset 0 -/
  eventEn : Word32 := 0
  /-- UNIT_LOCK.LOCK (1 bit, R98); reset 0 -/
  lock : Bool := false
  /-- UNIT_LOCK.REFUSED (8 bits, R98, R108); reset 0 -/
  refused : Nat := 0
  deriving DecidableEq, Repr

/-! ## Rings, entries, jobs (01, 03, 04) -/

/-- One ring page of an instance (R115, R121 to R127), keyed 16 × instance + ring. -/
structure Ring where
  /-- pool number of the ring while it is allocated (R120, INT_RING.POOL); none: not allocated, R116; reset none -/
  pool : Option Nat := none
  /-- RING_BASE_LO.ADDR (bits 31:12, R121); reset 0 -/
  baseLo : Word32 := 0
  /-- RING_BASE_HI.ADDR (32 bits, R122); reset 0 -/
  baseHi : Word32 := 0
  /-- RING_SIZE.LOG2 (5 bits, R123); reset 0 -/
  log2 : Nat := 0
  /-- RING_HEAD.INDEX (16 bits, R125); reset 0 -/
  head : Nat := 0
  /-- RING_STATUS.ENABLE (1 bit, R126); reset 0 -/
  enable : Bool := false
  /-- RING_STATUS.ERROR (1 bit, R126); reset 0 -/
  error : Bool := false
  /-- RING_STATUS.CAUSE (4 bits, R126): 0 none, 1 ENTRY_READ, 2 CONFIG; reset 0 -/
  cause : Nat := 0
  /-- RING_STATUS.FAULT_INDEX (16 bits, R126); reset 0 -/
  faultIndex : Nat := 0
  /-- RING_VECTOR.EVERY (1 bit, R127); reset 0 -/
  every : Bool := false
  /-- channel whose intake serves the ring (R51); reset 0, meaningless while not allocated -/
  intake : Nat := 0
  /-- a doorbell came after the intake began to read the entry at which it would stop (R54); reset false -/
  rescan : Bool := false
  /-- entries of the open chain, or of the take that waits for ballast, as read (R146, R140); reset none -/
  readSoFar : List Bytes := []
  /-- a complete take waits for ballast (R46); reset false -/
  waitBallast : Bool := false
  deriving DecidableEq, Repr

/-- Where a job stands on the path of R58. -/
inductive Phase where
  /-- taken; an ORDERED job is held here by R158 -/
  | taken
  /-- step 4, the first 32 bytes of blob k (0 or 1) are being read (R251) -/
  | readHead (k : Nat)
  /-- step 4, the rest of blob k is being read -/
  | readRest (k : Nat)
  /-- step 4, the input (or its first segment) is being read -/
  | readInput
  /-- input read; not yet handed to a channel (R56) -/
  | handoff
  /-- step 5: waits for the unwrap of key k on its channel's lane (R279) -/
  | unwrap (k : Nat)
  /-- step 5: waits for the fill of key k that another job began (R59) -/
  | waitFill (k : Nat)
  /-- step 6: the keys are available; the opcode's work runs -/
  | run
  /-- step 6 done for this segment, the next input segment is being read (R41) -/
  | nextSegment
  /-- AUDIT_PROOF: proof-store nodes are being read (R403) -/
  | readProof
  /-- VERIFY or VERIFY_BATCH: waits to be gathered or decided (R469) -/
  | verify
  /-- step 7: an own signature waits for its cross-check (R456) -/
  | crossCheck
  /-- result final (R62); the leaf is to be built -/
  | final
  /-- leaf built, waiting to be committed (R377, R380) -/
  | leafBuilt
  /-- leaf committed, completion not yet written (step 9) -/
  | committed
  /-- forwarded to another member (R67), waiting for the result -/
  | forwarded
  /-- received forward: result and leaf kept until acknowledged (R68) -/
  | kept
  deriving DecidableEq, Repr

/-- A capability (128 bits and its hidden tag, R285). -/
structure Cap where
  tag : Bool := false
  /-- OBJECT (48 bits), class in bits 47:44 (R287) -/
  object : Nat := 0
  /-- PERMS (16 bits, R288) -/
  perms : Nat := 0
  /-- INSTANCE (10 bits) -/
  inst : Nat := 0
  /-- GEN (8 bits) -/
  gen : Nat := 0
  /-- OFFSET (23 bits) -/
  offset : Nat := 0
  /-- LENGTH (23 bits) -/
  length : Nat := 0
  deriving DecidableEq, Repr

/-- What the device knows of an unwrapped key beside its material: the descriptor of R269. -/
structure KeyDesc where
  /-- sealed record (true) or key block (false), R250 -/
  isRecord : Bool := false
  /-- X9.143 usage, two characters (R253), 0 for a record -/
  usage : Nat := 0
  /-- X9.143 algorithm character, or the record's ALG code (R196) -/
  alg : Nat := 0
  /-- X9.143 mode of use character; KIND of a record (R259) -/
  mode : Nat := 0
  /-- X9.143 key version, two characters -/
  version : Nat := 0
  /-- X9.143 exportability character -/
  export_ : Nat := 0
  /-- record USAGE bits (R259) -/
  recUsage : Nat := 0
  /-- record FLAGS (R259) -/
  flags : Nat := 0
  /-- record INSTANCE (R259) -/
  inst : Nat := 0
  /-- KBPK generation under which the blob authenticated (R265) -/
  kbpkGen : Nat := 0
  /-- record CREATED (R260) -/
  created : Nat := 0
  /-- record ORIGIN (R260), 24 bytes -/
  origin : Bytes := []
  /-- optional blocks carried by a key block, in R258's order: identifier and whole text (R256) -/
  opts : List (Nat × Bytes) := []
  deriving DecidableEq, Repr

/-- An unwrapped key: descriptor and clear material (R269, R262). -/
structure Key where
  desc : KeyDesc := {}
  material : Bytes := []
  deriving DecidableEq, Repr

/-- A taken job (R58). Keyed by its serial. -/
structure Job where
  inst : Nat := 0
  ring : Nat := 0
  /-- index of its entry in the ring (R143) -/
  index : Nat := 0
  /-- instance generation under which it was taken (R63, R161) -/
  gen : Nat := 0
  /-- serial of the FIRST member of its chain; its own for a single entry (R145) -/
  first : Nat := 0
  /-- members of its chain -/
  members : Nat := 1
  /-- the 64 bytes of its entry as read (R140) -/
  entry : Bytes := []
  phase : Phase := .taken
  /-- ballast buffers held (R40) -/
  bufs : List Nat := []
  /-- how many of them are charged to the reserve (R43) -/
  fromReserve : Nat := 0
  /-- executing channel, once handed off (R56) -/
  chan : Option Nat := none
  /-- Carit core that took it from JOB_NEXT (R563), as its unit page -/
  core : Option Nat := none
  /-- KBPK generation set fixed as its first blob read ends (R359): current, and previous while held -/
  genCur : Nat := 0
  genPrev : Option Nat := none
  genSet : Bool := false
  /-- blob bytes as read at step 4 (R140), and whether the whole blob has been read (R190) -/
  blob1 : Bytes := []
  blob1Done : Bool := false
  blob2 : Bytes := []
  blob2Done : Bool := false
  /-- the unwrapped keys and the capabilities made for them (R289) -/
  key1 : Option Key := none
  key2 : Option Key := none
  cap1 : Cap := {}
  cap2 : Cap := {}
  /-- input bytes as read by this attempt (R140, R192) -/
  input : Bytes := []
  /-- proof-store node data read for AUDIT_PROOF, in the order of the reads (R403) -/
  proof : List Bytes := []
  /-- status, meaningful from phase final on (R166, R183) -/
  status : Nat := 0
  /-- RESULT bytes 20 to 63, 44 of them (R161) -/
  result : Bytes := []
  /-- output bytes held in ballast -/
  out : Bytes := []
  /-- OUT_LEN (R161, R163) -/
  outLen : Nat := 0
  /-- bytes that Carit cores stored through its ballast capability, keyed by object offset, and the tags of the 16-byte
  granules (R294 of 05, R572 of 13); reset none -/
  mem : Tab Byte := []
  tags : Tab Bool := []
  /-- output bytes already streamed by R188 -/
  streamed : Nat := 0
  /-- R63's comparison has failed for an earlier segment (R188): nothing further is written -/
  genFailed : Bool := false
  /-- the built leaf, 64 bytes, SEQ and position still 0 (R370) -/
  leaf : Bytes := []
  /-- SEQ of the committed leaf (R377) -/
  seq : Nat := 0
  /-- NAK_RES frames sent for it (R701) -/
  nakRes : Nat := 0
  /-- re-runs used (R662) -/
  reruns : Nat := 0
  /-- microcode slot whose routine it runs, fixed as it begins step 5 (R572 of 13) -/
  image : Option Nat := none
  /-- unit pages excluded from later attempts (R663); 0x2000 + n stands for member n -/
  excluded : List Nat := []
  /-- waits for a DRBG answer (R515) -/
  waitRand : Bool := false
  /-- bytes the DRBG delivered to it -/
  rand : Bytes := []
  /-- pages of Sail engines that hold its values (R438) -/
  engines : List Nat := []
  /-- forward identifier of R66, for a forwarded or received job -/
  fwdId : Option Nat := none
  /-- received from another member: page-free number of that member (R67) -/
  origin : Option Nat := none
  /-- member executing it, for a forwarded job (R70) -/
  execMember : Option Nat := none
  deriving DecidableEq, Repr

/-- One intake (R51 to R57), keyed by channel. -/
structure Intake where
  /-- rings with a doorbell pending, in round-robin order; the front one's entry is being read (R53 to R55); reset none -/
  scan : List Nat := []
  /-- INT_STATUS.WAIT_BALLAST (1 bit, R57); reset 0 -/
  waitBallast : Bool := false
  /-- INT_STATUS.QUOTA_SKIP (1 bit, R45); reset 0 -/
  quotaSkip : Bool := false
  /-- INT_TAKEN.COUNT (32 bits, R56); reset 0 -/
  taken : Word32 := 0
  /-- INT_HANDED.COUNT (32 bits, R56); reset 0 -/
  handed : Word32 := 0
  /-- INT_SCANS.COUNT (32 bits, R56); reset 0 -/
  scans : Word32 := 0
  deriving DecidableEq, Repr

/-- The ballast pool (R40 to R50). Which job holds which buffer stands in the jobs. -/
structure Ballast where
  /-- buffers withdrawn under R671 (BAL_STATE.WITHDRAWN); reset none -/
  withdrawn : List Nat := []
  /-- BAL_STATE.STALLED (1 bit, R46); reset 0 -/
  stalled : Bool := false
  /-- BAL_STATE.CREDIT_HELD (1 bit, R47); reset 0 -/
  creditHeld : Bool := false
  /-- BAL_ACQUIRED.COUNT (32 bits, R42); reset 0 -/
  acquired : Word32 := 0
  /-- BAL_WAITS.COUNT (32 bits, R46); reset 0 -/
  waits : Word32 := 0
  /-- channels of the waiting intakes, round-robin pointer (R48): the channel after the last served; reset 0 -/
  nextIntake : Nat := 0
  deriving DecidableEq, Repr

/-- One MSI-X table entry of a virtual or physical function (R167 to R171, R113). -/
structure MsixEntry where
  /-- message address (64 bits); reset 0 (PCI Express) -/
  addr : Nat := 0
  /-- message data (32 bits); reset 0 -/
  data : Word32 := 0
  /-- mask bit of Vector Control; reset 1 by PCI Express (DESIGN CHOICE, log 22) -/
  masked : Bool := true
  /-- pending bit; reset 0 -/
  pending : Bool := false
  deriving DecidableEq, Repr

/-! ## Key cache (05_key_blobs_and_cache.md) -/

/-- One valid or dead key of the cache, keyed by its head entry number (R267, R269). -/
structure CacheKey where
  /-- full SHA-256 digest of the blob, as a number, first byte most significant (R268) -/
  digest : Nat := 0
  inst : Nat := 0
  /-- KBPK generation (R270) -/
  gen : Nat := 0
  /-- entry numbers of the n entries, head first (R269) -/
  entries : List Nat := []
  /-- fill serial (16 bits, R271) -/
  serial : Nat := 0
  /-- serials of the running jobs that hold a capability to it: the pins (R271) -/
  pins : List Nat := []
  /-- marked dead (R275) -/
  dead : Bool := false
  /-- use stamp: higher is more recent (R270, R273) -/
  stamp : Nat := 0
  key : Key := {}
  deriving DecidableEq, Repr

/-- A fill in progress (R279), keyed by the serial of the job whose lane unwraps. -/
structure Fill where
  digest : Nat := 0
  inst : Nat := 0
  gen : Nat := 0
  /-- entry numbers reserved as victims, head first; empty when bypassed (R273, R274) -/
  reserved : List Nat := []
  /-- an invalidation covered it (R276): entries are written dead -/
  dead : Bool := false
  deriving DecidableEq, Repr

/-- A key staging slot of a channel (R274, R290), keyed 2 × job serial + slot. -/
structure KeyStage where
  job : Nat := 0
  key : Key := {}
  deriving DecidableEq, Repr

/-- The key cache unit (R267 to R284). -/
structure KeyCache where
  /-- valid and dead keys by head entry number; reset none -/
  keys : Tab CacheKey := []
  /-- last fill serial of each entry that has been filled (16 bits, R271); reset 0 -/
  serials : Tab Nat := []
  /-- fills in progress (R279); reset none -/
  fills : Tab Fill := []
  /-- occupied key staging slots (R274); reset none -/
  staging : Tab KeyStage := []
  /-- entries withdrawn by R671 (a way that is no longer used); reset none -/
  withdrawn : List Nat := []
  /-- recency clock of R270; the model's own; reset 0 -/
  stamp : Nat := 0
  /-- KC_HITS, KC_MISSES, KC_FILLS, KC_EVICTS, KC_BYPASSES, KC_AUTH_FAILS (32 bits each); reset 0 -/
  hits : Word32 := 0
  misses : Word32 := 0
  fillCount : Word32 := 0
  evicts : Word32 := 0
  bypasses : Word32 := 0
  authFails : Word32 := 0
  /-- KC_FLUSH fields INSTANCE, ALL, OLD_GEN (R282); reset 0 -/
  flushInst : Nat := 0
  flushAll : Bool := false
  flushOld : Bool := false
  /-- the flush in progress: the same fields as GO took them (R282); the model's own; reset 0 -/
  walkInst : Nat := 0
  walkAll : Bool := false
  walkOld : Bool := false
  /-- KC_FLUSH_STATUS.BUSY (1 bit); reset 0 -/
  busy : Bool := false
  /-- head entry and fill serial of the keys marked dead by the last flush (KC_FLUSH_STATUS.DRAINING reads 1 while one is
  pinned); reset none -/
  drainSet : List (Nat × Nat) := []
  /-- KC_PROBE.SET (15 bits) and WAY (3 bits), R284; reset 0 -/
  probeSet : Nat := 0
  probeWay : Nat := 0
  deriving DecidableEq, Repr

/-! ## Tether and event table (06_tether.md) -/

/-- TETHER_STATUS.STATE (R307). -/
inductive TetherState where
  | unset | locked | adrift
  deriving DecidableEq, Repr

/-- The tether unit (R301 to R318). -/
structure Tether where
  /-- TETHER_CFG.SOURCE (2 bits, R303); reset 0 -/
  source : Nat := 0
  /-- TETHER_CFG.PPS_EDGE (1 bit); reset 0 -/
  ppsEdge : Bool := false
  /-- TETHER_STATUS.STATE (2 bits, R307); reset UNSET -/
  state : TetherState := .unset
  /-- TETHER_STATUS.CATCHUP (1 bit, R311); reset 0 -/
  catchup : Bool := false
  /-- the position (64 bits, R301); reset 0 -/
  pos : Nat := 0
  /-- last accepted second (64 bits); reset 0 -/
  lastSec : Nat := 0
  /-- local cycle (25 MHz) at the last accepted pulse; reset 0 -/
  lastPulse : Nat := 0
  /-- a pulse has been accepted since start-up (R327, R331); reset false -/
  everPulsed : Bool := false
  /-- the pending number and the local cycle at which it became pending (R306); reset none -/
  number : Option (Nat × Nat) := none
  /-- TETHER_NEXT_SEC (64 bits); reset 0 -/
  nextSecLo : Word32 := 0
  nextSecHi : Word32 := 0
  /-- TETHER_INTERVAL.CYCLES (28 bits, R310); reset 0 -/
  interval : Nat := 0
  /-- TETHER_STATUS.MISMATCH_RUN (2 bits, R309); reset 0 -/
  mismatchRun : Nat := 0
  /-- number carried by the last mismatching pulse of the run (R309); reset 0 -/
  mismatchNum : Nat := 0
  /-- TETHER_COUNTS: GLITCH, TOD_ERR, RENUMBER, ADRIFT (8 bits each, saturating); reset 0 -/
  glitch : Nat := 0
  todErr : Nat := 0
  renumber : Nat := 0
  adriftCount : Nat := 0
  /-- highest mark accepted or forwarded from the tether root (R314); reset none -/
  lastMark : Option Nat := none
  /-- TETHER_POS and TETHER_LAST_SEC snapshots of the three accessors (R317), 64 bits each; reset 0 -/
  posSnap : Tab Nat := []
  secSnap : Tab Nat := []
  deriving DecidableEq, Repr

/-- State of an event table entry (R319). -/
inductive EvState where
  | empty | armed | done | failed
  deriving DecidableEq, Repr

/-- One of the 256 event table entries (R319 to R328). -/
structure EvEntry where
  state : EvState := .empty
  /-- POSITION (64 bits) -/
  pos : Nat := 0
  /-- ACTION (8 bits) -/
  action : Nat := 0
  /-- PERIOD_LOG2 (6 bits) -/
  period : Nat := 0
  /-- INSTANCE (10 bits), CHANNEL (6 bits), SLOT (8 bits) -/
  inst : Nat := 0
  chan : Nat := 0
  slot : Nat := 0
  /-- FW (1 bit) -/
  fw : Bool := false
  /-- MISSED (8 bits, saturating) -/
  missed : Nat := 0
  /-- EVT_FIRED (64 bits) -/
  fired : Nat := 0
  deriving DecidableEq, Repr

/-! ## Key hierarchy and ceremonies (07_key_hierarchy_and_ceremonies.md) -/

/-- The generations of one instance (R339, R340), keyed by instance. -/
structure InstKeys where
  /-- current generation (8 bits), 0 when none (KH_GEN.CURRENT); reset 0 -/
  cur : Nat := 0
  /-- current KBPK (256 bits, keel generation store, R332); reset 0 -/
  curKey : BitVec 256 := 0
  /-- previous generation while held (KH_GEN.PREVIOUS, PREV_HELD); reset none -/
  prev : Option Nat := none
  prevKey : BitVec 256 := 0
  /-- KH_RETIRE: position at which the overlap window ends (64 bits); reset 0 -/
  retireAt : Nat := 0
  /-- derivation slots kept for jobs in flight after a generation is no longer held (R281): generation and KBPK -/
  lingering : List (Nat × BitVec 256) := []
  deriving DecidableEq, Repr

/-- KH_SLOT.STATE (R347). -/
inductive SlotState where
  | empty | collecting | staged | failed
  deriving DecidableEq, Repr

/-- One of the 32 staging slots (R347 to R351). -/
structure StageSlot where
  state : SlotState := .empty
  /-- M, N (4 bits each), GEN (8), INSTANCE (10), KCV (5 bytes), SPLIT_ID (8 bytes) -/
  m : Nat := 0
  n : Nat := 0
  gen : Nat := 0
  inst : Nat := 0
  kcv : Bytes := []
  splitId : Bytes := []
  /-- shares held: INDEX and the 32 SHARE bytes -/
  shares : List (Nat × Bytes) := []
  /-- the rebuilt key while STAGED (256 bits) -/
  key : BitVec 256 := 0
  /-- KH_SLOT.PERSISTED (1 bit) -/
  persisted : Bool := false
  /-- KH_SLOT.CAUSE (4 bits, R348) -/
  cause : Nat := 0
  /-- position of the KEY_ACTIVATE entry, recorded with the staged key (R352) -/
  activateAt : Option Nat := none
  /-- a split in progress: share records to write, in INDEX order, and how many are written and read back (R350) -/
  splitRecs : List Bytes := []
  splitDone : Nat := 0
  splitWritten : Bool := false
  deriving DecidableEq, Repr

/-- Key hierarchy state of the keel (R332 to R369). The DRK itself is in the mooring domain. -/
structure KeyHier where
  /-- DRK_STATUS.STATE (2 bits, R338): 0 VALID, 1 NEW, 2 REPLACED, 3 CLEARED -/
  drkState : Nat := 0
  /-- DRK_STATUS.PENDING_GEN (1 bit, R337) -/
  pendingGen : Bool := false
  /-- DRK_STATUS.LOSSES (8 bits), persisted in flash; reset 0 -/
  losses : Nat := 0
  /-- the DRK check value in the flash parameter store (8 bytes), none when absent (R335) -/
  check : Option Bytes := none
  /-- generations of each instance; reset none -/
  insts : Tab InstKeys := []
  /-- the 32 staging slots; reset EMPTY -/
  slots : Tab StageSlot := []
  /-- KH_SEL per accessor: SLOT (5 bits), INSTANCE (10 bits); reset 0 -/
  selSlot : Tab Nat := []
  selInst : Tab Nat := []
  /-- the ripcord has acted in this start-up (R367); reset false -/
  ripcorded : Bool := false
  /-- CER_JOIN requests whose share ring 1 firmware has still to read (R921): card slot, staging slot, instance; reset none -/
  joins : List (Nat × Nat × Nat) := []
  /-- the keel's staging share input (256 bits), which SPUT writes (R546 of 13, R364); reset 0 -/
  shareIn : BitVec 256 := 0
  deriving DecidableEq, Repr

/-! ## The audit log (08_audit_log.md) -/

/-- A seal fired and not yet written (R385 to R389). -/
structure Seal where
  no : Nat := 0
  pos : Nat := 0
  first : Nat := 0
  count : Nat := 0
  unlocked : Nat := 0
  gen : Nat := 0
  height : Nat := 0
  /-- tether state and CATCHUP when made (R388 byte 34) -/
  tstate : Nat := 0
  cause : Nat := 0
  root : BitVec 256 := 0
  /-- node base B_s (R400) -/
  base : Nat := 0
  /-- public audit key that signs it (97 bytes) and its private half -/
  pub : Bytes := []
  priv : BitVec 384 := 0
  /-- PREV of the first seal of a log (R391), none for a later one -/
  startPrev : Option (BitVec 256) := none
  /-- its log ended before it was written -/
  ended : Bool := false
  deriving DecidableEq, Repr

/-- A key record being made (R394, R397). -/
structure KeyRec where
  cause : Nat := 0
  pos : Nat := 0
  sealNo : Nat := 0
  nextSeq : Nat := 0
  kbpkGen : Nat := 0
  pub : Bytes := []
  /-- the KBPK that wraps DIGEST_BLOCK, 0 when absent -/
  kbpk : BitVec 256 := 0
  digestKey : BitVec 256 := 0
  /-- its log ended before it was written -/
  ended : Bool := false
  deriving DecidableEq, Repr

/-- The log of one instance and its audit registers (R370 to R408), keyed by instance. -/
structure Log where
  /-- a log has begun and not ended (R406); reset false -/
  live : Bool := false
  /-- AUD_SEQ (48 bits), SEQ_NEXT of R401; reset 0 -/
  seqNext : Nat := 0
  /-- AUD_SEAL (48 bits), SEAL_NEXT of R401; reset 0 -/
  sealNext : Nat := 0
  /-- AUD_COVERED (48 bits), COVERED of R401; reset 0 -/
  covered : Nat := 0
  /-- FILL of R401 (64 bits); reset 0 -/
  fill : Nat := 0
  /-- PROVABLE_FROM of R401 (48 bits); reset 0 -/
  provFrom : Nat := 0
  /-- seals below this number are unprovable (R402); reset 0 -/
  unprovBelow : Nat := 0
  /-- first SEQ and node base of the open seal (R385, R400); reset 0 -/
  openFirst : Nat := 0
  openBase : Nat := 0
  /-- roots of the completed subtrees of the open seal, lowest first: height and hash (R402); reset none -/
  frontier : List (Nat × BitVec 256) := []
  /-- leaves of the open seal stamped while not following network time (R375, UNLOCKED of R388); reset 0 -/
  unlocked : Nat := 0
  /-- SHA-256 of the body of the seal last written (R391); reset 0 -/
  prev : BitVec 256 := 0
  /-- PREV of the next seal made where that is the first of the log (R391); reset none -/
  startPrev : Option (BitVec 256) := none
  /-- node base of written seals still in the seal table: number, base and height (R400, R403); reset none -/
  bases : Tab (Nat × Nat) := []
  /-- audit key pair (R376, R394); reset none -/
  pub : Bytes := []
  priv : BitVec 384 := 0
  /-- audit digest key (256 bits, R376); reset 0 -/
  digestKey : BitVec 256 := 0
  /-- seals fired and not yet written, oldest first (AUD_STATUS.SEAL_PENDING); reset none -/
  seals : List Seal := []
  /-- key records being made, oldest first (AUD_STATUS.KEY_PENDING); reset none -/
  keyRecs : List KeyRec := []
  /-- AUD_CFG.RING_EN, PS_EN, PORT (1 bit each), SEAL_LOG2 (6 bits); reset 0, 0, 0, 20 -/
  ringEn : Bool := false
  psEn : Bool := false
  port : Nat := 0
  sealLog2 : Nat := 20
  /-- the ring has been enabled since the log began (R380); reset false -/
  everEnabled : Bool := false
  /-- AUD_RING_BASE (64 bits), AUD_RING_SIZE.LOG2 (5 bits); reset 0 -/
  ringBase : Nat := 0
  ringLog2 : Nat := 0
  /-- AUD_RING_WR and AUD_RING_RD (32 bits each); reset 0 -/
  wr : Nat := 0
  rd : Nat := 0
  /-- AUD_PS_BASE (64 bits), AUD_PS_SIZE.LOG2 (6 bits); reset 0 -/
  psBase : Nat := 0
  psLog2 : Nat := 0
  /-- AUD_STATUS.RING_WAIT and CFG_ERR (1 bit each); reset 0 -/
  ringWait : Bool := false
  cfgErr : Bool := false
  /-- position of the last periodic seal multiple fired (R320); reset 0 -/
  lastMultiple : Nat := 0
  deriving DecidableEq, Repr

/-- An audit port (R408, R409), keyed by channel. -/
structure AuditPort where
  /-- AP_BUILT, AP_COMMITTED, AP_DISCARDED (32 bits each); reset 0 -/
  built : Word32 := 0
  committed : Word32 := 0
  discarded : Word32 := 0
  deriving DecidableEq, Repr

/-- The audit unit: logs, ports, per-accessor selections and snapshots. -/
structure Audit where
  logs : Tab Log := []
  ports : Tab AuditPort := []
  /-- AUD_SEL per accessor (10 bits, R407); reset 0 -/
  sel : Tab Nat := []
  /-- AUD_SEQ, AUD_COVERED, AUD_SEAL snapshots, keyed 4 × accessor + which (48 bits each); reset 0 -/
  snap : Tab Nat := []
  deriving DecidableEq, Repr

/-! ## Sail engines (09_sail_engine.md) -/

/-- The hidden attributes of one word of operand memory (R414). -/
structure SailAttr where
  secret : Bool := false
  /-- OBJECT of the capability under which KEY_LOAD wrote it -/
  bind : Option Nat := none
  /-- curve slot and set-up count of a projective point -/
  pt : Option (Nat × Nat) := none
  deriving DecidableEq, Repr

/-- A filled modulus slot (R418): m, its length n in words, SECRET; R² mod m and −m⁻¹ mod 2^64 follow from m and n. -/
structure ModSlot where
  m : Nat := 0
  n : Nat := 0
  secret : Bool := false
  deriving DecidableEq, Repr

/-- A filled curve slot (R420). -/
structure CurveSlot where
  edwards : Bool := false
  p : Nat := 0
  a : Nat := 0
  b : Nat := 0
  order : Nat := 0
  n : Nat := 0
  /-- modulus slot that received p -/
  ms : Nat := 0
  deriving DecidableEq, Repr

/-- SAIL_STATUS.ESTATE (R445). -/
inductive EState where
  | idle | busy | waitRand | waitLane | wiping | loading
  deriving DecidableEq, Repr

/-- What a command will do when it ends: its result and, with result OK, its writes (R422, R423). -/
structure SailEnd where
  result : Nat := 0
  flag : Bool := false
  identity : Bool := false
  /-- words to write: address, value, attributes -/
  writes : List (Nat × Nat × SailAttr) := []
  /-- modulus slots to fill -/
  mods : List (Nat × ModSlot) := []
  /-- curve slot to fill -/
  curve : Option (Nat × CurveSlot) := none
  /-- SAIL_SLOTS.LANE to select, 1 or 2 -/
  lane : Option Nat := none
  /-- SAIL_XLEN after a sequence -/
  xlen : Option Nat := none
  cycles : Nat := 0
  deriving DecidableEq, Repr

/-- A command in hand (R421): word, operands, and the random bytes it still waits for. -/
structure SailRun where
  word : Nat := 0
  arg0 : Nat := 0
  arg1 : Nat := 0
  arg2 : Nat := 0
  arg3 : Nat := 0
  xlen : Nat := 0
  /-- job serial it serves, none at the expert level -/
  job : Option Nat := none
  /-- capability named with KEY_LOAD -/
  cap : Cap := {}
  /-- page of the Carit core that issued it, none for other issuers (R590 of 14) -/
  core : Option Nat := none
  /-- random bytes delivered -/
  rand : Bytes := []
  /-- no hash of the bulk lane is still to come (R437) -/
  hashed : Bool := true
  /-- its end, once every input is there -/
  fin : SailEnd := {}
  deriving DecidableEq, Repr

/-- One Sail engine (R410 to R449), keyed by unit page. -/
structure Sail where
  /-- operand memory, words of 64 bits; reset 0 -/
  mem : Tab Nat := []
  /-- hidden attributes of R414; reset clear -/
  attr : Tab SailAttr := []
  /-- modulus slots 0 to 3 that are filled; reset none -/
  mods : Tab ModSlot := []
  /-- curve slots 0 and 1 that are filled; reset none -/
  curves : Tab CurveSlot := []
  /-- set-up counts of curve slots 0 and 1 (R420); reset 0 -/
  setups : Tab Nat := []
  /-- SAIL_SLOTS.LANE (2 bits): 0 none, 1 q = 3,329, 2 q = 8,380,417; reset 0 -/
  lane : Nat := 0
  /-- the last command was a lane command (R433); reset false -/
  lastWasLane : Bool := false
  /-- SAIL_STATUS.ESTATE; reset IDLE -/
  estate : EState := .idle
  run : Option SailRun := none
  /-- SAIL_STATUS.EXPERT, OWNER_INST, OWNER_GEN, OWNER_KGEN, OWNER_VALID; reset 0 -/
  expert : Bool := false
  ownerInst : Nat := 0
  ownerGen : Nat := 0
  ownerKgen : Nat := 0
  ownerValid : Bool := false
  /-- SAIL_COUNT_CMD, WIPE, ABORT, REJECT (32 bits each); reset 0 -/
  countCmd : Word32 := 0
  countWipe : Word32 := 0
  countAbort : Word32 := 0
  countReject : Word32 := 0
  /-- SAIL_CMD (32 bits); reset 0 -/
  cmd : Word32 := 0
  /-- SAIL_ARG0 to SAIL_ARG3, SAIL_XLEN (32 bits each); reset 0 -/
  arg0 : Word32 := 0
  arg1 : Word32 := 0
  arg2 : Word32 := 0
  arg3 : Word32 := 0
  xlen : Word32 := 0
  /-- SAIL_CSTAT.FLAG, IDENTITY, OVERRUN, HIDDEN, RESULT; reset 0 -/
  flag : Bool := false
  identity : Bool := false
  overrun : Bool := false
  hidden : Bool := false
  result : Nat := 0
  /-- SAIL_CYCLES (32 bits, saturating); reset 0 -/
  cycles : Nat := 0
  /-- SAIL_MEM_ADDR (word number and CONST), and the LO half held for a write; reset 0 -/
  memAddr : Word32 := 0
  heldLo : Word32 := 0
  /-- upper half of the word that the last read of SAIL_MEM_LO took (R449); reset 0 -/
  readHi : Word32 := 0
  /-- number of the free value that fills every word not listed, left by a sequence command (R434); reset none -/
  unspec : Option Nat := none
  /-- job serial that holds the engine at the basic level; reset none -/
  job : Option Nat := none
  /-- a new UNIT_CTRL.LEVEL that takes effect at the end of the wipe of R112; reset none -/
  levelAfterWipe : Option Bool := none
  deriving DecidableEq, Repr

/-! ## Signature pipeline (10_signature_pipeline.md) -/

/-- Whose signature waits for its cross-check (R456). -/
inductive SigOwner where
  | job (serial : Nat)
  | attest (serial : Nat)
  deriving DecidableEq, Repr

/-- An own signature waiting for its check or being checked (R456 to R466). -/
structure OwnSig where
  owner : SigOwner := .job 0
  /-- algorithm code (R196) -/
  alg : Nat := 0
  /-- page of the signing engine, 0 for the keel -/
  signer : Nat := 0
  /-- half that checks it (0 or 1) -/
  half : Nat := 0
  pub : Bytes := []
  msg : Bytes := []
  sig : Bytes := []
  /-- engine that found the mismatch, during arbitration (R465) -/
  foundBy : Option Nat := none
  /-- engine that checks or arbitrates it now -/
  by_ : Option Nat := none
  deriving DecidableEq, Repr

/-- A member of an evaluation: an own signature, a VERIFY job, or member k of a VERIFY_BATCH job. -/
inductive Member where
  | own (sig : Nat)
  | verify (job : Nat)
  | batch (job k : Nat)
  deriving DecidableEq, Repr

/-- The evaluation in progress on an engine (R463, R472, R473), keyed by engine page. -/
structure Eval where
  /-- groups of the current level still to evaluate, the front one running -/
  groups : List (List Member) := []
  /-- groups for the next level (R473) -/
  next : List (List Member) := []
  /-- evaluated singly, without the hint, or with the VERIFY sequence -/
  single : Bool := false
  /-- level of bisection, 0 first -/
  level : Nat := 0
  /-- received ECDSA members decided invalid, to be verified again singly (R475) -/
  redo : List Member := []
  deriving DecidableEq, Repr

/-- A key table on a wide engine (R461, R462). -/
structure KeyTable where
  engine : Nat := 0
  inst : Nat := 0
  alg : Nat := 0
  pub : Bytes := []
  words : Nat := 0
  deriving DecidableEq, Repr

/-- Registers of one half (R478), keyed 0 or 1. -/
structure HalfRegs where
  /-- HALF_XCHK_PASS, HALF_XCHK_MISMATCH, HALF_EVALS, HALF_BISECT_EVALS (32 bits each); reset 0 -/
  pass : Word32 := 0
  mismatch : Word32 := 0
  evals : Word32 := 0
  bisects : Word32 := 0
  /-- HALF_LAST_CHARGE.PAGE (12 bits), COUNT (2 bits), AS_CHECKER (1 bit); reset 0 -/
  chargePage : Nat := 0
  chargeCount : Nat := 0
  asChecker : Bool := false
  deriving DecidableEq, Repr

/-- The signature pipeline's state. -/
structure SigPipe where
  /-- own signatures by number, in order of arrival (R463); reset none -/
  own : Tab OwnSig := []
  nextOwn : Nat := 0
  /-- evaluations in progress by engine page; reset none -/
  evals : Tab Eval := []
  /-- decided members of VERIFY_BATCH jobs: job serial, member, valid -/
  decided : List (Nat × Nat × Bool) := []
  /-- key tables held (HALF_TABLES counts them); reset none -/
  tables : List KeyTable := []
  halves : Tab HalfRegs := []
  /-- mismatches charged to each engine since start-up (R467), by page; reset 0 -/
  charges : Tab Nat := []
  deriving DecidableEq, Repr

/-! ## Bulk lanes (11_bulk_lanes.md) -/

/-- A job split over lanes (R489 to R496): stripes not yet returned, with the channel that holds each. -/
structure Split where
  job : Nat := 0
  stripes : Nat := 0
  /-- stripe number and channel of the lane that holds or will hold it -/
  left : List (Nat × Nat) := []
  deriving DecidableEq, Repr

/-- One bulk lane (R480 to R501), keyed by channel. -/
structure Lane where
  /-- key contexts of R494: job whose blob is unwrapped; engine page whose hash runs; own job; channel and job helped -/
  unwrap : Option Nat := none
  port : Option Nat := none
  job : Option Nat := none
  help : Option (Nat × Nat) := none
  split : Option Split := none
  /-- BULK_BYTES (64 bits) and its snapshots per accessor; reset 0 -/
  bytes : Nat := 0
  bytesSnap : Tab Nat := []
  /-- BULK_STRIPES, BULK_TAG_FAILS, BULK_REDONE (32 bits each); reset 0 -/
  stripes : Word32 := 0
  tagFails : Word32 := 0
  redone : Word32 := 0
  /-- BULK_CMD.OP and PARAM (8 bits each), BULK_XLEN (32 bits); reset 0 -/
  op : Nat := 0
  param : Nat := 0
  xlen : Word32 := 0
  /-- message bytes fed since HASH_START (R500) and whether a hash is open -/
  fed : Bytes := []
  hashing : Bool := false
  /-- BULK_CSTAT.BUSY, OVERRUN, RESULT (2 bits), DIGEST_LEN (7 bits); reset 0 -/
  busy : Bool := false
  overrun : Bool := false
  result : Nat := 0
  digestLen : Nat := 0
  /-- BULK_SELFTEST.PASS (10 bits); reset 0 -/
  pass : Nat := 0
  /-- BULK_DIGEST0 to 15 (64 bytes); reset 0 -/
  digest : Bytes := []
  deriving DecidableEq, Repr

/-! ## Random numbers (12_random_numbers.md) -/

/-- State of a noise source (R504). -/
inductive SrcState where
  | startup | healthy | retest | retired
  deriving DecidableEq, Repr

/-- A noise source (R502 to R507), keyed 0 to 3. -/
structure Source where
  state : SrcState := .startup
  /-- FAIL_RUN (2 bits), LAST_TEST (1 bit), RCT_FAILS and APT_FAILS (8 bits each, saturating); reset 0 -/
  failRun : Nat := 0
  lastApt : Bool := false
  rctFails : Nat := 0
  aptFails : Nat := 0
  deriving DecidableEq, Repr

/-- Who asked a DRBG for bytes (R521). -/
inductive RandFor where
  | job (serial : Nat)
  | sail (page : Nat)
  | core (page : Nat)
  | keel (purpose : Nat)
  deriving DecidableEq, Repr

/-- A request to a DRBG (R517, R521). -/
structure RandReq where
  for_ : RandFor := .keel 0
  /-- consumer code -/
  code : Nat := 5
  inst : Nat := 0x3FF
  gen : Nat := 0
  serial : Nat := 0
  len : Nat := 0
  deriving DecidableEq, Repr

/-- DRBG_STATUS.STATE. -/
inductive DrbgState where
  | uninst | seeded | unseeded
  deriving DecidableEq, Repr

/-- A DRBG (R515 to R530), keyed by channel, 34 for the keel's. -/
structure Drbg where
  state : DrbgState := .uninst
  /-- DRBG_STATUS.RESEED_PENDING and AT_LIMIT (1 bit each); reset 0 -/
  pending : Bool := false
  atLimit : Bool := false
  /-- DRBG_CALLS (21 bits); DRBG_RESEEDS, DRBG_UNSEEDED (32 bits each); reset 0 -/
  calls : Nat := 0
  reseeds : Word32 := 0
  unseeded : Word32 := 0
  /-- source and release time (local cycles) of the blocks of its latest seed (R524) -/
  seed : List (Nat × Nat) := []
  /-- requests in order of arrival, the front one being served -/
  queue : List RandReq := []
  /-- RNG_DATA buffer: bytes left, and the instance and generation it was filled for (R522) -/
  buf : Bytes := []
  bufInst : Nat := 0
  bufGen : Nat := 0
  deriving DecidableEq, Repr

/-- What a seed request is for (R511). -/
inductive SeedFor where
  | drk
  | instantiate (d : Nat)
  | reseed (d : Nat) (waiting : Bool)
  deriving DecidableEq, Repr

/-- The keel RNG unit and the DRBGs. -/
structure Rng where
  sources : Tab Source := []
  /-- RNG_COND.GATHERED (1 bit); reset 0 -/
  gathered : Bool := false
  /-- seed pool: source and release time of each block, at most 16 (R510); reset empty -/
  pool : List (Nat × Nat) := []
  /-- RNG_BLOCKS (64 bits) and its snapshots; reset 0 -/
  blocks : Nat := 0
  blocksSnap : Tab Nat := []
  /-- seed requests in order of arrival (R511); reset none -/
  requests : List SeedFor := []
  drbgs : Tab Drbg := []
  /-- boot nonce of R27 (32 bytes), drawn when the keel DRBG is first SEEDED (R514); reset empty, not yet drawn -/
  bootNonce : Bytes := []
  deriving DecidableEq, Repr

/-! ## Carit cores (13_carit_instruction_set.md, 14_exceptions_privilege_protection.md) -/

/-- A data-stack entry with its hidden bits (R534). -/
structure Ent where
  v : Word64 := 0
  tag : Bool := false
  half : Bool := false
  deriving DecidableEq, Repr

/-- CARIT_STATUS.STALL_ON. -/
inductive Stall where
  | none | rng | jobNext | leafWait | swait | bmove | waiti | fence
  deriving DecidableEq, Repr

/-- One line of the 4 KiB data cache (R601). -/
structure CacheLine where
  bytes : Bytes := []
  dirty : Bool := false
  deriving DecidableEq, Repr

/-- One Carit core (R531 to R610), keyed by unit page. Every register is 0 at STARTING (R533, R577). -/
structure Core where
  pc : Word32 := 0
  /-- the entries held in the core, top first, at most 16 (R534) -/
  stack : List Ent := []
  /-- DEPTH (32 bits): entries on the data stack, those in memory included; an odd number in memory leaves the second
  entry of the topmost granule as padding (R583 of 14); reset 0 -/
  depth : Nat := 0
  /-- DSB, DSP, DSL, RSB, RSP, RSL (32 bits each) -/
  dsb : Word32 := 0
  dsp : Word32 := 0
  dsl : Word32 := 0
  rsb : Word32 := 0
  rsp : Word32 := 0
  rsl : Word32 := 0
  /-- A, B, FP (64 bits each) and FLAGS.C -/
  a : Word64 := 0
  b : Word64 := 0
  fp : Word64 := 0
  c : Bool := false
  /-- LS0–3, LE0–3 (32 bits), LC0–3 (64 bits), LDEPTH (0 to 4) -/
  ls : Tab Word32 := []
  le : Tab Word32 := []
  lc : Tab Word64 := []
  ldepth : Nat := 0
  /-- BM_SRC, BM_DST, BM_LEN, BM_CTL, HF_PTR, HF_LEN, HF_CTL, SW_MASK (64 bits each) -/
  bmSrc : Word64 := 0
  bmDst : Word64 := 0
  bmLen : Word64 := 0
  bmCtl : Word64 := 0
  hfPtr : Word64 := 0
  hfLen : Word64 := 0
  hfCtl : Word64 := 0
  swMask : Word64 := 0
  /-- CYCLES (64 bits): cycles since STARTING -/
  cycles : Nat := 0
  /-- K0 to K3 (128 bits and tag each) -/
  k : Tab Cap := []
  /-- S0 to S15 (64 bits each) and SPORT (256 bits), the secret classes (R532) -/
  sreg : Tab Word64 := []
  sport : BitVec 256 := 0
  /-- current ring, CARIT_STATUS.RING (2 bits, R574) -/
  ring : Nat := 0
  /-- VBASE_k, FSP_k, FSL_k, HDSB_k, HDSL_k, HRSB_k, HRSL_k, IEN_k for k = 0, 1, 2 (32 bits each, R577),
  keyed by MFS/MTS number -/
  rc : Tab Word32 := []
  /-- CTX: INSTANCE (10 bits), GEN (8 bits), IN_JOB (1 bit) -/
  ctxInst : Nat := 0
  ctxGen : Nat := 0
  inJob : Bool := false
  /-- IPEND: pending interrupt vectors 0x20 to 0x25, a bit each -/
  ipend : Word32 := 0
  /-- NOINT (0 to 256), and the ring whose entry opened the window (R594, R595) -/
  noint : Nat := 0
  nointRing : Nat := 0
  /-- CORE_FLAGS.DF_BUSY (1 bit); RULES_PENDING is computed -/
  dfBusy : Bool := false
  /-- MPU_LOCK and the regions, in force and staged (R602, R606), keyed by MFS/MTS number 0x05D and 0x060 to 0x07F -/
  mpu : Tab Word32 := []
  mpuStaged : Tab Word32 := []
  /-- local memory (128 KiB, R568): bytes, and tags of its 16-byte granules (R294) -/
  mem : List Host.Cell := []
  tags : Tab Bool := []
  /-- data cache lines of the channel window, keyed by line address / 64, oldest last (R601) -/
  cache : List (Nat × CacheLine) := []
  /-- serial of the job the core holds, 0 when none (R562) -/
  job : Nat := 0
  /-- the stalled draw has ended with ENTROPY_FAULT (R525 of 12), which the stalled instruction takes; reset false -/
  entropy : Bool := false
  /-- what the core waits for, CARIT_STATUS.STALL_ON (4 bits) -/
  stall : Stall := .none
  /-- microcode slot of the running job (CARIT_STATUS.MC_SLOT, 2 bits) -/
  mcSlot : Nat := 0
  /-- CARIT_INSTR and CARIT_STALL (64 bits each), and their snapshots per accessor -/
  instrs : Nat := 0
  stalls : Nat := 0
  instrSnap : Tab Nat := []
  stallSnap : Tab Nat := []
  /-- the open hash of the lane's JOB context (HSTART): ALG, key if KEYED, bytes fed -/
  hash : Option (Nat × Option Key × Bytes) := none
  deriving DecidableEq, Repr

/-- A microcode slot (R569 to R573), keyed 0 to 3. -/
structure McSlot where
  /-- MC_SLOT.STATE: 0 EMPTY, 1 LOADING, 2 LOADED, 3 FAILED -/
  state : Nat := 0
  /-- MC_SLOT.CAUSE (4 bits) -/
  cause : Nat := 0
  image : Bytes := []
  persisted : Bool := false
  deriving DecidableEq, Repr

/-- Microcode slots and their per-accessor selection; highest IMAGE_VERSION loaded of each signer (R571, in flash). -/
structure Microcode where
  slots : Tab McSlot := []
  sel : Tab Nat := []
  /-- signer fingerprint and version, at most 16 -/
  versions : List (Bytes × Nat) := []
  deriving DecidableEq, Repr

/-- DBG_STATE.STATE. -/
inductive GateState where
  | closed | challenged | opened
  deriving DecidableEq, Repr

/-- The debug gate (R611 to R616). -/
structure Debug where
  state : GateState := .closed
  /-- the 32-byte nonce of the challenge, none once used -/
  nonce : Option Bytes := none
  /-- DBG_STATE.INSTANCE (10 bits) while OPEN -/
  inst : Nat := 0
  /-- DBG_REFUSED.COUNT and LOCKS (8 bits each, saturating); reset 0 -/
  refused : Nat := 0
  locks : Nat := 0
  /-- DBG_LAST (64 bits) and its snapshots; reset 0 -/
  last : Nat := 0
  lastSnap : Tab Nat := []
  /-- positions of the refusals that may still count towards three (R614), latest first -/
  recent : List Nat := []
  deriving DecidableEq, Repr

/-! ## Instances (15_instances.md) -/

/-- One instance number (R617 to R659), keyed 0 to 1,023. Its UNIT page header is unit 0x400 + i. -/
structure Inst where
  /-- CREATE or RESTORE accepted and not yet removed (R619) -/
  created : Bool := false
  /-- SAVED of INST_GEN (R646) -/
  saved : Bool := false
  /-- generation (8 bits, R633), kept across removal -/
  gen : Nat := 0
  /-- a request waits under R634 (INST_GEN.WAIT_WRAP) -/
  waitWrap : Bool := false
  /-- configuration of R624: PORT, RINGS, OVERLAP_LOG2, AUDIT_WEIGHT, SPAN, BALLAST, MC binding, KC_SHARE, channel share -/
  port : Nat := 0
  rings : Nat := 0
  overlapLog2 : Nat := 0
  weight : Nat := 0
  span : Nat := 0
  ballast : Nat := 0
  mcSlot : Option Nat := none
  kcShare : Nat := 0
  /-- channel share in force (R629), bit c for channel c (34 bits) -/
  chans : Nat := 0
  /-- BME of the virtual function (R133) -/
  bme : Bool := false
  /-- DP_EVENT and DP_EVENT_EN (bits 4:0); reset 0 -/
  dpEvent : Word32 := 0
  dpEventEn : Word32 := 0
  /-- FREEZE draining, REMOVE draining (R640, R638) -/
  freezing : Bool := false
  removing : Bool := false
  /-- number of the FREEZE seal while it waits to be written (R640); reset none -/
  freezeSeal : Option Nat := none
  /-- a Function Level Reset of its virtual function waits under R634; reset false -/
  resetWaits : Bool := false
  deriving DecidableEq, Repr

/-- IM_RESULT.STATE. -/
inductive ImState where
  | idle | busy | done
  deriving DecidableEq, Repr

/-- One request window (R621), keyed by accessor 0 to 2. -/
structure ImWindow where
  /-- IM_ARG0 to IM_ARG7 (32 bits each); reset 0 -/
  args : Tab Word32 := []
  /-- IM_REQ.OP (8 bits) and INSTANCE (10 bits); reset 0 -/
  op : Nat := 0
  inst : Nat := 0
  /-- IM_RESULT.STATE (2 bits) and CODE (8 bits); reset 0 -/
  state : ImState := .idle
  code : Nat := 0
  /-- IM_OUT0 (32 bits); reset 0 -/
  out0 : Nat := 0
  /-- order of the outstanding GO among all windows (R622); the model's own -/
  order : Nat := 0
  /-- the request has not been carried out yet: it waits for its turn (R622) or for data from host memory; reset false -/
  waits : Bool := false
  /-- arguments as they stood at GO; reset none -/
  held : List Nat := []
  /-- what the request's read of host memory returned: complete without error, and its bytes; reset none -/
  data : Option (Bool × Bytes) := none
  /-- the requester's function was reset, so the result is discarded (R857 of 22); reset false -/
  discard : Bool := false
  deriving DecidableEq, Repr

/-- A ticket held by the destination (R642, R643). -/
structure Ticket where
  inst : Nat := 0
  nonce : Bytes := []
  destFp : Bytes := []
  /-- private keys, as seeds -/
  ecdh : BitVec 384 := 0
  kem : BitVec 512 := 0
  deriving DecidableEq, Repr

/-- The instance manager (page 0x084). -/
structure InstMgr where
  insts : Tab Inst := []
  windows : Tab ImWindow := []
  nextOrder : Nat := 0
  tickets : List Ticket := []
  deriving DecidableEq, Repr

/-! ## Channels, faults, self-repair (16_channels_faults_self_repair.md) -/

/-- CH_TEST.STATE. -/
inductive TestState where
  | idle | waiting | running
  deriving DecidableEq, Repr

/-- Registers and test state of a channel (R683 to R690), keyed by channel. -/
structure Chan where
  /-- CH_TEST.STATE (2 bits), LAST (2 bits), STEP (4 bits), SINCE (8 bits, saturating); reset 0 -/
  test : TestState := .idle
  last : Nat := 0
  step : Nat := 0
  since : Nat := 0
  /-- CH_TEST_POS (64 bits) and its snapshots; reset 0 -/
  pos : Nat := 0
  posSnap : Tab Nat := []
  /-- CH_RERUNS (32 bits); reset 0 -/
  reruns : Word32 := 0
  /-- the channel was chosen as a stand-in under R37 for this channel -/
  standInFor : Option Nat := none
  /-- it is tested as a spare by a 0x3F firing (R684) -/
  spareTest : Bool := false
  deriving DecidableEq, Repr

/-- Repair map, masks and fault configuration (R661 to R690). -/
structure Faults where
  /-- records of the flash repair map, in order, 16 bytes each (R679) -/
  map : List Bytes := []
  /-- mask bits waiting to be burned (RM_STATUS.OTP_PENDING); the masks of R680 stand in the OTP -/
  burning : List Nat := []
  /-- RM_STATUS.FULL (1 bit), RESTORED (6 bits) -/
  full : Bool := false
  restored : Nat := 0
  /-- RM_SEL per accessor (8 bits); reset 0 -/
  sel : Tab Nat := []
  /-- FLT_CFG.TEST_AT (8 bits); reset 16 -/
  testAt : Nat := 16
  chans : Tab Chan := []
  /-- corrected errors of each SRAM row since start-up: owning page, row (R670) -/
  corrected : List (Nat × Nat) := []
  /-- spare rows used of each block: owning page, block → count (R670, R671), keyed 2^12 × block + page -/
  spares : Tab Nat := []
  /-- DEV_CHANNELS.NO_CHANNEL (1 bit, R669) -/
  noChannel : Bool := false
  deriving DecidableEq, Repr

/-! ## Gondolas and the bridle (17_gondolas_and_bridle.md) -/

/-- LINE_STATUS.LSTATE. -/
inductive LState where
  | down | training | keying | up | retraining | mismatch
  deriving DecidableEq, Repr

/-- One bridle line (R692 to R702), keyed 0 to 63. Its UNIT page header is unit 0x040 + m. -/
structure Line where
  /-- LINE_CFG.FIRST (9 bits), COUNT (6 bits), SPARE (1 bit); reset 0, or the kept values of R919 -/
  first : Nat := 0
  count : Nat := 0
  spare : Bool := false
  /-- LINE_STATUS.LSTATE (3 bits); reset DOWN -/
  lstate : LState := .down
  /-- positions that carry frames (LINE_STATUS.LANES counts them) -/
  positions : List Nat := []
  /-- LINE_STATUS.SPARE_USED (1 bit); reset 0 -/
  spareUsed : Bool := false
  /-- LINE_STATUS.PEER (9 bits) and PEER_KNOWN; reset none -/
  peer : Option Nat := none
  /-- LINE_STATUS.ATTEMPTS (2 bits), CAUSE (4 bits); reset 0 -/
  attempts : Nat := 0
  cause : Nat := 0
  /-- LINE_DELAY.NS (16 bits); reset 0 -/
  delay : Nat := 0
  /-- LINE_CRC, LINE_REPLAYS, LINE_STOMPED (32 bits), LINE_RX, LINE_TX (64 bits) and their snapshots; reset 0 -/
  crc : Word32 := 0
  replays : Word32 := 0
  stomped : Word32 := 0
  rx : Nat := 0
  tx : Nat := 0
  rxSnap : Tab Nat := []
  txSnap : Tab Nat := []
  /-- next LSEQ to send, next LSEQ expected (48 bits each, R695) -/
  lseqOut : Nat := 0
  lseqIn : Nat := 0
  /-- sent and not acknowledged, oldest first (R699) -/
  replay : List Frame := []
  /-- FORWARD and RESULT frames that wait for credit, oldest first (R702) -/
  waiting : List Frame := []
  /-- replays of the front frame already made (R700) -/
  tries : Nat := 0
  /-- a NAK has been sent and the replay has not arrived (R699) -/
  naked : Bool := false
  /-- flits granted by the peer, keyed 16 × CLASS + VLANE (R702) -/
  credit : Tab Nat := []
  /-- link keys: out and in (256 bits each, R706); none before keying -/
  keyOut : Option (BitVec 256) := none
  keyIn : Option (BitVec 256) := none
  /-- our nonce and ephemeral secrets of the keying in progress; the peer's HELLO as received -/
  nonce : Bytes := []
  ephemeral : BitVec 384 := 0
  peerHello : Bytes := []
  /-- lanes of the line with CRC errors: lane and tether position (R673) -/
  laneErrs : List (Nat × Nat) := []
  deriving DecidableEq, Repr

/-- The latest link state of a member (R709). -/
structure LinkState where
  version : Nat := 0
  /-- UP lines and their peers -/
  links : List (Nat × Nat) := []
  /-- our own version count when it was received (R711); the model's own -/
  seen : Nat := 0
  deriving DecidableEq, Repr

/-- A gondola certificate in force (R712, R713). -/
structure GCert where
  /-- position in the statement -/
  pos : Nat := 0
  root : Nat := 0
  pub : Bytes := []
  cosigners : List Nat := []
  deriving DecidableEq, Repr

/-- A gondola key pair held by this device as root, and the co-signatures collected (R712). -/
structure GKey where
  pub : Bytes := []
  priv : BitVec 384 := 0
  pqPub : Bytes := []
  pqPriv : BitVec 256 := 0
  /-- the tether position of the request -/
  pos : Nat := 0
  statement : Bytes := []
  cosigns : List (Nat × Bytes) := []
  deriving DecidableEq, Repr

/-- What a member holds of an instance whose home is another member (R653, R654). -/
structure SpanHeld where
  inst : Nat := 0
  home : Nat := 0
  /-- key-cache share, ballast quota, OVERLAP_LOG2 and the digest of the bound image (12 bytes, or none) -/
  kc : Nat := 0
  ballast : Nat := 0
  overlap : Nat := 0
  mc : Bytes := []
  deriving DecidableEq, Repr

/-- BRL_FORM_STATUS.STATE. -/
inductive FormState where
  | none | forming | member | isolated | leaving
  deriving DecidableEq, Repr

/-- The bridle root (R703 to R732). -/
structure Bridle where
  lines : Tab Line := []
  /-- the held formation record (R705), kept in the configuration store; reset none -/
  record : Option Bytes := none
  /-- BRL_REC_LO, BRL_REC_HI, BRL_REC_LEN (32 bits each); reset 0 -/
  recLo : Word32 := 0
  recHi : Word32 := 0
  recLen : Word32 := 0
  /-- BRL_FORM.TARGET (9 bits); reset 0 -/
  target : Nat := 0
  /-- BRL_FORM_STATUS.STATE (3 bits), BUSY (1 bit), RESULT (8 bits); reset NONE, 0, 0 -/
  state : FormState := .none
  busy : Bool := false
  result : Nat := 0
  serialSnap : Tab Nat := []
  /-- latest link states by member; our own version count -/
  links : Tab LinkState := []
  version : Nat := 0
  /-- members that have left, and members expelled (R721, R722) -/
  left : List Nat := []
  expelled : List Nat := []
  /-- members that were in the present set at the last look -/
  wasPresent : List Nat := []
  /-- roots in office by gondola index (R711) -/
  roots : Tab (Option Nat) := []
  /-- this device takes no office until its next start-up (R720) -/
  noOffice : Bool := false
  certs : Tab GCert := []
  keys : Tab GKey := []
  /-- latest LOAD of each member: idle channels and free buffers (R725) -/
  loads : Tab (Nat × Nat) := []
  /-- our last flooded idle count -/
  lastLoad : Nat := 0
  /-- members excluded as targets: instance and member (R725) -/
  excluded : List (Nat × Nat) := []
  /-- BRL_ROUTE_SEL and GV_MEMBER_SEL per accessor (9 bits each); reset 0; GV keyed 16 × accessor + level -/
  routeSel : Tab Nat := []
  gvSel : Tab Nat := []
  /-- FWD_CFG.DEPTH (4 bits); reset 4 -/
  fwdDepth : Nat := 4
  /-- BRL_FWD_OUT, BRL_FWD_IN, BRL_RETURNED, BRL_LOST (32 bits each); reset 0 -/
  fwdOut : Word32 := 0
  fwdIn : Word32 := 0
  returned : Word32 := 0
  lost : Word32 := 0
  /-- lanes retired (R673), and groups whose spare is in use -/
  lanesRetired : List Nat := []
  sparesUsed : List Nat := []
  /-- span replies awaited: instance and members that have reserved (R653) -/
  spanAcks : List (Nat × Nat) := []
  /-- span reservations made here for other home members (R653) -/
  spanHeld : List SpanHeld := []
  /-- members that have dropped out of a span and not yet reported its generations held (R655): instance, member; reset none -/
  dropped : List (Nat × Nat) := []
  /-- a leave in progress drops the record at its end (CLEAR, R705); reset false -/
  clearing : Bool := false
  /-- received forwards that wait for ballast, with the line each came in on (R47); reset none -/
  fwdWaiting : List (Nat × Frame) := []
  deriving DecidableEq, Repr

/-! ## Tamper and monitors, mooring domain (18_tamper_and_monitors.md, 06_tether.md) -/

/-- One of the 42 tamper sources of R733: its TMP_SRC_CFG fields and its filter. -/
structure TmpSrc where
  /-- TMP_SRC_CFG.RESPONSE (3 bits, R737); reset: the default of R733 (R739) -/
  response : Nat := 0
  /-- TMP_SRC_CFG.FILTER (8 bits, R734); reset: the default of R733 (R739) -/
  filter : Nat := 1
  /-- consecutive asserted samples so far (R734); TMP_LIVE is 1 while it is above 0; reset 0 -/
  count : Nat := 0
  /-- the latest sample was asserted (R742); reset false -/
  asserted : Bool := false
  deriving DecidableEq, Repr

/-- The tamper unit (page 0x004). -/
structure Tamper where
  /-- sources that differ from their defaults of R733, keyed 0 to 41 -/
  srcs : Tab TmpSrc := []
  /-- TMP_FIRED (42 bits, R742); reset 0 -/
  fired : BitVec 42 := 0
  /-- the main log, oldest first, entries of 16 bytes, at most 256 (R756); reset empty -/
  log : List Bytes := []
  /-- TMP_LOG_COUNT (32 bits); reset 0 -/
  logCount : Word32 := 0
  /-- TMP_LOG_SEL per accessor (8 bits); reset 0 -/
  logSel : Tab Nat := []
  /-- TMP_TEST.SOURCE (6 bits), BUSY (1 bit), RESULT (2 bits), R748; reset 0 -/
  testSrc : Nat := 0
  testBusy : Bool := false
  testResult : Nat := 0
  /-- TMP_EVID.BURNING (1 bit) is computed; TMP_EVID.APPLIED (8 bits, R746); reset 0 -/
  applied : Nat := 0
  /-- cycle at which the steps of R368 of the latest ripcord end (R744); the model's own; reset 0 -/
  ripcordEnd : Nat := 0
  deriving DecidableEq, Repr

/-- An anchor of R330: RTC count and position. -/
structure Anchor where
  rtc : Nat := 0
  pos : Nat := 0
  deriving DecidableEq, Repr

/-- The mooring domain (page 0x00A), battery-backed (R752 to R755). -/
structure Mooring where
  /-- the mooring state is held: VBAT has not fallen below 2.0 V without VIN (R755); reset true -/
  held : Bool := true
  /-- the DRK (256 bits, R332), 0 when cleared; reset 0 -/
  drk : BitVec 256 := 0
  /-- the RTC (48 bits, R329) and the 25 MHz fraction of its current count; reset 0 -/
  rtc : Nat := 0
  rtcFrac : Nat := 0
  /-- the anchor pair written at the last accepted pulse (R330); reset none -/
  stored : Option Anchor := none
  /-- anchors A and B of this start-up while valid (R331); reset none -/
  anchorA : Option Anchor := none
  anchorB : Option Anchor := none
  /-- MOOR_CORR.METHOD (2 bits: 0 PENDING, 1 SCALED, 2 NOMINAL, 3 NONE) and ENTRIES (5 bits), R331; reset 0 -/
  corr : Nat := 0
  corrCount : Nat := 0
  /-- the shadow of RESPONSE and FILTER (R739), entries that differ from the defaults; reset none -/
  shadow : Tab TmpSrc := []
  /-- MOOR_STATUS.EVID_TARGET (11 bits, R746), PENDING_LOCK (1 bit, R747), RIPCORD_SEEN (1 bit, R745); reset 0 -/
  evidTarget : Nat := 0
  pendingLock : Bool := false
  ripcordSeen : Bool := false
  /-- the mooring log, entries of 32 bytes, at most 16 (R757), and MOOR_STATUS.DROPPED (8 bits); reset empty, 0 -/
  log : List Bytes := []
  dropped : Nat := 0
  /-- the log holds an ON_CELL entry newer than the last start-up (R760, R834); reset false -/
  cellNew : Bool := false
  /-- TMP_EPISODE.NUMBER (16 bits, R758), OPEN (1 bit), RUNG (3 bits); reset 0 -/
  epNumber : Nat := 0
  epOpen : Bool := false
  epRung : Nat := 0
  /-- evidence has been counted in the open or last episode (R745); reset false -/
  epEvid : Bool := false
  /-- VBAT in mV (12 bits, MOOR_VBAT); reset 0, given by VBAT events -/
  vbat : Nat := 0
  /-- MOOR_LOG_SEL per accessor (4 bits), MOOR_RTC snapshots per accessor (48 bits); reset 0 -/
  logSel : Tab Nat := []
  rtcSnap : Tab Nat := []
  deriving DecidableEq, Repr

/-! ## Flash (19_flash.md) -/

/-- Kind of a program or erase (OP of R772: 0 none, 1 granule program, 2 buffered program, 3 erase) and its target. -/
structure FlashRun where
  op : Nat := 0
  /-- granules to program in ascending address: granule number (array address / 16) and contents -/
  granules : List (Nat × BitVec 128) := []
  /-- sector index within the bank, for an erase -/
  sector : Nat := 0
  deriving DecidableEq, Repr

/-- One bank's command interface (R771 to R779), keyed 0 and 1. -/
structure Bank where
  /-- write cycles of the sequence in progress, oldest first: array address and data (R771); reset none -/
  cycles : List (Nat × Word32) := []
  /-- the running operation (status BUSY while some); reset none -/
  run : Option FlashRun := none
  /-- sector whose erase is suspended (status SUSPENDED); reset none -/
  suspended : Option Nat := none
  /-- a suspend has been asked for and has not taken effect (R777); reset false -/
  suspendAsked : Bool := false
  /-- cycle of the last resume of this erase (R779); reset none -/
  resumedAt : Option Nat := none
  /-- status OP (2 bits), RESULT (4 bits), STATUS_MODE (1 bit), R772; reset 0 -/
  op : Nat := 0
  result : Nat := 0
  statusMode : Bool := false
  deriving DecidableEq, Repr

/-- What a store record carries, in logical form (R789). -/
inductive StorePayload where
  | instance_ (gen state : Nat) (args : List Nat)
  | kbpk (key : BitVec 256) (gen at_ : Nat)
  | formation (record : Bytes) (lines : List (Nat × Nat × Bool))
  | ownerList (serial : Nat) (fps : List Bytes)
  | mcImage (image : Bytes)
  deriving DecidableEq, Repr

/-- A store record in force (R788, R790), keyed 2^24 × TYPE + ITEM. -/
structure StoreItem where
  seq : Nat := 0
  /-- store sector (0 to 62) that holds it -/
  sector : Nat := 0
  payload : StorePayload := .mcImage []
  deriving DecidableEq, Repr

/-- The flash array and controller (page 0x007). -/
structure Flash where
  /-- programmed granules outside the areas below, by granule number (array address / 16), R765; reset none -/
  data : Tab (BitVec 128) := []
  /-- sectors or granules left undefined by BROWNOUT or VERIFY (R775, R782): first granule, count, free-value number -/
  torn : List (Nat × Nat × Nat) := []
  /-- banks 0 and 1 -/
  banks : Tab Bank := []
  /-- FL_WIN_ADDR per accessor (R768): ADDR and INC (32 bits); reset 0 -/
  winAddr : Tab Word32 := []
  /-- FL_FETCH.BANK (2 bits, R764), HALF (1 bit), FALLBACK (1 bit); reset 3, 0, 0 -/
  fetch : Nat := 3
  half : Nat := 0
  fallback : Bool := false
  /-- FL_ECC.CORRECTED and UNCORRECTED (16 bits each, saturating); reset 0 -/
  corrected : Nat := 0
  uncorrected : Nat := 0
  /-- FL_BROWNOUT.ASSERTED (1 bit), COUNT (8 bits, saturating); reset 0 -/
  brownout : Bool := false
  brownouts : Nat := 0
  /-- PS1/PS4 device record: active sector, sequence count and 16-byte records (R784 to R786); reset PS1, 0, none -/
  devActive : Bool := false
  devSeq : Nat := 0
  devRec : List Bytes := []
  /-- PS2/PS3 anchor: EPOCH (8 bytes, R787), none when no anchor is in force; reset none -/
  epoch : Option Bytes := none
  /-- anchor: head and tail store sectors (0 to 62), sector being erased, retired sectors (R787, R792) -/
  head : Nat := 0
  tail : Nat := 0
  erasing : Option Nat := none
  retired : List Nat := []
  /-- bytes used of the head sector; the model's own -/
  headUsed : Nat := 0
  /-- sectors of bank 0 among PS2 to PS5 and M64 to M126, by index, erased since the keel last wrote them; reset none -/
  blank : List Nat := []
  /-- VERIFY results of each store sector (R775) -/
  verifies : Tab Nat := []
  /-- SEQ of the next store record (64 bits, R788); reset 0 -/
  nextSeq : Nat := 0
  /-- the items in force (R789, R790); reset none -/
  store : Tab StoreItem := []
  /-- FL_STORE.COMPACTING (1 bit); reset 0 -/
  compacting : Bool := false
  deriving DecidableEq, Repr

/-! ## Custodian card bus (20_custodian_card_bus.md) -/

/-- CCB_SLOTn.STATE. -/
inductive CardState where
  | empty | powering | ident | ready | locked | inactive
  deriving DecidableEq, Repr

/-- One of the four slots (R795 to R814), keyed 0 to 3. -/
structure CardSlot where
  state : CardState := .empty
  present : Bool := false
  power : Bool := false
  /-- ADDR (4 bits), MODE (2 bits), OVERCURRENT (1 bit), FAILS (4 bits); reset 0 -/
  addr : Nat := 0
  mode : Nat := 0
  overcurrent : Bool := false
  fails : Nat := 0
  /-- identifier, 16 bytes, CCB_ID; reset 0 -/
  id : Bytes := []
  /-- DATA of the card's ANNOUNCE reply, held for SET_MODE (R809) -/
  caps : Nat := 0
  deriving DecidableEq, Repr

/-- One accessor's card command registers (R815), keyed by accessor. -/
structure CardAcc where
  /-- CCB_CMD.OP (4 bits), SLOT (2 bits), RECORD (4 bits); reset 0 -/
  op : Nat := 0
  slot : Nat := 0
  record : Nat := 0
  /-- CCB_WCOUNT (32 bits); reset 0 -/
  wcount : Word32 := 0
  /-- CCB_RESULT.STATE (2 bits: 0 IDLE, 1 BUSY, 2 DONE), CODE (8 bits), RSTATE (1 bit); reset 0 -/
  state : Nat := 0
  code : Nat := 0
  rstate : Bool := false
  /-- CCB_PWD0 to CCB_PWD3, 16 bytes (R817); reset 0 -/
  pwd : Bytes := []
  /-- CCB_ID_SEL (2 bits); reset 0 -/
  idSel : Nat := 0
  deriving DecidableEq, Repr

/-- What the bus waits for within a transaction (R802, R813). -/
inductive CardPhase where
  | reply | readBlock | ack | busy
  deriving DecidableEq, Repr

/-- The command that the bus carries out (R801 to R811): an accessor's, or a bring-up step of a slot. -/
structure CardTxn where
  /-- accessor, none for a bring-up step of R809 -/
  acc : Option Nat := none
  slot : Nat := 0
  /-- OP of R804 and its ARG -/
  op : Nat := 0
  arg : Nat := 0
  /-- address of the request frame -/
  addr : Nat := 0
  /-- payload of a block that the device sends -/
  block : Bytes := []
  phase : CardPhase := .reply
  /-- failures counted under R806 -/
  failures : Nat := 0
  /-- the result the command will have, once the card's STATUS has been read again -/
  code : Option Nat := none
  deriving DecidableEq, Repr

/-- The card bus unit (page 0x008). -/
structure CardBus where
  slots : Tab CardSlot := []
  accs : Tab CardAcc := []
  /-- commands that wait or run, in the order of their GO writes: accessor, OP, SLOT, RECORD (R815); reset none -/
  queue : List (Nat × Nat × Nat × Nat) := []
  /-- slots that wait for their bring-up, in the order they became PRESENT (R809); reset none -/
  bringUp : List Nat := []
  /-- the transaction on the bus; reset none -/
  txn : Option CardTxn := none
  /-- the next address to give (R810), 1 to 15; reset 1 -/
  nextAddr : Nat := 1
  /-- the share buffer (64 bytes, R816); reset 0 -/
  share : Bytes := []
  deriving DecidableEq, Repr

/-! ## Custody tag (21_custody_tag.md) -/

/-- TAG_STATUS.STATE (R824). -/
inductive TagState where
  | idle | ready | active | halt | protocol
  deriving DecidableEq, Repr

/-- An append that runs or waits (R840 to R844). -/
structure TagAppend where
  /-- step to carry out next, 1 to 3 -/
  step : Nat := 1
  /-- EXPECT, TYPE and PAYLOAD -/
  expect : Nat := 0
  type : Nat := 0
  payload : Bytes := []
  /-- true for a reader APPEND, false for a device append -/
  reader : Bool := false
  /-- CTR of the reader's command, for its R-MAC -/
  ctr : Nat := 0
  /-- the session was closed by the ripcord during the append (R847) -/
  closed : Bool := false
  deriving DecidableEq, Repr

/-- The tag unit (page 0x009), the tag key store and the tag store. -/
structure Tag where
  /-- TAG_STATUS.FIELD (1 bit, R825); reset 0 -/
  field : Bool := false
  /-- the field is at or above H_WRITE (R843, R845), as APPEND_RESUME last said; reset false -/
  strong : Bool := false
  /-- FD_WAKE is driven low (R829); reset false -/
  wake : Bool := false
  /-- TAG_STATUS.STATE (3 bits); reset IDLE -/
  state : TagState := .idle
  /-- TAG_STATUS.MOD (2 bits, R828); reset 1 -/
  mod : Nat := 1
  /-- UID0 to UID3 (4 bytes, R825); reset 0 -/
  uid : Bytes := []
  /-- the application has been selected in this field session (R830); reset false -/
  selected : Bool := false
  /-- authentication is blocked in this field session (R833); reset false -/
  blocked : Bool := false
  /-- key of the AUTH_BEGIN outstanding and its RndT (16 bytes); reset none -/
  challenge : Option (Nat × Bytes) := none
  /-- open session: key (1 READ, 2 JOURNAL), S (128 bits), CTR (R833); reset none -/
  session : Option (Nat × BitVec 128 × Nat) := none
  /-- the key of the open session was rewritten (R847): it closes at its next command; reset false -/
  stale : Bool := false
  /-- tag key store, non-volatile: tag seed (128 bits), counter (64 bits), K_READ and K_JOURNAL (128 bits); reset 0, 0, not set -/
  seed : BitVec 128 := 0
  counter : Nat := 0
  /-- counter value the generator uses next in this field session (R827) -/
  genNext : Nat := 0
  kRead : Option (BitVec 128) := none
  kJournal : Option (BitVec 128) := none
  /-- tag store: the programmed slots in ascending order, 64 bytes each (R837); reset none -/
  slots : List Bytes := []
  /-- the append that runs (TAG_STATUS.WRITING), and those that wait, in order of request (R841); reset none -/
  run : Option TagAppend := none
  waiting : List TagAppend := []
  /-- TAG_JR_SEL per accessor (10 bits); reset 0 -/
  jrSel : Tab Nat := []
  /-- TAG_APP_DATA0–5 and TAG_APP_EXPECT (32 bits each), TAG_APP_CTRL TYPE (8), STATE (2), RESULT (4); reset 0 -/
  appData : Tab Word32 := []
  appExpect : Word32 := 0
  appType : Nat := 0
  appState : Nat := 0
  appResult : Nat := 0
  /-- TAG_KEY_CTRL KEY_ID (2 bits) and CLEAR (1 bit); TAG_KEY0–3 (32 bits each); reset 0 -/
  keyId : Nat := 0
  keyClear : Bool := false
  keyWords : Tab Word32 := []
  /-- TAG_COUNTS FIELD_ON (16 bits), AUTH_FAIL and REFUSED (8 bits each), saturating; reset 0 -/
  fieldOns : Nat := 0
  authFails : Nat := 0
  refusals : Nat := 0
  deriving DecidableEq, Repr

/-! ## Host ports, power, start-up, firmware, lifecycle, OTP, SMBus (22, 23) -/

/-- An SPDM session of a port (R859). -/
structure SpdmSession where
  id : Nat := 0
  /-- FINISH has completed it -/
  established : Bool := false
  /-- session secret, and the number of KEY_UPDATEs made of each direction -/
  secret : BitVec 384 := 0
  updatesReq : Nat := 0
  updatesRsp : Nat := 0
  deriving DecidableEq, Repr

/-- An IDE stream of a port (R862), keyed 0 link, 1 and 2 selective. -/
structure IdeStream where
  /-- keys programmed, keyed 2 × key set + direction (0 receive, 1 transmit), 256 bits -/
  keys : Tab (BitVec 256) := []
  /-- key set in use of each direction; none before K_SET_GO. With both, and the link up, the stream is in the Secure state -/
  rx : Option Nat := none
  tx : Option Nat := none
  deriving DecidableEq, Repr

/-- One host port (R849 to R863, R888, R889), keyed 0 and 1. -/
structure Port where
  /-- HP_LINK.SPEED (3 bits), WIDTH (5 bits), UP, L1, PERST (1 bit each); reset 0, PERST as the pin -/
  speed : Nat := 0
  width : Nat := 0
  up : Bool := false
  l1 : Bool := false
  perst : Bool := false
  /-- HP_VF.NUMVF (11 bits), ENABLED, PENDING (1 bit each); reset 0 -/
  numVf : Nat := 0
  enabled : Bool := false
  pending : Bool := false
  /-- virtual function resets of R856 not yet in effect: instances -/
  resetting : List Nat := []
  /-- Bus Master Enable of the physical function (R858); reset 0 by PCI Express -/
  bme : Bool := false
  /-- Completion Timeout Disable (R852); reset 1 -/
  ctoDisable : Bool := true
  /-- HP_IDE.REQUIRE (1 bit, RWL), PLAIN_DROPS (16 bits, saturating); reset 0 -/
  require : Bool := false
  plainDrops : Nat := 0
  streams : Tab IdeStream := []
  /-- SPDM connection: GET_VERSION answered, capabilities exchanged, algorithms negotiated (R859) -/
  spdmVersion : Bool := false
  spdmCaps : Bool := false
  spdmAlgs : Bool := false
  /-- messages exchanged since GET_VERSION, for transcript hashes (R861) -/
  transcript : Bytes := []
  sessions : List SpdmSession := []
  deriving DecidableEq, Repr

/-- The power state of R864. -/
inductive PState where
  | run | idle | standby | moored
  deriving DecidableEq, Repr

/-- An image half of bank 1 (R874). -/
structure Half where
  /-- header granule programmed: COUNT (8 bytes) and SVN (6 bits) -/
  count : Nat := 0
  svn : Nat := 0
  present : Bool := false
  /-- REVOKE granule programmed -/
  revoked : Bool := false
  image : Bytes := []
  deriving DecidableEq, Repr

/-- Power, start-up and firmware registers of page 0x000 (R864 to R876). -/
structure Power where
  /-- PWR_STATUS.STATE (2 bits) or MOORED; reset RUN -/
  state : PState := .run
  /-- PWR_STATUS.READY (1 bit), RESULT (4 bits), START_CAUSE (4 bits); reset 0, 0, 1 (VIN) -/
  ready : Bool := false
  result : Nat := 0
  cause : Nat := 1
  /-- START_T1 to START_T6 (32 bits each, free values of R872); reset 0 -/
  startT : Tab Word32 := []
  /-- PWR_CTRL.IDLE_EN (1 bit), IDLE_DELAY (8 bits); reset 1, 10 -/
  idleEn : Bool := true
  idleDelay : Nat := 10
  /-- cycle since which the conditions of R865 have held; the model's own; reset 0 -/
  quietSince : Nat := 0
  /-- FW_STAGE_LO, FW_STAGE_HI, FW_STAGE_LEN (32 bits each); reset 0 -/
  stageLo : Word32 := 0
  stageHi : Word32 := 0
  stageLen : Word32 := 0
  /-- FW_STATUS.STATE (2 bits), RESULT (4 bits); reset 0 -/
  fwState : Nat := 0
  fwResult : Nat := 0
  /-- the staged image set marked for installation (FW_STATUS.STAGED), bank 0 M0 to M63 (R875); reset none -/
  staged : Option Bytes := none
  /-- image halves H0 and H1 of bank 1 (R874) -/
  h0 : Half := { count := 1, present := true }
  h1 : Half := {}
  /-- the straps as sampled at step 1 (R901): VIO_H, VIO_T, VIO_C, SMB, TEST; reset 0 -/
  vioH : Bool := false
  vioT : Bool := false
  vioC : Bool := false
  smb : Nat := 0
  strapTest : Bool := false
  deriving DecidableEq, Repr

/-- One accessor's lifecycle command registers (R878 to R884), keyed by accessor. -/
structure LcAcc where
  /-- LC_BUF_LO, LC_BUF_HI, LC_BUF_LEN (32 bits each); reset 0 -/
  bufLo : Word32 := 0
  bufHi : Word32 := 0
  bufLen : Word32 := 0
  /-- LC_CMD.CMD (3 bits); LC_RESULT.STATE (2 bits), CODE (8 bits); reset 0 -/
  cmd : Nat := 0
  state : Nat := 0
  code : Nat := 0
  deriving DecidableEq, Repr

/-- The lifecycle unit (page 0x00D) and the identity area of PS5. -/
structure Lifecycle where
  accs : Tab LcAcc := []
  /-- LC_NONCE (32 bytes) while outstanding (R879); reset none -/
  nonce : Option Bytes := none
  /-- owner device list held: SERIAL, fingerprints (R882); reset none -/
  list : Option (Nat × List Bytes) := none
  /-- PS5: device certificate (R878) and owner root certificate (R880), DER; reset none -/
  deviceCert : Bytes := []
  ownerCert : Bytes := []
  deriving DecidableEq, Repr

/-- The one-time-programmable store (page 0x00B, R886). A burned bit is 1. -/
structure Otp where
  lifecycle : BitVec 3 := 0
  ownerFp : BitVec 192 := 0
  evidence : BitVec 1024 := 0
  retireFactory : BitVec 64 := 0
  retireField : BitVec 64 := 0
  fuse : BitVec 20 := 0
  svnFloor : BitVec 63 := 0
  drkEver : BitVec 1 := 0
  /-- bits burned over the identity store when it is overwritten (R29): all of it or none -/
  overwritten : BitVec 1 := 0
  deriving DecidableEq, Repr

/-- The registers of page 0x00B beside the store. -/
structure OtpRegs where
  /-- OTP_STATUS.BURNING is computed; MARGINAL (1 bit); reset 0 -/
  marginal : Bool := false
  /-- OTP_SEL per accessor: FIELD (4 bits), WORD (8 bits); reset 0 -/
  sel : Tab Word32 := []
  deriving DecidableEq, Repr

/-! ## Outputs, free values and the whole state -/

/-- What the block sends out, in order. Host memory, cards, readers, peers and buses stand outside the block. -/
inductive Output where
  /-- a posted write through a host port at a bus address (R64 of 01, R380, R403) -/
  | hostWrite (port addr : Nat) (data : Bytes)
  /-- an MSI-X message of a function through its port (R167 to R171, R96): address and data of its entry -/
  | msix (func entry : Nat) (addr : Nat) (data : Word32)
  /-- the value that a register read returns to its accessor (R12, R317) -/
  | readValue (acc : Acc) (value : Word32)
  /-- a read that ends with an error response: Completer Abort, BUS_ERROR or the keel's exception (R770) -/
  | readError (acc : Acc)
  /-- a frame sent on a bridle line (R695) -/
  | frame (line : Nat) (f : Frame)
  /-- a control flit of a line: 1 ACK, 2 NAK, 3 CREDIT (R696, R699, R702) with its LSEQ or grant; 4: the frame of an LSEQ ends
  with STOMP 0x5A (R698) -/
  | flit (line kind value : Nat)
  /-- a request frame on the card bus: ADDR, CODE, VALUE and CRC (R801) -/
  | cardFrame (addr code value crc : Nat)
  /-- a data block sent on the card bus: payload and CRC (R802) -/
  | cardBlock (data : Bytes) (crc : Nat)
  /-- a frame of the custody tag to the reader, without its CRC_A (R824 to R832) -/
  | tagFrame (data : Bytes)
  /-- the remaining bits of UID and BCC, in the order sent (R826) -/
  | tagBits (bits : List Bool)
  /-- an SPDM or IDE_KM answer of a port's mailbox (R859) -/
  | spdm (port : Nat) (data : Bytes)
  /-- an answer of the SMBus port (R906, R908) -/
  | smbus (data : Bytes)
  /-- an answer of the debug port (R612, R613): the nonce, or four bytes read; no bytes for an error response (R614) -/
  | debug (data : Bytes)
  deriving DecidableEq, Repr

/-- An input or a condition that the spec gives no effect at all. -/
inductive Fault where
  /-- raised by nothing in this model: every command has an effect, and one whose condition does not hold changes
  nothing. Safe. -/
  | noEffectGiven
  deriving DecidableEq, Repr

/-- Why a command is refused. -/
inductive Refusal where
  /-- raised by `exec` for a command without a meaning; no command of this model is one. Safe: it claims nothing. -/
  | notModelled (mnemonic : String)
  deriving DecidableEq, Repr

/-- The state of the block. Tables hold only what differs from a default; the default values are the reset values. -/
structure State where
  /-- commands that wait, first in, first out -/
  pending : List Instr := []
  /-- cycles of the 25 MHz local crystal since reset (R898) -/
  cycles : Nat := 0
  /-- the number of the next free value: the model's own (DESIGN CHOICE, log 9) -/
  fresh : Nat := 0
  /-- what has been sent out, oldest first -/
  out : List Output := []
  /-- plain RW registers and kept LO or HI halves, keyed 2^24 × accessor copy + 2^12 × page + offset;
  copy 0 is shared, copy 1 + accessor number is that accessor's own (R317 of 06) -/
  regs : Tab Word32 := []
  /-- unit page headers (R80 to R101), keyed by page -/
  units : Tab UnitHdr := []
  /-- the management message has been sent for the present raising of the root (R96) -/
  rootSent : Bool := false
  rings : Tab Ring := []
  jobs : Tab Job := []
  /-- serial of the next job (32 bits in CARIT and OBJECT, R287, R562); reset 1, so that 0 names no job -/
  nextSerial : Nat := 1
  intakes : Tab Intake := []
  ballast : Ballast := {}
  /-- MSI-X entries keyed 32 × function + entry; function 1,024 + n is physical function n -/
  msix : Tab MsixEntry := []
  kc : KeyCache := {}
  tether : Tether := {}
  events : Tab EvEntry := []
  /-- EVT_SEL per accessor (8 bits); reset 0 -/
  evtSel : Tab Nat := []
  /-- EVT_CTRL.RESULT per accessor (4 bits, R325); reset 0 -/
  evtRes : Tab Nat := []
  kh : KeyHier := {}
  audit : Audit := {}
  sails : Tab Sail := []
  sig : SigPipe := {}
  lanes : Tab Lane := []
  rng : Rng := {}
  cores : Tab Core := []
  mc : Microcode := {}
  dbg : Debug := {}
  im : InstMgr := {}
  faults : Faults := {}
  bridle : Bridle := {}
  tamper : Tamper := {}
  mooring : Mooring := {}
  flash : Flash := {}
  ccb : CardBus := {}
  tag : Tag := {}
  ports : Tab Port := []
  power : Power := {}
  lc : Lifecycle := {}
  otp : Otp := {}
  otpRegs : OtpRegs := {}
  /-- the SMBus port's address pointer (24 bits, R906); reset 0 -/
  smbPtr : Nat := 0
  deriving DecidableEq, Repr

/-- The block right after reset: every field at the value its docstring names. Start-up (R872) has not run. -/
def State.reset : State := {}

end Sys2Proof.Machine
end

