-- ==== Sys2Proof/Machine/Ops.lean ====
section
/-! DEFINITION. Named operations over the tables, byte strings and shared counters of the state: sparse tables in
canonical form, bit fields, byte order, checksums, free values, outputs. -/

namespace Sys2Proof.Machine

/-! ### Sparse tables -/

/-- The value at key `k`, `d` where the table lists none. -/
def tget {α : Type} (d : α) : Tab α → Nat → α
  | [], _ => d
  | (k', v) :: t, k => if k' = k then v else tget d t k

/-- The entry at key `k` of a table in which absence has a meaning of its own. -/
def tfind {α : Type} : Tab α → Nat → Option α
  | [], _ => none
  | (k', v) :: t, k => if k' = k then some v else tfind t k

/-- The table without key `k`. -/
def tdel {α : Type} : Tab α → Nat → Tab α
  | [], _ => []
  | (k', v) :: t, k => if k' = k then t else (k', v) :: tdel t k

/-- The table with `v` at key `k`, keys kept rising. -/
def tput {α : Type} : Tab α → Nat → α → Tab α
  | [], k, v => [(k, v)]
  | (k', v') :: t, k, v =>
    if k' = k then (k, v) :: t
    else if k < k' then (k, v) :: (k', v') :: t
    else (k', v') :: tput t k v

/-- Write of a table with default `d`: the default value removes the entry, so that equal tables are equal data. -/
def tset {α : Type} [DecidableEq α] (d : α) (t : Tab α) (k : Nat) (v : α) : Tab α :=
  if v = d then tdel t k else tput t k v

/-- The table with every entry changed; one that comes out as its default is removed. -/
def tmap {α : Type} [DecidableEq α] (d : Nat → α) (f : Nat → α → α) (t : Tab α) : Tab α :=
  t.filterMap fun e => if f e.1 e.2 = d e.1 then none else some (e.1, f e.1 e.2)

/-- Keys strictly above `lo`, strictly rising, and no entry equal to the default. -/
def tabWfFrom {α : Type} [DecidableEq α] (d : Nat → α) : Option Nat → Tab α → Bool
  | _, [] => true
  | lo, (k, v) :: t => decide (∀ l, lo = some l → l < k) && !decide (v = d k) && tabWfFrom d (some k) t

/-- The canonical form of a table whose unlisted key `k` holds `d k` (DESIGN CHOICE, log 14). -/
def Tab.wf {α : Type} [DecidableEq α] (d : Nat → α) (t : Tab α) : Bool := tabWfFrom d none t

/-! ### Bits and bytes -/

/-- Bits `lo` to `lo + n - 1` of `v`. -/
def bits (v lo n : Nat) : Nat := (v >>> lo) % 2 ^ n

/-- Bit `i` of `v`. -/
def bit (v i : Nat) : Bool := v.testBit i

/-- One bit as a number at place `i`. -/
def bitAt (b : Bool) (i : Nat) : Nat := if b then 2 ^ i else 0

/-- A 32-bit register's value from a number. -/
def w32 (v : Nat) : Word32 := BitVec.ofNat 32 v

/-- `n` bytes of `v`, least significant first (R11 of 00_scope.md). -/
def le (n v : Nat) : Bytes := (List.range n).map fun i => BitVec.ofNat 8 (v >>> (8 * i))

/-- The number that a byte string holds, least significant byte first. -/
def unle : Bytes → Nat
  | [] => 0
  | b :: bs => b.toNat + 256 * unle bs

/-- `n` bytes of `v`, most significant first. -/
def be (n v : Nat) : Bytes := (le n v).reverse

/-- The number that a byte string holds, most significant byte first. -/
def unbe (b : Bytes) : Nat := unle b.reverse

/-- `len` bytes from `off`, 0 where the string ends before. -/
def slice (b : Bytes) (off len : Nat) : Bytes := (List.range len).map fun i => b.getD (off + i) 0

/-- The little-endian number of `len` bytes at `off`. -/
def field (b : Bytes) (off len : Nat) : Nat := unle (slice b off len)

/-- The string cut or padded with 0 to `n` bytes. -/
def pad (n : Nat) (b : Bytes) : Bytes := slice b 0 n

/-- `n` bytes of 0. -/
def zeros (n : Nat) : Bytes := List.replicate n 0

/-- The bytes of a 32-bit register block: byte 4p + b in bits [8b + 7:8b] of register p. -/
def regBytes (b : Bytes) (p : Nat) : Word32 := w32 (field b (4 * p) 4)

/-- `old` with the bytes at `off` replaced by `new`; `old` is taken as `len` bytes. -/
def splice (len : Nat) (old : Bytes) (off : Nat) (new : Bytes) : Bytes :=
  (List.range len).map fun i =>
    if off ≤ i ∧ i < off + new.length then new.getD (i - off) 0 else old.getD i 0

/-- Bytewise exclusive or, as long as the first string. -/
def xorBytes (a b : Bytes) : Bytes := (List.range a.length).map fun i => a.getD i 0 ^^^ b.getD i 0

/-- ASCII text as bytes. -/
def ascii (t : String) : Bytes := t.toList.map fun c => BitVec.ofNat 8 c.toNat

/-- A value that saturates at `m`. -/
def sat (m v : Nat) : Nat := if m < v then m else v

/-! ### Checksums -/

/-- CRC-8 with polynomial 0x07 and initial value 0x00 (R679 of 16, R784 of 19, R839 of 21). -/
def crc8 (b : Bytes) : Byte :=
  b.foldl (fun c x => (List.range 8).foldl (fun c _ => if c.msb then (c <<< 1) ^^^ 0x07#8 else c <<< 1) (c ^^^ x)) 0#8

/-- CRC-32C, reflected polynomial 0x1EDC6F41, initial value and final XOR 0xFFFFFFFF (R802 of 20). -/
def crc32c (b : Bytes) : Word32 :=
  ~~~ b.foldl (fun c x => (List.range 8).foldl
    (fun c _ => if c.getLsbD 0 then (c >>> 1) ^^^ 0x82F63B78#32 else c >>> 1) (c ^^^ x.setWidth 32)) 0xFFFFFFFF#32

/-- CRC-16 with polynomial 0x8005 and initial value 0xFFFF over bits in the order sent (R801 of 20). -/
def crc16 (bs : List Bool) : BitVec 16 :=
  bs.foldl (fun c b => if (c.msb != b) then (c <<< 1) ^^^ 0x8005#16 else c <<< 1) 0xFFFF#16

/-! ### Free values, outputs, time -/

/-- `n` free bytes, and the state with the next free value's number advanced (DESIGN CHOICE, log 117). -/
def freeBytes (s : State) (n : Nat) : Bytes × State :=
  ((List.range n).map (Config.freeByte s.fresh), { s with fresh := s.fresh + 1 })

/-- A free number (DESIGN CHOICE, log 9). -/
def freeNat (s : State) : Nat × State := (Config.freeNat s.fresh, { s with fresh := s.fresh + 1 })

/-- Something sent out (DESIGN CHOICE, log 5). -/
def emit (s : State) (o : Output) : State := { s with out := s.out ++ [o] }

/-- 25 MHz cycles of a time in microseconds (R898 of 23). -/
def usCycles (us : Nat) : Nat := 25 * us

/-- The copy of per-accessor state that an accessor uses: one for each physical function and a third for firmware
(R72 of 02_unit_pages.md). -/
def accIdx : Acc → Nat
  | .pf0 => 0
  | .pf1 => 1
  | .fw0 => 2
  | .fw1 => 2
  | .vf => 3

/-- The command changes nothing: its condition does not hold in this state (DESIGN CHOICE, log 3). -/
def stay (s : State) : Host.Outcome State Fault Refusal := .next s

end Sys2Proof.Machine
end

