-- ==== Sys2Proof/Machine/Tree.lean ====
section
/-! DEFINITION. The unit tree, the common header of a unit page, events and the management message, and the unit state
machine (02_unit_pages.md). -/

namespace Sys2Proof.Machine

/-! ### The tree -/

/-- A page of a channel's root or engines (R75, R76). -/
def isChanPage (p : Nat) : Bool := decide (0x100 ≤ p ∧ p < 0x320 ∧ (p - 0x100) % 16 ≤ 11)

/-- Channel of a channel or engine page (R34). -/
def chanOf (p : Nat) : Nat := (p - 0x100) / 16

/-- Offset of a page from its channel root (R33). -/
def slotOf (p : Nat) : Nat := (p - 0x100) % 16

/-- Root page of channel `c` (R34). -/
def chanPage (c : Nat) : Nat := 0x100 + 16 * c

/-- Half of a channel: 0 is C0, 1 is C1 (R34). -/
def halfOf (c : Nat) : Nat := if c ≤ 16 then 0 else 1

/-- Page of the unit of instance `i` (R75). -/
def instPage (i : Nat) : Nat := 0x400 + i

/-- Page of bridle line `m` (R75). -/
def linePage (m : Nat) : Nat := 0x040 + m

/-- Kind code of R79 of the unit on a page, 0 where the page holds no unit of this device. Gondola views are no units
of this device: their pages are read-only views. -/
def kindOf (p : Nat) : Nat :=
  if isChanPage p then
    match slotOf p with
    | 0 => 0x03 | 1 => 0x04 | 2 => 0x04 | 3 => 0x04 | 4 => 0x04 | 5 => 0x05 | 6 => 0x05 | 7 => 0x06
    | 8 => 0x07 | 9 => 0x09 | 10 => 0x08 | _ => 0x13
  else if 0x400 ≤ p ∧ p < 0x800 then 0x12
  else if 0x040 ≤ p ∧ p < 0x080 then 0x10
  else match p with
    | 0x000 => 0x01 | 0x001 => 0x11 | 0x002 => 0x11 | 0x004 => 0x0C | 0x005 => 0x09 | 0x006 => 0x0B | 0x007 => 0x0D
    | 0x008 => 0x0E | 0x009 => 0x0F | 0x00A => 0x14 | 0x00B => 0x15 | 0x00C => 0x16 | 0x00D => 0x17 | 0x020 => 0x10
    | 0x080 => 0x18 | 0x081 => 0x0A | 0x082 => 0x08 | 0x084 => 0x19 | 0x090 => 0x02 | 0x091 => 0x02 | _ => 0

/-- The parent's page, none for the root and for pages without a unit (R20, R78, R93). -/
def parentOf (p : Nat) : Option Nat :=
  if isChanPage p then
    if slotOf p = 0 then some (if chanOf p ≤ 16 then 0x090 else 0x091) else some (chanPage (chanOf p))
  else if 0x400 ≤ p ∧ p < 0x800 then some 0x084
  else if 0x040 ≤ p ∧ p < 0x080 then some 0x020
  else if p = 0 ∨ kindOf p = 0 then none
  else some 0

/-- The device root's children, in the order of R93. -/
def rootChildren : List Nat :=
  [0x001, 0x002, 0x004, 0x005, 0x006, 0x007, 0x008, 0x009, 0x00A, 0x00B, 0x00C, 0x00D, 0x020, 0x080, 0x081, 0x082,
   0x084, 0x090, 0x091]

/-- The children of a unit (R93). -/
def childrenOf (p : Nat) : List Nat :=
  if p = 0 then rootChildren
  else if p = 0x090 then (List.range 17).map chanPage
  else if p = 0x091 then (List.range 17).map fun j => chanPage (17 + j)
  else if isChanPage p ∧ slotOf p = 0 then (List.range 11).map fun j => p + 1 + j
  else if p = 0x020 then (List.range 64).map linePage
  else if p = 0x084 then (List.range 1024).map instPage
  else []

/-- Every unit below a page, parents before children (R93: the tree is three levels deep). -/
def descendants (p : Nat) : List Nat :=
  (childrenOf p).flatMap fun q => q :: (childrenOf q).flatMap fun r => r :: childrenOf r

/-! ### Headers -/

/-- A unit's header as start-up leaves a fresh part: instances and bridle lines OFF (R618, R919), the spares of R36,
channels 16 and 33 with their engines, OFF, the host ports STARTING until their links are up (R889), all else RUNNING. -/
def unitDflt (p : Nat) : UnitHdr :=
  if 0x400 ≤ p ∧ p < 0x800 then { state := .off, enable := false }
  else if 0x040 ≤ p ∧ p < 0x080 then { state := .off, enable := false }
  else if p = 1 ∨ p = 2 then { state := .starting }
  else if isChanPage p ∧ (chanOf p = 16 ∨ chanOf p = 33) then { state := .off, enable := false }
  else {}

/-- The header of the unit on page `p`. -/
def unitAt (s : State) (p : Nat) : UnitHdr := tget (unitDflt p) s.units p

/-- The state with that header replaced. -/
def putUnit (s : State) (p : Nat) (u : UnitHdr) : State := { s with units := tset (unitDflt p) s.units p u }

/-- The state with that header changed. -/
def modUnit (s : State) (p : Nat) (f : UnitHdr → UnitHdr) : State := putUnit s p (f (unitAt s p))

/-- STATE code of R84. -/
def ustateCode : UState → Nat
  | .off => 0 | .starting => 1 | .running => 2 | .stopping => 3 | .quiesced => 4 | .faulted => 5 | .retired => 6

/-- The unit takes work: RUNNING and not draining toward QUIESCED (R102). -/
def takesWork (s : State) (p : Nat) : Bool :=
  let u := unitAt s p
  decide (u.state = .running) && !u.draining

/-- Work in flight of a unit above may still use the unit (R102): RUNNING and not draining, or STOPPING with the unit above. -/
def serves (s : State) (p : Nat) : Bool :=
  let u := unitAt s p
  takesWork s p || (decide (u.state = .stopping) && u.enable && !u.quiesce)

/-- A unit RUNNING in the sense of UNIT_STATE. -/
def isRunning (s : State) (p : Nat) : Bool := decide ((unitAt s p).state = .running)

/-! ### Events and the management message -/

/-- A unit is raised while UNIT_EVENT AND UNIT_EVENT_EN is not zero (R95); CHILD, bit 4 of UNIT_EVENT, is 1 while any
child is raised (R94). `fuel` counts the levels below. -/
def raised (s : State) : Nat → Nat → Bool
  | 0, p => decide ((unitAt s p).event &&& (unitAt s p).eventEn ≠ 0)
  | fuel + 1, p =>
    let u := unitAt s p
    decide (u.event &&& u.eventEn ≠ 0) ||
      (u.eventEn.getLsbD 4 && s.units.any fun e => decide (parentOf e.1 = some p) && raised s fuel e.1)

/-- CHILD of R94 for the unit on page `p`. -/
def childRaised (s : State) (p : Nat) : Bool :=
  s.units.any fun e => decide (parentOf e.1 = some p) && raised s 2 e.1

/-- The device root is raised (R95). -/
def rootRaised (s : State) : Bool := raised s 3 0

/-- Function number in the MSI-X table of physical function `n`. -/
def pfFunc (n : Nat) : Nat := 1024 + n

/-- An MSI-X entry of a function. -/
def msixAt (s : State) (func entry : Nat) : MsixEntry := tget {} s.msix (32 * func + entry)

/-- The message of an MSI-X entry: sent while unmasked, else held pending (R167 to R169 of 03_rings.md)
(DESIGN CHOICE, log 22). -/
def sendMsix (s : State) (func entry : Nat) : State :=
  let m := msixAt s func entry
  if m.masked then { s with msix := tset {} s.msix (32 * func + entry) { m with pending := true } }
  else emit s (.msix func entry m.addr m.data)

/-- The management message on each host port (R96). -/
def sendManagement (s : State) : State := sendMsix (sendMsix s (pfFunc 0) 0) (pfFunc 1) 0

/-- After a change of an event or an enable: the message of R96 when the root becomes raised. -/
def noteRoot (s : State) : State :=
  let r := rootRaised s
  if r && !s.rootSent then { sendManagement s with rootSent := true } else { s with rootSent := r }

/-- Sets event bits of the unit on page `p` (R94). -/
def setEvent (s : State) (p : Nat) (b : Nat) : State :=
  noteRoot (modUnit s p fun u => { u with event := u.event ||| BitVec.ofNat 32 (2 ^ b) })

/-- A refused write (R108): REFUSED rises, saturating at 255, and LOCK_REFUSED is set. -/
def refuseWrite (s : State) (p : Nat) : State :=
  setEvent (modUnit s p fun u => { u with refused := sat 255 (u.refused + 1) }) p 3

/-! ### Instances and their rings -/

/-- An instance number's state (R617). -/
def instAt (s : State) (i : Nat) : Inst := tget {} s.im.insts i
def putInst (s : State) (i : Nat) (x : Inst) : State := { s with im := { s.im with insts := tset {} s.im.insts i x } }

/-- Page of the instance manager. -/
def imPage : Nat := 0x084

/-- A bit of DP_EVENT is set; the data-path page that becomes raised sends MSI-X entry 16 (R659). An instance that is not
created here has no data path (R654). -/
def dpEvent (s : State) (i b : Nat) : State :=
  let x := instAt s i
  if !x.created then s
  else
    let ev := x.dpEvent ||| BitVec.ofNat 32 (2 ^ b)
    let s := putInst s i { x with dpEvent := ev }
    if x.dpEvent &&& x.dpEventEn = 0 ∧ ev &&& x.dpEventEn ≠ 0 then sendMsix s i 16 else s

def intakeAt (s : State) (c : Nat) : Intake := tget {} s.intakes c
def putIntake (s : State) (c : Nat) (x : Intake) : State := { s with intakes := tset {} s.intakes c x }

/-- Key of a ring of an instance. -/
def ringKey (i r : Nat) : Nat := 16 * i + r
def ringAt (s : State) (k : Nat) : Ring := tget {} s.rings k
def putRing (s : State) (k : Nat) (r : Ring) : State := { s with rings := tset {} s.rings k r }

/-- Bus Master Enable of an instance's virtual function; while its port is OFF or STARTING it counts as 0 (R133, R889 of 22). -/
def bmeNow (s : State) (i : Nat) : Bool :=
  (instAt s i).bme && match (unitAt s (1 + (instAt s i).port)).state with
    | .off | .starting => false
    | _ => true

/-- RING_STATUS.ACTIVE (R126). -/
def ringActive (s : State) (k : Nat) : Bool :=
  let r := ringAt s k
  r.pool.isSome && r.enable && !r.error && decide ((unitAt s (instPage (k / 16))).state = .running) && bmeNow s (k / 16)

/-- The intake bound to a ring is to scan it (R53, R54, R130): a scan begins, or another follows the one in progress. -/
def wakeRing (s : State) (k : Nat) : State :=
  if !ringActive s k then s
  else
    let r := ringAt s k
    let t := intakeAt s r.intake
    if t.scan.contains k then putRing s k { r with rescan := true }
    else putIntake s r.intake { t with scan := t.scan ++ [k], scans := t.scans + 1 }

/-- The rings of an instance, by key. -/
def ringsOf (s : State) (i : Nat) : List Nat := (s.rings.filter fun e => decide (e.1 / 16 = i)).map (·.1)

/-- An instance's state has changed: FROZEN or THAWED of R659, and its rings become ACTIVE (R130) (DEDUCED, log 100). -/
def instFollow (s : State) (p : Nat) (old : UState) : State :=
  if kindOf p = 0x12 then
    let i := p - 0x400
    match (unitAt s p).state with
    | .quiesced => dpEvent s i 1
    | .running => (ringsOf s i).foldl wakeRing (if old = .quiesced then dpEvent s i 2 else s)
    | _ => s
  else s

/-- A channel DRBG follows its channel (R520, R527 of 12): instantiation is requested as the channel enters STARTING;
its state is cleared as the channel enters OFF, FAULTED or RETIRED. -/
def drbgFollow (s : State) (p : Nat) (st : UState) : State :=
  if kindOf p = 0x03 then
    let c := chanOf p
    let healthy := (List.range 4).countP fun i => decide ((tget {} s.rng.sources i).state = .healthy)
    let x := tget {} s.rng.drbgs c
    let d : Drbg := { reseeds := x.reseeds, unseeded := x.unseeded }
    match st with
    | .starting =>
      let low := s.rng.gathered && decide (healthy < 2)
      let d := if low then { d with state := .unseeded, unseeded := x.unseeded + 1 } else d
      let s := { s with rng := { s.rng with
          drbgs := tset {} s.rng.drbgs c d, requests := s.rng.requests ++ [.instantiate c] } }
      if low then setEvent s (p + 9) 16 else s
    | .off | .faulted | .retired =>
      { s with rng := { s.rng with
          drbgs := tset {} s.rng.drbgs c d
          requests := s.rng.requests.filter fun r => match r with
            | .instantiate d | .reseed d _ => d ≠ c
            | .drk => true } }
    | _ => s
  else s

/-- A Sail engine as a wipe begins (R438, R441): no slot, no selection, operand registers 0, every word 0. -/
def wiped (e : Sail) : Sail :=
  { e with
    estate := .wiping, run := none, mem := [], attr := [], unspec := none, mods := [], curves := [], lane := 0
    lastWasLane := false, arg0 := 0, arg1 := 0, arg2 := 0, arg3 := 0, xlen := 0, memAddr := 0, heldLo := 0, readHi := 0
    flag := false, identity := false, job := none
    ownerInst := if e.expert then e.ownerInst else 0
    ownerGen := if e.expert then e.ownerGen else 0
    ownerKgen := if e.expert then e.ownerKgen else 0
    ownerValid := e.expert }

/-- A Sail engine wipes as its unit enters OFF, FAULTED, RETIRED or STARTING (R439 of 09). -/
def sailFollow (s : State) (p : Nat) (st : UState) : State :=
  if kindOf p = 0x05 ∨ kindOf p = 0x06 then
    match st with
    | .off | .faulted | .retired | .starting => { s with sails := tset {} s.sails p (wiped (tget {} s.sails p)) }
    | _ => s
  else s

/-- A Carit core clears its secret classes as its unit enters OFF, FAULTED or RETIRED (R532 of 13) (DEDUCED, log 63). -/
def coreFollow (s : State) (p : Nat) (st : UState) : State :=
  if kindOf p = 0x04 then
    match st with
    | .off | .faulted | .retired =>
      let c := tget {} s.cores p
      { s with cores := tset {} s.cores p { c with sreg := [], sport := 0 } }
    | _ => s
  else s

/-- A change of UNIT_STATE.STATE with UNIT_EVENT.STATE (R94); ENABLE_PENDING clears when the unit starts, faults or
retires (R102). -/
def setUState (s : State) (p : Nat) (st : UState) : State :=
  if (unitAt s p).state = st then s
  else instFollow (setEvent (modUnit (coreFollow (sailFollow (drbgFollow s p st) p st) p st) p fun u =>
    { u with
      state := st
      draining := false
      pending := match st with
        | .starting | .faulted | .retired | .running | .quiesced => false
        | _ => u.pending
      enable := if st = .retired then false else u.enable }) p 0) p (unitAt s p).state

/-! ### Work in flight -/

/-- A job that has been taken and whose completion is neither written nor discarded: it is in the table (R58). -/
def jobsWhere (s : State) (f : Job → Bool) : Bool := s.jobs.any fun e => f e.2

/-- The channel of a chain that has begun: that of the member before (R150). A re-run is free of it (R663)
(DEDUCED, log 18). -/
def chainChan (s : State) (n : Nat) (j : Job) : Option Nat :=
  if n = j.first ∨ j.reruns ≠ 0 then none
  else (tfind s.jobs (n - 1)).bind fun p => if p.first = j.first then p.chan else none

/-- A job is on a channel that satisfies `f`, or a member of its chain is that has begun (R102, R150). -/
def onChannel (s : State) (f : Nat → Bool) : Bool :=
  s.jobs.any fun e => match e.2.chan with
    | some c => f c
    | none => ((chainChan s e.1 e.2).map f).getD false

/-- Work in flight of the unit on page `p` (R102): jobs for the root, halves, channels, ports and instances; the
engine's own work for an engine. -/
def workInFlight (s : State) (p : Nat) : Bool :=
  match kindOf p with
  | 0x01 => !s.jobs.isEmpty
  | 0x02 => onChannel s fun c => decide (halfOf c = p - 0x090)
  | 0x03 | 0x04 => onChannel s fun c => decide (c = chanOf p)
  | 0x05 | 0x06 => decide ((tget {} s.sails p).estate ≠ .idle)
  | 0x07 =>
    if isChanPage p then
      let l := tget {} s.lanes (chanOf p)
      l.busy || l.unwrap.isSome || l.port.isSome || l.job.isSome || l.help.isSome
    else false
  | 0x09 => if isChanPage p then !(tget {} s.rng.drbgs (chanOf p)).queue.isEmpty else false
  | 0x08 =>
    if isChanPage p then jobsWhere s fun j => decide (j.chan = some (chanOf p) ∧ j.phase = .leafBuilt) else false
  | 0x11 => jobsWhere s fun j => decide ((instAt s j.inst).port = p - 1)
  | 0x12 => jobsWhere s fun j => decide (j.inst = p - 0x400)
  | 0x0E => s.ccb.txn.isSome
  | 0x0F => s.tag.run.isSome
  | _ => false

/-! ### The state machine of R102 -/

/-- The parent is RUNNING or QUIESCED, so a unit below it may start (R102). The root has no parent. -/
def parentUp (s : State) (p : Nat) : Bool :=
  match parentOf p with
  | none => true
  | some q => decide ((unitAt s q).state = .running ∨ (unitAt s q).state = .quiesced)

/-- What entering STARTING resets: a Carit core starts with every register 0 (R533, R577); its local memory and its counts
stay. -/
def onStarting (s : State) (p : Nat) : State :=
  if kindOf p = 0x04 then
    let c := tget {} s.cores p
    let c' : Core :=
      { mem := c.mem, tags := c.tags, instrs := c.instrs, stalls := c.stalls, instrSnap := c.instrSnap
        stallSnap := c.stallSnap }
    { s with cores := tset {} s.cores p c' }
  else s

/-- OFF with ENABLE = 1: STARTING when the parent is up and the unit is not faulted, else ENABLE_PENDING (R102). -/
def tryStart (s : State) (p : Nat) : State :=
  let u := unitAt s p
  if u.state = .off ∧ u.enable then
    if parentUp s p && !u.permanent then onStarting (setUState s p .starting) p
    else modUnit s p fun u => { u with pending := true }
  else s

/-- RUNNING and told to quiesce, itself or by its parent: new work stops; QUIESCED once nothing is in flight (R102). -/
def beginQuiesce (s : State) (p : Nat) : State :=
  if (unitAt s p).state = .running then
    if workInFlight s p then modUnit s p fun u => { u with draining := true }
    else setUState s p .quiesced
  else s

/-- QUIESCED with QUIESCE = 0 and a RUNNING parent: RUNNING again (R102). A drain that has not ended is ended too. -/
def tryRun (s : State) (p : Nat) : State :=
  let u := unitAt s p
  let up := match parentOf p with | none => true | some q => isRunning s q
  if u.quiesce || !up then s
  else if u.state = .quiesced then setUState s p .running
  else modUnit s p fun u => { u with draining := false }

/-- A parent has become RUNNING or QUIESCED: its children follow (R102, R105). -/
def wakeChild (s : State) (p : Nat) : State :=
  match (unitAt s p).state with
  | .off => tryStart s p
  | .running => match parentOf p with
    | some q => if (unitAt s q).state = .quiesced then beginQuiesce s p else tryRun s p
    | none => s
  | .quiesced => tryRun s p
  | _ => s

/-- The children of a unit that has entered RUNNING or QUIESCED, level by level. -/
def wakeBelow (s : State) (p : Nat) : State := (descendants p).foldl wakeChild s

/-- STOPPING of one unit (R102). -/
def stopOne (s : State) (p : Nat) : State :=
  match (unitAt s p).state with
  | .starting | .running | .quiesced => setUState s p .stopping
  | _ => s

/-- A unit enters STOPPING, and its children pass through STOPPING to OFF (R102). -/
def stopTree (s : State) (p : Nat) : State := (descendants p).foldl stopOne (stopOne s p)

/-- What reaching OFF does beside the state: a bridle line goes down (R919 of 17), a host port's link is disabled
(R889 of 22). -/
def onOff (s : State) (p : Nat) : State :=
  if 0x040 ≤ p ∧ p < 0x080 then
    let l := tget {} s.bridle.lines (p - 0x040)
    let l := { l with lstate := .down, positions := [], spareUsed := false, keyOut := none, keyIn := none, replay := [] }
    { s with bridle := { s.bridle with lines := tset {} s.bridle.lines (p - 0x040) l } }
  else if p = 1 ∨ p = 2 then
    let q := tget {} s.ports (p - 1)
    let s := { s with ports := tset {} s.ports (p - 1) { q with up := false, l1 := false, speed := 0, width := 0 } }
    if q.up then setEvent s p 17 else s
  else s

/-- A channel, an engine or a half that stops only because the device root does still has the root's work to do
(DEDUCED, log 18). -/
def rootNeeds (s : State) (p : Nat) : Bool :=
  (isChanPage p || decide (p = 0x090 ∨ p = 0x091)) && decide ((unitAt s 0).state = .stopping) && (unitAt s p).enable &&
    !s.jobs.isEmpty

/-- A STOPPING unit without work whose children are all OFF, FAULTED or RETIRED reaches OFF, and passes on to STARTING
when ENABLE is 1 again; one that is retiring waits in STOPPING for its record (R102, R675). -/
def restOne (s : State) (p : Nat) : State :=
  let u := unitAt s p
  if u.state = .stopping && !workInFlight s p && !rootNeeds s p && !u.retiring &&
      (childrenOf p).all fun q => decide ((unitAt s q).state = .off ∨ (unitAt s q).state = .faulted ∨
        (unitAt s q).state = .retired)
  then tryStart (onOff (setUState s p .off) p) p else s

/-- A parent's FAULTED or RETIRED passes to a child, with PERM_CAUSE 0x0C unless the fault was its own (R105); the state of an
instance is never one of them (R619 of 15). -/
def followOne (st : UState) (s : State) (p : Nat) : State :=
  if (unitAt s p).state = .retired ∨ kindOf p = 0x12 then s
  else setUState (modUnit s p fun u => { u with permCause := if u.permanent then u.permCause else 0x0C }) p st

/-- FAULTED of a unit and of every unit below it (R102, R105). -/
def faultTree (s : State) (p : Nat) : State := (descendants p).foldl (followOne .faulted) (setUState s p .faulted)

/-- RETIRED of a unit and of every unit below it (R102, R103, R105). -/
def retireTree (s : State) (p : Nat) : State := (descendants p).foldl (followOne .retired) (setUState s p .retired)

/-- A permanent fault charged to a unit (R87, R94, R102). -/
def permanentFault (s : State) (p cause : Nat) : State :=
  if (unitAt s p).permanent then s
  else faultTree (setEvent (modUnit s p fun u =>
    { u with permanent := true, permCause := cause, lastCause := cause }) p 2) p

/-- A transient fault charged to a unit (R87, R94). -/
def transientFault (s : State) (p cause : Nat) : State :=
  setEvent (modUnit s p fun u => { u with transient := sat 255 (u.transient + 1), lastCause := cause }) p 1

/-! ### Channel shares and the binding of rings (R51, R52, R57, R629, R630) -/

/-- Channels of an instance's share (R629). -/
def shareOf (s : State) (i : Nat) : List Nat := (List.range 34).filter fun c => bit (instAt s i).chans c

/-- The RUNNING channels of a share, ascending (R630). -/
def runningShare (s : State) (i : Nat) : List Nat := (shareOf s i).filter fun c => isRunning s (chanPage c)

/-- STALLED follows the waiting intakes (R46, R50): EXHAUSTED as it rises, RELIEVED as it falls. -/
def noteStall (s : State) : State :=
  let w := s.intakes.any fun e => e.2.waitBallast
  if w = s.ballast.stalled then s
  else setEvent { s with ballast := { s.ballast with stalled := w } } 0x080 (if w then 16 else 17)

/-- An intake gives up the take in hand of a ring: what it has read, and the wait for ballast of its front ring. -/
def dropTake (s : State) (k : Nat) : State :=
  let r := ringAt s k
  let s := putRing s k { r with readSoFar := [], waitBallast := false }
  let t := intakeAt s r.intake
  if r.waitBallast then noteStall (putIntake s r.intake { t with waitBallast := false }) else s

/-- A ring moves from one intake to another with its pending doorbell (R51, R52, R57). -/
def moveRing (s : State) (k old new : Nat) : State :=
  if old = new then s
  else
    let s := dropTake s k
    let o := intakeAt s old
    let s := putIntake s old { o with scan := o.scan.filter (· ≠ k) }
    let n := intakeAt s new
    let s := putIntake s new { n with scan := if o.scan.contains k then n.scan ++ [k] else n.scan }
    setEvent (setEvent s (chanPage old + 11) 16) (chanPage new + 11) 16

/-- The bindings of an instance's rings made again (R630). -/
def rebind (s : State) (i : Nat) : State :=
  match runningShare s i with
  | [] => s
  | cs => (s.rings.filter fun e => decide (e.1 / 16 = i)).foldl (fun s e =>
      match e.2.pool with
      | none => s
      | some g =>
        let c := cs.getD (g % cs.length) 0
        let s := moveRing s e.1 e.2.intake c
        { s with rings := tset {} s.rings e.1 { tget {} s.rings e.1 with intake := c } }) s

/-- Instances that have been created. -/
def createdInsts (s : State) : List Nat := (s.im.insts.filter fun e => e.2.created).map (·.1)

/-- A share without a RUNNING channel gets the lowest-numbered one (R629). -/
def mendShare (s : State) (i : Nat) : State :=
  if (runningShare s i).isEmpty then
    match (List.range 34).find? fun c => isRunning s (chanPage c) with
    | none => s
    | some c =>
      let x := instAt s i
      setEvent { s with im := { s.im with insts := tset {} s.im.insts i { x with chans := x.chans ||| 2 ^ c } } } imPage 17
  else s

/-- After a change of a channel's state: every share is mended and every ring bound again (R629, R630). -/
def rebindAll (s : State) : State := (createdInsts s).foldl (fun s i => rebind (mendShare s i) i) s

/-- Stand-in `n` takes the place of channel `c` in every share that named it (R629). -/
def replaceInShares (s : State) (c n : Nat) : State :=
  (createdInsts s).foldl (fun s i =>
    let x := instAt s i
    if bit x.chans c then
      let m := x.chans - 2 ^ c
      setEvent { s with im := { s.im with insts := tset {} s.im.insts i { x with chans := m ||| 2 ^ n } } } imPage 17
    else s) s

/-! ### Who reaches a page -/

/-- The page is powered and answers: none does in MOORED (R864), compute-die and bridle pages do not in STANDBY (R867), and a
root that a failed start-up leaves FAULTED leaves only six pages (R876). With STRAP_TEST 1 none does (R902 of 23). -/
def pageAnswers (s : State) (p : Nat) : Bool :=
  decide (s.power.state ≠ .moored) && !s.power.strapTest &&
  (if s.power.state = .standby then
    !(isChanPage p || decide (p = 0x090 ∨ p = 0x091 ∨ (0x020 ≤ p ∧ p < 0x080))) else true) &&
  (if (unitAt s 0).state = .faulted ∧ !s.faults.noChannel then
    decide (p = 0x000 ∨ p = 0x004 ∨ p = 0x007 ∨ p = 0x00A ∨ p = 0x00B ∨ p = 0x00D) else true)

/-- Work has come: IDLE ends (R865), with POWER of R891. -/
def wakeIdle (s : State) : State :=
  if s.power.state = .idle then setEvent { s with power := { s.power with state := .run, quietSince := s.cycles } } 0 17 else s

/-- The accessor reaches the page: physical functions through BAR0 (R72), ring 0 firmware every page, ring 1 firmware
every page but 0x004 and 0x00A to 0x00D (R600 of 14). A virtual function reaches no page of BAR0 (R118)
(DEDUCED, log 24). -/
def reaches (s : State) (acc : Acc) (p : Nat) : Bool :=
  decide (p < 0x1000) && pageAnswers s p &&
  match acc with
  | .vf => false
  | .fw1 => !decide (p = 0x004 ∨ (0x00A ≤ p ∧ p ≤ 0x00D))
  | _ => true

/-- A write to the common header of a unit of this device takes effect on the page. -/
def headerWrite (s : State) (acc : Acc) (p : Nat) : Bool := reaches s acc p && decide (kindOf p ≠ 0)

/-- A write to UNIT_CTRL takes effect: on an instance page it is dropped (R619 of 15). -/
def ctrlWrite (s : State) (acc : Acc) (p : Nat) : Bool := headerWrite s acc p && decide (kindOf p ≠ 0x12)

end Sys2Proof.Machine
end

