-- ==== Sys2Proof/Machine/Store.lean ====
section
/-! DEFINITION. What the device keeps in flash between start-ups, in the form the keel appends it: device record,
anchor and configuration store (19_flash.md), and the OTP burns of R886 (22_host_ports_power_startup.md). -/

namespace Sys2Proof.Machine

/-! ### OTP -/

/-- Lifecycle code of R877: 0 FACTORY, 1 UNCOMMISSIONED, 2 COMMISSIONED, 3 ZEROISED, from the thermometer of three
bits. -/
def lifecycleOf (o : Otp) : Nat :=
  if o.lifecycle.getLsbD 2 then 3 else if o.lifecycle.getLsbD 1 then 2 else if o.lifecycle.getLsbD 0 then 1 else 0

/-- The device's lifecycle state. -/
def lifecycle (s : State) : Nat := lifecycleOf s.otp

/-- BURNED of R887, set as bits are burned. -/
def otpBurned (s : State) : State := setEvent s 0x00B 16

/-- Lifecycle bit `n` burned (R877, R878): a burned bit is never cleared (R886). -/
def burnLifecycle (s : State) (n : Nat) : State :=
  otpBurned { s with otp := { s.otp with lifecycle := s.otp.lifecycle ||| BitVec.ofNat 3 (2 ^ n) } }

/-- STATE_CHANGED of R885 when the lifecycle state has changed. -/
def lifecycleChanged (old : Nat) (s : State) : State := if lifecycle s = old then s else setEvent s 0x00D 16

/-- Number of bits burned in the evidence thermometer (R746). -/
def evidenceCount (o : Otp) : Nat := (List.range 1024).countP fun i => o.evidence.getLsbD i

/-! ### Device record (R784 to R786) -/

/-- A 16-byte record: KIND, 14 bytes of content, CRC-8 over bytes 0 to 14 (R784). -/
def devRecord (kind : Nat) (content : Bytes) : Bytes :=
  let b := BitVec.ofNat 8 kind :: pad 14 content
  b ++ [crc8 b]

/-- Three records that follow one another form an MC_VERSION set (R785). -/
def isMcSet (a b c : Bytes) : Bool := decide (a.getD 0 0 = 4#8 ∧ b.getD 0 0 = 5#8 ∧ c.getD 0 0 = 6#8)

/-- The MC_VERSION sets of a device record, oldest first (R785). -/
def mcSets : List Bytes → List (Bytes × Bytes × Bytes)
  | a :: b :: c :: rest => if isMcSet a b c then (a, b, c) :: mcSets rest else mcSets (b :: c :: rest)
  | _ => []

/-- SIGNER_FP of a set (R784). -/
def mcSigner (x : Bytes × Bytes × Bytes) : Bytes := slice x.1 1 14 ++ slice x.2.1 1 10

/-- The latest complete set of each signer (R785). -/
def mcInForce (xs : List (Bytes × Bytes × Bytes)) : List (Bytes × Bytes × Bytes) :=
  xs.foldr (fun x acc => if acc.any fun y => decide (mcSigner y = mcSigner x) then acc else x :: acc) []

/-- The records in force at a move to the other sector (R786): SECTOR, the latest DRK_CHECK, every DRK_LOSS, and one
MC_VERSION set per signer. -/
def devMoved (seq : Nat) (recs : List Bytes) : List Bytes :=
  devRecord 1 (le 8 seq) ::
    ((recs.filter fun r => r.getD 0 0 = 2#8).getLast?.toList ++
     recs.filter (fun r => r.getD 0 0 = 3#8) ++
     (mcInForce (mcSets recs)).flatMap fun x => [x.1, x.2.1, x.2.2])

/-- Appends records to the device record; with fewer than 64 free granules of the sector's 1,024 it moves first. -/
def devAppend (s : State) (rs : List Bytes) : State :=
  let f := s.flash
  let f := if f.devRec.isEmpty then { f with devSeq := 1, devRec := [devRecord 1 (le 8 1)] } else f
  let f := if 1024 - f.devRec.length < 64 then
      { f with devActive := !f.devActive, devSeq := f.devSeq + 1, devRec := devMoved (f.devSeq + 1) f.devRec }
    else f
  { s with flash := { f with devRec := f.devRec ++ rs } }

/-! ### Configuration store (R787 to R793) -/

/-- Store sectors of bank 0, M64 to M126 (R792). -/
def storeSectors : Nat := 63

/-- Bytes of a main sector. -/
def mainSectorBytes : Nat := 0x20000

/-- Clear payload length of an item: 60 bytes for KBPK material, as the worked example of 19 gives it, the image's own
length for a microcode image, and a free length where R789 names only the content. -/
def payloadLen : StorePayload → Nat → Nat
  | .instance_ _ _ _, n => Config.freeNat n % 1024
  | .kbpk _ _ _, _ => 60
  | .formation rec lines, _ => rec.length + 8 * lines.length
  | .ownerList _ fps, _ => 16 + 24 * fps.length
  | .mcImage image, _ => image.length

/-- Flash bytes of a record: header, body with its tag padded to granules, commit granule (R788). -/
def recordBytes (len : Nat) : Nat := 48 + 16 * ((len + 16 + 15) / 16) + 16

/-- The next store sector in the ring, skipping retired ones (R792). -/
def nextSector (f : Flash) (k : Nat) : Nat :=
  let go := (List.range storeSectors).map fun i => (k + 1 + i) % storeSectors
  (go.find? fun q => !f.retired.contains q).getD k

/-- Free store sectors: neither between tail and head nor retired (FL_STORE.FREE). -/
def freeSectors (f : Flash) : Nat :=
  let used := (f.head + storeSectors - f.tail) % storeSectors + 1
  storeSectors - used - f.retired.length

/-- Makes room of `n` bytes at the head (R792). -/
def storeRoom (f : Flash) (n : Nat) : Flash :=
  let f := if f.headUsed + n ≤ mainSectorBytes then { f with headUsed := f.headUsed + n }
    else { f with head := nextSector f f.head, headUsed := n }
  { f with blank := f.blank.filter fun k => k ≠ 72 + f.head }

/-- Key of an item in the store table. -/
def storeKey (type item : Nat) : Nat := 2 ^ 24 * type + item

/-- STORE_LOW of R794 when FREE falls below 3. -/
def storeLow (old : Flash) (s : State) : State :=
  if decide (3 ≤ freeSectors old) && decide (freeSectors s.flash < 3) then setEvent s 0x007 20 else s

/-- A store with an anchor (R787): created with an EPOCH from the keel DRBG when none is in force. -/
def storeReady (s : State) : State :=
  match s.flash.epoch with
  | some _ => s
  | none =>
    let (e, s) := freeBytes s 8
    { s with flash := { s.flash with
        epoch := some e, head := 0, tail := 0, headUsed := 0, store := [], erasing := none
        blank := s.flash.blank.filter fun k => k ≠ 2 ∧ k ≠ 3 } }

/-- Appends a record that becomes the newest of its item (R788, R790); after a ripcord nothing is written (R367 of 07)
(DESIGN CHOICE, log 101). -/
def storePut (s : State) (type item : Nat) (p : StorePayload) : State :=
  if s.kh.ripcorded then s else
  let s := storeReady s
  let f := storeRoom s.flash (recordBytes (payloadLen p s.fresh))
  let it : StoreItem := { seq := f.nextSeq, sector := f.head, payload := p }
  storeLow s.flash
    { s with fresh := s.fresh + 1, flash := { f with nextSeq := f.nextSeq + 1, store := tput f.store (storeKey type item) it } }

/-- Appends a tombstone: the item is absent (R788, R790); after a ripcord nothing is written (R367 of 07). -/
def storeDrop (s : State) (type item : Nat) : State :=
  if s.kh.ripcorded then s else
  match tfind s.flash.store (storeKey type item) with
  | none => s
  | some _ =>
    let f := storeRoom s.flash (recordBytes 0)
    storeLow s.flash
      { s with flash := { f with nextSeq := f.nextSeq + 1, store := tdel f.store (storeKey type item) } }

/-- Erases the store (R793): PS2 and PS3 erased, a new anchor with a new EPOCH; no record belongs to it. -/
def storeErase (s : State) : State :=
  storeReady { s with flash := { s.flash with epoch := none, store := [] } }

/-- The LINE_CFG values and ENABLE bits of every line page, kept with the held formation record (R919 of 17). -/
def lineSettings (s : State) : List (Nat × Nat × Bool) :=
  (List.range 64).map fun m =>
    let l := tget {} s.bridle.lines m
    (m, l.first + 2 ^ 9 * l.count + bitAt l.spare 15, (unitAt s (linePage m)).enable)

/-- Updates item 0x03 of R789 with the line settings in force, while a record is held (R919 of 17). -/
def keepLines (s : State) : State :=
  match s.bridle.record with
  | none => s
  | some r => storePut s 3 0 (.formation r (lineSettings s))

end Sys2Proof.Machine
end

