-- ==== Sys2Proof/Machine/Units.lean ====
section
/-! DEFINITION. Writes of the common header of a unit page (02_unit_pages.md) and the commands UNIT_ENABLE to
UNIT_LOCK_SET. -/

namespace Sys2Proof.Machine

/-! ### Writes of UNIT_CTRL and the other header registers -/

/-- UNIT_CTRL.ENABLE = 1 (R86, R102, R103). -/
def writeEnable1 (s : State) (p : Nat) : State :=
  let u := unitAt s p
  match u.state with
  | .retired => s
  | .off => tryStart (modUnit s p fun u => { u with enable := true }) p
  | .stopping => modUnit s p fun u => { u with enable := true, pending := true }
  | _ => modUnit s p fun u => { u with enable := true }

/-- ENABLE of a line page is kept with the formation record (R919 of 17). -/
def keepEnable (s : State) (p : Nat) : State := if 0x040 ≤ p ∧ p < 0x080 then keepLines s else s

/-- UNIT_CTRL.ENABLE = 0 (R86, R102, R103). -/
def writeEnable0 (s : State) (p : Nat) : State :=
  if (unitAt s p).state = .retired then s
  else stopTree (modUnit s p fun u => { u with enable := false, pending := false }) p

/-- A unit that has entered QUIESCED takes the units below it along (R102). -/
def quiesceBelow (s : State) (p : Nat) : State := if (unitAt s p).state = .quiesced then wakeBelow s p else s

/-- UNIT_CTRL.QUIESCE = 1 (R102): the unit takes no new work; the units below it follow once it is QUIESCED. -/
def writeQuiesce1 (s : State) (p : Nat) : State :=
  if (unitAt s p).state = .retired then s
  else quiesceBelow (beginQuiesce (modUnit s p fun u => { u with quiesce := true }) p) p

/-- TMP_EPISODE.HOLD (R742 of 18): an open episode governed by QUIESCE or above. -/
def episodeHold (s : State) : Bool := s.mooring.epOpen && decide (2 ≤ s.mooring.epRung)

/-- UNIT_CTRL of a core or of its channel has changed: CHANNEL is pending on the cores concerned (R590 of 14)
(DEDUCED, log 118). -/
def noteCtrl (old : UnitHdr) (s : State) (p : Nat) : State :=
  let u := unitAt s p
  let cores : List Nat :=
    if kindOf p = 0x04 then [p] else if kindOf p = 0x03 then (List.range 4).map fun k => p + 1 + k else []
  if u.enable = old.enable ∧ u.quiesce = old.quiesce ∧ u.level = old.level then s
  else cores.foldl (fun s q =>
    let k := tget {} s.cores q
    { s with cores := tset {} s.cores q { k with ipend := k.ipend ||| 0x10 } }) s

/-- UNIT_CTRL.QUIESCE = 0 (R102); dropped on the device root while HOLD is 1 (R742 of 18). -/
def writeQuiesce0 (s : State) (p : Nat) : State :=
  if (unitAt s p).state = .retired ∨ (p = 0 ∧ episodeHold s) then s
  else wakeBelow (tryRun (modUnit s p fun u => { u with quiesce := false }) p) p

/-- What a LEVEL change from 1 to 0 resets: the expert registers of the unit (R111). -/
def resetExpert (s : State) (p : Nat) : State :=
  match kindOf p with
  | 0x05 | 0x06 =>
    let e : Sail :=
      { tget {} s.sails p with
        cmd := 0, arg0 := 0, arg1 := 0, arg2 := 0, arg3 := 0, xlen := 0, flag := false, identity := false,
        overrun := false, hidden := false, result := 0, cycles := 0, memAddr := 0, heldLo := 0, readHi := 0 }
    { s with sails := tset {} s.sails p e }
  | 0x07 =>
    let l : Lane :=
      { tget {} s.lanes (chanOf p) with
        op := 0, param := 0, xlen := 0, fed := [], hashing := false, overrun := false, result := 0,
        digestLen := 0, pass := 0, digest := [] }
    { s with lanes := tset {} s.lanes (chanOf p) l }
  | 0x0A => { s with kc := { s.kc with probeSet := 0, probeWay := 0 } }
  | _ => s

/-- UNIT_CTRL.LEVEL (R86, R108, R109, R111, R112): frozen by LOCK; ignored unless OFF or QUIESCED; a Sail engine wipes
its operand memory first, and the level follows at the end of the wipe. -/
def writeLevel (s : State) (p : Nat) (lv : Bool) : State :=
  let u := unitAt s p
  if u.level = lv ∨ u.state = .retired then s
  else if u.lock then refuseWrite s p
  else if u.state ≠ .off ∧ u.state ≠ .quiesced then s
  else if kindOf p = 0x05 ∨ kindOf p = 0x06 then
    let e : Sail := { wiped (tget {} s.sails p) with levelAfterWipe := some lv }
    { s with sails := tset {} s.sails p e }
  else
    let s := modUnit s p fun u => { u with level := lv }
    if lv then s else resetExpert s p

/-- UNIT_FAULT.CLEAR = 1 (R87). -/
def writeFaultClear (s : State) (p : Nat) : State := modUnit s p fun u => { u with transient := 0, lastCause := 0 }

/-- UNIT_RETIRE.REQUEST = 0xD1E5 (R89, R90, R102): channels and bridle lines only; refused on a locked page. -/
def writeRetire (s : State) (p : Nat) : State :=
  let u := unitAt s p
  if u.lock then refuseWrite s p
  else if kindOf p = 0x03 ∨ (kindOf p = 0x10 ∧ p ≠ 0x020) then
    match u.state with
    | .retired | .faulted => s
    | .off => setUState (modUnit s p fun u => { u with retiring := true, enable := false, pending := false }) p .stopping
    | _ => stopTree (modUnit s p fun u => { u with retiring := true, enable := false, pending := false }) p
  else s

/-- After a write to the root's event registers that leaves the root raised, the message is sent again (R96). -/
def afterEventWrite (s : State) (p : Nat) : State :=
  if p = 0 ∧ rootRaised s then { sendManagement s with rootSent := true } else noteRoot s

/-- Event bits a W1C write may clear: all but CHILD and the reserved ones (R94). -/
def eventMask : Word32 := 0xFFFF000F

/-- Enable bits a write may set (R94). -/
def eventEnMask : Word32 := 0xFFFF001F

/-- W1C write to UNIT_EVENT (R94, R96). -/
def writeEvent (s : State) (p : Nat) (mask : Word32) : State :=
  afterEventWrite (modUnit s p fun u => { u with event := u.event &&& ~~~(mask &&& eventMask) }) p

/-- Write of UNIT_EVENT_EN (R94, R96). -/
def writeEventEn (s : State) (p : Nat) (value : Word32) : State :=
  afterEventWrite (modUnit s p fun u => { u with eventEn := value &&& eventEnMask }) p

/-- UNIT_LOCK.LOCK is W1S (R98). -/
def writeLock (s : State) (p : Nat) : State := modUnit s p fun u => { u with lock := true }

/-- A start that completes (R102): QUIESCED under a quiesced parent or with QUIESCE = 1, else RUNNING. A host port that
starts waits for its link (R889), and a bridle line follows its link state (R919): those starts do not complete here. A
Sail engine's wipe comes before RUNNING (R439 of 09). -/
def startComplete (s : State) (p : Nat) : State :=
  let u := unitAt s p
  if u.state ≠ .starting ∨ kindOf p = 0x11 ∨ (kindOf p = 0x10 ∧ p ≠ 0x020) ∨
      ((kindOf p = 0x05 ∨ kindOf p = 0x06) ∧ (tget {} s.sails p).estate = .wiping) then s
  else
    let parentQuiet := match parentOf p with
      | none => false
      | some q => decide ((unitAt s q).state = .quiesced)
    wakeBelow (setUState s p (if u.quiesce || parentQuiet then .quiesced else .running)) p

/-- Work in flight has completed (R102): STOPPING units below and the unit itself reach OFF, a drain ends in QUIESCED. -/
def drainComplete (s : State) (p : Nat) : State :=
  let u := unitAt s p
  if u.state = .stopping then restOne ((descendants p).reverse.foldl restOne s) p
  else if u.draining && !workInFlight s p then quiesceBelow (setUState s p .quiesced) p
  else s

/-! ### Meanings -/

/-- UNIT_ENABLE (R102). -/
def execUnitEnable (acc : Acc) (page : Nat) (s : State) : Host.Outcome State Fault Refusal :=
  .next (rebindAll (if ctrlWrite s acc page then noteCtrl (unitAt s page) (keepEnable (writeEnable1 s page) page) page else s))

/-- UNIT_QUIESCE (R102). -/
def execUnitQuiesce (acc : Acc) (page : Nat) (s : State) : Host.Outcome State Fault Refusal :=
  .next (rebindAll (if ctrlWrite s acc page then noteCtrl (unitAt s page) (writeQuiesce1 s page) page else s))

/-- UNIT_UNQUIESCE (R102). -/
def execUnitUnquiesce (acc : Acc) (page : Nat) (s : State) : Host.Outcome State Fault Refusal :=
  .next (rebindAll (if ctrlWrite s acc page then noteCtrl (unitAt s page) (writeQuiesce0 s page) page else s))

/-- UNIT_LEVEL_CHANGE (R109). -/
def execUnitLevelChange (acc : Acc) (page : Nat) (level : Bool) (s : State) : Host.Outcome State Fault Refusal :=
  .next (if ctrlWrite s acc page then noteCtrl (unitAt s page) (writeLevel s page level) page else s)

/-- UNIT_START_COMPLETE (R106). -/
def execUnitStartComplete (page : Nat) (s : State) : Host.Outcome State Fault Refusal := .next (rebindAll (startComplete s page))

/-- FAULT_CLEAR (R87). -/
def execFaultClear (acc : Acc) (page : Nat) (s : State) : Host.Outcome State Fault Refusal :=
  .next (if headerWrite s acc page then writeFaultClear s page else s)

/-- UNIT_EVENT_CLEAR (R94). -/
def execUnitEventClear (acc : Acc) (page : Nat) (mask : Word32) (s : State) : Host.Outcome State Fault Refusal :=
  .next (if headerWrite s acc page then writeEvent s page mask else s)

/-- UNIT_EVENT_EN_WRITE (R96). -/
def execUnitEventEnWrite (acc : Acc) (page : Nat) (value : Word32) (s : State) : Host.Outcome State Fault Refusal :=
  .next (if headerWrite s acc page then writeEventEn s page value else s)

/-- UNIT_LOCK_SET (R98). -/
def execUnitLockSet (acc : Acc) (page : Nat) (s : State) : Host.Outcome State Fault Refusal :=
  .next (if headerWrite s acc page then writeLock s page else s)

end Sys2Proof.Machine
end

