-- ==== Sys2Proof/Machine/Gondola.lean ====
section
/-! DEFINITION. What the held formation record and the link states say (17_gondolas_and_bridle.md): member entries,
present set, routes, which gondolas are up, roots, views. Pure functions of the state. -/

namespace Sys2Proof.Machine

/-- The device fingerprint of R30 (01): 24 bytes over the P-384 identity key. -/
def deviceFp : Bytes := Config.out .deviceFp [] 24

/-! ### The record (R703) -/

/-- Offset of gondola entry `g`. -/
def recGondola (g : Nat) : Nat := 64 + 8 * g

/-- GONDOLAS, MEMBERS and LINKS of a record. -/
def recCounts (r : Bytes) : Nat × Nat × Nat := (field r 6 2, field r 8 2, field r 10 2)

/-- Offset of member entry `n`. -/
def recMember (r : Bytes) (n : Nat) : Nat := 64 + 8 * (recCounts r).1 + 32 * n

/-- Offset of link entry `l`. -/
def recLink (r : Bytes) (l : Nat) : Nat := 64 + 8 * (recCounts r).1 + 32 * (recCounts r).2.1 + 8 * l

/-- SYSTEM_ID and SERIAL. -/
def recSystem (r : Bytes) : Nat := field r 16 8
def recSerial (r : Bytes) : Nat := field r 24 8

/-- PARENT, QUORUM and DEPTH of gondola `g`. -/
def recParent (r : Bytes) (g : Nat) : Nat := field r (recGondola g) 2
def recQuorum (r : Bytes) (g : Nat) : Nat := field r (recGondola g + 2) 2
def recDirect (r : Bytes) (g : Nat) : Nat := field r (recGondola g + 4) 2
def recDepth (r : Bytes) (g : Nat) : Nat := field r (recGondola g + 6) 1

/-- DEVICE_FP, GONDOLA and PRIORITY of member `n`. -/
def recFp (r : Bytes) (n : Nat) : Bytes := slice r (recMember r n) 24
def recHome (r : Bytes) (n : Nat) : Nat := field r (recMember r n + 24) 2
def recPriority (r : Bytes) (n : Nat) : Nat := field r (recMember r n + 26) 1

/-- The member numbers of a record. -/
def recMembers (r : Bytes) : List Nat := List.range (recCounts r).2.1

/-- The gondola indexes of a record. -/
def recGondolas (r : Bytes) : List Nat := List.range (recCounts r).1

/-- The outermost gondola: the one with PARENT 0xFFFF. -/
def recOutermost (r : Bytes) : Nat := ((recGondolas r).find? fun g => recParent r g = 0xFFFF).getD 0

/-- The member number of a fingerprint in a record. -/
def recIndexOf (r : Bytes) (fp : Bytes) : Option Nat := (recMembers r).find? fun n => decide (recFp r n = fp)

/-- The held record, empty when none. -/
def heldRecord (s : State) : Bytes := s.bridle.record.getD []

/-- This device's member number, 0 without a record (BRL_FORM_STATUS.SELF). -/
def selfMember (s : State) : Nat := (recIndexOf (heldRecord s) deviceFp).getD 0

/-! ### Presence and routes (R709, R723) -/

/-- Bridle line `m`. -/
def lineAt (s : State) (m : Nat) : Line := tget {} s.bridle.lines m

/-- This device's UP lines with their peers. -/
def ownLinks (s : State) : List (Nat × Nat) :=
  s.bridle.lines.filterMap fun e =>
    if e.2.lstate = .up then e.2.peer.map fun p => (e.1, p) else none

/-- The UP lines of a member as its latest LINK_STATE names them; this device's own for itself. -/
def linksOf (s : State) (n : Nat) : List (Nat × Nat) :=
  if n = selfMember s then ownLinks s else (tget {} s.bridle.links n).links

/-- Two members are joined by a line that both ends report UP. -/
def joined (s : State) (a b : Nat) : Bool :=
  (linksOf s a).any (fun e => decide (e.2 = b)) && (linksOf s b).any fun e => decide (e.2 = a)

/-- A route: member, hops, next hop, first line. -/
structure Route where
  member : Nat
  hops : Nat
  next : Nat
  line : Nat
  deriving DecidableEq, Repr

/-- The better of two routes of equal length: lowest next hop, then lowest line (R723). -/
def betterRoute (a b : Route) : Route :=
  if a.next < b.next ∨ (a.next = b.next ∧ a.line ≤ b.line) then a else b

/-- The best of a list of routes. -/
def bestRoute : List Route → Option Route
  | [] => none
  | r :: rs => some (rs.foldl betterRoute r)

/-- A member that has left or been expelled is in no present set (R721, R722). -/
def gone (s : State) (n : Nat) : Bool := s.bridle.left.contains n || s.bridle.expelled.contains n

/-- Routes of one hop: the lowest line to each joined peer. -/
def routes1 (s : State) : List Route :=
  let self := selfMember s
  (recMembers (heldRecord s)).filterMap fun n =>
    if n ≠ self ∧ joined s self n ∧ !gone s n then
      bestRoute ((ownLinks s).filterMap fun e =>
        if e.2 = n then some { member := n, hops := 1, next := n, line := e.1 } else none)
    else none

/-- Adds the members one hop beyond those reached. -/
def extendRoutes (s : State) (h : Nat) (rs : List Route) : List Route :=
  rs ++ (recMembers (heldRecord s)).filterMap fun n =>
    if n = selfMember s ∨ gone s n ∨ rs.any (fun r => decide (r.member = n)) then none
    else bestRoute (rs.filterMap fun r =>
      if r.hops = h ∧ joined s r.member n then some { r with member := n, hops := h + 1 } else none)

/-- The routes to every reachable member, at most 8 hops (R709). -/
def routes (s : State) : List Route :=
  if s.bridle.record.isNone ∨ s.bridle.state = .isolated then []
  else [1, 2, 3, 4, 5, 6, 7].foldl (fun rs h => extendRoutes s h rs) (routes1 s)

/-- The route to member `n`. -/
def routeTo (s : State) (n : Nat) : Option Route := (routes s).find? fun r => r.member = n

/-- The present set (R709), this device included. -/
def presentSet (s : State) : List Nat :=
  if s.bridle.record.isNone then [] else selfMember s :: (routes s).map (·.member)

/-! ### Gondolas (R710, R711) -/

/-- Gondola `g` is up, counting `present`; `fuel` bounds the nesting (R703: at most 9 levels). -/
def gondolaUpIn (r : Bytes) (present : List Nat) : Nat → Nat → Bool
  | 0, _ => false
  | fuel + 1, g =>
    let devices := (recMembers r).countP fun n => decide (recHome r n = g) && present.contains n
    let inner := (recGondolas r).countP fun h => decide (recParent r h = g) && gondolaUpIn r present fuel h
    decide (recQuorum r g ≤ devices + inner)

/-- Gondola `g` is up (R710). -/
def gondolaUp (s : State) (g : Nat) : Bool := gondolaUpIn (heldRecord s) (presentSet s) 9 g

/-- Gondola `a` is `g` or lies within it. -/
def withinGondola (r : Bytes) (g : Nat) : Nat → Nat → Bool
  | 0, a => decide (a = g)
  | fuel + 1, a => decide (a = g) || (decide (recParent r a ≠ 0xFFFF) && withinGondola r g fuel (recParent r a))

/-- The devices of gondola `g`, directly or through nested gondolas. -/
def devicesIn (r : Bytes) (g : Nat) : List Nat := (recMembers r).filter fun n => withinGondola r g 9 (recHome r n)

/-- Present direct members of `g` (GV_STATUS.DIRECT). -/
def presentDirect (s : State) (g : Nat) : Nat :=
  let r := heldRecord s
  ((recMembers r).countP fun n => decide (recHome r n = g) && (presentSet s).contains n) +
    (recGondolas r).countP fun h => decide (recParent r h = g) && gondolaUp s h

/-- Serial number of a member's device certificate, which the record does not carry. -/
def certSerial (r : Bytes) (n : Nat) : Nat := Config.measure .x509 [recFp r n]

/-- The order of R711: PRIORITY, then certificate serial number. -/
def rootBefore (r : Bytes) (a b : Nat) : Bool :=
  decide (recPriority r a < recPriority r b ∨
    (recPriority r a = recPriority r b ∧ certSerial r a ≤ certSerial r b))

/-- The root of `g` by computation (R711): the one in office while present, else the best present device. -/
def computedRoot (s : State) (g : Nat) : Option Nat :=
  let r := heldRecord s
  let here := (devicesIn r g).filter fun n => (presentSet s).contains n
  match tget none s.bridle.roots g with
  | some n => if here.contains n then some n else bestOf r here
  | none => bestOf r here
where
  /-- The most preferred of a list of devices. -/
  bestOf (r : Bytes) : List Nat → Option Nat
    | [] => none
    | n :: ns => some (ns.foldl (fun a b => if rootBefore r a b then a else b) n)

/-- The root in office of gondola `g`. -/
def rootInOffice (s : State) (g : Nat) : Option Nat := tget none s.bridle.roots g

/-- This device is the tether root: root in office of the outermost gondola (R711, R313 of 06). -/
def isTetherRoot (s : State) : Bool :=
  s.bridle.record.isSome && decide (rootInOffice s (recOutermost (heldRecord s)) = some (selfMember s)) &&
    decide (s.bridle.state = .member ∨ s.bridle.state = .forming)

/-- The device follows bridle marks (R313 of 06): member of a formed gondola and not its tether root. -/
def followsBridle (s : State) : Bool := decide (s.bridle.state = .member) && !isTetherRoot s

/-! ### Views (R727, R728) -/

/-- The gondola `k` levels above the device, none where the level does not exist. -/
def viewGondola (s : State) (k : Nat) : Option Nat :=
  match s.bridle.record with
  | none => none
  | some r => climb r k (recHome r (selfMember s))
where
  /-- `k` steps up the PARENT chain. -/
  climb (r : Bytes) : Nat → Nat → Option Nat
    | 0, g => some g
    | k + 1, g => if recParent r g = 0xFFFF then none else climb r k (recParent r g)

/-- UNIT_STATE of the view of gondola `g` (R728). -/
def viewState (s : State) (g : Nat) : UState :=
  if s.bridle.record.isNone ∨ s.bridle.state = .isolated ∨ s.bridle.expelled.contains (selfMember s) then .off
  else if s.bridle.state = .leaving then .stopping
  else if gondolaUp s g ∧ (tfind s.bridle.certs g).isSome then .running else .starting

end Sys2Proof.Machine
end

