-- ==== Sys2Proof/Machine/Time.lean ====
section
/-! DEFINITION. Tether time and the mooring clock (06_tether.md): extrapolation, the position, what a pulse does to the
tether unit itself, and what one cycle of the 25 MHz crystal changes. -/

namespace Sys2Proof.Machine

/-- Ticks past M × 2^20 that the count never passes (R310). -/
def slackTicks : Nat := 0x10CCCC

/-- 1.05 s and 0.95 s of local time in 25 MHz cycles (R308, R310). -/
def slackCycles : Nat := 26250000
def earlyCycles : Nat := 23750000

/-- Cycles of one interval: TETHER_INTERVAL.CYCLES, or 25,000,000 while none has been measured (R310). -/
def intervalCycles (t : Tether) : Nat := if t.interval = 0 then 25000000 else t.interval

/-- The count extrapolated from the last accepted second at local cycle `now` (R310). -/
def countAt (t : Tether) (now : Nat) : Nat :=
  t.lastSec * 2 ^ 20 + min slackTicks ((now - t.lastPulse) * 2 ^ 20 / intervalCycles t)

/-- The tether position (R301, R307, R311): 0 in UNSET, held in ADRIFT, else the count, held while CATCHUP. -/
def positionAt (t : Tether) (now : Nat) : Nat :=
  match t.state with
  | .unset => 0
  | .adrift => t.pos
  | .locked => if t.catchup then max t.pos (countAt t now) else countAt t now

/-- The tether position now. -/
def position (s : State) : Nat := positionAt s.tether s.cycles

/-- Tether state code of R307. -/
def tetherCode : TetherState → Nat
  | .unset => 0 | .locked => 1 | .adrift => 2

/-- CATCHUP as TETHER_STATUS shows it (R311): until the count reaches the held value. -/
def catchupNow (s : State) : Bool :=
  s.tether.catchup && !(decide (s.tether.state = .locked) && decide (s.tether.pos ≤ countAt s.tether s.cycles))

/-- The stamp was made while the device followed network time (R375 of 08). -/
def followsNetwork (s : State) : Bool := decide (s.tether.state = .locked) && !catchupNow s

/-- TETHER_CFG.SOURCE with 3 treated as 0 (R303). -/
def tetherSource (t : Tether) : Nat := if t.source = 3 then 0 else t.source

/-- TOD_ERR rises and its event is set (R305, R306, R318). -/
def todError (s : State) : State :=
  setEvent { s with tether := { s.tether with todErr := sat 255 (s.tether.todErr + 1) } } 0x006 21

/-- GLITCH rises (R304, R308). -/
def glitch (s : State) : State :=
  { s with tether := { s.tether with glitch := sat 255 (s.tether.glitch + 1) } }

/-- ADRIFT (R306, R307, R310): the position holds, any pending number is discarded. -/
def enterAdrift (s : State) : State :=
  setEvent { s with tether :=
    { s.tether with
      pos := position s, state := .adrift, number := none, catchup := catchupNow s
      adriftCount := sat 255 (s.tether.adriftCount + 1) } } 0x006 17

/-- The slack of R310 is used up. -/
def slackUsed (s : State) : Bool :=
  decide (s.tether.state = .locked) &&
    (decide (slackCycles ≤ s.cycles - s.tether.lastPulse) ||
     decide (countAt s.tether s.cycles = s.tether.lastSec * 2 ^ 20 + slackTicks))

/-- A number becomes pending (R306). -/
def setNumber (s : State) (n : Nat) : State :=
  { s with tether := { s.tether with number := some (n % 2 ^ 64, s.cycles) } }

/-- The second that an accepted pulse starts, the new MISMATCH_RUN, the number kept for the run, and whether the
tether renumbers (R309). -/
def pulseSecond (t : Tether) (num : Option Nat) : Nat × Nat × Nat × Bool :=
  match t.state, num with
  | .locked, some p =>
    if p = t.lastSec + 1 then (t.lastSec + 1, 0, 0, false)
    else
      let run := if 0 < t.mismatchRun ∧ p = t.mismatchNum + 1 then t.mismatchRun + 1 else 1
      if run = 3 then (p, 0, 0, true) else (t.lastSec + 1, run, p, false)
  | .locked, none => (t.lastSec + 1, 0, 0, false)
  | _, num => (num.getD 0, 0, 0, false)

/-- What an accepted pulse at local cycle `now` with second `m` does to position and interval (R310, R311). -/
def startSecond (t : Tether) (now m run num : Nat) : Tether :=
  let cur := positionAt t now
  { t with
    interval := if t.state = .locked then (now - t.lastPulse) % 2 ^ 28 else t.interval
    catchup := decide (m * 2 ^ 20 < cur)
    pos := max cur (m * 2 ^ 20)
    state := .locked
    lastSec := m, lastPulse := now, number := none, mismatchRun := run, mismatchNum := num, everPulsed := true }

/-- The anchor pair of R330: RTC count and M × 2^20. -/
def pulseAnchor (s : State) (m : Nat) : Anchor := { rtc := s.mooring.rtc, pos := m * 2 ^ 20 }

/-- The estimated position of an entry stamped `r` (R331): method code and value. -/
def estimate (a : Option Anchor) (b : Anchor) (r : Nat) : Nat × Nat :=
  match a with
  | none => (3, 0)
  | some a =>
    if a.pos < b.pos then
      (1, ((a.pos : Int) + ((r : Int) - a.rtc) * ((b.pos : Int) - a.pos) / ((b.rtc : Int) - a.rtc)).toNat)
    else (2, (a.pos + 32 * ((r : Int) - a.rtc)).toNat)

/-- A mooring log entry with its estimate written in: POS_EST and POSITION (R331, R757 of 18). Entries whose position
was known at the firing keep it. -/
def estimateEntry (a : Option Anchor) (b : Anchor) (e : Bytes) : Bytes :=
  let (m, v) := estimate a b (field e 0 6)
  if m = 3 ∨ bit (field e 7 1) 5 then e
  else splice 32 (splice 32 e 8 (le 8 v)) 7 [BitVec.ofNat 8 (field e 7 1 ||| 0x40)]

/-- Anchor B at the first accepted pulse after start-up, and the estimates of R331; the stored pair is replaced at
every accepted pulse (R330). -/
def writeAnchor (s : State) (m : Nat) : State :=
  let b := pulseAnchor s m
  let mo := s.mooring
  let mo := match mo.anchorB with
    | some _ => mo
    | none =>
      let method := (estimate mo.anchorA b 0).1
      { mo with
        anchorB := some b, corr := method
        corrCount := if method = 3 then 0 else mo.log.countP fun e => !bit (field e 7 1) 5
        log := mo.log.map (estimateEntry mo.anchorA b) }
  { s with mooring := { mo with stored := some b } }

/-- Cycles of the local crystal per count of the 32,768 Hz RTC, as a fraction: 25,000,000 / 32,768 (R329, R898). -/
def rtcTick (m : Mooring) : Mooring :=
  let f := m.rtcFrac + 32768
  if 25000000 ≤ f then { m with rtcFrac := f - 25000000, rtc := (m.rtc + 1) % 2 ^ 48 } else { m with rtcFrac := f }

/-- One cycle of the 25 MHz crystal (DESIGN CHOICE, log 4): the local count and the RTC advance. -/
def tick (s : State) : State :=
  { s with cycles := s.cycles + 1, mooring := rtcTick s.mooring }

end Sys2Proof.Machine
end

