-- ==== Sys2Proof/Machine/KeyBlock.lean ====
section
/-! DEFINITION. The two blob forms and their contents: X9.143 key blocks and sealed key records
(05_key_blobs_and_cache.md, R250 to R266), reading and writing. Primitives outside the spec are opaque. -/

namespace Sys2Proof.Machine

/-! ### Characters -/

/-- A decimal digit character. -/
def isDec (b : Byte) : Bool := decide (0x30 ≤ b.toNat ∧ b.toNat ≤ 0x39)

/-- A character 0 to 9 or A to F. -/
def isHex (b : Byte) : Bool := isDec b || decide (0x41 ≤ b.toNat ∧ b.toNat ≤ 0x46)

/-- Value of a hexadecimal character. -/
def hexVal (b : Byte) : Nat := if isDec b then b.toNat - 0x30 else b.toNat - 0x37

/-- Number of a string of decimal characters. -/
def decNum (b : Bytes) : Nat := b.foldl (fun n c => 10 * n + (c.toNat - 0x30)) 0

/-- Number of a string of hexadecimal characters. -/
def hexNum (b : Bytes) : Nat := b.foldl (fun n c => 16 * n + hexVal c) 0

/-- The character of a digit 0 to 15. -/
def hexChar (n : Nat) : Byte := BitVec.ofNat 8 (if n < 10 then 0x30 + n else 0x37 + n)

/-- Hexadecimal characters of a byte string, high digit first. -/
def toHex (b : Bytes) : Bytes := b.flatMap fun x => [hexChar (x.toNat / 16), hexChar (x.toNat % 16)]

/-- Byte string of hexadecimal characters. -/
def ofHex : Bytes → Bytes
  | a :: b :: t => BitVec.ofNat 8 (16 * hexVal a + hexVal b) :: ofHex t
  | _ => []

/-- `n` decimal characters of `v`. -/
def decChars (n v : Nat) : Bytes := ((List.range n).map fun i => BitVec.ofNat 8 (0x30 + v / 10 ^ i % 10)).reverse

/-- A two-character code as a number. -/
def code2 (t : String) : Nat := unbe (ascii t)

/-- A one-character code as a number. -/
def code1 (c : Char) : Nat := c.toNat

/-! ### Forms and lengths (R250, R251) -/

/-- The stated length of a blob from its first 32 bytes, none where R251 ends the read there. -/
def statedLen (b : Bytes) : Option Nat :=
  let form := (b.getD 0 0).toNat
  if form = 0x44 then
    let d := slice b 1 4
    let n := decNum d
    if d.all isDec ∧ 112 ≤ n ∧ n ≤ 8192 then some n else none
  else if form = 0x4C then
    let n := 32 + field b 12 4
    if 80 ≤ n ∧ n ≤ 8192 then some n else none
  else none

/-! ### Key blocks (R252 to R258) -/

/-- Optional blocks of a key block, in order: identifier and whole text; none where the layout breaks X9.143's
(identifier, two hexadecimal characters of length, or "00" and an extended length, then the content). -/
def optBlocks : Nat → Nat → Bytes → Option (List (Nat × Bytes) × Bytes)
  | _, 0, b => some ([], b)
  | 0, _ + 1, _ => none
  | fuel + 1, n + 1, b =>
    if b.length < 4 ∨ !(slice b 2 2).all isHex then none
    else
      let short := hexNum (slice b 2 2)
      let len := if short = 0 then hexNum (slice b 6 (hexNum (slice b 4 2))) else short
      if len < 4 ∨ b.length < len then none
      else match optBlocks fuel n (b.drop len) with
        | none => none
        | some (os, rest) => some ((unbe (b.take 2), b.take len) :: os, rest)

/-- Identifiers that R256 accepts. -/
def optIds : List Nat := ["KP", "KC", "IK", "KS", "KV", "TS", "PB"].map code2

/-- No identifier repeats. -/
def noRepeat : List Nat → Bool
  | [] => true
  | a :: l => !l.contains a && noRepeat l

/-- A parsed key block. -/
structure ParsedBlock where
  version : Nat
  usage : Nat
  alg : Nat
  mode : Nat
  keyVersion : Nat
  export_ : Nat
  opts : List (Nat × Bytes)
  /-- encrypted key data and MAC as bytes -/
  cipher : Bytes
  mac : Bytes
  deriving DecidableEq, Repr

/-- Usages accepted by R253. -/
def blockUsages : List Nat := ["P0", "V1", "B0", "E0", "M1", "M3", "M6", "M7", "K1", "D0"].map code2

/-- The text of optional block `id`, if carried. -/
def optText (os : List (Nat × Bytes)) (id : String) : Option Bytes := (os.find? fun o => o.1 = code2 id).map (·.2)

/-- The header of R253 and the layout checks of R254 and R256. `subject` admits version B, for IMPORT (R252)
(PRESUMED, log 26). -/
def parseBlock (subject : Bool) (b : Bytes) : Option ParsedBlock :=
  let ver := (b.getD 0 0).toNat
  let alg := (b.getD 7 0).toNat
  let kcOk (os : List (Nat × Bytes)) : Bool := match optText os "KC" with
    | none => true
    | some t =>
      (decide (slice t 4 2 = ascii "00") && decide (alg = code1 'T')) ||
      (decide (slice t 4 2 = ascii "01") && decide (alg = code1 'A'))
  let nOpt := decNum (slice b 12 2)
  let macLen := if ver = 0x42 then 16 else 32
  if (ver = 0x44 ∨ (ver = 0x42 ∧ subject)) ∧ (slice b 1 4).all isDec ∧ decNum (slice b 1 4) = b.length ∧
      112 ≤ b.length ∧ b.length ≤ 8192 ∧ blockUsages.contains (unbe (slice b 5 2)) ∧
      (alg = code1 'T' ∨ (ver = 0x44 ∧ (alg = code1 'A' ∨ alg = code1 'H'))) ∧
      ("EDBGVCX".toList.map code1).contains (b.getD 8 0).toNat ∧
      (b.getD 9 0).toNat ≠ code1 'c' ∧
      ("ENS".toList.map code1).contains (b.getD 11 0).toNat ∧
      (slice b 12 2).all isDec ∧ nOpt ≤ 7 ∧ slice b 14 2 = ascii "00" then
    match optBlocks 8 nOpt (b.drop 16) with
    | none => none
    | some (os, rest) =>
      if (os.all fun o => optIds.contains o.1) ∧ noRepeat (os.map (·.1)) ∧ kcOk os ∧ rest.all isHex ∧
          macLen < rest.length ∧ (rest.length - macLen) % macLen = 0 then
        some
          { version := ver, usage := unbe (slice b 5 2), alg := alg, mode := (b.getD 8 0).toNat
            keyVersion := unbe (slice b 9 2), export_ := (b.getD 11 0).toNat, opts := os
            cipher := ofHex (rest.take (rest.length - macLen)), mac := ofHex (rest.drop (rest.length - macLen)) }
      else none
  else none

/-- A 256-bit key as bytes, most significant first. -/
def key32 (k : BitVec 256) : Bytes := be 32 k.toNat

/-- Key check value of an AES-256 KBPK (R333 of 07): 5 bytes of AES-CMAC over sixteen 00 bytes. -/
def kbpkKcv (k : BitVec 256) : Bytes := Config.out .aesCmac [key32 k, zeros 16] 5

/-- The check value of R335 of 07 for a DRK: 8 bytes. -/
def drkCheckValue (k : BitVec 256) : Bytes := Config.out .aesCmac [key32 k, zeros 16] 8

/-- KCV of a symmetric key by its algorithm character (R233 of 04): the first `n` bytes (DEDUCED, log 31). -/
def keyKcv (alg : Nat) (material : Bytes) (n : Nat) : Bytes :=
  if alg = code1 'A' then Config.out .aesCmac [material, zeros 16] n
  else if alg = code1 'T' then Config.out .tdeaEnc [material, zeros 8] n
  else Config.out .hmac [material, []] n

/-- Key lengths in bits that R255 allows. -/
def lengthOk (version alg bits : Nat) : Bool :=
  if alg = code1 'A' then bits = 128 || bits = 256 || (bits = 192 && version = 0x44)
  else if alg = code1 'T' then bits = 128 || bits = 192
  else decide (128 ≤ bits ∧ bits ≤ 512 ∧ bits % 64 = 0)

/-- What reading a blob under a protection key gives: the key, or a status code of R166. -/
inductive BlobResult where
  | key (k : Key)
  | status (code : Nat)
  deriving DecidableEq, Repr

/-- Block encryption and block authentication key of a block's version under a protection key (R257). -/
def blockEncKey (version : Nat) (kbpk : Bytes) : Bytes := Config.out .kbpkEncKey [kbpk, [BitVec.ofNat 8 version]] kbpk.length
def blockMacKey (version : Nat) (kbpk : Bytes) : Bytes := Config.out .kbpkMacKey [kbpk, [BitVec.ofNat 8 version]] kbpk.length

/-- The MAC of a block over its header, optional blocks and clear key data: AES-CMAC of 16 bytes in version D, TDEA-CMAC of 8
in version B (R257). -/
def blockMac (version : Nat) (kbpk head plain : Bytes) : Bytes :=
  if version = 0x42 then Config.out .tdeaCmac [blockMacKey version kbpk, head ++ plain] 8
  else Config.out .aesCmac [blockMacKey version kbpk, head ++ plain] 16

/-- The clear key data of a block: CBC decryption with the MAC as IV (R257). -/
def blockPlain (kbpk : Bytes) (p : ParsedBlock) : Bytes :=
  Config.out (if p.version = 0x42 then .tdeaCbcDec else .aesCbcDec) [blockEncKey p.version kbpk, p.mac, p.cipher] p.cipher.length

/-- Authenticates and decrypts a parsed block under a protection key's bytes (R254 to R257). `bad` is the status of an
authentication failure: 0x2001 at a key pointer, 0x2008 for an IMPORT subject. -/
def openBlock (kbpk : Bytes) (gen : Nat) (raw : Bytes) (p : ParsedBlock) (bad : Nat) : BlobResult :=
  let plain := blockPlain kbpk p
  if blockMac p.version kbpk (raw.take (raw.length - 2 * (p.cipher.length + p.mac.length))) plain ≠ p.mac then .status bad
  else
    let bits := unbe (plain.take 2)
    if !lengthOk p.version p.alg bits ∨ p.cipher.length < 2 + bits / 8 then .status 0x2004
    else
      let material := slice plain 2 (bits / 8)
      let kcBad : Bool := match optText p.opts "KC" with
        | none => false
        | some t =>
          let v := ofHex (t.drop 6)
          !decide (keyKcv p.alg material v.length = v)
      if kcBad then .status bad
      else .key
        { desc :=
            { isRecord := false, usage := p.usage, alg := p.alg, mode := p.mode, version := p.keyVersion
              export_ := p.export_, kbpkGen := gen
              opts := p.opts.filter fun o => !(o.1 = code2 "KP" ∨ o.1 = code2 "PB") }
          material := material }

/-- Whole text of an optional block with a content. -/
def optBlock (id : String) (content : Bytes) : Bytes :=
  ascii id ++ toHex [BitVec.ofNat 8 (4 + content.length)] ++ content

/-- Padded length of key data by algorithm (R258). -/
def paddedLen (alg : Nat) : Nat := if alg = code1 'A' then 48 else if alg = code1 'T' then 32 else 80

/-- The optional blocks the device writes (R258): KP of the protection key, then IK, KS, KV, TS and KC as carried,
then PB when they do not fill a multiple of 16 characters. -/
def writtenOpts (kcv : Bytes) (carried : List (Nat × Bytes)) (rnd : Bytes) : List Bytes :=
  let kp := optBlock "KP" (ascii "01" ++ toHex kcv)
  let rest := ["IK", "KS", "KV", "TS", "KC"].filterMap fun id => optText carried id
  let os := kp :: rest
  let n := (os.map List.length).sum
  if n % 16 = 0 then os
  else
    let want := 16 - n % 16
    let want := if want < 4 then want + 16 else want
    os ++ [optBlock "PB" ((toHex rnd).take (want - 4))]

/-- A version D key block under a protection key (R257, R258). `rnd` gives the random padding. -/
def writeBlock (kbpk : Bytes) (kcv : Bytes) (d : KeyDesc) (material rnd : Bytes) : Bytes :=
  let os := writtenOpts kcv d.opts rnd
  let n := paddedLen d.alg
  let body := os.flatten
  let len := 16 + body.length + 2 * n + 32
  let hdr := ascii "D" ++ decChars 4 len ++ be 2 d.usage ++ [BitVec.ofNat 8 d.alg, BitVec.ofNat 8 d.mode] ++
    be 2 d.version ++ [BitVec.ofNat 8 d.export_] ++ decChars 2 os.length ++ ascii "00"
  let plain := pad n (be 2 (8 * material.length) ++ material ++ rnd)
  let mac := blockMac 0x44 kbpk (hdr ++ body) plain
  let c := Config.out .aesCbcEnc [blockEncKey 0x44 kbpk, mac, plain] n
  hdr ++ body ++ toHex c ++ toHex mac

/-- Length in characters of a key block the device writes. -/
def writtenLen (kcv : Bytes) (d : KeyDesc) (rnd : Bytes) : Nat :=
  16 + (writtenOpts kcv d.opts rnd).flatten.length + 2 * paddedLen d.alg + 32

/-! ### Sealed records (R259 to R266) -/

/-- Algorithm codes of R196 (04) for records, with the private and public material lengths of R262. -/
def recordLens : List (Nat × Nat × Nat) :=
  [(0x01, 96, 65), (0x02, 144, 97), (0x03, 64, 32), (0x04, 114, 57), (0x05, 900, 260), (0x06, 1348, 388),
   (0x07, 1796, 516), (0x08, 1344, 1312), (0x09, 1984, 1952), (0x0A, 2624, 2592), (0x0B, 864, 800), (0x0C, 1248, 1184),
   (0x0D, 1632, 1568)]

/-- Material length of an algorithm and KIND, none where R196 or R259 has no such code. -/
def materialLen (alg kind : Nat) : Option Nat :=
  match recordLens.find? fun e => e.1 = alg with
  | none => none
  | some (_, priv, pub) => if kind = 1 then some priv else if kind = 2 then some pub else none

/-- The header checks of R263. -/
def recordHeaderOk (b : Bytes) : Bool :=
  match materialLen (field b 2 1) (field b 3 1) with
  | none => false
  | some n =>
    decide (field b 0 1 = 0x4C ∧ field b 1 1 = 1 ∧ field b 4 2 < 16 ∧ field b 6 2 < 1024 ∧ field b 9 1 < 8 ∧
      field b 10 2 = 0 ∧ field b 28 4 = 0 ∧ field b 12 4 = 48 + n ∧ b.length = 80 + n)

/-- The record key of R261. -/
def recordKey (kbpk : BitVec 256) (gen : Nat) : Bytes :=
  Config.out .kdf [key32 kbpk, ascii "ECZ-RECORD", [BitVec.ofNat 8 gen]] 32

/-- Authenticates and decrypts a record (R260, R263, R264) for a job of instance `inst`. -/
def openRecord (kbpk : BitVec 256) (gen inst : Nat) (b : Bytes) : BlobResult :=
  let key := recordKey kbpk gen
  let hdr := slice b 0 32
  let n := field b 12 4
  let plain := Config.out .gcmSivDec [key, slice b 16 12, hdr, slice b 32 n] (n - 16)
  if !recordHeaderOk b then .status 0x2001
  else if Config.out .gcmSivTag [key, slice b 16 12, hdr, plain] 16 ≠ slice b (16 + n) 16 then .status 0x2001
  else if field b 6 2 ≠ inst then .status 0x2006
  else .key
    { desc :=
        { isRecord := true, alg := field b 2 1, mode := field b 3 1, recUsage := field b 4 2, flags := field b 9 1
          inst := field b 6 2, kbpkGen := gen, created := field plain 0 8, origin := slice plain 8 24 }
      material := slice plain 32 (n - 48) }

/-- A sealed record under the KBPK of generation `gen` (R259 to R262). -/
def writeRecord (kbpk : BitVec 256) (gen inst : Nat) (d : KeyDesc) (material nonce : Bytes) : Bytes :=
  let hdr := [0x4C#8, 0x01#8, BitVec.ofNat 8 d.alg, BitVec.ofNat 8 d.mode] ++ le 2 d.recUsage ++ le 2 inst ++
    [BitVec.ofNat 8 gen, BitVec.ofNat 8 d.flags] ++ zeros 2 ++ le 4 (48 + material.length) ++ pad 12 nonce ++ zeros 4
  let key := recordKey kbpk gen
  let plain := le 8 d.created ++ pad 24 d.origin ++ material
  hdr ++ Config.out .gcmSivEnc [key, nonce, hdr, plain] plain.length ++ Config.out .gcmSivTag [key, nonce, hdr, plain] 16

/-! ### Digests -/

/-- SHA-256 as a number, first byte most significant (PRESUMED, log 11). -/
def sha256 (b : Bytes) : BitVec 256 := BitVec.ofNat 256 (unbe (Config.out .sha256 [b] 32))

/-- The 32 bytes of a hash. -/
def hashBytes (h : BitVec 256) : Bytes := be 32 h.toNat

end Sys2Proof.Machine
end

