-- ==== Sys2Proof/Machine/KeyCache.lean ====
section
/-! DEFINITION. The key cache: lookup, victims, fills, pins, invalidation, staging slots, flush
(05_key_blobs_and_cache.md, R267 to R284), and capabilities (R285 to R296). -/

namespace Sys2Proof.Machine

/-- Sets of the cache (R267). -/
def cacheSets : Nat := 32768

/-- Home set of a digest: byte 0 + 256 × byte 1, modulo 32,768 (R268). -/
def homeSet (digest : BitVec 256) : Nat :=
  let b := hashBytes digest
  ((b.getD 0 0).toNat + 256 * (b.getD 1 0).toNat) % cacheSets

/-- Entries that a key of `l` bytes of material occupies (R269). -/
def entriesFor (l : Nat) : Nat := 1 + (l - 32 + 63) / 64

/-- Entries reserved for the longest key a block's algorithm allows, or for a record's BODY_LEN (R279). -/
def reserveFor (blob : Bytes) : Nat :=
  if (blob.getD 0 0).toNat = 0x4C then entriesFor (field blob 12 4 - 48)
  else if (blob.getD 7 0).toNat = code1 'H' then 2 else 1

/-- A fill of the cache in progress holds its reserved entries. -/
def fillHolds (kc : KeyCache) (e : Nat) : Bool := kc.fills.any fun f => f.2.reserved.contains e

/-- The key, valid or dead, that occupies entry `e`. -/
def keyAtEntry (kc : KeyCache) (e : Nat) : Option (Nat × CacheKey) := kc.keys.find? fun k => k.2.entries.contains e

/-- An invalid way: no key, no fill and not withdrawn (R273, R671). -/
def wayFree (kc : KeyCache) (e : Nat) : Bool :=
  (keyAtEntry kc e).isNone && !fillHolds kc e && !kc.withdrawn.contains e

/-- Valid entries an instance holds (R272). -/
def instEntries (kc : KeyCache) (i : Nat) : Nat :=
  ((kc.keys.filter fun k => decide (k.2.inst = i) && !k.2.dead).map fun k => k.2.entries.length).sum

/-- The instance holds more valid entries than its share (R272). -/
def overShare (s : State) (kc : KeyCache) (i : Nat) : Bool := decide ((instAt s i).kcShare < instEntries kc i)

/-- The least recently used of some keys. -/
def lruKey : List (Nat × CacheKey) → Option (Nat × CacheKey)
  | [] => none
  | k :: ks => some (ks.foldl (fun a b => if a.2.stamp ≤ b.2.stamp then a else b) k)

/-- The victim of R273 in a set for an instance: a way and the key evicted with it, if any. -/
def victimIn (s : State) (kc : KeyCache) (set inst : Nat) : Option (Nat × Option Nat) :=
  let ways := (List.range 8).map fun w => 8 * set + w
  match ways.find? (wayFree kc) with
  | some e => some (e, none)
  | none =>
    let held := (ways.filterMap (keyAtEntry kc)).filter fun k => k.2.pins.isEmpty && !k.2.dead
    let pick := match lruKey (held.filter fun k => overShare s kc k.2.inst) with
      | some k => some k
      | none => lruKey (held.filter fun k => decide (k.2.inst = inst))
    pick.bind fun k => (ways.find? fun e => k.2.entries.contains e).map fun e => (e, some k.1)

/-- The KEYCACHE events of R283: 16 FLUSH_DONE, 17 BYPASS, 18 ECC_DROP, 19 DRAINED. -/
def kcEvent (s : State) (b : Nat) : State := setEvent s 0x081 b

/-- One way reserved: its evicted key leaves the cache whole (R273). -/
def takeVictim (kc : KeyCache) (v : Nat × Option Nat) : KeyCache :=
  match v.2 with
  | none => kc
  | some h => { kc with keys := tdel kc.keys h, evicts := kc.evicts + 1 }

/-- Victims in `n` sets from the home set on: the entries in order with the cache after the evictions, none when a set
has no victim (R273, R274). -/
def reserveSets (s : State) (inst : Nat) : Nat → Nat → List Nat → KeyCache → Option (List Nat × KeyCache)
  | 0, _, acc, kc => some (acc.reverse, kc)
  | n + 1, set, acc, kc =>
    match victimIn s kc set inst with
    | none => none
    | some v => reserveSets s inst n ((set + 1) % cacheSets) (v.1 :: acc) (takeVictim kc v)

/-- A miss begins a fill for the blob of a job (R279 steps 1 and 2): victims reserved, or bypass with its event. -/
def beginFill (s : State) (job inst gen : Nat) (digest : BitVec 256) (blob : Bytes) : State :=
  let kc := { s.kc with misses := s.kc.misses + 1 }
  match reserveSets s inst (reserveFor blob) (homeSet digest) [] kc with
  | some (es, kc) =>
    let f : Fill := { digest := digest.toNat, inst := inst, gen := gen, reserved := es }
    { s with kc := { kc with fills := tput kc.fills job f } }
  | none =>
    let f : Fill := { digest := digest.toNat, inst := inst, gen := gen }
    kcEvent { s with kc := { kc with bypasses := kc.bypasses + 1, fills := tput kc.fills job f } } 17

/-- A fill marker for the digest and instance stands (R59, R279). -/
def fillMarked (s : State) (inst : Nat) (digest : BitVec 256) : Option Nat :=
  (s.kc.fills.find? fun f => decide (f.2.digest = digest.toNat ∧ f.2.inst = inst)).map (·.1)

/-- A lookup that hits (R270): the head entry of a valid key with this digest, instance and generation. -/
def cacheHit (s : State) (inst gen : Nat) (digest : BitVec 256) : Option (Nat × CacheKey) :=
  s.kc.keys.find? fun k =>
    decide (k.2.digest = digest.toNat ∧ k.2.inst = inst ∧ k.2.gen = gen) && !k.2.dead

/-- Pins a cached key for a job and renews its recency (R270, R271). -/
def pinKey (s : State) (head job : Nat) : State :=
  match tfind s.kc.keys head with
  | none => s
  | some k =>
    let k := { k with pins := if k.pins.contains job then k.pins else job :: k.pins, stamp := s.kc.stamp + 1 }
    { s with kc := { s.kc with stamp := s.kc.stamp + 1, keys := tput s.kc.keys head k } }

/-- DRAINING of KC_FLUSH_STATUS: keys marked dead by the last flush are still pinned (R282). -/
def kcDraining (kc : KeyCache) : Bool :=
  kc.drainSet.any fun h => decide ((tfind kc.keys h.1).map (·.serial) = some h.2)

/-- DRAINED when DRAINING falls (R283). -/
def noteDrained (old : Bool) (s : State) : State := if old && !kcDraining s.kc then kcEvent s 19 else s

/-- Removes a job's pins; a dead key without pins becomes invalid (R275). Its staging slots are cleared (R274). -/
def unpinJob (s : State) (job : Nat) : State :=
  let keys := s.kc.keys.map fun k => (k.1, { k.2 with pins := k.2.pins.filter (· ≠ job) })
  let keys := keys.filter fun k => !(k.2.dead && k.2.pins.isEmpty)
  noteDrained (kcDraining s.kc)
    { s with kc := { s.kc with keys := keys, staging := s.kc.staging.filter fun e => e.2.job ≠ job } }

/-- Invalidates the keys and fills that `p` selects by instance and generation (R275, R276). -/
def invalidate (s : State) (p : Nat → Nat → Bool) : State :=
  let keys := s.kc.keys.filterMap fun k =>
    if p k.2.inst k.2.gen then
      if k.2.pins.isEmpty then none else some (k.1, { k.2 with dead := true })
    else some k
  let fills := s.kc.fills.map fun f => (f.1, { f.2 with dead := f.2.dead || p f.2.inst f.2.gen })
  { s with kc := { s.kc with keys := keys, fills := fills } }

/-- The ripcord clears every entry and staging slot without regard to pins (R275). -/
def clearCache (s : State) : State :=
  noteDrained (kcDraining s.kc) { s with kc := { s.kc with keys := [], fills := [], staging := [], drainSet := [] } }

/-- Generations of an instance (R339 of 07). -/
def instKeys (s : State) (i : Nat) : InstKeys := tget {} s.kh.insts i

/-- What the flush register selects (R282). -/
def flushSelects (s : State) (i g : Nat) : Bool :=
  s.kc.busy && (s.kc.walkAll || decide (s.kc.walkInst = i)) &&
    (!s.kc.walkOld || decide (g ≠ (instKeys s i).cur))

/-- The fill of a job ends with a key (R271, R276, R279 step 4): entries written with a new serial, pinned by the job.
Answers the capability object's identity: head entry and serial; none when the fill was bypassed. -/
def endFill (s : State) (job : Nat) (key : Key) : Option (Nat × Nat) × State :=
  match tfind s.kc.fills job with
  | none => (none, s)
  | some f =>
    let kc := { s.kc with fills := tdel s.kc.fills job }
    match f.reserved with
    | [] => (none, { s with kc := kc })
    | head :: rest =>
      let serial := (tget 0 kc.serials head + 1) % 2 ^ 16
      let k : CacheKey :=
        { digest := f.digest, inst := f.inst, gen := f.gen
          entries := head :: rest.take (entriesFor key.material.length - 1)
          serial := serial, pins := [job], dead := f.dead || flushSelects s f.inst f.gen, stamp := kc.stamp + 1, key := key }
      (some (head, serial),
        { s with kc := { kc with
            stamp := kc.stamp + 1, fillCount := kc.fillCount + 1, serials := tset 0 kc.serials head serial
            keys := tput kc.keys head k } })

/-- A fill that fails its authentication or checks leaves its ways invalid (R280). -/
def dropFill (s : State) (job : Nat) : State := { s with kc := { s.kc with fills := tdel s.kc.fills job } }

/-- A free key staging slot for a job (R274): the first of the two that OBJECT can name for it (DESIGN CHOICE, log 120). -/
def freeStage (s : State) (job : Nat) : Nat := if (tfind s.kc.staging (2 * job)).isNone then 0 else 1

/-- Puts a key into a staging slot for a job (R274, R290). -/
def stageKey (s : State) (slot job : Nat) (key : Key) : State :=
  { s with kc := { s.kc with staging := tput s.kc.staging (2 * job + slot) { job := job, key := key } } }

/-! ### Flush -/

/-- Entries valid or dead (KC_USED), and entries of pinned keys (KC_PINNED). -/
def kcUsed (kc : KeyCache) : Nat := (kc.keys.map fun k => k.2.entries.length).sum
def kcPinned (kc : KeyCache) : Nat :=
  ((kc.keys.filter fun k => !k.2.pins.isEmpty).map fun k => k.2.entries.length).sum

/-- A write of KC_FLUSH (R282): the fields, and the flush begins with GO unless one is BUSY. -/
def writeFlush (s : State) (value : Word32) : State :=
  let v := value.toNat
  if s.kc.busy && bit v 31 then s
  else
    let k := { s.kc with flushInst := bits v 0 10, flushAll := bit v 16, flushOld := bit v 17 }
    { s with kc := if bit v 31 then
        { k with busy := true, walkInst := bits v 0 10, walkAll := bit v 16, walkOld := bit v 17 }
      else k }

/-- The walk of a flush ends (R282): selected keys are invalid or dead, BUSY falls, FLUSH_DONE is set. -/
def flushDone (s : State) : State :=
  if !s.kc.busy then s
  else
    let sel := flushSelects s
    let drain := (s.kc.keys.filter fun k => sel k.2.inst k.2.gen && !k.2.pins.isEmpty).map fun k => (k.1, k.2.serial)
    let s := invalidate s sel
    kcEvent { s with kc := { s.kc with busy := false, drainSet := drain } } 16

/-- KC_FLUSH (R282). -/
def execKcFlush (acc : Acc) (value : Word32) (s : State) : Host.Outcome State Fault Refusal :=
  .next (if reaches s acc 0x081 then writeFlush s value else s)

/-- KC_FLUSH_DONE (R282). -/
def execKcFlushDone (s : State) : Host.Outcome State Fault Refusal := .next (flushDone s)

/-! ### Capabilities (R285 to R293) -/

/-- PERMS bits of R288. -/
def permLoad : Nat := 0
def permStore : Nat := 1
def permLoadSecret : Nat := 2
def permEngine : Nat := 3

/-- PERMS of the capability made for a key (R289). -/
def permsOf (d : KeyDesc) : Nat :=
  let enc := 2 ^ 4; let dec := 2 ^ 5; let gen := 2 ^ 8; let ver := 2 ^ 9; let pin := 2 ^ 13; let kem := 2 ^ 14
  let m := d.mode
  let e := decide (m = code1 'E' ∨ m = code1 'B'); let x := decide (m = code1 'D' ∨ m = code1 'B')
  let g := decide (m = code1 'G' ∨ m = code1 'C'); let v := decide (m = code1 'V' ∨ m = code1 'C')
  let sum (a b : Bool) (p q : Nat) := (if a then p else 0) + (if b then q else 0)
  8 +
  if d.isRecord then
    (if d.mode = 1 then (if bit d.recUsage 0 then 2 ^ 6 else 0) + (if bit d.recUsage 3 then kem + dec else 0) else 0) +
    (if bit d.recUsage 1 then 2 ^ 7 else 0) +
    (if bit d.recUsage 2 then (if bit d.recUsage 3 ∧ d.mode = 1 then enc else kem + enc) else 0) +
    (if d.mode = 2 then 1 else 0)
  else
    (if d.export_ = code1 'E' ∨ d.export_ = code1 'S' then 2 ^ 15 else 0) +
    (if d.usage = code2 "P0" then sum e x enc dec + pin
     else if d.usage = code2 "V1" then sum g v gen ver + pin
     else if d.usage = code2 "B0" ∨ d.usage = code2 "E0" then (if m = code1 'X' then 2 ^ 10 else 0)
     else if d.usage = code2 "K1" then sum e x (2 ^ 11) (2 ^ 12)
     else if d.usage = code2 "D0" then sum e x enc dec
     else sum g v gen ver)

/-- OBJECT of a cached key (R287): class 0x1, serial, head entry. -/
def keyObject (head serial : Nat) : Nat := 2 ^ 44 + 2 ^ 18 * serial + head

/-- OBJECT of a key staging slot (R287): class 0x3, job serial, slot, channel. -/
def stageObject (chan slot job : Nat) : Nat := 3 * 2 ^ 44 + 2 ^ 10 * job + 2 ^ 6 * slot + chan

/-- OBJECT of a job's ballast (R287): class 0x2. -/
def ballastObject (first : Nat) (two : Bool) (job : Nat) : Nat := 2 * 2 ^ 44 + 2 ^ 10 * job + bitAt two 9 + first

/-- The capability of R289 for a key of a job. -/
def keyCap (object inst gen : Nat) (k : Key) : Cap :=
  { tag := true, object := object, perms := permsOf k.desc, inst := inst, gen := gen, offset := 0
    length := k.material.length }

/-- The key and the length of the object that OBJECT names, while it exists (R287). -/
def objectKey (s : State) (object : Nat) : Option Key :=
  match bits object 44 4 with
  | 1 => match tfind s.kc.keys (bits object 0 18) with
    | some k => if k.serial = bits object 18 16 then some k.key else none
    | none => none
  | 3 => match tfind s.kc.staging (2 * bits object 10 32 + bits object 6 1), tfind s.jobs (bits object 10 32) with
    | some st, some j => if j.chan = some (bits object 0 6) then some st.key else none
    | _, _ => none
  | _ => none

/-- Bytes of the object that OBJECT names, none once it no longer exists (R286 row 7, R287). -/
def objectLen (s : State) (object : Nat) : Option Nat :=
  match bits object 44 4 with
  | 2 => match tfind s.jobs (bits object 10 32) with
    | some j => if j.bufs.contains (bits object 0 9) then some (if bit object 9 then 131072 else 65536) else none
    | none => none
  | _ => (objectKey s object).map fun k => k.material.length

/-- The checks of R286 on a use of `n` bytes from `off` of the window, in an executing context of an instance and
generation; the cause of the first that fails. `perms` is the set of permissions the access needs. -/
def capCheck (s : State) (c : Cap) (inst gen perms off n : Nat) : Option Nat :=
  if !c.tag then some 1
  else if !(bits c.object 44 4 = 1 ∨ bits c.object 44 4 = 2 ∨ bits c.object 44 4 = 3) then some 2
  else if c.inst ≠ inst then some 3
  else if c.gen ≠ gen then some 4
  else if (List.range 16).any fun i => bit perms i && !bit c.perms i then some 5
  else if c.length < off + n then some 6
  else match objectLen s c.object with
    | none => some 7
    | some l => if l < c.offset + c.length then some 6 else none

/-- Narrowing (R293): the tag survives only inside the old window and permissions. -/
def narrow (c : Cap) (off len perms : Nat) : Cap :=
  { c with
    offset := off, length := len, perms := perms
    tag := c.tag && decide (c.offset ≤ off ∧ off + len ≤ c.offset + c.length) &&
      (List.range 16).all fun i => !bit perms i || bit c.perms i }

/-- The 128 bits of a capability (R285). -/
def capBits (c : Cap) : Nat :=
  c.object % 2 ^ 48 + 2 ^ 48 * (c.perms % 2 ^ 16) + 2 ^ 64 * (c.inst % 2 ^ 10) + 2 ^ 74 * (c.gen % 2 ^ 8) +
    2 ^ 82 * (c.offset % 2 ^ 23) + 2 ^ 105 * (c.length % 2 ^ 23)

/-- The capability with those bits and tag (R285). -/
def capOfBits (tag : Bool) (v : Nat) : Cap :=
  { tag := tag, object := bits v 0 48, perms := bits v 48 16, inst := bits v 64 10, gen := bits v 74 8
    offset := bits v 82 23, length := bits v 105 23 }

end Sys2Proof.Machine
end

