-- ==== Sys2Proof/Machine/JobCore.lean ====
section
/-! DEFINITION. The job table: reading and changing a job, deciding its result (04_transaction_jobs.md, R166, R183), and
the repair-map records that retirements leave (R679, R680 of 16). -/

namespace Sys2Proof.Machine

/-- The job with a serial, while it is in flight. -/
def jobAt (s : State) (n : Nat) : Option Job := tfind s.jobs n

/-- Changes a job in flight. -/
def modJob (s : State) (n : Nat) (f : Job → Job) : State :=
  match jobAt s n with
  | none => s
  | some j => { s with jobs := tput s.jobs n (f j) }

/-- The job's result is not yet final (R62 of 01). -/
def undecided (j : Job) : Bool :=
  match j.phase with
  | .final | .leafBuilt | .committed | .kept => false
  | _ => true

/-- The opcode draws on the channel DRBG, at least under some of its parameters: Rand of R175 of 04. -/
def drawsOp (op : Nat) : Bool :=
  [0x0101, 0x0102, 0x0103, 0x0104, 0x0201, 0x0204, 0x0205, 0x0401, 0x0402, 0x0403, 0x0404, 0x0405, 0x0407, 0x0409, 0x040A,
    0x0501, 0x0601].contains op

/-- A job's result becomes final with a status other than DONE: no result bytes, no output but what has streamed already
(R61, R186, R187, R193). -/
def failJob (s : State) (n status : Nat) : State :=
  modJob s n fun j =>
    if undecided j then
      { j with phase := .final, status := status, result := [], out := j.out.take j.streamed, outLen := 0, waitRand := false }
    else j

/-- A job's result becomes final with DONE, its RESULT bytes from byte 20, its output and OUT_LEN (R161, R183). -/
def doneJob (s : State) (n : Nat) (result out : Bytes) (outLen : Nat) : State :=
  modJob s n fun j =>
    { j with phase := .final, status := 0, result := result, out := out, outLen := outLen, waitRand := false }

/-- A job's result becomes final with a status that carries output or result bytes. -/
def endJob (s : State) (n status : Nat) (result out : Bytes) (outLen : Nat) : State :=
  modJob s n fun j =>
    { j with phase := .final, status := status, result := result, out := out, outLen := outLen, waitRand := false }

/-! ### Repair map -/

/-- Kinds of R679. -/
def mapChannel : Nat := 1
def mapRow : Nat := 2
def mapLane : Nat := 3
def mapLine : Nat := 4
def mapSource : Nat := 5
def mapBuffer : Nat := 6
def mapWay : Nat := 7

/-- A repair-map record (R679). -/
def mapRecord (kind cause flags locator pos : Nat) : Bytes :=
  let b := [BitVec.ofNat 8 kind, BitVec.ofNat 8 cause, BitVec.ofNat 8 flags, 0#8] ++ le 4 locator ++ le 7 pos
  b ++ [crc8 b]

/-- Appends a record; a full map of 255 sets RM_STATUS.FULL instead (R682). -/
def mapAppend (s : State) (kind cause locator : Nat) : State :=
  if 255 ≤ s.faults.map.length then { s with faults := { s.faults with full := true } }
  else { s with faults := { s.faults with map := s.faults.map ++ [mapRecord kind cause 0 locator (position s % 2 ^ 56)] } }

/-- A bit of the OTP field retirement mask is burned (R680): a burned bit is never cleared. -/
def burnRetire (s : State) (b : Nat) : State :=
  otpBurned { s with otp := { s.otp with retireField := s.otp.retireField ||| BitVec.ofNat 64 (2 ^ b) } }

end Sys2Proof.Machine
end

