-- ==== Sys2Proof/Machine/Rng.lean ====
section
/-! DEFINITION. Noise sources, seed pool, DRBGs and who draws from them (12_random_numbers.md), and the commands
SOURCE_HEALTH_FAILURE to RESEED. -/

namespace Sys2Proof.Machine

/-- Number of the keel DRBG in the table of DRBGs. -/
def keelDrbg : Nat := 34

/-- Page of a DRBG's unit: the keel RNG unit for the keel's. -/
def drbgPage (d : Nat) : Nat := if d = keelDrbg then 0x005 else chanPage d + 9

def sourceAt (s : State) (i : Nat) : Source := tget {} s.rng.sources i
def putSource (s : State) (i : Nat) (x : Source) : State :=
  { s with rng := { s.rng with sources := tset {} s.rng.sources i x } }

def drbgAt (s : State) (d : Nat) : Drbg := tget {} s.rng.drbgs d
def putDrbg (s : State) (d : Nat) (x : Drbg) : State := { s with rng := { s.rng with drbgs := tset {} s.rng.drbgs d x } }

/-- RNG_COND.HEALTHY. -/
def healthySources (s : State) : Nat := (List.range 4).countP fun i => decide ((sourceAt s i).state = .healthy)

/-- Fewer than two HEALTHY sources after gathering (R527). -/
def entropyLow (s : State) : Bool := s.rng.gathered && decide (healthySources s < 2)

/-! ### Requests -/

/-- Blocks that a seed request takes (R511). -/
def seedBlocks : SeedFor → Nat
  | .instantiate _ => 2
  | _ => 1

/-- Class of a seed request (R511), served in rising order. -/
def seedClass : SeedFor → Nat
  | .drk => 1
  | .instantiate d => if d = keelDrbg then 2 else 3
  | .reseed d w => if d = keelDrbg then 2 else if w then 4 else 5

/-- The first waiting request: lowest class, then earliest (R511). -/
def firstRequest (rs : List SeedFor) : Option SeedFor :=
  match rs with
  | [] => none
  | r :: t => some (t.foldl (fun a b => if seedClass b < seedClass a then b else a) r)

/-- Posts a seed request unless the same one waits. -/
def postSeed (s : State) (r : SeedFor) : State :=
  if s.rng.requests.contains r then s else { s with rng := { s.rng with requests := s.rng.requests ++ [r] } }

/-- What happens to the consumer of a request that ends without data (R525): the job completes with 0x7001
ENTROPY_FAULT, a Sail command ends with ENTROPY (0xA of R422), a core's stalled read takes ENTROPY_FAULT. -/
def refuseRand (s : State) (r : RandReq) : State :=
  match r.for_ with
  | .job n => failJob s n 0x7001
  | .sail p =>
    let e := tget {} s.sails p
    let run := e.run.map fun x => { x with fin := { result := 0xA } }
    let s := { s with sails := tset {} s.sails p { e with estate := .busy, run := run } }
    match e.job with
    | some n => failJob s n 0x7001
    | none => s
  | .core p =>
    let c := tget {} s.cores p
    let s := { s with cores := tset {} s.cores p { c with entropy := true } }
    if c.job = 0 then s else failJob s c.job 0x7001
  | .keel _ => s

/-- Asks a DRBG for bytes (R521): queued, or refused at once while it is UNSEEDED (R526). -/
def askRand (s : State) (d : Nat) (r : RandReq) : State :=
  let x := drbgAt s d
  if x.state = .unseeded then refuseRand s r else putDrbg s d { x with queue := x.queue ++ [r] }

/-- A DRBG becomes UNSEEDED (R524 to R527): requests end without data, the buffer is discarded, instantiation is
requested at once. -/
def unseed (s : State) (d : Nat) : State :=
  let x := drbgAt s d
  let was := x.state
  let s := x.queue.foldl refuseRand
    (putDrbg s d { x with state := .unseeded, queue := [], buf := [], seed := [], pending := false, atLimit := false
                          calls := 0, unseeded := if was = .unseeded then x.unseeded else x.unseeded + 1 })
  let s := { s with rng := { s.rng with requests := s.rng.requests.filter fun r => match r with
    | .reseed e _ => e ≠ d
    | _ => true } }
  let s := postSeed s (.instantiate d)
  if was = .unseeded ∨ d = keelDrbg then s else setEvent s (drbgPage d) 16

/-- The DRBGs that R527 makes UNSEEDED: the keel's and those of channels that are STARTING, RUNNING, QUIESCED or
STOPPING. -/
def liveDrbgs (s : State) : List Nat :=
  ((List.range 34).filter fun c => match (unitAt s (chanPage c)).state with
    | .starting | .running | .quiesced | .stopping => true
    | _ => false) ++ [keelDrbg]

/-- A demand for a reseed (R519). -/
def demandReseed (s : State) (d : Nat) : State :=
  let x := drbgAt s d
  if x.pending ∨ x.state ≠ .seeded then s
  else postSeed (putDrbg s d { x with pending := true }) (.reseed d x.atLimit)

/-- A generate call counted (R518): a reseed is posted at 2^12 calls, generation stops at 2^20. -/
def countCall (s : State) (d : Nat) : State :=
  let x := drbgAt s d
  let n := x.calls + 1
  let s := putDrbg s d { x with calls := n }
  let s := if 2 ^ 12 ≤ n then demandReseed s d else s
  if n = 2 ^ 20 then
    let s := putDrbg s d { drbgAt s d with atLimit := true }
    let rs := s.rng.requests.map fun r => if r = .reseed d false then .reseed d true else r
    let s := { s with rng := { s.rng with requests := rs } }
    if d = keelDrbg then s else setEvent s (drbgPage d) 17
  else s

/-- Bytes from the keel DRBG for the keel's own uses (R521, code 0x05), counted as one call (DEDUCED, log 99). -/
def keelDraw (s : State) (n : Nat) : Bytes × State :=
  let (b, s) := freeBytes s n
  (b, countCall s keelDrbg)

/-- Bytes delivered to a consumer. -/
def giveRand (s : State) (d : Nat) (r : RandReq) (b : Bytes) : State :=
  match r.for_ with
  | .job n => modJob s n fun j => { j with rand := b, waitRand := false }
  | .sail p =>
    let e := tget {} s.sails p
    let run := e.run.map fun x => { x with rand := x.rand ++ b }
    { s with sails := tset {} s.sails p { e with estate := (if (run.map (·.hashed)).getD true then .busy else .waitLane), run := run } }
  | .core p =>
    let c := tget {} s.cores p
    let s := { s with cores := tset {} s.cores p { c with stall := .none } }
    putDrbg s d { drbgAt s d with buf := b, bufInst := r.inst, bufGen := r.gen }
  | .keel _ => s

/-- DRBG_CALL_DELIVER (R515, R517, R521, R918): the front request's call ends with its output. -/
def deliver (s : State) (d : Nat) : State :=
  let x := drbgAt s d
  match x.queue with
  | [] => s
  | r :: rest =>
    if x.state ≠ .seeded ∨ x.atLimit then s
    else
      let s := putDrbg s d { x with queue := rest }
      let (b, s) := freeBytes s r.len
      giveRand (countCall s d) d r b

/-! ### Conditioner -/

/-- Sources that have passed a start-up test. -/
def passedSources (s : State) : Nat := healthySources s

/-- Start-up gathering completes with the second block (R512). -/
def noteGathered (s : State) : State :=
  if !s.rng.gathered && decide (2 ≤ s.rng.blocks) then
    setEvent { s with rng := { s.rng with gathered := true } } 0x005 18
  else s

/-- A block of source `i` is released to the pool (R509, R510, R512, R527). -/
def releaseBlock (s : State) (i : Nat) : State :=
  if (sourceAt s i).state ≠ .healthy ∨ healthySources s < 2 then s
  else
    let pool := if 16 ≤ s.rng.pool.length then s.rng.pool else s.rng.pool ++ [(i, s.cycles)]
    noteGathered { s with rng := { s.rng with pool := pool, blocks := s.rng.blocks + 1 } }

/-- The boot nonce, drawn once per start-up from the keel DRBG (R27, R28 of 01; R514). -/
def drawNonce (s : State) : State :=
  if s.rng.bootNonce ≠ [] then s
  else
    let (b, s) := keelDraw s 32
    { s with rng := { s.rng with bootNonce := b } }

/-- The request served from the pool (R511). -/
def applySeed (s : State) (r : SeedFor) (blocks : List (Nat × Nat)) : State :=
  match r with
  | .drk => s
  | .instantiate d =>
    let s := putDrbg s d { drbgAt s d with
      state := .seeded, calls := 0, pending := false, atLimit := false, seed := blocks, buf := [] }
    if d = keelDrbg then drawNonce s else setEvent s (drbgPage d) 18
  | .reseed d _ =>
    let x := drbgAt s d
    putDrbg s d { x with
      calls := 0, pending := false, atLimit := false, seed := blocks, reseeds := x.reseeds + 1, buf := [] }

/-- SEED_REQUEST_SERVE (R511, R512): the first waiting request, once the pool holds its blocks. The DRK's block is taken
by DRK_GENERATE, and no later request is served before it. -/
def serveSeed (s : State) : State :=
  match firstRequest s.rng.requests with
  | none => s
  | some .drk => s
  | some r =>
    let n := seedBlocks r
    if !s.rng.gathered ∨ s.rng.pool.length < n then s
    else applySeed { s with rng := { s.rng with
      pool := s.rng.pool.drop n, requests := s.rng.requests.erase r } } r (s.rng.pool.take n)

/-! ### Source failures -/

/-- Samples of the look-back of R524: one sample per 40 ns cycle (R502). -/
def lookBack : Nat := 4096

/-- A DRBG seeded from source `i` within the look-back (R524). -/
def affectedBy (s : State) (i d : Nat) : Bool :=
  let x := drbgAt s d
  decide (x.state = .seeded) && x.seed.any fun b => decide (b.1 = i ∧ s.cycles ≤ b.2 + lookBack)

/-- LOW and RECOVERED of R529 as HEALTHY changes, once gathering is complete. -/
def noteHealthy (old : Nat) (s : State) : State :=
  let n := healthySources s
  if s.rng.gathered && decide (2 ≤ old) && decide (n < 2) then setEvent s 0x005 19
  else if s.rng.gathered && decide (old < 2) && decide (2 ≤ n) then setEvent s 0x005 20
  else s

/-- A failure of source `i` (R506, R507, R510, R524, R527). -/
def sourceFails (s : State) (i : Nat) (apt : Bool) : State :=
  let x := sourceAt s i
  if x.state = .retired ∨ 4 ≤ i then s
  else
    let old := healthySources s
    let n := x.failRun + 1
    let dead := decide (3 ≤ n)
    let s := putSource s i
      { x with
        state := if dead then .retired else .retest
        failRun := n, lastApt := apt
        rctFails := if apt then x.rctFails else sat 255 (x.rctFails + 1)
        aptFails := if apt then sat 255 (x.aptFails + 1) else x.aptFails }
    let s := setEvent (transientFault s 0x005 0x0A) 0x005 16
    let s := if dead then
        setEvent (burnRetire (mapAppend s mapSource 0x0A i) (40 + i)) 0x005 17
      else s
    let s := { s with rng := { s.rng with pool := s.rng.pool.filter fun b => b.1 ≠ i } }
    let s := ((List.range 34 ++ [keelDrbg]).filter (affectedBy s i)).foldl unseed s
    let s := noteHealthy old s
    let s := if entropyLow s then
        (liveDrbgs s).foldl unseed { s with rng := { s.rng with pool := [] } }
      else s
    let live := (List.range 4).countP fun k => decide ((sourceAt s k).state ≠ .retired)
    if live < 2 then permanentFault s 0x005 0x0A else s

/-! ### Meanings -/

/-- SOURCE_HEALTH_FAILURE (R506). -/
def execSourceHealthFailure (src : Nat) (apt : Bool) (s : State) : Host.Outcome State Fault Refusal :=
  .next (sourceFails s src apt)

/-- SOURCE_TEST_PASS (R505): a source in STARTUP or RETEST becomes HEALTHY. -/
def execSourceTestPass (src : Nat) (s : State) : Host.Outcome State Fault Refusal :=
  let x := sourceAt s src
  if src < 4 ∧ (x.state = .startup ∨ x.state = .retest) then
    .next (noteHealthy (healthySources s) (putSource s src { x with state := .healthy }))
  else stay s

/-- FAIL_RUN_RESET (R506): the source reports 2^24 consecutive samples in HEALTHY without a failure. -/
def execFailRunReset (src : Nat) (s : State) : Host.Outcome State Fault Refusal :=
  let x := sourceAt s src
  if src < 4 ∧ x.state = .healthy then .next (putSource s src { x with failRun := 0 }) else stay s

/-- SEED_BLOCK_RELEASE (R509). -/
def execSeedBlockRelease (src : Nat) (s : State) : Host.Outcome State Fault Refusal :=
  .next (if src < 4 then releaseBlock s src else s)

/-- SEED_REQUEST_SERVE (R511). -/
def execSeedRequestServe (s : State) : Host.Outcome State Fault Refusal := .next (serveSeed s)

/-- DRBG_CALL_DELIVER (R918). -/
def execDrbgCallDeliver (drbg : Nat) (s : State) : Host.Outcome State Fault Refusal := .next (deliver s drbg)

/-- RESEED (R519): a write of DRBG_CTRL.RESEED = 1 on a channel DRBG page. -/
def execReseed (acc : Acc) (drbg : Nat) (s : State) : Host.Outcome State Fault Refusal :=
  .next (if drbg < 34 ∧ reaches s acc (drbgPage drbg) then demandReseed s drbg else s)

end Sys2Proof.Machine
end

