-- ==== Sys2Proof/Machine/Audit.lean ====
section
/-! DEFINITION. The audit log of an instance: leaves, the append-only tree, seals, key records, the audit ring and the
proof store (08_audit_log.md), and the commands SEAL_WRITE to AUD_PS_ENABLE. -/

namespace Sys2Proof.Machine

/-- Page of the audit unit. -/
def auditPage : Nat := 0x082

def logAt (s : State) (i : Nat) : Log := tget {} s.audit.logs i
def putLog (s : State) (i : Nat) (l : Log) : State :=
  { s with audit := { s.audit with logs := tset {} s.audit.logs i l } }

/-! ### Hashes and the tree (R384, R385, R400) -/

/-- Leaf hash of R384. -/
def leafHash (l : Bytes) : BitVec 256 := sha256 (0#8 :: l)

/-- Node hash of R384. -/
def nodeHash (a b : BitVec 256) : BitVec 256 := sha256 (1#8 :: hashBytes a ++ hashBytes b)

/-- Padding hash Z_h of R384. -/
def zHash : Nat → BitVec 256
  | 0 => sha256 [2#8]
  | h + 1 => nodeHash (zHash h) (zHash h)

/-- Number of 1 bits of a number below 2^64. -/
def popcount (n : Nat) : Nat := (List.range 64).countP fun i => n.testBit i

/-- p(h, k) of R400: the order in which an append-only tree completes its nodes. -/
def nodeOrder (h k : Nat) : Nat :=
  let m := (k + 1) * 2 ^ h - 1
  2 * m - popcount m + h

/-- HEIGHT of a seal of `c` leaves: the smallest H with 2^H ≥ c (R385). -/
def sealHeight (c : Nat) : Nat := ((List.range 64).find? fun h => decide (c ≤ 2 ^ h)).getD 64

/-- The nodes that leaf hash `x` completes on a frontier, as (height, hash) from the leaf up, and the new frontier
(lowest subtree first). -/
def carryUp : Nat → BitVec 256 → List (Nat × BitVec 256) → List (Nat × BitVec 256) × List (Nat × BitVec 256)
  | h, x, [] => ([(h, x)], [(h, x)])
  | h, x, (h', a) :: rest =>
    if h' = h then
      let (w, f) := carryUp (h + 1) (nodeHash a x) rest
      ((h, x) :: w, f)
    else ([(h, x)], (h, x) :: (h', a) :: rest)

/-- The climb from the lowest subtree of a frontier to height `top` with padding on the right: the nodes that hold both
leaves and padding, as (height, index, hash), and ROOT (R385, R400). `k` is the index of `x` at height `h`. -/
def padUp : Nat → Nat → Nat → BitVec 256 → List (Nat × BitVec 256) → List (Nat × Nat × BitVec 256) × BitVec 256
  | 0, _, _, x, _ => ([], x)
  | n + 1, h, k, x, rest =>
    let (y, rest) :=
      if k % 2 = 0 then (nodeHash x (zHash h), rest)
      else match rest with
        | [] => (x, [])
        | (_, a) :: rest => (nodeHash a x, rest)
    let (w, root) := padUp n (h + 1) (k / 2) y rest
    ((h + 1, k / 2, y) :: w, root)

/-- ROOT of a seal of `c` leaves with a frontier, and the nodes due at seal (R385, R400). -/
def sealTree (c : Nat) (f : List (Nat × BitVec 256)) : List (Nat × Nat × BitVec 256) × BitVec 256 :=
  match f with
  | [] => ([], zHash 0)
  | (h, x) :: rest => padUp (sealHeight c - h) h ((c - 1) / 2 ^ h) x rest

/-! ### Proof store (R399 to R402) -/

/-- A write into the proof store of an instance. -/
def psWrite (s : State) (l : Log) (off : Nat) (data : Bytes) : State := emit s (.hostWrite l.port (l.psBase + off) data)

/-- Node (h, k) of a seal with node base `base` (R400). -/
def psNode (s : State) (l : Log) (base h k : Nat) (x : BitVec 256) : State :=
  psWrite s l (32 * ((base + nodeOrder h k) % 2 ^ (l.psLog2 + 1))) (hashBytes x)

/-- Offset of the seal-table entry of seal `n` (R399). -/
def sealEntry (l : Log) (n : Nat) : Nat := 2 ^ (l.psLog2 + 6) + 2 ^ (l.psLog2 + 4) + 256 * (n % 4096)

/-- Offset of the leaf-map entry of SEQ `i` (R399). -/
def mapEntry (l : Log) (i : Nat) : Nat := 2 ^ (l.psLog2 + 6) + 16 * (i % 2 ^ l.psLog2)

/-- Writes of complete nodes (height, index, hash), and FILL (R401). -/
def psNodes (s : State) (i base : Nat) (ns : List (Nat × Nat × BitVec 256)) : State :=
  let l := logAt s i
  if l.psEn then
    let s := ns.foldl (fun s n => psNode s l base n.1 n.2.1 n.2.2) s
    putLog s i { l with fill := ns.foldl (fun f n => max f (base + nodeOrder n.1 n.2.1 + 1)) l.fill }
  else s

/-! ### Audit ring (R393 to R396, R858) -/

/-- Free slots of the audit ring (R393). -/
def ringFree (l : Log) : Nat := 2 ^ l.ringLog2 - (l.wr + 2 ^ 32 - l.rd) % 2 ^ 32

/-- The port that issues an instance's audit writes may write (R858 of 22). -/
def auditPortUp (s : State) (l : Log) : Bool := isRunning s (1 + l.port) && (tget {} s.ports l.port).bme

/-- A record of `n` slots may be written now (R380, R858). -/
def ringTakes (s : State) (l : Log) (n : Nat) : Bool := l.ringEn && decide (n ≤ ringFree l) && auditPortUp s l

/-- Writes a record of whole slots and advances AUD_RING_WR (R393 to R395). -/
def ringWrite (s : State) (i : Nat) (data : Bytes) : State :=
  let l := logAt s i
  let n := data.length / 64
  let s := (List.range n).foldl (fun s k =>
    emit s (.hostWrite l.port (l.ringBase + 64 * ((l.wr + k) % 2 ^ l.ringLog2)) (slice data (64 * k) 64))) s
  putLog s i { logAt s i with wr := (l.wr + n) % 2 ^ 32 }

/-- IDENT of a record: instance and TYPE, with two more fields for a leaf (R370, R388, R394). -/
def ident (inst tstate catchup type : Nat) : Bytes := le 2 (inst + 2 ^ 10 * tstate + 2 ^ 12 * catchup + 2 ^ 13 * type)

/-! ### Checks of the keel's own signatures (R456, R457, R464 of 10) -/

/-- A RUNNING channel stands in a half. -/
def halfRuns (s : State) (h : Nat) : Bool := (List.range 34).any fun c => decide (halfOf c = h) && isRunning s (chanPage c)

def halfAt (s : State) (h : Nat) : HalfRegs := tget {} s.sig.halves h
def putHalf (s : State) (h : Nat) (r : HalfRegs) : State := { s with sig := { s.sig with halves := tset {} s.sig.halves h r } }

/-- `k` signatures that the keel made pass their single checks on one half: either where both have a RUNNING channel
(R457, R464) (DEDUCED, log 13). -/
def passKeel (s : State) (k : Nat) : State :=
  let (f, s) := freeNat s
  let h := if halfRuns s 0 && halfRuns s 1 then f % 2 else if halfRuns s 0 then 0 else 1
  let r := halfAt s h
  putHalf s h { r with pass := r.pass + w32 k, evals := r.evals + w32 k }

/-- A signature of the keel can be checked now (R457). -/
def keelChecks (s : State) : Bool := halfRuns s 0 || halfRuns s 1

/-! ### Logs and keys (R376, R394, R397, R406) -/

/-- KEY_FP of an audit key (R394). -/
def auditFp (pub : Bytes) : Bytes := slice (hashBytes (sha256 pub)) 0 12

/-- A new audit key pair from the keel DRBG (R376, R394). -/
def drawAuditKey (s : State) (i : Nat) : State :=
  let (b, s) := keelDraw s 48
  putLog s i { logAt s i with
    priv := BitVec.ofNat 384 (unbe b), pub := Config.out .publicOf [[2#8], b] 97 }

/-- A key record begins to be made (R397). -/
def beginKeyRec (s : State) (i cause : Nat) : State :=
  let l := logAt s i
  let g := instKeys s i
  let r : KeyRec :=
    { cause := cause, pos := position s, sealNo := l.sealNext, nextSeq := l.seqNext, kbpkGen := g.cur, pub := l.pub
      kbpk := g.curKey, digestKey := l.digestKey }
  putLog s i { l with keyRecs := l.keyRecs ++ [r] }

/-- A log begins (R376, R391, R406): SEQ 0, SEAL_NO 0, new audit key pair and digest key, a key record LOG_START.
Registers of AUD_CFG to AUD_PS_SIZE stay; seals and key records not yet written stay in line before it. -/
def beginLog (s : State) (i : Nat) : State :=
  let o := logAt s i
  let (d, s) := keelDraw s 32
  let s := putLog s i
    { o with
      live := true, seqNext := 0, sealNext := 0, covered := 0, fill := 0, provFrom := 0, unprovBelow := 0
      openFirst := 0, openBase := 0, frontier := [], unlocked := 0, startPrev := some 0, bases := []
      seals := o.seals.map fun x => { x with ended := true }
      keyRecs := o.keyRecs.map fun r => { r with ended := true }
      digestKey := BitVec.ofNat 256 (unbe d), everEnabled := o.ringEn, lastMultiple := position s }
  beginKeyRec (drawAuditKey s i) i 1

/-- A restored log continues (R391, R406, R652 of 15): the saved counts, a new audit key pair, a key record RESTORE. -/
def continueLog (s : State) (i seqNext sealNext : Nat) (prev : BitVec 256) (digestKey : BitVec 256) : State :=
  let o := logAt s i
  let s := putLog s i
    { o with
      live := true, seqNext := seqNext, sealNext := sealNext, covered := seqNext, fill := 0, provFrom := seqNext
      unprovBelow := sealNext, openFirst := seqNext, openBase := 0, frontier := [], unlocked := 0, startPrev := some prev
      seals := o.seals.map fun x => { x with ended := true }
      keyRecs := o.keyRecs.map fun r => { r with ended := true }
      bases := [], digestKey := digestKey, everEnabled := o.ringEn, lastMultiple := position s }
  beginKeyRec (drawAuditKey s i) i 4

/-- The log ends (R406); unwritten records are still written. -/
def endLog (s : State) (i : Nat) : State := putLog s i { logAt s i with live := false }

/-! ### Seals (R385 to R392) -/

/-- TSTATE byte of a seal (R388). -/
def sealTstate (s : State) : Nat := tetherCode s.tether.state + bitAt (catchupNow s) 2

/-- A seal is made (R385 to R387, R390, R400): the covered leaves are fixed, the nodes due at seal are written. -/
def makeSeal (s : State) (i cause pos : Nat) : State :=
  let l := logAt s i
  if !l.live then s
  else
    let c := l.seqNext - l.openFirst
    let h := sealHeight c
    let (ns, root) := sealTree c l.frontier
    let s := psNodes s i l.openBase ns
    let sl : Seal :=
      { no := l.sealNext, pos := pos, first := l.openFirst, count := c, unlocked := l.unlocked, gen := (instAt s i).gen
        height := h, tstate := sealTstate s, cause := cause, root := root, base := l.openBase, pub := l.pub, priv := l.priv
        startPrev := l.startPrev }
    let l := logAt s i
    putLog s i { l with
      sealNext := l.sealNext + 1, openFirst := l.seqNext, openBase := l.openBase + 2 ^ (h + 1) - 1, frontier := []
      startPrev := none, unlocked := 0, seals := l.seals ++ [sl] }

/-- XCHK of a seal written now (R388, R458 of 10): 2 while the device is FAULTED; 0 with a RUNNING channel on each half,
1 with one half alone; none while no channel runs, when the seal waits. -/
def sealXchk (s : State) : Option Nat :=
  if (unitAt s 0).state = .faulted then some 2
  else match halfRuns s 0, halfRuns s 1 with
    | true, true => some 0
    | false, false => none
    | _, _ => some 1

/-- Bytes 0 to 127 of a seal record (R388). -/
def sealBody (i xchk : Nat) (prev : BitVec 256) (x : Seal) : Bytes :=
  le 8 x.pos ++ le 6 x.no ++ ident i 0 0 1 ++ le 6 x.first ++ zeros 2 ++ le 4 x.count ++ le 4 x.unlocked ++
  [BitVec.ofNat 8 x.gen, BitVec.ofNat 8 x.height, BitVec.ofNat 8 x.tstate, BitVec.ofNat 8 x.cause] ++ auditFp x.pub ++
  [BitVec.ofNat 8 xchk] ++ zeros 15 ++ hashBytes x.root ++ hashBytes prev

/-- A key record comes before a seal in the ring (R397): the seal's number is the record's or above it, in one log. -/
def recFirst (r : KeyRec) (x : Seal) : Bool := if r.ended = x.ended then decide (r.sealNo ≤ x.no) else r.ended

/-- The front seal of a log is signed, checked and written (R389, R391, R393, R395, R397, R400). -/
def writeSeal (s : State) (i : Nat) : State :=
  let l := logAt s i
  match l.seals, sealXchk s with
  | x :: rest, some xchk =>
    if !ringTakes s l 4 || l.keyRecs.any (recFirst · x) then s
    else
      let body := sealBody i xchk (x.startPrev.getD l.prev) x
      let s := if xchk = 2 then s else passKeel s 1
      let (rnd, s) := freeBytes s 32
      let sig := if xchk = 2 then zeros 96 else Config.out .sign [[2#8], be 48 x.priv.toNat, body, rnd] 96
      let rec_ := body ++ sig ++ zeros 32
      let s := if l.psEn then psWrite s l (sealEntry l x.no) rec_ else s
      let s := ringWrite s i rec_
      let s := putLog s i { logAt s i with seals := rest, prev := sha256 body }
      let s := if x.ended then s else putLog s i { logAt s i with
        covered := x.first + x.count
        bases := (tput l.bases x.no (x.base, x.height)).filter fun e => decide (x.no < e.1 + 4096) }
      setEvent s auditPage 16
  | _, _ => s

/-! ### Key records (R394, R397, R398) -/

/-- DIGEST_BLOCK: 224 bytes, or 0 where the instance has no current generation (R398). -/
def digestBlock (r : KeyRec) (rnd : Bytes) : Bytes :=
  if r.kbpkGen = 0 then zeros 224
  else pad 224 (writeBlock (key32 r.kbpk) (kbpkKcv r.kbpk)
    { usage := code2 "M7", alg := code1 'H', mode := code1 'V', version := code2 "00", export_ := code1 'E' }
    (key32 r.digestKey) rnd)

/-- The front key record of a log is written (R394, R397, R456 of 10). -/
def writeKeyRec (s : State) (i : Nat) : State :=
  let l := logAt s i
  match l.keyRecs with
  | r :: rest =>
    if !ringTakes s l 80 || !keelChecks s then s
    else
      let s := passKeel s 2
      let (rnd, s) := freeBytes s 128
      let body := le 8 r.pos ++ le 6 r.sealNo ++ ident i 0 0 2 ++ le 6 r.nextSeq ++
        [BitVec.ofNat 8 r.cause, BitVec.ofNat 8 r.kbpkGen] ++ deviceFp ++ auditFp r.pub ++ zeros 4 ++ pad 97 r.pub ++
        zeros 7 ++ digestBlock r (rnd.take 64)
      let ec := Config.out .sign [[2#8], be 48 Config.identityEcPriv.toNat, body, slice rnd 64 32] 96
      let pq := Config.out .sign [[0x0A#8], be 32 Config.identityPqPriv.toNat, body, slice rnd 96 32, ascii "ECZ-AUDITKEY"] 4627
      let s := ringWrite s i (body ++ ec ++ pq ++ zeros 5)
      setEvent (putLog s i { logAt s i with keyRecs := rest }) auditPage 17
  | [] => s

/-! ### Commit (R377 to R382) -/

/-- A periodic seal of an instance is due (R320): the highest multiple of its period that the position has reached. -/
def periodicDue (s : State) (i : Nat) : Option Nat :=
  let l := logAt s i
  let m := position s / 2 ^ l.sealLog2 * 2 ^ l.sealLog2
  if l.live && decide (l.lastMultiple < m) then some m else none

/-- An ARMED entry that the position has reached (R321). -/
def entryDue (s : State) : Bool := s.events.any fun e => decide (e.2.state = .armed ∧ e.2.pos ≤ position s)

/-- Firings that must come before the next leaf of an instance (R322). -/
def firingsDue (s : State) (i : Nat) : Bool := entryDue s || (periodicDue s i).isSome

/-- The job's leaf waits its turn in its chain: a member before it has not committed (R382). -/
def chainWaits (s : State) (n : Nat) (j : Job) : Bool :=
  s.jobs.any fun e => decide (e.1 < n ∧ e.2.first = j.first ∧ e.2.inst = j.inst ∧ e.2.phase ≠ .committed)

/-- A commit of the instance must wait (R380, R389, R858 of 22). -/
def commitWaits (s : State) (i : Nat) : Bool :=
  let l := logAt s i
  !ringTakes s l 1 || !l.seals.isEmpty

/-- RING_WAIT of a commit that begins to wait for the ring (R380, R408). -/
def noteRingWait (s : State) (i : Nat) : State :=
  let l := logAt s i
  let w := !ringTakes s l 1 && jobsWhere s fun j => decide (j.inst = i ∧ j.phase = .leafBuilt)
  let s' := putLog s i { l with ringWait := w }
  if w && !l.ringWait then setEvent s' auditPage 18 else s'

/-- The audit port of a channel. -/
def portAt (s : State) (c : Nat) : AuditPort := tget {} s.audit.ports c
def putPort (s : State) (c : Nat) (p : AuditPort) : State :=
  { s with audit := { s.audit with ports := tset {} s.audit.ports c p } }

/-- Stamps a built leaf with POSITION, SEQ, TSTATE and CATCHUP (R370, R377). -/
def stampLeaf (s : State) (i seq : Nat) (leaf : Bytes) : Bytes :=
  let id := ident i (tetherCode s.tether.state) (if catchupNow s then 1 else 0) 0
  splice 64 (splice 64 (splice 64 leaf 0 (le 7 (position s))) 7 (le 6 seq)) 14 id

/-- The commit itself (R377, R378, R379, R385, R400): SEQ given, ring record and due proof-store writes issued. -/
def commitLeaf (s : State) (n : Nat) (j : Job) : State :=
  let i := j.inst
  let l := logAt s i
  let seq := l.seqNext
  let k := seq - l.openFirst
  let leaf := stampLeaf s i seq j.leaf
  let (done, frontier) := carryUp 0 (leafHash leaf) l.frontier
  let s := ringWrite s i leaf
  let s := putLog s i { logAt s i with
    seqNext := seq + 1, frontier := frontier, unlocked := if followsNetwork s then l.unlocked else l.unlocked + 1 }
  let s := psNodes s i l.openBase (done.map fun d => (d.1, k / 2 ^ d.1, d.2))
  let s := if l.psEn then psWrite s l (mapEntry l seq) (le 8 l.sealNext ++ le 8 l.openBase) else s
  let s := match j.chan with
    | some c => let p := portAt s c; putPort s c { p with committed := p.committed + 1 }
    | none => s
  let s := modJob s n fun j => { j with phase := .committed, seq := seq, leaf := leaf }
  if seq + 1 = 2 ^ 48 then beginLog (makeSeal s i 7 (position s)) i else s

/-- LEAF_COMMIT of a job: waits under R322, R380, R382 and R389, else commits. -/
def tryCommit (s : State) (n : Nat) : State :=
  match jobAt s n with
  | none => s
  | some j =>
    if j.phase ≠ .leafBuilt then s
    else if chainWaits s n j || firingsDue s j.inst then s
    else if commitWaits s j.inst then noteRingWait s j.inst
    else noteRingWait (commitLeaf s n j) j.inst

/-- A built leaf that a fault discards (R383, R409). -/
def discardLeaf (s : State) (n : Nat) : State :=
  match jobAt s n with
  | none => s
  | some j =>
    if j.phase ≠ .leafBuilt then s
    else
      let s := modJob s n fun j => { j with phase := .final, leaf := [] }
      match j.chan with
      | none => s
      | some c =>
        let p := portAt s c
        setEvent (putPort s c { p with discarded := p.discarded + 1 }) (chanPage c + 10) 16

/-! ### Registers (R396, R402, R407) -/

/-- AUD_SEL.INSTANCE of an accessor. -/
def audSel (s : State) (acc : Acc) : Nat := tget 0 s.audit.sel (accIdx acc)

/-- Write of AUD_RING_RD (R396): dropped when it would pass WR. -/
def writeRingRd (s : State) (i : Nat) (v : Nat) : State :=
  let l := logAt s i
  if (l.wr + 2 ^ 32 - l.rd) % 2 ^ 32 < (v + 2 ^ 32 - l.rd) % 2 ^ 32 then s
  else noteRingWait (putLog s i { l with rd := v }) i

/-- Write of AUD_RING_BASE, AUD_RING_SIZE, AUD_PS_BASE or AUD_PS_SIZE (R407). -/
def writeAudConfig (s : State) (i offset v : Nat) : State :=
  let l := logAt s i
  let lo (b m : Nat) := b / 2 ^ 32 * 2 ^ 32 + v / m * m
  let hi (b : Nat) := b % 2 ^ 32 + 2 ^ 32 * v
  let ring (l : Log) := if l.ringEn then s else putLog s i { l with wr := 0, rd := 0 }
  let ps (l : Log) := if l.psEn then s else putLog s i l
  match offset with
  | 0x048 => ring { l with ringBase := lo l.ringBase (2 ^ 12) }
  | 0x04C => ring { l with ringBase := hi l.ringBase }
  | 0x050 => ring { l with ringLog2 := v % 32 }
  | 0x05C => ps { l with psBase := lo l.psBase (2 ^ 20) }
  | 0x060 => ps { l with psBase := hi l.psBase }
  | 0x064 => ps { l with psLog2 := v % 64 }
  | _ => s

/-- The check of R407 fails: CFG_ERR. -/
def audCfgErr (s : State) (i : Nat) : State :=
  setEvent (putLog s i { logAt s i with cfgErr := true }) auditPage 19

/-- AUD_CFG.RING_EN from 0 to 1 (R407). -/
def enableRing (s : State) (i : Nat) : State :=
  let l := logAt s i
  if l.ringEn then s
  else if 8 ≤ l.ringLog2 ∧ l.ringLog2 ≤ 24 ∧ l.ringBase + 64 * 2 ^ l.ringLog2 ≤ 2 ^ 64 then
    noteRingWait (putLog s i { l with ringEn := true, everEnabled := true, cfgErr := false }) i
  else audCfgErr s i

/-- AUD_CFG.RING_EN to 0. -/
def disableRing (s : State) (i : Nat) : State := noteRingWait (putLog s i { logAt s i with ringEn := false }) i

/-- Bytes of a proof store of parameter L (R399). -/
def psSize (l : Nat) : Nat := 2 ^ (l + 6) + 2 ^ (l + 4) + 4096 * 256

/-- Index of each frontier node among the leaves committed so far: `c` leaves, nodes lowest first. -/
def frontierNodes (c : Nat) : List (Nat × BitVec 256) → List (Nat × Nat × BitVec 256)
  | [] => []
  | (h, x) :: rest => (h, c / 2 ^ h - 1, x) :: frontierNodes (c / 2 ^ (h + 1) * 2 ^ (h + 1)) rest

/-- AUD_CFG.PS_EN from 0 to 1 (R402, R407). -/
def enablePs (s : State) (i : Nat) : State :=
  let l := logAt s i
  if l.psEn then s
  else if 16 ≤ l.psLog2 ∧ l.psLog2 ≤ 32 ∧ l.psBase + psSize l.psLog2 ≤ 2 ^ 64 then
    let s := putLog s i { l with
      psEn := true, cfgErr := false, openBase := l.fill, provFrom := l.seqNext, unprovBelow := l.sealNext }
    psNodes s i l.fill (frontierNodes (l.seqNext - l.openFirst) l.frontier)
  else audCfgErr s i

/-- Write of AUD_CFG (R407): the plain fields, then the enables. -/
def writeAudCfg (s : State) (i v : Nat) : State :=
  let l := logAt s i
  let lg := bits v 8 6
  let fresh := 16 ≤ lg ∧ lg ≤ 26 ∧ lg ≠ l.sealLog2 ∧ (periodicDue s i).isNone
  let s := putLog s i { l with
    lastMultiple := if fresh then position s else l.lastMultiple
    port := bits v 2 1, sealLog2 := if 16 ≤ lg ∧ lg ≤ 26 then lg else l.sealLog2, psEn := l.psEn && bit v 1 }
  let s := if bit v 0 then enableRing s i else disableRing s i
  if bit v 1 then enablePs s i else s

/-! ### Meanings -/

/-- SEAL_WRITE (R389). -/
def execSealWrite (inst : Nat) (s : State) : Host.Outcome State Fault Refusal := .next (writeSeal s inst)

/-- KEY_RECORD_WRITE (R397). -/
def execKeyRecordWrite (inst : Nat) (s : State) : Host.Outcome State Fault Refusal := .next (writeKeyRec s inst)

/-- AUD_RING_RD_WRITE (R396). -/
def execAudRingRdWrite (acc : Acc) (value : Word32) (s : State) : Host.Outcome State Fault Refusal :=
  .next (if reaches s acc auditPage then writeRingRd s (audSel s acc) value.toNat else s)

/-- AUD_RING_CONFIG_WRITE (R407). -/
def execAudRingConfigWrite (acc : Acc) (offset : Nat) (value : Word32) (s : State) :
    Host.Outcome State Fault Refusal :=
  .next (if reaches s acc auditPage then writeAudConfig s (audSel s acc) offset value.toNat else s)

/-- AUD_RING_ENABLE (R407). -/
def execAudRingEnable (acc : Acc) (s : State) : Host.Outcome State Fault Refusal :=
  .next (if reaches s acc auditPage then enableRing s (audSel s acc) else s)

/-- AUD_PS_ENABLE (R402). -/
def execAudPsEnable (acc : Acc) (s : State) : Host.Outcome State Fault Refusal :=
  .next (if reaches s acc auditPage then enablePs s (audSel s acc) else s)

end Sys2Proof.Machine
end

