-- ==== Sys2Proof/Machine/Repair.lean ====
section
/-! DEFINITION. Faults as every unit shares them: charges, re-runs of jobs, SRAM row repair, the loss of a channel, stand-ins
and channel shares (16_channels_faults_self_repair.md, R660 to R682; R35 to R39, R51, R52 of 01; R629, R630 of 15). -/

namespace Sys2Proof.Machine

def chanAt (s : State) (c : Nat) : Chan := tget {} s.faults.chans c
def putChan (s : State) (c : Nat) (x : Chan) : State :=
  { s with faults := { s.faults with chans := tset {} s.faults.chans c x } }

/-! ### Which channels work -/

/-- A unit above the channel, the channel, its lane or one of its cores stands at LEVEL 1 (R110, R499 of 11, R567 of 13). -/
def withdrawn (s : State) (c : Nat) : Bool :=
  let p := chanPage c
  [0, 0x090 + halfOf c, p, p + 1, p + 2, p + 3, p + 4, p + 8].any fun q => (unitAt s q).level

/-- The channel's test state lets it take hand-offs (R685, R686). -/
def notTested (s : State) (c : Nat) : Bool := decide ((chanAt s c).test = .idle)

/-- The channel's in-field test runs: it takes no hand-off, lends no stripe and makes no cross-check (R686). -/
def underTest (s : State) (c : Nat) : Bool := decide ((chanAt s c).test = .running)

/-- The channel takes a hand-off: it and its half take work, its lane runs, and it is neither withdrawn nor under test nor
waiting for one (R102, R110, R685, R686). A job is work in flight of the device root already: while the root stops, a channel
that stops only with it still takes hand-offs (DEDUCED, log 18). -/
def takesHandoff (s : State) (c : Nat) : Bool :=
  let f : Nat → Bool := if (unitAt s 0).state = .stopping then serves s else takesWork s
  decide (c < 34) && f (chanPage c) && f (0x090 + halfOf c) && f (chanPage c + 8) && !withdrawn s c && notTested s c

/-- The Sail engines of the channel at LEVEL 0 that serve its work (R102, R110). -/
def enginesOf (s : State) (c : Nat) : List Nat :=
  [chanPage c + 5, chanPage c + 6, chanPage c + 7].filter fun p => serves s p && !(unitAt s p).level

/-- An active channel (R689). -/
def chanActive (s : State) (c : Nat) : Bool :=
  isRunning s (chanPage c) && !withdrawn s c && !underTest s c &&
    !([5, 6, 7].any fun k => (unitAt s (chanPage c + k)).level)

/-! ### Charges (R660, R661) -/

/-- A transient fault charged to a unit (R661): counted, and counted against its channel except for cause 0x01; the count
that reaches FLT_CFG.TEST_AT makes the channel wait for a threshold test (R684, R685). -/
def charge (s : State) (p cause : Nat) : State :=
  let s := transientFault s p cause
  if isChanPage p ∧ cause ≠ 1 then
    let c := chanOf p
    let x := chanAt s c
    let n := sat 255 (x.since + 1)
    let hit := s.faults.testAt ≠ 0 ∧ n = s.faults.testAt ∧ x.test = .idle ∧ isRunning s (chanPage c)
    putChan s c { x with since := n, test := if hit then .waiting else x.test }
  else s

/-! ### Re-runs (R662 to R666) -/

/-- The job has begun step 5 of R58. -/
def begunStep5 (j : Job) : Bool :=
  match j.phase with
  | .taken | .readHead _ | .readRest _ | .readInput | .handoff | .forwarded => false
  | _ => true

/-- The Sail engine on a page. -/
def sailAt (s : State) (p : Nat) : Sail := tget {} s.sails p
def putSail (s : State) (p : Nat) (e : Sail) : State := { s with sails := tset {} s.sails p e }

/-- A bulk lane, by its channel. -/
def laneAt (s : State) (c : Nat) : Lane := tget {} s.lanes c
def putLane (s : State) (c : Nat) (l : Lane) : State := { s with lanes := tset {} s.lanes c l }

/-- The key contexts that lanes hold for a job are cleared, and the next unwrap of each lane is taken (R494, R495 of 11). -/
def dropLanes (s : State) (n : Nat) : State :=
  let next (c : Nat) : Option Nat := (s.jobs.find? fun e => decide (e.1 ≠ n ∧ e.2.chan = some c) && match e.2.phase with
    | .unwrap _ => true
    | _ => false).map (·.1)
  { s with lanes := tmap (fun _ => {}) (fun c l => { l with
      unwrap := if l.unwrap = some n then next c else l.unwrap
      job := l.job.filter (· ≠ n)
      help := l.help.filter fun h => h.2 ≠ n
      split := l.split.filter fun x => x.job ≠ n }) s.lanes }

/-- The stripes that helper lane `c` holds go back to the executing lane (R496 of 11). -/
def redoStripes (s : State) (c : Nat) : State :=
  match (laneAt s c).help with
  | none => s
  | some (o, _) =>
    let l := laneAt s o
    match l.split with
    | none => putLane s c { laneAt s c with help := none }
    | some sp =>
      let k := sp.left.countP fun x => x.2 = c
      let left := sp.left.map fun x => if x.2 = c then (x.1, o) else x
      let s := putLane s o { l with split := some { sp with left := left }, redone := l.redone + w32 k }
      setEvent (putLane s c { laneAt s c with help := none }) (chanPage o + 8) 18

/-- A job's members leave the evaluations they are in (R922 of 10). -/
def dropMembers (s : State) (n : Nat) : State :=
  let keep : Member → Bool
    | .own _ => true
    | .verify m | .batch m _ => decide (m ≠ n)
  let each (v : Eval) : Eval := { v with
    groups := v.groups.map (·.filter keep), next := v.next.map (·.filter keep), redo := v.redo.filter keep }
  { s with sig := { s.sig with evals := s.sig.evals.map fun e => (e.1, each e.2) } }

/-- What a job held of keys, own signatures, fills, lanes and engines is given up: pins, staging slots, fill, key contexts,
engines (R274, R444, R495, R664). -/
def dropHeld (s : State) (n : Nat) : State :=
  let s := dropMembers (dropLanes (dropFill (unpinJob s n) n) n) n
  let s := { s with sig := { s.sig with own := s.sig.own.filter fun e => !decide (e.2.owner = .job n ∨ e.2.owner = .attest n) } }
  match jobAt s n with
  | none => s
  | some j => j.engines.foldl (fun s p =>
      let e := tget {} s.sails p
      if e.estate = .wiping then s
      else setEvent (putSail s p { wiped e with result := 0xB, countAbort := e.countAbort + 1 }) p 16) s

/-- The job as it starts afresh from step 5 (R662, R664). Input of a job with two buffers is read again. -/
def fresh5 (j : Job) : Job :=
  let two := decide (1 < j.bufs.length)
  { j with
    phase := if two then .readInput else .handoff
    input := if two then [] else j.input
    chan := none, core := none, key1 := none, key2 := none, cap1 := {}, cap2 := {}, proof := [], status := 0, result := []
    out := [], outLen := 0, streamed := 0, leaf := [], waitRand := false, rand := [], engines := [], image := none }

/-- Another RUNNING channel of the share that no fault of the job excludes (R663). -/
def otherChannel (s : State) (j : Job) (p : Nat) : Bool :=
  (runningShare s j.inst).any fun c =>
    !(j.excluded.contains (chanPage c)) && !(isChanPage p && decide (chanOf p = c) && !decide (slotOf p = 5 ∨ slotOf p = 6 ∨
      slotOf p = 7))

/-- A job whose work a fault of page `p` has ended (R662, R663): re-run, or 0x5001 at the fourth event or when nothing else
can run it. -/
def rerunJob (s : State) (n p : Nat) : State :=
  match jobAt s n with
  | none => s
  | some j =>
    let s := dropHeld (discardLeaf s n) n
    let s := match j.chan with
      | some c => let x := chanAt s c; putChan s c { x with reruns := x.reruns + 1 }
      | none => s
    let q := if isChanPage p ∧ ¬ (slotOf p = 5 ∨ slotOf p = 6 ∨ slotOf p = 7) then chanPage (chanOf p) else p
    if 3 ≤ j.reruns ∨ !otherChannel s j p then
      modJob s n fun j => { j with
        phase := .final, status := 0x5001, result := [], out := j.out.take j.streamed, outLen := 0, leaf := [] }
    else modJob s n fun j => { fresh5 j with reruns := j.reruns + 1, excluded := q :: j.excluded }

/-- A job on a channel that is lost (R666). -/
def loseJob (c : Nat) (s : State) (n : Nat) : State :=
  match jobAt s n with
  | none => s
  | some j =>
    if j.chan ≠ some c then s
    else match j.phase with
      | .taken | .readHead _ | .readRest _ | .readInput | .handoff => modJob s n fun j => { j with phase := .handoff, chan := none }
      | .crossCheck | .committed | .kept | .forwarded => s
      | _ => rerunJob s n (chanPage c)

/-- Every job on the channel is dispositioned (R666). -/
def loseJobs (s : State) (c : Nat) : State := (s.jobs.map (·.1)).foldl (loseJob c) s

/-! ### Channel loss (R37, R467, R669, R671, R675) -/

/-- A healthy spare: OFF, not enabled, no permanent fault, not yet chosen as a stand-in (R36). -/
def isSpare (s : State) (c : Nat) : Bool :=
  let u := unitAt s (chanPage c)
  decide (u.state = .off) && !u.enable && !u.permanent && !u.factory && !u.field && (chanAt s c).standInFor.isNone

/-- The stand-in of R37 for channel `c`: the lowest spare of its half, else the lowest of the other. -/
def standIn (s : State) (c : Nat) : Option Nat :=
  match (List.range 34).find? fun d => decide (halfOf d = halfOf c) && isSpare s d with
  | some d => some d
  | none => (List.range 34).find? (isSpare s)

/-- A stand-in is chosen and its test is due (R37, R675 step 3, R690). -/
def chooseStandIn (s : State) (c : Nat) : State :=
  match standIn s c with
  | none => s
  | some d => setEvent (putChan s d { chanAt s d with standInFor := some c }) (chanPage d) 19

/-- Every channel FAULTED or RETIRED: the device unit is FAULTED, every job ends with 0x5001 (R669). -/
def noteNoChannel (s : State) : State :=
  if ((List.range 34).all fun c =>
      decide ((unitAt s (chanPage c)).state = .faulted ∨ (unitAt s (chanPage c)).state = .retired)) && !s.faults.noChannel
  then
    let s := setUState { s with faults := { s.faults with noChannel := true } } 0 .faulted
    (s.jobs.map (·.1)).foldl (fun s n => failJob s n 0x5001) s
  else s

/-- Checks in progress on engines of a lost channel start again elsewhere; a half without a RUNNING channel checks nothing
more (R39 of 01, R468). -/
def loseChecks (s : State) (c : Nat) : State :=
  let gone (p : Nat) : Bool := isChanPage p && decide (chanOf p = c)
  let back (p : Option Nat) : Option Nat := match p with | some q => if gone q then none else p | none => none
  let own := s.sig.own.map fun e => (e.1, { e.2 with by_ := back e.2.by_ })
  let s := { s with sig := { s.sig with own := own, evals := s.sig.evals.filter fun e => !gone e.1 } }
  let dead := s.sig.own.filter fun e => !halfRuns s e.2.half
  dead.foldl (fun s e => match e.2.owner with
    | .job n => failJob { s with sig := { s.sig with own := tdel s.sig.own e.1 } } n 0x5002
    | .attest _ =>
      if halfRuns s (1 - e.2.half) then
        { s with sig := { s.sig with own := tput s.sig.own e.1 { e.2 with half := 1 - e.2.half } } }
      else s) s

/-- Channel `c` takes a permanent fault (R675 steps 1 to 3): FAULTED with its engines, jobs dispositioned, rings moved, a
stand-in chosen when the channel was enabled. -/
def channelFault (s : State) (c cause : Nat) : State :=
  if (unitAt s (chanPage c)).permanent ∨ (unitAt s (chanPage c)).state = .retired then s
  else
    let enabled := (unitAt s (chanPage c)).enable || (chanAt s c).standInFor.isSome
    let was := (chanAt s c).standInFor
    let s := permanentFault s (chanPage c) cause
    let s := putChan s c { chanAt s c with test := .idle, standInFor := none, spareTest := false }
    let s := rebindAll (loseChecks (loseJobs (redoStripes s c) c) c)
    noteNoChannel (match was with
      | some d => chooseStandIn s d
      | none => if enabled then chooseStandIn s c else s)

/-- A permanent fault of an engine of a channel, and with it of its channel (R105, R467, R671). -/
def engineFault (s : State) (p cause : Nat) : State := channelFault (permanentFault s p cause) (chanOf p) 0x0C

/-! ### SRAM rows (R670 to R672) -/

/-- Key of a block of rows in the spare counts. -/
def blockKey (p block : Nat) : Nat := 2 ^ 12 * block + p

/-- Row `row` of a block of a unit is repaired with a spare (R670), recorded (R679); with no spare left the unit takes a
permanent fault and the smallest containing unit goes out of service (R671). -/
def rowRepair (s : State) (p block row : Nat) : State :=
  let k := blockKey p block
  let used := tget 0 s.faults.spares k
  if used < 8 then
    mapAppend { s with faults := { s.faults with spares := tset 0 s.faults.spares k (used + 1) } } mapRow 0x09 (p + 2 ^ 12 * row)
  else if isChanPage p then engineFault s p 0x09
  else if p = 0x080 then
    let b := block
    if s.ballast.withdrawn.contains b then s
    else mapAppend (setEvent { s with ballast := { s.ballast with withdrawn := b :: s.ballast.withdrawn } } 0x080 19)
      mapBuffer 0x09 b
  else if p = 0x081 then
    if s.kc.withdrawn.contains row then s
    else mapAppend { s with kc := { s.kc with
      withdrawn := row :: s.kc.withdrawn
      keys := s.kc.keys.filterMap fun e =>
        if e.2.entries.contains row then (if e.2.pins.isEmpty then none else some (e.1, { e.2 with dead := true }))
        else some e } } mapWay 0x09 row
  else permanentFault s p 0x09

end Sys2Proof.Machine
end

