-- ==== Sys2Proof/Machine/SailMath.lean ====
section
/-! DEFINITION. The arithmetic of a Sail engine on plain numbers: modular arithmetic, curve arithmetic, the constant
store, the number-theoretic transforms, and the cycle figures (09_sail_engine.md). -/

namespace Sys2Proof.Machine

/-! ### Modular arithmetic -/

/-- `b ^ e mod m` over `fuel` bits of `e`. -/
def powMod (m : Nat) : Nat → Nat → Nat → Nat
  | 0, _, _ => 1 % m
  | fuel + 1, b, e =>
    let r := powMod m fuel (b * b % m) (e / 2)
    if e % 2 = 1 then b * r % m else r

/-- Bits of a number of at most 16,384 bits: enough fuel for every operand. -/
def bitLen (n : Nat) : Nat := if n = 0 then 0 else Nat.log2 n + 1

/-- One step of the extended Euclidean algorithm repeated: gcd and the coefficient of the first operand. -/
def egcd : Nat → Int → Int → Int → Int → Int × Int
  | 0, r, _, x, _ => (r, x)
  | fuel + 1, r, r', x, x' => if r' = 0 then (r, x) else egcd fuel r' (r % r') x' (x - r / r' * x')

/-- Inverse of `a` modulo `m`, none when gcd(a, m) ≠ 1 (INV of R425). -/
def invMod (a m : Nat) : Option Nat :=
  let g := egcd (2 * bitLen m + 2) (a % m) m 1 0
  if g.1 = 1 then some (g.2 % m).toNat else none

/-- R = 2^(64n) of R418 and its inverse modulo m. -/
def montR (n : Nat) : Nat := 2 ^ (64 * n)
def montInv (n m : Nat) : Nat := (invMod (montR n % m) m).getD 0

/-- A Montgomery product (R419): a × b × R⁻¹ mod m. -/
def montMul (n m a b : Nat) : Nat := a * b % m * montInv n m % m

/-- Into and out of Montgomery form. -/
def toMont (n m a : Nat) : Nat := a * (montR n % m) % m
def fromMont (n m a : Nat) : Nat := a * montInv n m % m

/-- Writes p − 1 as odd × 2^s: s and the odd part. -/
def twoPart : Nat → Nat → Nat × Nat
  | 0, q => (0, q)
  | fuel + 1, q => if q % 2 = 0 then let (s, o) := twoPart fuel (q / 2); (s + 1, o) else (0, q)

/-- The least number of squarings that takes `t` to 1, at most `fuel`. -/
def orderTwo (p : Nat) : Nat → Nat → Nat
  | 0, _ => 0
  | fuel + 1, t => if t = 1 then 0 else orderTwo p fuel (t * t % p) + 1

/-- The loop of the square root of Tonelli and Shanks. -/
def tonelli (p : Nat) : Nat → Nat → Nat → Nat → Nat → Nat
  | 0, _, _, _, r => r
  | fuel + 1, s, c, t, r =>
    if t = 1 ∨ t = 0 then r
    else
      let i := orderTwo p s t
      let b := powMod p s c (2 ^ (s - i - 1))
      tonelli p fuel i (b * b % p) (t * (b * b % p) % p) (r * b % p)

/-- A square root of `v` modulo an odd prime `p`, none when there is none. -/
def sqrtMod (p v : Nat) : Option Nat :=
  let k := bitLen p
  let (s, q) := twoPart k (p - 1)
  let z := ((List.range 256).find? fun z => decide (powMod p k z ((p - 1) / 2) = p - 1)).getD 0
  let r := tonelli p k s (powMod p k z q) (powMod p k (v % p) q) (powMod p k (v % p) ((q + 1) / 2))
  if r * r % p = v % p then some r else none

/-! ### Curves (R411, R420) -/

/-- A named curve: field length in words, constants in ordinary form (`b` is d for an Edwards curve). -/
structure NamedCurve where
  edwards : Bool
  n : Nat
  p : Nat
  a : Nat
  b : Nat
  order : Nat
  x : Nat
  y : Nat
  deriving DecidableEq, Repr

/-- P-256 of FIPS 186-5 (PRESUMED, log 28). -/
def p256 : NamedCurve :=
  { edwards := false, n := 4
    p := 0xffffffff00000001000000000000000000000000ffffffffffffffffffffffff
    a := 0xffffffff00000001000000000000000000000000fffffffffffffffffffffffc
    b := 0x5ac635d8aa3a93e7b3ebbd55769886bc651d06b0cc53b0f63bce3c3e27d2604b
    order := 0xffffffff00000000ffffffffffffffffbce6faada7179e84f3b9cac2fc632551
    x := 0x6b17d1f2e12c4247f8bce6e563a440f277037d812deb33a0f4a13945d898c296
    y := 0x4fe342e2fe1a7f9b8ee7eb4a7c0f9e162bce33576b315ececbb6406837bf51f5 }

/-- P-384 of FIPS 186-5. -/
def p384 : NamedCurve :=
  { edwards := false, n := 6
    p := 0xfffffffffffffffffffffffffffffffffffffffffffffffffffffffffffffffeffffffff0000000000000000ffffffff
    a := 0xfffffffffffffffffffffffffffffffffffffffffffffffffffffffffffffffeffffffff0000000000000000fffffffc
    b := 0xb3312fa7e23ee7e4988e056be3f82d19181d9c6efe8141120314088f5013875ac656398d8a2ed19d2a85c8edd3ec2aef
    order := 0xffffffffffffffffffffffffffffffffffffffffffffffffc7634d81f4372ddf581a0db248b0a77aecec196accc52973
    x := 0xaa87ca22be8b05378eb1c71ef320ad746e1d3b628ba79b9859f741e082542a385502f25dbf55296c3a545e3872760ab7
    y := 0x3617de4a96262c6f5d9e98bf9292dc29f8f41dbd289a147ce9da3113b5f0b8c00a60b1ce1d7e819d7a431d7c90ea0e5f }

/-- Ed25519 of RFC 8032; a = p − 1. -/
def ed25519 : NamedCurve :=
  { edwards := true, n := 4
    p := 0x7fffffffffffffffffffffffffffffffffffffffffffffffffffffffffffffed
    a := 0x7fffffffffffffffffffffffffffffffffffffffffffffffffffffffffffffec
    b := 0x52036cee2b6ffe738cc740797779e89800700a4d4141d8ab75eb4dca135978a3
    order := 0x1000000000000000000000000000000014def9dea2f79cd65812631a5cf5d3ed
    x := 0x216936d3cd6e53fec0a4e231fdd6dc5c692cc7609525a7b2c9562d608f25d51a
    y := 0x6666666666666666666666666666666666666666666666666666666666666658 }

/-- Ed448 of RFC 8032; a = 1. -/
def ed448 : NamedCurve :=
  { edwards := true, n := 7
    p := 0xfffffffffffffffffffffffffffffffffffffffffffffffffffffffeffffffffffffffffffffffffffffffffffffffffffffffffffffffff
    a := 0x1
    b := 0xfffffffffffffffffffffffffffffffffffffffffffffffffffffffeffffffffffffffffffffffffffffffffffffffffffffffffffff6756
    order := 0x3fffffffffffffffffffffffffffffffffffffffffffffffffffffff7cca23e9c44edb49aed63690216cc2728dc58f552378c292ab5844f3
    x := 0x4f1970c66bed0ded221d15a622bf36da9e146570470f1767ea6de324a3d3a46412ae1af72ab66511433b80e18b00938e2626a82bc70cc05e
    y := 0x693f46716eb6bc248876203756c9c7624bea73736ca3984087789c1e05a0c2d73ad3ff1ce67c39c4fdbd132c4ed7c8ad9808795bf230fa14 }

/-- The named curve of CURVE_SET PARAM [2:0] (R425). -/
def namedCurve : Nat → Option NamedCurve
  | 1 => some p256
  | 2 => some p384
  | 3 => some ed25519
  | 4 => some ed448
  | _ => none

/-- First word of each curve in the constant store (R411). -/
def curveWord : Nat → Nat
  | 1 => 0x000 | 2 => 0x018 | 3 => 0x03C | _ => 0x054

/-- Word `w` of the constant store (R411): p, a, b or d, order, base x, base y of each curve in turn; 0 from 0x07E. -/
def constWord (w : Nat) : Nat :=
  let k := if w < 0x018 then 1 else if w < 0x03C then 2 else if w < 0x054 then 3 else 4
  match namedCurve k with
  | none => 0
  | some c =>
    let i := w - curveWord k
    let v := match i / c.n with
      | 0 => c.p | 1 => c.a | 2 => c.b | 3 => c.order | 4 => c.x | 5 => c.y | _ => 0
    bits v (64 * (i % c.n)) 64

/-- A point in affine form; none is the identity of a Weierstrass curve. -/
abbrev Pt := Option (Nat × Nat)

/-- The identity. -/
def ptZero (c : CurveSlot) : Pt := if c.edwards then some (0, 1) else none

/-- The point lies on the curve (R425). -/
def onCurve (c : CurveSlot) : Pt → Bool
  | none => !c.edwards
  | some (x, y) =>
    decide (x < c.p ∧ y < c.p) &&
    if c.edwards then decide ((c.a * x % c.p * x + y * y) % c.p = (1 + c.b * (x * x % c.p) % c.p * (y * y % c.p)) % c.p)
    else decide (y * y % c.p = (x * x % c.p * x + c.a * x + c.b) % c.p)

/-- Sum of two points; none where the field gives no inverse, which happens on no curve over a prime field whose
addition is complete. -/
def ptAdd (c : CurveSlot) (s t : Pt) : Option Pt :=
  let p := c.p
  match s, t with
  | none, t => some t
  | s, none => some s
  | some (x1, y1), some (x2, y2) =>
    if c.edwards then
      let e := c.b * (x1 * x2 % p) % p * (y1 * y2 % p) % p
      match invMod (1 + e) p, invMod (1 + p - e) p with
      | some i, some j =>
        some (some ((x1 * y2 + y1 * x2) % p * i % p, (y1 * y2 + (p - c.a % p) * (x1 * x2 % p)) % p * j % p))
      | _, _ => none
    else if x1 = x2 ∧ (y1 + y2) % p = 0 then some none
    else
      let l := if x1 = x2 then (invMod (2 * y1) p).map fun i => (3 * x1 * x1 + c.a) % p * i % p
        else (invMod (x2 + p - x1) p).map fun i => (y2 + p - y1) % p * i % p
      l.map fun l =>
        let x := (l * l + 2 * p - x1 - x2) % p
        some (x, (l * (x1 + p - x) + p - y1) % p)

/-- k times a point, over `fuel` bits of `k`. -/
def ptMul (c : CurveSlot) : Nat → Nat → Pt → Option Pt
  | 0, _, _ => some (ptZero c)
  | fuel + 1, k, t =>
    if k = 0 then some (ptZero c)
    else match ptAdd c t t with
      | none => none
      | some d => match ptMul c fuel (k / 2) d with
        | none => none
        | some r => if k % 2 = 1 then ptAdd c t r else some r

/-- The point with a coordinate and the parity of the other (PDECOMP of R425). -/
def ptDecomp (c : CurveSlot) (v parity : Nat) : Option (Nat × Nat) :=
  let p := c.p
  let fix (r : Nat) : Option Nat :=
    if r % 2 = parity then some r else if r = 0 then none else some (p - r)
  if c.edwards then
    match invMod (c.b * (v * v % p) + p - c.a % p) p with
    | none => none
    | some i => ((sqrtMod p ((v * v + p - 1) % p * i % p)).bind fix).map fun x => (x, v)
  else ((sqrtMod p (v * v % p * v + c.a * v + c.b)).bind fix).map fun y => (v, y)

/-! ### Transforms (R431, R432; FIPS 203 and FIPS 204) -/

/-- q of a lane selection (SAIL_SLOTS.LANE). -/
def laneQ (lane : Nat) : Nat := if lane = 1 then 3329 else 8380417

/-- The low `n` bits of `v` in reverse order. -/
def bitRev (n v : Nat) : Nat := ((List.range n).map fun i => bitAt (bit v i) (n - 1 - i)).sum

/-- Twiddle factor `k` of the transform for a lane selection: 17 to the 7-bit reversal, or 1,753 to the 8-bit one. -/
def zeta (lane k : Nat) : Nat :=
  if lane = 1 then powMod 3329 8 17 (bitRev 7 k) else powMod 8380417 9 1753 (bitRev 8 k)

/-- One layer of butterflies of half-length `len`, blocks numbered from `k` up. -/
def fwdLayer (lane len k : Nat) (f : List Nat) : List Nat :=
  let q := laneQ lane
  (List.range f.length).map fun i =>
    let b := i / (2 * len)
    let j := i % len + 2 * len * b
    let t := zeta lane (k + b) * f.getD (j + len) 0 % q
    if i % (2 * len) < len then (f.getD j 0 + t) % q else (f.getD j 0 + q - t) % q

/-- One inverse layer; blocks take the twiddles from `k` down. -/
def invLayer (lane len k : Nat) (f : List Nat) : List Nat :=
  let q := laneQ lane
  (List.range f.length).map fun i =>
    let b := i / (2 * len)
    let j := i % len + 2 * len * b
    let u := f.getD j 0
    let v := f.getD (j + len) 0
    let z := if lane = 1 then zeta lane (k - b) else q - zeta lane (k - b)
    if i % (2 * len) < len then (u + v) % q
    else if lane = 1 then z * ((v + q - u) % q) % q else z * ((u + q - v) % q) % q

/-- Half-lengths of the layers: 128 down to 2 for 3,329, down to 1 for 8,380,417. -/
def layers (lane : Nat) : List Nat := if lane = 1 then [128, 64, 32, 16, 8, 4, 2] else [128, 64, 32, 16, 8, 4, 2, 1]

/-- Forward transform of one polynomial of 256 coefficients (FIPS 203, FIPS 204). -/
def ntt (lane : Nat) (f : List Nat) : List Nat := (layers lane).foldl (fun f len => fwdLayer lane len (128 / len) f) f

/-- Inverse transform with the scaling of the standard. -/
def intt (lane : Nat) (f : List Nat) : List Nat :=
  let q := laneQ lane
  let g := (layers lane).reverse.foldl (fun f len => invLayer lane len (256 / len - 1) f) f
  g.map fun x => x * (if lane = 1 then 3303 else 8347681) % q

/-- Product in the transform domain: base multiplication of FIPS 203, or coefficient by coefficient. -/
def pwMul (lane : Nat) (f g : List Nat) : List Nat :=
  let q := laneQ lane
  if lane = 1 then
    (List.range 256).map fun i =>
      let j := i / 2
      let a0 := f.getD (2 * j) 0; let a1 := f.getD (2 * j + 1) 0
      let b0 := g.getD (2 * j) 0; let b1 := g.getD (2 * j + 1) 0
      if i % 2 = 0 then (a0 * b0 + a1 * b1 % q * powMod 3329 9 17 (2 * bitRev 7 j + 1)) % q else (a0 * b1 + a1 * b0) % q
  else (List.range 256).map fun i => f.getD i 0 * g.getD i 0 % q

/-! ### Cycles (R424, R425, R432, R436) -/

/-- ⌈a / b⌉. -/
def ceilDiv (a b : Nat) : Nat := (a + b - 1) / b

/-- M of R424. -/
def costM (wide : Bool) (n : Nat) : Nat :=
  if n ≤ 8 then (if wide then 4 else 2) else 120 + 62 * (ceilDiv n 8) ^ 2

/-- A of R424. -/
def costA (wide : Bool) (n : Nat) : Nat := if n ≤ 8 then (if wide then 2 else 1) else 4 + ceilDiv n 8

def costInv (w : Bool) (n : Nat) : Nat := 160 * n * costA w n + 2 * costM w n
def costLoad (w : Bool) (n : Nat) : Nat := 12 * costM w n + 6 * costA w n + 20 + 2 * n
def costStore (w : Bool) (n : Nat) : Nat := costInv w n + 4 * costM w n
def costDbl (w ed : Bool) (n : Nat) : Nat :=
  if ed then 9 * costM w n + 6 * costA w n else 10 * costM w n + 8 * costA w n
def costAdd (w ed : Bool) (n : Nat) : Nat :=
  if ed then 10 * costM w n + 7 * costA w n else 16 * costM w n + 7 * costA w n

/-- PMUL of R425: `k` words of scalar. -/
def costMul (w ed blinded : Bool) (n k : Nat) : Nat :=
  let b := 64 * k + (if blinded then 64 else 0)
  let s := if blinded then 2 else 1
  b * costDbl w ed n + (s * ceilDiv b 4 + 14) * costAdd w ed n + costLoad w n + costStore w n +
    (if blinded then 40 + 4 * n else 0)

/-- Cycles per polynomial of R432. -/
def costLane (w : Bool) (lane op : Nat) : Nat :=
  let l := if w then 42 else 21
  let f := if lane = 1 then 7 * ceilDiv 128 l + 24 else 8 * ceilDiv 128 l + 24
  match op with
  | 0x61 => f
  | 0x62 => f + 8
  | 0x63 => (if lane = 1 then ceilDiv 640 l else ceilDiv 256 l) + 8
  | _ => ceilDiv 256 l + 4

/-- The figures of R436: operation, algorithm, fixed cycles, cycles per member, and whether a wide engine takes twice as
long. -/
def seqCosts : List (Nat × Nat × Nat × Nat × Bool) :=
  [(0x40, 0x01, 17800, 0, true), (0x40, 0x02, 40000, 0, true), (0x40, 0x03, 11800, 0, true), (0x40, 0x04, 36000, 0, true),
   (0x40, 0x05, 1900000, 0, false), (0x40, 0x06, 6200000, 0, false), (0x40, 0x07, 14800000, 0, false),
   (0x41, 0x01, 42700, 0, true), (0x41, 0x02, 96000, 0, true), (0x41, 0x03, 27500, 0, true), (0x41, 0x04, 76800, 0, true),
   (0x41, 0x05, 22400, 0, false), (0x41, 0x06, 46000, 0, false), (0x41, 0x07, 78400, 0, false)] ++
  [(0x41, 0x08, 62400, 0, false), (0x41, 0x09, 100800, 0, false), (0x41, 0x0A, 150400, 0, false),
   (0x42, 0x01, 12000, 10500, true), (0x42, 0x02, 28000, 24000, true), (0x42, 0x03, 13400, 7800, true),
   (0x42, 0x04, 30000, 18000, true), (0x43, 0x01, 20800, 0, true), (0x43, 0x02, 48000, 0, true),
   (0x43, 0x03, 14400, 0, true), (0x43, 0x04, 40000, 0, true)] ++
  [(0x43, 0x08, 31200, 0, false), (0x43, 0x09, 46400, 0, false), (0x43, 0x0A, 70400, 0, false),
   (0x43, 0x0B, 23200, 0, false), (0x43, 0x0C, 34400, 0, false), (0x43, 0x0D, 49600, 0, false),
   (0x44, 0x0B, 28000, 0, false), (0x44, 0x0C, 40800, 0, false), (0x44, 0x0D, 59200, 0, false),
   (0x45, 0x0B, 34400, 0, false), (0x45, 0x0C, 49600, 0, false), (0x45, 0x0D, 70400, 0, false)]

/-- Cycles of a sequence command (R436) for an algorithm code and `t` members; none where R436 gives no number (the
prime search of an RSA KEYGEN, the iterations of an ML-DSA SIGN). -/
def costSeq (w : Bool) (op alg t : Nat) : Option Nat :=
  (seqCosts.find? fun e => decide (e.1 = op ∧ e.2.1 = alg)).map fun e =>
    (e.2.2.1 + e.2.2.2.1 * t) * (if w && e.2.2.2.2 then 2 else 1)

/-! ### Encoded lengths (R200, R229, R236, R262) -/

/-- Bytes of a signature, 0 for an algorithm that makes none. -/
def sigLen (alg : Nat) : Nat :=
  match alg with
  | 0x01 => 64 | 0x02 => 96 | 0x03 => 64 | 0x04 => 114 | 0x05 => 256 | 0x06 => 384 | 0x07 => 512
  | 0x08 => 2420 | 0x09 => 3309 | 0x0A => 4627 | _ => 0

/-- Bytes of private and public material (R262), 0 for an unknown algorithm. -/
def privLen (alg : Nat) : Nat := (materialLen alg 1).getD 0
def pubLen (alg : Nat) : Nat := (materialLen alg 2).getD 0

/-- Bytes of an ML-KEM ciphertext (FIPS 203). -/
def kemLen (alg : Nat) : Nat := match alg with
  | 0x0B => 768 | 0x0C => 1088 | 0x0D => 1568 | _ => 0

/-- Bytes of what SIGN or VERIFY takes beside the signature: the digest, the encoded RSA message, 64 bytes of SHA-512 for
EdDSA (R434). -/
def digestLen (alg : Nat) : Nat := match alg with
  | 0x01 => 32 | 0x02 => 48 | 0x03 => 64 | 0x04 => 64 | 0x05 => 256 | 0x06 => 384 | 0x07 => 512 | _ => 64

end Sys2Proof.Machine
end

