-- ==== Sys2Proof/Machine/Sail.lean ====
section
/-! DEFINITION. The Sail engine: operands, checks before start, what each command writes, its end, wipes and aborts
(09_sail_engine.md), and the commands SAIL_MOD_SET to SAIL_MEM_WRITE and PORT_HASH_COMPLETE. -/

namespace Sys2Proof.Machine

/-- A wide engine (R410). -/
def isWide (p : Nat) : Bool := decide (slotOf p = 7)

/-- Words of operand memory, and the limit of LEN (R410). -/
def memWords (p : Nat) : Nat := if isWide p then 0x2000 else 0x800
def maxLen (p : Nat) : Nat := if isWide p then 256 else 64

/-! ### Operands (R412 to R414) -/

/-- A descriptor of R412. `len` is in words once `BLOCKS` is applied. -/
structure Opnd where
  addr : Nat := 0
  const : Bool := false
  rawLen : Nat := 0
  blocks : Bool := false
  /-- a reserved bit is set -/
  reserved : Bool := false
  /-- words per LEN: 1 integer, 2 affine, 4 projective, 128 polynomial -/
  scale : Nat := 1
  dest : Bool := false
  deriving DecidableEq, Repr

/-- LEN in words. -/
def opLen (o : Opnd) : Nat := if o.blocks then 8 * o.rawLen else o.rawLen

/-- The span of an operand in words (R413). -/
def opSpan (o : Opnd) : Nat := opLen o * o.scale

/-- The operand that a SAIL_ARG register describes (DEDUCED, log 67). -/
def opnd (v scale : Nat) (dest : Bool) : Opnd :=
  { addr := bits v 0 13, const := bit v 14, rawLen := bits v 16 9, blocks := bit v 25
    reserved := bit v 13 || bit v 15 || decide (bits v 26 6 ≠ 0), scale := scale, dest := dest }

/-- A word of operand memory. Words that a sequence command left unspecified read as a free value (R434). -/
def memWord (e : Sail) (w : Nat) : Nat :=
  match tfind e.mem w with
  | some v => v
  | none => match e.unspec with
    | none => 0
    | some n => unle ((List.range 8).map fun i => Config.freeByte n (8 * w + i))

/-- Attributes of a word of operand memory. -/
def attrAt (e : Sail) (w : Nat) : SailAttr := tget {} e.attr w

/-- Word `w` of an operand's memory. -/
def opWord (e : Sail) (o : Opnd) (i : Nat) : Nat := if o.const then constWord (o.addr + i) else memWord e (o.addr + i)

/-- The integer in `n` words from word `i` of an operand. -/
def opInt (e : Sail) (o : Opnd) (i n : Nat) : Nat := ((List.range n).map fun k => opWord e o (i + k) * 2 ^ (64 * k)).sum

/-- The first `n` bytes of an operand (R434). -/
def opBytes (e : Sail) (o : Opnd) (n : Nat) : Bytes := le n (opInt e o 0 (ceilDiv n 8))

/-- Attributes carried by the words of an operand. -/
def opAttrs (e : Sail) (o : Opnd) : List SailAttr :=
  if o.const then []
  else (e.attr.filter fun a => decide (o.addr ≤ a.1 ∧ a.1 < o.addr + opSpan o)).map (·.2)

def opSecret (e : Sail) (o : Opnd) : Bool := (opAttrs e o).any (·.secret)
def opBinds (e : Sail) (o : Opnd) : List Nat := (opAttrs e o).filterMap (·.bind)

/-- Words of a number with one attribute. -/
def wordsOf (addr n v : Nat) (a : SailAttr) : List (Nat × Nat × SailAttr) :=
  (List.range n).map fun i => (addr + i, bits v (64 * i) 64, a)

/-- Words of a byte string, padded with 0 to whole words. -/
def wordsOfBytes (addr : Nat) (b : Bytes) (a : SailAttr) : List (Nat × Nat × SailAttr) :=
  (List.range (ceilDiv b.length 8)).map fun i => (addr + i, field b (8 * i) 8, a)

/-! ### The command word (R421) -/

def cmdOp (w : Nat) : Nat := bits w 0 8
def cmdMs (w : Nat) : Nat := bits w 8 2
def cmdCs (w : Nat) : Nat := bits w 10 1
def cmdBlind (w : Nat) : Bool := bit w 12
def cmdParam (w : Nat) : Nat := bits w 16 8

/-- Command codes of R425, R432 and R434. -/
def sailOps : List Nat :=
  [0x01, 0x02, 0x03, 0x04, 0x05, 0x06, 0x07, 0x08, 0x09, 0x0A, 0x0B, 0x0C, 0x0D, 0x0E, 0x0F] ++
  [0x20, 0x21, 0x22, 0x23, 0x24, 0x25, 0x26, 0x27] ++ [0x40, 0x41, 0x42, 0x43, 0x44, 0x45] ++
  [0x60, 0x61, 0x62, 0x63, 0x64, 0x65]

def isLaneOp (op : Nat) : Bool := decide (0x60 ≤ op)
def isSeqOp (op : Nat) : Bool := decide (0x40 ≤ op ∧ op < 0x60)

/-- PARAM is a value of the command (R422): commands that define none take 0. -/
def paramOk (op param : Nat) : Bool :=
  if op = 0x0B ∨ op = 0x27 ∨ op = 0x60 then decide (param ≤ 1)
  else if op = 0x20 then decide (param ≤ 4 ∨ param = 0x10)
  else if isSeqOp op then decide (1 ≤ param ∧ param ≤ 0x0D)
  else decide (param = 0)

/-- The sequence serves the algorithm (R434, R435). -/
def algServed (op alg : Nat) : Bool :=
  match op with
  | 0x40 | 0x41 => decide (alg ≤ 0x0A)
  | 0x42 => decide (alg ≤ 4)
  | 0x43 => true
  | _ => decide (0x0B ≤ alg)

/-- Exponent or scalar of the command is blinded (R429). -/
def blinded (e : Sail) (x : SailRun) : Bool :=
  cmdBlind x.word ||
    match cmdOp x.word with
    | 0x09 => opSecret e (opnd x.arg2 1 false)
    | 0x26 => opSecret e (opnd x.arg1 1 false)
    | _ => false

/-- Operands of a command: destinations and sources (R425, R432, R434). -/
def operands (e : Sail) (x : SailRun) : List Opnd :=
  let d (s : Nat) := opnd x.arg0 s true
  let s1 (s : Nat) := opnd x.arg1 s false
  let s2 (s : Nat) := opnd x.arg2 s false
  let s3 (s : Nat) := opnd x.arg3 s false
  match cmdOp x.word with
  | 0x01 => [s1 1]
  | 0x02 | 0x03 | 0x07 | 0x08 | 0x0A | 0x0E => [d 1, s1 1]
  | 0x04 | 0x05 | 0x06 => [d 1, s1 1, s2 1]
  | 0x09 => if blinded e x then [d 1, s1 1, s2 1, s3 1] else [d 1, s1 1, s2 1]
  | 0x0B | 0x0C | 0x0D => [d 1]
  | 0x0F => [s1 1, s2 1]
  | 0x20 =>
    if bits (cmdParam x.word) 0 3 = 0 then [opnd x.arg0 1 false, s1 1, s2 1, s3 1] else []
  | 0x21 => [s1 2]
  | 0x22 => [d 4, s1 2]
  | 0x23 => [d 2, s1 4]
  | 0x24 => [d 4, s1 4]
  | 0x25 => [d 4, s1 4, s2 4]
  | 0x26 => [d 2, s1 1, s2 2]
  | 0x27 => [d 2, s1 1]
  | 0x40 => if cmdParam x.word ≤ 7 ∧ cmdParam x.word ≠ 3 ∧ cmdParam x.word ≠ 4 then [d 1, s1 1, s2 1] else [d 1, s2 1]
  | 0x41 => [s1 1, s2 1]
  | 0x42 => [d 1, s1 1]
  | 0x43 => [d 1, { opnd x.arg1 1 true with dest := true }]
  | 0x44 => [d 1, { opnd x.arg1 1 true with dest := true }, s2 1]
  | 0x45 => [d 1, s1 1, s2 1]
  | 0x61 | 0x62 => [d 128, s1 128]
  | 0x63 | 0x64 | 0x65 => [d 128, s1 128, s2 128]
  | _ => []

/-- Bytes of a BATCH_VERIFY member record, a whole number of words (R434). -/
def memberBytes (alg : Nat) : Nat :=
  8 * ceilDiv (pubLen alg + (if alg ≤ 2 then 1 else 0) + sigLen alg + (if alg = 1 then 32 else if alg = 2 then 48 else 64)) 8

/-- Bytes that each operand of a sequence must hold, in the order of `operands` (R434). -/
def seqBytes (x : SailRun) : List Nat :=
  let a := cmdParam x.word
  match cmdOp x.word with
  | 0x40 => if a ≤ 7 ∧ a ≠ 3 ∧ a ≠ 4 then [sigLen a, digestLen a, privLen a] else [sigLen a, privLen a]
  | 0x41 => [sigLen a + digestLen a, pubLen a]
  | 0x42 => [8, x.xlen * memberBytes a]
  | 0x43 => [privLen a, pubLen a]
  | 0x44 => [kemLen a, 32, pubLen a]
  | 0x45 => [32, kemLen a, privLen a]
  | _ => []

/-- The modulus slot a modular command works in, and its curve slot (R418 to R420). -/
def usesModulus (op param : Nat) : Bool :=
  decide (0x02 ≤ op ∧ op ≤ 0x0A) || (decide (op = 0x0B) && decide (param = 1))
def usesCurve (op : Nat) : Bool := decide (0x21 ≤ op ∧ op ≤ 0x27)

/-- Two spans overlap. -/
def overlap (a b : Opnd) : Bool :=
  !a.const && !b.const && decide (a.addr < b.addr + opSpan b ∧ b.addr < a.addr + opSpan a)

/-- A destination partly overlaps a source (R413). -/
def badOverlap (os : List Opnd) : Bool :=
  os.any fun a => a.dest && os.any fun b =>
    !b.dest && overlap a b && !decide (a.addr = b.addr ∧ opSpan a = opSpan b)

/-- BAD_OPERAND of one operand (R413). -/
def badOperand (p op : Nat) (o : Opnd) : Bool :=
  decide (o.rawLen = 0 ∨ maxLen p < o.rawLen) || (o.dest && o.const) ||
    (o.blocks && !(decide (op = 0x0D ∨ op = 0x0E) || isSeqOp op)) ||
    decide ((if o.const then 256 else memWords p) < o.addr + opSpan o)

/-- LEN of the slot the command works in, where one is filled. -/
def slotLen (e : Sail) (x : SailRun) : Option Nat :=
  let op := cmdOp x.word
  if usesCurve op then (tfind e.curves (cmdCs x.word)).map (·.n)
  else if usesModulus op (cmdParam x.word) then (tfind e.mods (cmdMs x.word)).map (·.n)
  else none

/-- Length constraints of R413, R419, R425, R434 and R435 beyond a single operand. -/
def badLengths (p : Nat) (e : Sail) (x : SailRun) : Bool :=
  let op := cmdOp x.word
  let os := operands e x
  let len (k : Nat) := opLen (os.getD k {})
  (match slotLen e x with
    | none => false
    | some n => match op with
      | 0x09 => decide (len 0 ≠ n ∨ len 1 ≠ n)
      | 0x0A => decide (len 0 ≠ n ∨ 2 * n < len 1)
      | 0x26 => decide (len 0 ≠ n ∨ len 2 ≠ n)
      | _ => os.any fun o => decide (opLen o ≠ n)) ||
  (match op with
    | 0x0C => decide (len 0 ≠ ceilDiv x.cap.length 8)
    | 0x0E | 0x0F => decide (len 0 ≠ len 1)
    | 0x20 => !os.isEmpty && decide (len 1 ≠ len 0 ∨ len 2 ≠ len 0 ∨ len 3 ≠ len 0)
    | 0x42 => decide (x.xlen = 0 ∨ 64 < x.xlen ∨
        ((cmdParam x.word = 2 ∨ cmdParam x.word = 4) ∧ !isWide p ∧ 32 < x.xlen))
    | 0x61 | 0x62 | 0x63 | 0x64 | 0x65 => os.any fun o => decide (opLen o ≠ len 0)
    | _ => false) ||
  ((os.zip (seqBytes x)).any fun e => decide (8 * opLen e.1 < e.2))

/-- NO_CONTEXT (R418, R420, R433). -/
def noContext (e : Sail) (x : SailRun) : Bool :=
  let op := cmdOp x.word
  (usesModulus op (cmdParam x.word) && (tfind e.mods (cmdMs x.word)).isNone) ||
    (usesCurve op && (tfind e.curves (cmdCs x.word)).isNone) || (decide (0x61 ≤ op) && decide (e.lane = 0))

/-- Permissions a command needs on the object a source word is bound to (R416). -/
def permsFor (op : Nat) : Nat := if op = 0x40 then 2 ^ 6 else if op = 0x45 then 2 ^ 5 + 2 ^ 14 else 2 ^ 3

/-- The job that issues the command holds a live capability to the object with the permissions (R416). -/
def holdsCap (s : State) (x : SailRun) (object : Nat) : Bool :=
  let caps := x.cap :: match x.job.bind (jobAt s) with
    | some j => [j.cap1, j.cap2]
    | none => []
  x.job.isSome && (objectLen s object).isSome && caps.any fun c =>
    c.tag && decide (c.object = object) && (List.range 16).all fun i => !bit (permsFor (cmdOp x.word)) i || bit c.perms i

/-- NOT_PERMITTED (R416, R425, R435). -/
def notPermitted (s : State) (e : Sail) (x : SailRun) : Bool :=
  let op := cmdOp x.word
  let os := operands e x
  (os.any fun o => !o.dest && (opBinds e o).any fun b => !holdsCap s x b) ||
    (decide (op = 0x0F) && os.any (opSecret e)) || (decide (op = 0x0C) && x.job.isNone) ||
    (isSeqOp op && !algServed op (cmdParam x.word))

/-- BAD_MODULUS (R418, R420): even, or top word 0. -/
def badModulus (e : Sail) (x : SailRun) : Bool :=
  let os := operands e x
  let bad (o : Opnd) := decide (opInt e o 0 (opLen o) % 2 = 0) || decide (opWord e o (opLen o - 1) = 0)
  match cmdOp x.word with
  | 0x01 => os.any bad
  | 0x20 => match os with
    | [p, _, _, n] => bad p || bad n
    | _ => false
  | _ => false

/-- NOT_REDUCED (R419, R431). -/
def notReduced (e : Sail) (x : SailRun) : Bool :=
  let op := cmdOp x.word
  let os := operands e x
  let notBelow (m n : Nat) (o : Opnd) := (List.range o.scale).any fun i => decide (m ≤ opInt e o (n * i) n)
  if usesCurve op then match tfind e.curves (cmdCs x.word) with
    | none => false
    | some c => (os.zip (List.range 4)).any fun o => !o.1.dest && !(decide (op = 0x26 ∧ o.2 = 1)) && notBelow c.p c.n o.1
  else if usesModulus op (cmdParam x.word) ∧ op ≠ 0x0A then match tfind e.mods (cmdMs x.word) with
    | none => false
    | some m => (os.zip (List.range 4)).any fun o => !o.1.dest && !(decide (op = 0x09 ∧ 2 ≤ o.2)) && notBelow m.m m.n o.1
  else if 0x61 ≤ op then
    os.any fun o => !o.dest && (List.range (opSpan o)).any fun w =>
      decide (laneQ e.lane ≤ bits (opWord e o w) 0 32) || decide (laneQ e.lane ≤ bits (opWord e o w) 32 32)
  else if op = 0x20 then match os with
    | [p, a, b, _] => let m := opInt e p 0 (opLen p); notBelow m (opLen p) a || notBelow m (opLen p) b
    | _ => false
  else false

/-- The result decided before start, 0 when the command starts (R422, R423). -/
def preCheck (s : State) (p : Nat) (e : Sail) (x : SailRun) : Nat :=
  let op := cmdOp x.word
  let os := operands e x
  if !sailOps.contains op || bit x.word 11 || decide (bits x.word 13 3 ≠ 0 ∨ bits x.word 24 8 ≠ 0) ||
      !paramOk op (cmdParam x.word) || os.any (·.reserved) then 1
  else if os.any (badOperand p op) || badOverlap os || badLengths p e x then 2
  else if noContext e x then 3
  else if notPermitted s e x then 4
  else if badModulus e x then 5
  else if notReduced e x then 6
  else 0

/-! ### Randomness and hashes (R428 to R430, R437) -/

/-- Random bytes that a command draws, in one generate call; 0 when it draws none (DEDUCED, log 65). -/
def drawLen (e : Sail) (x : SailRun) : Nat :=
  let n := opLen (opnd x.arg0 1 true)
  let alg := cmdParam x.word
  match cmdOp x.word with
  | 0x09 => if blinded e x then 8 else 0
  | 0x0B => 8 * n
  | 0x22 => 8 * n
  | 0x26 => 8 * n + (if blinded e x then 16 + 8 * opLen (opnd x.arg1 1 false) else 0)
  | 0x40 => 64
  | 0x41 => if alg ≤ 4 then 64 else 0
  | 0x42 => 16 * x.xlen
  | 0x43 => 64
  | 0x44 => 32
  | _ => 0

/-- The sequence needs a hash of the bulk lane (R437): EdDSA and lattice signatures, lattice and EdDSA keys, ML-KEM. -/
def needsHash (x : SailRun) : Bool :=
  let alg := cmdParam x.word
  match cmdOp x.word with
  | 0x40 | 0x43 => decide (alg = 3 ∨ alg = 4 ∨ 8 ≤ alg)
  | 0x41 => decide (8 ≤ alg)
  | 0x44 | 0x45 => true
  | _ => false

/-! ### What a command writes (R419 to R434) -/

/-- Attributes that a primitive's result inherits (R414). -/
def inherit (e : Sail) (x : SailRun) (slotSecret : Bool) : SailAttr :=
  let src := (operands e x).filter fun o => !o.dest
  { secret := slotSecret || src.any (opSecret e), bind := (src.flatMap (opBinds e)).head? }

/-- The projective words of a point: x = X / Z, y = Y / Z, T = XY / Z, in Montgomery form, with a given Z
(DEDUCED, log 66). -/
def projWords (addr : Nat) (c : CurveSlot) (z : Nat) (t : Pt) (a : SailAttr) : List (Nat × Nat × SailAttr) :=
  let m (v : Nat) := toMont c.n c.p v
  let w (i v : Nat) := wordsOf (addr + i * c.n) c.n v a
  match t with
  | none => w 0 0 ++ w 1 (m z) ++ w 2 0 ++ w 3 0
  | some (x, y) => w 0 (m (x * z % c.p)) ++ w 1 (m (y * z % c.p)) ++ w 2 (m z) ++ w 3 (m (x * y % c.p * z % c.p))

/-- The point that projective words hold. -/
def projPoint (e : Sail) (c : CurveSlot) (o : Opnd) : Option Pt :=
  let v (i : Nat) := fromMont c.n c.p (opInt e o (i * c.n) c.n)
  if v 2 = 0 then some none
  else (invMod (v 2) c.p).map fun i => some (v 0 * i % c.p, v 1 * i % c.p)

/-- Every word of a projective source names the curve slot at its present set-up count (R426). -/
def ptValid (e : Sail) (cs : Nat) (o : Opnd) : Bool :=
  (List.range (opSpan o)).all fun i => decide ((attrAt e (o.addr + i)).pt = some (cs, tget 0 e.setups cs)) && !o.const

/-- An affine operand. -/
def affine (e : Sail) (o : Opnd) (n : Nat) : Pt := some (opInt e o 0 n, opInt e o n n)

/-- The public key that private material carries (R262). -/
def pubOf (alg : Nat) (material : Bytes) : Bytes :=
  match alg with
  | 0x01 => 4#8 :: slice material 32 64
  | 0x02 => 4#8 :: slice material 48 96
  | 0x05 | 0x06 | 0x07 => slice material 0 (pubLen alg)
  | _ => slice material (privLen alg - pubLen alg) (pubLen alg)

/-- A new private material from random bytes (R262, R434): RSA material as its standard's key generation gives it, the
others a secret and the public key computed from it. -/
def newMaterial (alg : Nat) (rnd : Bytes) : Bytes :=
  let a := [BitVec.ofNat 8 alg]
  if 0x05 ≤ alg ∧ alg ≤ 0x07 then Config.out .genPair [a, rnd] (privLen alg)
  else
    let ec := decide (alg ≤ 2)
    let sk := Config.out .genPair [a, rnd] (privLen alg - pubLen alg + (if ec then 1 else 0))
    sk ++ (Config.out .publicOf [a, sk] (pubLen alg)).drop (if ec then 1 else 0)

/-- A signature under private material (R200), and the parity of R's y for ECDSA. -/
def signature (alg : Nat) (material msg rnd : Bytes) : Bytes :=
  Config.out .sign [[BitVec.ofNat 8 alg], material, msg, rnd] (sigLen alg)
def signParity (alg : Nat) (material msg rnd : Bytes) : Bool :=
  decide (alg ≤ 2) && Config.check .ecdh [[BitVec.ofNat 8 alg], material, msg, rnd]

/-- Whether a signature verifies (R203, R204). -/
def verifies (alg : Nat) (pub sig msg : Bytes) : Bool := Config.check .sign [[BitVec.ofNat 8 alg], pub, sig, msg]

/-- A free nonzero value below `p`. -/
def freeBelow (s : State) (p : Nat) : Nat × State :=
  let (v, s) := freeNat s
  (1 + v % (p - 1), s)

/-- A polynomial's 256 coefficients, and its 128 words. -/
def poly (e : Sail) (o : Opnd) (k : Nat) : List Nat :=
  (List.range 256).map fun i => bits (opWord e o (128 * k + i / 2)) (32 * (i % 2)) 32
def polyWords (addr : Nat) (f : List Nat) (a : SailAttr) : List (Nat × Nat × SailAttr) :=
  (List.range 128).map fun i => (addr + i, f.getD (2 * i) 0 + 2 ^ 32 * f.getD (2 * i + 1) 0, a)

/-- Cycles of a command that starts (R417, R424, R425, R432, R433, R436), with a free number where R436 gives none. -/
def commandCycles (p : Nat) (e : Sail) (x : SailRun) (free : Nat) : Nat :=
  let w := isWide p
  let op := cmdOp x.word
  let os := operands e x
  let len (k : Nat) := opLen (os.getD k {})
  let n := (slotLen e x).getD (len 0)
  let m := costM w n; let a := costA w n
  let ed := (((tfind e.curves (cmdCs x.word)).map (·.edwards)).getD false)
  let change := if isLaneOp op != e.lastWasLane then 16 else 0
  change + match op with
    | 0x01 => 104 + 2 * len 0 * costA w (len 0)
    | 0x02 | 0x03 | 0x06 | 0x07 => m
    | 0x04 | 0x05 => a
    | 0x08 => costInv w n
    | 0x09 => 128 * (len 2 + (if blinded e x then 1 else 0)) * m + 3 * m
    | 0x0A => 2 * m + a
    | 0x0B => 20 + 2 * len 0 + (if cmdParam x.word = 1 then 2 * m + a else 0)
    | 0x0C => 8 + len 0
    | 0x0D | 0x0E => 2 + ceilDiv (opSpan (os.getD 0 {})) 8
    | 0x0F => 2 + ceilDiv (len 0) 8
    | 0x20 =>
      let n := match namedCurve (cmdParam x.word) with
        | some c => c.n
        | none => len 0
      2 * (104 + 2 * n * costA w n) + 2 * costM w n
    | 0x21 => 6 * m + 3 * a
    | 0x22 => costLoad w n
    | 0x23 => costStore w n
    | 0x24 => costDbl w ed n
    | 0x25 => costAdd w ed n
    | 0x26 => costMul w ed (blinded e x) n (len 1)
    | 0x27 => 80 * n * m + 4 * a
    | 0x60 => 16
    | 0x61 | 0x62 | 0x63 | 0x64 | 0x65 => costLane w e.lane op * len 0
    | _ => match costSeq w op (cmdParam x.word) x.xlen with
      | some c => c
      | none =>
        if op = 0x40 then (1 + free) * (match cmdParam x.word with | 8 => 34400 | 9 => 48800 | _ => 65600) else free

/-- r of R428: 64 random bits whose top bit is 1. -/
def blindBy (rnd : Bytes) : Nat := 2 ^ 63 + unle rnd % 2 ^ 63

/-- What a modular, slot or data command does (R418 to R425): result and writes. -/
def primEnd (s : State) (e : Sail) (x : SailRun) : SailEnd :=
  let op := cmdOp x.word
  let os := operands e x
  let o (k : Nat) := os.getD k {}
  let int (k : Nat) := opInt e (o k) 0 (opLen (o k))
  let ms := (tfind e.mods (cmdMs x.word)).getD {}
  let a := inherit e x (usesModulus op (cmdParam x.word) && ms.secret)
  let put (v : Nat) : SailEnd := { writes := wordsOf (o 0).addr (opLen (o 0)) v a }
  match op with
  | 0x01 => { mods := [(cmdMs x.word, { m := int 0, n := opLen (o 0), secret := opSecret e (o 0) })] }
  | 0x02 => put (toMont ms.n ms.m (int 1))
  | 0x03 => put (fromMont ms.n ms.m (int 1))
  | 0x04 => put ((int 1 + int 2) % ms.m)
  | 0x05 => put ((int 1 + ms.m - int 2) % ms.m)
  | 0x06 => put (montMul ms.n ms.m (int 1) (int 2))
  | 0x07 => put (montMul ms.n ms.m (int 1) (int 1))
  | 0x08 => match invMod (fromMont ms.n ms.m (int 1)) ms.m with
    | none => { result := 8 }
    | some i => put (toMont ms.n ms.m i)
  | 0x09 =>
    let x' := int 2 + (if blinded e x then blindBy (slice x.rand 0 8) * int 3 else 0)
    put (toMont ms.n ms.m (powMod ms.m (bitLen x') (fromMont ms.n ms.m (int 1)) x'))
  | 0x0A => put (int 1 % ms.m)
  | 0x0B => put0 (if cmdParam x.word = 1 then unle x.rand % ms.m else unle x.rand)
  | 0x0C => match objectKey s x.cap.object with
    | none => { result := 0xB }
    | some k =>
      { writes := wordsOf (o 0).addr (opLen (o 0)) (unle (slice k.material x.cap.offset x.cap.length))
          { secret := true, bind := some x.cap.object } }
  | 0x0D => { writes := wordsOf (o 0).addr (opLen (o 0)) 0 {} }
  | 0x0E => put (int 1)
  | 0x0F => { flag := decide (int 0 = int 1) }
  | _ => {}
where
  /-- RAND writes SECRET words (R414). -/
  put0 (v : Nat) : SailEnd :=
    let d := opnd x.arg0 1 true
    { writes := wordsOf d.addr (opLen d) v { secret := true } }

/-- CURVE_SET (R420). -/
def curveEnd (e : Sail) (x : SailRun) : SailEnd :=
  let ms := cmdMs x.word
  let os := operands e x
  let o (k : Nat) := os.getD k {}
  let int (k : Nat) := opInt e (o k) 0 (opLen (o k))
  let c : CurveSlot := match namedCurve (bits (cmdParam x.word) 0 3) with
    | some c =>
      { edwards := c.edwards, p := c.p, a := c.a, b := c.b, order := c.order, n := c.n, ms := ms }
    | none =>
      { edwards := bit (cmdParam x.word) 4, p := int 0, a := int 1, b := int 2, order := int 3, n := opLen (o 0), ms := ms }
  { curve := some (cmdCs x.word, c)
    mods := [(ms, { m := c.p, n := c.n, secret := opSecret e (o 0) }),
             ((ms + 1) % 4, { m := c.order, n := c.n, secret := opSecret e (o 3) })] }

/-- What a point command does (R419, R425, R426). A sum that the field gives no inverse for writes free words. -/
def pointEnd (s : State) (e : Sail) (x : SailRun) : SailEnd × State :=
  let op := cmdOp x.word
  let cs := cmdCs x.word
  let c := (tfind e.curves cs).getD {}
  let os := operands e x
  let o (k : Nat) := os.getD k {}
  let a := inherit e x (((tfind e.mods c.ms).map (·.secret)).getD false)
  let proj : SailAttr := { a with pt := some (cs, tget 0 e.setups cs) }
  let free (n : Nat) (b : SailAttr) : SailEnd × State :=
    let (r, s) := freeBytes s (8 * n)
    ({ writes := wordsOfBytes (o 0).addr r b }, s)
  let putProj (r : Option Pt) : SailEnd × State := match r with
    | none => free (4 * c.n) proj
    | some t => let (z, s) := freeBelow s c.p
      ({ writes := projWords (o 0).addr c z t proj }, s)
  let putAffine (r : Option Pt) : SailEnd × State := match r with
    | none => free (2 * c.n) a
    | some t =>
      let v := t.getD (0, 0)
      ({ identity := decide (t = ptZero c)
         writes := wordsOf (o 0).addr c.n v.1 a ++ wordsOf ((o 0).addr + c.n) c.n v.2 a }, s)
  match op with
  | 0x21 => ({ flag := onCurve c (affine e (o 0) c.n) }, s)
  | 0x22 =>
    let t := affine e (o 1) c.n
    if !onCurve c t || (!c.edwards && decide (t = some (0, 0))) then ({ result := 7 }, s)
    else ({ writes := projWords (o 0).addr c (1 + unle x.rand % (c.p - 1)) t proj }, s)
  | 0x23 => if !ptValid e cs (o 1) then ({ result := 7 }, s) else putAffine (projPoint e c (o 1))
  | 0x24 =>
    if !ptValid e cs (o 1) then ({ result := 7 }, s)
    else putProj ((projPoint e c (o 1)).bind fun t => ptAdd c t t)
  | 0x25 =>
    if !ptValid e cs (o 1) || !ptValid e cs (o 2) then ({ result := 7 }, s)
    else putProj ((projPoint e c (o 1)).bind fun t => (projPoint e c (o 2)).bind fun u => ptAdd c t u)
  | 0x26 =>
    let t := affine e (o 2) c.n
    if !onCurve c t || (!c.edwards && decide (t = some (0, 0))) then ({ result := 7 }, s)
    else
      let k := opInt e (o 1) 0 (opLen (o 1)) + (if blinded e x then blindBy (slice x.rand 0 8) * c.order else 0)
      putAffine (ptMul c (bitLen k) k t)
  | _ => match ptDecomp c (opInt e (o 1) 0 c.n) (cmdParam x.word) with
    | none => ({ result := 9 }, s)
    | some v => ({ writes := wordsOf (o 0).addr c.n v.1 a ++ wordsOf ((o 0).addr + c.n) c.n v.2 a }, s)

/-- What a lane command does (R431, R432). -/
def laneEnd (e : Sail) (x : SailRun) : SailEnd :=
  let op := cmdOp x.word
  let os := operands e x
  let o (k : Nat) := os.getD k {}
  let q := laneQ e.lane
  let a := inherit e x false
  let each (f : Nat → List Nat) : SailEnd :=
    { writes := (List.range (opLen (o 0))).flatMap fun k => polyWords ((o 0).addr + 128 * k) (f k) a }
  let zip (f : Nat → Nat → Nat) (k : Nat) := List.zipWith f (poly e (o 1) k) (poly e (o 2) k)
  match op with
  | 0x60 => { lane := some (1 + cmdParam x.word) }
  | 0x61 => each fun k => ntt e.lane (poly e (o 1) k)
  | 0x62 => each fun k => intt e.lane (poly e (o 1) k)
  | 0x63 => each fun k => pwMul e.lane (poly e (o 1) k) (poly e (o 2) k)
  | 0x64 => each (zip fun u v => (u + v) % q)
  | _ => each (zip fun u v => (u + q - v) % q)

/-- Member `k` of a BATCH_VERIFY operand verifies (R434). -/
def memberValid (alg : Nat) (b : Bytes) (k : Nat) : Bool :=
  let r := slice b (k * memberBytes alg) (memberBytes alg)
  let h := if alg ≤ 2 then 1 else 0
  let dl := if alg = 1 then 32 else if alg = 2 then 48 else 64
  verifies alg (slice r 0 (pubLen alg)) (slice r (pubLen alg + h) (sigLen alg)) (slice r (pubLen alg + h + sigLen alg) dl)

/-- What a sequence command does (R434): outputs and their attributes, XLEN. -/
def seqEnd (e : Sail) (x : SailRun) : SailEnd :=
  let alg := cmdParam x.word
  let a := [BitVec.ofNat 8 alg]
  let os := operands e x
  let o (k : Nat) := os.getD k {}
  match cmdOp x.word with
  | 0x40 =>
    let short := decide (os.length = 2)
    let msg := if short then le 4 x.xlen else opBytes e (o 1) (digestLen alg)
    let key := opBytes e (o (if short then 1 else 2)) (privLen alg)
    let sig := signature alg key msg x.rand
    { writes := wordsOfBytes (o 0).addr sig {}, flag := signParity alg key msg x.rand, xlen := some (sigLen alg) }
  | 0x41 =>
    let b := opBytes e (o 0) (sigLen alg + digestLen alg)
    { flag := verifies alg (opBytes e (o 1) (pubLen alg)) (b.take (sigLen alg)) (b.drop (sigLen alg)), xlen := some 0 }
  | 0x42 =>
    let b := opBytes e (o 1) (x.xlen * memberBytes alg)
    let map := ((List.range x.xlen).map fun k => bitAt (memberValid alg b k) k).sum
    { writes := wordsOf (o 0).addr 1 map {}, xlen := some 8 }
  | 0x43 =>
    let m := newMaterial alg x.rand
    { writes := wordsOfBytes (o 0).addr m { secret := true } ++ wordsOfBytes (o 1).addr (pubOf alg m) {}
      xlen := some (privLen alg) }
  | 0x44 =>
    let ek := opBytes e (o 2) (pubLen alg)
    { writes := wordsOfBytes (o 0).addr (Config.out .kemEncaps [a, ek, x.rand] (kemLen alg)) {} ++
        wordsOfBytes (o 1).addr (Config.out .kemShared [a, ek, x.rand] 32) { secret := true }
      xlen := some (kemLen alg) }
  | _ =>
    { writes := wordsOfBytes (o 0).addr
        (Config.out .kemDecaps [a, opBytes e (o 2) (privLen alg), opBytes e (o 1) (kemLen alg)] 32) { secret := true }
      xlen := some 32 }

/-- The end of a command that has started, with its inputs there. -/
def computeEnd (s : State) (e : Sail) (x : SailRun) : SailEnd × State :=
  let op := cmdOp x.word
  if op = 0x20 then (curveEnd e x, s)
  else if usesCurve op then pointEnd s e x
  else if isSeqOp op then (seqEnd e x, s)
  else if isLaneOp op then (laneEnd e x, s)
  else (primEnd s e x, s)

/-! ### Applying an end -/

/-- One word written with its attributes. -/
def writeWord (e : Sail) (w : Nat × Nat × SailAttr) : Sail :=
  { e with
    mem := if e.unspec.isNone then tset 0 e.mem w.1 w.2.1 else tput e.mem w.1 w.2.1
    attr := tset {} e.attr w.1 w.2.2 }

/-- A sequence leaves every word outside its operands with unspecified content (R434): words of its operands are listed,
all others read as free values (DESIGN CHOICE, log 69). -/
def scratch (e : Sail) (x : SailRun) (n : Nat) : Sail :=
  let os := (operands e x).filter fun o => !o.const
  let keep := os.flatMap fun o => (List.range (opSpan o)).map fun i => o.addr + i
  { e with
    mem := keep.foldl (fun m w => tput m w (memWord e w)) []
    attr := e.attr.filter fun a => keep.contains a.1
    unspec := some n }

/-- A command's writes, slots and results (R422, R423, R427). -/
def applyEnd (e : Sail) (x : SailRun) (f : SailEnd) : Sail :=
  let e := f.writes.foldl writeWord e
  let e := match f.curve with
    | none => e
    | some (k, c) => { e with curves := tput e.curves k c, setups := tset 0 e.setups k (tget 0 e.setups k + 1) }
  { e with
    mods := f.mods.foldl (fun m k => tput m k.1 k.2) e.mods
    lane := f.lane.getD e.lane
    lastWasLane := if f.result = 0 then isLaneOp (cmdOp x.word) else e.lastWasLane
    xlen := match f.xlen with
      | some n => w32 n
      | none => e.xlen
    flag := f.flag, identity := f.identity, result := f.result, cycles := sat (2 ^ 32 - 1) f.cycles }

/-! ### Wipes and aborts (R438 to R446) -/

/-- Withdraws an engine's requests to its DRBG and its lane (R445). -/
def withdrawRequests (s : State) (p : Nat) : State :=
  let d := drbgAt s (chanOf p)
  let s := putDrbg s (chanOf p) { d with queue := d.queue.filter fun r => r.for_ ≠ .sail p }
  let l := tget {} s.lanes (chanOf p)
  if l.port = some p then { s with lanes := tset {} s.lanes (chanOf p) { l with port := none } } else s

/-- An engine begins a wipe (R439, R441, R443). -/
def wipeEngine (s : State) (p : Nat) : State := putSail s p (wiped (sailAt s p))

/-- An abort (R444 to R446): the command ends with ABORTED, after cycles that no rule here gives (DESIGN CHOICE, log 119),
requests are withdrawn, a wipe begins. -/
def abortEngine (s : State) (p : Nat) : State :=
  let e := sailAt s p
  let had := e.run.isSome
  let (n, s) := freeNat (withdrawRequests s p)
  let s := putSail s p { wiped e with
    result := 0xB, countAbort := e.countAbort + 1, countCmd := if had then e.countCmd + 1 else e.countCmd
    cycles := if had then n % 2 ^ 32 else e.cycles, levelAfterWipe := e.levelAfterWipe }
  let s := setEvent s p 16
  if e.expert && had then setEvent s p 18 else s

/-- A wipe ends (R441, R442): a word that reads back nonzero repairs its row and repeats the wipe; else the engine is IDLE
and a new LEVEL takes effect (R112). -/
def wipeDone (s : State) (p : Nat) (nonzero : Bool) : State :=
  let e := sailAt s p
  if e.estate ≠ .wiping then s
  else if nonzero then rowRepair (setEvent s p 17) p 0 0
  else
    let s := { s with sig := { s.sig with tables := s.sig.tables.filter fun t => t.engine ≠ p } }
    let e := { wiped e with estate := .idle, countWipe := e.countWipe + 1 }
    match e.levelAfterWipe with
    | none => putSail s p e
    | some lv =>
      let s := putSail s p { e with levelAfterWipe := none, expert := lv, ownerValid := lv }
      let s := modUnit s p fun u => { u with level := lv }
      if lv then s else resetExpert s p

/-! ### Issuing and ending -/

/-- A command is issued to an IDLE engine (R421 to R423, R430, R437): decided before start, or running, waiting for the
DRBG or the lane, or loading a key (DEDUCED, log 68). -/
def issue (s : State) (p : Nat) (x : SailRun) : State :=
  let e := sailAt s p
  let e := { e with overrun := false, hidden := false, flag := false, identity := false, cmd := w32 x.word }
  let r := preCheck s p e x
  if r ≠ 0 then putSail s p { e with estate := .busy, run := some { x with fin := { result := r, cycles := 4 } } }
  else
    let n := drawLen e x
    let x := { x with hashed := !needsHash x }
    if n ≠ 0 then
      let s := putSail s p { e with estate := .waitRand, run := some x }
      let i := match x.job.bind (jobAt s) with
        | some j => (j.inst, j.gen, x.job.getD 0)
        | none => (0x3FF, 0, 0)
      askRand s (chanOf p) { for_ := .sail p, code := 1, inst := i.1, gen := i.2.1, serial := i.2.2, len := n }
    else if !x.hashed then putSail s p { e with estate := .waitLane, run := some x }
    else putSail s p { e with estate := if cmdOp x.word = 0x0C then .loading else .busy, run := some x }

/-- SAIL_COMMAND_END (R422, R423, R427, R448). -/
def endCommand (s : State) (p : Nat) : State :=
  let e := sailAt s p
  match e.run with
  | none => s
  | some x =>
    if e.estate ≠ .busy ∧ e.estate ≠ .loading then s
    else
      let pre := decide (x.fin.result ≠ 0)
      let (f, s) := if pre then (x.fin, s) else computeEnd s e x
      let (c, s) := if pre then (f.cycles, s)
        else let (n, s) := freeNat s; (commandCycles p e x n, s)
      let seq := isSeqOp (cmdOp x.word) && !pre
      let e := if seq then scratch e x s.fresh else e
      let s := if seq then { s with fresh := s.fresh + 1 } else s
      let e := applyEnd e x { f with cycles := c }
      let e := { e with
        run := none, estate := .idle, countCmd := e.countCmd + 1
        countReject := if f.result = 6 ∨ f.result = 7 then e.countReject + 1 else e.countReject }
      let s := putSail s p e
      let s := match x.core with
        | none => s
        | some q =>
          let k := tget {} s.cores q
          { s with cores := tset {} s.cores q { k with ipend := k.ipend ||| 0x20 } }
      let s := if e.expert then setEvent s p 18 else s
      if f.result = 0xA ∨ f.result = 0xB then
        setEvent (putSail s p { wiped e with result := f.result, countAbort := e.countAbort + 1 }) p 16
      else s

/-- An expert register of the engine is reached (R107). -/
def expertReach (s : State) (acc : Acc) (p : Nat) : Bool :=
  reaches s acc p && decide (kindOf p = 0x05 ∨ kindOf p = 0x06) && (unitAt s p).level

/-- A write of SAIL_CMD (R421, R449): dropped with OVERRUN unless the engine is IDLE, RUNNING and at LEVEL 1. -/
def writeSailCmd (s : State) (p : Nat) (word : Word32) : State :=
  let e := sailAt s p
  if !(unitAt s p).level ∨ !(kindOf p = 0x05 ∨ kindOf p = 0x06) then s
  else if e.estate ≠ .idle then putSail s p { e with overrun := true }
  else if !takesWork s p then s
  else issue s p
    { word := word.toNat, arg0 := e.arg0.toNat, arg1 := e.arg1.toNat, arg2 := e.arg2.toNat, arg3 := e.arg3.toNat
      xlen := e.xlen.toNat }

/-- A row of the command table: the command word carries its own code. -/
def sailRow (op : Nat) (p : Nat) (word : Word32) (s : State) : Host.Outcome State Fault Refusal :=
  if cmdOp word.toNat = op then .next (writeSailCmd s p word) else stay s

/-! ### Window (R449, R415) -/

/-- A window access is dropped while the engine is BUSY, WIPING or LOADING (R449). -/
def windowShut (e : Sail) : Bool := decide (e.estate = .busy ∨ e.estate = .wiping ∨ e.estate = .loading)

/-- The next ADDR. -/
def nextAddr (a : Word32) : Word32 := w32 (bitAt (bit a.toNat 16) 16 + (bits a.toNat 0 13 + 1) % 2 ^ 13)

/-- A read of SAIL_MEM_LO or SAIL_MEM_HI (R415, R449): its value and the state after it. -/
def windowRead (s : State) (p : Nat) (hi : Bool) : Nat × State :=
  let e := sailAt s p
  let a := e.memAddr.toNat
  let w := bits a 0 13
  if windowShut e then (0, putSail s p { e with overrun := true })
  else if hi then (e.readHi.toNat, putSail s p { e with memAddr := nextAddr e.memAddr })
  else
    let hid := !bit a 16 && (attrAt e w).secret
    let outside := decide ((if bit a 16 then 256 else memWords p) ≤ w)
    let (r, s) := if outside then freeNat s else (0, s)
    let v := if outside then r % 2 ^ 64 else if hid then 0 else if bit a 16 then constWord w else memWord e w
    (v % 2 ^ 32, putSail s p { e with hidden := e.hidden || hid, readHi := w32 (v / 2 ^ 32) })

/-- A write of SAIL_MEM_LO or SAIL_MEM_HI (R414, R449). -/
def windowWrite (s : State) (p : Nat) (hi : Bool) (v : Word32) : State :=
  let e := sailAt s p
  let a := e.memAddr.toNat
  let w := bits a 0 13
  if windowShut e then putSail s p { e with overrun := true }
  else if !hi then putSail s p { e with heldLo := v }
  else
    let e' := { e with memAddr := nextAddr e.memAddr }
    if bit a 16 ∨ memWords p ≤ w then putSail s p e'
    else putSail s p (writeWord e' (w, e.heldLo.toNat + 2 ^ 32 * v.toNat, {}))

/-! ### Meanings -/

def execSailModSet (page : Nat) (word : Word32) (s : State) : Host.Outcome State Fault Refusal := sailRow 0x01 page word s
def execSailToMont (page : Nat) (word : Word32) (s : State) : Host.Outcome State Fault Refusal := sailRow 0x02 page word s
def execSailFromMont (page : Nat) (word : Word32) (s : State) : Host.Outcome State Fault Refusal := sailRow 0x03 page word s
def execSailAdd (page : Nat) (word : Word32) (s : State) : Host.Outcome State Fault Refusal := sailRow 0x04 page word s
def execSailSub (page : Nat) (word : Word32) (s : State) : Host.Outcome State Fault Refusal := sailRow 0x05 page word s
def execSailMul (page : Nat) (word : Word32) (s : State) : Host.Outcome State Fault Refusal := sailRow 0x06 page word s
def execSailSqr (page : Nat) (word : Word32) (s : State) : Host.Outcome State Fault Refusal := sailRow 0x07 page word s
def execSailInv (page : Nat) (word : Word32) (s : State) : Host.Outcome State Fault Refusal := sailRow 0x08 page word s
def execSailExp (page : Nat) (word : Word32) (s : State) : Host.Outcome State Fault Refusal := sailRow 0x09 page word s
def execSailReduce (page : Nat) (word : Word32) (s : State) : Host.Outcome State Fault Refusal := sailRow 0x0A page word s
def execSailRand (page : Nat) (word : Word32) (s : State) : Host.Outcome State Fault Refusal := sailRow 0x0B page word s
def execSailKeyLoad (page : Nat) (word : Word32) (s : State) : Host.Outcome State Fault Refusal := sailRow 0x0C page word s
def execSailClear (page : Nat) (word : Word32) (s : State) : Host.Outcome State Fault Refusal := sailRow 0x0D page word s
def execSailCopy (page : Nat) (word : Word32) (s : State) : Host.Outcome State Fault Refusal := sailRow 0x0E page word s
def execSailEq (page : Nat) (word : Word32) (s : State) : Host.Outcome State Fault Refusal := sailRow 0x0F page word s
def execSailCurveSet (page : Nat) (word : Word32) (s : State) : Host.Outcome State Fault Refusal := sailRow 0x20 page word s
def execSailPoc (page : Nat) (word : Word32) (s : State) : Host.Outcome State Fault Refusal := sailRow 0x21 page word s
def execSailPload (page : Nat) (word : Word32) (s : State) : Host.Outcome State Fault Refusal := sailRow 0x22 page word s
def execSailPstore (page : Nat) (word : Word32) (s : State) : Host.Outcome State Fault Refusal := sailRow 0x23 page word s
def execSailPdbl (page : Nat) (word : Word32) (s : State) : Host.Outcome State Fault Refusal := sailRow 0x24 page word s
def execSailPadd (page : Nat) (word : Word32) (s : State) : Host.Outcome State Fault Refusal := sailRow 0x25 page word s
def execSailPmul (page : Nat) (word : Word32) (s : State) : Host.Outcome State Fault Refusal := sailRow 0x26 page word s
def execSailPdecomp (page : Nat) (word : Word32) (s : State) : Host.Outcome State Fault Refusal := sailRow 0x27 page word s
def execSailLaneSet (page : Nat) (word : Word32) (s : State) : Host.Outcome State Fault Refusal := sailRow 0x60 page word s
def execSailNtt (page : Nat) (word : Word32) (s : State) : Host.Outcome State Fault Refusal := sailRow 0x61 page word s
def execSailIntt (page : Nat) (word : Word32) (s : State) : Host.Outcome State Fault Refusal := sailRow 0x62 page word s
def execSailPwmul (page : Nat) (word : Word32) (s : State) : Host.Outcome State Fault Refusal := sailRow 0x63 page word s
def execSailPwadd (page : Nat) (word : Word32) (s : State) : Host.Outcome State Fault Refusal := sailRow 0x64 page word s
def execSailPwsub (page : Nat) (word : Word32) (s : State) : Host.Outcome State Fault Refusal := sailRow 0x65 page word s
def execSailSign (page : Nat) (word : Word32) (s : State) : Host.Outcome State Fault Refusal := sailRow 0x40 page word s
def execSailVerify (page : Nat) (word : Word32) (s : State) : Host.Outcome State Fault Refusal := sailRow 0x41 page word s
def execSailBatchVerify (page : Nat) (word : Word32) (s : State) : Host.Outcome State Fault Refusal :=
  sailRow 0x42 page word s
def execSailKeygen (page : Nat) (word : Word32) (s : State) : Host.Outcome State Fault Refusal := sailRow 0x43 page word s
def execSailEncaps (page : Nat) (word : Word32) (s : State) : Host.Outcome State Fault Refusal := sailRow 0x44 page word s
def execSailDecaps (page : Nat) (word : Word32) (s : State) : Host.Outcome State Fault Refusal := sailRow 0x45 page word s

/-- SAIL_COMMAND_END (R422). -/
def execSailCommandEnd (page : Nat) (s : State) : Host.Outcome State Fault Refusal := .next (endCommand s page)

/-- SAIL_ABORT (R444). -/
def execSailAbort (acc : Acc) (page : Nat) (value : Word32) (s : State) : Host.Outcome State Fault Refusal :=
  .next (if expertReach s acc page && decide (value = 0xA5A5) then abortEngine s page else s)

/-- WIPE_COMPLETE (R441). -/
def execWipeComplete (page : Nat) (nonzero : Bool) (s : State) : Host.Outcome State Fault Refusal :=
  .next (wipeDone s page nonzero)

/-- SAIL_MEM_READ (R449). -/
def execSailMemRead (acc : Acc) (page : Nat) (hi : Bool) (s : State) : Host.Outcome State Fault Refusal :=
  if expertReach s acc page then
    let (v, s) := windowRead s page hi
    .next (emit s (.readValue acc (w32 v)))
  else stay s

/-- SAIL_MEM_WRITE (R449). -/
def execSailMemWrite (acc : Acc) (page : Nat) (hi : Bool) (value : Word32) (s : State) : Host.Outcome State Fault Refusal :=
  .next (if expertReach s acc page then windowWrite s page hi value else s)

/-- PORT_HASH_COMPLETE (R437): the bulk lane of the engine's channel delivers the hash and clears its state. -/
def execPortHashComplete (page : Nat) (s : State) : Host.Outcome State Fault Refusal :=
  let e := sailAt s page
  match e.run with
  | none => stay s
  | some x =>
    if e.estate = .waitLane then
      .next (withdrawLane (putSail s page { e with estate := .busy, run := some { x with hashed := true } }))
    else stay s
where
  /-- The lane lets go of the engine's hash context (R437, R494). -/
  withdrawLane (s : State) : State :=
    let l := tget {} s.lanes (chanOf page)
    if l.port = some page then { s with lanes := tset {} s.lanes (chanOf page) { l with port := none } } else s

end Sys2Proof.Machine
end

