-- ==== Sys2Proof/Machine/JobParam.lean ====
section
/-! DEFINITION. The entry of a job and what its fields alone decide: the catalogue, the checks on entry fields, the leaf's
digests (03_rings.md R135 to R137; 04_transaction_jobs.md R175 to R193, R197, R205, R210, R218, R221, R225, R226, R238,
R243, R246, R247). -/

namespace Sys2Proof.Machine

/-! ### Fields of an entry (R135, R136) -/

def eCtrl (e : Bytes) : Nat := field e 0 1
def eOp (e : Bytes) : Nat := field e 2 2
def eTag (e : Bytes) : Nat := field e 4 4
def eBlob (e : Bytes) : Nat := field e 8 8
def eInPtr (e : Bytes) : Nat := field e 16 8
def eInLen (e : Bytes) : Nat := field e 24 4
def eOutCap (e : Bytes) : Nat := field e 28 4
def eOutPtr (e : Bytes) : Nat := field e 32 8
/-- PARAM byte `k`, 40 to 63. -/
def ePar (e : Bytes) (k : Nat) : Nat := field e k 1
def eBlob2 (e : Bytes) : Nat := field e 40 8

def eOwn (e : Bytes) : Bool := bit (eCtrl e) 7
def eFirst (e : Bytes) : Bool := bit (eCtrl e) 6
def eLast (e : Bytes) : Bool := bit (eCtrl e) 5
def eIrq (e : Bytes) : Bool := bit (eCtrl e) 4
def eOrdered (e : Bytes) : Bool := bit (eCtrl e) 3

/-- Reserved bits of R137 are set (DEDUCED, log 17). -/
def badEntry (e : Bytes) : Bool := decide (field e 1 1 ≠ 0) || decide (eCtrl e % 8 ≠ 0)

/-- Ballast buffers that a job needs (R40). -/
def bufNeed (e : Bytes) : Nat := if eInLen e + eOutCap e ≤ 65536 then 1 else 2

/-! ### The catalogue (R175) -/

/-- One row of R175: keys (0 none, 1 one, 2 two, 3 one or inline), reads (0 no, 1 input, 2 blob), buffer output, and
whether the input and result digests are keyed. -/
structure OpRow where
  code : Nat
  keys : Nat
  reads : Nat
  buffer : Bool
  kIn : Bool
  kRes : Bool
  deriving DecidableEq, Repr

/-- The catalogue. -/
def catalogue : List OpRow :=
  [⟨0x0101, 1, 1, true, false, false⟩, ⟨0x0102, 3, 1, false, false, false⟩, ⟨0x0103, 3, 1, false, false, false⟩,
   ⟨0x0104, 1, 2, true, false, false⟩, ⟨0x0201, 2, 1, false, true, false⟩, ⟨0x0202, 2, 1, false, true, false⟩,
   ⟨0x0203, 2, 1, false, true, false⟩, ⟨0x0204, 2, 1, false, true, false⟩, ⟨0x0205, 2, 1, false, true, false⟩,
   ⟨0x0301, 1, 1, false, true, false⟩, ⟨0x0302, 1, 1, false, true, false⟩, ⟨0x0303, 1, 1, false, true, false⟩,
   ⟨0x0304, 1, 1, false, true, false⟩, ⟨0x0305, 1, 1, false, true, false⟩] ++
  [⟨0x0401, 0, 0, true, false, false⟩, ⟨0x0402, 0, 0, true, false, false⟩, ⟨0x0403, 1, 1, true, false, false⟩,
   ⟨0x0404, 1, 2, true, false, false⟩, ⟨0x0405, 2, 2, true, false, false⟩, ⟨0x0406, 1, 2, false, false, false⟩,
   ⟨0x0407, 0, 1, true, false, false⟩, ⟨0x0408, 1, 2, true, false, false⟩, ⟨0x0409, 1, 2, true, false, false⟩,
   ⟨0x040A, 1, 1, true, false, false⟩] ++
  [⟨0x0501, 1, 1, true, true, false⟩, ⟨0x0502, 1, 1, true, false, true⟩, ⟨0x0503, 1, 1, false, true, false⟩,
   ⟨0x0504, 1, 1, false, false, true⟩, ⟨0x0505, 0, 1, true, false, false⟩, ⟨0x0601, 0, 0, true, false, true⟩,
   ⟨0x0602, 0, 0, true, false, false⟩, ⟨0x0603, 0, 0, false, false, false⟩]

/-- The row of an opcode. -/
def opRow (code : Nat) : Option OpRow := catalogue.find? fun r => r.code = code

/-! ### PARAM bytes (R181 and each opcode's section) -/

/-- PARAM bytes that the opcode names for this entry; every other byte must be 0. -/
def usedBytes (e : Bytes) : List Nat :=
  let upto (a n : Nat) := (List.range n).map (a + ·)
  match eOp e with
  | 0x0101 => [41, 42, 43, 44, 48]
  | 0x0102 => upto 40 9 ++ (if eBlob e = 0 then [52, 53] else [])
  | 0x0103 => [40, 41, 42, 49]
  | 0x0104 => upto 40 16
  | 0x0201 => upto 40 11
  | 0x0202 | 0x0203 => upto 40 9 ++ [50, 51]
  | 0x0204 => upto 40 24
  | 0x0205 => upto 40 22
  | 0x0301 => upto 40 14
  | 0x0302 | 0x0303 =>
    upto 40 15 ++ (if ePar e 54 = 1 then [55, 56] else if ePar e 54 = 2 then upto 57 5 else [])
  | 0x0304 | 0x0305 => [40, 41, 42]
  | 0x0401 | 0x0409 | 0x040A => upto 40 7 ++ [48, 49]
  | 0x0402 | 0x0407 => [40, 42, 43]
  | 0x0405 => upto 40 8
  | 0x0501 | 0x0502 => upto 40 8
  | 0x0503 | 0x0504 => upto 40 4 ++ upto 44 (min (ePar e 43) 16)
  | 0x0505 => if 0x21 ≤ ePar e 40 then 40 :: upto 44 4 else [40]
  | 0x0602 => upto 40 8
  | _ => []

/-- A reserved PARAM byte is not 0 (R181). -/
def reservedSet (e : Bytes) : Bool :=
  ((List.range 24).map (40 + ·)).any fun k => !(usedBytes e).contains k && decide (ePar e k ≠ 0)

/-- Pointers and ALG of R179. -/
def badPointers (r : OpRow) (e : Bytes) : Bool :=
  match r.keys with
  | 0 => decide (eBlob e ≠ 0)
  | 1 => decide (eBlob e = 0)
  | 2 => decide (eBlob e = 0 ∨ eBlob2 e = 0)
  | _ => decide ((eBlob e = 0) = (ePar e 40 = 0))

def isEcdsa (a : Nat) : Bool := decide (a = 1 ∨ a = 2)
def isRsa (a : Nat) : Bool := decide (5 ≤ a ∧ a ≤ 7)
def isMlDsa (a : Nat) : Bool := decide (8 ≤ a ∧ a ≤ 10)
def isKem (a : Nat) : Bool := decide (11 ≤ a ∧ a ≤ 13)

/-- FORM, HASH, PAD, CTX_LEN, RHINT and ENC against an algorithm (R197): true when one does not fit. -/
def sigParamBad (a : Nat) (e : Bytes) : Bool :=
  ((decide (ePar e 41 ≠ 0) || decide (ePar e 42 ≠ 0)) && !(isEcdsa a || isRsa a)) || (decide (ePar e 43 ≠ 0) && !isRsa a) ||
    (decide (ePar e 44 ≠ 0) && !(decide (a = 4) || isMlDsa a)) || (decide (ePar e 45 ≠ 0) && !isEcdsa a) ||
    (decide (ePar e 48 ≠ 0) && !isEcdsa a)

/-- Lengths an inline key may have (R202, R229). -/
def keyLens (a : Nat) : List Nat := pubLen a :: (if a = 1 then [33] else if a = 2 then [49] else [])

/-- Digest length of FORM 1 (R198). -/
def formLen (alg hash : Nat) : Nat :=
  match hash with
  | 0 => if alg = 2 then 48 else 32
  | 1 => 32
  | 2 => 48
  | _ => 64

def pinFormat (f : Nat) : Bool := decide (f = 0 ∨ f = 1 ∨ f = 3 ∨ f = 4)

/-- Bytes of a PIN block of a format (R211). -/
def pinBlockLen (f : Nat) : Nat := if f = 4 then 16 else 8

/-- PAN_LEN of R210, R212. -/
def panLenBad (e : Bytes) (fs : List Nat) : Bool :=
  let n := ePar e 50
  !(decide (n = 0 ∨ (12 ≤ n ∧ n ≤ 19))) || (decide (n = 0) && fs.any fun f => decide (f ≠ 1))

/-- Modes of use and exportability letters of X9.143 that R253 accepts. -/
def modeLetters : List Nat := "EDBGVCX".toList.map code1
def exportLetters : List Nat := "ENS".toList.map code1

/-- The template of R226. -/
def templateBad (e : Bytes) : Bool :=
  let alg := ePar e 42
  let kb := field e 48 2
  !(blockUsages.contains (unbe (slice e 40 2))) || !modeLetters.contains (ePar e 43) || !exportLetters.contains (ePar e 46) ||
    !(decide (alg = code1 'A' ∧ (kb = 128 ∨ kb = 192 ∨ kb = 256)) || decide (alg = code1 'T' ∧ (kb = 128 ∨ kb = 192)))

/-- Hash codes of HASH and their digest lengths (R246); 0 for SHAKE, whose length is XOF_LEN. -/
def hashLen (a : Nat) : Option Nat :=
  ([(0x01, 28), (0x02, 32), (0x03, 48), (0x04, 64), (0x05, 32), (0x11, 32), (0x12, 48), (0x13, 64), (0x21, 0), (0x22, 0)].find?
    fun (h : Nat × Nat) => h.1 = a).map (·.2)

/-- Output length of a HASH job. -/
def hashOut (e : Bytes) : Nat := if 0x21 ≤ ePar e 40 then field e 44 4 else (hashLen (ePar e 40)).getD 0

/-- Codes and fixed ranges of the PARAM bytes, decided by the entry alone (R185 item 3): 0x1007. -/
def paramBad (e : Bytes) : Bool :=
  let p := ePar e
  match eOp e with
  | 0x0101 => decide (1 < p 41 ∨ 3 < p 42 ∨ 1 < p 43 ∨ 1 < p 48)
  | 0x0102 =>
    decide (1 < p 41 ∨ 3 < p 42 ∨ 1 < p 43 ∨ 1 < p 48 ∨ ¬ (p 45 = 0 ∨ p 45 = 2 ∨ p 45 = 3) ∨ 10 < p 40) ||
      (decide (eBlob e = 0) && sigParamBad (p 40) e)
  | 0x0103 =>
    decide (1 < p 41 ∨ 3 < p 42 ∨ p 49 = 0 ∨ 64 < p 49 ∨ 4 < p 40) ||
      (decide (eBlob e = 0) && (decide (p 41 ≠ 0) || decide (p 42 ≠ 0)) && !isEcdsa (p 40))
  | 0x0201 => !pinFormat (p 48) || !pinFormat (p 49) || panLenBad e [p 48, p 49]
  | 0x0202 | 0x0203 => !pinFormat (p 48) || panLenBad e [p 48] || decide (p 51 < 4 ∨ 12 < p 51)
  | 0x0204 => decide (p 48 ≠ 4) || !pinFormat (p 49) || panLenBad e [p 48, p 49] || decide (p 51 < 2 ∨ 4 < p 51)
  | 0x0205 =>
    !(decide (p 48 = 0 ∨ p 48 = 1 ∨ p 48 = 3)) || !pinFormat (p 49) || panLenBad e [p 48, p 49] || decide (p 51 ≠ 0)
  | 0x0301 | 0x0302 | 0x0303 =>
    decide (p 50 < 12 ∨ 19 < p 50 ∨ 2 < p 52 ∨ 1 < p 53 ∨ 9 < p 51 % 16 ∨ 9 < p 51 / 16) ||
      (decide (eOp e ≠ 0x0301) && decide (p 54 = 0 ∨ 2 < p 54 ∨ (p 54 = 2 ∧ 8 < p 61)))
  | 0x0304 | 0x0305 => decide (p 40 < 4 ∨ 32 < p 40 ∨ 2 < p 41 ∨ 3 < p 42)
  | 0x0401 => templateBad e
  | 0x0402 => decide (p 40 = 0 ∨ 13 < p 40 ∨ 16 ≤ field e 42 2)
  | 0x0407 => decide (p 40 = 0 ∨ 13 < p 40) || !(decide (field e 42 2 = 0 ∨ field e 42 2 = 2 ∨ field e 42 2 = 4 ∨ field e 42 2 = 6))
  | 0x0409 | 0x040A => templateBad e || decide (p 42 ≠ code1 'A' ∨ field e 48 2 ≠ 256)
  | 0x0501 | 0x0502 =>
    let m := p 40
    let aead := decide (m = 4 ∨ m = 5)
    let gen := bit (p 43) 0
    decide (m = 0 ∨ 5 < m ∨ 1 < p 43) || (gen && !(decide (eOp e = 0x0501 ∧ m = 4))) ||
      (if m = 4 then decide (p 41 < 12 ∨ 16 < p 41) else if m = 5 then decide (p 41 ≠ 16) else decide (p 41 ≠ 0)) ||
      (if gen then decide (p 42 ≠ 0) else match m with
        | 1 => decide (p 42 ≠ 0)
        | 2 => decide (p 42 ≠ 8 ∧ p 42 ≠ 16)
        | 3 => decide (p 42 ≠ 16)
        | _ => decide (p 42 ≠ 12)) || (!aead && decide (field e 44 4 ≠ 0))
  | 0x0503 | 0x0504 => decide (8 < p 40 ∨ 4 < p 41 ∨ 1 < p 42 ∨ 16 < p 43)
  | 0x0505 => (hashLen (p 40)).isNone || (decide (0x21 ≤ p 40) && decide (field e 44 4 = 0 ∨ 65536 < field e 44 4))
  | _ => false

/-- Bytes that precede the data of ENCRYPT and DECRYPT, and the tag after it (R239). -/
def encHead (e : Bytes) : Nat := ePar e 42 + field e 44 4
def encTail (e : Bytes) : Nat := if eOp e = 0x0502 then ePar e 41 else 0

/-- Lengths decided by the entry alone (R180, R185 item 3): 0x1008. -/
def lengthBad (r : OpRow) (e : Bytes) : Bool :=
  let p := ePar e
  (!r.buffer && decide (eOutCap e ≠ 0)) || (decide (r.reads ≠ 1) && decide (eInLen e ≠ 0)) ||
  match eOp e with
  | 0x0101 => decide (eInLen e < p 44)
  | 0x0102 =>
    let head := field e 52 2 + p 44 + field e 46 2
    decide (eInLen e < head) || (decide (eBlob e = 0) && (!(keyLens (p 40)).contains (field e 52 2) ||
      decide ((p 48 = 0 ∧ field e 46 2 ≠ sigLen (p 40)) ∨ (p 41 = 1 ∧ eInLen e - head ≠ formLen (p 40) (p 42)))))
  | 0x0201 => decide (eInLen e ≠ pinBlockLen (p 48) + p 50)
  | 0x0202 => decide (eInLen e ≠ pinBlockLen (p 48) + p 50 + 16 + p 51)
  | 0x0203 => decide (eInLen e ≠ pinBlockLen (p 48) + p 50 + 16)
  | 0x0204 | 0x0205 => decide (eInLen e ≠ pinBlockLen (p 48) + p 50)
  | 0x0301 => decide (eInLen e < p 50)
  | 0x0302 | 0x0303 => decide (eInLen e < p 50 + p 61)
  | 0x0305 => decide (eInLen e < p 40)
  | 0x0407 => decide (p 40 ≤ 4 ∧ eInLen e ≠ pubLen (p 40))
  | 0x0501 | 0x0502 =>
    decide (eInLen e < encHead e + encTail e) ||
      (decide ((eOp e = 0x0502 ∧ (p 40 = 4 ∨ p 40 = 5)) ∨ p 40 = 5) && decide (65536 < eInLen e + eOutCap e))
  | 0x0503 | 0x0504 => decide (eInLen e < 12 ∨ 19 < eInLen e ∨ eInLen e < p 40 + p 41 + 6)
  | 0x0505 => decide (hashOut e ≤ 44 ∧ eOutCap e ≠ 0)
  | 0x0601 => decide (eOutCap e = 0 ∨ 65536 < eOutCap e)
  | _ => false

/-- The status that the entry's fields alone decide, 0 when none (R176, R185 items 2 and 3). -/
def entryStatus (e : Bytes) : Nat :=
  match opRow (eOp e) with
  | none => 0x1001
  | some r =>
    if badPointers r e || reservedSet e || paramBad e then 0x1007
    else if lengthBad r e then 0x1008
    else 0

/-- Blobs that the job reads. -/
def blobCount (e : Bytes) : Nat :=
  match opRow (eOp e) with
  | none => 0
  | some r => match r.keys with
    | 0 => 0
    | 1 => 1
    | 2 => 2
    | _ => if eBlob e = 0 then 0 else 1

/-! ### Digests of the leaf (R190 to R193) -/

/-- The entry image (R191). -/
def entryImage (e : Bytes) : Bytes :=
  let two := blobCount e = 2
  slice e 2 6 ++ slice e 24 8 ++ (if two then zeros 8 ++ slice e 48 16 else slice e 40 24)

/-- A P or K digest, its first 16 bytes (R192). -/
def auditDigest (keyed : Bool) (key : BitVec 256) (b : Bytes) : Bytes :=
  if keyed then Config.out .hmac [[2#8], key32 key, b] 16 else Config.out .sha256 [b] 16

/-- The key fingerprint (R190). -/
def keyFp (j : Job) : Bytes :=
  let d1 := hashBytes (sha256 j.blob1)
  match blobCount j.entry with
  | 0 => zeros 12
  | 1 => if j.blob1Done then d1.take 12 else zeros 12
  | _ =>
    if !j.blob1Done then zeros 12
    else (hashBytes (sha256 (d1 ++ if j.blob2Done then hashBytes (sha256 j.blob2) else zeros 32))).take 12

/-- RESULT bytes of a completion, 44 of them (R161, R164). -/
def resultBytes (j : Job) : Bytes := pad 44 j.result

/-- Input and result digests (R192, R193). -/
def inDigest (key : BitVec 256) (j : Job) : Bytes :=
  auditDigest (((opRow (eOp j.entry)).map (·.kIn)).getD true) key (entryImage j.entry ++ j.input)
def resDigest (key : BitVec 256) (j : Job) : Bytes :=
  auditDigest (((opRow (eOp j.entry)).map (·.kRes)).getD true) key
    (le 2 j.status ++ le 4 j.outLen ++ resultBytes j ++ j.out)

/-- A built leaf, POSITION, SEQ, TSTATE and CATCHUP still open (R370, R374). -/
def buildLeaf (s : State) (j : Job) (chan member : Nat) (forwarded : Bool) : Bytes :=
  let op := eOp j.entry
  let known := (opRow op).isSome
  let key := (logAt s j.inst).digestKey
  zeros 13 ++ [BitVec.ofNat 8 j.gen] ++ ident j.inst 0 0 0 ++
    [BitVec.ofNat 8 (if known then 16 * (bits op 8 4) + op % 16 else 0),
     BitVec.ofNat 8 (16 * (j.status / 4096) + j.status % 16)] ++
    le 2 (chan + 2 ^ 6 * member + bitAt forwarded 15) ++ keyFp j ++ inDigest key j ++ resDigest key j

end Sys2Proof.Machine
end

