-- ==== Sys2Proof/Machine/Rings.lean ====
section
/-! DEFINITION. Rings and intakes: reading entries, taking entries and chains, ballast, ring registers, Bus Master Enable
and MSI-X (03_rings.md; R40 to R57 of 01_unit_tree_and_transaction_path.md). -/

namespace Sys2Proof.Machine

/-! ### Ballast (R40 to R50) -/

/-- Every ballast buffer that a job holds. -/
def heldBufs (s : State) : List Nat := s.jobs.flatMap fun e => e.2.bufs

/-- Buffers charged to the reserve (R43). -/
def reserveHeld (s : State) : Nat := (s.jobs.map fun e => e.2.fromReserve).sum

/-- Free buffers of the general pool and of the reserve (BAL_FREE). -/
def freeGeneral (s : State) : Nat := 352 - s.ballast.withdrawn.length - ((heldBufs s).length - reserveHeld s)
def freeReserve (s : State) : Nat := 32 - reserveHeld s

/-- Buffers held by an instance's jobs, of every generation (INST_USE.BALLAST). -/
def instHeld (s : State) (i : Nat) : Nat := ((s.jobs.filter fun e => decide (e.2.inst = i)).map fun e => e.2.bufs.length).sum

/-- The `n` lowest-numbered free buffers. -/
def pickBufs (s : State) (n : Nat) : List Nat :=
  let held := heldBufs s
  ((List.range 384).filter fun b => !held.contains b && !s.ballast.withdrawn.contains b).take n

/-- Jobs of a ring under the current generation that have no completion yet (R126, R143); jobs received from other members
stand in no ring of this device. -/
def ringJobs (s : State) (k : Nat) : List (Nat × Job) :=
  s.jobs.filter fun e => decide (e.2.inst = k / 16 ∧ e.2.ring = k % 16 ∧ e.2.gen = (instAt s e.2.inst).gen ∧ e.2.origin = none)

/-- RING_STATUS.IDLE (R126). -/
def ringIdle (s : State) (k : Nat) : Bool := (ringJobs s k).isEmpty

/-! ### Beginning a job -/

/-- Step 4 of R58 begins: the checks of R185 items 1 to 3 on the entry alone, then the first read the job needs. A job received over the bridle has all it needs (R67). -/
def beginStep4 (s : State) (n : Nat) : State :=
  match jobAt s n with
  | none => s
  | some j =>
    if j.origin.isSome then modJob s n fun j => { j with phase := .handoff }
    else if badEntry j.entry then failJob s n 0x1003
    else if entryStatus j.entry ≠ 0 then failJob s n (entryStatus j.entry)
    else
      let ph := if blobCount j.entry ≠ 0 then Phase.readHead 0 else if eInLen j.entry ≠ 0 then .readInput else .handoff
      modJob s n fun j => { j with phase := ph }

/-- An entry taken earlier from the same ring has no completion yet (R158). -/
def earlierWaits (s : State) (n : Nat) (j : Job) : Bool :=
  (ringJobs s (ringKey j.inst j.ring)).any fun e => decide (e.1 < n ∧ e.2.first ≠ j.first)

/-- The FIRST member of a taken entry or chain goes on unless R158 holds it. -/
def releaseFirst (s : State) (n : Nat) : State :=
  match jobAt s n with
  | none => s
  | some j =>
    if j.phase ≠ .taken ∨ n ≠ j.first then s
    else if eOrdered j.entry && earlierWaits s n j then s
    else beginStep4 s n

/-! ### Taking (R137, R145 to R149, R42 to R46) -/

/-- 0x1002 for entries that form no chain (R147). -/
def chainStatus (es : List Bytes) : Nat :=
  if (es.head?.map eFirst).getD false && (es.getLast?.map eLast).getD false then 0 else 0x1002

/-- Ballast need of entries taken together (R40, R148): none for entries that are not executed. -/
def takeNeed (es : List Bytes) : Nat :=
  if chainStatus es ≠ 0 then 0
  else match es with
    | [e] => if badEntry e then 0 else bufNeed e
    | _ => (es.map bufNeed).sum

/-- The jobs of a take, numbered from `n`; each member with its buffers from the list, in order. -/
def takeJobs (k gen head size first len st : Nat) : Nat → List Bytes → List Nat → List (Nat × Job)
  | _, [], _ => []
  | m, e :: es, bufs =>
    let need := if st ≠ 0 ∨ bufs.isEmpty then 0 else bufNeed e
    let j : Job :=
      { inst := k / 16, ring := k % 16, index := (head + m) % size, gen := gen
        first := if st = 0x1002 ∨ st = 0x1004 ∧ len = 1 then first + m else first
        members := if st = 0x1002 then 1 else len
        entry := e, bufs := bufs.take need, status := st, phase := if st = 0 then .taken else .final }
    (first + m, j) :: takeJobs k gen head size first len st (m + 1) es (bufs.drop need)

/-- Takes entries of ring `k` by the intake of channel `c`: RING_HEAD advances, buffers are acquired, the ring goes to the
end of the round (R42, R53, R55, R146, R149). -/
def takeNow (s : State) (c k : Nat) (es : List Bytes) (st : Nat) : State :=
  let r := ringAt s k
  let need := if st = 0 then takeNeed es else 0
  let first := s.nextSerial
  let js := takeJobs k (instAt s (k / 16)).gen r.head (2 ^ r.log2) first es.length st 0 es (pickBufs s need)
  let t := intakeAt s c
  let s := { s with
    jobs := js.foldl (fun t j => tput t j.1 j.2) s.jobs, nextSerial := first + es.length
    ballast := { s.ballast with acquired := s.ballast.acquired + (if need = 0 then 0 else 1) } }
  let s := putRing s k { r with head := (r.head + es.length) % 2 ^ r.log2, readSoFar := [], waitBallast := false }
  let s := putIntake s c { t with
    scan := t.scan.filter (· ≠ k) ++ [k], waitBallast := false, quotaSkip := false, taken := t.taken + 1 }
  releaseFirst s first

/-- The intake passes on to the next ring of its round, with nothing of this one taken (R45, R55). -/
def rotate (s : State) (c k : Nat) : State :=
  let t := intakeAt s c
  putIntake (dropTake s k) c { t with scan := t.scan.filter (· ≠ k) ++ [k], waitBallast := false }

/-- A complete entry or chain is ready to be taken: R149, R45, R46, then the take (DEDUCED, log 16). -/
def takeOrWait (s : State) (c k : Nat) (es : List Bytes) : State :=
  let x := instAt s (k / 16)
  let need := takeNeed es
  let held := instHeld s (k / 16)
  let st := if chainStatus es ≠ 0 then chainStatus es else if x.ballast < need then 0x1004 else 0
  let want := if st = 0 then need else 0
  let waiting := s.intakes.any fun e => e.2.waitBallast && decide (e.1 ≠ c)
  if x.ballast ≤ held ∨ x.ballast < held + want then
    let s := rotate s c k
    noteStall (putIntake s c { intakeAt s c with quotaSkip := true })
  else if waiting || decide (freeGeneral s < want) then
    let r := ringAt s k
    let t := intakeAt s c
    if t.waitBallast then s
    else
      let s := putRing s k { r with readSoFar := es, waitBallast := true }
      let s := putIntake s c { t with waitBallast := true }
      let s := { s with ballast := { s.ballast with waits := s.ballast.waits + 1 } }
      noteStall (setEvent s (chanPage c + 11) 17)
  else noteStall (takeNow s c k es st)

/-- A ring enters ERROR (R129, R171, R172, R659 of 15). -/
def ringError (s : State) (k cause index : Nat) : State :=
  let s := dropTake s k
  let r := ringAt s k
  let t := intakeAt s r.intake
  let s := putIntake s r.intake { t with scan := t.scan.filter (· ≠ k) }
  let s := putRing s k { r with error := true, cause := cause, faultIndex := index, rescan := false }
  dpEvent (sendMsix s (k / 16) 16) (k / 16) 0

/-- The scan of ring `k` ends at an entry that is not owned (R53), unless a doorbell came meanwhile (R54). -/
def stopScan (s : State) (c k : Nat) : State :=
  let s := dropTake s k
  let r := ringAt s k
  let t := intakeAt s c
  if r.rescan then
    putIntake (putRing s k { r with rescan := false }) c { t with scan := t.scan.filter (· ≠ k) ++ [k], scans := t.scans + 1 }
  else putIntake s c { t with scan := t.scan.filter (· ≠ k) }

/-- The entry is owned by the device for a scan (R143, R146). -/
def owned (s : State) (k index : Nat) (e : Bytes) : Bool :=
  eOwn e && !(ringJobs s k).any fun j => decide (j.2.index = index)

/-- The intake of channel `c` takes entries: it and the units above it take work (R102 of 02), and the key cache is neither
FAULTED (R104 of 02) nor at LEVEL 1 (R284 of 05). -/
def intakeTakes (s : State) (c : Nat) : Bool :=
  takesWork s (chanPage c + 11) && takesWork s (chanPage c) && takesWork s (0x090 + halfOf c) && takesWork s 0 &&
    decide ((unitAt s 0x081).state ≠ .faulted) && !(unitAt s 0x081).level

/-- The read of an entry ends (R53, R140, R145 to R147, R172): the ring at the front of the intake's round. -/
def entryRead (s : State) (c : Nat) (ok : Bool) (data : Bytes) : State :=
  match (intakeAt s c).scan with
  | [] => s
  | k :: _ =>
    let r := ringAt s k
    let index := (r.head + r.readSoFar.length) % 2 ^ r.log2
    if !intakeTakes s c ∨ r.waitBallast then s
    else if !ringActive s k then stopScan (putRing s k { r with rescan := false }) c k
    else if !takesWork s (instPage (k / 16)) || !takesWork s (1 + (instAt s (k / 16)).port) ||
        !(logAt s (k / 16)).everEnabled then rotate s c k
    else if !ok then ringError s k 1 index
    else
      let e := pad 64 data
      if !owned s k index e then stopScan s c k
      else match r.readSoFar with
        | [] => if eFirst e && !eLast e then putRing s k { r with readSoFar := [e] } else takeOrWait s c k [e]
        | es =>
          if eFirst e then takeOrWait s c k es
          else if eLast e ∨ es.length = 63 then takeOrWait s c k (es ++ [e])
          else putRing s k { r with readSoFar := es ++ [e] }

/-! ### Ring registers (R121 to R132) -/

/-- The page of a ring that is allocated (R116). -/
def ringThere (s : State) (i r : Nat) : Bool := decide (r < 16) && (ringAt s (ringKey i r)).pool.isSome

/-- RING_BASE_LO, RING_BASE_HI and RING_SIZE (R128). -/
def writeRingConfig (s : State) (k offset : Nat) (v : Word32) : State :=
  let r := ringAt s k
  if r.enable || !ringIdle s k then s
  else match offset with
    | 0x000 => putRing s k { r with baseLo := v &&& 0xFFFFF000#32, head := 0 }
    | 0x004 => putRing s k { r with baseHi := v, head := 0 }
    | 0x008 => putRing s k { r with log2 := v.toNat % 32, head := 0 }
    | _ => s

/-- Bus address of a ring (R119). -/
def ringBase (r : Ring) : Nat := r.baseLo.toNat + 2 ^ 32 * r.baseHi.toNat

/-- RING_STATUS.ENABLE from 0 to 1 (R129, R130). -/
def enableRingPage (s : State) (k : Nat) : State :=
  let r := ringAt s k
  if r.enable then s
  else
    let s := putRing s k { r with enable := true, error := false, cause := 0, faultIndex := 0 }
    if 6 ≤ r.log2 ∧ r.log2 ≤ 16 ∧ ringBase r + 64 * 2 ^ r.log2 ≤ 2 ^ 64 then wakeRing s k else ringError s k 2 0

/-- RING_STATUS.ENABLE from 1 to 0 (R131). -/
def disableRingPage (s : State) (k : Nat) : State :=
  if !(ringAt s k).enable then s
  else
    let s := dropTake s k
    let r := ringAt s k
    let t := intakeAt s r.intake
    putRing (putIntake s r.intake { t with scan := t.scan.filter (· ≠ k) }) k { r with enable := false, rescan := false }

/-- Bus Master Enable of a virtual function (R130, R133). -/
def writeBme (s : State) (i : Nat) (on : Bool) : State :=
  let x := instAt s i
  let s := putInst s i { x with bme := on }
  if on && !x.bme then (ringsOf s i).foldl wakeRing s else s

/-- An MSI-X entry is unmasked: the message that it held pending is sent (R169). -/
def unmask (s : State) (func entry : Nat) : State :=
  let m := msixAt s func entry
  let s := { s with msix := tset {} s.msix (32 * func + entry) { m with masked := false, pending := false } }
  if m.masked && m.pending then emit s (.msix func entry m.addr m.data) else s

/-! ### Meanings -/

/-- RING_DOORBELL (R53, R54, R116, R124, R130, R865 of 22). -/
def execRingDoorbell (inst ring : Nat) (s : State) : Host.Outcome State Fault Refusal :=
  .next (if ringThere s inst ring && ringActive s (ringKey inst ring) then wakeRing (wakeIdle s) (ringKey inst ring) else s)

/-- ENTRY_READ_COMPLETE (R140). -/
def execEntryReadComplete (chan : Nat) (ok : Bool) (data : Bytes) (s : State) : Host.Outcome State Fault Refusal :=
  .next (entryRead s chan ok data)

/-- One waiting intake tries again (R48). -/
def retake (s : State) (c : Nat) : State :=
  match (intakeAt s c).scan with
  | [] => s
  | k :: _ =>
    let r := ringAt s k
    if !r.waitBallast ∨ !intakeTakes s c then s
    else
      let need := takeNeed r.readSoFar
      if (instAt s (k / 16)).ballast < instHeld s (k / 16) + need then rotate s c k
      else if freeGeneral s < need then s
      else takeNow { s with ballast := { s.ballast with nextIntake := (c + 1) % 34 } } c k r.readSoFar
        (chainStatus r.readSoFar)

/-- BALLAST_WAIT_END (R48): the waiting intakes in round-robin order of channel number, until one cannot be served. -/
def ballastWaitEnd (s : State) : State :=
  let order := (List.range 34).map fun i => (s.ballast.nextIntake + i) % 34
  (order.foldl (fun (a : State × Bool) c =>
    if a.2 && (intakeAt a.1 c).waitBallast then
      let s' := retake a.1 c
      (s', !(intakeAt s' c).waitBallast)
    else a) (s, true)).1

/-- ORDERED_RELEASE (R158). -/
def execOrderedRelease (job : Nat) (s : State) : Host.Outcome State Fault Refusal := .next (releaseFirst s job)

/-- RING_CONFIG_WRITE (R128). -/
def execRingConfigWrite (inst ring offset : Nat) (value : Word32) (s : State) : Host.Outcome State Fault Refusal :=
  .next (if ringThere s inst ring then writeRingConfig s (ringKey inst ring) offset value else s)

/-- RING_ENABLE (R129). -/
def execRingEnable (inst ring : Nat) (s : State) : Host.Outcome State Fault Refusal :=
  .next (if ringThere s inst ring then enableRingPage s (ringKey inst ring) else s)

/-- RING_DISABLE (R131). -/
def execRingDisable (inst ring : Nat) (s : State) : Host.Outcome State Fault Refusal :=
  .next (if ringThere s inst ring then disableRingPage s (ringKey inst ring) else s)

/-- BUS_MASTER_ENABLE_CHANGE (R133). -/
def execBusMasterEnableChange (inst : Nat) (on : Bool) (s : State) : Host.Outcome State Fault Refusal :=
  .next (if inst < 1024 then writeBme s inst on else s)

/-- MSIX_UNMASK (R169). -/
def execMsixUnmask (func entry : Nat) (s : State) : Host.Outcome State Fault Refusal := .next (unmask s func entry)

end Sys2Proof.Machine
end

