-- ==== Sys2Proof/Machine/JobPath.lean ====
section
/-! DEFINITION. The path of one audited transaction: reads of step 4, hand-off, key lookup and unwrap of step 5, result,
completion (R56 to R65 of 01_unit_tree_and_transaction_path.md; R150 to R170 of 03_rings.md; R185 to R195 of
04_transaction_jobs.md; R265, R266, R279 to R281 of 05_key_blobs_and_cache.md; R339 to R342, R359, R367 of 07). -/

namespace Sys2Proof.Machine

/-! ### Keys that an opcode takes (R194, R195, R209, R220, R232, R481, R483) -/

/-- Usages with the algorithms each allows, and the modes of use, of key `which` of an opcode (R194). -/
def blockNeed (op which : Nat) : Option (List (Nat × List Char) × List Char) :=
  let p0 (m : List Char) := some ([(code2 "P0", ['A', 'T'])], m)
  let mac (m : List Char) := some
    ([(code2 "M1", ['T']), (code2 "M3", ['T']), (code2 "M6", ['A', 'T']), (code2 "M7", ['H'])], m)
  match op, which with
  | 0x0201, 0 => p0 ['D', 'B']
  | 0x0201, _ => p0 ['E', 'B']
  | 0x0202, 0 => p0 ['D', 'B']
  | 0x0202, _ => some ([(code2 "V1", ['T'])], ['V', 'C'])
  | 0x0203, 0 => p0 ['D', 'B']
  | 0x0203, _ => some ([(code2 "V1", ['T'])], ['G', 'C'])
  | 0x0204, 0 => some ([(code2 "B0", ['A'])], ['X'])
  | 0x0205, 0 => some ([(code2 "B0", ['T'])], ['X'])
  | 0x0204, _ => p0 ['E', 'B']
  | 0x0205, _ => p0 ['E', 'B']
  | 0x0301, _ | 0x0302, _ | 0x0303, _ => some ([(code2 "E0", ['A', 'T'])], ['X'])
  | 0x0304, _ => mac ['G', 'C']
  | 0x0305, _ => mac ['V', 'C']
  | 0x0403, _ => some ([(code2 "K1", ['A', 'T'])], ['D', 'B'])
  | 0x0405, 1 => some ([(code2 "K1", ['A'])], ['E', 'B'])
  | 0x0501, _ => some ([(code2 "D0", ['A', 'T'])], ['E', 'B'])
  | 0x0502, _ => some ([(code2 "D0", ['A', 'T'])], ['D', 'B'])
  | 0x0503, _ => some ([(code2 "D0", ['A'])], ['E', 'B'])
  | 0x0504, _ => some ([(code2 "D0", ['A'])], ['D', 'B'])
  | _, _ => none

/-- The usage bit a record needs (USAGE bit of R259), the KINDs it may have, and the algorithms (R195). -/
def recordNeed (op : Nat) : Option (Option Nat × List Nat × List Nat) :=
  let sigs := [1, 2, 3, 4, 5, 6, 7, 8, 9, 10]
  match op with
  | 0x0101 => some (some 0, [1], sigs)
  | 0x0102 => some (some 1, [1, 2], sigs)
  | 0x0103 => some (some 1, [1, 2], [1, 2, 3, 4])
  | 0x0104 => some (none, [1], sigs ++ [11, 12, 13])
  | 0x0408 => some (none, [1, 2], sigs ++ [11, 12, 13])
  | 0x0409 => some (some 2, [1, 2], [11, 12, 13])
  | 0x040A => some (some 3, [1], [11, 12, 13])
  | _ => none

/-- A PIN key's algorithm against the format it serves (R209). -/
def pinAlgBad (fmt alg : Nat) : Bool := if fmt = 4 then decide (alg ≠ code1 'A') else decide (alg ≠ code1 'T')

/-- The algorithm of a key, or its length, cannot serve the opcode or its parameters (R194, R209, R220, R225, R238, R481,
R483, and R219's double-length BDK). -/
def keyAlgBad (e : Bytes) (which : Nat) (k : Key) : Bool :=
  let p := ePar e
  let alg := k.desc.alg
  match eOp e, which with
  | 0x0201, 0 => pinAlgBad (p 48) alg
  | 0x0201, _ => pinAlgBad (p 49) alg
  | 0x0202, 0 | 0x0203, 0 => pinAlgBad (p 48) alg
  | 0x0204, 0 => decide (8 * k.material.length < 64 * p 51)
  | 0x0205, 0 => decide (k.material.length ≠ 16)
  | 0x0204, _ | 0x0205, _ => pinAlgBad (p 49) alg
  | 0x0304, _ | 0x0305, _ => decide (k.desc.usage = code2 "M3" ∧ k.material.length ≠ 16)
  | 0x0501, _ | 0x0502, _ =>
    decide ((alg = code1 'T' ∧ 2 < p 40) ∨ (p 40 = 5 ∧ k.material.length = 24))
  | _, _ => false

/-- The status that key `which` of a job earns, 0 when it serves (R185 item 5: 0x2002, 0x2004, 0x2005) (DEDUCED, log 29). -/
def keyStatus (e : Bytes) (which : Nat) (k : Key) : Nat :=
  let d := k.desc
  match recordNeed (eOp e) with
  | some (bit_, kinds, algs) =>
    if !d.isRecord then 0x2004
    else if !kinds.contains d.mode || (match bit_ with | some b => !bit d.recUsage b | none => false) then 0x2002
    else if !algs.contains d.alg then 0x2004
    else 0
  | none =>
    if eOp e = 0x0405 ∧ which = 0 then
      if d.isRecord ∨ ¬ (d.export_ = code1 'E' ∨ d.export_ = code1 'S') then 0x2005 else 0
    else if eOp e = 0x0406 then if d.isRecord then 0x2004 else 0
    else match blockNeed (eOp e) which with
      | none => 0
      | some (usages, modes) =>
        if d.isRecord then 0x2004
        else match usages.find? fun u => u.1 = d.usage with
          | none => 0x2002
          | some (_, algs) =>
            if !(modes.map code1).contains d.mode then 0x2002
            else if !(algs.map code1).contains d.alg || keyAlgBad e which k then 0x2004
            else 0

/-! ### Generations (R265, R266, R339, R341, R359) -/

/-- The KBPK of a generation that the instance holds, or keeps for jobs in flight (R281). -/
def kbpkOf (s : State) (i g : Nat) : Option (BitVec 256) :=
  let k := instKeys s i
  if k.cur = g ∧ g ≠ 0 then some k.curKey
  else if k.prev = some g then some k.prevKey
  else (k.lingering.find? fun e => e.1 = g).map (·.2)

/-- The generation set of a job is fixed as it begins step 5; a chain takes its FIRST member's (R359). -/
def fixSet (s : State) (n : Nat) : State :=
  match jobAt s n with
  | none => s
  | some j =>
    if j.genSet then s
    else
      let k := instKeys s j.inst
      let (c, p) := match jobAt s j.first with
        | some f => if f.genSet then (f.genCur, f.genPrev) else (k.cur, k.prev)
        | none => (k.cur, k.prev)
      modJob s n fun j => { j with genSet := true, genCur := c, genPrev := p }

/-- The generations under which a blob of a job is tried, in order, or the status that refuses it (R265, R266, R339,
R341). -/
def chooseGen (s : State) (j : Job) (blob : Bytes) : Nat × List Nat :=
  let prev := match j.genPrev with
    | some p => if eOp j.entry = 0x0404 then [p] else []
    | none => []
  let held := (if j.genCur = 0 then [] else [j.genCur]) ++ prev
  if j.genCur = 0 then (0x2003, [])
  else if (blob.getD 0 0).toNat = 0x4C then
    let g := field blob 8 1
    if held.contains g then (0, [g]) else (0x2003, [])
  else match parseBlock false blob with
    | none => (0x2001, [])
    | some b => match optText b.opts "KP" with
      | none => (0, held)
      | some t =>
        let v := ofHex (t.drop 6)
        match held.find? fun g => decide (((kbpkOf s j.inst g).map fun k => kbpkKcv k) = some v) with
        | some g => (0, [g])
        | none => (0x2003, [])

/-! ### Step 5 -/

/-- Blob `k` of a job. -/
def blobOf (j : Job) (k : Nat) : Bytes := if k = 0 then j.blob1 else j.blob2

/-- A job is refused for a blob: KC_AUTH_FAILS counts 0x2001 (R283). -/
def refuseBlob (s : State) (n status : Nat) : State :=
  let s := if status = 0x2001 then { s with kc := { s.kc with authFails := s.kc.authFails + 1 } } else s
  failJob s n status

/-- The lane's UNWRAP context serves the first job of its channel that waits for an unwrap (R279, R494 of 11). -/
def laneUnwrap (s : State) (c : Nat) : State :=
  let who := (s.jobs.find? fun e => decide (e.2.chan = some c) && match e.2.phase with | .unwrap _ => true | _ => false).map (·.1)
  let l := tget {} s.lanes c
  { s with lanes := tset {} s.lanes c { l with unwrap := who } }

/-- Key `k` of a job is available with its capability: the checks of R194 and R195 (R280). True when the job goes on. -/
def takeKey (s : State) (n k : Nat) (key : Key) (cap : Cap) : Bool × State :=
  match jobAt s n with
  | none => (false, s)
  | some j =>
    let st := keyStatus j.entry k key
    if st ≠ 0 then (false, failJob s n st)
    else (true, modJob s n fun j =>
      if k = 0 then { j with key1 := some key, cap1 := cap, phase := .run }
      else { j with key2 := some key, cap2 := cap, phase := .run })

/-- Key `k` of a job is looked up (R58 step 5, R59, R270, R279, R341, R367): a hit, a wait, or an unwrap begins. True when
the key is available already. -/
def lookupKey (s : State) (n k : Nat) : Bool × State :=
  match jobAt s n with
  | none => (false, s)
  | some j =>
    let blob := blobOf j k
    let digest := sha256 blob
    if s.kh.ripcorded then (false, failJob s n 0x6001)
    else
      let (st, gens) := chooseGen s j blob
      if st ≠ 0 then (false, refuseBlob s n st)
      else match (gens.filterMap fun g => cacheHit s j.inst g digest).head? with
        | some (head, ck) =>
          let s := pinKey s head n
          let s := { s with kc := { s.kc with hits := s.kc.hits + 1 } }
          takeKey s n k ck.key (keyCap (keyObject head ck.serial) j.inst j.gen ck.key)
        | none =>
          if (fillMarked s j.inst digest).isSome then
            let s := { s with kc := { s.kc with misses := s.kc.misses + 1 } }
            (false, modJob s n fun j => { j with phase := .waitFill k })
          else
            let s := beginFill s n j.inst (gens.headD 0) digest blob
            let s := modJob s n fun j => { j with phase := .unwrap k }
            (false, laneUnwrap s (j.chan.getD 0))

/-- The lookups of a job from key `k` on, until one is not available at once. -/
def lookups (s : State) (n k : Nat) : State :=
  match jobAt s n with
  | none => s
  | some j =>
    let (ok, s) := lookupKey s n k
    if ok && k = 0 && blobCount j.entry = 2 then (lookupKey s n 1).2 else s

/-- The slot is LOADED and its image's ENTRY table names the opcode (R569, R572 of 13). -/
def imageServes (s : State) (op k : Nat) : Bool :=
  let m := tget {} s.mc.slots k
  decide (m.state = 2) && (List.range (field m.image 5 1)).any fun e => decide (field m.image (64 + 8 * e) 2 = op)

/-- The microcode slot whose routine a job runs (R572, R573 of 13): its instance's binding, or the home member's. -/
def imageSlot (s : State) (j : Job) : Option Nat :=
  let bound : Option Nat := match j.origin with
    | none => (instAt s j.inst).mcSlot
    | some home => match s.bridle.spanHeld.find? fun h => decide (h.inst = j.inst ∧ h.home = home) with
      | none => none
      | some h => if h.mc = [] then none
        else (List.range 4).find? fun k => decide (slice (hashBytes (sha256 (tget {} s.mc.slots k).image)) 0 12 = h.mc) &&
          imageServes s (eOp j.entry) k
  bound.filter (imageServes s (eOp j.entry))

/-- Step 5 begins (R359; R572 of 13): the generation set and the image routine are fixed, the keys are looked up. -/
def beginStep5 (s : State) (n : Nat) : State :=
  let s := modJob (fixSet s n) n fun j => { j with image := imageSlot s j }
  match jobAt s n with
  | none => s
  | some j =>
    if blobCount j.entry = 0 then modJob s n fun j => { j with phase := .run }
    else lookups s n 0

/-- What the unwrap of a blob gives under the generations chosen for it (R265, R280). -/
def unwrapBlob (s : State) (j : Job) (blob : Bytes) : List Nat → BlobResult
  | [] => .status 0x2001
  | g :: gs =>
    match kbpkOf s j.inst g with
    | none => .status 0x2003
    | some kbpk =>
      if (blob.getD 0 0).toNat = 0x4C then openRecord kbpk g j.inst blob
      else match parseBlock false blob with
        | none => .status 0x2001
        | some p => match openBlock (key32 kbpk) g blob p 0x2001 with
          | .status st => if st = 0x2001 ∧ gs ≠ [] then unwrapBlob s j blob gs else .status st
          | .key k => .key k

/-- A key that an unwrap gives reaches a job (R59, R280): through the filled entry, or, when the fill was bypassed, through a
staging slot for the job that unwrapped it (R274). -/
def followFill (head : Option (Nat × Nat)) (key : Key) (k : Nat) (s : State) (n : Nat) : State :=
  match jobAt s n with
  | none => s
  | some j =>
    let c := j.chan.getD 0
    let (obj, s) := match head with
      | some (h, serial) => (keyObject h serial, pinKey s h n)
      | none =>
        let slot := freeStage s n
        (stageObject c slot n, stageKey s slot n key)
    let (ok, s) := takeKey s n k key (keyCap obj j.inst j.gen key)
    if ok && k = 0 && blobCount j.entry = 2 then (lookupKey s n 1).2 else s

/-- Jobs that wait for the fill of a digest for an instance, with the key each waits for (R59). -/
def waiters (s : State) (inst : Nat) (digest : BitVec 256) : List (Nat × Nat) :=
  s.jobs.filterMap fun e => match e.2.phase with
    | .waitFill k => if e.2.inst = inst ∧ sha256 (blobOf e.2 k) = digest then some (e.1, k) else none
    | _ => none

/-- UNWRAP_COMPLETE (R274, R279, R280): the unwrap of the blob that the job's lane holds ends, for it and for all that waited;
after a bypassed fill those start the miss path again. -/
def unwrapDone (s : State) (n : Nat) : State :=
  match jobAt s n with
  | none => s
  | some j =>
    match j.phase with
    | .waitFill k => if (fillMarked s j.inst (sha256 (blobOf j k))).isSome then s else lookups s n k
    | .unwrap k =>
      let c := j.chan.getD 0
      if (tget {} s.lanes c).unwrap ≠ some n then s
      else
        let blob := blobOf j k
        let digest := sha256 blob
        let (st, gens) := chooseGen s j blob
        let ws := waiters s j.inst digest
        match (if st = 0 then unwrapBlob s j blob gens else .status st) with
        | .status st =>
          laneUnwrap ((n :: ws.map (·.1)).foldl (fun s m => refuseBlob s m st) (dropFill s n)) c
        | .key key =>
          let s := { s with kc := { s.kc with fills := s.kc.fills.map fun f =>
            if f.1 = n then (f.1, { f.2 with gen := key.desc.kbpkGen }) else f } }
          let (head, s) := endFill s n key
          let s := followFill head key k s n
          laneUnwrap (ws.foldl (fun s w => if head.isSome then followFill head key w.2 s w.1 else lookups s w.1 w.2) s) c
    | _ => s

/-! ### Step 4 (R140, R165, R251) -/

/-- The phase after blob `k` has been read. -/
def afterBlob (j : Job) (k : Nat) : Phase :=
  if k + 1 < blobCount j.entry then .readHead (k + 1)
  else if eInLen j.entry ≠ 0 then .readInput else .handoff

/-- Two ballast buffers: the job streams (R40, R41) (DEDUCED, log 20). -/
def streams (j : Job) : Bool := decide (65536 < eInLen j.entry + eOutCap j.entry)

/-- Bytes of the next input read of a job that has read `got` bytes. -/
def nextRead (j : Job) (got : Nat) : Nat := if streams j then min 65536 (eInLen j.entry - got) else eInLen j.entry

/-- HOST_READ_COMPLETE (R140, R165, R251, R404). -/
def hostRead (s : State) (n : Nat) (ok : Bool) (data : Bytes) : State :=
  match jobAt s n with
  | none => s
  | some j =>
    match j.phase with
    | .readHead k =>
      if !ok then failJob s n 0x1005
      else
        let b := pad 32 data
        match statedLen b with
        | none => refuseBlob s n 0x2001
        | some _ => modJob s n fun j =>
          if k = 0 then { j with blob1 := b, phase := .readRest 0 } else { j with blob2 := b, phase := .readRest 1 }
    | .readRest k =>
      if !ok then failJob s n 0x1005
      else
        let len := (statedLen (blobOf j k)).getD 32
        let b := blobOf j k ++ pad (len - 32) data
        modJob s n fun j =>
          if k = 0 then { j with blob1 := b, blob1Done := true, phase := afterBlob j 0 }
          else { j with blob2 := b, blob2Done := true, phase := afterBlob j 1 }
    | .readInput =>
      if !ok then failJob s n 0x1005
      else modJob s n fun j => { j with input := pad (nextRead j 0) data, phase := .handoff }
    | .nextSegment =>
      if !ok then failJob s n 0x1005
      else modJob s n fun j => { j with input := j.input ++ pad (nextRead j j.input.length) data, phase := .run }
    | .readProof =>
      if ok then modJob s n fun j => { j with proof := j.proof ++ [data], phase := .run }
      else rerunJob (charge s auditPage 3) n auditPage
    | _ => s

/-! ### Hand-off (R56, R110, R150, R562 of 13, R663 of 16) -/

/-- Opcodes whose work needs a Sail engine. -/
def needsSail (op : Nat) : Bool := [0x0101, 0x0102, 0x0103, 0x0402, 0x0407, 0x0408, 0x0409, 0x040A].contains op

/-- The channel that job `n` goes to as a later member of a chain that has begun: that of the member before, until that
channel is lost (R150; R102: a chain that has begun is work in flight of its channel). -/
def boundChan (s : State) (n : Nat) (j : Job) : Option Nat :=
  (chainChan s n j).filter fun f => decide ((unitAt s (chanPage f)).state = .running ∨ (unitAt s (chanPage f)).state = .stopping)

/-- Channel `c` may take job `n`: a channel of the share that takes hand-offs and that no fault of the job excludes (R56, R110,
R663 of 16), or the channel of its chain (DEDUCED, log 18). -/
def mayTake (s : State) (n : Nat) (j : Job) (c : Nat) : Bool :=
  match boundChan s n j with
  | some f => decide (c = f)
  | none =>
    takesHandoff s c && (j.origin.isSome || bit (instAt s j.inst).chans c) && !j.excluded.contains (chanPage c) &&
      (!needsSail (eOp j.entry) || (enginesOf s c).any fun p => !j.excluded.contains p)

/-- An earlier member of the job's chain has no final result yet (R150). -/
def chainBefore (s : State) (n : Nat) (j : Job) : Bool :=
  s.jobs.any fun e => decide (e.1 < n ∧ e.2.first = j.first) && undecided e.2

/-- JOB_HANDOFF: the job goes to a channel, and a core of it that waits on JOB_NEXT gets it (DESIGN CHOICE, log 18). -/
def handoff (s : State) (n c core : Nat) : State :=
  match jobAt s n with
  | none => s
  | some j =>
    if j.phase ≠ .handoff ∨ !mayTake s n j c ∨ chainBefore s n j then s
    else
      let r := ringAt s (ringKey j.inst j.ring)
      let s := if j.origin.isNone ∧ r.intake ≠ c then
          let t := intakeAt s r.intake
          putIntake s r.intake { t with handed := t.handed + 1 }
        else s
      let k := tget {} s.cores core
      let there := decide (chanPage c < core ∧ core ≤ chanPage c + 4 ∧ k.stall = .jobNext) && isRunning s core
      let s := modJob s n fun j => { j with chan := some c, core := if there then some core else none }
      let s := if there then { s with cores := tset {} s.cores core { k with stall := .none } } else s
      beginStep5 s n

/-! ### Result and chain (R62, R150, R151) -/

/-- The next member of a job's chain, while it waits for this one. -/
def nextMember (s : State) (n : Nat) (j : Job) : Option Nat :=
  match jobAt s (n + 1) with
  | some m => if m.first = j.first ∧ m.phase = .taken then some (n + 1) else none
  | none => none

/-- Members after `n` are ABORTED (R151, R186). -/
def abortLater (s : State) (n : Nat) (j : Job) : State :=
  { s with jobs := s.jobs.map fun e =>
    if n < e.1 ∧ e.2.first = j.first ∧ undecided e.2 then (e.1, { e.2 with phase := .final, status := 0x4001 }) else e }

/-- RESULT_FINAL (R62, R370 of 08): the leaf is built; the chain goes on or is ABORTED. -/
def resultFinal (s : State) (n : Nat) : State :=
  match jobAt s n with
  | none => s
  | some j =>
    if j.phase ≠ .final then s
    else
      let c := j.chan.getD (ringAt s (ringKey j.inst j.ring)).intake
      let leaf := buildLeaf s j c (selfMember s) j.origin.isSome
      let p := portAt s c
      let s := putPort s c { p with built := p.built + 1 }
      let s := modJob s n fun j => { j with phase := .leafBuilt, leaf := leaf, chan := some c }
      if j.status ≠ 0 then abortLater s n j
      else match nextMember s n j with
        | some m => beginStep4 s m
        | none => s

/-! ### Completion (R63, R64, R133, R153, R156, R161, R167, R188) -/

/-- Bus address of a job's entry (R119). -/
def entryAddr (s : State) (j : Job) : Nat := ringBase (ringAt s (ringKey j.inst j.ring)) + 64 * j.index

/-- The 64 bytes of a completed entry (R161). -/
def completion (j : Job) : Bytes :=
  [BitVec.ofNat 8 (eCtrl j.entry &&& 0x60), BitVec.ofNat 8 j.gen] ++ le 2 j.status ++ le 4 (eTag j.entry) ++ le 8 j.seq ++
    le 4 j.outLen ++ resultBytes j

/-- The writes of one completion, in R64's order. -/
def writeCompletion (s : State) (j : Job) : State :=
  let port := (instAt s j.inst).port
  let b := completion j
  let a := entryAddr s j
  let rest := j.out.drop j.streamed
  let s := if rest.isEmpty then s else emit s (.hostWrite port (eOutPtr j.entry + j.streamed) rest)
  emit (emit s (.hostWrite port (a + 1) (b.drop 1))) (.hostWrite port a (b.take 1))

/-- A job leaves the device: pins, staging slots and engines are given up, its ballast is free (R48, R271, R438). -/
def retireJob (s : State) (n : Nat) : State :=
  match jobAt s n with
  | none => s
  | some j =>
    let s := j.engines.foldl (fun s p =>
      if (tget {} s.sails p).job = some n ∧ (tget {} s.sails p).estate ≠ .wiping then wipeEngine s p else s) (dropLanes (unpinJob s n) n)
    { s with jobs := tdel s.jobs n }

/-- The members of a job's chain, FIRST first. -/
def chainOf (s : State) (j : Job) : List (Nat × Job) := s.jobs.filter fun e => decide (e.2.first = j.first ∧ e.2.origin = none)

/-- A derivation slot is cleared once no job's generation set names its generation (R281). -/
def dropLingering (s : State) (i : Nat) : State :=
  let k := instKeys s i
  let used (g : Nat) := jobsWhere s fun j => decide (j.inst = i) && j.genSet && (decide (j.genCur = g) || decide (j.genPrev = some g))
  { s with kh := { s.kh with insts := tset {} s.kh.insts i { k with lingering := k.lingering.filter fun e => used e.1 } } }

/-- COMPLETION_WRITE: the whole chain of a job, or nothing (R63, R133, R134, R153, R156, R167, R170). -/
def writeCompletions (s : State) (n : Nat) : State :=
  match jobAt s n with
  | none => s
  | some j =>
    let ms := chainOf s j
    let x := instAt s j.inst
    if j.origin.isSome ∨ ms.any (fun m => decide (m.2.phase ≠ .committed)) ∨ !bmeNow s j.inst then s
    else
      let good := decide (j.gen = x.gen) && !ms.any fun m => m.2.genFailed
      let s := if !good then s
        else
          let s := (ms.drop 1 ++ ms.take 1).foldl (fun s m => writeCompletion s m.2) s
          let f := ((ms.head?).map (·.2)).getD j
          if eIrq f.entry ∨ (ringAt s (ringKey f.inst f.ring)).every then sendMsix s f.inst f.ring else s
      dropLingering (ms.foldl (fun s m => retireJob s m.1) s) j.inst

/-- OUTPUT_SEGMENT_WRITE (R63, R133, R188): the output produced so far, but not the last segment. -/
def writeSegment (s : State) (n : Nat) : State :=
  match jobAt s n with
  | none => s
  | some j =>
    let x := instAt s j.inst
    let more := decide (j.phase = .nextSegment) || decide (j.phase = .run)
    if !streams j ∨ !more ∨ j.origin.isSome ∨ !bmeNow s j.inst ∨ j.out.length ≤ j.streamed ∨ j.genFailed then s
    else if j.gen ≠ x.gen then modJob s n fun j => { j with genFailed := true }
    else
      let s := emit s (.hostWrite x.port (eOutPtr j.entry + j.streamed) (j.out.drop j.streamed))
      modJob s n fun j => { j with streamed := j.out.length }

/-! ### Meanings -/

/-- JOB_HANDOFF (R56). -/
def execJobHandoff (job chan core : Nat) (s : State) : Host.Outcome State Fault Refusal := .next (handoff s job chan core)

/-- HOST_READ_COMPLETE (R165). -/
def execHostReadComplete (job : Nat) (ok : Bool) (data : Bytes) (s : State) : Host.Outcome State Fault Refusal :=
  .next (hostRead s job ok data)

/-- UNWRAP_COMPLETE (R279). -/
def execUnwrapComplete (job : Nat) (s : State) : Host.Outcome State Fault Refusal := .next (unwrapDone s job)

/-- COMPLETION_WRITE (R64). -/
def execCompletionWrite (job : Nat) (s : State) : Host.Outcome State Fault Refusal := .next (writeCompletions s job)

/-- OUTPUT_SEGMENT_WRITE (R188). -/
def execOutputSegmentWrite (job : Nat) (s : State) : Host.Outcome State Fault Refusal := .next (writeSegment s job)

end Sys2Proof.Machine
end

