-- ==== Sys2Proof/Machine/Jobs.lean ====
section
/-! DEFINITION. Step 6 of R58 as every opcode shares it: when an opcode's work runs, its draw from the channel DRBG, the
output capacity, the Sail engine it runs on (R163, R184, R185 of 04; R450, R451 of 10; R439, R440 of 09; R521 of 12), the
encodings of signatures and public keys (R197 to R202, R229, R234), and what writing a key block or record answers (R227). -/

namespace Sys2Proof.Machine

/-! ### Running an opcode -/

/-- What an opcode's work gives: a status, RESULT bytes from byte 20, output. -/
structure JobEnd where
  status : Nat := 0
  result : Bytes := []
  out : Bytes := []
  deriving DecidableEq, Repr

/-- The job is in step 6 with this opcode, runs no image routine (R572 of 13) and waits for nothing. -/
def atStep6 (op : Nat) (j : Job) : Bool := decide (j.phase = .run ∧ eOp j.entry = op ∧ j.image = none) && !j.waitRand

/-- Bulk lane of the job's channel: input bytes processed, and a failed tag, MAC or cryptogram (R498 of 11). -/
def countLane (s : State) (j : Job) (n status : Nat) : State :=
  match j.chan with
  | none => s
  | some c =>
    let l := tget {} s.lanes c
    let failed := decide (0x3004 ≤ status ∧ status ≤ 0x3006)
    let l := { l with bytes := (l.bytes + n) % 2 ^ 64, tagFails := if failed then l.tagFails + 1 else l.tagFails }
    { s with lanes := tset {} s.lanes c l }

/-- A job's result becomes final with what its work gave (R163, R164, R187). -/
def finishJob (s : State) (n : Nat) (j : Job) (r : JobEnd) : State :=
  if r.status ≠ 0 then endJob s n r.status r.result (j.out.take j.streamed) 0
  else if eOutCap j.entry < r.out.length then endJob s n 0x1006 [] (j.out.take j.streamed) r.out.length
  else endJob s n 0 r.result r.out r.out.length

/-- A job asks its channel's DRBG for bytes (R521). -/
def askForJob (s : State) (n : Nat) (j : Job) (code len : Nat) : State :=
  askRand (modJob s n fun j => { j with waitRand := true }) (j.chan.getD 0)
    { for_ := .job n, code := code, inst := j.inst, gen := j.gen, serial := n, len := len }

/-- The next input segment is read before the work can end (R41). -/
def wantsInput (j : Job) : Bool := decide (j.input.length < eInLen j.entry)

/-- The work of an opcode: `pre` decides a status from entry, keys and, once it is read, input; `draw` is what it draws, of
consumer `code`; `body` gives the end, whose output length no drawn byte changes, so that 0x1006 comes before the draw (R185
item 8). `bulk`: its input passes the bulk lane. -/
def runOp (op code : Nat) (bulk : Bool) (pre : State → Job → Nat) (draw : Job → Nat) (body : State → Job → JobEnd)
    (n : Nat) (s : State) : State :=
  match jobAt s n with
  | none => s
  | some j =>
    if !atStep6 op j then s
    else if wantsInput j then modJob s n fun j => { j with phase := .nextSegment }
    else if pre s j ≠ 0 then failJob s n (pre s j)
    else if draw j ≠ 0 ∧ j.rand = [] then
      let r := body s { j with rand := zeros (draw j) }
      if r.status = 0 ∧ eOutCap j.entry < r.out.length then finishJob s n j r else askForJob s n j code (draw j)
    else
      let r := body s j
      let s := finishJob s n j r
      if bulk then countLane s j j.input.length r.status else s

/-! ### Engines (R439, R440, R450) -/

/-- The engine may take work of a job: serving its channel, LEVEL 0, idle, not excluded. -/
def engineFree (s : State) (j : Job) (p : Nat) : Bool :=
  serves s p && !(unitAt s p).level && !j.excluded.contains p &&
    decide ((tget {} s.sails p).estate = .idle ∧ (tget {} s.sails p).job = none)

/-- The owner of R440 for a job. -/
def ownedBy (s : State) (j : Job) (e : Sail) : Bool :=
  e.ownerValid && decide (e.ownerInst = j.inst ∧ e.ownerGen = j.gen ∧ e.ownerKgen = (instKeys s j.inst).cur)

/-- A wide engine takes a job's owner; a change of owner wipes it first (R439). The engine when it is ready now. -/
def claimWide (s : State) (j : Job) (p : Nat) : Option Nat × State :=
  let e := sailAt s p
  if ownedBy s j e then (some p, s)
  else if e.ownerValid then
    let w := wiped e
    (none, putSail s p { w with
      ownerInst := j.inst, ownerGen := j.gen, ownerKgen := (instKeys s j.inst).cur, ownerValid := true })
  else
    (some p, putSail s p { e with
      ownerInst := j.inst, ownerGen := j.gen, ownerKgen := (instKeys s j.inst).cur, ownerValid := true })

/-- An engine of the executing channel for a job: an idle narrow one first, the wide one when both are busy (R450)
(DEDUCED, log 39). -/
def claimEngine (s : State) (j : Job) : Option Nat × State :=
  let c := chanPage (j.chan.getD 0)
  match [c + 5, c + 6].find? (engineFree s j) with
  | some p => (some p, s)
  | none => if engineFree s j (c + 7) then claimWide s j (c + 7) else (none, s)

/-- A job's command on an engine has ended: a narrow engine is released and wipes (R439). -/
def releaseEngine (s : State) (p : Nat) : State :=
  let e := sailAt s p
  let s := putSail s p { e with countCmd := e.countCmd + 1 }
  if isWide p then s else wipeEngine s p

/-- The channel has an engine that the job may still use (R466, R663 of 16). -/
def engineLeft (s : State) (j : Job) : Bool :=
  let c := chanPage (j.chan.getD 0)
  [c + 5, c + 6, c + 7].any fun p => decide ((unitAt s p).state ≠ .faulted ∧ (unitAt s p).state ≠ .retired) &&
    !j.excluded.contains p

/-- The work of an opcode that runs on a Sail engine. -/
def runOnEngine (op code : Nat) (pre : State → Job → Nat) (draw : Job → Nat) (body : State → Job → JobEnd)
    (n : Nat) (s : State) : State :=
  match jobAt s n with
  | none => s
  | some j =>
    if !atStep6 op j ∨ wantsInput j ∨ pre s j ≠ 0 ∨ (draw j ≠ 0 ∧ j.rand = []) then runOp op code false pre draw body n s
    else if !engineLeft s j then failJob s n 0x5001
    else match claimEngine s j with
      | (none, s) => s
      | (some p, s) => releaseEngine (runOp op code false pre draw body n s) p

/-! ### Signatures and public keys (R197 to R204, R229, R234) -/

/-- Key algorithm of a signature job: the record's, or ALG for an inline key. -/
def sigAlg (j : Job) : Nat := if eBlob j.entry = 0 then ePar j.entry 40 else (j.key1.map (·.desc.alg)).getD 0

/-- The message of a signature as the primitive takes it: form, hash, padding, context, message. -/
def sigMessage (e : Bytes) (ctx msg : Bytes) : Bytes := slice e 41 3 ++ le 2 ctx.length ++ ctx ++ msg

/-- A DER INTEGER of a big-endian number. -/
def derInt (b : Bytes) : Bytes :=
  let t := b.dropWhile (· = 0#8)
  let t := if t.isEmpty then [0#8] else t
  let t := if (t.headD 0#8).msb then 0#8 :: t else t
  2#8 :: BitVec.ofNat 8 t.length :: t

/-- The DER SEQUENCE of the two INTEGERs of a raw ECDSA signature (R197 ENC). -/
def derSig (raw : Bytes) : Bytes :=
  let h := raw.length / 2
  let c := derInt (raw.take h) ++ derInt (raw.drop h)
  0x30#8 :: BitVec.ofNat 8 c.length :: c

/-- The raw signature of a DER SEQUENCE of two INTEGERs of a field of `h` bytes, none where it is not one
(DEDUCED, log 33). -/
def rawSig (h : Nat) (b : Bytes) : Option Bytes :=
  let l1 := field b 3 1
  let r := slice b 4 l1
  let l2 := field b (5 + l1) 1
  let t := slice b (6 + l1) l2
  let strip (x : Bytes) := x.dropWhile (· = 0#8)
  let fit (x : Bytes) := zeros (h - (strip x).length) ++ strip x
  let raw := fit r ++ fit t
  if (strip r).length ≤ h ∧ (strip t).length ≤ h ∧ derSig raw = b then some raw else none

/-- A named curve as a curve slot. -/
def asSlot (c : NamedCurve) : CurveSlot :=
  { edwards := c.edwards, p := c.p, a := c.a, b := c.b, order := c.order, n := c.n, ms := 0 }

/-- A point in RFC 8032's encoding, canonical and on its curve (R204, R234). -/
def edPointOk (c : NamedCurve) (b : Bytes) : Bool :=
  let v := unle b
  let top := 8 * b.length - 1
  let y := v % 2 ^ top
  let sign := v / 2 ^ top
  decide (y < c.p) && match ptDecomp (asSlot c) y sign with
    | some (x, _) => !(decide (x = 0) && decide (sign = 1))
    | none => false

/-- The 12-bit coefficients of an ML-KEM encapsulation key lie below q (FIPS 203's modulus check). -/
def kemKeyOk (alg : Nat) (b : Bytes) : Bool :=
  let k := alg - 9
  (List.range (128 * k)).all fun i =>
    let v := field b (3 * i) 3
    decide (v % 4096 < 3329 ∧ v / 4096 < 3329)

/-- Validation of a public key (R204, R234). -/
def pubValid (alg : Nat) (b : Bytes) : Bool :=
  match alg with
  | 1 | 2 =>
    match namedCurve alg with
    | none => false
    | some c =>
      let h := (pubLen alg - 1) / 2
      if b.length = pubLen alg then
        decide (field b 0 1 = 4) && onCurve (asSlot c) (some (unbe (slice b 1 h), unbe (slice b (1 + h) h)))
      else
        decide (b.length = 1 + h ∧ (field b 0 1 = 2 ∨ field b 0 1 = 3) ∧ unbe (b.drop 1) < c.p) &&
          (ptDecomp (asSlot c) (unbe (b.drop 1)) (field b 0 1 - 2)).isSome
  | 3 | 4 => match namedCurve alg with
    | none => false
    | some c => decide (b.length = pubLen alg) && edPointOk c b
  | 5 | 6 | 7 =>
    let h := pubLen alg - 4
    let e := unbe (b.drop h)
    decide (b.length = pubLen alg ∧ 0x80 ≤ field b 0 1 ∧ e % 2 = 1 ∧ 65537 ≤ e)
  | _ => decide (b.length = pubLen alg) && (!isKem alg || kemKeyOk alg b)

/-- A key block's answer (R227): the key check value, then its digest's first 12 bytes at RESULT byte 28. -/
def blockResult (alg : Nat) (material block : Bytes) : Bytes :=
  let kcv := keyKcv alg material (if alg = code1 'T' then 3 else 5)
  pad 8 kcv ++ (hashBytes (sha256 block)).take 12

/-- Current KBPK of the job's generation set, for the key blocks and records it writes (R342, R359). -/
def writeKey (s : State) (j : Job) : Option (BitVec 256) := if s.kh.ripcorded then none else kbpkOf s j.inst j.genCur

/-- The status of an opcode that writes under the current KBPK where there is none (R339, R367) (DEDUCED, log 30). -/
def noWriteKey (s : State) (j : Job) : Nat :=
  if s.kh.ripcorded then 0x6001 else if (writeKey s j).isNone then 0x2003 else 0

/-- A version D key block under the job's current KBPK with its answer (R227, R258). -/
def blockEnd (s : State) (j : Job) (d : KeyDesc) (material rnd : Bytes) (before : Bytes) : JobEnd :=
  let k := (writeKey s j).getD 0
  let b := writeBlock (key32 k) (kbpkKcv k) d material rnd
  { result := blockResult d.alg material b, out := before ++ b }

/-- The header of R226's template. -/
def template (e : Bytes) : KeyDesc :=
  { usage := unbe (slice e 40 2), alg := ePar e 42, mode := ePar e 43, version := unbe (slice e 44 2), export_ := ePar e 46 }

end Sys2Proof.Machine
end

