-- ==== Sys2Proof/Machine/JobsPay.lean ====
section
/-! DEFINITION. PIN, card-cryptogram, MAC and token jobs: opcodes 0x0201 to 0x0305, 0x0503 and 0x0504
(04_transaction_jobs.md R209 to R225, R243 to R245; 11_bulk_lanes.md R480 to R488). -/

namespace Sys2Proof.Machine

/-! ### Digits and nibbles -/

/-- The nibbles of a byte string, high nibble first. -/
def nibbles (b : Bytes) : List Nat := b.flatMap fun x => [x.toNat / 16, x.toNat % 16]

/-- Bytes of nibbles, high nibble first. -/
def ofNibbles : List Nat → Bytes
  | a :: b :: t => BitVec.ofNat 8 (16 * a + b) :: ofNibbles t
  | _ => []

/-- ASCII digits. -/
def digitsOf (b : Bytes) : List Nat := b.map fun c => c.toNat - 0x30
def asciiDigits (d : List Nat) : Bytes := d.map fun x => BitVec.ofNat 8 (0x30 + x)

/-! ### PIN blocks (R211 to R214) -/

/-- The PAN field of formats 0 and 3: the 12 digits before the check digit, 0 on the left where there are 11 (R212). -/
def panField (pan : List Nat) : Bytes :=
  let d := pan.dropLast
  let d := d.drop (d.length - 12)
  ofNibbles (List.replicate (16 - d.length) 0 ++ d)

/-- The PAN field of format 4: M, the PAN, zeros (R212). -/
def panField4 (pan : List Nat) : Bytes :=
  let d := (pan.length - 12) :: pan
  ofNibbles (d ++ List.replicate (32 - d.length) 0)

/-- One block under a PIN key, by its algorithm. -/
def blockDec (k : Key) (b : Bytes) : Bytes :=
  if k.desc.alg = code1 'A' then Config.out .aesDec [k.material, b] 16 else Config.out .tdeaDec [k.material, b] 8
def blockEnc (k : Key) (b : Bytes) : Bytes :=
  if k.desc.alg = code1 'A' then Config.out .aesEnc [k.material, b] 16 else Config.out .tdeaEnc [k.material, b] 8

/-- The PIN field of a deciphered block (R213, R214). -/
def pinField (fmt : Nat) (k : Key) (block : Bytes) (pan : List Nat) : Bytes :=
  let x := blockDec k block
  match fmt with
  | 1 => x
  | 4 => blockDec k (xorBytes x (panField4 pan))
  | _ => xorBytes x (panField pan)

/-- The PIN digits of a PIN field, none where a check of R213 fails. -/
def pinOf (fmt : Nat) (field : Bytes) : Option (List Nat) :=
  let n := nibbles (field.take 8)
  let len := n.getD 1 0
  let digits := (n.drop 2).take len
  let fill := n.drop (2 + len)
  let fillOk : Bool := match fmt with
    | 0 => fill.all fun x => decide (x = 15)
    | 3 => fill.all fun x => decide (10 ≤ x)
    | 4 => fill.all fun x => decide (x = 10)
    | _ => true
  if n.headD 16 = fmt ∧ 4 ≤ len ∧ len ≤ 12 ∧ digits.all (fun x => decide (x ≤ 9)) ∧ fillOk then some digits else none

/-- An outgoing PIN block with its fills (R214), enciphered. -/
def buildBlock (fmt : Nat) (k : Key) (pin pan : List Nat) (rnd : Bytes) : Bytes :=
  let r := nibbles rnd
  let head := fmt :: pin.length :: pin
  let room := 16 - head.length
  match fmt with
  | 1 => blockEnc k (ofNibbles (head ++ r.take room))
  | 3 => blockEnc k (xorBytes (ofNibbles (head ++ (r.take room).map fun x => 10 + x % 6)) (panField pan))
  | 4 =>
    let f := ofNibbles (head ++ List.replicate room 10) ++ pad 8 rnd
    blockEnc k (xorBytes (blockEnc k f) (panField4 pan))
  | _ => blockEnc k (xorBytes (ofNibbles (head ++ List.replicate room 15)) (panField pan))

/-- The parts of a PIN job's input (R211). -/
def pinBlockOf (j : Job) : Bytes := slice j.input 0 (pinBlockLen (ePar j.entry 48))
def panOf (j : Job) (off : Nat) : Bytes := slice j.input off (ePar j.entry 50)
def pinPan (j : Job) : List Nat := digitsOf (panOf j (pinBlockLen (ePar j.entry 48)))

def key1Of (j : Job) : Key := j.key1.getD {}
def key2Of (j : Job) : Key := j.key2.getD {}

/-- A translation that would strip the binding of the PIN to its card (R215). -/
def stripsPan (e : Bytes) : Bool := decide (ePar e 48 ≠ 1 ∧ ePar e 49 = 1)

/-- Checks of a PIN job's input and block: 0x100B, 0x100A, 0x1009, 0x3002 in R185's order. -/
def pinPre (j : Job) (text : Bytes → Bool) (ksnBad : Bool) (incoming : Key) (check : Nat) : Nat :=
  let e := j.entry
  let off := pinBlockLen (ePar e 48)
  if !(panOf j off).all isDec || !text (j.input.drop (off + ePar e 50)) then 0x100B
  else if ksnBad then 0x100A
  else if (eOp e = 0x0201 ∨ eOp e = 0x0204 ∨ eOp e = 0x0205) ∧ stripsPan e then 0x1009
  else match pinOf (ePar e 48) (pinField (ePar e 48) incoming (pinBlockOf j) (pinPan j)) with
    | none => 0x3002
    | some d => if d.length < check then 0x3002 else 0

/-- The PIN of a job under its incoming key. -/
def jobPin (j : Job) (incoming : Key) : List Nat :=
  (pinOf (ePar j.entry 48) (pinField (ePar j.entry 48) incoming (pinBlockOf j) (pinPan j))).getD []

/-- Random bytes of an outgoing block (R214). -/
def fillDraw (e : Bytes) : Nat := if ePar e 49 = 0 then 0 else 8

/-- The end of a translation (R216). -/
def translateEnd (j : Job) (incoming : Key) : JobEnd :=
  { result := buildBlock (ePar j.entry 49) (key2Of j) (jobPin j incoming) (pinPan j) j.rand }

/-- TRANSLATE_PIN (R209 to R216). -/
def execTranslatePin (job : Nat) (s : State) : Host.Outcome State Fault Refusal :=
  .next (runOp 0x0201 2 true (fun _ j => pinPre j (fun _ => true) false (key1Of j) 0) (fun j => fillDraw j.entry)
    (fun _ j => translateEnd j (key1Of j)) job s)

/-! ### Offsets (R217) -/

/-- Validation data and offset in the input of an offset job (R211). -/
def validation (j : Job) : Bytes := slice j.input (pinBlockLen (ePar j.entry 48) + ePar j.entry 50) 16
def givenOffset (j : Job) : Bytes := j.input.drop (pinBlockLen (ePar j.entry 48) + ePar j.entry 50 + 16)

/-- An ASCII hexadecimal character, either case (DEDUCED, log 32). -/
def isHexAny (b : Byte) : Bool := isHex b || decide (0x61 ≤ b.toNat ∧ b.toNat ≤ 0x66)
def hexAny (b : Byte) : Nat := if 0x61 ≤ b.toNat then b.toNat - 0x57 else hexVal b

/-- The input after the PAN has validation characters and offset digits of the right kind. -/
def offsetText (t : Bytes) : Bool := (t.take 16).all isHexAny && (t.drop 16).all isDec

/-- The offset of R217: decimalised encipherment of the validation data, table 0123456789012345. -/
def offsetOf (j : Job) : List Nat :=
  let n := ePar j.entry 51
  let packed := ofNibbles ((validation j).map hexAny)
  let natural := (nibbles (Config.out .tdeaEnc [(key2Of j).material, packed] 8)).map (· % 10)
  (List.range n).map fun i => ((jobPin j (key1Of j)).getD i 0 + 10 - natural.getD i 0) % 10

/-- VERIFY_PIN_OFFSET (R217). -/
def execVerifyPinOffset (job : Nat) (s : State) : Host.Outcome State Fault Refusal :=
  .next (runOp 0x0202 2 true (fun _ j => pinPre j offsetText false (key1Of j) (ePar j.entry 51)) (fun _ => 0)
    (fun _ j => { status := if asciiDigits (offsetOf j) = givenOffset j then 0 else 0x3003 }) job s)

/-- GENERATE_PIN_OFFSET (R217). -/
def execGeneratePinOffset (job : Nat) (s : State) : Host.Outcome State Fault Refusal :=
  .next (runOp 0x0203 2 true (fun _ j => pinPre j offsetText false (key1Of j) (ePar j.entry 51)) (fun _ => 0)
    (fun _ j => { result := asciiDigits (offsetOf j) }) job s)

/-! ### DUKPT (R218 to R220) -/

/-- KSN of an AES DUKPT job, and of a TDEA one. -/
def ksnAes (e : Bytes) : Bytes := slice e 52 12
def ksnTdea (e : Bytes) : Bytes := slice e 52 10

/-- More counter bits are set than R220 allows: 16 of 32 for AES, 10 of 21 for TDEA. -/
def ksnAesBad (e : Bytes) : Bool := decide (16 < popcount (unbe ((ksnAes e).drop 8)))
def ksnTdeaBad (e : Bytes) : Bool := decide (10 < popcount (unbe (ksnTdea e) % 2 ^ 21))

/-- The derived incoming PIN keys (R219). -/
def dukptAesKey (j : Job) : Key :=
  { desc := { alg := code1 'A' }
    material := Config.out .dukptAes [(key1Of j).material, ksnAes j.entry, slice j.entry 51 1] (8 * ePar j.entry 51) }
def dukptTdeaKey (j : Job) : Key :=
  let mask := [0, 0, 0, 0, 0, 0, 0, 0xFF, 0, 0, 0, 0, 0, 0, 0, 0xFF].map (BitVec.ofNat 8 ·)
  { desc := { alg := code1 'T' }
    material := xorBytes (Config.out .dukptTdea [(key1Of j).material, ksnTdea j.entry] 16) mask }

/-- DUKPT_TRANSLATE_PIN_AES (R219). -/
def execDukptTranslatePinAes (job : Nat) (s : State) : Host.Outcome State Fault Refusal :=
  .next (runOp 0x0204 2 true (fun _ j => pinPre j (fun _ => true) (ksnAesBad j.entry) (dukptAesKey j) 0)
    (fun j => fillDraw j.entry) (fun _ j => translateEnd j (dukptAesKey j)) job s)

/-- DUKPT_TRANSLATE_PIN_TDEA (R219). -/
def execDukptTranslatePinTdea (job : Nat) (s : State) : Host.Outcome State Fault Refusal :=
  .next (runOp 0x0205 2 true (fun _ j => pinPre j (fun _ => true) (ksnTdeaBad j.entry) (dukptTdeaKey j) 0)
    (fun j => fillDraw j.entry) (fun _ j => translateEnd j (dukptTdeaKey j)) job s)

/-! ### Card cryptograms (R221 to R224) -/

/-- Padding method 1 or 2 of ISO/IEC 9797-1 to a multiple of 8 bytes. -/
def isoPad (method : Nat) (b : Bytes) : Bytes :=
  let b := if method = 2 then b ++ [0x80#8] else b
  b ++ zeros ((8 - b.length % 8) % 8)

/-- The session key of R222: card master key by Annex A1.4, then common session key derivation unless SESSION is 1. -/
def sessionKey (j : Job) : Key :=
  let e := j.entry
  let k := key1Of j
  { desc := { alg := k.desc.alg }
    material := Config.out .emvSession
      [k.material, [BitVec.ofNat 8 k.desc.alg], slice j.input 0 (ePar e 50), slice e 51 1, slice e 53 1,
        if ePar e 53 = 1 then [] else slice e 48 2]
      (if k.desc.alg = code1 'A' then k.material.length else 16) }

/-- The MAC of R223 under a session key: 8 bytes. -/
def cardMac (pad_ : Nat) (k : Key) (b : Bytes) : Bytes :=
  if k.desc.alg = code1 'A' then Config.out .aesCmac [k.material, b] 8
  else Config.out .tdeaMac [[3#8], k.material, isoPad pad_ b] 8

/-- Transaction data and proprietary data of the input (R221). -/
def transData (j : Job) : Bytes :=
  (j.input.drop (ePar j.entry 50)).take (j.input.length - ePar j.entry 50 - (if ePar j.entry 54 = 2 then ePar j.entry 61 else 0))
def propData (j : Job) : Bytes := j.input.drop (j.input.length - ePar j.entry 61)

/-- PAD against the key's algorithm (R221, R185 item 6), then the PAN's digits. -/
def cardPre (j : Job) : Nat :=
  let e := j.entry
  let tdea := decide ((key1Of j).desc.alg = code1 'T')
  if decide (ePar e 52 = 0) = tdea then 0x1007
  else if !(slice j.input 0 (ePar e 50)).all isDec then 0x100B
  else 0

/-- The cryptogram matches ARQC (R223). -/
def arqcOk (j : Job) : Bool := decide (cardMac (ePar j.entry 52) (sessionKey j) (transData j) = slice j.entry 40 8)

/-- The response of R224 (PRESUMED, log 35). -/
def arpc (j : Job) : Bytes :=
  let e := j.entry
  let k := sessionKey j
  if ePar e 54 = 1 then
    let x := xorBytes (slice e 40 8) (slice e 55 2 ++ zeros 6)
    if k.desc.alg = code1 'A' then Config.out .aesEnc [k.material, x] 8 else Config.out .tdeaEnc [k.material, x] 8
  else (cardMac (ePar e 52) k (slice e 40 8 ++ slice e 57 4 ++ propData j)).take 4

/-- ARQC_VERIFY (R223). -/
def execArqcVerify (job : Nat) (s : State) : Host.Outcome State Fault Refusal :=
  .next (runOp 0x0301 2 true (fun _ j => cardPre j) (fun _ => 0)
    (fun _ j => { status := if arqcOk j then 0 else 0x3005 }) job s)

/-- ARPC_GENERATE (R224). -/
def execArpcGenerate (job : Nat) (s : State) : Host.Outcome State Fault Refusal :=
  .next (runOp 0x0302 2 true (fun _ j => cardPre j) (fun _ => 0) (fun _ j => { result := arpc j }) job s)

/-- ARQC_VERIFY_ARPC (R224). -/
def execArqcVerifyArpc (job : Nat) (s : State) : Host.Outcome State Fault Refusal :=
  .next (runOp 0x0303 2 true (fun _ j => cardPre j) (fun _ => 0)
    (fun _ j => if arqcOk j then { result := arpc j } else { status := 0x3005 }) job s)

/-! ### MACs (R225, R483, R487) -/

/-- MAC_LEN, PAD and HASH against the key's usage and algorithm (R225). -/
def macPre (j : Job) : Nat :=
  let e := j.entry
  let d := (key1Of j).desc
  let n := ePar e 40
  let iso := decide (d.usage = code2 "M1" ∨ d.usage = code2 "M3")
  let hm := decide (d.usage = code2 "M7")
  let lenOk := if hm then decide (10 ≤ n ∧ n ≤ 32)
    else if iso || decide (d.alg = code1 'T') then decide (4 ≤ n ∧ n ≤ 8) else decide (4 ≤ n ∧ n ≤ 16)
  let padOk := if iso then decide (ePar e 41 = 1 ∨ ePar e 41 = 2) else decide (ePar e 41 = 0)
  if lenOk && padOk && (hm || decide (ePar e 42 = 0)) then 0 else 0x1007

/-- The MAC of a job over data. -/
def macOf (j : Job) (b : Bytes) : Bytes :=
  let e := j.entry
  let k := key1Of j
  let n := ePar e 40
  if k.desc.usage = code2 "M1" then Config.out .tdeaMac [[1#8], k.material, isoPad (ePar e 41) b] n
  else if k.desc.usage = code2 "M3" then Config.out .tdeaMac [[3#8], k.material, isoPad (ePar e 41) b] n
  else if k.desc.usage = code2 "M7" then
    Config.out .hmac [[BitVec.ofNat 8 (if ePar e 42 = 0 then 2 else ePar e 42 + 1)], k.material, b] n
  else if k.desc.alg = code1 'A' then Config.out .aesCmac [k.material, b] n
  else Config.out .tdeaCmac [k.material, b] n

/-- MAC_GENERATE (R225). -/
def execMacGenerate (job : Nat) (s : State) : Host.Outcome State Fault Refusal :=
  .next (runOp 0x0304 2 true (fun _ j => macPre j) (fun _ => 0) (fun _ j => { result := macOf j j.input }) job s)

/-- MAC_VERIFY (R225). -/
def execMacVerify (job : Nat) (s : State) : Host.Outcome State Fault Refusal :=
  .next (runOp 0x0305 2 true (fun _ j => macPre j) (fun _ => 0)
    (fun _ j =>
      let n := ePar j.entry 40
      { status := if macOf j (j.input.drop n) = j.input.take n then 0 else 0x3004 }) job s)

/-! ### Tokens (R243 to R245, R488) -/

/-- The Luhn check over a digit string. -/
def luhn (d : List Nat) : Bool :=
  let r := d.reverse
  let v := (List.range r.length).map fun i =>
    let x := r.getD i 0
    if i % 2 = 0 then x else if 9 < 2 * x then 2 * x - 9 else 2 * x
  decide (v.sum % 10 = 0)

/-- One pass of FF1 over the digits between those kept. -/
def ff1Pass (decrypt : Bool) (j : Job) (mid : List Nat) : List Nat :=
  let e := j.entry
  let kept := j.input.take (ePar e 40) ++ j.input.drop (j.input.length - ePar e 41)
  let tweak := kept ++ slice e 44 (ePar e 43)
  (Config.out (if decrypt then .ff1Dec else .ff1Enc) [(key1Of j).material, tweak, asciiDigits mid] mid.length).map
    fun b => b.toNat % 10

/-- The whole digit string with the middle replaced. -/
def withMiddle (j : Job) (mid : List Nat) : List Nat :=
  let d := digitsOf j.input
  d.take (ePar j.entry 40) ++ mid ++ d.drop (d.length - ePar j.entry 41)

/-- FF1 once, and again with LUHN_FAIL until the whole string's Luhn check gives what it must (R245). The repetition has
no bound; `fuel` ends it in this model (DESIGN CHOICE, log 36). -/
def ff1Loop (decrypt : Bool) (j : Job) : Nat → List Nat → List Nat
  | 0, mid => mid
  | fuel + 1, mid =>
    let m := ff1Pass decrypt j mid
    if ePar j.entry 42 = 1 ∧ luhn (withMiddle j m) ≠ decrypt then ff1Loop decrypt j fuel m else m

/-- Digits between those kept. -/
def middle (j : Job) : List Nat :=
  (digitsOf (j.input.take (j.input.length - ePar j.entry 41))).drop (ePar j.entry 40)

/-- TOKENISE and DETOKENISE (R243 to R245). -/
def tokenEnd (decrypt : Bool) (j : Job) : JobEnd :=
  if !j.input.all isDec || (decrypt && decide (ePar j.entry 42 = 1) && luhn (digitsOf j.input)) then { status := 0x100B }
  else { result := asciiDigits (withMiddle j (ff1Loop decrypt j 4096 (middle j))) }

/-- TOKENISE (R243). -/
def execTokenise (job : Nat) (s : State) : Host.Outcome State Fault Refusal :=
  .next (runOp 0x0503 2 true (fun _ _ => 0) (fun _ => 0) (fun _ j => tokenEnd false j) job s)

/-- DETOKENISE (R245). -/
def execDetokenise (job : Nat) (s : State) : Host.Outcome State Fault Refusal :=
  .next (runOp 0x0504 2 true (fun _ _ => 0) (fun _ => 0) (fun _ j => tokenEnd true j) job s)

end Sys2Proof.Machine
end

