-- ==== Sys2Proof/Machine/JobsKey.lean ====
section
/-! DEFINITION. Key jobs and service jobs: opcodes 0x0401 to 0x040A, 0x0505 and 0x0601 to 0x0603
(04_transaction_jobs.md R226 to R237, R246 to R249; 08_audit_log.md R403 to R405). -/

namespace Sys2Proof.Machine

/-! ### Key blocks (R226, R227, R230 to R233) -/

/-- Random bytes that one key block takes: padding and PB text (R258) (PRESUMED, log 27). -/
def padDraw : Nat := 96

/-- GENERATE (R226, R227): key material and padding in one draw. -/
def execGenerate (job : Nat) (s : State) : Host.Outcome State Fault Refusal :=
  .next (runOp 0x0401 2 false noWriteKey (fun j => field j.entry 48 2 / 8 + padDraw)
    (fun s j =>
      let n := field j.entry 48 2 / 8
      blockEnd s j (template j.entry) (j.rand.take n) (j.rand.drop n) []) job s)

/-- The version D or B subject of IMPORT against its K1 key's algorithm (R194, R230). -/
def subjectAlgBad (j : Job) : Bool :=
  let v := (j.input.getD 0 0).toNat
  let a := (key1Of j).desc.alg
  decide ((v = 0x44 ∧ a ≠ code1 'A') ∨ (v = 0x42 ∧ a ≠ code1 'T'))

/-- The subject of IMPORT, unwrapped (R230). -/
def openSubject (j : Job) : BlobResult :=
  match parseBlock true j.input with
  | none => .status 0x2008
  | some p => openBlock (key1Of j).material 0 j.input p 0x2008

/-- IMPORT (R230). -/
def execImport (job : Nat) (s : State) : Host.Outcome State Fault Refusal :=
  .next (runOp 0x0403 2 false
    (fun s j =>
      if noWriteKey s j ≠ 0 then noWriteKey s j
      else if subjectAlgBad j then 0x2004
      else match openSubject j with
        | .status st => st
        | .key _ => 0)
    (fun _ => padDraw)
    (fun s j => match openSubject j with
      | .status st => { status := st }
      | .key k => blockEnd s j k.desc k.material j.rand []) job s)

/-- TRANSLATE_KEYBLOCK (R231, R342). -/
def execTranslateKeyblock (job : Nat) (s : State) : Host.Outcome State Fault Refusal :=
  .next (runOp 0x0404 2 false noWriteKey (fun _ => padDraw)
    (fun s j =>
      let k := key1Of j
      if k.desc.isRecord then
        { out := writeRecord ((writeKey s j).getD 0) j.genCur j.inst k.desc k.material (j.rand.take 12) }
      else blockEnd s j k.desc k.material j.rand []) job s)

/-- EXPORT_UNDER_KEK (R232): a version D block under the K1 key of BLOB2_PTR. -/
def execExportUnderKek (job : Nat) (s : State) : Host.Outcome State Fault Refusal :=
  .next (runOp 0x0405 2 false (fun _ _ => 0) (fun _ => padDraw)
    (fun _ j =>
      let k := key1Of j
      let kek := (key2Of j).material
      let b := writeBlock kek (keyKcv (code1 'A') kek 5) k.desc k.material j.rand
      { result := blockResult k.desc.alg k.material b, out := b }) job s)

/-- KCV (R233). -/
def execKcv (job : Nat) (s : State) : Host.Outcome State Fault Refusal :=
  .next (runOp 0x0406 2 false (fun _ _ => 0) (fun _ => 0)
    (fun _ j =>
      let k := key1Of j
      { result := keyKcv k.desc.alg k.material (if k.desc.alg = code1 'T' then 3 else 5) }) job s)

/-! ### Records and lattice keys (R228, R234 to R237) -/

/-- A record under the job's current KBPK with its answer (R228, R234). -/
def recordEnd (s : State) (j : Job) (d : KeyDesc) (material nonce pub : Bytes) : JobEnd :=
  let r := writeRecord ((writeKey s j).getD 0) j.genCur j.inst d material nonce
  { result := le 4 r.length ++ le 4 pub.length ++ (hashBytes (sha256 r)).take 12, out := r ++ pub }

/-- GENERATE_PAIR (R228). -/
def execGeneratePair (job : Nat) (s : State) : Host.Outcome State Fault Refusal :=
  .next (runOnEngine 0x0402 1 noWriteKey (fun _ => 76)
    (fun s j =>
      let e := j.entry
      let m := newMaterial (ePar e 40) (j.rand.take 64)
      recordEnd s j
        { isRecord := true, alg := ePar e 40, mode := 1, recUsage := field e 42 2, flags := 3, created := position s
          origin := deviceFp } m (j.rand.drop 64) (pubOf (ePar e 40) m)) job s)

/-- IMPORT_PUBLIC (R234). -/
def execImportPublic (job : Nat) (s : State) : Host.Outcome State Fault Refusal :=
  .next (runOnEngine 0x0407 2
    (fun s j => if noWriteKey s j ≠ 0 then noWriteKey s j else if pubValid (ePar j.entry 40) j.input then 0 else 0x2007)
    (fun _ => 12)
    (fun s j =>
      let e := j.entry
      recordEnd s j
        { isRecord := true, alg := ePar e 40, mode := 2, recUsage := field e 42 2, flags := 4, created := position s
          origin := zeros 24 } j.input j.rand []) job s)

/-- The public key of a record (R235). -/
def recordPub (k : Key) : Bytes := if k.desc.mode = 2 then k.material else pubOf k.desc.alg k.material

/-- PUBLIC_KEY (R235). -/
def execPublicKey (job : Nat) (s : State) : Host.Outcome State Fault Refusal :=
  .next (runOnEngine 0x0408 1 (fun _ _ => 0) (fun _ => 0) (fun _ j => { out := recordPub (key1Of j) }) job s)

/-- ENCAPSULATE (R236): ciphertext, then a key block with the shared secret. -/
def execEncapsulate (job : Nat) (s : State) : Host.Outcome State Fault Refusal :=
  .next (runOnEngine 0x0409 1 noWriteKey (fun _ => 32 + padDraw)
    (fun s j =>
      let alg := (key1Of j).desc.alg
      let a := [BitVec.ofNat 8 alg]
      let ek := recordPub (key1Of j)
      let m := j.rand.take 32
      blockEnd s j (template j.entry) (Config.out .kemShared [a, ek, m] 32) (j.rand.drop 32)
        (Config.out .kemEncaps [a, ek, m] (kemLen alg))) job s)

/-- DECAPSULATE (R237). -/
def execDecapsulate (job : Nat) (s : State) : Host.Outcome State Fault Refusal :=
  .next (runOnEngine 0x040A 1
    (fun s j =>
      if noWriteKey s j ≠ 0 then noWriteKey s j
      else if j.input.length ≠ kemLen (key1Of j).desc.alg then 0x1008 else 0)
    (fun _ => padDraw)
    (fun s j =>
      let alg := (key1Of j).desc.alg
      blockEnd s j (template j.entry)
        (Config.out .kemDecaps [[BitVec.ofNat 8 alg], (key1Of j).material, j.input] 32) j.rand []) job s)

/-! ### Service jobs (R246 to R249) -/

/-- The hash primitive of a code of R246. -/
def hashPrim (a : Nat) : Config.Prim :=
  if a = 1 then .sha224 else if a = 2 then .sha256 else if a = 3 then .sha384 else if a = 4 then .sha512
  else if a = 5 then .sha512_256 else if a = 0x11 then .sha3_256 else if a = 0x12 then .sha3_384
  else if a = 0x13 then .sha3_512 else if a = 0x21 then .shake128 else .shake256

/-- HASH (R246). -/
def execHash (job : Nat) (s : State) : Host.Outcome State Fault Refusal :=
  .next (runOp 0x0505 2 true (fun _ _ => 0) (fun _ => 0)
    (fun _ j =>
      let d := Config.out (hashPrim (ePar j.entry 40)) [j.input] (hashOut j.entry)
      if hashOut j.entry ≤ 44 then { result := d } else { out := d }) job s)

/-- GET_RANDOM (R247): one generate call for the whole output. -/
def execGetRandom (job : Nat) (s : State) : Host.Outcome State Fault Refusal :=
  .next (runOp 0x0601 4 false (fun _ _ => 0) (fun j => eOutCap j.entry) (fun _ j => { out := j.rand }) job s)

/-- NOP_FENCE (R249). -/
def execNopFence (job : Nat) (s : State) : Host.Outcome State Fault Refusal :=
  .next (runOp 0x0603 2 false (fun _ _ => 0) (fun _ => 0) (fun _ _ => {}) job s)

/-! ### AUDIT_PROOF (R248, R403 to R405) -/

/-- Status of a proof before any read (R403 items 1 and 2). -/
def proofPre (s : State) (j : Job) : Nat :=
  let l := logAt s j.inst
  let i := field j.entry 40 8
  if l.seqNext ≤ i ∨ !l.psEn ∨ i + 2 ^ l.psLog2 < l.seqNext ∨ i < l.provFrom then 0x1007
  else if l.covered ≤ i then 0x4002
  else 0

/-- The seal and node base that a leaf-map entry names (R399). -/
def mapSeal (b : Bytes) : Nat := field b 0 8
def mapBase (b : Bytes) : Nat := field b 8 8

/-- The seal that covers the leaf is still provable, as the leaf map alone shows (R403 item 3). -/
def proofSealBad (s : State) (j : Job) (m : Bytes) : Bool :=
  let l := logAt s j.inst
  let h : Nat := match tfind l.bases (mapSeal m) with | some b => b.2 | none => 0
  decide (mapSeal m < l.unprovBelow ∨ mapSeal m + 4096 < l.sealNext ∨ mapBase m + 2 ^ (l.psLog2 + 1) < l.fill ∨
    2 ^ (l.psLog2 + 1) < 2 ^ (h + 1) - 1)

/-- The seal-table entry fails a check of R403. -/
def proofEntryBad (j : Job) (m e : Bytes) : Bool :=
  let i := field j.entry 40 8
  let first := field e 16 6
  let count := field e 24 4
  decide (field e 8 6 ≠ mapSeal m ∨ field e 14 2 % 1024 ≠ j.inst ∨ i < first ∨ first + count ≤ i ∨
    field e 33 1 ≠ sealHeight count)

/-- Node (h, k) of a seal of `count` leaves is all padding. -/
def allPadding (count h k : Nat) : Bool := decide (count ≤ k * 2 ^ h)

/-- The proof of R405 from what was read: the 256-byte seal-table entry, the leaf's hash, then one node for each level. -/
def proofOut (j : Job) (b : Bytes) : Bytes :=
  let i := field j.entry 40 8
  let first := field b 16 6
  let count := field b 24 4
  let h := field b 33 1
  let sib (k : Nat) : Bytes :=
    if allPadding count k (((i - first) / 2 ^ k) ^^^ 1) then hashBytes (zHash k) else slice b (288 + 32 * k) 32
  slice b 0 224 ++ le 8 i ++ [BitVec.ofNat 8 h] ++ zeros 7 ++ slice b 256 32 ++ ((List.range h).map sib).flatten

/-- AUDIT_PROOF: the leaf map is read, then the seal-table entry and nodes, then the proof is written (R403, R405). -/
def auditProof (n : Nat) (s : State) : State :=
  match jobAt s n with
  | none => s
  | some j =>
    if !atStep6 0x0602 j then s
    else match j.proof with
      | [] => if proofPre s j ≠ 0 then failJob s n (proofPre s j) else modJob s n fun j => { j with phase := .readProof }
      | [m] => if proofSealBad s j m then failJob s n 0x1007 else modJob s n fun j => { j with phase := .readProof }
      | m :: b :: _ => if proofEntryBad j m b then failJob s n 0x1007 else finishJob s n j { out := proofOut j b }

/-- AUDIT_PROOF (R403). -/
def execAuditProof (job : Nat) (s : State) : Host.Outcome State Fault Refusal := .next (auditProof job s)

end Sys2Proof.Machine
end

