-- ==== Sys2Proof/Machine/JobsSig.lean ====
section
/-! DEFINITION. Signature jobs (04_transaction_jobs.md R197 to R207; 05 R297 to R299) and the signature pipeline: own
signatures, checks, gathering, evaluation, bisection, arbitration (10_signature_pipeline.md R450 to R479). -/

namespace Sys2Proof.Machine

/-! ### Own signatures -/

/-- Half page of a half (R75). -/
def halfPage (h : Nat) : Nat := 0x090 + h

def putOwn (s : State) (k : Nat) (o : OwnSig) : State := { s with sig := { s.sig with own := tput s.sig.own k o } }
def dropOwn (s : State) (k : Nat) : State := { s with sig := { s.sig with own := tdel s.sig.own k } }

/-- A signature begins to wait for its check (R456). -/
def addOwn (s : State) (o : OwnSig) : State :=
  { s with sig := { s.sig with own := tput s.sig.own s.sig.nextOwn o, nextOwn := s.sig.nextOwn + 1 } }

/-! ### SIGN (R197 to R201, R450, R452 to R455) -/

/-- Checks of SIGN on key, lengths and capacity (R185 items 6 to 8). -/
def signPre (j : Job) : Nat :=
  let e := j.entry
  let alg := sigAlg j
  if sigParamBad alg e then 0x1007
  else if ePar e 41 = 1 ∧ eInLen e - ePar e 44 ≠ formLen alg (ePar e 42) then 0x1008
  else if (alg = 3 ∨ alg = 4) ∧ 65536 - sigLen alg < eInLen e then 0x1008
  else 0

/-- A signature is made and waits for its cross-check. -/
def makeSig (s : State) (n : Nat) (j : Job) (p : Nat) : State :=
  let e := j.entry
  let alg := sigAlg j
  let k := key1Of j
  let ctx := ePar e 44
  let msg := sigMessage e (j.input.take ctx) (j.input.drop ctx)
  let raw := signature alg k.material msg j.rand
  let out := if ePar e 48 = 1 then derSig raw else raw
  let parity := if signParity alg k.material msg j.rand then 3 else 2
  let s := releaseEngine s p
  if eOutCap e < out.length then endJob s n 0x1006 [] [] out.length
  else
    addOwn (modJob s n fun j =>
      { j with
        phase := .crossCheck, result := if isEcdsa alg then [BitVec.ofNat 8 parity] else [], out := out, outLen := out.length })
      { owner := .job n, alg := alg, signer := p, half := 1 - halfOf (j.chan.getD 0), pub := recordPub k, msg := msg, sig := raw }

/-- SIGN. -/
def signJob (n : Nat) (s : State) : State :=
  match jobAt s n with
  | none => s
  | some j =>
    if !atStep6 0x0101 j then s
    else if wantsInput j then modJob s n fun j => { j with phase := .nextSegment }
    else if signPre j ≠ 0 then failJob s n (signPre j)
    else if ePar j.entry 48 = 0 ∧ eOutCap j.entry < sigLen (sigAlg j) then endJob s n 0x1006 [] [] (sigLen (sigAlg j))
    else if !halfRuns s (1 - halfOf (j.chan.getD 0)) then failJob s n 0x5002
    else if j.rand = [] then askForJob s n j 2 32
    else if !engineLeft s j then failJob s n 0x5001
    else match claimEngine s j with
      | (none, s) => s
      | (some p, s) => makeSig s n j p

/-- SIGN (R201). -/
def execSign (job : Nat) (s : State) : Host.Outcome State Fault Refusal := .next (signJob job s)

/-! ### ATTEST_KEY (R207, R297 to R299) -/

/-- The statement's body (R297). -/
def attestBody (s : State) (j : Job) : Bytes :=
  let k := key1Of j
  let d := k.desc
  let pub := recordPub k
  [0x45#8, 0x5A#8, 0x41#8, 0x31#8] ++ le 2 (88 + pub.length) ++ [BitVec.ofNat 8 d.alg, BitVec.ofNat 8 d.flags] ++
    le 2 d.recUsage ++ le 2 d.inst ++ [BitVec.ofNat 8 d.kbpkGen, BitVec.ofNat 8 (lifecycle s)] ++ zeros 2 ++ slice j.entry 40 16 ++
    le 8 (position s) ++ le 8 d.created ++ (hashBytes (sha256 j.blob1)).take 12 ++ pad 24 d.origin ++ le 4 pub.length ++ pub

/-- Signatures of the two identity keys over a body (R297): ECDSA P-384 and ML-DSA-87 with a context. -/
def identityEc (body rnd : Bytes) : Bytes :=
  Config.out .sign [[2#8], be 48 Config.identityEcPriv.toNat, body, rnd] 96
def identityPq (body ctx rnd : Bytes) : Bytes :=
  Config.out .sign [[0x0A#8], be 32 Config.identityPqPriv.toNat, body, rnd, ctx] 4627
def identityPub (alg : Nat) : Bytes := Config.out .identityPub [[BitVec.ofNat 8 alg]] (pubLen alg)

/-- The half that checks a signature of the keel: the first with a RUNNING channel (R457). -/
def keelHalf (s : State) : Option Nat := [0, 1].find? (halfRuns s)

/-- ATTEST_KEY. -/
def attestJob (n : Nat) (s : State) : State :=
  match jobAt s n with
  | none => s
  | some j =>
    let need := 88 + (recordPub (key1Of j)).length + 4723
    if !atStep6 0x0104 j then s
    else if eOutCap j.entry < need then endJob s n 0x1006 [] [] need
    else if lifecycle s = 0 ∨ lifecycle s = 3 then failJob s n 0x6001
    else match keelHalf s with
      | none => s
      | some h =>
        let body := attestBody s j
        let (r, s) := keelDraw s 64
        let a := identityEc body (r.take 32)
        let b := identityPq body (ascii "ECZ-ATTEST") (r.drop 32)
        let s := modJob s n fun j => { j with phase := .crossCheck, out := body ++ a ++ b, outLen := need }
        addOwn (addOwn s { owner := .attest n, alg := 2, half := h, pub := identityPub 2, msg := body, sig := a })
          { owner := .attest n, alg := 0x0A, half := h, pub := identityPub 0x0A, msg := body, sig := b }

/-- ATTEST_KEY (R297). -/
def execAttestKey (job : Nat) (s : State) : Host.Outcome State Fault Refusal := .next (attestJob job s)

/-! ### VERIFY and VERIFY_BATCH (R202 to R206) -/

/-- A received signature to verify: key, hint, raw signature (none where its DER is malformed), message. -/
structure Claim where
  alg : Nat := 0
  pub : Bytes := []
  hint : Nat := 0
  sig : Option Bytes := none
  msg : Bytes := []
  deriving DecidableEq, Repr

/-- The claim of a VERIFY job (R202). -/
def verifyClaim (j : Job) : Claim :=
  let e := j.entry
  let alg := sigAlg j
  let kl := if eBlob e = 0 then field e 52 2 else 0
  let ctx := ePar e 44
  let sl := field e 46 2
  let sig := slice j.input (kl + ctx) sl
  { alg := alg, pub := if eBlob e = 0 then j.input.take kl else recordPub (key1Of j), hint := ePar e 45
    sig := if ePar e 48 = 1 then rawSig (sigLen alg / 2) sig else some sig
    msg := sigMessage e (slice j.input kl ctx) (j.input.drop (kl + ctx + sl)) }

/-- Checks of VERIFY on key and input (R185 items 6 and 7). -/
def verifyPre (j : Job) : Nat :=
  let e := j.entry
  let alg := sigAlg j
  let kl := if eBlob e = 0 then field e 52 2 else 0
  let head := kl + ePar e 44 + field e 46 2
  if sigParamBad alg e then 0x1007
  else if eInLen e < head ∨ (ePar e 48 = 0 ∧ field e 46 2 ≠ sigLen alg) then 0x1008
  else if ePar e 41 = 1 ∧ eInLen e - head ≠ formLen alg (ePar e 42) then 0x1008
  else if !pubValid alg (verifyClaim j).pub then 0x2007
  else 0

/-- One member record of VERIFY_BATCH at the front of the rest of the input, with the record's length (R205). -/
def memberOf (j : Job) (alg : Nat) (b : Bytes) : Claim × Nat :=
  let e := j.entry
  let inline_ := decide (eBlob e = 0)
  let first := field b 0 1
  let kl := if !inline_ then 0
    else if (alg = 1 ∨ alg = 2) ∧ (first = 2 ∨ first = 3) then (pubLen alg - 1) / 2 + 1 else pubLen alg
  let hl := if alg ≤ 2 then 1 else 0
  let so := kl + hl
  let mo := so + sigLen alg
  let ml := field b mo 4
  let len := (mo + 4 + ml + 7) / 8 * 8
  ({ alg := alg, pub := if inline_ then slice b 0 kl else recordPub (key1Of j), hint := if hl = 1 then field b kl 1 else 2
     sig := some (slice b so (sigLen alg)), msg := sigMessage e [] (slice b (mo + 4) (min ml b.length)) }, len)

/-- The members of a VERIFY_BATCH job, none where the records do not fill the input exactly (R205). -/
def membersOf (j : Job) (alg : Nat) : Nat → Bytes → Option (List Claim)
  | 0, b => if b.isEmpty then some [] else none
  | n + 1, b =>
    let (c, len) := memberOf j alg b
    if b.length < len ∨ (ePar j.entry 41 = 1 ∧ c.msg.length ≠ 5 + formLen alg (ePar j.entry 42)) then none
    else (membersOf j alg n (b.drop len)).map (c :: ·)

def batchClaims (j : Job) : Option (List Claim) := membersOf j (sigAlg j) (ePar j.entry 49) j.input

/-- Checks of VERIFY_BATCH on key and input (R185 items 6 and 7, R206) (DEDUCED, log 34). -/
def batchPre (j : Job) : Nat :=
  let e := j.entry
  let alg := sigAlg j
  if (ePar e 41 ≠ 0 ∨ ePar e 42 ≠ 0) ∧ !isEcdsa alg then 0x1007
  else match batchClaims j with
    | none => 0x1008
    | some cs =>
      if isEcdsa alg ∧ cs.any (fun c => !(decide (c.hint = 0 ∨ c.hint = 2 ∨ c.hint = 3))) then 0x100B
      else if eBlob e ≠ 0 ∧ !pubValid alg (recordPub (key1Of j)) then 0x2007
      else 0

/-- A verification job passes its checks and waits to be gathered (R469). -/
def toVerify (op : Nat) (pre : Job → Nat) (n : Nat) (s : State) : State :=
  match jobAt s n with
  | none => s
  | some j =>
    if !atStep6 op j then s
    else if wantsInput j then modJob s n fun j => { j with phase := .nextSegment }
    else if pre j ≠ 0 then failJob s n (pre j)
    else modJob s n fun j => { j with phase := .verify }

/-- VERIFY (R203). -/
def execVerify (job : Nat) (s : State) : Host.Outcome State Fault Refusal := .next (toVerify 0x0102 verifyPre job s)

/-- VERIFY_BATCH (R206). -/
def execVerifyBatch (job : Nat) (s : State) : Host.Outcome State Fault Refusal := .next (toVerify 0x0103 batchPre job s)

/-! ### Deciding members -/

/-- The signature decodes and passes the checks of R204: r and s from 1 to the order less 1; R canonical and on the curve, S
below the order. -/
def sigDecodes (c : Claim) : Bool :=
  match c.sig with
  | none => false
  | some g =>
    let h := g.length / 2
    match namedCurve c.alg with
    | none => true
    | some v =>
      decide (g.length = sigLen c.alg) &&
        if v.edwards then edPointOk v (g.take h) && decide (unle (g.drop h) < v.order)
        else decide (0 < unbe (g.take h) ∧ unbe (g.take h) < v.order ∧ 0 < unbe (g.drop h) ∧ unbe (g.drop h) < v.order)

/-- A member whose key or signature fails decoding or the checks of R204 is decided invalid without an evaluation (R471). -/
def deadClaim (c : Claim) : Bool := !(pubValid c.alg c.pub && sigDecodes c)

/-- A claim verifies singly (R203, R204). -/
def claimValid (c : Claim) : Bool := !deadClaim c && verifies c.alg c.pub (c.sig.getD []) c.msg

/-- A claim that an equation of R472 can hold: EdDSA, or ECDSA whose hint gives the point R (R203, R469, R470). -/
def batchable (c : Claim) : Bool :=
  match namedCurve c.alg with
  | none => false
  | some v =>
    v.edwards || (decide (c.hint = 2 ∨ c.hint = 3) &&
      let g := c.sig.getD []
      (ptDecomp (asSlot v) (unbe (g.take (g.length / 2))) (c.hint - 2)).isSome)

/-- The hint of an ECDSA claim is R's parity (R203). -/
def hintRight (c : Claim) : Bool :=
  if isEcdsa c.alg then decide (c.hint = 3) == Config.check .ecdh [[BitVec.ofNat 8 c.alg], c.pub, c.sig.getD [], c.msg] else true

/-- The claim of a member of an evaluation; none for an own signature. -/
def claimOf (s : State) : Member → Option Claim
  | .own _ => none
  | .verify n => (jobAt s n).map verifyClaim
  | .batch n k => (jobAt s n).bind fun j => (batchClaims j).bind fun cs => cs[k]?

/-- A member satisfies the equation it is evaluated in: an own signature, made by this device, does; a received one when it
verifies and, in a batch, its hint is right. -/
def memberHolds (s : State) (single : Bool) (m : Member) : Bool :=
  match claimOf s m with
  | none => true
  | some c => claimValid c && (single || hintRight c)

/-- The job still waits for its verification. -/
def verifying (s : State) (n : Nat) : Bool := match jobAt s n with
  | some j => decide (j.phase = .verify)
  | none => false

/-- A VERIFY_BATCH job whose members are all decided ends (R206, R474). -/
def endBatch (s : State) (n : Nat) : State :=
  match jobAt s n with
  | none => s
  | some j =>
    let mine := s.sig.decided.filter fun d => d.1 = n
    if !verifying s n ∨ mine.length < ePar j.entry 49 then s
    else
      let map := (mine.map fun d => bitAt d.2.2 d.2.1).sum
      let s := { s with sig := { s.sig with decided := s.sig.decided.filter fun d => d.1 ≠ n } }
      endJob s n (if mine.all (·.2.2) then 0 else 0x3001) (le 8 map) [] 0

/-- A received member is decided (R474, R475). -/
def decideMember (s : State) (m : Member) (valid : Bool) : State :=
  match m with
  | .own _ => s
  | .verify n => if verifying s n then endJob s n (if valid then 0 else 0x3001) [] [] 0 else s
  | .batch n k =>
    if verifying s n then endBatch { s with sig := { s.sig with decided := s.sig.decided ++ [(n, k, valid)] } } n else s

/-- An own signature passes its check and is released (R464). -/
def passOwn (s : State) (h k : Nat) : State :=
  match tfind s.sig.own k with
  | none => s
  | some o =>
    let r := halfAt s h
    let s := putHalf (dropOwn s k) h { r with pass := r.pass + 1 }
    let rel (n : Nat) (s : State) : State :=
      modJob s n fun j => if j.phase = .crossCheck then { j with phase := .final, status := 0 } else j
    match o.owner with
    | .job n => rel n s
    | .attest n => if s.sig.own.any fun e => decide (e.2.owner = .attest n) then s else rel n s

/-! ### Engines that check (R457, R462, R463) -/

/-- An engine of a RUNNING channel that may take a check or an evaluation now. -/
def checksNow (s : State) (p : Nat) : Bool :=
  decide (kindOf p = 0x05 ∨ kindOf p = 0x06) && takesWork s p && !(unitAt s p).level &&
    decide ((tget {} s.sails p).estate = .idle ∧ (tget {} s.sails p).job = none) &&
    takesWork s (chanPage (chanOf p)) && !withdrawn s (chanOf p) && !underTest s (chanOf p)

/-- A DRBG that delivers. -/
def drbgReady (s : State) (d : Nat) : Bool := decide ((drbgAt s d).state = .seeded) && !(drbgAt s d).atLimit

/-- Largest batch on an engine (R463, R469). -/
def batchMax (p alg : Nat) : Nat := if (alg = 2 ∨ alg = 4) ∧ !isWide p then 32 else 64

/-- Job that an own signature belongs to. -/
def ownerJob (o : OwnSig) : Nat := match o.owner with
  | .job n => n
  | .attest n => n

/-- Own signatures of half `h` that engine `p` may check, in order of arrival (R463, R466). -/
def waitingOwn (s : State) (h p : Nat) : List (Nat × OwnSig) :=
  s.sig.own.filter fun e => decide (e.2.half = h) && e.2.by_.isNone && e.2.foundBy.isNone &&
    !((jobAt s (ownerJob e.2)).map fun j => j.excluded.contains p).getD false

/-- Words of a key table (R460), none where the key-table form does not exist. -/
def tableWords (alg : Nat) : Option Nat :=
  match alg with
  | 1 => some 1024 | 2 => some 1536 | 3 => some 1024 | 4 => some 1792 | 5 => some 0 | 6 => some 0 | 7 => some 0
  | 8 => some 2560 | 9 => some 4608 | _ => none

/-- Instance that an own signature belongs to, none for the keel's identity keys. -/
def ownInst (s : State) (o : OwnSig) : Option Nat := match o.owner with
  | .job n => (jobAt s n).map (·.inst)
  | .attest _ => none

/-- A table for the key of an own signature stands on the engine. -/
def hasTable (s : State) (p : Nat) (o : OwnSig) : Bool :=
  s.sig.tables.any fun t => decide (t.engine = p ∧ t.alg = o.alg ∧ t.pub = o.pub)

/-- A table is built when R462 allows it. -/
def buildTable (s : State) (p : Nat) (o : OwnSig) (waiting : List (Nat × OwnSig)) : State :=
  match ownInst s o, tableWords o.alg with
  | some i, some w =>
    let e := tget {} s.sails p
    let same := waiting.countP fun x => decide (x.2.alg = o.alg ∧ x.2.pub = o.pub)
    let used := ((s.sig.tables.filter fun t => t.engine = p).map (·.words)).sum
    if isWide p && e.ownerValid && decide (e.ownerInst = i ∧ 8 ≤ same ∧ used + w ≤ 6144) && !hasTable s p o then
      { s with sig := { s.sig with tables := s.sig.tables ++ [{ engine := p, inst := i, alg := o.alg, pub := o.pub, words := w }] } }
    else s
  | _, _ => s

/-- The signatures that the next check on an engine takes (R463). -/
def checkGroup (s : State) (p : Nat) (waiting : List (Nat × OwnSig)) : List Nat :=
  match waiting with
  | [] => []
  | o :: _ =>
    if hasTable s p o.2 then
      ((waiting.filter fun x => decide (x.2.alg = o.2.alg ∧ x.2.pub = o.2.pub)).map (·.1)).take (if o.2.alg ≤ 4 then 64 else 1)
    else if o.2.alg ≤ 4 then
      ((waiting.filter fun x => decide (x.2.alg = o.2.alg)).map (·.1)).take (batchMax p o.2.alg)
    else [o.1]

/-- An evaluation of the front group begins: counted; the weights of a batch are drawn in one generate call (R472, R478)
(DESIGN CHOICE, log 37). -/
def startEval (s : State) (p : Nat) (single bisect : Bool) : State :=
  let h := halfOf (chanOf p)
  let r := halfAt s h
  let s := putHalf s h { r with evals := r.evals + 1, bisects := if bisect then r.bisects + 1 else r.bisects }
  if single then s else countCall s (chanOf p)

/-- An engine begins an evaluation of groups. -/
def beginEval (s : State) (p : Nat) (groups : List (List Member)) (single : Bool) : State :=
  let s := { s with sig := { s.sig with evals := tput s.sig.evals p { groups := groups, single := single } } }
  startEval (putSail s p { sailAt s p with estate := .busy }) p single false

/-- The DRBG refuses every request (R526). -/
def refuses (s : State) (d : Nat) : Bool := decide ((drbgAt s d).state = .unseeded)

/-- The DRBG of every RUNNING channel of a half refuses: no engine of it can check (R468). -/
def halfStarved (s : State) (h : Nat) : Bool :=
  (List.range 34).all fun c => !(decide (halfOf c = h) && isRunning s (chanPage c)) || refuses s c

/-- A check that no engine of its half can make (R457, R468): a keel signature goes to the other half where that one can, a
job ends with 0x7001. -/
def starveOwn (s : State) (k : Nat) (o : OwnSig) : State :=
  match o.owner with
  | .attest n =>
    if halfRuns s (1 - o.half) && !halfStarved s (1 - o.half) then putOwn s k { o with half := 1 - o.half }
    else failJob (dropOwn s k) n 0x7001
  | .job n => failJob (dropOwn s k) n 0x7001

/-- CHECK_FORM (R457, R462, R463, R468): a free engine forms a check of its half's waiting own signatures. -/
def formCheck (s : State) (p : Nat) : State :=
  let h := halfOf (chanOf p)
  let waiting := waitingOwn s h p
  if !checksNow s p then s
  else match waiting with
    | [] => s
    | o :: _ =>
      if drbgReady s (chanOf p) then
        let s := buildTable s p o.2 waiting
        let g := checkGroup s p waiting
        let s := g.foldl (fun s k => match tfind s.sig.own k with
          | some o => putOwn s k { o with by_ := some p }
          | none => s) s
        beginEval s p [g.map Member.own] (decide (g.length = 1))
      else if halfStarved s h then waiting.foldl (fun s x => starveOwn s x.1 x.2) s
      else s

/-- CHECK_FORM (R463). -/
def execCheckForm (page : Nat) (s : State) : Host.Outcome State Fault Refusal := .next (formCheck s page)

/-! ### Gathering (R469 to R471) -/

/-- Jobs of the members of every evaluation, and members already decided: not waiting any more. -/
def inEval (s : State) (m : Member) : Bool :=
  s.sig.evals.any fun e => (e.2.groups ++ e.2.next).any (·.contains m) || e.2.redo.contains m

/-- Verification jobs waiting in a channel, in take order. -/
def verifyJobs (s : State) (c : Nat) : List (Nat × Job) :=
  s.jobs.filter fun e => decide (e.2.phase = .verify ∧ e.2.chan = some c)

/-- A VERIFY job may be gathered (R469). -/
def gatherable (j : Job) : Bool := batchable (verifyClaim j)

/-- VERIFY jobs gathered with the first waiting one. -/
def gatherWith (s : State) (c p n : Nat) (j : Job) : List Nat :=
  if gatherable j then
    (((verifyJobs s c).filter fun e => decide (eOp e.2.entry = 0x0102 ∧ e.2.inst = j.inst ∧ sigAlg e.2 = sigAlg j) &&
      gatherable e.2 && !inEval s (.verify e.1)).map (·.1)).take (batchMax p (sigAlg j))
  else [n]

/-- Undecided members of a VERIFY_BATCH job that no engine evaluates, as number and claim. -/
def openMembers (s : State) (n : Nat) (j : Job) : List (Nat × Claim) :=
  let cs := (batchClaims j).getD []
  ((List.range cs.length).filterMap fun k => cs[k]?.map fun c => (k, c)).filter fun m =>
    !(s.sig.decided.any fun d => decide (d.1 = n ∧ d.2.1 = m.1)) && !inEval s (.batch n m.1)

/-- A verification job that has something to gather. -/
def needsGather (s : State) (e : Nat × Job) : Bool :=
  if eOp e.2.entry = 0x0102 then !inEval s (.verify e.1) else !(openMembers s e.1 e.2).isEmpty

/-- The wide engine of the channel could take the batch instead (R470). -/
def leaveToWide (s : State) (p alg k : Nat) : Bool :=
  decide (alg = 2 ∨ alg = 4) && decide (32 < k) && !isWide p && checksNow s (chanPage (chanOf p) + 7)

/-- The waiting members that the first waiting job `n` of channel `c` brings to engine `p` (R469, R470). -/
def candidates (s : State) (c p n : Nat) (j : Job) : List (Member × Claim) :=
  if eOp j.entry = 0x0102 then
    (gatherWith s c p n j).filterMap fun m => (jobAt s m).map fun x => (Member.verify m, verifyClaim x)
  else (openMembers s n j).map fun m => (Member.batch n m.1, m.2)

/-- A wide engine first takes the job's owner (R439, R440). -/
def claimWideOr (s : State) (j : Job) (p : Nat) : Bool × State :=
  if isWide p then
    match claimWide s j p with
    | (some _, s) => (true, s)
    | (none, s) => (false, wipeEngine s p)
  else (true, s)

/-- Jobs of members that wait for a DRBG that refuses end with 0x7001, own signatures wait again (R468, R922). -/
def starveEval (s : State) (ms : List Member) : State :=
  ms.foldl (fun s m => match m with
    | .own k => match tfind s.sig.own k with
      | some o => putOwn s k { o with by_ := none }
      | none => s
    | .verify n => failJob s n 0x7001
    | .batch n _ => failJob s n 0x7001) s

/-- Received members taken together: as one batch when two or more can share an equation, else each by the VERIFY sequence,
which draws nothing (R469, R470, R472); a batch waits for its DRBG, or ends its jobs (R514, R526, R922). -/
def gatherLive (s : State) (p : Nat) (j : Job) (ms : List (Member × Claim)) : State :=
  let both := ms.filter fun m => batchable m.2
  if eOp j.entry = 0x0103 ∧ leaveToWide s p (sigAlg j) both.length then s
  else if 2 ≤ both.length then
    let g := (both.map (·.1)).take (batchMax p (sigAlg j))
    if refuses s (chanOf p) then starveEval s g
    else if !drbgReady s (chanOf p) then s
    else match claimWideOr s j p with
      | (false, s) => s
      | (true, s) => beginEval s p [g] false
  else match claimWideOr s j p with
    | (false, s) => s
    | (true, s) => beginEval s p (ms.map fun m => [m.1]) true

/-- VERIFY_GATHER (R469 to R471): a free engine takes the first verification job waiting in its channel; members that fail
decoding are decided first. -/
def gather (s : State) (p : Nat) : State :=
  let c := chanOf p
  if !checksNow s p then s
  else match (verifyJobs s c).filter (needsGather s) with
    | [] => s
    | (n, j) :: _ =>
      if j.excluded.contains p then s
      else
        let ms := candidates s c p n j
        let live := ms.filter fun m => !deadClaim m.2
        let s := (ms.filter fun m => deadClaim m.2).foldl (fun s m => decideMember s m.1 false) s
        if live.isEmpty then s else gatherLive s p j live

/-- VERIFY_GATHER (R469). -/
def execVerifyGather (page : Nat) (s : State) : Host.Outcome State Fault Refusal := .next (gather s page)

/-! ### Evaluation and bisection (R472 to R475) -/

/-- An own signature's check finds it invalid (R465): it is discarded and waits for arbitration. -/
def mismatch (s : State) (p k : Nat) : State :=
  match tfind s.sig.own k with
  | none => s
  | some o =>
    let h := halfOf (chanOf p)
    let r := halfAt s h
    putOwn (putHalf s h { r with mismatch := r.mismatch + 1 }) k { o with foundBy := some p, by_ := none }

/-- The halves of a failed group (R473). -/
def splitGroup (g : List Member) : List (List Member) :=
  let k := (g.length + 1) / 2
  [g.take k, g.drop k]

/-- A failing group of one member (R473, R475): a received ECDSA member of a batch is verified again singly. -/
def failOne (s : State) (p : Nat) (single : Bool) (m : Member) : State × List Member :=
  match m with
  | .own k => (mismatch s p k, [])
  | m =>
    match claimOf s m with
    | some c => if isEcdsa c.alg && !single then (s, [m]) else (decideMember s m false, [])
    | none => (s, [])

/-- The evaluation of an engine goes on with its next group, its next level, its single checks, or ends (R473). -/
def nextEval (s : State) (p : Nat) (v : Eval) : State :=
  let put (v : Eval) (s : State) : State := { s with sig := { s.sig with evals := tput s.sig.evals p v } }
  let finish (s : State) : State :=
    let s := putSail { s with sig := { s.sig with evals := tdel s.sig.evals p } } p { sailAt s p with estate := .idle }
    releaseEngine s p
  match v.groups, v.next, v.redo with
  | [], [], [] => finish s
  | groups, next, redo =>
    let batch := !v.single && !(groups ++ next).isEmpty
    if batch && refuses s (chanOf p) then finish (starveEval s ((groups ++ next).flatten ++ redo))
    else match groups, next with
      | _ :: _, _ => startEval (put v s) p v.single (decide (0 < v.level))
      | [], _ :: _ => startEval (put { v with groups := next, next := [], level := v.level + 1 } s) p v.single true
      | [], [] => startEval (put { groups := redo.map fun m => [m], single := true } s) p true false

/-- The evaluation on engine `p` is lost (R444, R468, R922): the engine is aborted, own signatures wait again, jobs that
verify are re-run. -/
def loseEval (s : State) (p : Nat) : State :=
  match tfind s.sig.evals p with
  | none => s
  | some v =>
    let s := abortEngine { s with sig := { s.sig with evals := tdel s.sig.evals p } } p
    ((v.groups ++ v.next).flatten ++ v.redo).foldl (fun s m => match m with
      | .own k => match tfind s.sig.own k with
        | some o => putOwn s k { o with by_ := none }
        | none => s
      | .verify n | .batch n _ => if verifying s n then rerunJob s n p else s) s

/-- EVALUATION_COMPLETE (R473 to R475): the front group passes or fails; `flip` is an error of the engine. -/
def evalDone (s : State) (p : Nat) (flip : Bool) : State :=
  match tfind s.sig.evals p with
  | none => s
  | some v =>
    match v.groups with
    | [] => nextEval s p v
    | g :: rest =>
      let pass := (g.all (memberHolds s v.single)) != flip
      let v := { v with groups := rest }
      if pass then
        let s := g.foldl (fun s m => match m with
          | .own k => passOwn s (halfOf (chanOf p)) k
          | m => decideMember s m true) s
        nextEval s p v
      else match g with
        | [m] =>
          let (s, redo) := failOne s p v.single m
          nextEval s p { v with redo := v.redo ++ redo }
        | g => nextEval s p { v with next := v.next ++ splitGroup g }

/-- EVALUATION_COMPLETE (R473). -/
def execEvaluationComplete (page : Nat) (flip : Bool) (s : State) : Host.Outcome State Fault Refusal :=
  .next (evalDone s page flip)

/-! ### Arbitration and re-signing (R465 to R467) -/

/-- RUNNING engines of a half at LEVEL 0. -/
def halfEngines (s : State) (h : Nat) : List Nat :=
  ((List.range 34).filter fun c => decide (halfOf c = h) && isRunning s (chanPage c)).flatMap (enginesOf s)

/-- Engine `q` may arbitrate a discarded signature (R465). -/
def mayArbitrate (s : State) (o : OwnSig) (q : Nat) : Bool :=
  match o.foundBy with
  | none => false
  | some f =>
    let own := (halfEngines s o.half).filter (· ≠ f)
    if own.isEmpty then ((halfEngines s (1 - o.half)).filter (· ≠ o.signer)).contains q else own.contains q

/-- No engine can arbitrate (R465). -/
def noArbiter (s : State) (o : OwnSig) : Bool :=
  match o.foundBy with
  | none => false
  | some f =>
    ((halfEngines s o.half).filter (· ≠ f)).isEmpty && ((halfEngines s (1 - o.half)).filter (· ≠ o.signer)).isEmpty

/-- The charge of a mismatch (R465, R467): the third to one engine since start-up is a permanent fault (DEDUCED, log 38). -/
def chargeMismatch (s : State) (q : Nat) (asChecker : Bool) : State :=
  if !isChanPage q then s
  else
    let n := tget 0 s.sig.charges q + 1
    let h := halfOf (chanOf q)
    let s := { s with sig := { s.sig with charges := tset 0 s.sig.charges q n } }
    let s := putHalf s h { halfAt s h with chargePage := q, chargeCount := min n 3, asChecker := asChecker }
    let s := setEvent s (halfPage h) 16
    if n = 3 then engineFault (setEvent s (halfPage h) 17) q 4 else charge s q 4

/-- The job signs again with a fresh draw, or ends with 0x5001 (R466). -/
def resign (s : State) (k : Nat) (o : OwnSig) : State :=
  let n := ownerJob o
  let found := o.foundBy.getD 0
  let s := { s with sig := { s.sig with own := s.sig.own.filter fun e => !decide (e.1 = k ∨ e.2.owner = o.owner) } }
  match jobAt s n with
  | none => s
  | some j =>
    if j.phase ≠ .crossCheck then s
    else
      let j' := { j with excluded := found :: (if o.signer = 0 then [] else [o.signer]) ++ j.excluded }
      let left := (o.signer = 0 ∨ engineLeft s j') ∧ (halfEngines s o.half).any fun p => !j'.excluded.contains p
      let s := match j.chan with
        | some c => let x := chanAt s c; putChan s c { x with reruns := x.reruns + 1 }
        | none => s
      if 3 ≤ j.reruns ∨ ¬ left then
        modJob s n fun j => { j with phase := .final, status := 0x5001, result := [], out := [], outLen := 0 }
      else modJob s n fun _ =>
        { j' with phase := .run, reruns := j.reruns + 1, rand := [], result := [], out := [], outLen := 0 }

/-- ARBITRATION_COMPLETE (R465): the engine verifies the first discarded signature it may arbitrate, singly; without an
arbiter the mismatch is counted alone. `flip`: the signature fails. -/
def arbitrate (s : State) (q : Nat) (flip : Bool) : State :=
  match s.sig.own.find? fun e => mayArbitrate s e.2 q || noArbiter s e.2 with
  | none => s
  | some (k, o) =>
    if noArbiter s o then resign s k o
    else
      let found := o.foundBy.getD 0
      let h := halfOf (chanOf q)
      let r := halfAt s h
      let s := putHalf s h { r with evals := r.evals + 1 }
      let s := resign s k o
      if flip then chargeMismatch s o.signer false else chargeMismatch s found true

/-- ARBITRATION_COMPLETE (R465). -/
def execArbitrationComplete (page : Nat) (flip : Bool) (s : State) : Host.Outcome State Fault Refusal :=
  .next (arbitrate s page flip)

end Sys2Proof.Machine
end

