-- ==== Sys2Proof/Machine/Bulk.lean ====
section
/-! DEFINITION. Bulk cipher lanes: ENCRYPT and DECRYPT, splitting over lanes, the expert registers of a lane
(11_bulk_lanes.md; 04_transaction_jobs.md R238 to R242). -/

namespace Sys2Proof.Machine

/-! ### Modes (R238, R239, R484, R486) -/

/-- One block under an AES or TDEA key. -/
def encBlock (k : Key) (b : Bytes) : Bytes := blockEnc k b
def decBlock (k : Key) (b : Bytes) : Bytes := blockDec k b

/-- Block length of a key's algorithm. -/
def blockLen (k : Key) : Nat := if k.desc.alg = code1 'A' then 16 else 8

/-- The whole blocks of a string. -/
def blocksOf (n : Nat) (b : Bytes) : List Bytes := (List.range (b.length / n)).map fun i => slice b (n * i) n

/-- CBC over blocks. -/
def cbcEnc (k : Key) : Bytes → List Bytes → List Bytes
  | _, [] => []
  | iv, b :: bs =>
    let c := encBlock k (xorBytes b iv)
    c :: cbcEnc k c bs
def cbcDec (k : Key) : Bytes → List Bytes → List Bytes
  | _, [] => []
  | iv, b :: bs => xorBytes (decBlock k b) iv :: cbcDec k b bs

/-- Counter block `i`: the whole 128-bit block counts in CTR (R239), its last 32 bits in GCM from 2 on (R484). -/
def ctrBlock (gcm : Bool) (iv : Bytes) (i : Nat) : Bytes :=
  if gcm then iv ++ be 4 ((2 + i) % 2 ^ 32) else be 16 ((unbe iv + i) % 2 ^ 128)

/-- CTR and GCM encipherment of data. -/
def ctrText (gcm : Bool) (k : Key) (iv data : Bytes) : Bytes :=
  ((List.range ((data.length + 15) / 16)).map fun i =>
    let b := (data.drop (16 * i)).take 16
    xorBytes b (encBlock k (ctrBlock gcm iv i))).flatten

/-- IV, additional data and data of a job's input as far as it has been read (R239); an IV drawn by the device (R485). -/
def ivOf (j : Job) : Bytes := if bit (ePar j.entry 43) 0 then j.rand.take 12 else slice j.input 0 (ePar j.entry 42)
def aadOf (j : Job) : Bytes := slice j.input (ePar j.entry 42) (field j.entry 44 4)

/-- TAG_LEN bytes at the end of the input are the tag of a DECRYPT (R239). -/
def tagBytes (j : Job) : Nat := if 4 ≤ ePar j.entry 40 then ePar j.entry 41 else 0

/-- Data bytes of the whole job, and the data read so far. -/
def dataLen (j : Job) : Nat := eInLen j.entry - encHead j.entry - encTail j.entry
def dataOf (j : Job) : Bytes := (j.input.drop (encHead j.entry)).take (dataLen j)

/-- The text that the data read so far gives, in every mode but GCM-SIV. -/
def textOf (decrypt : Bool) (j : Job) : Bytes :=
  let k := key1Of j
  let b := blocksOf (blockLen k) (dataOf j)
  match ePar j.entry 40 with
  | 1 => (b.map (if decrypt then decBlock k else encBlock k)).flatten
  | 2 => ((if decrypt then cbcDec else cbcEnc) k (ivOf j) b).flatten
  | 3 => ctrText false k (ivOf j) (if wantsInput j then b.flatten else dataOf j)
  | _ => ctrText true k (ivOf j) (if wantsInput j then b.flatten else dataOf j)

/-- Checks on the key and lengths (R185 items 6 and 7; R238, R482, R484). -/
def cryptPre (j : Job) : Nat :=
  let e := j.entry
  let k := key1Of j
  if ePar e 40 = 2 ∧ ePar e 42 ≠ blockLen k then 0x1007
  else if ePar e 40 ≤ 2 ∧ dataLen j % blockLen k ≠ 0 then 0x1008
  else if k.desc.alg = code1 'T' ∧ 2 ^ 23 < dataLen j then 0x1008
  else 0

/-- Output length (R239). -/
def cryptOut (decrypt : Bool) (j : Job) : Nat := dataLen j + if decrypt then 0 else tagBytes j

/-- The end of the job, all input read (R239, R240, R242, R486). -/
def cryptEnd (decrypt : Bool) (j : Job) : JobEnd :=
  let e := j.entry
  let k := (key1Of j).material
  let iv := ivOf j
  let given := j.input.drop (eInLen e - encTail e)
  let result := if bit (ePar e 43) 0 then iv else []
  match ePar e 40, decrypt with
  | 5, false =>
    { out := Config.out .gcmSivEnc [k, iv, aadOf j, dataOf j] (dataLen j) ++ Config.out .gcmSivTag [k, iv, aadOf j, dataOf j] 16 }
  | 5, true =>
    let plain := Config.out .gcmSivDec [k, iv, aadOf j, dataOf j ++ given] (dataLen j)
    if Config.out .gcmSivTag [k, iv, aadOf j, plain] 16 = given then { out := plain } else { status := 0x3006 }
  | 4, false =>
    let c := textOf false j
    { result := result, out := c ++ Config.out .gcmTag [k, iv, aadOf j, c] (ePar e 41) }
  | 4, true =>
    if Config.out .gcmTag [k, iv, aadOf j, dataOf j] (ePar e 41) = given then { out := textOf true j } else { status := 0x3006 }
  | _, _ => { out := textOf decrypt j }

/-! ### Splitting over lanes (R489 to R497) -/

/-- Stripe size (R489). -/
def stripeBytes : Nat := 4096

/-- The function is marked in R480. -/
def splits (decrypt : Bool) (j : Job) : Bool :=
  let m := ePar j.entry 40
  decide ((key1Of j).desc.alg = code1 'A') && (decide (m = 1 ∨ m = 3 ∨ m = 4) || (decide (m = 2) && decrypt)) &&
    decide (16384 ≤ dataLen j)

/-- The helpers of a job (R490). -/
def helpersOf (s : State) (j : Job) (c : Nat) : List Nat :=
  ((runningShare s j.inst).filter fun d =>
    let l := laneAt s d
    decide (d ≠ c ∧ halfOf d = halfOf c) && takesWork s (chanPage d) && takesWork s (chanPage d + 8) && !withdrawn s d && !underTest s d &&
      l.unwrap.isNone && l.port.isNone && l.job.isNone && l.help.isNone).take 7

/-- Stripes of the data that the segment in hand adds, dealt over lanes, the executing lane first (R489). -/
def dealStripes (n : Nat) (lanes : List Nat) : List (Nat × Nat) :=
  (List.range n).map fun i => (i, lanes.getD (i % lanes.length) 0)

/-- Data bytes of the segment in hand. -/
def segData (j : Job) : Nat := (dataOf j).length - j.out.length

/-- The segment's work has been done: its output is held, and the job goes on or ends (R41, R188, R492). -/
def afterSegment (decrypt : Bool) (s : State) (n : Nat) : State :=
  match jobAt s n with
  | none => s
  | some j =>
    let aead := decide (4 ≤ ePar j.entry 40)
    if wantsInput j then
      modJob s n fun j => { j with phase := .nextSegment, out := if decrypt && aead then j.out else textOf decrypt j }
    else finishJob s n j (cryptEnd decrypt j)

/-- ENCRYPT and DECRYPT (R238 to R242, R485, R489). -/
def cryptJob (decrypt : Bool) (op n : Nat) (s : State) : State :=
  match jobAt s n with
  | none => s
  | some j =>
    let c := j.chan.getD 0
    let e := j.entry
    if !atStep6 op j ∨ (laneAt s c).job = some n then s
    else if cryptPre j ≠ 0 then failJob s n (cryptPre j)
    else if eOutCap e < cryptOut decrypt j then endJob s n 0x1006 [] (j.out.take j.streamed) (cryptOut decrypt j)
    else if bit (ePar e 43) 0 ∧ j.rand = [] then askForJob s n j 2 12
    else
      let hs := helpersOf s j c
      if splits decrypt j && !hs.isEmpty && decide (stripeBytes < segData j) && !(laneAt s c).split.isSome then
        let k := ceilDiv (segData j) stripeBytes
        let used := hs.take (k - 1)
        let s := putLane s c { laneAt s c with
          job := some n, split := some { job := n, stripes := k, left := dealStripes k (c :: used) } }
        used.foldl (fun s d => putLane s d { laneAt s d with help := some (c, n) }) s
      else
        let s' := afterSegment decrypt s n
        countLane s' j (segData j) (((jobAt s' n).map (·.status)).getD 0)

/-- ENCRYPT (R239). -/
def execEncrypt (job : Nat) (s : State) : Host.Outcome State Fault Refusal := .next (cryptJob false 0x0501 job s)

/-- DECRYPT (R242). -/
def execDecrypt (job : Nat) (s : State) : Host.Outcome State Fault Refusal := .next (cryptJob true 0x0502 job s)

/-- Bytes of stripe `i` of a segment. -/
def stripeLen (j : Job) (i : Nat) : Nat := min stripeBytes (segData j - stripeBytes * i)

/-- The split whose stripe lane `c` works on: executing channel. -/
def splitOwner (s : State) (c : Nat) : Option Nat :=
  if (laneAt s c).split.isSome then some c else (laneAt s c).help.map (·.1)

/-- STRIPE_COMPLETE (R490 to R496): a lane returns the stripe it holds; those of a helper whose channel runs no more are
processed again by the executing lane. -/
def stripeDone (s : State) (c i : Nat) : State :=
  match splitOwner s c with
  | none => s
  | some o =>
    match (laneAt s o).split with
    | none => s
    | some sp =>
      match (sp.left.find? fun x => x.2 = c), jobAt s sp.job with
      | some (k, _), some j =>
        let up := (unitAt s (chanPage c)).state
        if k ≠ i then s
        else if c ≠ o ∧ up ≠ .running ∧ up ≠ .stopping then redoStripes s c
        else
          let left := sp.left.filter fun x => x.1 ≠ i
          let l := laneAt s c
          let s := putLane s c { l with
            bytes := (l.bytes + stripeLen j i) % 2 ^ 64, stripes := if c = o then l.stripes else l.stripes + 1
            help := if c ≠ o ∧ !left.any (fun x => x.2 = c) then none else l.help }
          let l := laneAt s o
          if left.isEmpty then
            let decrypt := decide (eOp j.entry = 0x0502)
            let s := afterSegment decrypt (putLane s o { l with split := none, job := none }) sp.job
            countLane s j 0 (((jobAt s sp.job).map (·.status)).getD 0)
          else putLane s o { l with split := some { sp with left := left } }
      | _, _ => s

/-- STRIPE_COMPLETE (R492). -/
def execStripeComplete (chan stripe : Nat) (s : State) : Host.Outcome State Fault Refusal := .next (stripeDone s chan stripe)

/-! ### Expert registers of a lane (R499 to R501) -/

/-- Page of a lane. -/
def lanePage (c : Nat) : Nat := chanPage c + 8

/-- An access to an expert register of a lane that takes effect: the page answers, the lane stands at LEVEL 1 (R107). -/
def laneExpert (s : State) (acc : Acc) (c : Nat) : Bool :=
  decide (c < 34) && reaches s acc (lanePage c) && (unitAt s (lanePage c)).level

/-- A write of BULK_CMD (R500): dropped with OVERRUN while BUSY. -/
def writeBulkCmd (s : State) (c op param : Nat) : State :=
  let l := laneAt s c
  if l.busy then putLane s c { l with overrun := true }
  else
    let l := { l with op := op, param := param, busy := true }
    putLane s c (if op = 1 then { l with fed := [], hashing := (hashLen param).isSome } else l)

/-- A write of BULK_FEED (R500): four message bytes, those beyond XLEN dropped; a word wholly beyond sets OVERRUN. -/
def writeFeed (s : State) (c : Nat) (v : Word32) : State :=
  let l := laneAt s c
  let room := l.xlen.toNat - l.fed.length
  if !l.hashing ∨ room = 0 then putLane s c { l with overrun := true }
  else putLane s c { l with fed := l.fed ++ (le 4 v.toNat).take room, bytes := (l.bytes + min 4 room) % 2 ^ 64 }

/-- The running command of a lane ends (R498, R500, R501): `pass` gives the results of the self-tests, bit t for test t. -/
def bulkDone (s : State) (c pass : Nat) : State :=
  let l := laneAt s c
  if !l.busy then s
  else
    let l := { l with busy := false }
    let (l, failed) : Lane × Bool := match l.op with
      | 0x01 => ({ l with result := if l.hashing then 0 else 1 }, false)
      | 0x02 =>
        if l.hashing then
          let n := if 0x21 ≤ l.param then 64 else (hashLen l.param).getD 0
          ({ l with result := 0, hashing := false, digestLen := n, digest := Config.out (hashPrim l.param) [l.fed] n }, false)
        else ({ l with result := 1 }, false)
      | 0x10 =>
        if l.param < 10 then
          let ok := bit pass l.param
          ({ l with pass := (l.pass &&& (1023 - 2 ^ l.param)) + bitAt ok l.param, result := if ok then 0 else 2 }, !ok)
        else ({ l with result := 1 }, false)
      | 0x11 => ({ l with pass := pass % 1024, result := if pass % 1024 = 1023 then 0 else 2 }, decide (pass % 1024 ≠ 1023))
      | _ => ({ l with result := 1 }, false)
    let s := setEvent (putLane s c l) (lanePage c) 16
    if failed then setEvent s (lanePage c) 17 else s

/-- HASH_START (R500). -/
def execHashStart (acc : Acc) (chan alg : Nat) (s : State) : Host.Outcome State Fault Refusal :=
  .next (if laneExpert s acc chan then writeBulkCmd s chan 0x01 (alg % 256) else s)

/-- BULK_FEED (R500). -/
def execBulkFeed (acc : Acc) (chan : Nat) (value : Word32) (s : State) : Host.Outcome State Fault Refusal :=
  .next (if laneExpert s acc chan then writeFeed s chan value else s)

/-- HASH_END (R500): PARAM stays that of HASH_START (DEDUCED, log 21). -/
def execHashEnd (acc : Acc) (chan : Nat) (s : State) : Host.Outcome State Fault Refusal :=
  .next (if laneExpert s acc chan then writeBulkCmd s chan 0x02 (laneAt s chan).param else s)

/-- SELFTEST (R501). -/
def execSelftest (acc : Acc) (chan param : Nat) (s : State) : Host.Outcome State Fault Refusal :=
  .next (if laneExpert s acc chan then writeBulkCmd s chan 0x10 (param % 256) else s)

/-- SELFTEST_ALL (R501). -/
def execSelftestAll (acc : Acc) (chan : Nat) (s : State) : Host.Outcome State Fault Refusal :=
  .next (if laneExpert s acc chan then writeBulkCmd s chan 0x11 0 else s)

/-- BULK_CMD_DONE (R498). -/
def execBulkCmdDone (chan pass : Nat) (s : State) : Host.Outcome State Fault Refusal := .next (bulkDone s chan pass)

end Sys2Proof.Machine
end

