-- ==== Sys2Proof/Machine/Faults.lean ====
section
/-! DEFINITION. Transient faults, SRAM errors, in-field tests and the record of a retirement
(16_channels_faults_self_repair.md), and the commands TRANSIENT_FAULT to FIELD_TEST_RESULT with RETIRE_REQUEST. -/

namespace Sys2Proof.Machine

/-! ### Work that a fault ends (R496, R660, R662) -/

/-- Work of a job ended by a fault of page `p` (R662, R666): a job not begun at step 5 goes to another channel without a
re-run; one whose result is not committed starts again. -/
def faultJob (s : State) (n p : Nat) : State :=
  match jobAt s n with
  | none => s
  | some j =>
    match j.phase with
    | .taken | .readHead _ | .readRest _ | .readInput => s
    | .handoff => modJob s n fun j => { j with chan := none }
    | .crossCheck | .committed | .kept | .forwarded => s
    | _ => rerunJob s n p

/-- A fault of a lane that helps another channel redoes its stripes and re-runs no job (R496, R660). -/
def helps (s : State) (p : Nat) : Bool :=
  isChanPage p && decide (slotOf p = 8) && (laneAt s (chanOf p)).help.isSome

/-- A transient fault of page `p` with a cause of R660 and the job it touched, 0 for none. -/
def takeFault (s : State) (p cause n : Nat) : State :=
  if kindOf p = 0 ∨ cause = 0 ∨ 6 < cause then s
  else
    let s := charge s p cause
    if cause = 1 then s
    else if helps s p then redoStripes s (chanOf p)
    else faultJob (loseEval s p) n p

/-! ### SRAM (R670, R671) -/

/-- Key of a row in the list of corrected rows (DESIGN CHOICE, log 102). -/
def rowKey (block row : Nat) : Nat := 2 ^ 20 * block + row

/-- A corrected error: charged, and the second in a row makes the row due for repair (R660, R670). -/
def correctedError (s : State) (p block row : Nat) : State :=
  let s := charge s p 1
  let k := (p, rowKey block row)
  if s.faults.corrected.contains k then
    rowRepair { s with faults := { s.faults with corrected := s.faults.corrected.filter (· ≠ k) } } p block row
  else { s with faults := { s.faults with corrected := k :: s.faults.corrected } }

/-- The key that lost content in entry `row` is invalid, or dead while pinned (R275, R670), with ECC_DROP of R283. -/
def dropEntry (s : State) (row : Nat) : State :=
  let hit (k : CacheKey) : Bool := k.entries.contains row
  if !(s.kc.keys.any fun e => hit e.2) then s
  else
    let keys := s.kc.keys.filterMap fun e =>
      if hit e.2 then (if e.2.pins.isEmpty then none else some (e.1, { e.2 with dead := true })) else some e
    kcEvent { s with kc := { s.kc with keys := keys } } 18

/-- Content lost in row `row` of ballast buffer `b` (R670): the job is re-run; a job with one buffer whose input lay in the
row, taken as the buffer's first bytes, ends with 0x1005. -/
def lostBallast (s : State) (b row : Nat) : State :=
  match s.jobs.find? fun e => e.2.bufs.contains b with
  | none => s
  | some (n, j) =>
    let one := decide (j.bufs.length = 1)
    let read := match j.phase with
      | .taken | .readHead _ | .readRest _ | .readInput => false
      | _ => true
    if one && read && decide (64 * row < j.input.length) then
      if undecided j then failJob (dropHeld s n) n 0x1005 else s
    else faultJob s n 0x080

/-- A core whose local memory lost content starts again, and its job is re-run (R670). -/
def lostCore (s : State) (p : Nat) : State :=
  let n := (tget {} s.cores p).job
  let s := setUState (onStarting (setUState (setUState (setUState s p .stopping) p .off) p .starting) p) p .running
  faultJob s n p

/-- A lockup (R586 of 14): the core passes through STOPPING and OFF to STARTING, its job ends with 0x4001. -/
def lockup (s : State) (p : Nat) : State :=
  let n := (tget {} s.cores p).job
  let s := if n = 0 then s else failJob s n 0x4001
  tryStart (setUState (setUState s p .stopping) p .off) p

/-- What the owning unit does about lost content (R670). -/
def lostContent (s : State) (p block row : Nat) : State :=
  match kindOf p with
  | 0x0A => dropEntry s row
  | 0x18 => lostBallast s block row
  | 0x04 => if isRunning s p then lostCore s p else s
  | 0x05 | 0x06 =>
    let n := (sailAt s p).job
    let s := loseEval s p
    let s := if (sailAt s p).estate = .wiping then s else abortEngine s p
    match n with
    | some n => faultJob s n p
    | none => s
  | _ => s

/-- An error that is not corrected: charged, the row repaired, the loss handled (R660, R670, R671). -/
def uncorrectedError (s : State) (p block row : Nat) : State :=
  if kindOf p = 0 then s else rowRepair (lostContent (charge s p 2) p block row) p block row

/-! ### In-field tests (R683 to R688) -/

/-- A test begins: the channel's DRBG asks for fresh seed (R683 step 1). -/
def beginTest (s : State) (c : Nat) : State :=
  postSeed (putChan s c { chanAt s c with test := .running, step := 0 }) (.instantiate c)

/-- The channel holds no job (R685). -/
def chanIdle (s : State) (c : Nat) : Bool := !onChannel s fun d => decide (d = c)

/-- A test that is skipped (R685, R688). -/
def skipTest (s : State) (c : Nat) : State :=
  setEvent (putChan s c { chanAt s c with test := .idle, last := 3, spareTest := false, pos := position s }) (chanPage c) 18

/-- A FIELD_TEST firing (R684, R685, R688): 0x3F marks every spare for a test; a RUNNING channel is tested if it holds no
job; a running test satisfies the firing. Answers whether the firing took effect. -/
def fieldTestFire (s : State) (c : Nat) : State :=
  if c = 0x3F then
    (List.range 34).foldl (fun s d =>
      if isSpare s d && !underTest s d then putChan s d { chanAt s d with spareTest := true } else s) s
  else if (chanAt s c).test = .running then s
  else if isRunning s (chanPage c) then
    if chanIdle s c then beginTest s c else skipTest s c
  else if isSpare s c then beginTest s c
  else s

/-- A test due on channel `c` begins (R684, R685): of a stand-in; of a channel that waits and whose last job has completed;
of the next spare under 0x3F, one at a time in ascending order. -/
def startTest (s : State) (c : Nat) : State :=
  let x := chanAt s c
  let spareBusy := (List.range 34).any fun d => underTest s d && (chanAt s d).spareTest
  let before := (List.range c).any fun d => (chanAt s d).spareTest && isSpare s d
  if 34 ≤ c ∨ x.test = .running then s
  else if x.standInFor.isSome then beginTest s c
  else if x.test = .waiting then if chanIdle s c then beginTest s c else s
  else if x.spareTest && !spareBusy && !before && isSpare s c then beginTest s c
  else s

/-- A unit passes through STARTING to RUNNING at once, its engines already wiped by the test's last step (R683). -/
def startNow (s : State) (p : Nat) : State :=
  let s := setUState (onStarting (setUState (modUnit s p fun u => { u with enable := true }) p .starting) p) p .running
  if kindOf p = 0x05 ∨ kindOf p = 0x06 then
    putSail { s with sig := { s.sig with tables := s.sig.tables.filter fun t => t.engine ≠ p } } p
      { wiped (sailAt s p) with estate := .idle }
  else s

/-- A stand-in that has passed its test reaches RUNNING and takes the place of channel `d` in every share (R37, R629,
R675 step 6) (DEDUCED, log 103). -/
def standUp (s : State) (c d : Nat) : State :=
  let s := (descendants (chanPage c)).foldl startNow (startNow s (chanPage c))
  rebindAll (replaceInShares s d c)

/-- An in-field test ends (R684, R687, R688, R690): result 1 PASS, 2 FAIL at a step, 3 SKIPPED. -/
def endTest (s : State) (c result step : Nat) : State :=
  let x := chanAt s c
  if 34 ≤ c ∨ x.test ≠ .running then s
  else
    let p := chanPage c
    let d := tget {} s.rng.drbgs c
    let s := if isRunning s p then s else
      { s with rng := { s.rng with
        drbgs := tset {} s.rng.drbgs c { reseeds := d.reseeds, unseeded := d.unseeded }
        requests := s.rng.requests.filter fun r => r ≠ .instantiate c } }
    match result with
    | 1 =>
      let s := putChan s c { x with
        test := .idle, last := 1, step := 0, since := 0, spareTest := false, standInFor := none, pos := position s }
      let s := setEvent s p 16
      match x.standInFor with
      | some d => standUp s c d
      | none => s
    | 2 =>
      let s := putChan s c { x with test := .idle, last := 2, step := step % 16, spareTest := false, pos := position s }
      channelFault (setEvent s p 17) c 7
    | 3 => skipTest s c
    | _ => s

/-! ### Retirement (R37, R675, R678, R679, R680) -/

/-- The page whose own fault retired channel `c` (R679): an engine with a permanent fault of its own, else the channel. -/
def ownFault (s : State) (c : Nat) : Nat :=
  match (childrenOf (chanPage c)).find? fun q => (unitAt s q).permanent with
  | some q => if (unitAt s (chanPage c)).permCause = 0x0C then q else chanPage c
  | none => chanPage c

/-- The record of a retirement (R675 steps 4 and 5, R679, R680): channels and bridle lines that are FAULTED, or that have
drained after a request. -/
def recordRetirement (s : State) (p : Nat) : State :=
  let u := unitAt s p
  let chan := decide (kindOf p = 0x03)
  let line := decide (kindOf p = 0x10 ∧ p ≠ 0x020)
  let due := (u.state = .faulted ∧ u.permanent) ∨ (u.state = .stopping ∧ u.retiring ∧ !workInFlight s p)
  if !(chan || line) ∨ ¬ due then s
  else
    let cause := if u.permanent then u.permCause else 0x0D
    let full := decide (255 ≤ s.faults.map.length)
    let index := if full then 255 else s.faults.map.length
    let s := if chan then mapAppend s mapChannel cause (chanOf p + 2 ^ 16 * ownFault s (chanOf p))
      else mapAppend s mapLine cause (p - 0x040)
    let s := if chan then burnRetire s (chanOf p) else s
    let s := modUnit s p fun u => { u with
      permanent := true, permCause := cause, field := true, mapIndex := index, retiring := false, enable := false }
    noteNoChannel (rebindAll (retireTree s p))

/-- RETIRE_REQUEST (R37, R90, R102, R678, R688): a test in progress ends and is not counted; an enabled channel's stand-in is
chosen. -/
def requestRetire (s : State) (p : Nat) : State :=
  let was := unitAt s p
  let s := writeRetire s p
  if kindOf p = 0x03 ∧ (unitAt s p).retiring ∧ !was.retiring then
    let c := chanOf p
    let x := chanAt s c
    let s := putChan s c { x with test := .idle, spareTest := false, standInFor := none }
    match x.standInFor with
    | some d => chooseStandIn s d
    | none => if was.enable then chooseStandIn s c else s
  else s

/-! ### Meanings -/

/-- SRAM_CORRECTED_ERROR (R660). -/
def execSramCorrectedError (page block row : Nat) (s : State) : Host.Outcome State Fault Refusal :=
  .next (if kindOf page = 0 then s else correctedError s page block row)

/-- SRAM_UNCORRECTED_ERROR (R670). -/
def execSramUncorrectedError (page block row : Nat) (s : State) : Host.Outcome State Fault Refusal :=
  .next (uncorrectedError s page block row)

/-- NETWORK_PARITY_ERROR (R496 of 11, R660): the transfer has failed `times` times; it is repeated up to 3 times, and the fourth
failure ends the job's work. -/
def execNetworkParityError (page job times : Nat) (s : State) : Host.Outcome State Fault Refusal :=
  .next (if kindOf page = 0 then s
    else if times < 4 ∧ !helps s page then charge s page 3
    else takeFault s page 3 job)

/-- FIELD_TEST_START (R684). -/
def execFieldTestStart (chan : Nat) (s : State) : Host.Outcome State Fault Refusal := .next (startTest s chan)

/-- FIELD_TEST_RESULT (R687): result 1 PASS, 2 FAIL, 3 SKIPPED. -/
def execFieldTestResult (chan result step : Nat) (s : State) : Host.Outcome State Fault Refusal :=
  .next (endTest s chan result step)

end Sys2Proof.Machine
end

