-- ==== Sys2Proof/Machine/KeyHier.lean ====
section
/-! DEFINITION. Key hierarchy: the DRK, KBPK generations, the threshold scheme, staging slots, activation and the end of an
overlap window (07_key_hierarchy_and_ceremonies.md), and the command DRK_GENERATE. -/

namespace Sys2Proof.Machine

/-! ### GF(2^8) and shares (R344, R345) -/

/-- Product in GF(2^8) with x^8 + x^4 + x^3 + x + 1 (R345). -/
def gfMul (a b : Byte) : Byte :=
  ((List.range 8).foldl (fun (t : Byte × Byte) i =>
    (if b.getLsbD i then t.1 ^^^ t.2 else t.1, if t.2.msb then (t.2 <<< 1) ^^^ 0x1B#8 else t.2 <<< 1)) (0#8, a)).1

/-- Inverse in GF(2^8): the 254th power. -/
def gfInv (a : Byte) : Byte := (List.range 253).foldl (fun x _ => gfMul x a) a

/-- Lagrange coefficient at 0 of index `i` among the indexes `is` (R345). -/
def lagrange (i : Nat) (is : List Nat) : Byte :=
  is.foldl (fun c k =>
    if k = i then c
    else gfMul c (gfMul (BitVec.ofNat 8 k) (gfInv (BitVec.ofNat 8 k ^^^ BitVec.ofNat 8 i)))) 1#8

/-- The key bytes rebuilt from shares (R345). -/
def rebuildBytes (shares : List (Nat × Bytes)) : Bytes :=
  (List.range 32).map fun j =>
    shares.foldl (fun x e => x ^^^ gfMul (lagrange e.1 (shares.map (·.1))) (e.2.getD j 0)) 0#8

/-- The KBPK rebuilt from shares, first byte most significant. -/
def rebuild (shares : List (Nat × Bytes)) : BitVec 256 := BitVec.ofNat 256 (unbe (rebuildBytes shares))

/-- Value at `x` of the polynomial with constant term `k` and the higher coefficients `cs` (R345). -/
def polyAt (k : Byte) (cs : List Byte) (x : Byte) : Byte := gfMul x (cs.foldr (fun c v => c ^^^ gfMul x v) 0#8) ^^^ k

/-- The share of index `i` of a key: coefficient `n` of byte `j` is byte 32n + j of `rnd` (R345). -/
def shareOfKey (key rnd : Bytes) (m i : Nat) : Bytes :=
  (List.range 32).map fun j =>
    polyAt (key.getD j 0) ((List.range (m - 1)).map fun n => rnd.getD (32 * n + j) 0) (BitVec.ofNat 8 i)

/-- CHECK of a share record (R344). -/
def shareCheck (b : Bytes) : Bytes := slice (hashBytes (sha256 (b.take 56))) 0 8

/-- A share record (R344). -/
def shareRecord (m n index gen inst : Nat) (kcv splitId share : Bytes) : Bytes :=
  let b := [0x45#8, 0x5A#8, 0x53#8, 0x31#8, BitVec.ofNat 8 m, BitVec.ofNat 8 n, BitVec.ofNat 8 index, BitVec.ofNat 8 gen] ++
    le 2 inst ++ pad 5 kcv ++ [0#8] ++ pad 8 splitId ++ pad 32 share
  b ++ shareCheck b

/-- The record keeps R344: MAGIC, CHECK, M, N, INDEX and the reserved bytes. -/
def shareRecordOk (r : Bytes) : Bool :=
  let m := field r 4 1
  let n := field r 5 1
  let i := field r 6 1
  decide (slice r 0 4 = [0x45#8, 0x5A#8, 0x53#8, 0x31#8]) && decide (slice r 56 8 = shareCheck r) &&
    decide (2 ≤ m ∧ m ≤ 8 ∧ m ≤ n ∧ n ≤ 15 ∧ 1 ≤ i ∧ i ≤ n) && decide (field r 8 2 < 1024) && decide (field r 15 1 = 0)

/-! ### Generations (R334, R339, R340) -/

/-- KEY_CHANGE of R363. -/
def keyChange (s : State) : State := setEvent s imPage 24

def putKeys (s : State) (i : Nat) (k : InstKeys) : State :=
  { s with kh := { s.kh with insts := tset {} s.kh.insts i k } }

/-- Item key of persisted KBPK material (R334, R789 of 19): role 0 current, 1 previous, 2 staged. -/
def kbpkItem (i role slot : Nat) : Nat := i + 2 ^ 16 * role + 2 ^ 18 * slot

/-- The generations of an instance as they stand are persisted, and what is no longer held is erased (R334, R354). -/
def persistKeys (s : State) (i : Nat) : State :=
  let k := instKeys s i
  let s := if k.cur = 0 then storeDrop s 2 (kbpkItem i 0 0) else storePut s 2 (kbpkItem i 0 0) (.kbpk k.curKey k.cur 0)
  match k.prev with
  | some g => storePut s 2 (kbpkItem i 1 0) (.kbpk k.prevKey g k.retireAt)
  | none => storeDrop s 2 (kbpkItem i 1 0)

/-- Generation `g` of an instance is no longer held: its derivation slots serve the jobs in flight alone, and its cache
entries are invalid or dead (R275 of 05, R281 of 05, R354). -/
def releaseGen (s : State) (i g : Nat) (key : BitVec 256) : State :=
  let k := instKeys s i
  let s := putKeys s i { k with lingering := k.lingering ++ [(g, key)] }
  dropLingering (invalidate s fun j h => decide (j = i ∧ h = g)) i

/-- The previous generation of an instance is dropped (R354). -/
def dropPrev (s : State) (i : Nat) : State :=
  let k := instKeys s i
  match k.prev with
  | none => s
  | some g =>
    let s := releaseGen (putKeys s i { k with prev := none, prevKey := 0, retireAt := 0 }) i g k.prevKey
    keyChange (persistKeys s i)

/-! ### Event table entries (R319, R326, R327) -/

def evtAt (s : State) (n : Nat) : EvEntry := tget {} s.events n
def putEvt (s : State) (n : Nat) (e : EvEntry) : State := { s with events := tset {} s.events n e }

/-- EMPTY entries that firmware may arm; 0xFE and 0xFF are kept for their own two (R327). -/
def emptyEvts (s : State) : List Nat := (List.range 0xFE).filter fun n => decide ((evtAt s n).state = .empty)

/-- Firmware arms an entry in the lowest-numbered EMPTY one. -/
def armLowest (s : State) (e : EvEntry) : State :=
  match emptyEvts s with
  | [] => s
  | n :: _ => putEvt s n { e with state := .armed, fw := true }

/-- Entries that match become EMPTY with every field 0, as CLEAR does (R326, R328). -/
def clearEvts (s : State) (p : EvEntry → Bool) : State := { s with events := s.events.filter fun e => !p e.2 }

/-! ### Staging slots (R347 to R352) -/

def slotAt (s : State) (k : Nat) : StageSlot := tget {} s.kh.slots k

/-- A slot written; KEY_CHANGE when its STATE changes (R363). -/
def putSlot (s : State) (k : Nat) (x : StageSlot) : State :=
  let old := (slotAt s k).state
  let s := { s with kh := { s.kh with slots := tset {} s.kh.slots k x } }
  if x.state = old then s else keyChange s

/-- The slot is used by a CER_SPLIT that has not staged its key (R920 of 15). -/
def splitting (x : StageSlot) : Bool := !x.splitRecs.isEmpty

/-- The instance holds the slot. -/
def holdsSlot (s : State) (i k : Nat) : Bool :=
  let x := slotAt s k
  (decide (x.state ≠ .empty) || splitting x) && decide (x.inst = i)

/-- A slot enters FAILED: shares and key are cleared, the fixed fields stay (R348). -/
def failSlot (s : State) (k i cause : Nat) : State :=
  let x := slotAt s k
  putSlot s k { x with
    state := .failed, inst := i, cause := cause, shares := [], key := 0, persisted := false, activateAt := none
    splitRecs := [], splitDone := 0, splitWritten := false }

/-- GENERATION of R348: 0, or held, or that of another slot of the instance. -/
def genTaken (s : State) (i k gen : Nat) : Bool :=
  let g := instKeys s i
  decide (gen = 0 ∨ gen = g.cur ∨ g.prev = some gen) ||
    s.kh.slots.any fun e => decide (e.1 ≠ k ∧ e.2.state ≠ .empty ∧ e.2.inst = i ∧ e.2.gen = gen)

/-- KCV_CLASH of R348. -/
def kcvTaken (s : State) (i : Nat) (kcv : Bytes) : Bool :=
  let g := instKeys s i
  (decide (g.cur ≠ 0) && decide (kbpkKcv g.curKey = kcv)) || (g.prev.isSome && decide (kbpkKcv g.prevKey = kcv))

/-- A rebuilt or generated key is STAGED and persisted (R349, R350). -/
def stageSlot (s : State) (k : Nat) (key : BitVec 256) : State :=
  let x := slotAt s k
  let s := storePut s 2 (kbpkItem x.inst 2 k) (.kbpk key x.gen 0)
  putSlot s k { x with
    state := .staged, key := key, persisted := !s.kh.ripcorded, splitRecs := [], splitDone := 0, splitWritten := false }

/-- Firmware takes a share read from a card into a slot for an instance (R348, R349). -/
def takeShare (s : State) (k i : Nat) (r : Bytes) : State :=
  let x := slotAt s k
  let m := field r 4 1
  let index := field r 6 1
  let gen := field r 7 1
  let inst := field r 8 2
  let kcv := slice r 10 5
  let split := slice r 16 8
  let first := decide (x.state = .empty)
  if s.kh.ripcorded ∨ x.state = .staged ∨ x.state = .failed ∨ splitting x then s
  else if !shareRecordOk r then failSlot s k i 1
  else if inst ≠ i ∨ (!first ∧ (m ≠ x.m ∨ field r 5 1 ≠ x.n ∨ gen ≠ x.gen ∨ inst ≠ x.inst ∨ kcv ≠ x.kcv ∨ split ≠ x.splitId))
  then failSlot s k i 2
  else
    let x := if first then { x with m := m, n := field r 5 1, gen := gen, inst := inst, kcv := kcv, splitId := split } else x
    if x.shares.any fun e => decide (e.1 = index) then failSlot s k i 3
    else if genTaken s i k gen then failSlot s k i 4
    else
      let shares := x.shares ++ [(index, slice r 24 32)]
      if shares.length < m then putSlot s k { x with state := .collecting, shares := shares }
      else
        let key := rebuild shares
        if kbpkKcv key ≠ kcv then failSlot s k i 5
        else if kcvTaken s i kcv then failSlot s k i 6
        else stageSlot (putSlot s k { x with state := .collecting, shares := shares }) k key

/-- A split begins (R345, R350): the key, the coefficients and SPLIT_ID are drawn, the N records made. -/
def beginSplit (s : State) (k i m n gen : Nat) : State :=
  let (kb, s) := keelDraw s 32
  let (cs, s) := keelDraw s (32 * (m - 1))
  let (id, s) := keelDraw s 8
  let key := BitVec.ofNat 256 (unbe kb)
  let kcv := kbpkKcv key
  let recs := (List.range n).map fun j => shareRecord m n (j + 1) gen i kcv id (shareOfKey kb cs m (j + 1))
  putSlot s k { (slotAt s k) with
    m := m, n := n, gen := gen, inst := i, kcv := kcv, splitId := id, key := key, splitRecs := recs, splitDone := 0
    splitWritten := false, cause := 0 }

/-- The slot of the split whose next record firmware writes: the lowest-numbered (R350). -/
def splitSlot (s : State) : Option Nat := (List.range 32).find? fun k => splitting (slotAt s k)

/-- Firmware has written the next record of the split (R350, R921 of 15). -/
def splitWrote (s : State) : State :=
  match splitSlot s with
  | none => s
  | some k => putSlot s k { slotAt s k with splitWritten := true }

/-- Firmware has read a record back (R350): the one just written counts, and after the last the key is staged. -/
def splitRead (s : State) (r : Bytes) : State :=
  match splitSlot s with
  | none => s
  | some k =>
    let x := slotAt s k
    if !x.splitWritten ∨ x.splitRecs.getD x.splitDone [] ≠ r then s
    else
      let x := { x with splitDone := x.splitDone + 1, splitWritten := false }
      let s := putSlot s k x
      if x.splitDone = x.splitRecs.length then stageSlot s k x.key else s

/-- A slot becomes EMPTY, with its persisted key erased (R351). -/
def emptySlot (s : State) (k : Nat) : State :=
  let x := slotAt s k
  let s := if x.persisted then storeDrop s 2 (kbpkItem x.inst 2 k) else s
  putSlot s k {}

/-! ### Activation and retirement (R352 to R355) -/

/-- What this device holds of an instance whose home is another member (R654 of 15). -/
def heldSpan (s : State) (i : Nat) : Option SpanHeld := s.bridle.spanHeld.find? fun h => h.inst = i

/-- The overlap length of an instance in ticks (R340; R654 of 15). -/
def overlapTicks (s : State) (i : Nat) : Nat :=
  let l := match heldSpan s i with
    | some h => h.overlap
    | none => (instAt s i).overlapLog2
  if l = 0 then 0 else 2 ^ l

/-- The checks of R353. -/
def mayActivate (s : State) (i k : Nat) : Bool :=
  let x := slotAt s k
  let g := instKeys s i
  decide (x.state = .staged ∧ x.inst = i ∧ x.gen ≠ g.cur) && decide (g.prev ≠ some x.gen) &&
    ((instAt s i).created || (heldSpan s i).isSome)

/-- A KEY_ACTIVATE takes effect (R353, R355, R406 of 08, R654 and R659 of 15) at firing position `pos`; the log is the home
member's. -/
def activateKey (s : State) (i k pos : Nat) : State :=
  let x := slotAt s k
  let s := clearEvts (dropPrev s i) fun e => decide (e.state = .armed ∧ e.action = 2 ∧ e.inst = i)
  let g := instKeys s i
  let len := overlapTicks s i
  let keep := decide (len ≠ 0 ∧ g.cur ≠ 0)
  let s := putKeys s i { g with
    cur := x.gen, curKey := x.key, prev := if keep then some g.cur else none
    prevKey := if keep then g.curKey else 0, retireAt := if keep then (pos + len) % 2 ^ 64 else 0 }
  let s := if !keep ∧ g.cur ≠ 0 then releaseGen s i g.cur g.curKey else s
  let s := if keep then armLowest s { action := 2, pos := (pos + len) % 2 ^ 64, inst := i } else s
  let s := dpEvent (keyChange (persistKeys (emptySlot s k) i)) i 4
  if (instAt s i).created then beginKeyRec s i 3 else s

/-! ### The device root key (R335 to R338) -/

/-- DRK_STATUS.STATE as it reads (R336, R338, R367). -/
def drkStatus (s : State) : Nat :=
  if s.kh.ripcorded ∨ lifecycle s = 0 ∨ lifecycle s = 3 then 3 else s.kh.drkState

/-- A DRK generation is due (R337): it waits for the conditioner. -/
def wantDrk (s : State) (state : Nat) : State :=
  postSeed { s with kh := { s.kh with drkState := state, pendingGen := true } } .drk

/-- DRK_GENERATE (R335, R336, R337, R511 of 12): the store and every persisted key erased, the DRK drawn, its check value
written, and DRK_EVER burned the first time. -/
def drkGenerate (s : State) : State :=
  if !s.kh.pendingGen ∨ !s.rng.gathered ∨ s.rng.pool.isEmpty then s
  else
    let s := { s with rng := { s.rng with pool := s.rng.pool.drop 1, requests := s.rng.requests.filter fun r => r ≠ .drk } }
    let s := storeErase s
    let (b, s) := freeBytes s 32
    let key := BitVec.ofNat 256 (unbe b)
    let chk := drkCheckValue key
    let s := devAppend { s with mooring := { s.mooring with drk := key } } [devRecord 2 chk]
    let s := { s with kh := { s.kh with check := some chk, pendingGen := false } }
    if s.otp.drkEver = 0 then otpBurned { s with otp := { s.otp with drkEver := s.otp.drkEver ||| 1 } } else s

/-- DRK_GENERATE (R337). -/
def execDrkGenerate (s : State) : Host.Outcome State Fault Refusal := .next (drkGenerate s)

end Sys2Proof.Machine
end

