-- ==== Sys2Proof/Machine/PowerUp.lean ====
section
/-! DEFINITION. Which channels start-up and a wake enable, and leaving STANDBY (R35, R36 of 01_unit_tree_and_transaction_path.md;
R867, R868 of 22_host_ports_power_startup.md). -/

namespace Sys2Proof.Machine

/-- Healthy channels of a half (R35): no permanent fault and not retired. -/
def healthyOf (s : State) (h : Nat) : List Nat :=
  (List.range 34).filter fun c => decide (halfOf c = h) && !(unitAt s (chanPage c)).permanent &&
    decide ((unitAt s (chanPage c)).state ≠ .retired)

/-- The channels that R35 enables: up to 16 of each half, and up to 17 of one half when the other has fewer than 16. -/
def enabledChannels (s : State) : List Nat :=
  let a := healthyOf s 0
  let b := healthyOf s 1
  let n (x y : List Nat) : Nat := if y.length < 16 then min x.length (min 17 (32 - y.length)) else min x.length 16
  a.take (n a b) ++ b.take (n b a)

/-- Enables the channels of R35, the others staying OFF as spares (R36); rings are bound to what runs. -/
def enableChannels (s : State) : State :=
  let on := enabledChannels s
  let s := (List.range 34).foldl (fun s c =>
    let p := chanPage c
    if on.contains c then (descendants p).foldl startNow (startNow s p)
    else
      let off (s : State) (q : Nat) : State :=
        if (unitAt s q).permanent ∨ (unitAt s q).state = .retired then s
        else modUnit (setUState s q .off) q fun u => { u with enable := false, pending := false }
      (descendants p).foldl off (off s p)) s
  rebindAll s

/-- The device leaves STANDBY for RUN (R868): the compute dies are powered, channels enabled, the key cache empty. -/
def leaveStandby (s : State) : State :=
  if s.power.state ≠ .standby then s
  else
    let s := { s with power := { s.power with state := .run, quietSince := s.cycles }, kc := { withdrawn := s.kc.withdrawn } }
    enableChannels (setEvent s 0 17)

/-- Work has come: IDLE ends, and in STANDBY the device is woken (R865, R867). -/
def wakeUp (s : State) : State := leaveStandby (wakeIdle s)

end Sys2Proof.Machine
end

