-- ==== Sys2Proof/Machine/Frames.lean ====
section
/-! DEFINITION. Sending and receiving frames on bridle lines: sequence numbers, replay buffers, credit, floods and routes
(17_gondolas_and_bridle.md, R695 to R702, R723). Frames stand here in clear: the link key of the line and direction encrypts
them on the wire. -/

namespace Sys2Proof.Machine

def putLine (s : State) (m : Nat) (l : Line) : State := { s with bridle := { s.bridle with lines := tset {} s.bridle.lines m l } }

/-- Codes of R696. -/
def clsFormation : Nat := 1
def clsTether : Nat := 2
def clsForward : Nat := 3
def clsResult : Nat := 4
def clsControl : Nat := 5

/-- Flits of a frame: header, body and trailer (R695). -/
def frameFlits (f : Frame) : Nat := 2 + (f.body.length + 63) / 64

/-- Place of a class and VLANE in the credit table (R702). -/
def creditKey (cls vlane : Nat) : Nat := 16 * cls + if cls = clsForward then vlane % 8 else 0

/-- Classes whose frames wait for CREDIT in this model (R702). -/
def needsCredit (f : Frame) : Bool := decide (f.cls = clsForward ∨ f.cls = clsResult)

/-- Puts a frame on a line: its LSEQ is given, it stays in the replay buffer until acknowledged, and it is sent while the
line carries frames (R694, R695, R699). -/
def putFrame (s : State) (m : Nat) (f : Frame) : State :=
  let l := lineAt s m
  let f := { f with lseq := l.lseqOut }
  let n := frameFlits f
  let k := creditKey f.cls f.vlane
  let live := decide (l.lstate = .up ∨ l.lstate = .keying)
  let s := putLine s m { l with
    lseqOut := (l.lseqOut + 1) % 2 ^ 48, replay := l.replay ++ [f]
    credit := if needsCredit f then tset 0 l.credit k (tget 0 l.credit k - n) else l.credit
    tx := if live then (l.tx + n) % 2 ^ 64 else l.tx }
  if live then emit s (.frame m f) else s

/-- Sends a frame on a line, or lets it wait for credit behind those that wait (R702). -/
def sendOn (s : State) (m : Nat) (f : Frame) : State :=
  let l := lineAt s m
  let room := decide (frameFlits f ≤ tget 0 l.credit (creditKey f.cls f.vlane))
  if needsCredit f && (!l.waiting.isEmpty || !room) then putLine s m { l with waiting := l.waiting ++ [f] }
  else putFrame s m f

/-- Frames that waited go on while credit lasts (R702) (DEDUCED, log 80). -/
def drainWaiting (s : State) (m : Nat) : Nat → State
  | 0 => s
  | fuel + 1 =>
    let l := lineAt s m
    match l.waiting with
    | [] => s
    | f :: rest =>
      if frameFlits f ≤ tget 0 l.credit (creditKey f.cls f.vlane) then
        drainWaiting (putFrame (putLine s m { l with waiting := rest }) m f) m fuel
      else s

/-- Lines that carry frames: UP. -/
def upLines (s : State) : List Nat := (s.bridle.lines.filter fun e => decide (e.2.lstate = .up)).map (·.1)

/-- A frame consumed by the peers of every UP line but one (R695, R709, R721). -/
def flood (s : State) (except : Option Nat) (f : Frame) : State :=
  ((upLines s).filter fun m => decide (some m ≠ except)).foldl (fun s m => sendOn s m f) s

/-- A frame to member `n` by its route (R723); no frame goes to a member that is not present. -/
def sendTo (s : State) (n : Nat) (f : Frame) : State :=
  match routeTo s n with
  | some r => sendOn s r.line { f with src := selfMember s, dst := n }
  | none => s

/-- A CONTROL frame of a kind with its fields (R696). -/
def control (kind : Nat) (fwdId : Nat) (fields : Bytes) : Frame :=
  { cls := clsControl, fwdId := fwdId, cdata := pad 40 (BitVec.ofNat 8 kind :: fields) }

/-- The content of a formation message in the order the rules name it: numbers as 8 bytes each, then byte strings. The
layout of these messages is not given (DESIGN CHOICE, log 82). -/
def messageBody (nums : List Nat) (strs : List Bytes) : Bytes := nums.flatMap (le 8) ++ strs.flatten

/-- A FORMATION frame of a kind (R696), consumed by the peer of the line unless it is routed. -/
def formation (kind : Nat) (nums : List Nat) (strs : List Bytes) : Frame :=
  { cls := clsFormation, dst := 0xFFFF, cdata := pad 40 [BitVec.ofNat 8 kind], body := messageBody nums strs }

/-- A frame has been received in LSEQ order with a good CRC and link tag: it is counted and acknowledged (R696, R699). -/
def received (s : State) (m flits : Nat) : State :=
  let l := lineAt s m
  let s := putLine s m { l with lseqIn := (l.lseqIn + 1) % 2 ^ 48, naked := false, rx := (l.rx + flits) % 2 ^ 64 }
  emit s (.flit m 1 l.lseqIn)

/-- A frame failed its CRC or link tag (R699, R660 of 16): counted, NAKed. The charge is the fault's own. -/
def crcFailed (s : State) (m : Nat) : State :=
  let l := lineAt s m
  let s := putLine s m { l with crc := l.crc + 1, naked := true }
  if l.naked then s else emit s (.flit m 2 l.lseqIn)

/-- The line carries frames to and from its peer. -/
def lineUp (s : State) (m : Nat) : Bool := decide ((lineAt s m).lstate = .up)

/-- A mark of second `M` on every UP line but the one it came in on (R314): `delay` is the accumulated delay in ns of the
lines crossed so far. -/
def sendMarks (s : State) (except : Option Nat) (second delay : Nat) : State :=
  flood s except { cls := clsTether, src := selfMember s, dst := 0xFFFF, cdata := pad 40 (le 8 second ++ le 4 delay) }

end Sys2Proof.Machine
end

