-- ==== Sys2Proof/Machine/Events.lean ====
section
/-! DEFINITION. Pulses, numbers and marks of the tether; the event table: arming, firing, catching up after start-up
(06_tether.md R303 to R328, 07_key_hierarchy_and_ceremonies.md R352 to R358), and the commands TETHER_PPS_PULSE to
EVENT_CLEAR. -/

namespace Sys2Proof.Machine

/-! ### Firings (R319 to R324) -/

/-- FIRED of R318. -/
def firedEvent (s : State) : State := setEvent s 0x006 19

/-- An instance's audit key pair is replaced (R406 of 08): a seal under the old key, a new pair, a key record. -/
def rotateLog (s : State) (i pos : Nat) : State := beginKeyRec (drawAuditKey (makeSeal s i 3 pos) i) i 2

/-- A DRBG_RESEED firing (R319, R519 of 12): the channel's DRBG, or that of every RUNNING channel; nothing in STANDBY (R867
of 22). -/
def reseedFire (s : State) (c : Nat) : State :=
  if s.power.state = .standby then s
  else if c = 0x3F then
    (List.range 34).foldl (fun s d => if isRunning s (chanPage d) then demandReseed s d else s) s
  else demandReseed s c

/-- The effect of a firing of entry `e` at firing position `pos` (R319), none when it cannot take effect (R324). -/
def fireAction (s : State) (e : EvEntry) (pos : Nat) : Option State :=
  let created := (instAt s e.inst).created
  match e.action with
  | 1 => if created then some (makeSeal s e.inst 2 e.pos) else none
  | 2 => if created then some (dropPrev s e.inst) else none
  | 3 => if created ∧ e.slot < 32 ∧ mayActivate s e.inst e.slot then some (activateKey s e.inst e.slot pos) else none
  | 4 => if created then some (rotateLog s e.inst e.pos) else none
  | 5 => some (reseedFire s e.chan)
  | 6 =>
    if s.power.state = .standby then some (if e.chan < 34 then skipTest s e.chan else s) else some (fieldTestFire s e.chan)
  | 7 => some (wakeUp (setEvent s 0x006 20))
  | _ => none

/-- An entry after a firing that took effect (R323): DONE, or armed again above the position with the periods passed over
counted. -/
def refire (e : EvEntry) (pos : Nat) : EvEntry :=
  if e.period = 0 then { e with state := .done, fired := pos }
  else
    let p := 2 ^ e.period
    let n := (pos - e.pos) / p + 1
    { e with pos := (e.pos + n * p) % 2 ^ 64, missed := sat 255 (e.missed + (n - 1)), fired := pos }

/-- An entry fires (R321, R323, R324). IDLE ends (R865 of 22). -/
def fireEntry (s : State) (n : Nat) : State :=
  let s := wakeIdle s
  let e := evtAt s n
  let pos := position s
  match fireAction s e pos with
  | none => firedEvent (putEvt s n { e with state := .failed, fired := pos })
  | some s =>
    let e' := refire e pos
    let s := putEvt s n e'
    if e'.state = .done then firedEvent s else s

/-- Entry `a` fires before entry `b` (R322). -/
def before (a b : Nat × EvEntry) : Bool :=
  decide (a.2.pos < b.2.pos ∨ (a.2.pos = b.2.pos ∧ (a.2.action < b.2.action ∨ (a.2.action = b.2.action ∧ a.1 < b.1))))

/-- Entry `n` is due and first among the due (R321, R322): no due entry and no periodic seal comes before it. -/
def fires (s : State) (n : Nat) : Bool :=
  let e := evtAt s n
  decide (n < 256 ∧ e.state = .armed ∧ e.pos ≤ position s) &&
    (s.events.all fun x => !(decide (x.2.state = .armed ∧ x.2.pos ≤ position s) && before x (n, e))) &&
    (s.audit.logs.all fun x => match periodicDue s x.1 with
      | some m => decide (e.pos < m)
      | none => true)

/-- The periodic seal of an instance fires (R320, R322, R387 of 08): no due entry lies below its multiple. -/
def firePeriodic (s : State) (i : Nat) : State :=
  match periodicDue s i with
  | none => s
  | some m =>
    if s.events.any fun x => decide (x.2.state = .armed ∧ x.2.pos ≤ position s ∧ x.2.pos < m) then s
    else
      let s := makeSeal (wakeIdle s) i 1 m
      putLog s i { logAt s i with lastMultiple := m }

/-! ### Commands of the event table (R325, R326) -/

/-- EVT_SEL.INDEX of an accessor. -/
def evtSel (s : State) (acc : Acc) : Nat := tget 0 s.evtSel (accIdx acc) % 256

/-- The accessor is firmware. -/
def isFw (acc : Acc) : Bool := decide (acc = .fw0 ∨ acc = .fw1)

/-- Result of the accessor's command. -/
def evtResult (s : State) (acc : Acc) (r : Nat) : State := { s with evtRes := tset 0 s.evtRes (accIdx acc) r }

/-- The checks of ARM (R325). -/
def armCheck (s : State) (acc : Acc) (n : Nat) (e : EvEntry) : Nat :=
  if e.state = .armed then 2
  else if e.action = 0 ∨ 7 < e.action then 4
  else if ((e.action = 2 ∨ e.action = 3) ∧ acc ≠ .fw1) ∨ (254 ≤ n ∧ !isFw acc) then 3
  else if (e.action ≤ 4 ∧ !(instAt s e.inst).created) ∨ (e.action = 3 ∧ 31 < e.slot) ∨
      ((e.action = 5 ∨ e.action = 6) ∧ ¬ (e.chan ≤ 33 ∨ e.chan = 0x3F)) then 5
  else if ¬ (e.period = 0 ∨ (16 ≤ e.period ∧ e.period ≤ 40)) then 6
  else if e.pos ≤ position s then 1
  else 0

/-- ARM of the selected entry (R325). -/
def armEntry (s : State) (acc : Acc) : State :=
  let n := evtSel s acc
  let e := evtAt s n
  let r := armCheck s acc n e
  evtResult (if r = 0 then putEvt s n { e with state := .armed, fw := isFw acc } else s) acc r

/-- DISARM and CLEAR are refused to others than firmware on firmware's entries (R326). -/
def fwOwned (acc : Acc) (n : Nat) (e : EvEntry) : Bool := (e.fw || decide (254 ≤ n)) && !isFw acc

/-- DISARM of the selected entry (R326). -/
def disarmEntry (s : State) (acc : Acc) : State :=
  let n := evtSel s acc
  let e := evtAt s n
  if fwOwned acc n e then evtResult s acc 3
  else if e.state ≠ .armed then evtResult s acc 7
  else evtResult (putEvt s n { e with state := .empty }) acc 0

/-- CLEAR of the selected entry (R326). -/
def clearEntry (s : State) (acc : Acc) : State :=
  let n := evtSel s acc
  if fwOwned acc n (evtAt s n) then evtResult s acc 3 else evtResult (putEvt s n {}) acc 0

/-- A write of EVT_CTRL.CMD. -/
def writeEvtCtrl (s : State) (acc : Acc) (v : Nat) : State :=
  match v % 4 with
  | 1 => armEntry s acc
  | 2 => disarmEntry s acc
  | 3 => clearEntry s acc
  | _ => s

/-! ### The first accepted pulse (R327, R331, R358) -/

/-- Firmware arms its two entries at the next multiple of their periods (R327). -/
def armOwn (s : State) : State :=
  let next (k : Nat) := (position s / 2 ^ k + 1) * 2 ^ k
  let s := putEvt s 0xFF { state := .armed, action := 5, chan := 0x3F, period := 26, pos := next 26, fw := true }
  putEvt s 0xFE { state := .armed, action := 6, chan := 0x3F, period := 30, pos := next 30, fw := true }

/-- The persisted staged activations and overlap ends: position, action, instance, slot (R358). -/
def persistedEnds (s : State) : List (Nat × Nat × Nat × Nat) :=
  let ends := s.kh.insts.filterMap fun e => if e.2.prev.isSome then some (e.2.retireAt, 2, e.1, 0) else none
  let acts := s.kh.slots.filterMap fun e => match e.2.state, e.2.activateAt with
    | .staged, some p => some (p, 3, e.2.inst, e.1)
    | _, _ => none
  ends ++ acts

/-- Sorted by position, KEY_RETIRE before KEY_ACTIVATE (R358). -/
def insertEnd (x : Nat × Nat × Nat × Nat) : List (Nat × Nat × Nat × Nat) → List (Nat × Nat × Nat × Nat)
  | [] => [x]
  | y :: ys => if x.1 < y.1 ∨ (x.1 = y.1 ∧ x.2.1 ≤ y.2.1) then x :: y :: ys else y :: insertEnd x ys

/-- One persisted activation or overlap end is armed again or performed at once (R358). -/
def catchOne (s : State) (x : Nat × Nat × Nat × Nat) : State :=
  let (p, a, i, k) := x
  if position s < p then armLowest s { action := a, pos := p, inst := i, slot := k }
  else match emptyEvts s with
    | n :: _ => fireEntry (putEvt s n { state := .armed, action := a, pos := p, inst := i, slot := k, fw := true }) n
    | [] => match fireAction s { action := a, pos := p, inst := i, slot := k } (position s) with
      | some s => s
      | none => s

/-- What the first accepted pulse after start-up adds (R327, R358). -/
def firstPulse (s : State) : State :=
  let s := armOwn s
  ((persistedEnds s).foldr insertEnd []).foldl catchOne s

/-! ### Pulses (R304 to R314) -/

/-- STEP_SEAL (R373 of 08): before a forward step of 2^55 ticks or more, every log is sealed at the position before it. -/
def stepSeals (s : State) (m : Nat) : State :=
  if position s + 2 ^ 55 ≤ m * 2 ^ 20 then
    (s.audit.logs.map (·.1)).foldl (fun s i => makeSeal s i 4 (position s)) s
  else s

/-- A pulse is accepted with the number that applies to it, if any (R309 to R311, R314, R318, R330). -/
def acceptPulse (s : State) (num : Option Nat) : State :=
  let t := s.tether
  let (m, run, mnum, renum) := pulseSecond t num
  let s := stepSeals s m
  let s := { s with tether := startSecond t s.cycles m run mnum }
  let s := if t.state = .locked then s else setEvent s 0x006 16
  let s := if renum then
      setEvent { s with tether := { s.tether with renumber := sat 255 (s.tether.renumber + 1) } } 0x006 18
    else s
  let s := writeAnchor s m
  let s := if t.everPulsed then s else firstPulse s
  if isTetherRoot s then sendMarks s none m 0 else s

/-- A pulse arrives now (R306, R308, R310, R317: GLITCH counts every pulse ignored); `own` is the number that came with it, a
mark's. -/
def pulse (s : State) (own : Option Nat) : State :=
  let s := if slackUsed s then enterAdrift s else s
  let late : Bool := match s.tether.number with
    | some (_, t) => decide (s.cycles < t + 250)
    | none => false
  let s := if own.isNone && late then todError { s with tether := { s.tether with number := none } } else s
  let num : Option Nat := match own with
    | some n => some n
    | none => s.tether.number.map (·.1)
  let early := decide (s.tether.state = .locked ∧ s.cycles - s.tether.lastPulse < earlyCycles)
  if !early && (decide (s.tether.state = .locked) || num.isSome) then acceptPulse s num else glitch s

/-- A pulse on TETHER_PPS whose active level lasted `held` ns after an edge (R303, R304, R313) (DESIGN CHOICE, log 98). -/
def ppsPulse (s : State) (rising : Bool) (held : Nat) : State :=
  if rising = s.tether.ppsEdge ∨ tetherSource s.tether = 2 ∨ followsBridle s then s
  else if held < 100 then glitch s
  else pulse s none

/-- A complete frame on TETHER_TOD (R305, R306): sync byte 0x54, the number, its CRC-8; `bad` for a framing error. -/
def todFrame (s : State) (chars : Bytes) (bad : Bool) : State :=
  if tetherSource s.tether ≠ 0 then s
  else
    let n := slice chars 1 8
    if bad ∨ chars.length ≠ 10 ∨ chars.getD 0 0 ≠ 0x54#8 ∨ chars.getD 9 0 ≠ crc8 n then todError s
    else setNumber s (unle n)

/-- The line idles before a frame's tenth character (R305). -/
def todIdle (s : State) : State :=
  if tetherSource s.tether ≠ 0 then s else todError s

/-- A write of TETHER_NEXT_SEC_LO (R306, R317). -/
def writeNextSec (s : State) (v : Word32) : State :=
  if tetherSource s.tether = 0 then s
  else setNumber { s with tether := { s.tether with nextSecLo := v } } (v.toNat + 2 ^ 32 * s.tether.nextSecHi.toNat)

/-- The extrapolated count has reached the held value (R311): the position follows the count. -/
def endCatchup (s : State) : State :=
  if s.tether.catchup && !catchupNow s then { s with tether := { s.tether with catchup := false } } else s

/-- A TETHER frame comes in on a line (R313, R314): the first copy of its mark is relayed and treated as a pulse. -/
def mark (s : State) (m second delay : Nat) : State :=
  if !lineUp s m then s
  else
    let s := received s m 2
    if s.tether.lastMark = some second ∨ !followsBridle s then s
    else
      let s := { s with tether := { s.tether with lastMark := some second } }
      pulse (sendMarks s (some m) second (delay + (lineAt s m).delay)) (some second)

/-! ### Meanings -/

/-- TETHER_PPS_PULSE (R308). -/
def execTetherPpsPulse (rising : Bool) (held : Nat) (s : State) : Host.Outcome State Fault Refusal :=
  .next (ppsPulse s rising held)

/-- TETHER_TOD_FRAME (R305). -/
def execTetherTodFrame (chars : Bytes) (bad : Bool) (s : State) : Host.Outcome State Fault Refusal :=
  .next (todFrame s chars bad)

/-- TOD_IDLE_EXPIRY (R305). -/
def execTodIdleExpiry (s : State) : Host.Outcome State Fault Refusal := .next (todIdle s)

/-- TETHER_NEXT_SEC (R306). -/
def execTetherNextSec (acc : Acc) (value : Word32) (s : State) : Host.Outcome State Fault Refusal :=
  .next (if reaches s acc 0x006 then writeNextSec s value else s)

/-- TETHER_STROBE (R303): a pulse while SOURCE is 2; a member of a formed gondola follows its marks (R313). -/
def execTetherStrobe (acc : Acc) (_value : Word32) (s : State) : Host.Outcome State Fault Refusal :=
  .next (if reaches s acc 0x006 ∧ tetherSource s.tether = 2 ∧ !followsBridle s then pulse s none else s)

/-- TETHER_ADRIFT (R310). -/
def execTetherAdrift (s : State) : Host.Outcome State Fault Refusal := .next (if slackUsed s then enterAdrift s else s)

/-- CATCHUP_END (R311). -/
def execCatchupEnd (s : State) : Host.Outcome State Fault Refusal := .next (endCatchup s)

/-- TETHER_MARK (R314). -/
def execTetherMark (line second delay : Nat) (s : State) : Host.Outcome State Fault Refusal := .next (mark s line second delay)

/-- EVENT_FIRE (R321). -/
def execEventFire (index : Nat) (s : State) : Host.Outcome State Fault Refusal :=
  .next (if fires s index then fireEntry s index else s)

/-- PERIODIC_SEAL_FIRE (R320). -/
def execPeriodicSealFire (inst : Nat) (s : State) : Host.Outcome State Fault Refusal := .next (firePeriodic s inst)

/-- ARM (R325). -/
def execArm (acc : Acc) (s : State) : Host.Outcome State Fault Refusal :=
  .next (if reaches s acc 0x006 then armEntry s acc else s)

/-- DISARM (R326). -/
def execDisarm (acc : Acc) (s : State) : Host.Outcome State Fault Refusal :=
  .next (if reaches s acc 0x006 then disarmEntry s acc else s)

/-- EVENT_CLEAR (R326). -/
def execEventClear (acc : Acc) (s : State) : Host.Outcome State Fault Refusal :=
  .next (if reaches s acc 0x006 then clearEntry s acc else s)

end Sys2Proof.Machine
end

