-- ==== Sys2Proof/Machine/Ccb.lean ====
section
/-! DEFINITION. The custodian card bus (20_custodian_card_bus.md): slots, bring-up, card commands, removal, the share buffer,
and the commands SLOT_PRESENT to CCB_ABORT. -/

namespace Sys2Proof.Machine

def cardPage : Nat := 0x008

def cardSlotAt (s : State) (k : Nat) : CardSlot := tget {} s.ccb.slots k
def putCardSlot (s : State) (k : Nat) (x : CardSlot) : State :=
  { s with ccb := { s.ccb with slots := tset {} s.ccb.slots k x } }
def cardAccAt (s : State) (a : Nat) : CardAcc := tget {} s.ccb.accs a
def putCardAcc (s : State) (a : Nat) (x : CardAcc) : State := { s with ccb := { s.ccb with accs := tset {} s.ccb.accs a x } }
def putTxn (s : State) (t : Option CardTxn) : State := { s with ccb := { s.ccb with txn := t } }

/-! ### Frames and blocks (R801 to R804) -/

/-- Bits of a number, least significant first. -/
def bitsLsb (n v : Nat) : List Bool := (List.range n).map fun i => bit v i

/-- CRC of a frame (R801): over ADDR, CODE and VALUE in the order sent. -/
def frameCrc (addr code value : Nat) : Nat := (crc16 (bitsLsb 4 addr ++ bitsLsb 8 code ++ bitsLsb 32 value)).toNat

/-- The request frame of a transaction goes out, from its start or again (R801, R806). -/
def sendRequest (s : State) (t : CardTxn) : State :=
  emit (putTxn s (some { t with phase := .reply })) (.cardFrame t.addr t.op t.arg (frameCrc t.addr t.op t.arg))

/-- The commands that are followed by a block from the card. -/
def cardReads (op : Nat) : Bool := decide (op = 0x03 ∨ op = 0x10)

/-- The commands that are followed by a block from the device. -/
def cardWrites (op : Nat) : Bool := decide (op = 0x11 ∨ op = 0x12)

/-- Payload bytes of a card's block (R802). -/
def cardBlockLen (op : Nat) : Nat := if op = 0x03 then 16 else 72

/-- A WRITE_RECORD block (R803). -/
def recordBlock (expect : Nat) (content : Bytes) : Bytes := le 4 expect ++ zeros 4 ++ pad 64 content

/-- The length of a password: the index of its last nonzero byte plus 1 (CCB_PWD0 to CCB_PWD3). -/
def pwdLen (pwd : Bytes) : Nat := ((List.range 16).filter fun i => decide (pwd.getD i 0 ≠ 0)).getLast?.elim 0 (· + 1)

/-- MODE of a CREDENTIAL block for an OP of CCB_CMD (R803). -/
def credMode (op : Nat) : Nat := if op = 8 then 8 else op - 3

/-- A CREDENTIAL block (R803). -/
def credentialBlock (op : Nat) (pwd : Bytes) : Bytes :=
  le 4 (credMode op) ++ [BitVec.ofNat 8 (pwdLen pwd)] ++ zeros 3 ++ pad 16 pwd ++ zeros 48

/-- Code of CCB_RESULT for a refusal of the card (R804). -/
def refusalCode : Nat → Nat
  | 1 => 3 | 2 => 5 | 3 => 4 | 4 => 4 | _ => 0xA

/-! ### Ends of commands (R816, R817) -/

/-- A command of an accessor ends with a code: its password and the share buffer are cleared, CMD_DONE is set. -/
def endCard (s : State) (a op slot code : Nat) : State :=
  let x := cardAccAt s a
  let s := putCardAcc s a { x with state := 2, code := code, pwd := if 4 ≤ op then [] else x.pwd }
  let mine : Bool := match s.kh.joins with
    | j :: _ => decide (j.1 = slot)
    | [] => false
  let s := if a = 2 ∧ op = 1 ∧ code ≠ 0 ∧ mine then { s with kh := { s.kh with joins := s.kh.joins.drop 1 } } else s
  setEvent { s with ccb := { s.ccb with share := [] } } cardPage 18

/-! ### Bring-up (R809, R810, R811) -/

/-- The next free card address (R810). -/
def nextCardAddr (s : State) : Nat :=
  let held (a : Nat) : Bool := s.ccb.slots.any fun e => decide (e.2.addr = a)
  let go := (List.range 15).map fun i => (s.ccb.nextAddr - 1 + i) % 15 + 1
  (go.find? fun a => !held a).getD s.ccb.nextAddr

/-- The best mode both support (R809 step 4): 2 for 4-bit at 25 MHz, 1 for 1-bit at 25 MHz, 0 for 1-bit at 400 kHz. -/
def bestMode (caps : Nat) : Nat := if bit caps 1 then (if bit caps 0 then 2 else 1) else 0

/-- ARG of SET_MODE for a mode. -/
def modeArg (m : Nat) : Nat := if m = 2 then 3 else if m = 1 then 2 else 0

/-- The bring-up of a slot's card fails (R811): PARK, INACTIVE. -/
def parkCard (s : State) (k : Nat) : State :=
  let x := cardSlotAt s k
  let s := emit s (.cardFrame x.addr 0x07 0x5041 (frameCrc x.addr 0x07 0x5041))
  setEvent (putTxn (putCardSlot s k { x with state := .inactive }) none) cardPage 19

/-- A step of a bring-up is taken up. -/
def bringStep (s : State) (k op arg : Nat) : State :=
  sendRequest s { acc := none, slot := k, op := op, arg := arg, addr := if op = 1 ∨ op = 2 then 0 else (cardSlotAt s k).addr }

/-- A command of the queue's front begins (R803, R804, R815, R816). -/
def beginCard (s : State) (a op slot record : Nat) : State :=
  let s := if a = 2 ∧ op = 2 then
      match splitSlot s with
      | some k => { s with ccb := { s.ccb with share := (slotAt s k).splitRecs.getD (slotAt s k).splitDone [] } }
      | none => s
    else s
  let x := cardAccAt s a
  let code := if op = 1 then 0x10 else if op = 2 then 0x11 else if op = 3 then 0x06 else 0x12
  let block := if op = 2 then recordBlock x.wcount.toNat s.ccb.share else if 4 ≤ op then credentialBlock op x.pwd else []
  sendRequest s {
    acc := some a, slot := slot, op := code, arg := if op = 1 ∨ op = 2 then record else 0, addr := (cardSlotAt s slot).addr
    block := block }

/-- The bus is free: the next bring-up, else the next command, begins (R809, R815). -/
def cardNext (s : State) : State :=
  if s.ccb.txn.isSome ∨ !takesWork s cardPage then s
  else match s.ccb.bringUp with
    | k :: _ => bringStep (putCardSlot s k { cardSlotAt s k with state := .powering, power := true }) k 0x01 0
    | [] => match s.ccb.queue with
      | (a, op, slot, record) :: _ => beginCard s a op slot record
      | [] => s

/-- The running command of an accessor ends with a code, and the bus goes on. -/
def finishCard (s : State) (code : Nat) : State :=
  match s.ccb.queue with
  | [] => putTxn s none
  | (a, op, slot, _) :: rest => cardNext (endCard { s with ccb := { s.ccb with queue := rest, txn := none } } a op slot code)

/-- The bring-up in hand ends, and the bus goes on. -/
def finishBringUp (s : State) : State := cardNext { s with ccb := { s.ccb with bringUp := s.ccb.bringUp.drop 1, txn := none } }

/-- The transaction fails for good with a code (R806, R811). -/
def cardFails (s : State) (t : CardTxn) (code : Nat) : State :=
  match t.acc with
  | none => finishBringUp (parkCard s t.slot)
  | some _ => finishCard s (t.code.getD code)

/-- One failure of R806: charged, and the command is sent again or ends with CRC. -/
def cardRetry (s : State) (t : CardTxn) : State :=
  let s := charge s cardPage 3
  if 3 ≤ t.failures then cardFails s t 6 else sendRequest s { t with failures := t.failures + 1 }

/-- LOCKED and the failure count of a STATUS reply reach the slot (R804, R809). -/
def noteStatus (s : State) (k data : Nat) : State :=
  putCardSlot s k { cardSlotAt s k with state := if bit data 4 then .locked else .ready, fails := bits data 8 4 }

/-! ### Replies, blocks and the end of busy (R802 to R806) -/

/-- What a good reply leads to in a bring-up (R809). -/
def bringReply (s : State) (t : CardTxn) (data : Nat) : State :=
  let k := t.slot
  let x := cardSlotAt s k
  match t.op with
  | 0x01 => bringStep (putCardSlot s k { x with caps := data }) k 0x02 (nextCardAddr s)
  | 0x02 =>
    let s := putCardSlot s k { x with addr := t.arg, state := .ident }
    bringStep { s with ccb := { s.ccb with nextAddr := t.arg % 15 + 1 } } k 0x05 (modeArg (bestMode x.caps))
  | 0x05 => bringStep (putCardSlot s k { x with mode := bestMode x.caps }) k 0x03 0
  | 0x03 => putTxn s (some { t with phase := .readBlock })
  | _ => finishBringUp (setEvent (noteStatus s k data) cardPage 16)

/-- What a good reply leads to in a command. -/
def commandReply (s : State) (t : CardTxn) (data : Nat) : State :=
  if cardReads t.op then putTxn s (some { t with phase := .readBlock })
  else if cardWrites t.op then emit (putTxn s (some { t with phase := .ack })) (.cardBlock t.block (crc32c t.block).toNat)
  else finishCard (noteStatus s t.slot data) (t.code.getD 0)

/-- A card refuses (R804): a wrong password is followed by a STATUS, which shows the card's count (R819). -/
def cardRefuses (s : State) (t : CardTxn) (status : Nat) : State :=
  if t.acc.isSome ∧ t.op = 0x12 ∧ refusalCode status = 4 then
    sendRequest s { t with op := 0x06, arg := 0, block := [], failures := 0, code := some 4 }
  else cardFails s t (refusalCode status)

/-- The address from which a reply to a transaction comes (R801, R804). -/
def replyAddr (t : CardTxn) : Nat := if t.op = 0x02 then t.arg else t.addr

/-- CARD_REPLY. -/
def cardReply (s : State) (addr status data : Nat) (crcOk : Bool) : State :=
  match s.ccb.txn with
  | none => s
  | some t =>
    if t.phase ≠ .reply ∧ t.phase ≠ .ack then s
    else if !crcOk then cardRetry s t
    else if addr ≠ replyAddr t then s
    else if status = 0xFE ∨ status = 0xFD then cardRetry s t
    else if status ≠ 0 then cardRefuses s t status
    else if t.phase = .ack then putTxn s (some { t with phase := .busy })
    else if t.acc.isNone then bringReply s t data
    else commandReply s t data

/-- A record read reaches the share buffer, and ring 1 firmware takes it into its slot before the command ends (R346, R350 of
07, R816). -/
def recordRead (s : State) (t : CardTxn) (a : Nat) (b : Bytes) : State :=
  let share := slice b 8 64
  let s := putCardAcc { s with ccb := { s.ccb with share := share } } a
    { cardAccAt s a with wcount := w32 (field b 0 4), rstate := decide (b.getD 4 0 = 1#8) }
  if a ≠ 2 then s
  else
    let s := match s.kh.joins with
      | (card, k, i) :: rest =>
        if card = t.slot then takeShare { s with kh := { s.kh with joins := rest } } k i share else s
      | [] => s
    splitRead s share

/-- CARD_BLOCK. -/
def cardBlock (s : State) (data : Bytes) (crc : Nat) : State :=
  match s.ccb.txn with
  | none => s
  | some t =>
    if t.phase ≠ .readBlock then s
    else if data.length ≠ cardBlockLen t.op ∨ crc ≠ (crc32c data).toNat then cardRetry s t
    else match t.acc with
      | none => bringStep (putCardSlot s t.slot { cardSlotAt s t.slot with id := data }) t.slot 0x06 0
      | some a => finishCard (recordRead s t a data) 0

/-- The state of a slot after a CREDENTIAL that its card accepted (R800) (DEDUCED, log 105). -/
def afterCred (mode : Nat) (st : CardState) : CardState :=
  match mode with
  | 3 => .locked
  | 4 => .ready
  | 8 => .ready
  | _ => st

/-- CARD_BUSY_END. -/
def cardBusyEnd (s : State) : State :=
  match s.ccb.txn with
  | none => s
  | some t =>
    match t.phase, t.acc with
    | .busy, some a =>
      if t.op = 0x11 then
        let x := cardAccAt s a
        let s := putCardAcc s a { x with wcount := x.wcount + 1 }
        finishCard (if a = 2 then splitWrote s else s) 0
      else
        let x := cardSlotAt s t.slot
        finishCard (putCardSlot s t.slot { x with state := afterCred (field t.block 0 4) x.state }) 0
    | _, _ => s

/-! ### Presence, removal, abort (R796, R797, R808, R812 to R814, R818, R819) -/

/-- SLOT_PRESENT. -/
def slotPresent (s : State) (k : Nat) : State :=
  let x := cardSlotAt s k
  if 4 ≤ k ∨ x.present then s
  else
    let s := putCardSlot s k { x with present := true, overcurrent := false }
    cardNext { s with ccb := { s.ccb with bringUp := s.ccb.bringUp ++ [k] } }

/-- A slot is powered down (R812): EMPTY, no card known. -/
def powerDown (s : State) (k : Nat) : State :=
  let x := cardSlotAt s k
  putCardSlot s k { present := x.present, overcurrent := x.overcurrent }

/-- Result of the transaction on the bus when its slot is removed (R813). -/
def removedCode : CardPhase → Nat
  | .reply => 7
  | .readBlock => 7
  | .ack => 8
  | .busy => 8

/-- Commands of the queue that match end with a code (R813, R818). -/
def endWaiting (s : State) (code : Nat) (p : Nat × Nat × Nat × Nat → Bool) : State :=
  let out := s.ccb.queue.filter p
  out.foldl (fun s q => endCard s q.1 q.2.1 q.2.2.1 code) { s with ccb := { s.ccb with queue := s.ccb.queue.filter fun q => !p q } }

/-- The slots of a list are removed in one sequence of R812: their commands end, the transaction of another slot is sent
again without a retry unless its card is busy (R814), and the bus goes on. -/
def removeSlots (s : State) (ks : List Nat) : State :=
  let here (k : Nat) : Bool := ks.contains k
  let s := ks.foldl powerDown { s with ccb := { s.ccb with bringUp := s.ccb.bringUp.filter fun k => !here k } }
  let s := match s.ccb.txn with
    | none => s
    | some t =>
      if !here t.slot then
        if t.phase = .busy then s else sendRequest s t
      else
        let s := putTxn s none
        match t.acc, s.ccb.queue with
        | some _, (a, op, slot, _) :: rest =>
          endCard { s with ccb := { s.ccb with queue := rest } } a op slot (if t.code.isSome then 7 else removedCode t.phase)
        | _, _ => s
  cardNext (setEvent (endWaiting s 7 fun q => here q.2.2.1) cardPage 17)

/-- SLOT_REMOVAL: the detect switches of these slots have opened. -/
def slotRemoval (s : State) (ks : List Nat) : State :=
  let ks := (List.range 4).filter fun k => ks.contains k && (cardSlotAt s k).present
  if ks.isEmpty then s
  else removeSlots (ks.foldl (fun s k => putCardSlot s k { cardSlotAt s k with present := false }) s) ks

/-- CCB_OVERCURRENT: as a removal, with OVERCURRENT set (R797). -/
def overcurrent (s : State) (k : Nat) : State :=
  let x := cardSlotAt s k
  if !x.power then s else removeSlots (putCardSlot s k { x with overcurrent := true }) [k]

/-- CCB_CTRL.ABORT (R808, R819): the accessor's command, running or still waiting, ends with ABORTED. -/
def cardAbort (s : State) (acc : Acc) (v : Word32) : State :=
  let a := accIdx acc
  if v.toNat % 2 ^ 16 ≠ 0xAB07 then s
  else
    let running := match s.ccb.txn with
      | some t => decide (t.acc = some a)
      | none => false
    if running then finishCard s 9
    else endWaiting s 9 fun q => decide (q.1 = a)

/-- The ripcord on the card bus (R818): every command ABORTED, every powered slot powered down, those whose switches stay
closed to be brought up again; the share buffer cleared. -/
def ripcordCards (s : State) : State :=
  let s := endWaiting (putTxn s none) 9 fun _ => true
  let up := (List.range 4).filter fun k => (cardSlotAt s k).power
  let s := up.foldl powerDown s
  let s := if up.isEmpty then s else setEvent s cardPage 17
  let again := (up.filter fun k => (cardSlotAt s k).present && !(cardSlotAt s k).overcurrent)
  { s with ccb := { s.ccb with share := [], bringUp := again ++ s.ccb.bringUp.filter fun k => !again.contains k } }

/-! ### CCB_CMD (R815) -/

/-- A write of CCB_CMD: OP, SLOT, RECORD, and GO (R815, R819) (DESIGN CHOICE, log 106). -/
def writeCardCmd (s : State) (acc : Acc) (v : Word32) : State :=
  let a := accIdx acc
  let n := v.toNat
  let op := bits n 0 4
  let slot := bits n 4 2
  let record := bits n 8 4
  let x := { cardAccAt s a with op := op, slot := slot, record := record }
  let s := putCardAcc s a x
  if !bit n 31 ∨ x.state = 1 ∨ op = 0 ∨ 8 < op then s
  else
    let st := (cardSlotAt s slot).state
    if op ≤ 2 ∧ a ≠ 2 then endCard s a op slot 2
    else if st ≠ .ready ∧ st ≠ .locked then endCard s a op slot 1
    else
      let s := wakeIdle (putCardAcc s a { x with state := 1 })
      cardNext { s with ccb := { s.ccb with queue := s.ccb.queue ++ [(a, op, slot, record)] } }

/-- A GO of a command that reaches the page (DEDUCED, log 104). -/
def cardGo (s : State) (acc : Acc) (op slot record : Nat) : State :=
  if reaches s acc cardPage then writeCardCmd s acc (w32 (op + 16 * (slot % 4) + 256 * (record % 16) + 2 ^ 31)) else s

/-! ### Meanings -/

/-- SLOT_PRESENT (R796). -/
def execSlotPresent (slot : Nat) (s : State) : Host.Outcome State Fault Refusal := .next (slotPresent s slot)

/-- SLOT_REMOVAL (R812). -/
def execSlotRemoval (slots : List Nat) (s : State) : Host.Outcome State Fault Refusal := .next (slotRemoval s slots)

/-- CCB_OVERCURRENT (R797). -/
def execCcbOvercurrent (slot : Nat) (s : State) : Host.Outcome State Fault Refusal := .next (overcurrent s slot)

/-- CARD_REPLY (R801). -/
def execCardReply (addr status : Nat) (data : Word32) (crcOk : Bool) (s : State) : Host.Outcome State Fault Refusal :=
  .next (cardReply s addr status data.toNat crcOk)

/-- CARD_BLOCK (R802). -/
def execCardBlock (data : Bytes) (crc : Nat) (s : State) : Host.Outcome State Fault Refusal := .next (cardBlock s data crc)

/-- CARD_BUSY_END (R802). -/
def execCardBusyEnd (s : State) : Host.Outcome State Fault Refusal := .next (cardBusyEnd s)

/-- READ_RECORD (R816). -/
def execReadRecord (acc : Acc) (slot record : Nat) (s : State) : Host.Outcome State Fault Refusal :=
  .next (cardGo s acc 1 slot record)

/-- WRITE_RECORD (R799). -/
def execWriteRecord (acc : Acc) (slot record : Nat) (s : State) : Host.Outcome State Fault Refusal :=
  .next (cardGo s acc 2 slot record)

/-- STATUS (R804). -/
def execStatus (acc : Acc) (slot : Nat) (s : State) : Host.Outcome State Fault Refusal := .next (cardGo s acc 3 slot 0)

/-- SET_PWD (R803). -/
def execSetPwd (acc : Acc) (slot : Nat) (s : State) : Host.Outcome State Fault Refusal := .next (cardGo s acc 4 slot 0)

/-- CLR_PWD (R803). -/
def execClrPwd (acc : Acc) (slot : Nat) (s : State) : Host.Outcome State Fault Refusal := .next (cardGo s acc 5 slot 0)

/-- LOCK (R803). -/
def execLock (acc : Acc) (slot : Nat) (s : State) : Host.Outcome State Fault Refusal := .next (cardGo s acc 6 slot 0)

/-- UNLOCK (R800). -/
def execUnlock (acc : Acc) (slot : Nat) (s : State) : Host.Outcome State Fault Refusal := .next (cardGo s acc 7 slot 0)

/-- FORCE_ERASE (R800). -/
def execForceErase (acc : Acc) (slot : Nat) (s : State) : Host.Outcome State Fault Refusal := .next (cardGo s acc 8 slot 0)

/-- CCB_ABORT (R808). -/
def execCcbAbort (acc : Acc) (value : Word32) (s : State) : Host.Outcome State Fault Refusal :=
  .next (if reaches s acc cardPage then cardAbort s acc value else s)

end Sys2Proof.Machine
end

