-- ==== Sys2Proof/Machine/Tag.lean ====
section
/-! DEFINITION. The custody tag (21_custody_tag.md): the ISO 14443 states, APDUs, sessions, the journal, and the commands
FIELD_ON to TAG_JRNL_CLR. -/

namespace Sys2Proof.Machine

def tagPage : Nat := 0x009

def putTag (s : State) (t : Tag) : State := { s with tag := t }

/-- VIN feeds the device. -/
def vinPresent (s : State) : Bool := decide (s.power.state ≠ .moored)

/-- An event bit of the tag unit, while the keel runs (R848). -/
def tagEvent (s : State) (b : Nat) : State := if vinPresent s then setEvent s tagPage b else s

/-! ### Tag generator, field (R825, R827, R829) -/

/-- AES-128 in counter mode under the tag seed: the block of a counter value (R827). -/
def tagBlock (seed : BitVec 128) (counter : Nat) : Bytes := Config.out .aesEnc [be 16 seed.toNat, be 16 counter] 16

/-- The keel writes a new seed and sets the counter to 0 (R827), at every start-up. -/
def tagSeed (s : State) : State :=
  let (b, s) := keelDraw s 16
  putTag s { s.tag with seed := BitVec.ofNat 128 (unbe b), counter := 0 }

/-- FIELD_ON (R825, R827, R829). -/
def fieldOn (s : State) : State :=
  let t := s.tag
  if t.field then s
  else
    let uid := 0x08#8 :: slice (tagBlock t.seed t.counter) 0 3
    let s := putTag s { t with
      field := true, strong := false, wake := true, state := .idle, uid := uid, genNext := t.counter + 1
      counter := (t.counter + 2 ^ 16) % 2 ^ 64, selected := false, blocked := false, challenge := none, session := none
      stale := false, fieldOns := if vinPresent s then sat 65535 (t.fieldOns + 1) else t.fieldOns }
    tagEvent s 16

/-- 16 bytes of the tag generator. -/
def tagDraw (s : State) : Bytes × State :=
  (tagBlock s.tag.seed s.tag.genNext, putTag s { s.tag with genNext := (s.tag.genNext + 1) % 2 ^ 64 })

/-! ### The journal (R837 to R840) -/

/-- A programmed slot is a record: COMMIT reads 0x5A and CHECK verifies (R837). -/
def isRecord (b : Bytes) : Bool := decide (b.getD 63 0 = 0x5A#8 ∧ b.getD 56 0 = crc8 (slice b 0 56))

/-- The journal (R837). -/
def journal (s : State) : List Bytes := s.tag.slots.filter isRecord

/-- Slots of the tag store. -/
def journalSlots : Nat := 512

/-- The journal is full (R838). -/
def journalFull (s : State) : Bool := decide (journalSlots ≤ s.tag.slots.length)

/-- Torn slots (R838): programmed and no record; the slot that an append programs now is not counted. -/
def tornSlots (s : State) : Nat :=
  let open_ := match s.tag.run with
    | some r => if 2 ≤ r.step then 1 else 0
    | none => 0
  s.tag.slots.length - (journal s).length - open_

/-- AES-CMAC under a tag key. -/
def tagCmac (k : BitVec 128) (msg : Bytes) (n : Nat) : Bytes := Config.out .aesCmac [be 16 k.toNat, msg] n

/-- Bytes 0 to 47 of a record (R839). -/
def recordBody (s : State) (a : TagAppend) : Bytes :=
  let vin := vinPresent s
  let flags := bitAt (!vin) 0 + bitAt vin 1 + bitAt s.mooring.held 2
  le 4 (journal s).length ++ [BitVec.ofNat 8 a.type, if a.reader then 1#8 else 2#8, BitVec.ofNat 8 flags, 0#8] ++
    le 6 (if s.mooring.held then s.mooring.rtc else 0) ++ zeros 2 ++ le 8 (if vin then position s else 0) ++ pad 24 a.payload

/-- Bytes 48 to 55: the MAC, 00 bytes while K_JOURNAL is not set (R839). -/
def recordMac (s : State) (body : Bytes) : Bytes :=
  match s.tag.kJournal with
  | none => zeros 8
  | some k => tagCmac k body 8

/-- The last programmed slot with bytes programmed over it. -/
def programLast (s : State) (off : Nat) (b : Bytes) : State :=
  let n := s.tag.slots.length - 1
  putTag s { s.tag with slots := s.tag.slots.take n ++ [splice 64 (s.tag.slots.getD n []) off b] }

/-! ### APDU answers (R831 to R833) -/

/-- A response: data and status word. -/
def answer (s : State) (data : Bytes) (sw : Nat) : State := emit s (.tagFrame (data ++ be 2 sw))

/-- The R-MAC of a response with 90 00 (R833). -/
def rMac (key : BitVec 128) (ctr : Nat) (data : Bytes) : Bytes := tagCmac key (be 2 ctr ++ data ++ be 2 0x9000) 8

/-- CTR rises after a command that carries a C-MAC (R833). -/
def raiseCtr (s : State) : State :=
  putTag s { s.tag with session := s.tag.session.map fun x => (x.1, x.2.1, (x.2.2 + 1) % 2 ^ 16) }

/-- A response with 90 00 and an R-MAC. -/
def answerMac (s : State) (data : Bytes) (ctr : Nat) : State :=
  match s.tag.session with
  | none => answer s [] 0x6982
  | some (_, key, _) => answer s (data ++ rMac key ctr data) 0x9000

/-! ### Appends (R840 to R844, R847) -/

/-- The result of an append, by the reader's status word or TAG_APP_CTRL.RESULT. -/
inductive AppendEnd where
  | ok | expect | full | weak | badType | torn
  deriving DecidableEq, Repr

/-- The append ends: its response or its result (R832, R842 step 4, R847). -/
def endAppend (s : State) (a : TagAppend) (r : AppendEnd) : State :=
  let s := putTag s { s.tag with run := none }
  let s := if r = .weak then putTag s { s.tag with refusals := sat 255 (s.tag.refusals + 1) } else s
  if a.reader then
    let s := match r with
      | .ok =>
        let b := (journal s).getLast?.getD []
        if a.closed then answer s [] 0x6982 else answerMac s (slice b 0 4 ++ slice b 48 8) a.ctr
      | .expect => answer s [] 0x6A80
      | .full => answer s [] 0x6A84
      | _ => answer s [] 0x6985
    raiseCtr s
  else
    let code := match r with
      | .ok => 0 | .expect => 1 | .full => 2 | .badType => 4 | _ => 3
    putTag s { s.tag with appState := 2, appResult := code }

/-- The supply lets a step begin (R843). -/
def mayProgram (s : State) : Bool := vinPresent s || (s.tag.field && s.tag.strong)

/-- The next append is taken: its own checks, in R832's order; a device append waits while the unit takes no work. -/
def takeAppend (s : State) : State :=
  match s.tag.run, s.tag.waiting with
  | none, a :: rest =>
    if !a.reader && !takesWork s tagPage then s
    else
      let s := putTag s { s.tag with waiting := rest }
      if !a.reader ∧ a.type = 0 then endAppend s a .badType
      else if a.expect ≠ (journal s).length then endAppend s a .expect
      else if journalFull s then endAppend s a .full
      else if !mayProgram s then endAppend s a .weak
      else putTag s { s.tag with run := some a }
  | _, _ => s

/-- Programs the step that is due, and after the last commits the record (R842, R843, R848) (DESIGN CHOICE, log 107). -/
def appendStep (s : State) : State :=
  match s.tag.run with
  | none => takeAppend s
  | some a =>
    if !mayProgram s then if a.step = 1 then takeAppend (endAppend s a .weak) else s
    else match a.step with
      | 1 => putTag s { s.tag with
          slots := s.tag.slots ++ [recordBody s a ++ List.replicate 16 0xFF#8], run := some { a with step := 2 } }
      | 2 =>
        let body := slice ((s.tag.slots.getLast?).getD []) 0 48
        let mac := recordMac s body
        let s := programLast s 48 (mac ++ [crc8 (body ++ mac)])
        putTag s { s.tag with run := some { a with step := 3 } }
      | _ => takeAppend (endAppend (tagEvent (programLast s 63 [0x5A#8]) 18) a .ok)

/-- An append is asked for. -/
def requestAppend (s : State) (a : TagAppend) : State :=
  takeAppend (putTag s { s.tag with waiting := s.tag.waiting ++ [a] })

/-- An append in progress is abandoned: what it has programmed is torn (R843, R844). -/
def abandonAppend (s : State) : State :=
  match s.tag.run with
  | none => s
  | some a =>
    let s := putTag s { s.tag with run := none }
    if 2 ≤ a.step then tagEvent s 20 else s

/-- FIELD_OFF (R825, R843, R844): the tag state, the authentication state and the session keys are discarded. -/
def fieldOff (s : State) : State :=
  let t := s.tag
  if !t.field then s
  else
    let fed := match t.run with
      | some a => a.reader || !vinPresent s
      | none => false
    let s := if fed then abandonAppend s else s
    let s := putTag s { s.tag with
      field := false, strong := false, state := .idle, uid := [], selected := false, blocked := false, challenge := none
      session := none, stale := false, waiting := s.tag.waiting.filter fun a => !a.reader }
    takeAppend (tagEvent s 17)

/-- Loss of VIN for the tag (R847): a device append without a field stops as it stands. -/
def tagVinLoss (s : State) : State :=
  let s := match s.tag.run with
    | some a => if !a.reader && !s.tag.field then abandonAppend s else s
    | none => s
  let dead := match s.tag.run with
    | some a => !a.reader
    | none => false
  putTag s { s.tag with
    mod := if 2000 ≤ s.mooring.vbat then 2 else 3
    waiting := s.tag.waiting.filter fun a => a.reader
    appState := if dead then 1 else 0 }

/-! ### ISO/IEC 14443-3 (R824, R826) -/

/-- UID0 to UID3 and BCC (R825). -/
def uidBcc (t : Tag) : Bytes := t.uid ++ [t.uid.foldl (· ^^^ ·) 0#8]

/-- Bits of a byte string in the order sent, least significant bit of each byte first. -/
def sentBits (b : Bytes) : List Bool := b.flatMap fun x => (List.range 8).map x.getLsbD

/-- A frame other than the expected ones (R824). -/
def otherFrame (s : State) : State :=
  match s.tag.state with
  | .ready | .active => putTag s { s.tag with state := .idle }
  | _ => s

/-- The tag listens: the field is on and no append of the reader, running or next in order, holds it silent (R841, R843). -/
def tagListens (s : State) : Bool := s.tag.field && !s.tag.waiting.any (·.reader) && match s.tag.run with
  | some a => !a.reader
  | none => true

/-- REQA and WUPA (R824); `wake` for WUPA. -/
def reqa (s : State) (wake : Bool) : State :=
  if !tagListens s then s
  else match s.tag.state with
    | .idle | .ready => emit (putTag s { s.tag with state := .ready }) (.tagFrame [0x04#8, 0x00#8])
    | .halt => if wake then emit (putTag s { s.tag with state := .ready }) (.tagFrame [0x04#8, 0x00#8]) else s
    | .active => otherFrame s
    | .protocol => s

/-- Bits of UID and BCC that NVB announces (R826). -/
def nvbBits (nvb : Nat) : Nat := 8 * (nvb / 16 - 2) + nvb % 16

/-- ANTICOLLISION, and SELECT with its CRC_A (R826). -/
def anticollision (s : State) (nvb : Nat) (b : Bytes) (full : Bool) : State :=
  if !tagListens s then s
  else match s.tag.state with
    | .ready =>
      let n := nvbBits nvb
      if nvb < 0x20 ∨ 0x70 < nvb ∨ 8 ≤ nvb % 16 then otherFrame s
      else
        let own := sentBits (uidBcc s.tag)
        if (sentBits (pad 5 b)).take n ≠ own.take n then s
        else if nvb = 0x70 then
          if full then emit (putTag s { s.tag with state := .active }) (.tagFrame [0x20#8]) else s
        else emit s (.tagBits (own.drop n))
    | _ => otherFrame s

/-- HLTA with its CRC_A right (R824). -/
def hlta (s : State) : State :=
  if !tagListens s then s
  else match s.tag.state with
    | .active => putTag s { s.tag with state := .halt }
    | _ => otherFrame s

/-- RATS (R822, R824). -/
def rats (s : State) : State :=
  if !tagListens s then s
  else match s.tag.state with
    | .active => emit (putTag s { s.tag with state := .protocol }) (.tagFrame [0x05#8, 0x78#8, 0x00#8, 0x80#8, 0x00#8])
    | _ => otherFrame s

/-- S(DESELECT) (R824). -/
def deselect (s : State) : State :=
  if !tagListens s then s
  else match s.tag.state with
    | .protocol => emit (putTag s { s.tag with state := .halt }) (.tagFrame [0xC2#8])
    | _ => otherFrame s

/-! ### APDU checks (R830 to R833) -/

/-- An APDU as received. -/
structure Apdu where
  cla : Nat
  ins : Nat
  p1 : Nat
  p2 : Nat
  data : Bytes

/-- Command header as bytes. -/
def Apdu.header (a : Apdu) : Bytes := [BitVec.ofNat 8 a.cla, BitVec.ofNat 8 a.ins, BitVec.ofNat 8 a.p1, BitVec.ofNat 8 a.p2]

/-- The C-MAC is right: the last 8 bytes of the data (R833). -/
def cMacOk (key : BitVec 128) (ctr : Nat) (a : Apdu) : Bool :=
  let n := a.data.length - 8
  decide (slice a.data n 8 = tagCmac key (be 2 ctr ++ a.header ++ a.data.take n) 8)

/-- Check 5 of R832: the session of the key that the command needs is open and its C-MAC right; else 69 82, and a failed
C-MAC or a rewritten key closes the session (R847). Answers the state and whether the command goes on. -/
def sessionCheck (s : State) (a : Apdu) (need : Nat) : Bool × State :=
  match s.tag.session with
  | none => (false, answer s [] 0x6982)
  | some (k, key, ctr) =>
    if s.tag.stale then (false, answer (putTag s { s.tag with session := none, stale := false }) [] 0x6982)
    else if k ≠ need then (false, answer s [] 0x6982)
    else if cMacOk key ctr a then (true, s)
    else (false, answer (putTag s { s.tag with session := none }) [] 0x6982)

/-- An APDU meets checks 1 to 4 of R832, and R830's selection, before `body`. -/
def apdu (s : State) (a : Apdu) (select : Bool) (pOk : Bool) (len : Nat) (body : State → State) : State :=
  if !tagListens s then s
  else if s.tag.state ≠ .protocol then otherFrame s
  else if !select && !s.tag.selected then answer s [] 0x6D00
  else if a.cla ≠ (if select then 0x00 else 0x80) then answer s [] 0x6E00
  else if !pOk then answer s [] 0x6A86
  else if a.data.length ≠ len then answer s [] 0x6700
  else body s

/-- The AID (R830). -/
def tagAid : Bytes := [0xF0#8, 0x45#8, 0x5A#8, 0x54#8, 0x41#8, 0x47#8]

/-- SELECT (R830). -/
def selectAid (s : State) (a : Apdu) : State :=
  apdu s a true (decide (a.p1 = 4 ∧ a.p2 = 0)) 6 fun s =>
    if a.data = tagAid then answer (putTag s { s.tag with selected := true }) [] 0x9000 else answer s [] 0x6A82

/-- The 24 bytes of R834. -/
def evidenceBytes (s : State) : Bytes :=
  let m := s.mooring
  le 2 (evidenceCount s.otp) ++ le 2 (if m.held then m.evidTarget else 0) ++
    [BitVec.ofNat 8 (lifecycle s),
     BitVec.ofNat 8 (bitAt m.held 0 + bitAt m.pendingLock 1 + bitAt m.ripcordSeen 2 + bitAt (vinPresent s) 3 + bitAt m.cellNew 4),
     BitVec.ofNat 8 m.log.length, BitVec.ofNat 8 m.dropped] ++
    le 6 (if m.held then m.rtc else 0) ++ le 2 m.vbat ++ le 4 (journal s).length ++ zeros 4

/-- The 40 bytes of R835. -/
def identityBytes (s : State) : Bytes :=
  deviceFp ++ ascii (if Config.gradeE then "ECZ-B5120-E" else "ECZ-B5120-C") ++ [0#8, BitVec.ofNat 8 (lifecycle s)] ++ zeros 3

/-- A tag key of R836: 1 READ, 2 JOURNAL. -/
def tagKey (s : State) (k : Nat) : Option (BitVec 128) := if k = 1 then s.tag.kRead else if k = 2 then s.tag.kJournal else none

/-- AUTH_BEGIN (R832, R833). -/
def authBegin (s : State) (a : Apdu) : State :=
  apdu s a false (decide ((a.p1 = 1 ∨ a.p1 = 2) ∧ a.p2 = 0)) 0 fun s =>
    if s.tag.blocked then answer s [] 0x6983
    else
      let (rnd, s) := tagDraw s
      answer (putTag s { s.tag with session := none, stale := false, challenge := some (a.p1, rnd) }) rnd 0x9000

/-- AUTH_END (R833). -/
def authEnd (s : State) (a : Apdu) : State :=
  apdu s a false (decide (a.p1 = 0 ∧ a.p2 = 0)) 32 fun s =>
    let ch := s.tag.challenge
    let s := putTag s { s.tag with challenge := none }
    let fails (s : State) : State :=
      answer (tagEvent (putTag s { s.tag with
        blocked := true, authFails := if vinPresent s then sat 255 (s.tag.authFails + 1) else s.tag.authFails }) 19) [] 0x6982
    match ch with
    | none => fails s
    | some (k, rndT) => match tagKey s k with
      | none => fails s
      | some key =>
        let rndR := slice a.data 0 16
        let label := ascii "ECZ-TAG"
        if slice a.data 16 16 ≠ tagCmac key (label ++ [1#8] ++ rndT ++ rndR ++ s.tag.uid) 16 then fails s
        else
          let open_ := BitVec.ofNat 128 (unbe (tagCmac key ([3#8] ++ rndT ++ rndR) 16))
          answer (putTag s { s.tag with session := some (k, open_, 0), stale := false })
            (tagCmac key (label ++ [2#8] ++ rndR ++ rndT ++ s.tag.uid) 16) 0x9000

/-- CTR of the open session. -/
def sessionCtr (s : State) : Nat := match s.tag.session with
  | some x => x.2.2
  | none => 0

/-- READ_IDENTITY (R835). -/
def readIdentity (s : State) (a : Apdu) : State :=
  apdu s a false (decide (a.p1 = 0 ∧ a.p2 = 0)) 8 fun s =>
    let (ok, s) := sessionCheck s a 1
    if !ok then s else raiseCtr (answerMac s (identityBytes s) (sessionCtr s))

/-- READ_MOOR_LOG (R831). -/
def readMoorLog (s : State) (a : Apdu) : State :=
  apdu s a false (decide (a.p1 = 0 ∧ a.p2 < 16)) 8 fun s =>
    let (ok, s) := sessionCheck s a 1
    if !ok then s
    else match s.mooring.log[a.p2]? with
      | none => raiseCtr (answer s [] 0x6A82)
      | some e => raiseCtr (answerMac s e (sessionCtr s))

/-- APPEND (R831, R842) (DEDUCED, log 108). -/
def readerAppend (s : State) (a : Apdu) : State :=
  apdu s a false (decide (a.p1 = 0 ∧ a.p2 = 0)) 37 fun s =>
    let (ok, s) := sessionCheck s a 2
    if !ok then s
    else requestAppend s {
      expect := field a.data 0 4, type := field a.data 4 1, payload := slice a.data 5 24, reader := true, ctr := sessionCtr s }

/-! ### Register writes of the tag unit -/

/-- TAG_APP_CTRL (R840). -/
def deviceAppend (s : State) (v : Word32) : State :=
  let t := { s.tag with appType := v.toNat % 256 }
  let s := putTag s t
  if !v.getLsbD 31 ∨ t.appState = 1 then s
  else
    let payload := (List.range 6).flatMap fun p => le 4 (tget 0 t.appData p).toNat
    requestAppend (putTag s { t with appState := 1 })
      { expect := t.appExpect.toNat, type := t.appType, payload := payload }

/-- TAG_KEY_CTRL (R836, R847). -/
def writeTagKey (s : State) (v : Word32) : State :=
  let t := { s.tag with keyId := v.toNat % 4, keyClear := v.getLsbD 2 }
  let s := putTag s t
  if !v.getLsbD 31 ∨ (unitAt s tagPage).lock ∨ lifecycle s = 3 then s
  else
    let k := (List.range 4).flatMap fun p => le 4 (tget 0 t.keyWords p).toNat
    let key := if t.keyClear then none else some (BitVec.ofNat 128 (unbe k))
    let same := match t.session with
      | some x => decide (x.1 = t.keyId)
      | none => false
    let t := { t with keyWords := [], stale := t.stale || same }
    match t.keyId with
    | 1 => putTag s { t with kRead := key }
    | 2 => putTag s { t with kJournal := key }
    | _ => putTag s { t with keyWords := [] }

/-- TAG_JRNL_CLR (R838): a running append begins again at its first step. -/
def clearJournal (s : State) (v : Word32) : State :=
  if v.toNat % 2 ^ 16 ≠ 0xC1E7 ∨ 2 ≤ lifecycle s then s
  else putTag s { s.tag with slots := [], run := s.tag.run.map fun a => { a with step := 1 } }

/-- The ripcord in the tag (R836, R847): any open session closes. -/
def ripcordTag (s : State) : State :=
  putTag s { s.tag with
    session := none, stale := false
    run := s.tag.run.map fun a => { a with closed := a.closed || a.reader }
    waiting := s.tag.waiting.map fun a => { a with closed := a.closed || a.reader } }

/-! ### Meanings -/

/-- FIELD_ON (R825). -/
def execFieldOn (s : State) : Host.Outcome State Fault Refusal := .next (fieldOn s)

/-- FIELD_OFF (R825). -/
def execFieldOff (s : State) : Host.Outcome State Fault Refusal := .next (fieldOff s)

/-- FD_WAKE_RELEASE (R829): 10 ms after the field went off. -/
def execFdWakeRelease (s : State) : Host.Outcome State Fault Refusal :=
  .next (if s.tag.field then s else putTag s { s.tag with wake := false })

/-- REQA (R824). -/
def execReqa (s : State) : Host.Outcome State Fault Refusal := .next (reqa s false)

/-- WUPA (R824). -/
def execWupa (s : State) : Host.Outcome State Fault Refusal := .next (reqa s true)

/-- ANTICOLLISION (R826). -/
def execAnticollision (nvb : Nat) (bits : Bytes) (s : State) : Host.Outcome State Fault Refusal :=
  .next (anticollision s nvb bits false)

/-- SELECT (R826): a frame with a wrong CRC_A is ignored. -/
def execSelect (nvb : Nat) (bits : Bytes) (crcOk : Bool) (s : State) : Host.Outcome State Fault Refusal :=
  .next (if crcOk then anticollision s nvb bits true else s)

/-- HLTA (R824). -/
def execHlta (crcOk : Bool) (s : State) : Host.Outcome State Fault Refusal := .next (if crcOk then hlta s else s)

/-- RATS (R824); its parameter byte changes nothing (R822). -/
def execRats (param : Nat) (crcOk : Bool) (s : State) : Host.Outcome State Fault Refusal :=
  .next (if crcOk ∧ param < 256 then rats s else s)

/-- S_DESELECT (R824). -/
def execSDeselect (crcOk : Bool) (s : State) : Host.Outcome State Fault Refusal := .next (if crcOk then deselect s else s)

/-- SELECT_AID (R830). -/
def execSelectAid (cla p1 p2 : Nat) (data : Bytes) (s : State) : Host.Outcome State Fault Refusal :=
  .next (selectAid s ⟨cla, 0xA4, p1, p2, data⟩)

/-- GET_EVIDENCE (R834). -/
def execGetEvidence (cla p1 p2 : Nat) (data : Bytes) (s : State) : Host.Outcome State Fault Refusal :=
  .next (apdu s ⟨cla, 0x10, p1, p2, data⟩ false (decide (p1 = 0 ∧ p2 = 0)) 0 fun s => answer s (evidenceBytes s) 0x9000)

/-- READ_JOURNAL (R831). -/
def execReadJournal (cla p1 p2 : Nat) (data : Bytes) (s : State) : Host.Outcome State Fault Refusal :=
  .next (apdu s ⟨cla, 0x20, p1, p2, data⟩ false true 0 fun s =>
    match (journal s)[256 * p1 + p2]? with
    | none => answer s [] 0x6A82
    | some r => answer s r 0x9000)

/-- AUTH_BEGIN (R833). -/
def execAuthBegin (cla p1 p2 : Nat) (data : Bytes) (s : State) : Host.Outcome State Fault Refusal :=
  .next (authBegin s ⟨cla, 0x30, p1, p2, data⟩)

/-- AUTH_END (R833). -/
def execAuthEnd (cla p1 p2 : Nat) (data : Bytes) (s : State) : Host.Outcome State Fault Refusal :=
  .next (authEnd s ⟨cla, 0x32, p1, p2, data⟩)

/-- READ_IDENTITY (R835). -/
def execReadIdentity (cla p1 p2 : Nat) (data : Bytes) (s : State) : Host.Outcome State Fault Refusal :=
  .next (readIdentity s ⟨cla, 0x40, p1, p2, data⟩)

/-- READ_MOOR_LOG (R831). -/
def execReadMoorLog (cla p1 p2 : Nat) (data : Bytes) (s : State) : Host.Outcome State Fault Refusal :=
  .next (readMoorLog s ⟨cla, 0x42, p1, p2, data⟩)

/-- APPEND (R842). -/
def execAppend (cla p1 p2 : Nat) (data : Bytes) (s : State) : Host.Outcome State Fault Refusal :=
  .next (readerAppend s ⟨cla, 0x50, p1, p2, data⟩)

/-- APPEND_RESUME (R843): the field is at or above H_WRITE, or has fallen below it; a step that waits is resumed. -/
def execAppendResume (strong : Bool) (s : State) : Host.Outcome State Fault Refusal :=
  .next (if s.tag.field then
    let s := putTag s { s.tag with strong := strong }
    if strong ∧ s.tag.run.isSome then appendStep s else s
  else s)

/-- DEVICE_APPEND (R840). -/
def execDeviceAppend (acc : Acc) (value : Word32) (s : State) : Host.Outcome State Fault Refusal :=
  .next (if reaches s acc tagPage then deviceAppend s value else s)

/-- TAG_KEY_WRITE (R836). -/
def execTagKeyWrite (acc : Acc) (value : Word32) (s : State) : Host.Outcome State Fault Refusal :=
  .next (if reaches s acc tagPage then writeTagKey s value else s)

/-- TAG_JRNL_CLR (R838). -/
def execTagJrnlClr (acc : Acc) (value : Word32) (s : State) : Host.Outcome State Fault Refusal :=
  .next (if reaches s acc tagPage then clearJournal s value else s)

end Sys2Proof.Machine
end

