-- ==== Sys2Proof/Machine/Ripcord.lean ====
section
/-! DEFINITION. The ripcord on main power (R328 of 06; R364 to R369 of 07_key_hierarchy_and_ceremonies.md). -/

namespace Sys2Proof.Machine

/-- The cycles of R368 step 2: 8 µs. -/
def ripcordCycles : Nat := 200

/-- The job draws on a DRBG: it has begun step 5 with an opcode that draws, it waits for bytes, or an engine or core that
serves it does (R366; R175 of 04). -/
def drawsRandom (s : State) (n : Nat) (j : Job) : Bool :=
  (begunStep5 j && drawsOp (eOp j.entry)) || j.waitRand || s.rng.drbgs.any fun d => d.2.queue.any fun r => match r.for_ with
    | .job m => decide (m = n)
    | .sail p => decide ((sailAt s p).job = some n)
    | .core p => decide ((tget {} s.cores p).job = n ∧ n ≠ 0)
    | .keel _ => false

/-- Jobs that the ripcord ends (R366): undecided, and holding a key or drawing on a DRBG. -/
def ripcordJobs (s : State) : List Nat :=
  (s.jobs.filter fun e => undecided e.2 && ((begunStep5 e.2 && decide (blobCount e.2.entry ≠ 0)) || drawsRandom s e.1 e.2)).map (·.1)

/-- A job ends with 0x6001 ZEROISED (R366, R369). -/
def ripcordJob (s : State) (n : Nat) : State := failJob (dropHeld s n) n 0x6001

/-- Sail engines of the device. -/
def sailPages : List Nat := (List.range 34).flatMap fun c => [chanPage c + 5, chanPage c + 6, chanPage c + 7]

/-- The unit is powered and holds contents. -/
def holdsState (s : State) (p : Nat) : Bool :=
  decide (s.power.state ≠ .standby) && match (unitAt s p).state with
    | .off | .faulted | .retired => false
    | _ => true

/-- Every engine stops and wipes (R364, R443, R445). -/
def ripcordSails (s : State) : State :=
  sailPages.foldl (fun s p =>
    if !holdsState s p then s
    else if (sailAt s p).estate = .wiping then putSail s p { wiped (sailAt s p) with levelAfterWipe := (sailAt s p).levelAfterWipe }
    else abortEngine s p) s

/-- Every channel DRBG is cleared and asks for instantiation from fresh seed; the seed pool is emptied (R364, R367, R510,
R520, R527 of 12). -/
def ripcordRng (s : State) : State :=
  let pool := { s with rng := { s.rng with pool := [] } }
  (List.range 34).foldl (fun s c =>
    if !holdsState s (chanPage c) then s
    else if entropyLow s then unseed s c
    else
      let gone (r : RandReq) : Bool := match r.for_ with
        | .job n => (jobAt s n).isNone || !undecided ((jobAt s n).getD {})
        | .core p => match jobAt s (tget {} s.cores p).job with
          | some j => !undecided j
          | none => false
        | _ => true
      let x := drbgAt s c
      let s := putDrbg s c { x with
        state := .uninst, pending := false, atLimit := false, calls := 0, seed := [], buf := []
        queue := x.queue.filter fun r => !gone r }
      postSeed { s with rng := { s.rng with requests := s.rng.requests.filter fun r => match r with
        | .reseed d _ => d ≠ c
        | _ => true } } (.instantiate c)) pool

/-- A lane drops the contexts of jobs that have ended (R364, R494 of 11). -/
def ripcordLane (s : State) (l : Lane) : Lane :=
  let live (n : Nat) : Bool := ((jobAt s n).map undecided).getD false
  { l with
    unwrap := none
    port := none
    job := l.job.filter live
    help := l.help.filter fun h => live h.2
    split := l.split.filter fun x => live x.job }

/-- Secret registers of every core are cleared and RIPCORD is pending on the RUNNING ones (R364; R532 of 13; R590 of 14). -/
def ripcordCores (s : State) : State :=
  ((List.range 34).flatMap fun c => (List.range 4).map fun k => chanPage c + 1 + k).foldl (fun s p =>
    if isRunning s p && decide (s.power.state ≠ .standby) then
      let k := tget {} s.cores p
      { s with cores := tset {} s.cores p { k with sreg := [], sport := 0, ipend := k.ipend ||| 1 } }
    else s) s

/-- Staging slots: a used one becomes FAILED with CLEARED, a FAILED one stays, a split is given up (R348, R364). -/
def ripcordSlots (s : State) : State :=
  (List.range 32).foldl (fun s k =>
    let x := slotAt s k
    match x.state with
    | .collecting | .staged => failSlot s k x.inst 7
    | .empty => if splitting x then putSlot s k {} else s
    | .failed => s) s

/-- The generations of every instance are cleared (R364; R659 of 15). -/
def ripcordKeys (s : State) : State :=
  s.kh.insts.foldl (fun s e =>
    let had := decide (e.2.cur ≠ 0)
    let s := { s with kh := { s.kh with insts := tdel s.kh.insts e.1 } }
    if had then dpEvent (keyChange s) e.1 4 else s) s

/-- The ripcord at a member of a gondola (R720 of 17): its offices end, the gondola keys are destroyed. For each office a ROOT
message names the member that takes it (DEDUCED, log 77). -/
def ripcordBridle (s : State) : State :=
  match s.bridle.record with
  | none => s
  | some r =>
    let self := selfMember s
    let held := (s.bridle.roots.filter fun e => e.2 = some self).map (·.1)
    let s := { s with bridle := { s.bridle with
        roots := s.bridle.roots.filter fun e => e.2 ≠ some self, keys := [], noOffice := true } }
    held.foldl (fun s g =>
      match computedRoot.bestOf r ((devicesIn r g).filter fun n => n ≠ self && (presentSet s).contains n) with
      | some n => flood s none (formation 5 [g, n] [])
      | none => s) s

/-- Field tests end uncounted and the channels return to their state before (R688 of 16). -/
def ripcordTests (s : State) : State :=
  let ended (_ : Nat) (c : Chan) : Chan := if c.test = .running then { c with test := .idle, step := 0 } else c
  { s with faults := { s.faults with chans := tmap (fun _ => {}) ended s.faults.chans } }

/-- The debug gate closes (R615 of 14). -/
def closeGate (s : State) : State := { s with dbg := { s.dbg with state := .closed, nonce := none, inst := 0 } }

/-- Key records being made carry no generation any more (R406 of 08). -/
def ripcordLogs (s : State) : State :=
  let each (l : Log) : Log := { l with keyRecs := l.keyRecs.map fun r => { r with kbpkGen := 0, kbpk := 0 } }
  { s with audit := { s.audit with logs := tmap (fun _ => {}) (fun _ l => each l) s.audit.logs } }

/-- The ripcord on main power (R364 to R369). -/
def ripcord (s : State) : State :=
  let s := { s with
    mooring := { s.mooring with drk := 0, ripcordSeen := true }
    tamper := { s.tamper with ripcordEnd := s.cycles + ripcordCycles } }
  let s := (ripcordJobs s).foldl ripcordJob s
  let s := clearCache (ripcordSlots (ripcordKeys s))
  let s := { s with kh := { s.kh with joins := [], shareIn := 0, ripcorded := true } }
  let s := clearEvts s fun e => decide (e.action = 2 ∨ e.action = 3)
  let s := ripcordCores (ripcordRng (ripcordSails s))
  let s := { s with sig := { s.sig with tables := [], evals := [] }, lanes := tmap (fun _ => {}) (fun _ l => ripcordLane s l) s.lanes }
  let s := ripcordLogs { s with im := { s.im with tickets := [] } }
  cardNext (ripcordCards (closeGate (ripcordTests (ripcordBridle (ripcordTag s)))))

end Sys2Proof.Machine
end

