-- ==== Sys2Proof/Machine/Tamper.lean ====
section
/-! DEFINITION. Tamper sources, episodes, rungs, logs and evidence (18_tamper_and_monitors.md), but for the device reset of
rung RESET, which Machine/StartUp.lean adds. -/

namespace Sys2Proof.Machine

def tamperPage : Nat := 0x004
def mooringPage : Nat := 0x00A

/-! ### The sources of R733 -/

/-- What R733 gives a source: the top of its FILTER range (0 for an event source), the lands' fuse bit, FLOOR, default
RESPONSE and FILTER, and whether the mooring domain watches it on the cell. -/
structure SrcRow where
  top : Nat
  fuse : Option Nat
  floor : Nat
  response : Nat
  filter : Nat
  cell : Bool

/-- The rows of R733. -/
def srcRow (n : Nat) : SrcRow :=
  if n ≤ 1 then ⟨4, none, 4, 4, 2, true⟩
  else if n ≤ 21 then ⟨255, some (n - 2), 0, 0, 4, true⟩
  else if n ≤ 23 then ⟨255, none, 0, 1, 8, true⟩
  else if n = 24 then ⟨255, none, 0, 2, 16, false⟩
  else if n = 25 then ⟨255, none, 0, 1, 16, true⟩
  else if n ≤ 37 then ⟨255, none, 0, 3, 1, false⟩
  else if n = 38 then ⟨0, none, 3, 4, 0, true⟩
  else if n = 39 then ⟨0, none, 0, 1, 0, false⟩
  else if n = 40 then ⟨0, none, 0, 0, 0, false⟩
  else ⟨0, none, 0, 3, 0, false⟩

/-- FSM_ALARM, DEBUG_LOCK, PRIVILEGE_FORGE and FLASH_INTEGRITY. -/
def fsmAlarm : Nat := 38
def debugLock : Nat := 39
def privilegeForge : Nat := 40
def flashIntegrity : Nat := 41

def srcDflt (n : Nat) : TmpSrc := { response := (srcRow n).response, filter := (srcRow n).filter }
def srcAt (s : State) (n : Nat) : TmpSrc := tget (srcDflt n) s.tamper.srcs n
def putSrc (s : State) (n : Nat) (x : TmpSrc) : State :=
  { s with tamper := { s.tamper with srcs := tset (srcDflt n) s.tamper.srcs n x } }

/-- The source's bit is burned in the OTP disable mask (R736). -/
def srcDisabled (s : State) (n : Nat) : Bool := match (srcRow n).fuse with
  | some b => s.otp.fuse.getLsbD b
  | none => false

/-! ### Logs (R744, R756, R757) -/

/-- Byte 9 or byte 7 of an entry is built by its writer; this appends a main-log entry, the oldest overwritten when full. -/
def mainLog (s : State) (src flags : Nat) : State :=
  let e := le 8 (position s) ++ [BitVec.ofNat 8 src, BitVec.ofNat 8 flags] ++ le 2 s.mooring.epNumber ++ le 4 s.mooring.rtc
  let t := s.tamper
  { s with tamper := { t with log := (if 256 ≤ t.log.length then t.log.drop 1 else t.log) ++ [e], logCount := t.logCount + 1 } }

/-- A mooring-log entry; when full, entry 15 is overwritten and DROPPED rises. -/
def mooringLog (s : State) (src flags pos filter : Nat) : State :=
  let m := s.mooring
  let e := le 6 m.rtc ++ [BitVec.ofNat 8 src, BitVec.ofNat 8 flags] ++ le 8 pos ++ le 2 m.epNumber ++
    [BitVec.ofNat 8 filter] ++ zeros 13
  let full := decide (16 ≤ m.log.length)
  { s with mooring := { m with
      log := (if full then m.log.take 15 else m.log) ++ [e], dropped := if full then sat 255 (m.dropped + 1) else m.dropped } }

/-! ### Episodes and evidence (R741, R745, R746) -/

/-- EVID_TARGET rises by 1, up to 1,024 (R746). -/
def raiseEvidence (m : Mooring) : Mooring := { m with evidTarget := min 1024 (m.evidTarget + 1) }

/-- EVIDENCE of R759 when EVID_TARGET has risen. -/
def evidenceEvent (old : Nat) (s : State) : State := if s.mooring.evidTarget = old then s else setEvent s tamperPage 18

/-- What a firing of RESPONSE `r` does to the episode (R741, R745, R758): the mooring domain after it, whether it raised the
governing rung, whether it counts as evidence, and the rung whose actions were taken before (none when it opened)
(DEDUCED, log 109). -/
def episodeFire (m : Mooring) (r : Nat) : Mooring × Bool × Bool × Option Nat :=
  if !m.epOpen then
    let ev := decide (2 ≤ r)
    let m := { m with epOpen := true, epNumber := (m.epNumber + 1) % 2 ^ 16, epRung := r, epEvid := ev }
    (if ev then raiseEvidence m else m, true, ev, none)
  else if m.epRung < r then
    let ev := decide (2 ≤ r) && !m.epEvid
    let m' := { m with epRung := r, epEvid := m.epEvid || ev }
    (if ev then raiseEvidence m' else m', true, ev, some m.epRung)
  else (m, false, false, some m.epRung)

/-! ### Rung actions (R737) -/

/-- ZEROISED: every lifecycle bit burned, the identity store overwritten, the gate closed (R29 of 01, R615 of 14, R737, R878
of 22). -/
def zeroiseLock (s : State) : State :=
  let old := lifecycle s
  let s := otpBurned { s with otp := { s.otp with lifecycle := s.otp.lifecycle ||| 7, overwritten := s.otp.overwritten ||| 1 } }
  lifecycleChanged old (closeGate s)

/-- The actions above rung `old` up to rung `r` on main power, but for the reset (R737, R741, R742, R744). -/
def rungActions (s : State) (old : Option Nat) (r : Nat) : State :=
  let newly (k : Nat) : Bool := decide (k ≤ r) && match old with
    | some o => decide (o < k)
    | none => true
  let s := if newly 4 && decide (s.tamper.ripcordEnd ≤ s.cycles) then ripcord s else s
  let s := if newly 2 then writeQuiesce1 s 0 else s
  if newly 5 then zeroiseLock s else s

/-- A firing of source `src` on main power with RESPONSE `r` (R734, R737, R741, R745, R756, R757, R759). Answers the state and
whether a device reset is due (rung RESET newly reached). -/
def fireWith (s : State) (src r : Nat) : State × Bool :=
  let oldTarget := s.mooring.evidTarget
  let (m, raised, ev, old) := episodeFire s.mooring r
  let s := { s with mooring := m, tamper := { s.tamper with fired := s.tamper.fired ||| BitVec.ofNat 42 (2 ^ src) } }
  let s := mainLog s src (r + bitAt raised 4 + bitAt ev 5)
  let s := if 3 ≤ r then mooringLog s src (r + bitAt true 5 + bitAt ev 7) (position s) (srcAt s src).filter else s
  let s := evidenceEvent oldTarget s
  let s := if 1 ≤ r then setEvent (wakeIdle s) tamperPage 16 else s
  let s := if raised then rungActions s old r else s
  (s, raised && decide (r = 3))

/-- A source fires on main power (R734, R736, R740, R749): disabled sources never do; a source under test does not, but for an
envelope. -/
def fireCore (s : State) (src : Nat) : State × Bool :=
  let x := srcAt s src
  let s := putSrc s src { x with count := 0, asserted := decide ((srcRow src).top ≠ 0) }
  if 42 ≤ src ∨ srcDisabled s src ∨ (s.tamper.testBusy ∧ s.tamper.testSrc = src ∧ 2 ≤ src) then (s, false)
  else fireWith s src x.response

/-- Every firing of the episode has been acknowledged and no filter counts: the episode closes (R742). -/
def closeEpisode (s : State) : State :=
  let live := s.tamper.srcs.any fun e => decide (0 < e.2.count)
  if s.mooring.epOpen ∧ s.tamper.fired = 0 ∧ !live ∧ vinPresent s then
    setEvent { s with mooring := { s.mooring with epOpen := false } } tamperPage 17
  else s

/-! ### Guarded state machines (R750) -/

/-- The machine whose invalid code fired FSM_ALARM is forced to its safe state: 1 debug gate, 2 staging slot, 3 channel DRBG,
4 Sail engine, 5 Carit core, 6 event table entry; 0 is the first row of R750, whose response is the ripcord. -/
def safeState (s : State) (machine unit : Nat) : State :=
  match machine with
  | 1 => closeGate s
  | 2 => if unit < 32 then failSlot s unit (slotAt s unit).inst 7 else s
  | 3 => if unit < 34 then unseed s unit else s
  | 4 => if kindOf unit = 0x05 ∨ kindOf unit = 0x06 then abortEngine s unit else s
  | 5 => if kindOf unit = 0x04 ∧ isRunning s unit then lockup s unit else s
  | 6 => if unit < 256 then setEvent (putEvt s unit { evtAt s unit with state := .failed }) 0x006 19 else s
  | _ => s

/-- FSM_ALARM (R750): the safe state, then the firing; a machine of the first row pulls the ripcord whatever the programmed
rung. -/
def fireFsm (s : State) (machine unit : Nat) : State × Bool :=
  let s := safeState s machine unit
  if machine ≠ 0 then fireCore s fsmAlarm
  else
    let governed := s.mooring.epOpen && decide (4 ≤ s.mooring.epRung)
    let (s, r) := fireWith s fsmAlarm 4
    (if governed && decide (s.tamper.ripcordEnd ≤ s.cycles) then ripcord s else s, r)

/-! ### Samples (R734, R740, R752) -/

/-- The source is watched now (R733, R736). -/
def srcWatched (s : State) (src : Nat) : Bool :=
  decide (src < 42 ∧ (srcRow src).top ≠ 0) && !srcDisabled s src && (vinPresent s || (s.mooring.held && (srcRow src).cell))

/-! ### On the cell (R737, R743, R747, R753) -/

/-- A firing on the cell. -/
def fireCell (s : State) (src : Nat) : State :=
  if vinPresent s ∨ !s.mooring.held ∨ 42 ≤ src ∨ !(srcRow src).cell ∨ srcDisabled s src then s
  else
    let x := srcAt s src
    let s := putSrc s src { x with count := 0, asserted := decide ((srcRow src).top ≠ 0) }
    let (m, raised, ev, old) := episodeFire s.mooring x.response
    let s := mooringLog { s with mooring := { m with cellNew := true } } src (x.response + bitAt true 3 + bitAt ev 7) 0 x.filter
    let newly (k : Nat) : Bool := raised && decide (k ≤ x.response) && match old with
      | some o => decide (o < k)
      | none => true
    let m := s.mooring
    let m := if newly 4 then { m with drk := 0, ripcordSeen := true } else m
    { s with mooring := if newly 5 then { m with pendingLock := true } else m }

/-! ### Registers -/

/-- TMP_FIRED (R742): bits of sources that are not asserted clear. -/
def writeFired (s : State) (hi : Bool) (mask : Word32) : State :=
  let bitsOf := (List.range 42).filter fun n =>
    (if hi then decide (32 ≤ n) && mask.getLsbD (n - 32) else decide (n < 32) && mask.getLsbD n) && !(srcAt s n).asserted
  let f := bitsOf.foldl (fun f n => f &&& ~~~ BitVec.ofNat 42 (2 ^ n)) s.tamper.fired
  closeEpisode { s with tamper := { s.tamper with fired := f } }

/-- The next thermometer bit is burned (R746). -/
def burnEvidence (s : State) : State :=
  let n := evidenceCount s.otp
  if !vinPresent s ∨ s.mooring.evidTarget ≤ n then s
  else otpBurned { s with otp := { s.otp with evidence := s.otp.evidence ||| BitVec.ofNat 1024 (2 ^ n) } }

/-- TMP_TEST (R748). A write while a test runs leaves SOURCE as it is (DEDUCED, log 110). -/
def writeTest (s : State) (v : Word32) : State :=
  let src := v.toNat % 64
  let t := s.tamper
  let go := v.getLsbD 6
  if t.testBusy then if go then { s with tamper := { t with testResult := 3 } } else s
  else if !go then { s with tamper := { t with testSrc := src } }
  else if 42 ≤ src ∨ srcDisabled s src then { s with tamper := { t with testSrc := src, testResult := 3 } }
  else { s with tamper := { t with testSrc := src, testBusy := true, testResult := 0 } }

/-- A test ends (R748, R749): a pass is logged with TEST, and nothing more. -/
def testDone (s : State) (pass : Bool) : State :=
  let t := s.tamper
  if !t.testBusy then s
  else
    let x := srcAt s t.testSrc
    let s := if pass then
        let s := mainLog s t.testSrc (x.response + bitAt true 3)
        if 3 ≤ x.response then mooringLog s t.testSrc (x.response + bitAt true 4 + bitAt true 5) (position s) x.filter else s
      else s
    let s := if 2 ≤ t.testSrc then putSrc s t.testSrc { srcAt s t.testSrc with count := 0 } else s
    setEvent { s with tamper := { s.tamper with testBusy := false, testResult := if pass then 1 else 2 } } tamperPage 19

/-- TMP_FUSE_BURN (R736). -/
def burnFuse (s : State) (v : Word32) : State :=
  let mask := BitVec.ofNat 20 v.toNat
  if v.toNat / 2 ^ 24 ≠ 0xF5 ∨ 2 ≤ lifecycle s ∨ (unitAt s tamperPage).lock ∨ s.otp.fuse ||| mask = s.otp.fuse then s
  else
    let s := otpBurned { s with otp := { s.otp with fuse := s.otp.fuse ||| mask } }
    (List.range 42).foldl (fun s n =>
      if srcDisabled s n then putSrc s n { srcAt s n with count := 0, asserted := false } else s) s

/-- A RESPONSE or FILTER that takes effect also reaches the mooring shadow (R739). -/
def putSrcCfg (s : State) (n : Nat) (x : TmpSrc) : State :=
  let sh : TmpSrc := { response := x.response, filter := x.filter }
  putSrc { s with mooring := { s.mooring with shadow := tset (srcDflt n) s.mooring.shadow n sh } } n x

/-- TMP_SRC_CFG (R108 of 02, R736, R738, R739, R740). -/
def writeSrcCfg (s : State) (n : Nat) (v : Word32) : State :=
  if 42 ≤ n ∨ srcDisabled s n then s
  else
    let x := srcAt s n
    let row := srcRow n
    let r := bits v.toNat 0 3
    let f := bits v.toNat 8 8
    let lock := (unitAt s tamperPage).lock
    let newR := decide (r < 6 ∧ r ≠ x.response)
    let badR := lock || (decide (lifecycle s = 2) && decide (r < row.floor))
    let newF := decide (1 ≤ f ∧ f ≤ row.top ∧ f ≠ x.filter)
    let y := { x with response := if newR && !badR then r else x.response, filter := if newF && !lock then f else x.filter }
    let s := putSrcCfg s n y
    if (newR && badR) || (newF && lock) then refuseWrite s tamperPage else s

/-- Every RESPONSE below its FLOOR is raised to it (R738). -/
def raiseFloors (s : State) : State :=
  (List.range 42).foldl (fun s n =>
    let x := srcAt s n
    if x.response < (srcRow n).floor then putSrcCfg s n { x with response := (srcRow n).floor } else s) s

/-- MOOR_CTRL.CLEAR (R757). -/
def clearMooringLog (s : State) (v : Word32) : State :=
  if v.toNat % 2 ^ 16 ≠ 0xC1EA ∨ (unitAt s mooringPage).lock ∨ s.mooring.epOpen then s
  else { s with mooring := { s.mooring with log := [], dropped := 0, cellNew := false } }

/-! ### Start-up (R739, R743, R745 to R747, R760) -/

/-- Step 1 of start-up in the mooring domain: the stored anchor becomes anchor A (R331 of 06), the pending lock, then the
evidence burn (R746, R747). -/
def bootMooring (s : State) : State :=
  let s := if s.mooring.held then s
    else { s with mooring := { held := true, evidTarget := evidenceCount s.otp, vbat := s.mooring.vbat } }
  let s := { s with mooring := { s.mooring with
    anchorA := s.mooring.stored, anchorB := none, corr := 0, corrCount := 0, logSel := [], rtcSnap := [] } }
  let s := if s.mooring.pendingLock then zeroiseLock { s with mooring := { s.mooring with pendingLock := false } } else s
  let n := s.mooring.evidTarget - evidenceCount s.otp
  let s := (List.range n).foldl (fun s _ => burnEvidence s) s
  { s with tamper := { s.tamper with applied := n % 256 } }

/-- TMP_SRC_CFG from the shadow, or the defaults where it was lost, raised in COMMISSIONED (R738, R739). -/
def loadSrcCfg (s : State) : State :=
  let srcs := tmap srcDflt (fun n (x : TmpSrc) => { x with
    count := (tget (srcDflt n) s.tamper.srcs n).count, asserted := (tget (srcDflt n) s.tamper.srcs n).asserted }) s.mooring.shadow
  let counts := s.tamper.srcs.foldl (fun t e => match tfind t e.1 with
    | some _ => t
    | none => tset (srcDflt e.1) t e.1 { srcDflt e.1 with count := e.2.count, asserted := e.2.asserted }) srcs
  let s := { s with tamper := { s.tamper with srcs := counts } }
  if lifecycle s = 2 then raiseFloors s else s

/-- An episode open when VIN returns continues on main power (R743): TMP_FIRED of every source that the mooring log shows in
it, and QUIESCE of the device root when its rung asks for it. -/
def continueEpisode (s : State) : State :=
  let m := s.mooring
  if !m.epOpen then s
  else
    let hits := m.log.filter fun e => decide (field e 16 2 = m.epNumber) && !bit (field e 7 1) 4
    let f := hits.foldl (fun f e => f ||| BitVec.ofNat 42 (2 ^ field e 6 1)) (0 : BitVec 42)
    let s := { s with tamper := { s.tamper with fired := f } }
    if 2 ≤ m.epRung then modUnit s 0 fun u => { u with quiesce := true } else s

/-- CELL_EVENTS (R760). -/
def cellEvents (s : State) : State :=
  if s.mooring.cellNew then setEvent { s with mooring := { s.mooring with cellNew := false } } mooringPage 16 else s

end Sys2Proof.Machine
end

