-- ==== Sys2Proof/Machine/FlashCore.lean ====
section
/-! DEFINITION. The flash array and its two banks: map, contents, command sequences, checks, suspend and resume, brown-out and
the store's compaction (19_flash.md). -/

namespace Sys2Proof.Machine

def flashPage : Nat := 0x007

/-! ### The map (R761) -/

/-- Bank of an array address, none for the calibration row and outside the map. -/
def bankOf (a : Nat) : Option Nat := if a < 0x1000000 then some 0 else if a < 0x2000000 then some 1 else none

/-- The address lies in the calibration row. -/
def isCalRow (a : Nat) : Bool := decide (0x2000000 ≤ a ∧ a < 0x2000800)

/-- Sector index within the bank. -/
def sectorOf (a : Nat) : Nat :=
  if a < 0x20000 then a / 0x4000 else if a < 0x1000000 then 8 + (a - 0x20000) / 0x20000 else (a - 0x1000000) / 0x20000

/-- Base address of sector `k` of bank `b`. -/
def sectorBase (b k : Nat) : Nat :=
  if b = 1 then 0x1000000 + 0x20000 * k else if k < 8 then 0x4000 * k else 0x20000 + 0x20000 * (k - 8)

/-- Size of sector `k` of bank `b`. -/
def sectorSize (b k : Nat) : Nat := if b = 0 ∧ k < 8 then 0x4000 else 0x20000

def bankAt (s : State) (b : Nat) : Bank := tget {} s.flash.banks b
def putBank (s : State) (b : Nat) (x : Bank) : State := { s with flash := { s.flash with banks := tset {} s.flash.banks b x } }

/-! ### Contents (R762, R765) -/

/-- The tear that covers a granule (R775, R782). -/
def tornAt (s : State) (g : Nat) : Option Nat :=
  (s.flash.torn.find? fun t => decide (t.1 ≤ g ∧ g < t.1 + t.2.1)).map fun t => t.2.2

/-- Version of an area whose layout the spec does not give. -/
def areaVersion (s : State) (a : Nat) : Nat :=
  if 0x2000000 ≤ a then 0
  else if 0x1000000 ≤ a then (if a < 0x1800000 then s.power.h0.count else s.power.h1.count)
  else if sectorOf a = 5 then s.lc.deviceCert.length + 2 ^ 16 * s.lc.ownerCert.length
  else s.flash.nextSeq

/-- The 16 bytes of a granule that the keel's areas hold in the form the spec gives, none where it is erased or the form is
not given. -/
def areaBytes (s : State) (a : Nat) : Option Bytes :=
  let k := sectorOf a
  if a < 0x4000 then s.faults.map[a / 16]?
  else if k = 1 ∧ !s.flash.devActive then s.flash.devRec[(a - 0x4000) / 16]?
  else if k = 4 ∧ s.flash.devActive then s.flash.devRec[(a - 0x10000) / 16]?
  else if 0x20000 ≤ a ∧ a < 0x820000 then
    match s.power.staged with
    | some b => if a - 0x20000 < b.length then some (slice b (a - 0x20000) 16) else none
    | none => none
  else none

/-- The area's layout is left open by the spec: anchor, identity area, store, image halves and calibration row. -/
def areaOpen (s : State) (a : Nat) : Bool :=
  let k := sectorOf a
  if 0x1000000 ≤ a then true
  else if s.flash.blank.contains k then false
  else if k = 2 ∨ k = 3 then s.flash.epoch.isSome
  else if k = 5 then !(s.lc.deviceCert.isEmpty && s.lc.ownerCert.isEmpty)
  else decide (72 ≤ k)

/-- The granule of an array address is erased (R765). -/
def granuleErased (s : State) (a : Nat) : Bool :=
  let g := a / 16
  match tornAt s g with
  | some n => decide ((Config.freeByte n g).toNat % 2 = 0)
  | none =>
    match tfind s.flash.data g with
    | some _ => false
    | none => (areaBytes s a).isNone && !(areaOpen s a && Config.flashUsed (areaVersion s a) g)

/-- The 32-bit word at an array address (R765). -/
def arrayWord (s : State) (a : Nat) : Word32 :=
  let g := a / 16
  let w (v : BitVec 128) : Word32 := w32 (v.toNat >>> (8 * (a % 16)))
  if granuleErased s a then 0xFFFFFFFF
  else match tornAt s g with
    | some n => w32 (unle ((List.range 4).map fun i => Config.freeByte n (2 ^ 22 * (1 + i) + a)))
    | none => match tfind s.flash.data g with
      | some v => w v
      | none => match areaBytes s a with
        | some b => w32 (field b (a % 16) 4)
        | none => w (Config.flashGranule (areaVersion s a) g)

/-! ### The status word (R772) -/

/-- The status word of bank `b`. -/
def bankStatus (s : State) (b : Nat) : Word32 :=
  let x := bankAt s b
  let sec : Nat := match x.suspended, x.run with
    | some k, _ => k
    | none, some r => if r.op = 3 then r.sector else 0
    | none, none => 0
  w32 (bitAt x.run.isSome 0 + bitAt x.suspended.isSome 1 + 4 * x.op + 16 * x.result + bitAt x.statusMode 8 + 2 ^ 16 * sec)

/-! ### Command sequences (R771, R773, R774) -/

/-- A command that fails a check: RESULT, no pulse, read-array mode (R773). -/
def flashFail (s : State) (b r : Nat) : State :=
  putBank s b { bankAt s b with cycles := [], result := r, statusMode := false }

/-- An operation starts. -/
def flashStart (s : State) (b : Nat) (r : FlashRun) : State :=
  let x := bankAt s b
  putBank s b { x with
    cycles := [], run := some r, op := r.op, resumedAt := if r.op = 3 then none else x.resumedAt, suspendAsked := false }

/-- A program or erase addressed here is PROTECTED (R763). -/
def flashProtected (s : State) (a : Nat) (erase : Bool) : Bool :=
  isCalRow a || decide (bankOf a = some 0) &&
    (if erase then decide ((sectorOf a = 0 ∨ sectorOf a = 5) ∧ lifecycle s ≠ 0) else decide (sectorOf a = 5))

/-- The data words of a program, in granules. -/
def granulesOf (a : Nat) (ws : List Word32) : List (Nat × BitVec 128) :=
  (List.range (ws.length / 4)).map fun i =>
    (a / 16 + i, BitVec.ofNat 128 ((List.range 4).foldl (fun v j => v + 2 ^ (32 * j) * (ws.getD (4 * i + j) 0).toNat) 0))

/-- A program that is complete is checked and started (R773). -/
def programGo (s : State) (b op a : Nat) (ws : List Word32) : State :=
  let n := ws.length / 4
  if s.flash.brownout then flashFail s b 8
  else if flashProtected s a false then flashFail s b 2
  else if a % 16 ≠ 0 ∨ (op = 2 ∧ 256 < a % 256 + 16 * n) then flashFail s b 4
  else if (bankAt s b).suspended = some (sectorOf a) then flashFail s b 5
  else if (List.range n).any fun i => !granuleErased s (a + 16 * i) then flashFail s b 6
  else flashStart s b { op := op, granules := granulesOf a ws }

/-- A sector erase that is complete is checked and started (R773). -/
def eraseGo (s : State) (b a : Nat) : State :=
  if s.flash.brownout then flashFail s b 8
  else if flashProtected s a true then flashFail s b 2
  else if a ≠ sectorBase b (sectorOf a) then flashFail s b 4
  else flashStart s b { op := 3, sector := sectorOf a }

/-- The words of a program in progress, by the cycles written after its code: `n` words from address `a`. -/
def programCycle (s : State) (b op n a addr : Nat) (ws : List Word32) (d : Word32) : State :=
  let ws' := ws ++ [d]
  if addr ≠ a + 4 * ws.length then flashFail s b 3
  else if ws'.length = n then programGo s b op a ws'
  else putBank s b { bankAt s b with cycles := (bankAt s b).cycles ++ [(addr, d)] }

/-- A write cycle to a bank that is not BUSY (R771, R773) (DEDUCED, log 113). -/
def idleCycle (s : State) (b addr : Nat) (d : Word32) : State :=
  let x := bankAt s b
  let off := addr - 0x1000000 * b
  let next : State := putBank s b { x with cycles := x.cycles ++ [(addr, d)] }
  match x.cycles with
  | [] =>
    if d = 0xC5 ∧ off = 0x5C4 then next
    else if d = 0x6B then s
    else if d = 0x6C then
      match x.suspended with
      | none => s
      | some k =>
        if s.flash.brownout then flashFail s b 8
        else putBank s b { x with
          suspended := none, run := some { op := 3, sector := k }, op := 3, resumedAt := some s.cycles, suspendAsked := false }
    else if d = 0xF0 then putBank s b { x with statusMode := false }
    else flashFail s b 3
  | [_] => if d = 0x5C ∧ off = 0xC48 then next else flashFail s b 3
  | [_, _] =>
    if off ≠ 0x5C4 then flashFail s b 3
    else if d = 0x90 then putBank s b { x with cycles := [], statusMode := true }
    else if d = 0x40 ∨ d = 0x41 ∨ d = 0x62 then
      if d = 0x62 ∧ x.suspended.isSome then flashFail s b 3
      else if s.flash.fetch = b then flashFail s b 1
      else next
    else flashFail s b 3
  | _ :: _ :: (_, c) :: rest =>
    if c = 0x62 then if d = 0x26 then eraseGo s b addr else flashFail s b 3
    else if c = 0x40 then programCycle s b 1 4 (match rest with
      | (a, _) :: _ => a
      | [] => addr) addr (rest.map (·.2)) d
    else match rest with
      | [] => if d.toNat < 16 then next else flashFail s b 3
      | (a, n) :: words => programCycle s b 2 (4 * (n.toNat + 1)) a addr (words.map (·.2)) d

/-- A write cycle (R771, R774): cycles to the calibration row belong to the bank whose sequence is in progress; other addresses
outside the array are dropped. -/
def writeCycle (s : State) (addr : Nat) (d : Word32) : State :=
  let target : Option Nat := match bankOf addr with
    | some b => some b
    | none =>
      if !isCalRow addr then none
      else if !(bankAt s 0).cycles.isEmpty then some 0
      else if !(bankAt s 1).cycles.isEmpty then some 1
      else none
  match target with
  | none => s
  | some b =>
    let x := bankAt s b
    match x.run with
    | none => idleCycle s b addr d
    | some r =>
      if d = 0x6B ∧ r.op = 3 then putBank s b { x with suspendAsked := true }
      else if d = 0xF0 then putBank s b { x with statusMode := false }
      else s

/-- Base of the bank that a command addressed here is written to. -/
def unlockBase (a : Nat) : Nat := if bankOf a = some 1 then 0x1000000 else 0

/-- The unlock cycles and the code of a command (R771) (DEDUCED, log 112). -/
def unlockAnd (s : State) (base : Nat) (code : Word32) : State :=
  writeCycle (writeCycle (writeCycle s (base + 0x5C4) 0xC5) (base + 0xC48) 0x5C) (base + 0x5C4) code

/-- Data words written in ascending address. -/
def writeWords (s : State) (a : Nat) (ws : List Word32) : State :=
  ((List.range ws.length).zip ws).foldl (fun s e => writeCycle s (a + 4 * e.1) e.2) s

/-! ### The end of an operation (R775, R776) -/

/-- A sector's programmed contents leave it (R762): the keel's own structures with it (DEDUCED, log 114). -/
def eraseSector (s : State) (b k : Nat) : State :=
  let lo := sectorBase b k / 16
  let hi := lo + sectorSize b k / 16
  let f := s.flash
  let f := { f with
    data := f.data.filter fun e => decide (e.1 < lo ∨ hi ≤ e.1)
    torn := f.torn.filter fun t => decide (t.1 < lo ∨ hi ≤ t.1)
    blank := if b = 0 ∧ ((2 ≤ k ∧ k ≤ 5) ∨ 72 ≤ k) then k :: f.blank.filter (· ≠ k) else f.blank }
  let s := { s with flash := f }
  if b ≠ 0 then s
  else if k = 0 then { s with faults := { s.faults with map := [] } }
  else if (k = 1 ∧ !f.devActive) ∨ (k = 4 ∧ f.devActive) then
    { s with flash := { f with devRec := [], devSeq := 0 }, kh := { s.kh with check := none }, mc := { s.mc with versions := [] } }
  else if k = 2 then { s with flash := { f with epoch := none, store := [] } }
  else if k = 5 then { s with lc := { s.lc with deviceCert := [], ownerCert := [] } }
  else if 72 ≤ k then { s with flash := { f with store := f.store.filter fun e => e.2.sector ≠ k - 72 } }
  else if 8 ≤ k then
    match s.power.staged with
    | some im => if 0x20000 * (k - 8) < im.length then { s with power := { s.power with staged := none } } else s
    | none => s
  else s

/-- A region left in an undefined state (R775, R782): `n` granules from `g`. -/
def tearGranules (s : State) (g n : Nat) : State :=
  if n = 0 then s
  else { s with fresh := s.fresh + 1, flash := { s.flash with
    data := s.flash.data.filter fun e => decide (e.1 < g ∨ g + n ≤ e.1), torn := (g, n, s.fresh) :: s.flash.torn } }

/-- The granules that verified are programmed (R765, R775). -/
def programGranules (s : State) (gs : List (Nat × BitVec 128)) : State :=
  gs.foldl (fun s e => { s with flash := { s.flash with
    data := tput s.flash.data e.1 e.2, torn := s.flash.torn.filter fun t => t.1 ≠ e.1 ∨ t.2.1 ≠ 1 } }) s

/-- What an operation that did not complete leaves undefined (R775, R782), from granule `k` of a program. -/
def tearRun (s : State) (b : Nat) (r : FlashRun) (k : Nat) : State :=
  if r.op = 3 then tearGranules (eraseSector s b r.sector) (sectorBase b r.sector / 16) (sectorSize b r.sector / 16)
  else match r.granules.drop k with
    | [] => s
    | (g, _) :: rest => tearGranules s g (rest.length + 1)

/-- BUSY clears, RESULT is set, DONE and ERROR (R776). -/
def endRun (s : State) (b r : Nat) : State :=
  let x := bankAt s b
  let erase := decide ((x.run.map (·.op)) = some 3)
  let s := putBank s b { x with
    run := none, result := r, suspendAsked := false, resumedAt := if erase then none else x.resumedAt }
  let s := setEvent s flashPage 16
  if r = 0 then s else setEvent s flashPage 17

/-- VERIFY in a store sector: the second retires it from the store (R775, R792). -/
def noteVerify (s : State) (b k : Nat) : State :=
  if b ≠ 0 ∨ k < 72 then s
  else
    let n := tget 0 s.flash.verifies (k - 72) + 1
    let f := { s.flash with verifies := tset 0 s.flash.verifies (k - 72) n }
    let f := if 2 ≤ n ∧ !f.retired.contains (k - 72) then { f with retired := f.retired ++ [k - 72] } else f
    storeLow s.flash { s with flash := f }

/-- A program or erase ends (R775, R776): `good` granules of a program verified; an erase verified when it is not 0. -/
def operationEnd (s : State) (b good : Nat) : State :=
  match (bankAt s b).run with
  | none => s
  | some r =>
    if r.op = 3 then
      if 1 ≤ good then endRun (eraseSector s b r.sector) b 0
      else noteVerify (endRun (tearRun s b r 0) b 7) b r.sector
    else if r.granules.length ≤ good then endRun (programGranules s r.granules) b 0
    else
      let g : Nat := match r.granules with
        | e :: _ => e.1
        | [] => 0
      noteVerify (endRun (tearRun (programGranules s (r.granules.take good)) b r good) b 7) b (sectorOf (16 * g))

/-- A suspend that was asked for takes effect, no earlier than 200 µs after the erase's last resume (R777, R779). -/
def suspendNow (s : State) (b : Nat) : State :=
  let x := bankAt s b
  match x.run with
  | none => s
  | some r =>
    let early : Bool := match x.resumedAt with
      | some t => decide (s.cycles < t + usCycles 200)
      | none => false
    if r.op ≠ 3 ∨ !x.suspendAsked ∨ early then s
    else putBank s b { x with run := none, suspended := some r.sector, suspendAsked := false }

/-! ### Brown-out (R782) -/

/-- The running operation of a bank ends with BROWNOUT. -/
def brownoutBank (s : State) (b : Nat) : State :=
  match (bankAt s b).run with
  | none => s
  | some r => endRun (tearRun s b r 0) b 8

/-- The detector asserts. -/
def brownoutAssert (s : State) : State :=
  if s.flash.brownout then s
  else
    let s := { s with flash := { s.flash with brownout := true, brownouts := sat 255 (s.flash.brownouts + 1) } }
    setEvent (brownoutBank (brownoutBank s 0) 1) flashPage 18

/-! ### The window (R766 to R770, R778) -/

/-- ADDR and INC of an accessor. -/
def winAddr (s : State) (i : Nat) : Nat := (tget 0 s.flash.winAddr i).toNat

/-- After a completed access ADDR advances by 4 when INC is 1 (R768). -/
def winAdvance (s : State) (i : Nat) : State :=
  let v := winAddr s i
  if bit v 31 then
    { s with flash := { s.flash with winAddr := tset 0 s.flash.winAddr i (w32 (2 ^ 31 + (v + 4) % 2 ^ 26)) } }
  else s

/-- A read of FL_WIN_DATA (R766, R767, R770, R778). `ecc` is what the granule's code shows: 1 one bit in error, 2 uncorrectable.
The flag says that FLASH_INTEGRITY fires. -/
def winRead (s : State) (acc : Acc) (ecc : Nat) : State × Bool :=
  let i := accIdx acc
  let a := winAddr s i % 2 ^ 26
  let b : Nat := (bankOf a).getD 2
  let x := bankAt s b
  let inMap := (bankOf a).isSome || isCalRow a
  if !inMap then (emit s (.readError acc), false)
  else if b < 2 ∧ x.suspended = some (sectorOf a) then (emit s (.readError acc), false)
  else if b < 2 ∧ (x.run.isSome ∨ x.statusMode) then (winAdvance (emit s (.readValue acc (bankStatus s b))) i, false)
  else if ecc = 2 ∧ !granuleErased s a then
    let f := s.flash
    let s := { s with flash := { f with uncorrected := sat 0xFFFF (f.uncorrected + 1) } }
    (emit (setEvent s flashPage 19) (.readError acc), decide (a < 0x20000))
  else
    let s' := if ecc = 1 ∧ !granuleErased s a then
      { s with flash := { s.flash with corrected := sat 0xFFFF (s.flash.corrected + 1) } } else s
    (winAdvance (emit s' (.readValue acc (arrayWord s a))) i, false)

/-! ### Compaction (R792) -/

/-- With fewer than 3 free store sectors: the tail's items in force are copied to the head, the tail is erased and the tail
moves on. -/
def compactStore (s : State) : State :=
  let f := s.flash
  if f.epoch.isNone ∨ 3 ≤ freeSectors f ∨ f.tail = f.head then s
  else
    let t := f.tail
    let live := f.store.filter fun e => decide (e.2.sector = t)
    let f := live.foldl (fun (f : Flash) e =>
      let f := storeRoom f (recordBytes (payloadLen e.2.payload f.nextSeq))
      { f with nextSeq := f.nextSeq + 1, store := tput f.store e.1 { e.2 with seq := f.nextSeq, sector := f.head } }) f
    let s := eraseSector { s with flash := f } 0 (72 + t)
    { s with flash := { s.flash with tail := nextSector s.flash t, erasing := none } }

end Sys2Proof.Machine
end

