-- ==== Sys2Proof/Machine/InstCore.lean ====
section
/-! DEFINITION. What the configuration store keeps of an instance, and how an instance comes back at start-up
(15_instances.md, R620; R357 of 07; R406 of 08; R789 of 19). -/

namespace Sys2Proof.Machine

/-- State bits of the persisted item 0x01: created, frozen, saved. -/
def instStateBits (s : State) (i : Nat) : Nat :=
  let x := instAt s i
  bitAt x.created 0 + bitAt (decide ((unitAt s (instPage i)).state = .quiesced)) 1 + bitAt x.saved 2

/-- The configuration of R624 as persisted. -/
def instArgs (x : Inst) : List Nat :=
  [x.port, x.rings, x.overlapLog2, x.weight, x.span, x.ballast, match x.mcSlot with
    | some k => k + 1
    | none => 0, x.kcShare, x.chans]

/-- Item 0x01 of R789 of 19, written after every request that changes it (R620, R657). -/
def persistInst (s : State) (i : Nat) : State :=
  storePut s 1 i (.instance_ (instAt s i).gen (instStateBits s i) (instArgs (instAt s i)))

/-- An instance number as its item says. -/
def instOfArgs (gen st : Nat) (a : List Nat) : Inst :=
  if st % 2 = 0 then { gen := gen }
  else
    { created := true, saved := bit st 2, gen := gen, port := a.getD 0 0, rings := a.getD 1 0, overlapLog2 := a.getD 2 0
      weight := a.getD 3 0, span := a.getD 4 0, ballast := a.getD 5 0
      mcSlot := match a.getD 6 0 with
        | 0 => none
        | k + 1 => some k
      kcShare := a.getD 7 0, chans := a.getD 8 0 }

/-- Settings of the audit registers that a log keeps across start-up (R789 of 19). -/
def auditSettings (l : Log) : Log :=
  { port := l.port, sealLog2 := l.sealLog2, ringBase := l.ringBase, ringLog2 := l.ringLog2, psBase := l.psBase, psLog2 := l.psLog2 }

/-- An instance comes back in the state it had (R620): its rings keep their pool numbers, a new log begins. -/
def restoreInst (old : State) (s : State) (i gen st : Nat) (args : List Nat) : State :=
  let x := instOfArgs gen st args
  let s := putInst s i x
  if !x.created then s
  else
    let s := modUnit s (instPage i) fun u => { u with
      state := if bit st 1 then .quiesced else .running, enable := true, quiesce := bit st 1 }
    let s := (List.range 16).foldl (fun s r => match (ringAt old (ringKey i r)).pool with
      | some g => putRing s (ringKey i r) { pool := some g }
      | none => s) s
    beginLog (putLog s i (auditSettings (logAt old i))) i

/-- KBPK material comes back (R334, R357 of 07): current and previous generation, staged keys. -/
def restoreKbpk (s : State) (item : Nat) (key : BitVec 256) (gen at_ : Nat) : State :=
  let i := item % 1024
  let g := instKeys s i
  match bits item 16 2 with
  | 0 => putKeys s i { g with cur := gen, curKey := key }
  | 1 => putKeys s i { g with prev := some gen, prevKey := key, retireAt := at_ }
  | 2 =>
    let x : StageSlot :=
      { state := .staged, gen := gen, inst := i, kcv := kbpkKcv key, key := key, persisted := true
        activateAt := if at_ = 0 then none else some at_ }
    { s with kh := { s.kh with slots := tset {} s.kh.slots (bits item 18 6) x } }
  | _ => s

/-- A bridle line takes its kept values (R919 of 17). -/
def restoreLine (s : State) (e : Nat × Nat × Bool) : State :=
  let l : Line := { first := e.2.1 % 512, count := bits e.2.1 9 6, spare := bit e.2.1 15 }
  let s := putLine s e.1 l
  if (unitAt s (linePage e.1)).state = .retired then s
  else modUnit s (linePage e.1) fun u => { u with enable := e.2.2, state := if e.2.2 then .starting else .off }

/-- One item of the store in force comes back (R620, R705 of 17, R789 of 19, R882 of 22). -/
def restoreItem (old : State) (s : State) (e : Nat × StoreItem) : State :=
  let item := e.1 % 2 ^ 24
  match e.2.payload with
  | .instance_ gen st args => restoreInst old s item gen st args
  | .kbpk key gen at_ => restoreKbpk s item key gen at_
  | .formation r lines =>
    lines.foldl restoreLine { s with bridle := { s.bridle with record := some r, state := .forming } }
  | .ownerList n fps => { s with lc := { s.lc with list := some (n, fps) } }
  | .mcImage im =>
    { s with mc := { s.mc with slots := tset {} s.mc.slots item { state := 2, image := im, persisted := true } } }

/-- The store is scanned (R790 of 19); the items of TYPE 0x01 stand first, so that keys and logs find their instances. -/
def restoreStore (old : State) (s : State) : State :=
  let s := s.flash.store.foldl (restoreItem old) s
  rebindAll s

end Sys2Proof.Machine
end

