-- ==== Sys2Proof/Machine/StartUp.lean ====
section
/-! DEFINITION. Start-up and the device reset (22_host_ports_power_startup.md, R871 to R876, R888), and the tamper firing that
may lead to one (R737 of 18). -/

namespace Sys2Proof.Machine

/-! ### What a device reset keeps (R888, R755 of 18) -/

/-- Non-volatile state of the tag with the field session in progress (R824, R827, R837 of 21). -/
def keptTag (t : Tag) : Tag :=
  { field := t.field, strong := t.strong, wake := t.wake, state := t.state, uid := t.uid, selected := t.selected
    blocked := t.blocked, challenge := t.challenge, session := t.session, stale := t.stale, seed := t.seed, counter := t.counter
    genNext := t.genNext, kRead := t.kRead, kJournal := t.kJournal, slots := t.slots
    run := t.run.filter fun a => a.reader, waiting := t.waiting.filter fun a => a.reader }

/-- Flash keeps its contents; banks, window, fetch and counts start anew. -/
def keptFlash (f : Flash) : Flash :=
  { f with
    banks := [], winAddr := [], fetch := 3, half := 0, fallback := false, corrected := 0, uncorrected := 0, brownout := false
    brownouts := 0, compacting := false }

/-- The state as step 1 of start-up finds it: mooring state, flash and OTP kept, everything else lost (R888). -/
def resetBase (s : State) : State :=
  let ports := s.ports.filterMap fun (e : Nat × Port) =>
    if e.2.perst then some (e.1, ({ perst := true } : Port)) else none
  let srcs := s.tamper.srcs.filterMap fun (e : Nat × TmpSrc) =>
    if e.2.count = 0 ∧ !e.2.asserted then none
    else some (e.1, ({ srcDflt e.1 with count := e.2.count, asserted := e.2.asserted } : TmpSrc))
  { State.reset with
    pending := s.pending, cycles := s.cycles, fresh := s.fresh, out := s.out, mooring := s.mooring, flash := keptFlash s.flash
    otp := s.otp, tag := keptTag s.tag
    kh := { check := s.kh.check, losses := s.kh.losses }
    faults := { map := s.faults.map, burning := s.faults.burning }
    mc := { versions := s.mc.versions }
    power := { h0 := s.power.h0, h1 := s.power.h1, staged := s.power.staged }
    lc := { deviceCert := s.lc.deviceCert, ownerCert := s.lc.ownerCert }
    ports := ports
    tamper := { srcs := srcs } }

/-! ### Step 1: the halves (R873 to R876) -/

def svnFloor (s : State) : Nat := (List.range 63).countP fun i => s.otp.svnFloor.getLsbD i

/-- SVN of an image set, and whether its signatures verify (DESIGN CHOICE, log 12). -/
def imageSvn (im : Bytes) : Nat := Config.measure .firmware [im] % 64
def imageSigned (im : Bytes) : Bool := Config.check .firmware [im]

/-- A half is valid (R874). The images that the part came with, held as no bytes, are signed (DESIGN CHOICE, log 8). -/
def halfValid (s : State) (h : Half) : Bool :=
  h.present && !h.revoked && decide (svnFloor s ≤ h.svn) && (h.image.isEmpty || imageSigned h.image)

/-- The half with the higher COUNT among those programmed, 1 when only it is. -/
def newerHalf (s : State) : Nat :=
  if s.power.h1.present ∧ (!s.power.h0.present ∨ s.power.h0.count < s.power.h1.count) then 1 else 0

def imageHalf (s : State) (n : Nat) : Half := if n = 0 then s.power.h0 else s.power.h1
def putImageHalf (s : State) (n : Nat) (h : Half) : State :=
  { s with power := if n = 0 then { s.power with h0 := h } else { s.power with h1 := h } }

/-- The half that would start: the newer if valid, else the other if valid. -/
def startHalf (s : State) : Option Nat :=
  let n := newerHalf s
  if halfValid s (imageHalf s n) then some n else if halfValid s (imageHalf s (1 - n)) then some (1 - n) else none

/-- A marked staged set is installed into the half that is not active (R875). -/
def installStaged (s : State) : State :=
  match s.power.staged with
  | none => s
  | some im =>
    let a := (startHalf s).getD (newerHalf s)
    let h : Half := { count := ((imageHalf s a).count + 1) % 2 ^ 64, svn := imageSvn im, present := true, image := im }
    let s := putImageHalf s (1 - a) h
    { s with power := { s.power with staged := none } }

/-- The OTP floor rises to the lower SVN of two valid halves (R874). -/
def raiseFloor (s : State) : State :=
  if halfValid s s.power.h0 && halfValid s s.power.h1 then
    let n := min s.power.h0.svn s.power.h1.svn
    let v := s.otp.svnFloor ||| BitVec.ofNat 63 (2 ^ min n 63 - 1)
    if v = s.otp.svnFloor then s else otpBurned { s with otp := { s.otp with svnFloor := v } }
  else s

/-- The boot ROM chooses the active half (R874, R876): none valid leaves none. The flag says that the fallback starts. -/
def chooseHalf (s : State) : Option Nat × Bool × State :=
  let s := installStaged s
  let n := newerHalf s
  if halfValid s (imageHalf s n) then (some n, false, raiseFloor s)
  else
    let s := putImageHalf s n { imageHalf s n with revoked := true }
    if halfValid s (imageHalf s (1 - n)) then (some (1 - n), true, s) else (none, false, s)

/-! ### Step 2: the DRK (R335 to R338 of 07) -/

/-- A DRK found lost (R336, R745 of 18): counted, as evidence unless a ripcord explains it, and a DRK is generated. -/
def lostDrk (s : State) : State :=
  let s := devAppend { s with kh := { s.kh with losses := sat 255 (s.kh.losses + 1) } } [devRecord 3 []]
  let old := s.mooring.evidTarget
  let s := if s.mooring.ripcordSeen then s else evidenceEvent old { s with mooring := raiseEvidence s.mooring }
  wantDrk s 2

/-- The DRK check; the flag says that FLASH_INTEGRITY fires (DEDUCED, log 96). -/
def drkCheck (s : State) : State × Bool :=
  let d := s.mooring.drk
  let out : State × Bool :=
    if lifecycle s = 0 ∨ lifecycle s = 3 then ({ s with kh := { s.kh with drkState := 3 } }, false)
    else match s.kh.check with
      | some c => if d ≠ 0 ∧ drkCheckValue d = c then ({ s with kh := { s.kh with drkState := 0 } }, false) else (lostDrk s, false)
      | none =>
        if s.otp.drkEver = 0 then (wantDrk s 1, false)
        else if d ≠ 0 ∧ s.flash.store ≠ [] then
          let c := drkCheckValue d
          (devAppend { s with kh := { s.kh with check := some c, drkState := 0 } } [devRecord 2 c], true)
        else (lostDrk s, false)
  ({ out.1 with mooring := { out.1.mooring with ripcordSeen := false } }, out.2)

/-! ### Step 4: repair map, masks, channels (R35 of 01; R681 of 16) -/

/-- The record's CHECK is good. -/
def mapRecordOk (r : Bytes) : Bool := decide (r.getD 15 0 = crc8 (slice r 0 15))

/-- Bit of the masks of R680 that a record names. -/
def recordBit (r : Bytes) : Option Nat :=
  if !mapRecordOk r then none
  else if field r 0 1 = mapChannel then some (field r 4 4 % 64)
  else if field r 0 1 = mapSource then some (40 + field r 4 4 % 4)
  else none

/-- The masks together. -/
def retireMask (s : State) : BitVec 64 := s.otp.retireFactory ||| s.otp.retireField

/-- R681: records without a bit burn it; bits without a record get one. -/
def reconcile (s : State) : State :=
  let want := s.faults.map.filterMap recordBit
  let s := want.foldl (fun s b =>
    if (retireMask s).getLsbD b then s
    else otpBurned { s with otp := { s.otp with retireField := s.otp.retireField ||| BitVec.ofNat 64 (2 ^ b) } }) s
  ((List.range 34) ++ [40, 41, 42, 43]).foldl (fun s b =>
    if (retireMask s).getLsbD b ∧ !want.contains b ∧ s.faults.map.length < 255 then
      let r := mapRecord (if b < 34 then mapChannel else mapSource) 0 (bitAt (s.otp.retireFactory.getLsbD b) 0)
        (if b < 34 then b + 2 ^ 16 * chanPage b else b - 40) 0
      { s with faults := { s.faults with map := s.faults.map ++ [r], restored := sat 63 (s.faults.restored + 1) } }
    else s) s

/-- The last record of the map that fits. -/
def mapIndexOf (s : State) (p : Bytes → Bool) : Option Nat :=
  (List.range s.faults.map.length).reverse.find? fun k => mapRecordOk (s.faults.map.getD k []) && p (s.faults.map.getD k [])

/-- A unit and the units below it are RETIRED as the map and the masks say. -/
def retiredAtStart (s : State) (p : Nat) (factory field_ : Bool) (ix : Option Nat) : State :=
  let cause := match ix with
    | some k => field (s.faults.map.getD k []) 1 1
    | none => 0
  let one (root : Bool) (s : State) (q : Nat) : State := modUnit s q fun u => { u with
    state := .retired, enable := false, permanent := root, permCause := if root then cause else 0x0C
    factory := root && factory, field := root && field_, mapIndex := if root then ix.getD 255 else 255 }
  (descendants p).foldl (one false) (one true s p)

/-- What the map and the masks retire (R671, R673, R679, R681). -/
def applyMap (s : State) : State :=
  let s := (List.range 34).foldl (fun s c =>
    if (retireMask s).getLsbD c then
      retiredAtStart s (chanPage c) (s.otp.retireFactory.getLsbD c) (s.otp.retireField.getLsbD c)
        (mapIndexOf s fun r => decide (recordBit r = some c))
    else s) s
  let s := (List.range 4).foldl (fun s i =>
    if (retireMask s).getLsbD (40 + i) then putSource s i { sourceAt s i with state := .retired } else s) s
  s.faults.map.foldl (fun s r =>
    let loc := field r 4 4
    if !mapRecordOk r then s
    else match field r 0 1 with
      | 3 => { s with bridle := { s.bridle with lanesRetired := s.bridle.lanesRetired ++ [loc % 512] } }
      | 4 => retiredAtStart s (linePage (loc % 64)) (bit (field r 2 1) 0) (!bit (field r 2 1) 0)
        (mapIndexOf s fun r' => decide (field r' 0 1 = 4 ∧ field r' 4 4 = loc))
      | 6 => { s with ballast := { s.ballast with withdrawn := s.ballast.withdrawn ++ [loc % 512] } }
      | 7 => { s with kc := { s.kc with withdrawn := s.kc.withdrawn ++ [loc % 2 ^ 18] } }
      | _ => s) s

/-- Channels enabled under R35, without a unit event; their DRBGs and the keel's ask for seed (R511 of 12). -/
def enableAtStart (s : State) : State :=
  let on := enabledChannels s
  let s := (List.range 34).foldl (fun s c =>
    if (unitAt s (chanPage c)).state = .retired then s
    else
      let st : UState := if on.contains c then .running else .off
      (descendants (chanPage c)).foldl (fun s q => modUnit s q fun u => { u with state := st, enable := on.contains c })
        (modUnit s (chanPage c) fun u => { u with state := st, enable := on.contains c })) s
  let s := postSeed s (.instantiate keelDrbg)
  noteNoChannel (on.foldl (fun s c => postSeed s (.instantiate c)) s)

/-! ### Steps 5 and 6 -/

/-- START_T1 to START_T6 (R872): free values within the bounds of the steps. -/
def startTimes (s : State) : State :=
  let bounds : List Nat := [40000 + 200 * s.tamper.applied, 2000, 20000, 300000, 200000, 100000]
  let go := bounds.foldl (fun (x : Nat × List Nat × State) b =>
    let (v, s) := freeNat x.2.2
    let t := x.1 + v % (b + 1)
    (t, x.2.1 ++ [t], s)) (0, [], s)
  { go.2.2 with power := { go.2.2.power with startT := (List.range 6).map fun i => (i, w32 (go.2.1.getD i 0)) } }

/-- Steps 3 to 6 (R872). -/
def finishStart (old s : State) : State :=
  let s := enableAtStart (applyMap (reconcile s))
  let s := if lifecycle s = 3 then { s with kh := { s.kh with ripcorded := true } }
    else if s.kh.pendingGen ∨ lifecycle s = 0 then s
    else restoreStore old s
  let s := cellEvents (continueEpisode (loadSrcCfg (tagSeed s)))
  let s := if lifecycle s = 2 then modUnit s tamperPage fun u => { u with lock := true } else s
  let s := startTimes s
  let s := setEvent { s with power := { s.power with ready := true, quietSince := s.cycles } } 0 16
  if (unitAt s 0).quiesce then writeQuiesce1 s 0 else s

/-- The straps as sampled (R901): VIO_H, VIO_T and VIO_C in bits 0 to 2, SMB2 to SMB0 in bits 5 to 3, TEST in bit 6
(DEDUCED, log 97). -/
def sampleStraps (s : State) (v : Nat) : State :=
  { s with power := { s.power with
      vioH := bit v 0, vioT := bit v 1, vioC := bit v 2, smb := bits v 3 3, strapTest := bit v 6 } }

/-- Burned OTP bits that read marginal are burned again at step 1 (R886, R887): whether one does is free (DESIGN CHOICE, log 121). -/
def reburnMarginal (s : State) : State :=
  let (f, s) := freeNat s
  if f % 2 = 0 then s
  else setEvent (otpBurned { s with otpRegs := { s.otpRegs with marginal := true } }) 0x00B 17

/-- One pass of start-up with START_CAUSE `cause`; the flag says that a firing within it asks for a device reset. With STRAP_TEST
1 it does not pass step 1 (R902 of 23). -/
def startOnce (s : State) (cause straps : Nat) : State × Bool :=
  let b := resetBase s
  let b := bootMooring (reburnMarginal (sampleStraps { b with power := { b.power with cause := cause } } straps))
  let (half, fall, b) := chooseHalf b
  if b.power.strapTest then (setUState b 0 .starting, false)
  else match half with
  | none => (setUState b 0 .faulted, false)
  | some h =>
    let b := { b with flash := { b.flash with half := h, fallback := fall, fetch := 1 } }
    let b := loadSrcCfg b
    let (b, r) := if fall then fireCore b flashIntegrity else (b, false)
    if r then (b, true)
    else
      let (b, fire) := drkCheck b
      let (b, r) := if fire then fireCore b flashIntegrity else (b, false)
      if r then (b, true) else (finishStart s b, false)

/-- The straps that the latest start-up sampled. -/
def strapsNow (s : State) : Nat :=
  bitAt s.power.vioH 0 + bitAt s.power.vioT 1 + bitAt s.power.vioC 2 + 8 * s.power.smb + bitAt s.power.strapTest 6

/-- Start-up (R872, R890): a RESET response within it begins it again, and the episode then open does not repeat it. -/
def deviceStart (s : State) (cause straps : Nat) : State :=
  let (t, r) := startOnce s cause straps
  if r then (startOnce { t with rings := s.rings, audit := s.audit } 3 straps).1 else t

/-- A device reset (R876, R888). -/
def deviceReset (s : State) (cause : Nat) : State := deviceStart s cause (strapsNow s)

/-- A tamper source fires on main power (R734, R737): rung RESET resets the device. -/
def fireTamper (s : State) (src : Nat) : State :=
  let (s, r) := fireCore s src
  if r then deviceReset s 3 else s

end Sys2Proof.Machine
end

