-- ==== Sys2Proof/Machine/TamperCmds.lean ====
section
/-! DEFINITION. The commands TAMPER_FIRE to MOORING_LOG_CLEAR with TAMPER_SAMPLE (18_tamper_and_monitors.md; R406 of 08, R870
of 22 for VIN_LOSS). -/

namespace Sys2Proof.Machine

/-- TAMPER_FIRE on main power (R734, R750): FSM_ALARM names its machine (DESIGN CHOICE, log 111). -/
def tamperFire (s : State) (src machine unit : Nat) : State :=
  if !vinPresent s ∨ 42 ≤ src then s
  else if src = fsmAlarm then
    let (s, r) := fireFsm s machine unit
    if r then deviceReset s 3 else s
  else fireTamper s src

/-- A sample of a source (R734, R740, R742): the one that fills the filter fires. -/
def sample (s : State) (src : Nat) (asserted : Bool) : State :=
  if !srcWatched s src then s
  else
    let x := srcAt s src
    if !asserted then closeEpisode (putSrc s src { x with count := 0, asserted := false })
    else if x.filter ≤ x.count + 1 then if vinPresent s then fireTamper s src else fireCell s src
    else putSrc s src { x with count := x.count + 1, asserted := true }

/-- VIN falls below the absence level: MOORED (R406 of 08, R752, R864, R870 of 22). A flash operation in progress is torn (R782,
R783 of 19). -/
def vinLoss (s : State) : State :=
  if !vinPresent s then s
  else
    let tear (s : State) (b : Nat) : State := match (bankAt s b).run with
      | some r => tearRun s b r 0
      | none => s
    let s := tagVinLoss (tear (tear s 0) 1)
    let b := resetBase s
    { b with
      power := { b.power with state := .moored }
      tag := { b.tag with mod := s.tag.mod }
      rings := s.rings.filterMap fun (e : Nat × Ring) => e.2.pool.map fun (g : Nat) => (e.1, ({ pool := some g } : Ring))
      audit := { logs := tmap (fun _ => {}) (fun _ l => auditSettings l) s.audit.logs } }

/-- VBAT below 2.0 V while VIN is absent: the mooring state is lost (R755). -/
def vbatCollapse (s : State) : State :=
  if vinPresent s then s else { s with mooring := { held := false }, tamper := {} }

/-! ### Meanings -/

/-- TAMPER_FIRE (R734). -/
def execTamperFire (src machine unit : Nat) (s : State) : Host.Outcome State Fault Refusal := .next (tamperFire s src machine unit)

/-- TMP_FIRED_CLEAR (R742). -/
def execTmpFiredClear (acc : Acc) (hi : Bool) (mask : Word32) (s : State) : Host.Outcome State Fault Refusal :=
  .next (if reaches s acc tamperPage then writeFired s hi mask else s)

/-- EVIDENCE_BIT_BURN (R746). -/
def execEvidenceBitBurn (s : State) : Host.Outcome State Fault Refusal := .next (burnEvidence s)

/-- TMP_TEST (R748). -/
def execTmpTest (acc : Acc) (value : Word32) (s : State) : Host.Outcome State Fault Refusal :=
  .next (if reaches s acc tamperPage then writeTest s value else s)

/-- TMP_TEST_DONE (R748). -/
def execTmpTestDone (pass : Bool) (s : State) : Host.Outcome State Fault Refusal := .next (testDone s pass)

/-- TMP_FUSE_BURN (R736). -/
def execTmpFuseBurn (acc : Acc) (value : Word32) (s : State) : Host.Outcome State Fault Refusal :=
  .next (if reaches s acc tamperPage then burnFuse s value else s)

/-- TMP_SRC_CFG_WRITE (R739). -/
def execTmpSrcCfgWrite (acc : Acc) (src : Nat) (value : Word32) (s : State) : Host.Outcome State Fault Refusal :=
  .next (if reaches s acc tamperPage then writeSrcCfg s src value else s)

/-- VIN_LOSS (R870 of 22). -/
def execVinLoss (s : State) : Host.Outcome State Fault Refusal := .next (vinLoss s)

/-- CELL_TAMPER_FIRE (R753). -/
def execCellTamperFire (src : Nat) (s : State) : Host.Outcome State Fault Refusal := .next (fireCell s src)

/-- VBAT_COLLAPSE (R755). -/
def execVbatCollapse (s : State) : Host.Outcome State Fault Refusal := .next (vbatCollapse s)

/-- MOORING_LOG_CLEAR (R757). -/
def execMooringLogClear (acc : Acc) (value : Word32) (s : State) : Host.Outcome State Fault Refusal :=
  .next (if reaches s acc mooringPage then clearMooringLog s value else s)

/-- TAMPER_SAMPLE (R734). -/
def execTamperSample (src : Nat) (asserted : Bool) (s : State) : Host.Outcome State Fault Refusal := .next (sample s src asserted)

end Sys2Proof.Machine
end

