-- ==== Sys2Proof/Machine/FlashCmds.lean ====
section
/-! DEFINITION. The commands FL_WIN_DATA_READ to STORE_COMPACTION with BROWNOUT_DEASSERT (19_flash.md). Write cycles come from
ring 0 firmware alone (R769). -/

namespace Sys2Proof.Machine

/-- A sequence of write cycles by an accessor (R769): dropped unless it is ring 0 firmware that reaches the page. -/
def fwCycles (acc : Acc) (s : State) (f : State → State) : State :=
  if acc = .fw0 ∧ reaches s acc flashPage then f s else s

/-- Any address of a bank, for the commands without unlock cycles. -/
def bankBase (b : Nat) : Nat := 0x1000000 * (b % 2)

/-- FL_WIN_DATA_READ (R766, R767, R770). -/
def flashRead (s : State) (acc : Acc) (ecc : Nat) : State :=
  if !reaches s acc flashPage then s
  else
    let (s, fire) := winRead s acc ecc
    if fire then fireTamper s flashIntegrity else s

/-- The words of a byte string. -/
def dataWords (b : Bytes) : List Word32 := (List.range (b.length / 4)).map fun i => w32 (field b (4 * i) 4)

/-- FL_WIN_DATA_READ (R767). -/
def execFlWinDataRead (acc : Acc) (ecc : Nat) (s : State) : Host.Outcome State Fault Refusal := .next (flashRead s acc ecc)

/-- PROGRAM_GRANULE (R771): code 0x40 and four words. -/
def execProgramGranule (acc : Acc) (addr : Nat) (w0 w1 w2 w3 : Word32) (s : State) : Host.Outcome State Fault Refusal :=
  .next (fwCycles acc s fun s => writeWords (unlockAnd s (unlockBase addr) 0x40) addr [w0, w1, w2, w3])

/-- BUFFERED_PROGRAM (R771): code 0x41, N − 1, and the words of N granules. -/
def execBufferedProgram (acc : Acc) (addr : Nat) (data : Bytes) (s : State) : Host.Outcome State Fault Refusal :=
  .next (fwCycles acc s fun s =>
    writeWords (writeCycle (unlockAnd s (unlockBase addr) 0x41) addr (w32 (data.length / 16 - 1))) addr (dataWords data))

/-- SECTOR_ERASE (R771): code 0x62, then 0x26 to the sector's base. -/
def execSectorErase (acc : Acc) (addr : Nat) (s : State) : Host.Outcome State Fault Refusal :=
  .next (fwCycles acc s fun s => writeCycle (unlockAnd s (unlockBase addr) 0x62) addr 0x26)

/-- ERASE_SUSPEND (R777): code 0x6B. -/
def execEraseSuspend (acc : Acc) (bank : Nat) (s : State) : Host.Outcome State Fault Refusal :=
  .next (fwCycles acc s fun s => writeCycle s (bankBase bank) 0x6B)

/-- ERASE_SUSPENDED (R779). -/
def execEraseSuspended (bank : Nat) (s : State) : Host.Outcome State Fault Refusal := .next (suspendNow s bank)

/-- ERASE_RESUME (R777): code 0x6C. -/
def execEraseResume (acc : Acc) (bank : Nat) (s : State) : Host.Outcome State Fault Refusal :=
  .next (fwCycles acc s fun s => writeCycle s (bankBase bank) 0x6C)

/-- READ_STATUS (R771): code 0x90. -/
def execReadStatus (acc : Acc) (bank : Nat) (s : State) : Host.Outcome State Fault Refusal :=
  .next (fwCycles acc s fun s => unlockAnd s (bankBase bank) 0x90)

/-- RETURN_TO_READ_ARRAY (R771): code 0xF0. -/
def execReturnToReadArray (acc : Acc) (bank : Nat) (s : State) : Host.Outcome State Fault Refusal :=
  .next (fwCycles acc s fun s => writeCycle s (bankBase bank) 0xF0)

/-- FLASH_OPERATION_END (R776). -/
def execFlashOperationEnd (bank good : Nat) (s : State) : Host.Outcome State Fault Refusal := .next (operationEnd s bank good)

/-- BROWNOUT (R782). -/
def execBrownout (s : State) : Host.Outcome State Fault Refusal := .next (brownoutAssert s)

/-- BROWNOUT_DEASSERT (R782). -/
def execBrownoutDeassert (s : State) : Host.Outcome State Fault Refusal :=
  .next { s with flash := { s.flash with brownout := false } }

/-- STORE_COMPACTION (R792). -/
def execStoreCompaction (s : State) : Host.Outcome State Fault Refusal := .next (compactStore s)

end Sys2Proof.Machine
end

