-- ==== Sys2Proof/Machine/CaritDecode.lean ====
section
/-! DEFINITION. The forms of Carit instructions: short operations with their stacks and registers, dependent pairs, long
operations (13_carit_instruction_set.md, R539 to R546), and the checks of a microcode image (R569, R570). -/

namespace Sys2Proof.Machine

/-! ### Short operations (R540, R541, R544) -/

/-- SOP and IMM of a 15-bit short operation. -/
def sopOf (v : Nat) : Nat := bits v 9 6
def immOf (v : Nat) : Nat := bits v 0 9

/-- IMM, sign-extended. -/
def immSigned (v : Nat) : Int := if immOf v < 256 then (immOf v : Int) else (immOf v : Int) - 512

/-- The operation is assigned and its IMM lies in the range of R544. -/
def shortOk (v : Nat) : Bool :=
  let i := immOf v
  match sopOf v with
  | 0x01 | 0x20 | 0x25 | 0x26 | 0x2B | 0x30 | 0x31 | 0x32 => true
  | 0x08 => decide (i ≤ 15)
  | 0x13 | 0x14 | 0x15 | 0x16 => decide (i ≤ 63)
  | 0x21 | 0x22 | 0x23 | 0x24 => decide (i ≤ 1)
  | 0x2C => decide (i ≤ 7)
  | p => decide (i = 0) && decide (p ≤ 0x2A ∨ p = 0x33 ∨ p = 0x34)

/-- Reach, pops and pushes (R544). -/
def shortStack (v : Nat) : Nat × Nat × Nat :=
  match sopOf v with
  | 0x01 | 0x21 | 0x23 | 0x25 | 0x28 | 0x2A => (0, 0, 1)
  | 0x02 => (1, 0, 1)
  | 0x03 | 0x22 | 0x24 | 0x26 | 0x27 | 0x29 | 0x31 | 0x32 => (1, 1, 0)
  | 0x04 => (2, 2, 2)
  | 0x05 => (2, 0, 1)
  | 0x07 => (3, 3, 3)
  | 0x08 => (immOf v + 1, 0, 1)
  | 0x06 | 0x09 | 0x0A | 0x0B | 0x0C | 0x0D | 0x0E | 0x0F | 0x10 | 0x17 | 0x18 | 0x19 | 0x1A | 0x1B => (2, 2, 1)
  | 0x11 | 0x12 | 0x13 | 0x14 | 0x15 | 0x16 | 0x1C | 0x1E | 0x1F | 0x20 | 0x2C => (1, 1, 1)
  | 0x1D => (3, 3, 1)
  | _ => (0, 0, 0)

/-- The operation accesses memory (M of R544). -/
def shortMem (v : Nat) : Bool := decide (0x21 ≤ sopOf v ∧ sopOf v ≤ 0x26)

/-- A control operation (R542). -/
def shortControl (v : Nat) : Bool := decide (0x30 ≤ sopOf v ∧ sopOf v ≤ 0x34)

/-- Registers that an operation reads, of A 0, B 1, FP 2 and FLAGS.C 3. -/
def shortReads (v : Nat) : List Nat :=
  match sopOf v with
  | 0x0B => [3]
  | 0x21 | 0x22 | 0x28 | 0x2B => [0]
  | 0x23 | 0x24 | 0x2A => [1]
  | 0x25 | 0x26 => [2]
  | _ => []

/-- Registers that an operation writes. -/
def shortWrites (v : Nat) : List Nat :=
  match sopOf v with
  | 0x09 | 0x0A | 0x0B | 0x20 => [3]
  | 0x27 | 0x2B => [0]
  | 0x29 => [1]
  | 0x21 | 0x22 => if immOf v = 1 then [0] else []
  | 0x23 | 0x24 => if immOf v = 1 then [1] else []
  | _ => []

/-- The pair is dependent (R542). -/
def pairDependent (a b : Nat) : Bool :=
  (decide (0 < (shortStack a).2.2) && decide (0 < (shortStack b).1)) ||
  (shortWrites a).any (fun r => (shortReads b).contains r || (shortWrites b).contains r) ||
  (shortReads a).any (fun r => (shortWrites b).contains r) ||
  (shortMem a && shortMem b) || shortControl a

/-! ### Long operations (R541, R546) -/

/-- Operand bits that a long operation defines, none for an OP that is not assigned. -/
def longMask (op : Nat) : Option Nat :=
  match op with
  | 0x01 | 0x02 | 0x03 | 0x05 | 0x07 | 0x08 | 0x0A => some 0xFFFFFF
  | 0x04 | 0x06 | 0x1B | 0x23 | 0x26 | 0x27 | 0x28 => some 0
  | 0x09 => some 0xFFF000
  | 0x0B => some 0xFFFFF7
  | 0x0C => some 0xFFFFF3
  | 0x0D => some 0xFFFF37
  | 0x0E => some 0xFFFF33
  | 0x0F | 0x10 => some 0x1F
  | 0x11 | 0x12 | 0x13 | 0x14 | 0x16 | 0x1C | 0x1F => some 0x3
  | 0x15 => some 0x73
  | 0x18 => some 0xFFF
  | 0x19 => some 0x7FF
  | 0x1A | 0x1E => some 0x7
  | 0x1D => some 0xF
  | 0x20 | 0x21 => some 0xFFF
  | 0x22 => some 0xFF
  | 0x24 | 0x25 => some 0x1FF
  | 0x30 => some 0xFFFF3F
  | 0x31 => some 0xFF
  | 0x32 => some 0xFF0F
  | 0x33 => some 0x1F
  | 0x34 => some 0x3F
  | 0x35 => some 0xF
  | _ => none

/-- Fields of BM_CTL (R560). -/
def bmKind (ctl : Nat) (dst : Bool) : Nat := bits ctl (if dst then 4 else 2) 2
def bmCap (ctl : Nat) (dst : Bool) : Nat := bits ctl (if dst then 8 else 6) 2
def bmEng (ctl : Nat) (dst : Bool) : Nat := bits ctl (if dst then 12 else 10) 2

/-- Kind 3, or a fourth engine (R560) (DEDUCED, log 49). -/
def bmIllegal (ctl : Nat) : Bool :=
  [false, true].any fun d => decide (bmKind ctl d = 3 ∨ (bmKind ctl d = 2 ∧ bmEng ctl d = 3))

/-- Engine 3 is ILLEGAL_OP (DEDUCED, log 49). -/
def engineIllegal (e : Nat) : Option Nat := if e % 4 = 3 then some 0 else none

/-- A long word raises no ILLEGAL_OP when decoded (R541, R546, R551, R560) (DEDUCED, log 49). -/
def longOk (op operand : Nat) : Bool :=
  match longMask op with
  | none => false
  | some m => decide (operand ||| m = m) && match op with
    | 0x09 | 0x0A => decide (operand / 2 ^ 12 ≠ 0)
    | 0x15 => decide (bits operand 4 3 ≤ 5)
    | 0x18 => !bmIllegal (4 * operand)
    | 0x19 => (hashLen (operand % 256)).isSome
    | 0x1C | 0x1D | 0x1F => (engineIllegal operand).isNone
    | _ => true

/-- MFS/MTS numbers that R531 and R577 assign. -/
def msrAssigned (r : Nat) : Bool :=
  decide (r ≤ 0x00B ∨ (0x010 ≤ r ∧ r ≤ 0x01C) ∨ (0x020 ≤ r ∧ r ≤ 0x027) ∨ r = 0x030 ∨ (0x040 ≤ r ∧ r ≤ 0x05D) ∨
    (0x060 ≤ r ∧ r ≤ 0x07F))

/-- A word of job microcode is permitted (CODE of R570): no DEVWR and no MTS that ring 3 may not make (DEDUCED, log 49). -/
def codeWordOk (w : Nat) : Bool :=
  if bit w 31 then
    let a := bits w 16 15
    let b := bits w 1 15
    !bit w 0 && shortOk a && shortOk b && !pairDependent a b
  else
    let op := bits w 24 7
    let x := bits w 0 24
    longOk op x &&
    (match op with
      | 0x20 => decide (x = 0 ∨ x = 0x010 ∨ x = 0x011 ∨ x = 0x012)
      | 0x21 => false
      | 0x22 => decide (x = 0)
      | 0x23 | 0x26 | 0x28 => false
      | 0x24 => decide (x ≤ 0x030) && msrAssigned x
      | 0x25 => decide ((0x008 ≤ x ∧ x ≤ 0x01B) ∨ (0x020 ≤ x ∧ x ≤ 0x027)) && msrAssigned x
      | _ => decide (op < 0x30))

/-! ### Microcode images (R569, R570) -/

def imgEntries (b : Bytes) : Nat := field b 5 1
def imgBodyLen (b : Bytes) : Nat := field b 8 4
def imgCodeLen (b : Bytes) : Nat := field b 12 4
def imgDataLen (b : Bytes) : Nat := field b 16 4
def imgVersion (b : Bytes) : Nat := field b 24 8
def imgSigner (b : Bytes) : Bytes := slice b 32 24

/-- The fields of R569. -/
def imgFormatOk (b : Bytes) (len : Nat) : Bool :=
  decide (slice b 0 4 = [0x45#8, 0x5A#8, 0x4D#8, 0x43#8] ∧ field b 4 1 = 1 ∧ 1 ≤ imgEntries b ∧ imgEntries b ≤ 16 ∧
    field b 6 2 = 0 ∧ imgBodyLen b = 64 + 8 * imgEntries b + imgCodeLen b + imgDataLen b ∧ imgCodeLen b % 4 = 0 ∧
    field b 20 4 ≤ 1024 ∧ field b 56 8 = 0 ∧ imgCodeLen b + imgDataLen b ≤ 8192 ∧
    len = imgBodyLen b + 4723 ∧ b.length = len) &&
  (List.range (imgEntries b)).all fun k => decide (field b (64 + 8 * k + 2) 2 = 0)

/-- Opcode and offset of entry `k`. -/
def imgEntry (b : Bytes) (k : Nat) : Nat × Nat := (field b (64 + 8 * k) 2, field b (64 + 8 * k + 4) 4)

/-- The ENTRY table (ENTRY of R570). -/
def imgEntriesOk (b : Bytes) : Bool :=
  (List.range (imgEntries b)).all fun k =>
    let e := imgEntry b k
    (opRow e.1).isSome && decide (e.1 ≠ 0x0602 ∧ e.1 ≠ 0x0603 ∧ 4 * e.2 < imgCodeLen b) &&
    (List.range k).all fun j => decide ((imgEntry b j).1 ≠ e.1)

/-- Signatures and the signing certificate's chain (SIGNATURE of R570). -/
def imgSigned (s : State) (b : Bytes) : Bool :=
  let body := b.take (imgBodyLen b)
  let fp := imgSigner b
  s.otp.lifecycle.getLsbD 1 && Config.check .signerFp [fp, le 24 s.otp.ownerFp.toNat] &&
  Config.check .sign [[2#8], fp, slice b (imgBodyLen b) 96, body] &&
  Config.check .sign [[0x0A#8], fp, slice b (imgBodyLen b + 96) 4627, body, ascii "ECZ-MICROCODE"]

/-- The highest version loaded for a signer (R570, R571). -/
def signerVersion (s : State) (fp : Bytes) : Nat := ((s.mc.versions.find? fun v => v.1 = fp).map (·.2)).getD 0

/-- The slot is bound to an instance, or a job of such an instance runs on it. -/
def slotInUse (s : State) (k : Nat) : Bool :=
  (s.im.insts.any fun e => e.2.created && decide (e.2.mcSlot = some k)) ||
    s.jobs.any fun e => decide (e.2.image = some k) && undecided e.2

/-- The first case of R570 that applies, 0 for none. -/
def imageCause (s : State) (k : Nat) (b : Bytes) (len : Nat) : Nat :=
  if !imgFormatOk b len then 1
  else if !imgEntriesOk b then 2
  else if !imgSigned s b then 3
  else if imgVersion b < signerVersion s (imgSigner b) then 4
  else if !(List.range (imgCodeLen b / 4)).all fun i => codeWordOk (field b (64 + 8 * imgEntries b + 4 * i) 4) then 5
  else if slotInUse s k then 6
  else 0

/-- SHA-256 of an image's body and signatures as loaded: the digest of R573 and MC_DIGEST. -/
def imageDigest (b : Bytes) : Bytes := slice (hashBytes (sha256 b)) 0 12

/-- A passed image is LOADED and its version recorded (R571; R785 of 19): a set of three device records
(DESIGN CHOICE, log 74). -/
def loadImage (s : State) (k : Nat) (b : Bytes) : State :=
  let fp := imgSigner b
  let v := imgVersion b
  let s := { s with mc := { s.mc with
    slots := tset {} s.mc.slots k { state := 2, image := b, persisted := !s.kh.ripcorded }
    versions := (s.mc.versions.filter fun x => x.1 ≠ fp) ++ [(fp, max v (signerVersion s fp))] } }
  let s := if signerVersion s fp ≤ v then
      devAppend s [devRecord 4 (slice fp 0 14), devRecord 5 (slice fp 14 10 ++ slice (le 8 v) 0 4), devRecord 6 (slice (le 8 v) 4 4)]
    else s
  storePut s 5 k (.mcImage b)

end Sys2Proof.Machine
end

