-- ==== Sys2Proof/Machine/Instances.lean ====
section
/-! DEFINITION. The instance manager (15_instances.md): request windows, the checks of R625 and R920, what each request does, and
the commands CREATE to FUNCTION_LEVEL_RESET_VF; the ceremonies of 07 and MC_LOAD of 13. -/

namespace Sys2Proof.Machine

/-! ### Windows (R621, R622) -/

def winAt (s : State) (a : Nat) : ImWindow := tget {} s.im.windows a
def putWin (s : State) (a : Nat) (w : ImWindow) : State := { s with im := { s.im with windows := tset {} s.im.windows a w } }

/-- Result codes of R625. -/
def codeBadOp : Nat := 0x01
def codeBadArg : Nat := 0x02
def codeExists : Nat := 0x03
def codeNotCreated : Nat := 0x04
def codeNoRings : Nat := 0x05
def codeKcPool : Nat := 0x06
def codeState : Nat := 0x07
def codeVf : Nat := 0x08
def codeSpan : Nat := 0x09
def codeTicket : Nat := 0x0A
def codeRecord : Nat := 0x0B
def codeOwner : Nat := 0x0C
def codeMcMissing : Nat := 0x0D
def codeTableFull : Nat := 0x0E
def codeCeremony : Nat := 0x0F
def codeSaved : Nat := 0x10
def codeLifecycle : Nat := 0x11
def codeReadFault : Nat := 0x12
def codeCapacity : Nat := 0x13
def codeZeroised : Nat := 0x14
def codeTickets : Nat := 0x15

/-- A request is outstanding. -/
def winBusy (w : ImWindow) : Bool := decide (w.state = .busy)

/-- A request reaches DONE (R625, R658); a discarded one leaves the window at reset (R857 of 22). -/
def endRequest (s : State) (a code : Nat) : State :=
  let w := winAt s a
  if !winBusy w then s
  else if w.discard then putWin s a {}
  else setEvent (putWin s a { w with state := .done, code := code, waits := false, held := [], data := none }) imPage 16

/-- The outstanding requests of operation `op` for instance `i` end. -/
def endRequests (s : State) (op i code : Nat) : State :=
  (List.range 3).foldl (fun s a =>
    let w := winAt s a
    if winBusy w ∧ !w.waits ∧ w.op = op ∧ w.inst = i then endRequest s a code else s) s

/-! ### The arguments of CREATE (R624) -/

/-- Argument `k` of a request as it stood at GO. -/
def argOf (w : ImWindow) (k : Nat) : Nat := w.held.getD k 0

/-- The configuration that ARG0 to ARG4 spell, as an instance that is not yet created. -/
def argInst (w : ImWindow) : Inst :=
  { port := bits (argOf w 0) 0 1, rings := bits (argOf w 0) 1 5, overlapLog2 := bits (argOf w 0) 8 6
    weight := bits (argOf w 0) 16 8, span := bits (argOf w 0) 24 4, ballast := bits (argOf w 1) 0 9
    mcSlot := if bit (argOf w 1) 18 then some (bits (argOf w 1) 16 2) else none
    kcShare := bits (argOf w 2) 0 19, chans := argOf w 3 % 2 ^ 32 + 2 ^ 32 * bits (argOf w 4) 0 2 }

/-- A field out of range or a reserved bit set (R624); a RESTORE takes RINGS and OVERLAP_LOG2 from its payload
(DEDUCED, log 71). -/
def createArgsBad (w : ImWindow) (restore : Bool) : Bool :=
  let x := argInst w
  decide (argOf w 0 &&& 0x0FFF3F3F ≠ argOf w 0 ∨ argOf w 1 &&& 0x000701FF ≠ argOf w 1 ∨ argOf w 2 &&& 0x7FFFF ≠ argOf w 2 ∨
    argOf w 4 &&& 0x3 ≠ argOf w 4) ||
  (if restore then decide (x.rings ≠ 0 ∨ x.overlapLog2 ≠ 0)
   else decide (x.rings = 0 ∨ 16 < x.rings) || !decide (x.overlapLog2 = 0 ∨ (16 ≤ x.overlapLog2 ∧ x.overlapLog2 ≤ 40))) ||
  decide (x.weight = 0 ∨ 9 < x.span ∨ x.ballast = 0 ∨ 352 < x.ballast ∨ 262144 < x.kcShare)

/-! ### Pools (R626, R627, R653) -/

/-- Pool numbers of rings in use. -/
def poolUsed (s : State) : List Nat := s.rings.filterMap fun e => e.2.pool

/-- The lowest-numbered free rings of the pool, as many as asked for where there are enough. -/
def freeRings (s : State) (n : Nat) : List Nat := ((List.range 4096).filter fun g => !(poolUsed s).contains g).take n

/-- Key-cache entries in shares: of created instances, and reserved here for home members elsewhere (R627, R653). -/
def kcShared (s : State) (except : Option Nat) : Nat :=
  ((s.im.insts.filter fun e => e.2.created && decide (some e.1 ≠ except)).map fun e => e.2.kcShare).sum +
  (s.bridle.spanHeld.map fun h => h.kc).sum

/-- The other members of a span of `n` (R653), none where no such gondola contains this device. -/
def spanMembers (s : State) (n : Nat) : Option (List Nat) :=
  match n with
  | 0 => some []
  | k + 1 =>
    match viewGondola s k with
    | none => none
    | some g => if s.bridle.state = .member then some ((devicesIn (heldRecord s) g).filter (· ≠ selfMember s)) else none

/-- The pool checks of CREATE and RESTORE (R649 item 4). -/
def poolCheck (s : State) (rings kc span : Nat) : Nat :=
  if (freeRings s rings).length < rings then codeNoRings
  else if 262144 < kcShared s none + kc then codeKcPool
  else match spanMembers s span with
    | none => codeSpan
    | some ms => if ms.all fun n => (presentSet s).contains n then 0 else codeSpan

/-- The slot is LOADED. -/
def slotLoaded (s : State) (k : Nat) : Bool := decide ((tget {} s.mc.slots k).state = 2)

/-- Virtual function `i + 1` of port `n` exists (R618). -/
def vfExists (s : State) (n i : Nat) : Bool :=
  let p := tget {} s.ports n
  p.enabled && decide (i < p.numVf)

/-! ### Spans (R653, R361 of 07) -/

/-- A SPAN message about instance `i` to member `n`: 0 reserve, 3 release, 4 changed settings (DESIGN CHOICE, log 73). -/
def sendSpan (s : State) (i kind n : Nat) (x : Inst) : State :=
  let mc := match x.mcSlot with
    | some k => imageDigest (tget {} s.mc.slots k).image
    | none => []
  sendTo s n (formation 0x0A [selfMember s, kind, i, x.kcShare, x.ballast, x.overlapLog2] [mc])

/-- To every other member of the instance's span. -/
def tellSpan (s : State) (i kind : Nat) : State :=
  let x := instAt s i
  ((spanMembers s x.span).getD []).foldl (fun s n => sendSpan s i kind n x) s

/-! ### Creation, reset, removal -/

/-- The instance is created (R623, R626, R633, R657, R406 of 08): STARTING, the log begins, RUNNING. -/
def createNow (s : State) (i : Nat) (x : Inst) (log : State → State) : State :=
  let x := { x with created := true, bme := (instAt s i).bme }
  let pools := freeRings s x.rings
  let s := putInst s i x
  let s := (List.range x.rings).foldl (fun s r => putRing s (ringKey i r) { pool := some (pools.getD r 0) }) s
  let s := setUState (modUnit s (instPage i) fun u => { u with enable := true, quiesce := false }) (instPage i) .starting
  let s := rebind (mendShare (log s) i) i
  let s := setUState s (instPage i) .running
  persistInst (if takesWork s imPage then s else beginQuiesce s (instPage i)) i

/-- Every ring page of an instance returns to its reset values (R132 of 03); the rings stay allocated when `keep`. -/
def resetRings (s : State) (i : Nat) (keep : Bool) : State :=
  (ringsOf s i).foldl (fun s k =>
    let s := dropTake s k
    let r := ringAt s k
    let t := intakeAt s r.intake
    let s := putIntake s r.intake { t with scan := t.scan.filter (· ≠ k) }
    putRing s k (if keep then { pool := r.pool, intake := r.intake } else {})) s

/-- Jobs of an instance that have not begun step 5 end with 0x4001 (R61 of 01, R636 item 4). -/
def abortEarly (s : State) (i : Nat) : State :=
  (s.jobs.filter fun e => decide (e.2.inst = i ∧ e.2.origin = none) && undecided e.2 && !begunStep5 e.2).foldl
    (fun s e => failJob s e.1 0x4001) s

/-- A reset of an instance takes effect (R636, R637). -/
def resetInst (s : State) (i : Nat) : State :=
  let x := instAt s i
  let s := putInst s i { x with gen := (x.gen + 1) % 256, waitWrap := false, resetWaits := false }
  let s := resetRings s i true
  let x := instAt s i
  let s := dpEvent (putInst s i { x with dpEvent := 0 }) i 3
  persistInst (abortEarly s i) i

/-- Jobs taken under the value that the next generation would take (R634). -/
def wrapBlocked (s : State) (i : Nat) : Bool :=
  jobsWhere s fun j => decide (j.inst = i ∧ j.origin = none ∧ j.gen = ((instAt s i).gen + 1) % 256)

/-- REMOVE begins (R638 item 1). -/
def beginRemove (s : State) (i : Nat) : State :=
  let s := putInst s i { instAt s i with removing := true }
  let s := setUState (modUnit s (instPage i) fun u => { u with enable := false }) (instPage i) .stopping
  let s := (ringsOf s i).foldl (fun s k =>
    let s := dropTake s k
    let r := ringAt s k
    let t := intakeAt s r.intake
    putIntake s r.intake { t with scan := t.scan.filter (· ≠ k) }) s
  abortEarly s i

/-- Nothing of the instance is in flight: every completion is written or discarded. -/
def instIdle (s : State) (i : Nat) : Bool := !jobsWhere s fun j => decide (j.inst = i ∧ j.origin = none)

/-- What leaves with an instance beside its rings (R638 item 3). -/
def dropInst (s : State) (i : Nat) : State :=
  let s := invalidate s fun j _ => decide (j = i)
  let s := clearEvts s fun e => decide (1 ≤ e.action ∧ e.action ≤ 4 ∧ e.inst = i)
  let k := instKeys s i
  let s := putKeys s i { lingering := k.lingering }
  let s := persistKeys (if k.cur = 0 then s else dpEvent (keyChange s) i 4) i
  let s := { s with kh := { s.kh with joins := s.kh.joins.filter fun j => j.2.2 ≠ i } }
  (List.range 32).foldl (fun s n => if holdsSlot s i n then emptySlot s n else s) s

/-- The removal takes effect (R638) (DEDUCED, log 72). -/
def finishRemove (s : State) (i : Nat) : State :=
  let x := instAt s i
  if !x.removing ∨ !instIdle s i then s
  else
    let s := endLog (if x.saved then s else makeSeal s i 6 (position s)) i
    let s := tellSpan s i 3
    let s := dropInst s i
    let s := resetRings s i false
    let s := putInst s i { gen := (x.gen + 1) % 256, bme := x.bme }
    let s := modUnit s (instPage i) fun u => { u with lock := false, refused := 0, quiesce := false }
    let s := if s.dbg.state = .opened ∧ s.dbg.inst = i then closeGate s else s
    let s := persistInst (setUState s (instPage i) .off) i
    endRequests s 0x03 i 0

/-! ### Freeze (R640) -/

def beginFreeze (s : State) (i : Nat) : State :=
  let s := putInst s i { instAt s i with freezing := true, freezeSeal := none }
  let s := modUnit s (instPage i) fun u => { u with quiesce := true, draining := true }
  (ringsOf s i).foldl (fun s k =>
    let s := dropTake s k
    let t := intakeAt s (ringAt s k).intake
    putIntake s (ringAt s k).intake { t with scan := t.scan.filter (· ≠ k) }) s

/-- Pending key records and seals of a log are written as far as its ring takes them. -/
def writePending (s : State) (i : Nat) : State :=
  let n := (logAt s i).seals.length + (logAt s i).keyRecs.length
  (List.range n).foldl (fun s _ => writeSeal (writeKeyRec s i) i) s

/-- FREEZE_COMPLETE: with the last completion written the FREEZE seal is made; once it is written the instance is QUIESCED. -/
def finishFreeze (s : State) (i : Nat) : State :=
  let x := instAt s i
  if !x.freezing ∨ !instIdle s i then s
  else
    let s := match x.freezeSeal with
      | some _ => s
      | none =>
        let n := (logAt s i).sealNext
        let s := makeSeal s i 5 (position s)
        putInst s i { instAt s i with freezeSeal := some n }
    let s := writePending s i
    let n := (instAt s i).freezeSeal.getD 0
    if (logAt s i).seals.any fun x => decide (x.no = n) then s
    else
      let s := putInst s i { instAt s i with freezing := false, freezeSeal := none }
      endRequests (persistInst (setUState s (instPage i) .quiesced) i) 0x04 i 0

/-! ### Tickets, save and restore (R642 to R652) -/

/-- The DER certificate that a ticket or record carries. -/
def certOf (s : State) : Bytes := s.lc.deviceCert

/-- Both identity signatures over a body, the second with a context (R642, R645). -/
def identitySigs (s : State) (body context : Bytes) : Bytes × State :=
  let (rnd, s) := freeBytes (passKeel s 2) 64
  (Config.out .sign [[2#8], be 48 Config.identityEcPriv.toNat, body, slice rnd 0 32] 96 ++
   Config.out .sign [[0x0A#8], be 32 Config.identityPqPriv.toNat, body, slice rnd 32 32, context] 4627, s)

/-- Fingerprint of the owner root in OTP (R880 of 22). -/
def ownerFp (s : State) : Bytes := le 24 s.otp.ownerFp.toNat

/-- The host port of an accessor's physical function, port 0 for firmware. -/
def accPort (a : Nat) : Nat := if a = 1 then 1 else 0

/-- TICKET (R642, R643). -/
def doTicket (s : State) (a i : Nat) (w : ImWindow) : State × Nat :=
  let need := 1752 + (certOf s).length + 4723
  if 16 ≤ s.im.tickets.length ∧ !s.im.tickets.any (fun t => decide (t.inst = i)) then (s, codeTickets)
  else if argOf w 2 < need then (putWin s a { winAt s a with out0 := need }, codeCapacity)
  else
    let (nonce, s) := keelDraw s 16
    let (ec, s) := keelDraw s 48
    let (kem, s) := keelDraw s 64
    let body := [0x45#8, 0x5A#8, 0x54#8, 0x31#8, 1#8, 1#8] ++ le 2 i ++ nonce ++ le 8 (position s) ++ deviceFp ++ ownerFp s ++
      Config.out .publicOf [[2#8], ec] 97 ++ zeros 3 ++ Config.out .publicOf [[13#8], kem] 1568 ++
      le 4 (certOf s).length ++ certOf s
    let (sigs, s) := identitySigs s body (ascii "ECZ-TICKET")
    let t : Ticket := { inst := i, nonce := nonce, destFp := deviceFp, ecdh := BitVec.ofNat 384 (unbe ec), kem := BitVec.ofNat 512 (unbe kem) }
    let s := { s with im := { s.im with tickets := (s.im.tickets.filter fun t => t.inst ≠ i) ++ [t] } }
    let s := emit s (.hostWrite (accPort a) (argOf w 0 + 2 ^ 32 * argOf w 1) (body ++ sigs))
    (putWin s a { winAt s a with out0 := need }, 0)

/-- Event entries that a save carries (R647): armed AUDIT_SEAL and INSTANCE_ROTATE entries of the instance. -/
def savedEvents (s : State) (i : Nat) : List EvEntry :=
  (s.events.map (·.2)).filter fun e => decide (e.state = .armed ∧ (e.action = 1 ∨ e.action = 4) ∧ e.inst = i)

/-- One ring entry of the payload. -/
def savedRing (r : Ring) : Bytes :=
  if r.pool.isNone then zeros 16
  else le 8 (ringBase r) ++ le 1 r.log2 ++ le 2 r.head ++ le 1 (bitAt r.enable 0 + bitAt r.every 1) ++ zeros 4

/-- The clear payload of R647 (DESIGN CHOICE, log 75). -/
def savePayload (s : State) (i : Nat) : Bytes :=
  let x := instAt s i
  let g := instKeys s i
  let l := logAt s i
  let evs := savedEvents s i
  let mc := match x.mcSlot with
    | some k => imageDigest (tget {} s.mc.slots k).image
    | none => zeros 12
  le 2 (x.overlapLog2 + 2 ^ 8 * l.sealLog2) ++ zeros 2 ++ le 1 x.gen ++ le 1 x.rings ++ zeros 2 ++
  ((List.range 16).flatMap fun r => savedRing (ringAt s (ringKey i r))) ++
  le 1 g.cur ++ le 1 (g.prev.getD 0) ++ zeros 6 ++ key32 g.curKey ++ key32 g.prevKey ++
  le 8 (if g.prev.isSome then g.retireAt else 0) ++ le 6 l.seqNext ++ le 6 l.sealNext ++ hashBytes l.prev ++
  hashBytes l.digestKey ++ mc ++ le 1 evs.length ++ zeros 7 ++
  evs.flatMap fun e => le 8 e.pos ++ le 1 e.action ++ le 1 e.period ++ zeros 6

/-- The migration key (R645): SP 800-108 over the two shared secrets, label and context. -/
def migrateKey (kemSecret ecdhSecret nonce src dst : Bytes) : Bytes :=
  Config.out .kdf [kemSecret ++ ecdhSecret, ascii "ECZ-MIGRATE", nonce ++ src ++ dst] 32

/-- The ticket checks of R644. -/
def ticketOk (i : Nat) (t : Bytes) (len : Nat) : Bool :=
  let n := field t 1748 4
  let body := t.take (1752 + n)
  let cert := slice t 1752 n
  decide (slice t 0 5 = [0x45#8, 0x5A#8, 0x54#8, 0x31#8, 1#8] ∧ len = 1752 + n + 4723 ∧ t.length = len ∧ field t 6 2 = i ∧
    (field t 5 1 = 1 ∨ field t 5 1 = 2)) &&
  Config.check .x509 [cert, [t.getD 5 0]] && Config.check .sign [[2#8], cert, slice t (1752 + n) 96, body] &&
  Config.check .sign [[0x0A#8], cert, slice t (1848 + n) 4627, body, ascii "ECZ-TICKET"]

/-- The record of R645. -/
def saveRecord (s : State) (i : Nat) (t : Bytes) : Bytes × State :=
  let (iv, s) := keelDraw s 12
  let (eph, s) := keelDraw s 48
  let (rnd, s) := keelDraw s 32
  let kemPub := slice t 180 1568
  let ct := Config.out .kemEncaps [[13#8], kemPub, rnd] 1568
  let key := migrateKey (Config.out .kemShared [[13#8], kemPub, rnd] 32) (Config.out .ecdh [eph, slice t 80 97] 48)
    (slice t 8 16) deviceFp (slice t 32 24)
  let cert := certOf s
  let pay := savePayload s i
  let head := [0x45#8, 0x5A#8, 0x52#8, 0x31#8, 1#8, 0#8] ++ le 2 i ++ slice t 8 16 ++ deviceFp ++ slice t 32 24 ++
    le 8 (position s) ++ le 4 cert.length ++ le 4 (pay.length + 16) ++ iv ++ zeros 4 ++ Config.out .publicOf [[2#8], eph] 97 ++
    zeros 3 ++ ct ++ cert
  let body := head ++ Config.out .gcmEnc [key, iv, head, pay] pay.length ++ Config.out .gcmTag [key, iv, head, pay] 16
  let (sigs, s) := identitySigs s body (ascii "ECZ-SAVE")
  (body ++ sigs, s)

/-- SAVE after the checks of R625 (R644, R645, R648). -/
def doSave (s : State) (a i : Nat) (w : ImWindow) : State × Nat :=
  let x := instAt s i
  let t := (w.data.getD (false, [])).2
  if (List.range 32).any (holdsSlot s i) ∨ s.events.any (fun e => decide (e.2.state = .armed ∧ e.2.action = 3 ∧ e.2.inst = i))
  then (s, codeCeremony)
  else if x.saved then (s, codeSaved)
  else if !(w.data.getD (false, [])).1 then (s, codeReadFault)
  else if !ticketOk i t (argOf w 2) then (s, codeTicket)
  else if slice t 56 24 ≠ ownerFp s then (s, codeOwner)
  else if 16 < (savedEvents s i).length then (s, codeTableFull)
  else
    let (r, s') := saveRecord s i t
    if argOf w 5 < r.length then (putWin s a { winAt s a with out0 := r.length }, codeCapacity)
    else
      let s := emit s' (.hostWrite (accPort a) (argOf w 3 + 2 ^ 32 * argOf w 4) r)
      let s := putWin s a { winAt s a with out0 := r.length }
      (setEvent (persistInst (putInst s i { instAt s i with saved := true }) i) imPage 18, 0)

/-- Header checks of a record: MAGIC, VERSION, lengths, signatures and chain (R649 item 2, the payload tag apart). -/
def recordOk (r : Bytes) (len : Nat) : Bool :=
  let n := field r 80 4
  let m := field r 84 4
  let cert := slice r 1772 n
  let body := r.take (1772 + n + m)
  decide (slice r 0 5 = [0x45#8, 0x5A#8, 0x52#8, 0x31#8, 1#8] ∧ len = 1772 + n + m + 4723 ∧ r.length = len ∧ 456 ≤ m) &&
  Config.check .x509 [cert, [1#8]] && Config.check .sign [[2#8], cert, slice r (1772 + n + m) 96, body] &&
  Config.check .sign [[0x0A#8], cert, slice r (1868 + n + m) 4627, body, ascii "ECZ-SAVE"]

/-- The payload of a record under a ticket's keys, none where its tag fails. -/
def openPayload (t : Ticket) (r : Bytes) : Option Bytes :=
  let n := field r 80 4
  let m := field r 84 4 - 16
  let key := migrateKey (Config.out .kemDecaps [[13#8], be 64 t.kem.toNat, slice r 204 1568] 32)
    (Config.out .ecdh [be 48 t.ecdh.toNat, slice r 104 97] 48) t.nonce (slice r 24 24) t.destFp
  let head := r.take (1772 + n)
  let pay := Config.out .gcmDec [key, slice r 88 12, head, slice r (1772 + n) m] m
  if Config.out .gcmTag [key, slice r 88 12, head, pay] 16 = slice r (1772 + n + m) 16 then some pay else none

/-- The LOADED slot that holds an image with a digest. -/
def slotWith (s : State) (digest : Bytes) : Option Nat :=
  (List.range 4).find? fun k => slotLoaded s k && decide (imageDigest (tget {} s.mc.slots k).image = digest)

/-- The ring registers of a payload. -/
def restoreRings (s : State) (i n : Nat) (p : Bytes) : State :=
  (List.range n).foldl (fun s r =>
    let o := 8 + 16 * r
    let k := ringKey i r
    putRing s k { ringAt s k with
      baseLo := w32 (field p o 4), baseHi := w32 (field p (o + 4) 4), log2 := field p (o + 8) 1 % 32, head := field p (o + 9) 2
      enable := bit (field p (o + 11) 1) 0, every := bit (field p (o + 11) 1) 1 }) s

/-- RESTORE creates the instance (R652). -/
def restoreNow (s : State) (i : Nat) (w : ImWindow) (p : Bytes) : State :=
  let digest := slice p 420 12
  let x : Inst := { argInst w with
    rings := field p 5 1, overlapLog2 := field p 0 2 % 64, gen := field p 4 1
    mcSlot := if digest = zeros 12 then none else slotWith s digest }
  let prev := field p 265 1
  let k : InstKeys :=
    { cur := field p 264 1, curKey := BitVec.ofNat 256 (unbe (slice p 272 32))
      prev := if prev = 0 then none else some prev, prevKey := if prev = 0 then 0 else BitVec.ofNat 256 (unbe (slice p 304 32))
      retireAt := if prev = 0 then 0 else field p 336 8 }
  let log (s : State) : State :=
    let s := putKeys s i { k with lingering := (instKeys s i).lingering }
    let s := putLog s i { logAt s i with sealLog2 := field p 0 2 / 256 % 64 }
    restoreRings (continueLog s i (field p 344 6) (field p 350 6) (BitVec.ofNat 256 (unbe (slice p 356 32)))
      (BitVec.ofNat 256 (unbe (slice p 388 32)))) i x.rings p
  let s := createNow s i x log
  let s := persistKeys (if k.cur = 0 then s else dpEvent (keyChange s) i 4) i
  let s := if prev = 0 then s else armLowest s { action := 2, pos := k.retireAt, inst := i }
  let s := (List.range (field p 432 1)).foldl (fun s j =>
    let o := 440 + 16 * j
    match emptyEvts s with
    | [] => s
    | n :: _ => putEvt s n { state := .armed, pos := field p o 8, action := field p (o + 8) 1, period := field p (o + 9) 1 % 64, inst := i }) s
  { s with im := { s.im with tickets := s.im.tickets.filter fun t => t.inst ≠ i } }

/-- RESTORE after the checks of R625 (R649 to R651). The code 0 stands for passed; the payload goes with it. -/
def restoreCheck (s : State) (i : Nat) (w : ImWindow) : State × Nat × Bytes :=
  let r := (w.data.getD (false, [])).2
  match s.im.tickets.find? fun t => t.inst = i with
  | none => (s, codeTicket, [])
  | some t =>
    if !(w.data.getD (false, [])).1 then (s, codeReadFault, [])
    else if slice r 8 16 ≠ t.nonce ∨ slice r 48 24 ≠ t.destFp then (s, codeTicket, [])
    else if !recordOk r (argOf w 5) then (s, codeRecord, [])
    else match openPayload t r with
      | none => ({ s with im := { s.im with tickets := s.im.tickets.filter fun t => t.inst ≠ i } }, codeRecord, [])
      | some p =>
        let digest := slice p 420 12
        let owned : Bool := match s.lc.list with
          | some l => l.2.contains (slice r 24 24)
          | none => false
        let pool := poolCheck s (field p 5 1) (argInst w).kcShare (argInst w).span
        if !owned then (s, codeOwner, [])
        else if pool ≠ 0 then (s, pool, [])
        else if digest ≠ zeros 12 ∧ slotWith s digest = none then (s, codeMcMissing, [])
        else if (emptyEvts s).length < field p 432 1 + 1 then (s, codeTableFull, [])
        else (s, 0, p)

/-! ### Ceremonies (R920; R343 to R352 of 07) -/

/-- EMPTY entries that a CER_ACTIVATE of instance `i` may count on: entries held for the KEY_RETIRE of activations still armed
are not among them. -/
def entriesLeft (s : State) : Nat :=
  (emptyEvts s).length - s.events.countP fun e =>
    decide (e.2.state = .armed ∧ e.2.action = 3) && decide (overlapTicks s e.2.inst ≠ 0)

/-- Entries that an activation of instance `i` needs. -/
def entriesNeeded (s : State) (i : Nat) : Nat := if overlapTicks s i = 0 then 1 else 2

/-- The KEY_ACTIVATE entry is armed and its position recorded (R352). -/
def armActivate (s : State) (k i pos : Nat) : State :=
  let x := slotAt s k
  let s := armLowest s { action := 3, pos := pos, inst := i, slot := k }
  let s := { s with kh := { s.kh with slots := tset {} s.kh.slots k { x with activateAt := some pos } } }
  storePut s 2 (kbpkItem i 2 k) (.kbpk x.key x.gen pos)

/-- A KBPK message: 0 stage, 1 reported STAGED, 2 arm, 3 reported short of entries (R361 of 07, R920). -/
def sendKbpk (s : State) (n kind i k gen pos : Nat) (kcv key : Bytes) : State :=
  sendTo s n (formation 0x09 [selfMember s, kind, i, k, gen, pos] [kcv, key])

/-- The checks of R920 for a ceremony request, 0 when it passes. -/
def ceremonyCheck (s : State) (op i : Nat) (w : ImWindow) : Nat :=
  let k := argOf w 0 % 32
  let x := slotAt s k
  let pos := argOf w 1 + 2 ^ 32 * argOf w 2
  if drkStatus s = 3 then codeZeroised
  else match op with
    | 0x10 =>
      let card := bits (argOf w 0) 8 2
      if x.state = .failed ∨ x.state = .staged ∨ (x.state ≠ .empty ∧ x.inst ≠ i) ∨ splitting x ∨
          s.kh.joins.any (fun j => decide (j.2.1 = k ∧ j.2.2 ≠ i)) ∨ (cardSlotAt s card).state ≠ .ready then codeCeremony
      else 0
    | 0x11 => if x.state ≠ .empty ∨ splitting x ∨ s.kh.joins.any (fun j => decide (j.2.1 = k)) then codeCeremony else 0
    | 0x12 => if holdsSlot s i k then 0 else codeCeremony
    | _ =>
      if x.state ≠ .staged ∨ x.inst ≠ i then codeCeremony
      else if pos ≤ position s then codeBadArg
      else if entriesLeft s < entriesNeeded s i then codeTableFull
      else 0

/-- What a ceremony request that passed does (R623). CER_ACTIVATE of a spanning instance first sends the key to every member of
the span and waits for their reports (R361). The flag says that the request is done. -/
def doCeremony (s : State) (op i : Nat) (w : ImWindow) : State × Bool :=
  let k := argOf w 0 % 32
  match op with
  | 0x10 => ({ s with kh := { s.kh with joins := s.kh.joins ++ [(bits (argOf w 0) 8 2, k, i)] } }, true)
  | 0x11 => (beginSplit s k i (bits (argOf w 0) 8 4) (bits (argOf w 0) 12 4) (bits (argOf w 0) 16 8), true)
  | 0x12 => (emptySlot s k, true)
  | _ =>
    let x := slotAt s k
    match ((spanMembers s (instAt s i).span).getD []).filter fun n => !s.bridle.dropped.contains (i, n) with
    | [] => (armActivate s k i (argOf w 1 + 2 ^ 32 * argOf w 2), true)
    | ms =>
      let s := { s with bridle := { s.bridle with spanAcks := s.bridle.spanAcks.filter fun a => a.1 ≠ i } }
      (ms.foldl (fun s n => sendKbpk s n 0 i k x.gen 0 x.kcv (key32 x.key)) s, false)

/-! ### Carrying out a request (R623, R625) -/

/-- Requests that need the instance not to be created. -/
def needsFree (op : Nat) : Bool := decide (op = 0x01 ∨ op = 0x06 ∨ op = 0x08)

/-- Requests that read host memory before their work. -/
def readsHost (op : Nat) : Bool := decide (op = 0x07 ∨ op = 0x08 ∨ op = 0x14)

/-- OP of R623. -/
def knownOp (op : Nat) : Bool := decide ((1 ≤ op ∧ op ≤ 0x0A) ∨ (0x10 ≤ op ∧ op ≤ 0x14))

/-- The lifecycle condition holds (R623, R883 of 22; R343 of 07). -/
def lifecycleOk (s : State) (op : Nat) : Bool :=
  let l := lifecycle s
  match op with
  | 0x01 | 0x10 | 0x11 | 0x12 | 0x13 => decide (l = 1 ∨ l = 2)
  | 0x06 | 0x07 | 0x08 => decide (l = 2)
  | _ => decide (l ≠ 3)

/-- A field out of range or a reserved bit set (R623, R624). -/
def argsBad (s : State) (op i : Nat) (w : ImWindow) : Bool :=
  let x := instAt s i
  let y := argInst w
  let a := argOf w 0
  match op with
  | 0x01 => createArgsBad w false
  | 0x08 => createArgsBad w true
  | 0x09 => createArgsBad w false || (x.created && decide (y.port ≠ x.port ∨ y.rings ≠ x.rings ∨
      y.overlapLog2 ≠ x.overlapLog2 ∨ y.span ≠ x.span))
  | 0x0A => decide (7 < a)
  | 0x10 => decide (a &&& 0x31F ≠ a)
  | 0x11 =>
    decide (a &&& 0xFFFF1F ≠ a ∨ bits a 8 4 < 2 ∨ 8 < bits a 8 4 ∨ bits a 12 4 < bits a 8 4 ∨ bits a 16 8 = 0)
  | 0x12 | 0x13 => decide (a &&& 0x1F ≠ a)
  | 0x14 => decide (3 < a ∨ i ≠ 0)
  | _ => false

/-- The state condition fails (R623). -/
def stateBad (s : State) (op i : Nat) (w : ImWindow) : Bool :=
  let u := unitAt s (instPage i)
  match op with
  | 0x04 => decide (u.state ≠ .running) || u.quiesce
  | 0x05 | 0x07 => decide (u.state ≠ .quiesced) || !u.quiesce
  | 0x0A => !bit (argOf w 0) 2 && !slotLoaded s (argOf w 0 % 4)
  | _ => false

/-- Requests that act on the data path of the virtual function (R618) (DEDUCED, log 70). -/
def needsVf (op : Nat) : Bool := decide (op = 0x01 ∨ op = 0x02 ∨ op = 0x04 ∨ op = 0x05 ∨ op = 0x08)

/-- Checks 1 to 6 of R625, 0 when they pass. -/
def generalCheck (s : State) (op i : Nat) (w : ImWindow) : Nat :=
  let x := instAt s i
  let port := if needsFree op then (argInst w).port else x.port
  if !knownOp op then codeBadOp
  else if !lifecycleOk s op then codeLifecycle
  else if argsBad s op i w then codeBadArg
  else if needsFree op ∧ x.created then codeExists
  else if !needsFree op ∧ op ≠ 0x14 ∧ !x.created then codeNotCreated
  else if stateBad s op i w then codeState
  else if needsVf op ∧ !vfExists s port i then codeVf
  else 0

/-- CREATE takes effect: the generation rises, a new log begins (R633, R406 of 08). -/
def createGo (s : State) (i : Nat) (w : ImWindow) : State :=
  createNow s i { argInst w with gen := ((instAt s i).gen + 1) % 256 } fun s => beginLog s i

/-- A new instance on this device alone is made at once; one that spans others first reserves there (R653). -/
def createOrReserve (s : State) (i span : Nat) (x : Inst) (go : State → State) : State × Option Nat :=
  match (spanMembers s span).getD [] with
  | [] => (go s, some 0)
  | ms =>
    let s := { s with bridle := { s.bridle with spanAcks := s.bridle.spanAcks.filter fun a => a.1 ≠ i } }
    (ms.foldl (fun s n => sendSpan s i 0 n x) s, none)

/-- A request that signs: it stays BUSY, its turn kept, while no channel can check its signatures (R457 of 10). -/
def signedWhen (s : State) (a : Nat) (r : State × Nat) : State × Option Nat :=
  if r.2 = 0 ∧ !keelChecks s then (putWin s a { winAt s a with waits := true }, none) else (r.1, some r.2)

/-- The request of window `a` is carried out. None: it stays BUSY. -/
def runRequest (s : State) (a : Nat) : State × Option Nat :=
  let w := winAt s a
  let i := w.inst
  let op := w.op
  let x := instAt s i
  let c := generalCheck s op i w
  if c ≠ 0 then (s, some c)
  else match op with
    | 0x01 =>
      let x := argInst w
      let c := poolCheck s x.rings x.kcShare x.span
      let missing : Bool := match x.mcSlot with
        | some k => !slotLoaded s k
        | none => false
      if c ≠ 0 then (s, some c)
      else if missing then (s, some codeMcMissing)
      else createOrReserve s i x.span x fun s => createGo s i w
    | 0x02 =>
      if x.removing then (s, some 0)
      else if wrapBlocked s i then (putInst s i { x with waitWrap := true }, none)
      else (resetInst s i, some 0)
    | 0x03 => (beginRemove s i, none)
    | 0x04 => (beginFreeze s i, none)
    | 0x05 =>
      if x.saved then (s, some codeSaved)
      else
        let s := tryRun (modUnit s (instPage i) fun u => { u with quiesce := false }) (instPage i)
        (persistInst s i, some 0)
    | 0x06 => signedWhen s a (doTicket s a i w)
    | 0x07 => signedWhen s a (doSave s a i w)
    | 0x08 =>
      let (s, c, p) := restoreCheck s i w
      if c ≠ 0 then (s, some c)
      else createOrReserve s i (argInst w).span (argInst w) fun s => restoreNow s i w p
    | 0x09 =>
      let y := argInst w
      let missing : Bool := match y.mcSlot with
        | some k => !slotLoaded s k
        | none => false
      if 262144 < kcShared s (some i) + y.kcShare then (s, some codeKcPool)
      else if missing then (s, some codeMcMissing)
      else
        let s := putInst s i { x with
          weight := y.weight, ballast := y.ballast, mcSlot := y.mcSlot, kcShare := y.kcShare, chans := y.chans }
        (tellSpan (persistInst (rebind (mendShare s i) i) i) i 4, some 0)
    | 0x0A =>
      let y := { x with mcSlot := if bit (argOf w 0) 2 then none else some (argOf w 0 % 4) }
      (tellSpan (persistInst (putInst s i y) i) i 4, some 0)
    | 0x14 =>
      let k := argOf w 0 % 4
      match w.data with
      | some (true, b) =>
        let cause := imageCause s k b (argOf w 3)
        if cause = 0 then (loadImage s k b, some 0)
        else
          let m : McSlot := { state := 3, cause := cause }
          (storeDrop { s with mc := { s.mc with slots := tset {} s.mc.slots k m } } 5 k, some 0)
      | _ => (s, some codeReadFault)
    | _ =>
      if s.kh.pendingGen then (putWin s a { w with waits := true }, none)
      else
        let c := ceremonyCheck s op i w
        if c ≠ 0 then (s, some c)
        else
          let (s, done) := doCeremony s op i w
          (s, if done then some 0 else none)

/-- An earlier request of the same instance must end first (R622); a RESET does not wait for a draining FREEZE or REMOVE
(R639). -/
def mustWait (s : State) (a : Nat) : Bool :=
  let w := winAt s a
  (List.range 3).any fun b =>
    let v := winAt s b
    decide (b ≠ a) && winBusy v && decide (v.inst = w.inst ∧ v.order < w.order) &&
    !(decide (w.op = 0x02) && !v.waits && decide (v.op = 0x03 ∨ v.op = 0x04))

/-- One attempt at the request of window `a`. -/
def tryRequest (s : State) (a : Nat) : State :=
  let w := winAt s a
  if !winBusy w ∨ !w.waits ∨ mustWait s a ∨ (readsHost w.op ∧ w.data.isNone) then s
  else
    let s := putWin s a { w with waits := false }
    match runRequest s a with
    | (s, some c) => endRequest s a c
    | (s, none) => s

/-- A RESTORE that waits for its span when the ripcord comes ends with ZEROISED, its reservations released (R639). -/
def zeroiseRestore (s : State) (a : Nat) : State :=
  let w := winAt s a
  if s.kh.ripcorded ∧ winBusy w ∧ !w.waits ∧ w.op = 0x08 then
    let x := argInst w
    endRequest (((spanMembers s x.span).getD []).foldl (fun s n => sendSpan s w.inst 3 n x) s) a codeZeroised
  else s

/-- Requests whose turn has come are carried out. -/
def pumpRequests (s : State) : State :=
  (List.range 3).foldl (fun s _ => (List.range 3).foldl tryRequest s) ((List.range 3).foldl zeroiseRestore s)

/-- IM_REQ with GO = 1 (R621): dropped while the accessor's window is BUSY. In STANDBY the request wakes the device (R867 of
22). -/
def imGo (s : State) (acc : Acc) (op i : Nat) (data : Option (Bool × Bytes)) : State :=
  let a := accIdx acc
  let w := winAt s a
  if !reaches s acc imPage ∨ winBusy w then s
  else
    let w' := { w with
      op := op % 256, inst := i % 1024, state := .busy, code := 0, order := s.im.nextOrder, waits := true
      held := (List.range 8).map fun k => (tget 0 w.args k).toNat, data := data, discard := false, out0 := 0 }
    let s := putWin s a w'
    let s := { s with im := { s.im with nextOrder := s.im.nextOrder + 1 } }
    pumpRequests (wakeUp s)

/-- A row of R623: the request, or the data for one that was made and waits for its read. -/
def imRow (s : State) (acc : Acc) (op i : Nat) (data : Option (Bool × Bytes)) : State :=
  let a := accIdx acc
  let w := winAt s a
  if winBusy w ∧ w.waits ∧ readsHost op ∧ w.op = op ∧ w.inst = i % 1024 ∧ w.data.isNone then
    pumpRequests (putWin s a { w with data := data })
  else imGo s acc op i data

/-- A reset that must not wait behind a request (R634, R635): it takes effect, or waits for the old jobs. -/
def resetOrWait (s : State) (i : Nat) : State :=
  if wrapBlocked s i then putInst s i { instAt s i with waitWrap := true, resetWaits := true } else resetInst s i

/-- A RESET request waits for the reset of the instance (R634). -/
def resetAsked (s : State) (i : Nat) : Bool :=
  (List.range 3).any fun a =>
    let w := winAt s a
    winBusy w && !w.waits && decide (w.op = 0x02 ∧ w.inst = i)

/-- GENERATION_WRAP_WAIT_END (R634): the reset that waited takes effect, and a waiting RESET request ends; a Function Level
Reset that waited beside it follows. -/
def wrapWaitEnd (s : State) (i : Nat) : State :=
  let x := instAt s i
  if !x.waitWrap ∨ wrapBlocked s i then s
  else
    let t := endRequests (resetInst s i) 0x02 i 0
    pumpRequests (if resetAsked s i && x.resetWaits then resetOrWait t i else t)

/-- The configuration space of a virtual function returns to reset: Bus Master Enable and the MSI-X table (PCI Express)
(PRESUMED, log 88). -/
def vfConfigReset (s : State) (i : Nat) : State :=
  putInst { s with msix := s.msix.filter fun e => e.1 / 32 ≠ i } i { instAt s i with bme := false }

/-- A Function Level Reset of a virtual function (R635, R639). -/
def vfReset (s : State) (i : Nat) : State :=
  let s := vfConfigReset s i
  let x := instAt s i
  if !x.created ∨ x.removing then s else resetOrWait s i

/-! ### Meanings -/

/-- CREATE (R623). -/
def execCreate (acc : Acc) (inst : Nat) (s : State) : Host.Outcome State Fault Refusal := .next (imRow s acc 0x01 inst none)
/-- RESET (R636). -/
def execReset (acc : Acc) (inst : Nat) (s : State) : Host.Outcome State Fault Refusal := .next (imRow s acc 0x02 inst none)
/-- REMOVE (R638). -/
def execRemove (acc : Acc) (inst : Nat) (s : State) : Host.Outcome State Fault Refusal := .next (imRow s acc 0x03 inst none)
/-- REMOVE_COMPLETE (R638). -/
def execRemoveComplete (inst : Nat) (s : State) : Host.Outcome State Fault Refusal := .next (pumpRequests (finishRemove s inst))
/-- FREEZE (R640). -/
def execFreeze (acc : Acc) (inst : Nat) (s : State) : Host.Outcome State Fault Refusal := .next (imRow s acc 0x04 inst none)
/-- FREEZE_COMPLETE (R640). -/
def execFreezeComplete (inst : Nat) (s : State) : Host.Outcome State Fault Refusal := .next (pumpRequests (finishFreeze s inst))
/-- THAW (R641). -/
def execThaw (acc : Acc) (inst : Nat) (s : State) : Host.Outcome State Fault Refusal := .next (imRow s acc 0x05 inst none)
/-- TICKET (R642). -/
def execTicket (acc : Acc) (inst : Nat) (s : State) : Host.Outcome State Fault Refusal := .next (imRow s acc 0x06 inst none)
/-- SAVE (R645). -/
def execSave (acc : Acc) (inst : Nat) (ok : Bool) (data : Bytes) (s : State) : Host.Outcome State Fault Refusal :=
  .next (imRow s acc 0x07 inst (some (ok, data)))
/-- RESTORE (R652). -/
def execRestore (acc : Acc) (inst : Nat) (ok : Bool) (data : Bytes) (s : State) : Host.Outcome State Fault Refusal :=
  .next (imRow s acc 0x08 inst (some (ok, data)))
/-- CONFIGURE (R632). -/
def execConfigure (acc : Acc) (inst : Nat) (s : State) : Host.Outcome State Fault Refusal := .next (imRow s acc 0x09 inst none)
/-- MC_BIND (R623). -/
def execMcBind (acc : Acc) (inst : Nat) (s : State) : Host.Outcome State Fault Refusal := .next (imRow s acc 0x0A inst none)
/-- CER_JOIN (R920). -/
def execCerJoin (acc : Acc) (inst : Nat) (s : State) : Host.Outcome State Fault Refusal := .next (imRow s acc 0x10 inst none)
/-- CER_SPLIT (R350 of 07). -/
def execCerSplit (acc : Acc) (inst : Nat) (s : State) : Host.Outcome State Fault Refusal := .next (imRow s acc 0x11 inst none)
/-- CER_ABANDON (R351 of 07). -/
def execCerAbandon (acc : Acc) (inst : Nat) (s : State) : Host.Outcome State Fault Refusal := .next (imRow s acc 0x12 inst none)
/-- CER_ACTIVATE (R352 of 07). -/
def execCerActivate (acc : Acc) (inst : Nat) (s : State) : Host.Outcome State Fault Refusal := .next (imRow s acc 0x13 inst none)
/-- MC_LOAD (R570 of 13). -/
def execMcLoad (acc : Acc) (inst : Nat) (ok : Bool) (data : Bytes) (s : State) : Host.Outcome State Fault Refusal :=
  .next (imRow s acc 0x14 inst (some (ok, data)))
end Sys2Proof.Machine
end

