-- ==== Sys2Proof/Machine/BridleCore.lean ====
section
/-! DEFINITION. Lines, link state, offices and views of the bridle (17_gondolas_and_bridle.md, R691 to R715, R719 to R723,
R919): what a change of a line or of the present set brings with it. -/

namespace Sys2Proof.Machine

/-- The bridle root's page. -/
def brlPage : Nat := 0x020

def modLine (s : State) (m : Nat) (f : Line → Line) : State := putLine s m (f (lineAt s m))
def modBridle (s : State) (f : Bridle → Bridle) : State := { s with bridle := f s.bridle }

/-- The line carries frames between its ends, keyed or in keying. -/
def lineLive (s : State) (m : Nat) : Bool := decide ((lineAt s m).lstate = .up ∨ (lineAt s m).lstate = .keying)

/-- A frame has come in: counted, acknowledged, and IDLE ends (R699; R865 of 22). -/
def takeFrame (s : State) (m flits : Nat) : State := wakeIdle (received s m flits)

/-- Takes part in a formation (R716, R721). -/
def forms (s : State) : Bool := s.bridle.record.isSome && decide (s.bridle.state = .forming ∨ s.bridle.state = .member)

/-- The gondolas that contain this device, innermost first (R727). -/
def ownGondolas (s : State) : List Nat := (List.range 9).filterMap (viewGondola s)

/-- UNIT_STATE of the view `k` levels up (R728). -/
def viewStateAt (s : State) (k : Nat) : UState :=
  match viewGondola s k with
  | none => .off
  | some g => viewState s g

/-! ### Forwards that are lost (R69, R700, R701) -/

/-- A forwarded job starts again (R69, R662 and R663 of 16): the fourth event ends it with 0x5001. `p`: what the job uses no
more, 0 for nothing. -/
def rerunForward (p : Nat) (s : State) (n : Nat) : State :=
  modJob s n fun j =>
    if j.phase ≠ .forwarded then j
    else if 3 ≤ j.reruns then
      { j with phase := .final, status := 0x5001, result := [], out := [], outLen := 0, leaf := [], fwdId := none, execMember := none }
    else { fresh5 j with
      reruns := j.reruns + 1, excluded := if p = 0 then j.excluded else p :: j.excluded, fwdId := none, execMember := none, nakRes := 0 }

/-- Outstanding forwards of this device with a forward identifier. -/
def forwardsOf (s : State) (id : Nat) : List Nat :=
  (s.jobs.filter fun e => decide (e.2.fwdId = some id ∧ e.2.origin = none ∧ e.2.phase = .forwarded)).map (·.1)

/-- NAK_RES for a forward; the third one runs the job again elsewhere (R701). -/
def askResult (s : State) (id : Nat) : State :=
  match (forwardsOf s id).head?.bind (jobAt s) with
  | none => s
  | some j =>
    let dest := j.execMember.getD 0
    if 2 ≤ j.nakRes then (forwardsOf s id).foldl (rerunForward (0x2000 + dest)) s
    else
      let s := (forwardsOf s id).foldl (fun s n => modJob s n fun j => { j with nakRes := j.nakRes + 1 }) s
      sendTo s dest (control 6 id [])

/-- A LOST notice at the origin (R701): of a FORWARD or of a RESULT. -/
def lostNotice (s : State) (id cls : Nat) : State :=
  let s := modBridle s fun b => { b with lost := b.lost + 1 }
  if cls = clsForward then (forwardsOf s id).foldl (rerunForward 0) s else askResult s id

/-- A FORWARD or RESULT frame is dropped, and its origin is told (R700). -/
def dropFrame (s : State) (f : Frame) : State :=
  if !needsCredit f then s
  else
    let origin := f.fwdId % 512
    if origin = selfMember s then lostNotice s f.fwdId f.cls
    else sendTo s origin (control 7 f.fwdId [BitVec.ofNat 8 f.cls])

/-! ### Spans (R653, R655) -/

/-- The window whose CREATE or RESTORE of instance `i` waits for the span (R653). -/
def spanWindow (s : State) (i : Nat) : Option Nat :=
  (List.range 3).find? fun a =>
    let w := winAt s a
    winBusy w && !w.waits && decide ((w.op = 0x01 ∨ w.op = 0x08) ∧ w.inst = i)

/-- A CREATE or RESTORE fails after its reservations (R649, R653): every one is released and the request ends with a code. -/
def spanEnd (s : State) (i code : Nat) : State :=
  match spanWindow s i with
  | none => s
  | some a =>
    let x := argInst (winAt s a)
    let s := ((spanMembers s x.span).getD []).foldl (fun s n => sendSpan s i 3 n x) s
    endRequest s a code

/-- A reservation fails (R653). -/
def spanRefused (s : State) (i : Nat) : State := spanEnd s i codeSpan

/-- Every member has reserved: the instance is created or restored (R653, R649). -/
def spanReady (s : State) (i : Nat) : State :=
  match spanWindow s i with
  | none => s
  | some a =>
    let w := winAt s a
    let ms := (spanMembers s (argInst w).span).getD []
    if !ms.all fun n => s.bridle.spanAcks.contains (i, n) then s
    else if w.op = 0x01 then endRequest (createGo s i w) a 0
    else
      let (s, c, p) := restoreCheck s i w
      if c ≠ 0 then spanEnd s i c else endRequest (restoreNow s i w p) a 0

/-- The window whose CER_ACTIVATE of instance `i` waits for reports of the span (R361 of 07). -/
def activateWindow (s : State) (i : Nat) : Option Nat :=
  (List.range 3).find? fun a =>
    let w := winAt s a
    winBusy w && !w.waits && decide (w.op = 0x13 ∧ w.inst = i)

/-- Every member still in the span has reported STAGED: the entry is armed at all of them (R361 of 07). -/
def activateReady (s : State) (i : Nat) : State :=
  match activateWindow s i with
  | none => s
  | some a =>
    let w := winAt s a
    let k := argOf w 0 % 32
    let pos := argOf w 1 + 2 ^ 32 * argOf w 2
    let ms := ((spanMembers s (instAt s i).span).getD []).filter fun n => !s.bridle.dropped.contains (i, n)
    if !ms.all fun n => s.bridle.spanAcks.contains (i, n) then s
    else
      let s := ms.foldl (fun s n => sendKbpk s n 2 i k (slotAt s k).gen pos [] []) (armActivate s k i pos)
      endRequest s a 0

/-- Instances whose span has member `n`, this device being their home. -/
def spansWith (s : State) (n : Nat) : List Nat :=
  (createdInsts s).filter fun i => ((spanMembers s (instAt s i).span).getD []).contains n

/-- A member has left the present set (R69, R655, R720). -/
def loseMember (s : State) (n : Nat) : State :=
  let fw := (s.jobs.filter fun e => decide (e.2.execMember = some n ∧ e.2.phase = .forwarded)).map (·.1)
  let s := fw.foldl (rerunForward (0x2000 + n)) s
  let is := spansWith s n
  let s := modBridle s fun b => { b with dropped := b.dropped ++ (is.map fun i => (i, n)).filter fun x => !b.dropped.contains x }
  let s := is.foldl activateReady s
  (List.range 3).foldl (fun s a =>
    let w := winAt s a
    if spanWindow s w.inst = some a ∧ ((spanMembers s (argInst w).span).getD []).contains n then spanRefused s w.inst else s) s

/-- A member that had dropped out of a span is back: it gets the current generation (R655). -/
def rejoinSpans (s : State) (n : Nat) : State :=
  (spansWith s n).foldl (fun s i =>
    let k := instKeys s i
    if s.bridle.dropped.contains (i, n) ∧ k.cur ≠ 0 then sendKbpk s n 4 i 0 k.cur 0 (kbpkKcv k.curKey) (key32 k.curKey) else s) s

/-! ### Offices and certificates (R711, R712, R715) -/

/-- SHA-256 of the held record. -/
def recordDigest (s : State) : Bytes := hashBytes (sha256 (heldRecord s))

/-- The gondola statement of R712. -/
def gondolaStatement (s : State) (g : Nat) (ec pq : Bytes) (pos : Nat) : Bytes :=
  ascii "ECZ-GONDOLA" ++ le 8 (recSystem (heldRecord s)) ++ le 8 (recSerial (heldRecord s)) ++ le 2 g ++ recordDigest s ++ ec ++ pq ++
    le 8 pos

/-- A signature by this device's P-384 identity key (R712). -/
def identitySig (s : State) (body : Bytes) : Bytes × State :=
  let (rnd, s) := freeBytes (passKeel s 1) 32
  (Config.out .sign [[2#8], be 48 Config.identityEcPriv.toNat, body, rnd] 96, s)

/-- Events of the view pages and BRL_FORM_STATUS.STATE after a change (R720, R728, R730, R732). -/
def viewEvents (old s : State) : State :=
  let s := (List.range 9).foldl (fun s k =>
    let a := viewStateAt old k
    let b := viewStateAt s k
    if a = b then s
    else
      let s := setEvent s (0x010 + k) 0
      if a = .running ∧ b = .starting then setEvent s (0x010 + k) 17 else s) s
  if !forms s then s
  else if viewState s (recOutermost (heldRecord s)) = .running then
    if s.bridle.state = .member then s else setEvent (modBridle s fun b => { b with state := .member }) brlPage 16
  else modBridle s fun b => { b with state := .forming }

/-- The certificate of gondola `g` comes into force (R712, R719). -/
def certInForce (s : State) (g : Nat) (c : GCert) : State :=
  let s := modBridle s fun b => { b with certs := tput b.certs g c }
  (List.range 9).foldl (fun s k => if viewGondola s k = some g then setEvent s (0x010 + k) 16 else s) s

/-- A CERT message (R712). -/
def certFrame (g : Nat) (c : GCert) : Frame := formation 8 ([g, c.pos, c.root] ++ c.cosigners) [c.pub]

/-- The co-signers satisfy the quorum of the gondola, and they are at least two (R712, R714). -/
def cosignQuorum (s : State) (g : Nat) (ns : List Nat) : Bool :=
  decide (2 ≤ ns.length) && gondolaUpIn (heldRecord s) ns 9 g

/-- The root issues the certificate once the quorum co-signs (R712). -/
def tryIssue (s : State) (g : Nat) : State :=
  match tfind s.bridle.keys g with
  | none => s
  | some k =>
    let ns := k.cosigns.map (·.1)
    let c : GCert := { pos := k.pos, root := selfMember s, pub := k.pub, cosigners := ns }
    let issued : Bool := match tfind s.bridle.certs g with
      | some c => decide (c.pub = k.pub)
      | none => false
    if issued ∨ !cosignQuorum s g ns then s else flood (certInForce s g c) none (certFrame g c)

/-- The root in office of a gondola that is up makes its key pairs and asks for co-signatures (R712). -/
def issueKeys (s : State) (g : Nat) : State :=
  let self := selfMember s
  if rootInOffice s g ≠ some self ∨ !gondolaUp s g ∨ (tfind s.bridle.keys g).isSome then s
  else
    let (ec, s) := keelDraw s 48
    let (pq, s) := keelDraw s 32
    let pos := position s
    let pub := Config.out .publicOf [[2#8], ec] 97
    let pqPub := Config.out .publicOf [[0x0A#8], pq] 2592
    let st := gondolaStatement s g pub pqPub pos
    let (sig, s) := identitySig s st
    let k : GKey :=
      { pub := pub, priv := BitVec.ofNat 384 (unbe ec), pqPub := pqPub, pqPriv := BitVec.ofNat 256 (unbe pq), pos := pos
        statement := st, cosigns := [(self, sig)] }
    let s := modBridle s fun b => { b with keys := tput b.keys g k }
    let req := formation 6 [self, g, recSystem (heldRecord s), recSerial (heldRecord s), pos] [recordDigest s, pub, pqPub]
    let dests := (devicesIn (heldRecord s) g).filter fun n => n ≠ self && (presentSet s).contains n
    tryIssue (dests.foldl (fun s n => sendTo s n req) s) g

/-- A root of gondola `g` is in office (R711, R715, R730): ROOT_CHANGED after the first; keys of an earlier office go. -/
def setRoot (s : State) (g n : Nat) : State :=
  let was := rootInOffice s g
  let s := modBridle s fun b => { b with roots := tset none b.roots g (some n), keys := tdel b.keys g }
  if was.isSome ∧ was ≠ some n then setEvent s brlPage 20 else s

/-- This device takes the office of gondola `g` and floods ROOT (R711). -/
def takeOffice (s : State) (g : Nat) : State :=
  let self := selfMember s
  issueKeys (flood (setRoot s g self) none (formation 5 [g, self] [])) g

/-- A LINK_STATE of every other present device of `g` has come since this device's own latest (R711). -/
def linksSeen (s : State) (g : Nat) : Bool :=
  ((devicesIn (heldRecord s) g).filter fun n => n ≠ selfMember s && (presentSet s).contains n).all fun n =>
    match tfind s.bridle.links n with
    | some l => decide (s.bridle.version ≤ l.seen)
    | none => false

/-- No root of `g` is known, or the one known has been heard of and is not present (R711, R719): the office is vacant. -/
def officeVacant (s : State) (g : Nat) : Bool :=
  match rootInOffice s g with
  | none => true
  | some n => decide (n = selfMember s) || gone s n || (tfind s.bridle.links n).isSome

/-- Offices this device takes, and certificates it issues, as the link state now stands (R711, R712, R720). -/
def takeOffices (s : State) : State :=
  if !forms s ∨ s.bridle.noOffice then s
  else (ownGondolas s).foldl (fun s g =>
    let self := selfMember s
    if rootInOffice s g = some self then issueKeys s g
    else if computedRoot s g = some self ∧ linksSeen s g ∧ officeVacant s g then takeOffice s g
    else s) s

/-- After a change of link state, of membership or of an office (R709 to R712, R720). -/
def settle (old s : State) : State :=
  let now := presentSet s
  let was := s.bridle.wasPresent
  let gone := was.filter fun n => !now.contains n
  let new := now.filter fun n => n ≠ selfMember s && !was.contains n
  let s := modBridle s fun b => { b with wasPresent := now }
  let s := if gone.isEmpty then s else gone.foldl loseMember (setEvent s brlPage 18)
  let s := if new.isEmpty then s else new.foldl rejoinSpans (setEvent s brlPage 19)
  viewEvents old (takeOffices s)

/-! ### Line states (R693, R694, R709, R919) -/

/-- This device's LINK_STATE (R709). -/
def linkStateFrame (s : State) : Frame :=
  formation 4 ([selfMember s, s.bridle.version] ++ (ownLinks s).flatMap fun e => [e.1, e.2]) []

/-- A line has entered or left UP (R709). -/
def linkChanged (old s : State) : State :=
  let s := modBridle s fun b => { b with version := b.version + 1 }
  settle old (if forms s then flood s none (linkStateFrame s) else s)

/-- UNIT_STATE of an enabled line (R919). -/
def lineUnitState : LState → UState
  | .up | .retraining => .running
  | .mismatch => .quiesced
  | _ => .starting

/-- LSTATE of an enabled line changes, with the page's UNIT_STATE and events (R731, R919) (DEDUCED, log 78). -/
def setLine (s : State) (m : Nat) (ls : LState) : State :=
  let was := (lineAt s m).lstate
  if was = ls then s
  else
    let t := setUState (modLine s m fun l => { l with lstate := ls }) (linePage m) (lineUnitState ls)
    let t := match ls with
      | .up => setEvent t (linePage m) 16
      | .down => setEvent t (linePage m) 17
      | .mismatch => setEvent t (linePage m) 19
      | _ => t
    if was = .up ∨ ls = .up then linkChanged s t else t

/-- The frames that a line gives up: FORWARD and RESULT frames are dropped with LOST (R700, R720). -/
def dropFrames (s : State) (fs : List Frame) : State := fs.foldl dropFrame s

/-- A line goes down, with its keys and what it still had to send (R693, R720). -/
def lineDown (s : State) (m : Nat) : State :=
  let l := lineAt s m
  let s := modLine s m fun l => { l with
    positions := [], spareUsed := false, keyOut := none, keyIn := none, replay := [], waiting := [], tries := 0, naked := false }
  dropFrames (setLine s m .down) (l.replay ++ l.waiting)

/-- After a command that may stop or retire lines: those that were UP have been lost (R709, R720). -/
def linesAfter (old s : State) : State :=
  let lost := (List.range 64).filter fun m => decide ((lineAt old m).lstate = .up ∧ (lineAt s m).lstate ≠ .up ∧
    (unitAt s (linePage m)).state ≠ .running)
  if lost.isEmpty then s
  else
    let fs := lost.flatMap fun m => (lineAt old m).replay ++ (lineAt old m).waiting
    let s := lost.foldl (fun s m => setEvent (modLine s m fun l => { l with replay := [], waiting := [] }) (linePage m) 17) s
    dropFrames (linkChanged old s) fs

/-! ### Keying (R706) -/

/-- Step G3 begins on a trained line: HELLO is sent (R706). Without a record the line stays in KEYING. -/
def startKeying (s : State) (m : Nat) : State :=
  if !forms s then s
  else
    let (nonce, s) := keelDraw s 32
    let (eph, s) := keelDraw s 48
    let r := heldRecord s
    let s := modLine s m fun l => { l with nonce := nonce, ephemeral := BitVec.ofNat 384 (unbe eph), peerHello := [] }
    putFrame s m (formation 1 [recSystem r, recSerial r, m] [certOf s, recordDigest s, nonce])

/-- KEY with the ephemeral public keys of this end (R706). -/
def sendKey (s : State) (m : Nat) : State :=
  let eph := be 48 (lineAt s m).ephemeral.toNat
  putFrame s m (formation 2 [] [Config.out .publicOf [[2#8], eph] 97, Config.out .publicOf [[13#8], eph] 1568])

/-- A line passes from training, or from any trained state, to KEYING (R693, R708, R721). -/
def rekeyLine (s : State) (m : Nat) : State := startKeying (setLine s m .keying) m

/-- Formation begins again at step G3 on every trained line (R708, R721); MISMATCH ends. -/
def reformAll (s : State) : State :=
  (List.range 64).foldl (fun s m =>
    let st := (lineAt s m).lstate
    if st = .up ∨ st = .keying ∨ st = .mismatch then rekeyLine s m else s) s

end Sys2Proof.Machine
end

