-- ==== Sys2Proof/Machine/BridleForm.lean ====
section
/-! DEFINITION. Lines in training and keying, the formation record and the FORMATION messages (17_gondolas_and_bridle.md, R691 to
R722; R653 of 15; R361 of 07): the commands LINE_SIGNAL_DETECT to EXPEL and FORM_LOAD to FORM_CLEAR. -/

namespace Sys2Proof.Machine

/-! ### Training (R692, R693, R694, R673, R674) -/

/-- The line page is enabled and neither stopping, faulted nor retired. -/
def lineEnabled (s : State) (m : Nat) : Bool :=
  let u := unitAt s (linePage m)
  u.enable && decide (m < 64 ∧ (u.state = .starting ∨ u.state = .running ∨ u.state = .quiesced))

/-- The group of the line's first lane, whose spare it may use (R691, R692). -/
def groupOf (l : Line) : Nat := l.first / 30

/-- Training fails with CAUSE CONFIG (R692). -/
def lineConfigBad (s : State) (m : Nat) : Bool :=
  let l := lineAt s m
  decide (480 < l.first + l.count ∨ 32 < l.count) ||
  (List.range 64).any fun k =>
    let x := lineAt s k
    decide (k ≠ m) && lineEnabled s k && (decide (l.first < x.first + x.count ∧ x.first < l.first + l.count) ||
      (l.spare && x.spare && decide (groupOf l = groupOf x)))

/-- A lane is retired: recorded in the repair map, with LANE_RETIRED on its line (R673, R679 of 16, R731). -/
def retireLane (cause m : Nat) (s : State) (lane : Nat) : State :=
  if s.bridle.lanesRetired.contains lane then s
  else
    let s := modBridle (mapAppend s mapLane cause lane) fun b => { b with lanesRetired := b.lanesRetired ++ [lane] }
    setEvent s (linePage m) 18

/-- A line is retired (R674): its permanent fault awaits the record of R675. -/
def retireLine (s : State) (m : Nat) : State :=
  permanentFault (lineDown s m) (linePage m) 0x0B

/-- The line has no trainable lane left (R674). -/
def noLaneLeft (s : State) (m : Nat) : Bool :=
  let l := lineAt s m
  (List.range l.count).all (fun p => s.bridle.lanesRetired.contains (l.first + p)) &&
    !(l.spare && !s.bridle.lanesRetired.contains (480 + groupOf l) && !s.bridle.sparesUsed.contains (groupOf l))

/-- A training attempt fails (R693, R694): the third in a row retires the line. -/
def attemptFailed (s : State) (m cause : Nat) : State :=
  let l := lineAt s m
  let s := modLine s m fun l => { l with attempts := l.attempts + 1, cause := cause }
  if 2 ≤ l.attempts ∨ noLaneLeft s m then retireLine s m
  else if l.lstate = .training then setLine s m .down else s

/-- The retained frames are sent again after a retraining (R694). -/
def resendAll (s : State) (m : Nat) : State :=
  let l := lineAt s m
  let s := modLine s m fun l => { l with tx := (l.tx + (l.replay.map frameFlits).sum) % 2 ^ 64 }
  l.replay.foldl (fun s f => emit s (.frame m f)) s

/-- A training attempt ends (R693): `good` names the positions that trained at both ends, 32 the spare. -/
def trainingEnds (s : State) (m : Nat) (good : List Nat) : State :=
  let l := lineAt s m
  if !lineEnabled s m ∨ ¬ (l.lstate = .training ∨ l.lstate = .retraining) then s
  else if lineConfigBad s m then attemptFailed s m 1
  else
    let ok (p : Nat) : Bool := good.contains p && !s.bridle.lanesRetired.contains (l.first + p)
    let bad := (List.range l.count).filter fun p => !ok p
    let spare := l.spare && good.contains 32 && !s.bridle.lanesRetired.contains (480 + groupOf l) && !bad.isEmpty
    let ps := (List.range l.count).filter fun p => ok p || (spare && decide (bad.head? = some p))
    if ps.isEmpty then attemptFailed s m 2
    else
      let s := bad.foldl (fun s p => retireLane 0x0B m s (l.first + p)) s
      let s := if spare then modBridle s fun b => { b with
          sparesUsed := if b.sparesUsed.contains (groupOf l) then b.sparesUsed else b.sparesUsed ++ [groupOf l] } else s
      let (d, s) := freeNat s
      let s := modLine s m fun l => { l with
        positions := ps, spareUsed := spare, attempts := 0, cause := 0, delay := d % 2 ^ 16, laneErrs := [] }
      if l.lstate = .retraining then resendAll (setLine s m .up) m
      else rekeyLine (modLine s m fun l => { l with lseqOut := 0, lseqIn := 0, replay := [], credit := [], tries := 0, naked := false }) m

/-- Signal on an enabled line in DOWN (R693). -/
def signalDetect (s : State) (m : Nat) : State :=
  if lineEnabled s m ∧ (lineAt s m).lstate = .down then setLine s m .training else s

/-- Loss of lock on a lane (R693, R694): an UP line retrains; a line on which no lane holds lock waits in DOWN again, and so
does a MISMATCH line (R707). -/
def lossOfLock (s : State) (m lane : Nat) : State :=
  let l := lineAt s m
  if !lineEnabled s m then s
  else
    let left := l.positions.filter fun p => decide (l.first + p ≠ lane)
    match l.lstate with
    | .up =>
      if left = l.positions then s
      else
        let s := modLine s m fun l => { l with positions := left }
        if left.isEmpty then lineDown s m else setLine s m .retraining
    | .retraining | .keying | .training =>
      let s := modLine s m fun l => { l with positions := left }
      if left.isEmpty then lineDown s m else s
    | .mismatch => lineDown (modLine s m fun l => { l with cause := 0 }) m
    | .down => s

/-- A CRC error after replay on a lane of a line (R673): the sixteenth within one second of tether time retires the lane, and
the line retrains. -/
def laneError (s : State) (m pos : Nat) : State :=
  let l := lineAt s m
  let now := position s
  let errs := (l.laneErrs.filter fun e => decide (now < e.2 + 2 ^ 20)) ++ [(l.first + pos, now)]
  let s := modLine s m fun l => { l with laneErrs := errs }
  if errs.countP (fun e => decide (e.1 = l.first + pos)) < 16 then s
  else
    let s := retireLane 5 m s (l.first + pos)
    if noLaneLeft s m then retireLine s m
    else if l.lstate = .up then setLine s m .retraining else s

/-! ### Attestation (R706, R707, R708) -/

/-- The line enters MISMATCH (R707). -/
def lineMismatch (s : State) (m cause : Nat) : State := setLine (modLine s m fun l => { l with cause := cause }) m .mismatch

/-- A link entry joins this member and line with the peer and its line (R703, R707). -/
def linkListed (r : Bytes) (self m peer peerLine : Nat) : Bool :=
  (List.range (recCounts r).2.2).any fun k =>
    let o := recLink r k
    let a := (field r o 2, field r (o + 2) 1)
    let b := (field r (o + 3) 2, field r (o + 5) 1)
    decide ((a = (self, m) ∧ b = (peer, peerLine)) ∨ (b = (self, m) ∧ a = (peer, peerLine)))

/-- HELLO (R706, R707, R708). -/
def hello (s : State) (m : Nat) (cert : Bytes) (sysId serial : Nat) (digest : Bytes) (peerLine : Nat) (nonce : Bytes) : State :=
  if !lineLive s m then s
  else
    let s := takeFrame s m 2
    if !forms s then s
    else
      let s := if lineUp s m then rekeyLine s m else s
      let r := heldRecord s
      let same := decide (sysId = recSystem r)
      if !Config.check .x509 [cert] then lineMismatch s m 3
      else if same ∧ recSerial r < serial then putFrame s m (formation 3 [] [])
      else match recIndexOf r (Config.out .deviceFp [cert] 24) with
        | none => lineMismatch s m 4
        | some n =>
          if !linkListed r (selfMember s) m n peerLine then lineMismatch s m 5
          else if !same ∨ (serial = recSerial r ∧ digest ≠ recordDigest s) then lineMismatch s m 6
          else if serial < recSerial r then modLine s m fun l => { l with peer := some n }
          else
            let own := (lineAt s m).nonce
            sendKey (modLine s m fun l => { l with
              peer := some n, peerHello := pad 32 nonce ++ own ++ cert ++ digest ++ le 8 sysId ++ le 8 serial }) m

/-- The link keys of R706 from the three secrets, the nonces and the member numbers. -/
def linkKeys (self peer : Nat) (mine theirs ecdh : Bytes) (myNonce peerNonce : Bytes) : BitVec 256 × BitVec 256 :=
  let low := decide (self < peer)
  let secret := (if low then mine ++ theirs else theirs ++ mine) ++ ecdh
  let k := Config.out .kdf [secret, ascii "ECZ-LINK", if low then myNonce ++ peerNonce else peerNonce ++ myNonce] 64
  let a := BitVec.ofNat 256 (unbe (k.take 32))
  let b := BitVec.ofNat 256 (unbe (k.drop 32))
  if low then (a, b) else (b, a)

/-- What a newly keyed line tells its peer, before LINK_STATE (R711, R719): the roots in office and the certificates in force. -/
def greetPeer (s : State) (m : Nat) : State :=
  let s := s.bridle.roots.foldl (fun s e => match e.2 with
    | some n => sendOn s m (formation 5 [e.1, n] [])
    | none => s) s
  s.bridle.certs.foldl (fun s e => sendOn s m (certFrame e.1 e.2)) s

/-- KEY (R697, R706, R707) (DEDUCED, log 83). -/
def keyMessage (s : State) (m : Nat) (ecdh kem ct sigEc sigPq : Bytes) : State :=
  let l := lineAt s m
  if !lineLive s m then s
  else
    let s := takeFrame s m 2
    match l.peer with
    | none => s
    | some n =>
      if !forms s ∨ l.peerHello = [] then s
      else
        let transcript := l.peerHello ++ ecdh ++ kem
        if !Config.check .sign [[2#8], l.peerHello, sigEc, transcript] ∨ !Config.check .sign [[0x0A#8], l.peerHello, sigPq, transcript] then
          lineMismatch s m 7
        else
          let (rnd, s) := keelDraw s 32
          let (eph, s) : Bytes × State := if l.ephemeral = 0 then keelDraw s 48 else (be 48 l.ephemeral.toNat, s)
          let self := selfMember s
          let mine := Config.out .kemShared [[13#8], kem, rnd] 32
          let theirs := Config.out .kemDecaps [[13#8], eph, ct] 32
          let (o, i) := linkKeys self n mine theirs (Config.out .ecdh [eph, ecdh] 48) l.nonce (l.peerHello.take 32)
          let (sigs, s) := identitySigs s transcript []
          let s := putFrame s m (formation 2 [] [Config.out .kemEncaps [[13#8], kem, rnd] 1568, sigs])
          let s := modLine s m fun l => { l with keyOut := some o, keyIn := some i, ephemeral := 0 }
          if l.lstate = .keying then
            let s := modBridle s fun b => { b with left := b.left.filter (· ≠ n), expelled := b.expelled.filter (· ≠ n) }
            let s := setLine (greetPeer s m) m .up
            drainWaiting s m (lineAt s m).waiting.length
          else s

/-- The LSEQ of a direction has reached 2^47: new keys are agreed with KEY messages (R697). -/
def lseqRekey (s : State) (m : Nat) : State :=
  let l := lineAt s m
  if !lineUp s m ∨ l.ephemeral ≠ 0 ∨ (l.lseqOut < 2 ^ 47 ∧ l.lseqIn < 2 ^ 47) then s
  else
    let (eph, s) := keelDraw s 48
    sendKey (modLine s m fun l => { l with ephemeral := BitVec.ofNat 384 (unbe eph) }) m

/-! ### The record (R703 to R705, R708) -/

/-- Results of BRL_FORM_STATUS. -/
def formOk : Nat := 0
def formReadFault : Nat := 1
def formLifecycle : Nat := 2
def formFormat : Nat := 3
def formOwner : Nat := 4
def formSignature : Nat := 5
def formRollback : Nat := 6
def formNotListed : Nat := 7
def formState : Nat := 8
def formNotRoot : Nat := 9

/-- Length of a record without its signatures (R703). -/
def recBodyLen (r : Bytes) : Nat := 64 + 8 * (recCounts r).1 + 32 * (recCounts r).2.1 + 8 * (recCounts r).2.2

/-- Header and length (FORMAT of R704). -/
def recHeaderOk (r : Bytes) : Bool :=
  let (g, d, l) := recCounts r
  decide (slice r 0 4 = [0x45#8, 0x5A#8, 0x47#8, 0x31#8] ∧ field r 4 1 = 1 ∧ 1 ≤ field r 5 1 ∧ field r 5 1 ≤ 9 ∧ 1 ≤ g ∧ g ≤ 511 ∧
    2 ≤ d ∧ d ≤ 512 ∧ 1 ≤ l ∧ l ≤ 16384 ∧ field r 12 4 = 0 ∧ field r 56 8 = 0 ∧ r.length = recBodyLen r + 4723)

/-- Gondola entries (FORMAT of R704). -/
def recGondolasOk (r : Bytes) : Bool :=
  let gs := recGondolas r
  decide (gs.countP (fun g => decide (recParent r g = 0xFFFF)) = 1) &&
  decide (field r 5 1 = (gs.map (recDepth r)).foldl max 0 + 1) &&
  gs.all fun g =>
    let p := recParent r g
    let direct := (recMembers r).countP (fun n => decide (recHome r n = g)) + gs.countP fun h => decide (recParent r h = g)
    decide (field r (recGondola g + 7) 1 = 0 ∧ recDirect r g = direct ∧ 2 ≤ direct ∧ direct < 2 * recQuorum r g ∧
      recQuorum r g ≤ direct) &&
    (if p = 0xFFFF then decide (recDepth r g = 0) else decide (p < gs.length ∧ recDepth r g = recDepth r p + 1))

/-- Member entries (FORMAT of R704). -/
def recMembersOk (r : Bytes) : Bool :=
  (recMembers r).all (fun n => decide (recHome r n < (recCounts r).1 ∧ field r (recMember r n + 27) 5 = 0)) &&
  decide (((recMembers r).map (recFp r)).Nodup)

/-- Link entries (FORMAT of R704). -/
def recLinksOk (r : Bytes) : Bool :=
  let ls := List.range (recCounts r).2.2
  let d := (recCounts r).2.1
  let ends := ls.flatMap fun k =>
    let o := recLink r k
    [(field r o 2, field r (o + 2) 1), (field r (o + 3) 2, field r (o + 5) 1)]
  decide ends.Nodup && ends.all (fun e => decide (e.1 < d ∧ e.2 < 64)) &&
  ls.all fun k =>
    let o := recLink r k
    decide (field r o 2 ≠ field r (o + 3) 2 ∧ 1 ≤ field r (o + 6) 1 ∧ field r (o + 6) 1 ≤ 32 ∧ field r (o + 7) 1 = 0)

/-- SIG_EC and SIG_PQ under the owner root certificate (R703, R704). -/
def recSigned (s : State) (r : Bytes) : Bool :=
  let body := r.take (recBodyLen r)
  Config.check .sign [[2#8], s.lc.ownerCert, slice r (recBodyLen r) 96, body] &&
  Config.check .sign [[0x0A#8], s.lc.ownerCert, slice r (recBodyLen r + 96) 4627, body, ascii "ECZ-FORMATION"]

/-- The checks of R704 in order, 0 when all pass. -/
def recordCheck (s : State) (r : Bytes) : Nat :=
  if lifecycle s ≠ 2 then formLifecycle
  else if !(recHeaderOk r && recGondolasOk r && recMembersOk r && recLinksOk r) then formFormat
  else if slice r 32 24 ≠ ownerFp s then formOwner
  else if !recSigned s r then formSignature
  else
    let old := heldRecord s
    if s.bridle.record.isSome ∧ recSystem old = recSystem r ∧ (recSerial r < recSerial old ∨
        (recSerial r = recSerial old ∧ sha256 r ≠ sha256 old)) then formRollback
    else if (recIndexOf r deviceFp).isNone then formNotListed
    else formOk

/-- An accepted record replaces any held one and is kept (R705, R919); what belonged to the old one goes. -/
def adoptRecord (s : State) (r : Bytes) : State :=
  let t := modBridle s fun b => { b with
    record := some r, state := .forming, links := [], left := [], expelled := [], wasPresent := [], roots := [], certs := [],
    keys := [], loads := [], excluded := [] }
  viewEvents s (setEvent (keepLines t) brlPage 21)

/-- A record is loaded (R705): every enabled line forms again from step G2. -/
def loadRecord (s : State) (r : Bytes) : State :=
  let s := adoptRecord s r
  (List.range 64).foldl (fun s m =>
    if lineEnabled s m ∧ (lineAt s m).lstate ≠ .down then lineDown (modLine s m fun l => { l with attempts := 0, cause := 0 }) m else s) s

/-- RECORD (R708): an empty one asks for ours; a newer one is checked and adopted, forming again from step G3. -/
def recordMessage (s : State) (m : Nat) (data : Bytes) : State :=
  if !lineLive s m then s
  else
    let s := takeFrame s m (2 + (data.length + 63) / 64)
    if !forms s then s
    else
      let r := heldRecord s
      if data = [] then putFrame s m (formation 3 [] [r])
      else if recSystem data = recSystem r ∧ recSerial r < recSerial data ∧ recordCheck s data = 0 then
        reformAll (adoptRecord s data)
      else s

/-! ### Link state, roots, certificates (R709 to R715) -/

/-- LINK_STATE (R709): each version is taken and relayed once (DEDUCED, log 76). -/
def linkState (s : State) (m member version : Nat) (lines peers : List Nat) : State :=
  if !lineUp s m then s
  else
    let t := takeFrame s m 2
    let old := tfind t.bridle.links member
    let newer : Bool := match old with
      | some l => decide (l.version < version)
      | none => true
    if !forms t ∨ member = selfMember t ∨ !newer then t
    else
      let t := modBridle t fun b => { b with
        links := tput b.links member { version := version, links := lines.zip peers, seen := b.version }
        left := b.left.filter (· ≠ member), expelled := b.expelled.filter (· ≠ member) }
      settle s (flood t (some m) { formation 4 ([member, version] ++ (lines.zip peers).flatMap fun e => [e.1, e.2]) [] with src := member })

/-- A ROOT agrees with this member's own computation (R711), or with that computation once the root in office has given up its
office (R720). A ROOT that the peer of line `m` sends after keying, before its LINK_STATE names the line, teaches a joining
device a root in office it does not know (R711, R719) (DEDUCED, log 83). -/
def agreesRoot (s : State) (m g n : Nat) : Bool :=
  let r := heldRecord s
  let here := (devicesIn r g).filter fun k => (presentSet s).contains k
  (rootInOffice s g).isNone && (lineAt s m).peer.any (fun p => !joined s (selfMember s) p) ||
  decide (computedRoot s g = some n ∨ computedRoot.bestOf r (here.filter fun k => some k ≠ rootInOffice s g) = some n)

/-- ROOT (R711). -/
def rootMessage (s : State) (m g n : Nat) : State :=
  if !lineUp s m then s
  else
    let t := takeFrame s m 3
    if !forms t ∨ rootInOffice t g = some n ∨ !agreesRoot t m g n then t
    else if n = selfMember t then (if t.bridle.noOffice then t else settle s (takeOffice t g))
    else settle s (flood (setRoot t g n) (some m) (formation 5 [g, n] []))

/-- COSIGN_REQ (R712): the statement agrees with the record, and COSIGN goes back. -/
def cosignReq (s : State) (m n g sysId serial : Nat) (digest ec pq : Bytes) (pos : Nat) : State :=
  if !lineUp s m then s
  else
    let s := takeFrame s m 46
    let r := heldRecord s
    if !forms s ∨ sysId ≠ recSystem r ∨ serial ≠ recSerial r ∨ digest ≠ recordDigest s ∨ (recCounts r).1 ≤ g then s
    else
      let (sig, s) := identitySig s (gondolaStatement s g ec pq pos)
      sendTo s n (formation 7 [selfMember s, g] [sig])

/-- COSIGN at the root (R712). -/
def cosign (s : State) (m n g : Nat) (sig : Bytes) : State :=
  if !lineUp s m then s
  else
    let t := takeFrame s m 4
    match tfind t.bridle.keys g with
    | none => t
    | some k =>
      if !Config.check .sign [[2#8], recFp (heldRecord t) n, sig, k.statement] ∨ k.cosigns.any (fun c => decide (c.1 = n)) ∨
          !(devicesIn (heldRecord t) g).contains n then t
      else
        let t := modBridle t fun b => { b with keys := tput b.keys g { k with cosigns := k.cosigns ++ [(n, sig)] } }
        settle s (tryIssue t g)

/-- CERT (R712, R714, R719). -/
def certMessage (s : State) (m g pos root : Nat) (pub : Bytes) (cosigners : List Nat) (data : Bytes) : State :=
  if !lineUp s m then s
  else
    let t := takeFrame s m (2 + (data.length + 63) / 64)
    let c : GCert := { pos := pos, root := root, pub := pub, cosigners := cosigners }
    let known : Bool := decide (tfind t.bridle.certs g = some c)
    if !forms t ∨ known ∨ rootInOffice t g ≠ some root ∨ !Config.check .x509 [data] ∨ !cosignQuorum t g cosigners then t
    else settle s (flood (certInForce t g c) (some m) (certFrame g c))

/-- SIGN_REQ at the root (R715): both signatures under the gondola keys go back. -/
def signReq (s : State) (m n g : Nat) (msg : Bytes) : State :=
  if !lineUp s m then s
  else
    let s := takeFrame s m (2 + (msg.length + 63) / 64)
    match tfind s.bridle.keys g with
    | none => s
    | some k =>
      let (rnd, s) := freeBytes (passKeel s 2) 64
      sendTo s n (formation 12 [selfMember s]
        [Config.out .sign [[2#8], be 48 k.priv.toNat, msg, rnd.take 32] 96,
         Config.out .sign [[0x0A#8], be 32 k.pqPriv.toNat, msg, rnd.drop 32] 4627])

/-- SIGNED at the member that asked (R715). This model asks for none (DEDUCED, log 85). -/
def signed (s : State) (m : Nat) : State := if lineUp s m then takeFrame s m 76 else s

/-! ### Span messages (R361 of 07, R653, R655 of 15) -/

/-- KBPK: 0 stage, 1 reported STAGED, 2 arm, 3 reported short of entries, 4 current generation, 5 reported held. -/
def kbpkMessage (s : State) (m n kind i k gen pos : Nat) (kcv key : Bytes) : State :=
  if !lineUp s m then s
  else
    let s := takeFrame s m 4
    let held := s.bridle.spanHeld.any fun h => decide (h.inst = i ∧ h.home = n)
    let kb := BitVec.ofNat 256 (unbe (pad 32 key))
    match kind with
    | 0 =>
      if !held ∨ s.kh.ripcorded ∨ (slotAt s k).state ≠ .empty then s
      else
        let s := putSlot s k { state := .collecting, gen := gen, inst := i, kcv := kcv }
        if kbpkKcv kb ≠ kcv then failSlot s k i 5
        else
          let s := stageSlot s k kb
          sendKbpk s n (if entriesLeft s < entriesNeeded s i then 3 else 1) i k gen 0 [] []
    | 1 => activateReady (modBridle s fun b => { b with
        spanAcks := if b.spanAcks.contains (i, n) then b.spanAcks else b.spanAcks ++ [(i, n)] }) i
    | 2 => if held ∧ (slotAt s k).state = .staged ∧ (slotAt s k).inst = i then armActivate s k i pos else s
    | 3 => match activateWindow s i with
      | some a => endRequest s a codeTableFull
      | none => s
    | 4 =>
      if !held ∨ s.kh.ripcorded ∨ kbpkKcv kb ≠ kcv then s
      else
        let s := putKeys s i { instKeys s i with cur := gen, curKey := kb }
        sendKbpk (persistKeys (dpEvent (keyChange s) i 4) i) n 5 i 0 gen 0 [] []
    | 5 => modBridle s fun b => { b with dropped := b.dropped.filter fun d => d ≠ (i, n) }
    | _ => s

/-- What a member holds of an instance leaves with it (R638 of 15). -/
def dropSpan (s : State) (i n : Nat) : State :=
  if !s.bridle.spanHeld.any (fun h => decide (h.inst = i ∧ h.home = n)) then s
  else
    let s := modBridle s fun b => { b with spanHeld := b.spanHeld.filter fun h => !decide (h.inst = i ∧ h.home = n) }
    dropInst s i

/-- SPAN: 0 reserve, 1 reserved, 2 refused, 3 release, 4 changed settings. -/
def spanMessage (s : State) (m n kind i kc ballast overlap : Nat) (mc : Bytes) : State :=
  if !lineUp s m then s
  else
    let s := takeFrame s m 3
    let h : SpanHeld := { inst := i, home := n, kc := kc, ballast := ballast, overlap := overlap, mc := mc }
    let others := s.bridle.spanHeld.filter fun h => !decide (h.inst = i ∧ h.home = n)
    match kind with
    | 0 =>
      let taken := (instAt s i).created || others.any fun h => decide (h.inst = i)
      if taken ∨ 262144 < kcShared s none + kc then sendSpan s i 2 n {}
      else sendSpan (modBridle s fun b => { b with spanHeld := others ++ [h] }) i 1 n {}
    | 1 => spanReady (modBridle s fun b => { b with
        spanAcks := if b.spanAcks.contains (i, n) then b.spanAcks else b.spanAcks ++ [(i, n)] }) i
    | 2 => spanRefused s i
    | 3 => dropSpan s i n
    | 4 => if others.length < s.bridle.spanHeld.length then modBridle s fun b => { b with spanHeld := others ++ [h] } else s
    | _ => s

/-! ### Leaving (R721, R722) -/

/-- LEAVE of a member (R721): out of the present set and of every span; each member relays it once. -/
def leaveMessage (s : State) (m n : Nat) : State :=
  if !lineUp s m then s
  else
    let t := takeFrame s m 3
    if !forms t ∨ n = selfMember t ∨ t.bridle.left.contains n then t
    else
      let t := flood t (some m) { formation 13 [n] [] with src := n }
      settle s (modBridle t fun b => { b with left := b.left ++ [n] })

/-- A member is expelled (R722): lines to it enter MISMATCH with CAUSE EXPELLED. -/
def expelMember (old s : State) (n : Nat) : State :=
  let s := modBridle s fun b => { b with expelled := if b.expelled.contains n then b.expelled else b.expelled ++ [n] }
  let s := (List.range 64).foldl (fun s m =>
    let l := lineAt s m
    if l.peer = some n ∧ (l.lstate = .up ∨ l.lstate = .keying ∨ l.lstate = .retraining) then lineMismatch s m 8 else s) s
  settle old s

/-- EXPEL (R722). -/
def expelMessage (s : State) (m n : Nat) : State :=
  if !lineUp s m then s
  else
    let t := takeFrame s m 3
    if !forms t ∨ t.bridle.expelled.contains n then t
    else expelMember s (flood t (some m) (formation 14 [n] [])) n

/-- The record and the kept line values are dropped (CLEAR of R705, R919). -/
def dropRecord (s : State) : State :=
  let t := modBridle (storeDrop s 3 0) fun b => { b with
    record := none, state := .none, links := [], left := [], expelled := [], wasPresent := [], roots := [], certs := [], keys := []
    loads := [], excluded := [], clearing := false }
  viewEvents s t

/-- BRL_FORM's command ends (R729, R730). -/
def endForm (s : State) (result : Nat) : State :=
  setEvent (modBridle s fun b => { b with busy := false, result := result }) brlPage 22

/-- LEAVE takes effect once no forward is in progress (R721, R705). -/
def tryLeave (s : State) : State :=
  let busy := jobsWhere s fun j => j.origin.isSome || decide (j.phase = .forwarded)
  if s.bridle.state ≠ .leaving ∨ busy then s
  else
    let self := selfMember s
    let t := flood s none (formation 13 [self] [])
    let t := modBridle t fun b => { b with state := .isolated, roots := b.roots.filter fun e => e.2 ≠ some self, keys := [] }
    let t := settle s (setEvent t brlPage 17)
    endForm (if s.bridle.clearing then dropRecord t else t) formOk

/-! ### BRL_FORM (R704, R705, R721, R722, R729) -/

/-- LOAD waits for the record from host memory. -/
def formLoadWaits (s : State) : Bool := s.bridle.busy && decide (s.bridle.state ≠ .leaving)

/-- LOAD with what its read returned (R704, R729). -/
def formLoad (s : State) (ok : Bool) (data : Bytes) : State :=
  if !ok then endForm s formReadFault
  else
    let r := slice data 0 s.bridle.recLen.toNat
    let c := recordCheck s r
    if c ≠ 0 then endForm s c else endForm (loadRecord s r) formOk

/-- JOIN (R721, R729): formation begins again at G3. -/
def formJoin (s : State) : State :=
  if s.bridle.state ≠ .isolated then endForm s formState
  else endForm (reformAll (modBridle s fun b => { b with state := .forming })) formOk

/-- LEAVE and CLEAR (R705, R721, R729). -/
def formLeave (s : State) (clear : Bool) : State :=
  if forms s then
    let t := modBridle s fun b => { b with state := .leaving, busy := true, clearing := clear }
    tryLeave (viewEvents s t)
  else if clear ∧ s.bridle.state = .isolated then endForm (dropRecord s) formOk
  else endForm s formState

/-- EXPEL (R722, R729). -/
def formExpel (s : State) : State :=
  if !forms s ∨ rootInOffice s (recOutermost (heldRecord s)) ≠ some (selfMember s) then endForm s formNotRoot
  else
    let n := s.bridle.target
    endForm (expelMember s (flood s none (formation 14 [n] [])) n) formOk

/-- A write of BRL_FORM with a CMD (R729): dropped while BUSY. LOAD stays BUSY until its read returns. -/
def formCmd (s : State) (cmd : Nat) : State :=
  if s.bridle.busy then s
  else match cmd with
    | 1 => modBridle s fun b => { b with busy := true }
    | 2 => formJoin s
    | 3 => formLeave s false
    | 4 => formExpel s
    | 5 => formLeave s true
    | _ => s

/-! ### Meanings -/

/-- LINE_SIGNAL_DETECT (R693). -/
def execLineSignalDetect (line : Nat) (s : State) : Host.Outcome State Fault Refusal := .next (signalDetect s line)
/-- LINE_TRAINING_ATTEMPT (R693). -/
def execLineTrainingAttempt (line : Nat) (good : List Nat) (s : State) : Host.Outcome State Fault Refusal :=
  .next (trainingEnds s line good)
/-- LANE_LOSS_OF_LOCK (R694). -/
def execLaneLossOfLock (line lane : Nat) (s : State) : Host.Outcome State Fault Refusal := .next (lossOfLock s line lane)
/-- LSEQ_REKEY (R697). -/
def execLseqRekey (line : Nat) (s : State) : Host.Outcome State Fault Refusal := .next (lseqRekey s line)
/-- HELLO (R706). -/
def execHello (line : Nat) (cert : Bytes) (sysId serial : Nat) (digest : Bytes) (peerLine : Nat) (nonce : Bytes) (s : State) :
    Host.Outcome State Fault Refusal := .next (hello s line cert sysId serial digest peerLine nonce)
/-- KEY (R706). -/
def execKey (line : Nat) (ecdh kem ct sigEc sigPq : Bytes) (s : State) : Host.Outcome State Fault Refusal :=
  .next (keyMessage s line ecdh kem ct sigEc sigPq)
/-- RECORD (R708). -/
def execRecord (line : Nat) (data : Bytes) (s : State) : Host.Outcome State Fault Refusal := .next (recordMessage s line data)
/-- LINK_STATE (R709). -/
def execLinkState (line member version : Nat) (lines peers : List Nat) (s : State) : Host.Outcome State Fault Refusal :=
  .next (linkState s line member version lines peers)
/-- ROOT (R711). -/
def execRoot (line gondola member : Nat) (s : State) : Host.Outcome State Fault Refusal := .next (rootMessage s line gondola member)
/-- COSIGN_REQ (R712). -/
def execCosignReq (line from_ gondola sysId serial : Nat) (digest ecPub pqPub : Bytes) (pos : Nat) (s : State) :
    Host.Outcome State Fault Refusal := .next (cosignReq s line from_ gondola sysId serial digest ecPub pqPub pos)
/-- COSIGN (R712). -/
def execCosign (line member gondola : Nat) (sig : Bytes) (s : State) : Host.Outcome State Fault Refusal :=
  .next (cosign s line member gondola sig)
/-- CERT (R713). -/
def execCert (line gondola pos root : Nat) (pub : Bytes) (cosigners : List Nat) (data : Bytes) (s : State) :
    Host.Outcome State Fault Refusal := .next (certMessage s line gondola pos root pub cosigners data)
/-- KBPK (R361 of 07). -/
def execKbpk (line from_ kind inst slot gen pos : Nat) (kcv key : Bytes) (s : State) : Host.Outcome State Fault Refusal :=
  .next (pumpRequests (kbpkMessage s line from_ kind inst slot gen pos kcv key))
/-- SPAN (R653 of 15). -/
def execSpan (line from_ kind inst kc ballast overlap : Nat) (mc : Bytes) (s : State) : Host.Outcome State Fault Refusal :=
  .next (pumpRequests (spanMessage s line from_ kind inst kc ballast overlap mc))
/-- SIGN_REQ (R715). -/
def execSignReq (line from_ gondola : Nat) (msg : Bytes) (s : State) : Host.Outcome State Fault Refusal :=
  .next (signReq s line from_ gondola msg)
/-- SIGNED (R715). -/
def execSigned (line _from : Nat) (_ec _pq : Bytes) (s : State) : Host.Outcome State Fault Refusal := .next (signed s line)
/-- LEAVE (R721). -/
def execLeave (line member : Nat) (s : State) : Host.Outcome State Fault Refusal := .next (leaveMessage s line member)
/-- EXPEL (R722). -/
def execExpel (line member : Nat) (s : State) : Host.Outcome State Fault Refusal := .next (expelMessage s line member)
/-- FORM_LOAD (R704): the command, or the record that a LOAD given before waits for. -/
def execFormLoad (acc : Acc) (ok : Bool) (data : Bytes) (s : State) : Host.Outcome State Fault Refusal :=
  .next (if !reaches s acc brlPage then s
    else if formLoadWaits s then formLoad s ok data
    else if s.bridle.busy then s else formLoad (formCmd s 1) ok data)
/-- FORM_JOIN (R729). -/
def execFormJoin (acc : Acc) (s : State) : Host.Outcome State Fault Refusal :=
  .next (if reaches s acc brlPage then formCmd s 2 else s)
/-- FORM_LEAVE (R721). -/
def execFormLeave (acc : Acc) (s : State) : Host.Outcome State Fault Refusal :=
  .next (if reaches s acc brlPage then formCmd s 3 else s)
/-- FORM_EXPEL (R722). -/
def execFormExpel (acc : Acc) (s : State) : Host.Outcome State Fault Refusal :=
  .next (if reaches s acc brlPage then formCmd s 4 else s)
/-- FORM_CLEAR (R705). -/
def execFormClear (acc : Acc) (s : State) : Host.Outcome State Fault Refusal :=
  .next (if reaches s acc brlPage then formCmd s 5 else s)

end Sys2Proof.Machine
end

