-- ==== Sys2Proof/Machine/Bridle.lean ====
section
/-! DEFINITION. Forwarded work, relaying and the CONTROL frames of the bridle (R31, R32, R47, R66 to R70 of 01; R362 of 07; R573 of
13; R698 to R702, R724, R725 of 17): the commands FORWARD to RESULT, FRAME_RELAY, ACK to LOAD, LOAD_FLOOD, and those commands of
other families that a line or a forward takes part in. -/

namespace Sys2Proof.Machine

/-! ### Frames of forwarded work (R31, R66, R696) -/

/-- The forward identifier of R66; the ring is named by its pool number (DEDUCED, log 81). -/
def fwdIdOf (s : State) (j : Job) : Nat :=
  selfMember s + 2 ^ 9 * j.inst + 2 ^ 19 * j.gen + 2 ^ 27 * (ringAt s (ringKey j.inst j.ring)).pool.getD 0 + 2 ^ 39 * j.index

/-- An item padded with zero bytes to a multiple of 8 (R696). -/
def pad8 (b : Bytes) : Bytes := pad ((b.length + 7) / 8 * 8) b

/-- The GMAC tag of R31 over the items and the identifier, under the pairwise key of the two members' channels. -/
def fwdTag (s : State) (a b id : Nat) (items : Bytes) : Bytes :=
  let r := heldRecord s
  let key := Config.out .pairwise [recFp r (min a b), recFp r (max a b)] 32
  Config.out .gmac [key, le 8 id ++ items] 16

/-- The tag at the end of a body verifies (R32). -/
def tagOk (s : State) (peer : Nat) (f : Frame) : Bool :=
  let n := f.body.length - 16
  decide (16 ≤ f.body.length ∧ fwdTag s (selfMember s) peer f.fwdId (f.body.take n) = f.body.drop n)

/-- Items of one job in a FORWARD (R696). -/
def fwdItems (j : Job) : Bytes := pad8 j.entry ++ pad8 j.blob1 ++ pad8 j.blob2 ++ pad8 j.input

/-- Flits granted back to the peer of a line (R696, R702): class, VLANE, flits. -/
def grant (s : State) (m : Nat) (f : Frame) : State := emit s (.flit m 3 (f.cls + 2 ^ 8 * f.vlane + 2 ^ 16 * frameFlits f))

/-! ### Sending a forward (R67, R160, R178, R724, R725) -/

/-- Members of a job's chain as the origin holds it, FIRST first. -/
def fwdChain (s : State) (j : Job) : List (Nat × Job) := chainOf s j

/-- Jobs on a channel whose result is not final (R724). -/
def chanLoad (s : State) (c : Nat) : Nat := s.jobs.countP fun e => decide (e.2.chan = some c) && undecided e.2

/-- The conditions of R724 on a chain. -/
def mayForward (s : State) (ms : List (Nat × Job)) (j : Job) : Bool :=
  let span := (instAt s j.inst).span
  decide (span ≠ 0) && decide (viewStateAt s (span - 1) = .running) && takesWork s brlPage &&
  ms.all (fun m => decide (eOp m.2.entry ≠ 0x0602 ∧ eOp m.2.entry ≠ 0x0603)) &&
  !(eOrdered j.entry && earlierWaits s j.first j) &&
  decide ((ms.map fun m => eInLen m.2.entry + eOutCap m.2.entry + m.2.blob1.length + m.2.blob2.length).sum ≤ 65536) &&
  (runningShare s j.inst).all fun c => decide (s.bridle.fwdDepth ≤ chanLoad s c)

/-- The better of two targets (R725): most idle channels, then fewest hops, then the lowest number. -/
def betterTarget (s : State) (a b : Nat) : Nat :=
  let idle (n : Nat) : Nat := (tget (0, 0) s.bridle.loads n).1
  let hops (n : Nat) : Nat := ((routeTo s n).map (·.hops)).getD 9
  if idle b < idle a ∨ (idle a = idle b ∧ (hops a < hops b ∨ (hops a = hops b ∧ a ≤ b))) then a else b

/-- The target of a forward of a job (R663, R725) (DEDUCED, log 84). -/
def fwdTarget (s : State) (j : Job) : Option Nat :=
  let ok (n : Nat) : Bool := (presentSet s).contains n && decide (0 < (tget (0, 0) s.bridle.loads n).1) &&
    !s.bridle.excluded.contains (j.inst, n) && !s.bridle.dropped.contains (j.inst, n) && !j.excluded.contains (0x2000 + n)
  match ((spanMembers s (instAt s j.inst).span).getD []).filter ok with
  | [] => none
  | n :: ns => some (ns.foldl (betterTarget s) n)

/-- The FORWARD frame of a chain (R67 F1, R362, R573). -/
def forwardFrame (s : State) (ms : List (Nat × Job)) (j : Job) (n : Nat) : Frame :=
  let id := fwdIdOf s j
  let items := ms.flatMap fun m => fwdItems m.2
  let mc := match imageSlot s j with
    | some k => imageDigest (tget {} s.mc.slots k).image
    | none => zeros 12
  { cls := clsForward, fwdId := id
    cdata := pad 40 ([BitVec.ofNat 8 (instKeys s j.inst).cur, BitVec.ofNat 8 ms.length, 0#8, 0#8] ++ mc)
    body := items ++ fwdTag s (selfMember s) n id items }

/-- FORWARD_SEND: the chain goes to the member that R725 picks. Later members of a chain read their blobs and inputs first, since
the whole chain goes in one frame (R150 of 03, R696). -/
def sendForward (s : State) (n dest : Nat) : State :=
  match jobAt s n with
  | none => s
  | some j =>
    let ms := fwdChain s j
    if j.phase ≠ .handoff ∨ n ≠ j.first ∨ j.origin.isSome ∨ fwdTarget s j ≠ some dest ∨ !mayForward s ms j then s
    else if ms.any fun m => decide (m.2.phase = .taken) then
      ms.foldl (fun s m => if m.2.phase = .taken then beginStep4 s m.1 else s) s
    else if ms.any fun m => decide (m.2.phase ≠ .handoff) then s
    else
      let f := forwardFrame s ms j dest
      let s := ms.foldl (fun s m => modJob s m.1 fun j => { j with phase := .forwarded, fwdId := some f.fwdId, execMember := some dest }) s
      sendTo (modBridle s fun b => { b with fwdOut := b.fwdOut + 1 }) dest f

/-! ### Executing a forward (R67 F3, R32, R47, R68, R362, R573) -/

/-- Jobs received under an identifier from a member. -/
def receivedJobs (s : State) (id origin : Nat) : List (Nat × Job) :=
  s.jobs.filter fun e => decide (e.2.fwdId = some id ∧ e.2.origin = some origin)

/-- Items of one result (R696). -/
def resultItems (j : Job) : Bytes := pad8 ((completion j).drop 1) ++ pad8 j.leaf ++ pad8 j.out

/-- Result and leaves return once every leaf of the chain is built (R67 F4), and are kept (R68). -/
def sendResult (s : State) (id origin : Nat) : State :=
  let ms := receivedJobs s id origin
  if ms.isEmpty ∨ ms.any fun m => decide (m.2.phase ≠ .leafBuilt ∧ m.2.phase ≠ .kept) then s
  else
    let items := ms.flatMap fun m => resultItems m.2
    let f : Frame := { cls := clsResult, fwdId := id, cdata := pad 40 [BitVec.ofNat 8 ms.length]
                       body := items ++ fwdTag s (selfMember s) origin id items }
    sendTo (ms.foldl (fun s m => modJob s m.1 fun j => { j with phase := .kept }) s) origin f

/-- One job of a received forward, parsed from the items at the front of a list, with what follows them. -/
def parseJob (b : Bytes) : Job × Bytes :=
  let e := slice b 0 64
  let cut (x : Bytes) (k : Nat) : Bytes := if blobCount e ≤ k then [] else x.take ((statedLen (pad 32 x)).getD 0)
  let rest (x y : Bytes) : Bytes := x.drop ((y.length + 7) / 8 * 8)
  let b := b.drop 64
  let b1 := cut b 0
  let b := rest b b1
  let b2 := cut b 1
  let b := rest b b2
  let input := pad (eInLen e) (b.take (eInLen e))
  let j : Job := { entry := e, blob1 := b1, blob1Done := decide (b1 ≠ []), blob2 := b2, blob2Done := decide (b2 ≠ []), input := input }
  (j, rest b input)

/-- Every job of a received forward. -/
def parseJobs : Nat → Bytes → List Job
  | 0, _ => []
  | n + 1, b => (parseJob b).1 :: parseJobs n (parseJob b).2

/-- The jobs of a forward are taken with ballast from the reserve or the general pool (R43, R67 F3). -/
def admitForward (s : State) (m : Nat) (f : Frame) (js : List Job) : State :=
  let id := f.fwdId
  let first := s.nextSerial
  let need := js.length
  let bufs := pickBufs s need
  let res := min need (freeReserve s)
  let put (s : State) (k : Nat) : State :=
    let j := js.getD k {}
    let j : Job := { j with
      inst := bits id 9 10, gen := bits id 19 8, index := bits id 39 16, first := first, members := js.length
      bufs := [bufs.getD k 0], fromReserve := if k < res then 1 else 0, phase := if k = 0 then .handoff else .taken
      fwdId := some id, origin := some (id % 512) }
    { s with jobs := tput s.jobs (first + k) j }
  let s := (List.range js.length).foldl put { s with nextSerial := first + js.length }
  let s := { s with ballast := { s.ballast with acquired := s.ballast.acquired + 1 } }
  grant (modBridle s fun b => { b with fwdIn := b.fwdIn + 1 }) m f

/-- A received forward takes its buffers, or waits with credit held while there are none (R47). -/
def tryForward (s : State) (m : Nat) (f : Frame) : Option State :=
  let js := parseJobs (field f.cdata 1 1) (f.body.take (f.body.length - 16))
  if freeReserve s + freeGeneral s < js.length then none else some (admitForward s m f js)

/-- Forwards that wait for ballast are taken in order (R47). -/
def fwdPump (s : State) : State :=
  let s := (List.range s.bridle.fwdWaiting.length).foldl (fun s _ =>
    match s.bridle.fwdWaiting with
    | [] => s
    | w :: rest => match tryForward s w.1 w.2 with
      | some t => modBridle t fun b => { b with fwdWaiting := rest }
      | none => s) s
  { s with ballast := { s.ballast with creditHeld := !s.bridle.fwdWaiting.isEmpty } }

/-- The gondola that this device and the home member share is up (R720), and this device executes for the span. -/
def executes (s : State) (i origin : Nat) : Bool :=
  let r := heldRecord s
  forms s && s.bridle.spanHeld.any (fun h => decide (h.inst = i ∧ h.home = origin)) &&
    match (ownGondolas s).find? fun g => (devicesIn r g).contains origin with
    | some g => gondolaUp s g
    | none => false

/-- A LOADED slot holds the image of a forward (R573). -/
def holdsImage (s : State) (mc : Bytes) : Bool :=
  decide (mc = zeros 12) || (List.range 4).any fun k => slotLoaded s k && decide (imageDigest (tget {} s.mc.slots k).image = mc)

/-- FORWARD (R67 F3). -/
def forwardIn (s : State) (m : Nat) (f : Frame) : State :=
  if !lineUp s m ∨ f.cls ≠ clsForward ∨ f.dst ≠ selfMember s then s
  else
    let s := takeFrame s m (frameFlits f)
    let id := f.fwdId
    let origin := id % 512
    let i := bits id 9 10
    let back (reason : Nat) : State := grant (sendTo s origin (control 8 id [BitVec.ofNat 8 reason])) m f
    if !tagOk s origin f then grant (sendTo (charge s (linePage m) 6) origin (control 5 id [])) m f
    else if s.bridle.state = .leaving ∨ s.bridle.state = .isolated ∨ !takesWork s 0 ∨ !takesWork s brlPage then back 3
    else if !(receivedJobs s id origin).isEmpty then
      if (receivedJobs s id origin).all fun e => decide (e.2.phase = .kept) then grant (sendResult s id origin) m f else grant s m f
    else if s.bridle.fwdWaiting.any fun w => decide (w.2.fwdId = id) then grant s m f
    else if !executes s i origin then back 3
    else if (instKeys s i).cur = 0 ∨ (instKeys s i).cur ≠ field f.cdata 0 1 then back 1
    else if !holdsImage s (slice f.cdata 4 12) then back 2
    else fwdPump (modBridle s fun b => { b with fwdWaiting := b.fwdWaiting ++ [(m, f)] })

/-! ### The result at the origin (R67 F5 and F6, R68, R701) -/

/-- The origin acknowledges forwards whose leaves are all committed (R67 F5, R68). -/
def ackForwards (s : State) : State :=
  let ids := (s.jobs.filterMap fun e => if e.2.origin = none then e.2.fwdId else none).dedup
  ids.foldl (fun s id =>
    let ms := s.jobs.filter fun e => decide (e.2.origin = none ∧ e.2.fwdId = some id)
    if ms.any fun e => decide (e.2.phase ≠ .committed) then s
    else
      let dest := ((ms.head?.bind fun e => e.2.execMember)).getD 0
      let s := sendTo s dest (control 4 id [])
      ms.foldl (fun s e => modJob s e.1 fun j => { j with fwdId := none }) s) s

/-- The result of one job, read from the items at the front of a list, with what follows them. -/
def parseResult (b : Bytes) (j : Job) : Job × Bytes :=
  let c := slice b 0 63
  let status := field c 1 2
  let outLen := field c 15 4
  let n := if status = 0 then outLen else 0
  ({ j with phase := .leafBuilt, status := status, outLen := outLen, result := slice c 19 44, leaf := slice b 64 64
            out := pad n ((b.drop 128).take n) }, b.drop (128 + (n + 7) / 8 * 8))

/-- Results of a chain, in ring order. -/
def takeResults (s : State) : List Nat → Bytes → State
  | [], _ => s
  | n :: ns, b =>
    match jobAt s n with
    | none => takeResults s ns b
    | some j => takeResults (modJob s n fun _ => (parseResult b j).1) ns (parseResult b j).2

/-- RESULT (R67 F5): the leaf is committed to the instance's log and the result acknowledged. -/
def resultIn (s : State) (m : Nat) (f : Frame) : State :=
  if !lineUp s m ∨ f.cls ≠ clsResult ∨ f.dst ≠ selfMember s then s
  else
    let s := grant (takeFrame s m (frameFlits f)) m f
    let ns := forwardsOf s f.fwdId
    if ns.isEmpty then s
    else if !tagOk s f.src f then askResult (charge s (linePage m) 6) f.fwdId
    else
      let s := takeResults s ns (f.body.take (f.body.length - 16))
      tryLeave (ackForwards (ns.foldl tryCommit s))

/-- RETURNED (R362 of 07, R573 of 13, R725): the job runs here or elsewhere; no fault, no re-run. -/
def returnedIn (s : State) (m : Nat) (f : Frame) : State :=
  if !lineUp s m ∨ f.cls ≠ clsControl then s
  else
    let s := takeFrame s m 2
    let ns := forwardsOf s f.fwdId
    let reason := field f.cdata 1 1
    let s := modBridle s fun b => { b with
      returned := b.returned + 1
      excluded := if reason = 1 ∨ reason = 2 then b.excluded ++ [(bits f.fwdId 9 10, f.src)] else b.excluded }
    tryLeave (ns.foldl (fun s n => modJob s n fun j => { j with phase := .handoff, fwdId := none, execMember := none }) s)

/-- FWD_ACK (R68): the kept result and leaf are dropped, their ballast is free. -/
def fwdAck (s : State) (m : Nat) (f : Frame) : State :=
  if !lineUp s m ∨ f.cls ≠ clsControl then s
  else
    let s := takeFrame s m 2
    let ms := (receivedJobs s f.fwdId (f.fwdId % 512)).filter fun e => decide (e.2.phase = .kept)
    let s := ms.foldl (fun s e => dropLingering (retireJob s e.1) e.2.inst) s
    tryLeave (fwdPump s)

/-- NAK_RES (R701): the kept result is sent again. -/
def nakRes (s : State) (m : Nat) (f : Frame) : State :=
  if !lineUp s m ∨ f.cls ≠ clsControl then s else sendResult (takeFrame s m 2) f.fwdId (f.fwdId % 512)

/-- NAK_FWD and LOST (R701). -/
def noticeIn (s : State) (m : Nat) (f : Frame) (lost : Bool) : State :=
  if !lineUp s m ∨ f.cls ≠ clsControl then s
  else
    let s := takeFrame s m 2
    tryLeave (if lost then lostNotice s f.fwdId (field f.cdata 1 1) else (forwardsOf s f.fwdId).foldl (rerunForward 0) s)

/-! ### Relaying, acknowledgement, replay, credit (R698 to R702) -/

/-- A frame for another member (R698): it goes on with VLANE + 1; when its trailer fails, it ends with STOMP and the upstream line
replays it. -/
def relay (s : State) (m : Nat) (f : Frame) (ok : Bool) : State :=
  if !lineUp s m ∨ f.dst = selfMember s ∨ f.dst = 0xFFFF then s
  else
    let f' := { f with vlane := f.vlane + 1 }
    let room := decide (f.vlane < 7)
    match if room then routeTo s f.dst else none with
    | none => if ok then dropFrame (takeFrame s m (frameFlits f)) f else crcFailed (charge s (linePage m) 5) m
    | some r =>
      if ok then grant (sendOn (takeFrame s m (frameFlits f)) r.line f') m f
      else
        let s := modLine (crcFailed (charge s (linePage m) 5) m) m fun l => { l with stomped := l.stomped + 1 }
        let n := (lineAt s r.line).lseqOut
        emit (putFrame s r.line f') (.flit r.line 4 n)

/-- ACK (R699): frames up to LSEQ leave the replay buffer. -/
def ackIn (s : State) (m lseq : Nat) : State :=
  let l := lineAt s m
  let keep := l.replay.filter fun f => decide (lseq < f.lseq)
  if !lineLive s m then s
  else wakeIdle (modLine s m fun l => { l with replay := keep, tries := if keep.head? = l.replay.head? then l.tries else 0 })

/-- NAK (R699, R700): frames from LSEQ on are replayed; after the third replay of its first frame the line retrains. -/
def nakIn (s : State) (m lseq : Nat) : State :=
  if !lineLive s m then s
  else
    let s := wakeIdle s
    let l := lineAt s m
    let left := l.replay.filter fun f => decide (lseq ≤ f.lseq)
    let tries := if left.head? = l.replay.head? then l.tries else 0
    match left with
    | [] => modLine s m fun l => { l with replay := [], tries := 0 }
    | f :: rest =>
      if 3 ≤ tries then
        let s := modLine s m fun l => { l with replay := if needsCredit f then rest else left, tries := 0 }
        let s := if lineUp s m then setLine s m .retraining else s
        dropFrame s f
      else
        let s := modLine s m fun l => { l with
          replay := left, tries := tries + 1, replays := l.replays + w32 left.length
          tx := (l.tx + (left.map frameFlits).sum) % 2 ^ 64 }
        left.foldl (fun s f => emit s (.frame m f)) s

/-- CREDIT (R702): flits of a class and VLANE are granted, and frames that waited go on. -/
def creditIn (s : State) (m cls vlane flits : Nat) : State :=
  if !lineLive s m then s
  else
    let k := creditKey cls vlane
    let s := modLine (wakeIdle s) m fun l => { l with credit := tset 0 l.credit k (tget 0 l.credit k + flits) }
    if lineUp s m then drainWaiting s m (lineAt s m).waiting.length else s

/-! ### LOAD (R696, R725) -/

/-- Idle channels: RUNNING and without a job (R725). -/
def idleChannels (s : State) : Nat := (List.range 34).countP fun c => isRunning s (chanPage c) && chanIdle s c

/-- A LOAD frame. -/
def loadFrame (n idle free : Nat) : Frame := { control 9 0 (BitVec.ofNat 8 idle :: le 2 free) with src := n, dst := 0xFFFF }

/-- LOAD of a member (R725): exclusions of that member end; relayed once. -/
def loadIn (s : State) (m n idle free : Nat) : State :=
  if !lineUp s m then s
  else
    let s := takeFrame s m 2
    if !forms s ∨ n = selfMember s then s
    else
      let fresh := decide (tfind s.bridle.loads n ≠ some (idle, free))
      let s := modBridle s fun b => { b with loads := tput b.loads n (idle, free), excluded := b.excluded.filter fun e => e.2 ≠ n }
      if fresh then flood s (some m) (loadFrame n idle free) else s

/-- LOAD_FLOOD (R725): 100 µs after its last LOAD, and with an idle count changed by 4 or more, a member floods LOAD. -/
def loadFlood (s : State) : State :=
  let n := idleChannels s
  if !forms s ∨ (n < s.bridle.lastLoad + 4 ∧ s.bridle.lastLoad < n + 4) then s
  else flood (modBridle s fun b => { b with lastLoad := n }) none (loadFrame (selfMember s) n (freeGeneral s))

/-! ### Meanings -/

/-- RESULT_FINAL (R62): a received forward's result returns once every leaf of its chain is built (R67 F4). -/
def execResultFinal (job : Nat) (s : State) : Host.Outcome State Fault Refusal :=
  let t := resultFinal s job
  .next (match jobAt t job with
    | some j => match j.origin, j.fwdId with
      | some o, some id => sendResult t id o
      | _, _ => t
    | none => t)

/-- LEAF_COMMIT (R377 of 08): the origin acknowledges a forward whose leaf is committed (R67 F5). -/
def execLeafCommit (job : Nat) (s : State) : Host.Outcome State Fault Refusal := .next (ackForwards (tryCommit s job))

/-- BALLAST_WAIT_END (R48). -/
def execBallastWaitEnd (s : State) : Host.Outcome State Fault Refusal := .next (fwdPump (noteStall (ballastWaitEnd s)))

/-- UNIT_DISABLE (R102 of 02). -/
def execUnitDisable (acc : Acc) (page : Nat) (s : State) : Host.Outcome State Fault Refusal :=
  .next (if ctrlWrite s acc page then linesAfter s (noteCtrl (unitAt s page) (keepEnable (rebindAll (writeEnable0 s page)) page) page) else s)

/-- UNIT_DRAIN_COMPLETE (R102 of 02). -/
def execUnitDrainComplete (page : Nat) (s : State) : Host.Outcome State Fault Refusal :=
  .next (linesAfter s (rebindAll (drainComplete s page)))

/-- RETIRE_REQUEST (R90 of 02). -/
def execRetireRequest (acc : Acc) (page : Nat) (s : State) : Host.Outcome State Fault Refusal :=
  .next (linesAfter s (rebindAll (if headerWrite s acc page then requestRetire s page else s)))

/-- RETIREMENT_RECORDED (R675 of 16). -/
def execRetirementRecorded (page : Nat) (s : State) : Host.Outcome State Fault Refusal :=
  .next (linesAfter s (recordRetirement s page))

/-- TRANSIENT_FAULT (R661 of 16). A frame error of a bridle line, cause 0x05, is NAKed (R699); `job` then names the lane position
plus 1 that took the error, 0 for none (R673; DESIGN CHOICE, log 79). -/
def execTransientFault (page cause job : Nat) (s : State) : Host.Outcome State Fault Refusal :=
  .next (if 0x040 ≤ page ∧ page < 0x080 ∧ cause = 5 then
      let m := page - 0x040
      let s := if lineLive s m then crcFailed (charge s page 5) m else s
      if job = 0 ∨ !lineLive s m then s else laneError s m (job - 1)
    else takeFault s page cause job)

/-- FORWARD (R67). -/
def execForward (line : Nat) (frame : Frame) (s : State) : Host.Outcome State Fault Refusal := .next (forwardIn s line frame)
/-- FORWARD_SEND (R67). -/
def execForwardSend (job member : Nat) (s : State) : Host.Outcome State Fault Refusal := .next (sendForward s job member)
/-- RESULT (R67). -/
def execResult (line : Nat) (frame : Frame) (s : State) : Host.Outcome State Fault Refusal := .next (resultIn s line frame)
/-- FRAME_RELAY (R698). -/
def execFrameRelay (line : Nat) (frame : Frame) (ok : Bool) (s : State) : Host.Outcome State Fault Refusal :=
  .next (relay s line frame ok)
/-- ACK (R699). -/
def execAck (line lseq : Nat) (s : State) : Host.Outcome State Fault Refusal := .next (ackIn s line lseq)
/-- NAK (R699). -/
def execNak (line lseq : Nat) (s : State) : Host.Outcome State Fault Refusal := .next (nakIn s line lseq)
/-- CREDIT (R702). -/
def execCredit (line cls vlane flits : Nat) (s : State) : Host.Outcome State Fault Refusal := .next (creditIn s line cls vlane flits)
/-- FWD_ACK (R68 of 01). -/
def execFwdAck (line : Nat) (frame : Frame) (s : State) : Host.Outcome State Fault Refusal := .next (fwdAck s line frame)
/-- NAK_FWD (R701). -/
def execNakFwd (line : Nat) (frame : Frame) (s : State) : Host.Outcome State Fault Refusal := .next (noticeIn s line frame false)
/-- NAK_RES (R701). -/
def execNakRes (line : Nat) (frame : Frame) (s : State) : Host.Outcome State Fault Refusal := .next (nakRes s line frame)
/-- LOST (R701). -/
def execLost (line : Nat) (frame : Frame) (s : State) : Host.Outcome State Fault Refusal := .next (noticeIn s line frame true)
/-- RETURNED (R362 of 07). -/
def execReturned (line : Nat) (frame : Frame) (s : State) : Host.Outcome State Fault Refusal := .next (returnedIn s line frame)
/-- LOAD (R725). -/
def execLoad (line member idle free : Nat) (s : State) : Host.Outcome State Fault Refusal := .next (loadIn s line member idle free)
/-- LOAD_FLOOD (R725). -/
def execLoadFlood (s : State) : Host.Outcome State Fault Refusal := .next (loadFlood s)

end Sys2Proof.Machine
end

