-- ==== Sys2Proof/Machine/Host.lean ====
section
/-! DEFINITION. The host ports (22_host_ports_power_startup.md, R849 to R863, R888, R889): functions and their resets, links, SPDM and
IDE; the commands VF_ENABLE_WRITE to K_SET_STOP, PHYSICAL_FUNCTION_BUS_MASTER_ENABLE, PERST_RELEASE, and the two commands that end
the reset of a virtual function. -/

namespace Sys2Proof.Machine

def portAtN (s : State) (n : Nat) : Port := tget {} s.ports n
def putPortN (s : State) (n : Nat) (p : Port) : State := { s with ports := tset {} s.ports n p }

/-- The page of port `n` (R849). -/
def portPage (n : Nat) : Nat := 1 + n

/-! ### Virtual functions (R856, R635 of 15) -/

/-- Instances bound to port `n`. -/
def portInsts (s : State) (n : Nat) : List Nat := (createdInsts s).filter fun i => decide ((instAt s i).port = n)

/-- The last reset has taken effect: a recorded VF Enable takes effect, with VF_READY (R856, R892). -/
def vfSettle (s : State) (n : Nat) : State :=
  let p := portAtN s n
  let left := p.resetting.filter fun i => (instAt s i).waitWrap
  let s := putPortN s n { p with resetting := left }
  if left.isEmpty ∧ p.pending then
    setEvent (putPortN s n { p with resetting := [], pending := false, enabled := true }) (portPage n) 20
  else s

/-- VF Enable is cleared (R856): a Function Level Reset of every virtual function of the port. -/
def clearVfs (s : State) (n : Nat) : State :=
  let is := portInsts s n
  let s := is.foldl vfReset s
  let p := portAtN s n
  let p := { p with enabled := false, pending := false, numVf := 0, resetting := is.filter fun i => (instAt s i).waitWrap }
  putPortN s n p

/-- A write of VF Enable with NumVFs (R855, R856). -/
def writeVfEnable (s : State) (n : Nat) (on : Bool) (numVf : Nat) : State :=
  let p := portAtN s n
  if 2 ≤ n then s
  else if on then
    if p.enabled ∨ 1024 < numVf then s
    else if p.resetting.isEmpty then putPortN s n { p with enabled := true, numVf := numVf }
    else putPortN s n { p with pending := true, numVf := numVf }
  else if p.enabled ∨ p.pending then clearVfs s n
  else s

/-! ### Resets (R857, R888, R889, R890) -/

/-- Every per-accessor register of accessor `a` returns to reset (R317 of 06, R857). A manager request runs on, its result discarded. -/
def clearAccessor (s : State) (a : Nat) : State :=
  let w := winAt s a
  let s := putWin s a (if winBusy w then { w with args := [], discard := true } else {})
  { s with
    tether := { s.tether with posSnap := tdel s.tether.posSnap a, secSnap := tdel s.tether.secSnap a }
    evtSel := tdel s.evtSel a, evtRes := tdel s.evtRes a
    kh := { s.kh with selSlot := tdel s.kh.selSlot a, selInst := tdel s.kh.selInst a }
    audit := { s.audit with sel := tdel s.audit.sel a, snap := s.audit.snap.filter fun e => e.1 / 4 ≠ a }
    lanes := tmap (fun _ => {}) (fun _ (l : Lane) => { l with bytesSnap := tdel l.bytesSnap a }) s.lanes
    rng := { s.rng with blocksSnap := tdel s.rng.blocksSnap a }
    cores := tmap (fun _ => {})
      (fun _ (c : Core) => { c with instrSnap := tdel c.instrSnap a, stallSnap := tdel c.stallSnap a }) s.cores
    mc := { s.mc with sel := tdel s.mc.sel a }
    dbg := { s.dbg with lastSnap := tdel s.dbg.lastSnap a }
    faults := { s.faults with
      sel := tdel s.faults.sel a
      chans := tmap (fun _ => {}) (fun _ (c : Chan) => { c with posSnap := tdel c.posSnap a }) s.faults.chans }
    bridle := { s.bridle with
      serialSnap := tdel s.bridle.serialSnap a, routeSel := tdel s.bridle.routeSel a
      gvSel := s.bridle.gvSel.filter fun e => e.1 / 16 ≠ a
      lines := tmap (fun _ => {})
        (fun _ (l : Line) => { l with rxSnap := tdel l.rxSnap a, txSnap := tdel l.txSnap a }) s.bridle.lines }
    tamper := { s.tamper with logSel := tdel s.tamper.logSel a }
    mooring := { s.mooring with logSel := tdel s.mooring.logSel a, rtcSnap := tdel s.mooring.rtcSnap a }
    flash := { s.flash with winAddr := tdel s.flash.winAddr a }
    ccb := { s.ccb with accs := tdel s.ccb.accs a }
    tag := { s.tag with jrSel := tdel s.tag.jrSel a }
    lc := { s.lc with accs := tdel s.lc.accs a }
    otpRegs := { s.otpRegs with sel := tdel s.otpRegs.sel a }
    regs := s.regs.filter fun e => e.1 / 2 ^ 24 ≠ a + 1 }

/-- The configuration space of a port's physical function returns to reset, with its MSI-X table (R857, R888). -/
def configReset (s : State) (n : Nat) : State :=
  let s := clearVfs s n
  let p := portAtN s n
  putPortN { s with msix := s.msix.filter fun e => e.1 / 32 ≠ pfFunc n } n { p with bme := false, ctoDisable := true }

/-- RING_WAIT of every log after a change of what its writes wait for (R380 of 08, R858). -/
def noteRingWaits (s : State) : State := (createdInsts s).foldl noteRingWait s

/-- A Function Level Reset of a physical function (R857). -/
def pfReset (s : State) (n : Nat) : State :=
  if 2 ≤ n then s else noteRingWaits (pumpRequests (clearAccessor (configReset s n) n))

/-- PERSTn_N low (0), a hot reset (1), or link down (2) of a port (R888, R890). -/
def portReset (s : State) (n cause : Nat) : State :=
  if 2 ≤ n ∨ 2 < cause then s
  else
    let was := portAtN s n
    let s := configReset s n
    let p := portAtN s n
    let s := putPortN s n { p with
      up := false, l1 := false, speed := 0, width := 0, perst := if cause = 0 then true else p.perst
      streams := [], sessions := [], spdmVersion := false, spdmCaps := false, spdmAlgs := false, transcript := [] }
    let s := if was.up then setEvent s (portPage n) 17 else s
    let s := if cause = 0 ∧ !was.perst then setEvent s (portPage n) 18 else s
    let s := if cause = 0 ∧ (unitAt s (portPage n)).state = .stopping then tryStart (setUState s (portPage n) .off) (portPage n) else s
    noteRingWaits s

/-- The link reaches L0 (R889, R892): a STARTING port reaches RUNNING and its rings scan (R130 of 03). -/
def linkUp (s : State) (n speed width : Nat) : State :=
  let p := portAtN s n
  let u := unitAt s (portPage n)
  if 2 ≤ n ∨ p.perst ∨ p.up ∨ speed = 0 ∨ 5 < speed ∨ !([1, 2, 4, 8, 16].contains width) ∨ u.state = .off ∨ u.state = .stopping then s
  else
    let s := setEvent (putPortN s n { p with up := true, l1 := false, speed := speed, width := width }) (portPage n) 16
    let rootQuiet := decide ((unitAt s 0).state = .quiesced)
    let s := if u.state = .starting then setUState s (portPage n) (if u.quiesce || rootQuiet then .quiesced else .running) else s
    let s := (portInsts s n).foldl (fun s i => (ringsOf s i).foldl (fun s k => if ringActive s k then wakeRing s k else s) s) s
    noteRingWaits s

/-- Bus Master Enable of a physical function (R858). -/
def writePfBme (s : State) (n : Nat) (on : Bool) : State :=
  if 2 ≤ n then s else noteRingWaits (putPortN s n { portAtN s n with bme := on })

/-! ### IDE (R862, R863) -/

def streamAt (p : Port) (i : Nat) : IdeStream := tget {} p.streams i

/-- The stream is in the Secure state: a key set is in use in both directions and the link is up (R889). -/
def streamSecure (p : Port) (i : Nat) : Bool := (streamAt p i).rx.isSome && (streamAt p i).tx.isSome && p.up

/-- A received TLP that no Secure stream carries is discarded while REQUIRE is 1 (R863) (DEDUCED, log 89). -/
def tlpReceive (s : State) (n : Nat) (exempt : Bool) (stream : Nat) : State :=
  let p := portAtN s n
  if 2 ≤ n ∨ !p.require ∨ exempt ∨ (stream < 3 ∧ streamSecure p stream) then s
  else putPortN s n { p with plainDrops := sat 65535 (p.plainDrops + 1) }

/-- A TLP fails its integrity check (R863): its stream is Insecure. -/
def ideFail (s : State) (n i : Nat) : State :=
  let p := portAtN s n
  if 2 ≤ n ∨ 3 ≤ i ∨ !streamSecure p i then s
  else setEvent (putPortN s n { p with streams := tset {} p.streams i { streamAt p i with rx := none, tx := none } }) (portPage n) 19

/-! ### SPDM (R859 to R861, R873, R883) -/

/-- The DOE mailbox takes a data object (R873). -/
def doeOpen (s : State) (n : Nat) : Bool :=
  decide (n < 2) && (portAtN s n).up && decide (s.power.state ≠ .moored) && (s.power.ready || decide ((unitAt s 0).state = .faulted))

/-- SPDM codes of answers and errors (SPDM 1.2, outside the spec). -/
def spdmError : Nat := 0x7F
def spdmInvalid : Nat := 0x01
def spdmUnexpected : Nat := 0x04
def spdmUnspecified : Nat := 0x05
def spdmLimit : Nat := 0x0A

/-- An answer: version 1.2, its code and its content in the order the rules name it (PRESUMED, log 90). -/
def spdmAnswer (s : State) (n : Nat) (request : Bytes) (code : Nat) (content : Bytes) : State :=
  let a := [0x12#8, BitVec.ofNat 8 code] ++ content
  let p := portAtN s n
  emit (putPortN s n { p with transcript := p.transcript ++ request ++ a }) (.spdm n a)

def spdmFail (s : State) (n code : Nat) : State := emit s (.spdm n [0x12#8, BitVec.ofNat 8 spdmError, BitVec.ofNat 8 code])

/-- The identity key may sign (R299 of 05, R883). -/
def identityUsable (s : State) : Bool := decide (lifecycle s = 1 ∨ lifecycle s = 2)

/-- A signature over the connection's transcript by the device's P-384 identity key, after its cross-check (R861)
(DEDUCED, log 13). -/
def spdmSign (s : State) (n : Nat) (request content : Bytes) : Bytes × State :=
  identitySig s ((portAtN s n).transcript ++ request ++ content)

/-- A request that comes after version, capabilities and algorithms have been agreed. -/
def spdmReady (p : Port) : Bool := p.spdmVersion && p.spdmCaps && p.spdmAlgs

/-- GET_VERSION: a new connection (R859). -/
def spdmVersion (s : State) (n : Nat) (b : Bytes) : State :=
  if !doeOpen s n then s
  else
    let p := portAtN s n
    spdmAnswer (putPortN s n { p with spdmVersion := true, spdmCaps := false, spdmAlgs := false, transcript := [] }) n b 0x04 [0x12#8]

/-- GET_CAPABILITIES: CTExponent 16 (R859). -/
def spdmCaps (s : State) (n : Nat) (b : Bytes) : State :=
  let p := portAtN s n
  if !doeOpen s n then s
  else if !p.spdmVersion then spdmFail s n spdmUnexpected
  else spdmAnswer (putPortN s n { p with spdmCaps := true }) n b 0x61 [16#8]

/-- NEGOTIATE_ALGORITHMS: P-384, SHA-384, secp384r1, AES-256-GCM (R859). -/
def spdmAlgs (s : State) (n : Nat) (b : Bytes) : State :=
  let p := portAtN s n
  if !doeOpen s n then s
  else if !p.spdmCaps then spdmFail s n spdmUnexpected
  else
    spdmAnswer (putPortN s n { p with spdmAlgs := true }) n b 0x63
      (ascii "ECDSA-P384" ++ ascii "SHA-384" ++ ascii "secp384r1" ++ ascii "AES-256-GCM")

/-- The chain of slot 0: the intermediate, then the device certificate (R859). -/
def spdmChain (s : State) : Bytes := Config.out .x509 [[0#8]] (Config.measure .x509 [[0#8]]) ++ s.lc.deviceCert

/-- GET_DIGESTS: the SHA-384 digest of the chain of slot 0 (R859). -/
def spdmDigests (s : State) (n : Nat) (b : Bytes) : State :=
  if !doeOpen s n then s
  else if !spdmReady (portAtN s n) then spdmFail s n spdmUnexpected
  else spdmAnswer s n b 0x01 (Config.out .sha384 [spdmChain s] 48)

/-- GET_CERTIFICATE: the part of slot 0's chain that OFFSET and LENGTH ask for (R859). -/
def spdmCertificate (s : State) (n : Nat) (b : Bytes) : State :=
  if !doeOpen s n then s
  else if !spdmReady (portAtN s n) then spdmFail s n spdmUnexpected
  else if field b 2 1 ≠ 0 then spdmFail s n spdmInvalid
  else
    let part := ((spdmChain s).drop (field b 4 2)).take (field b 6 2)
    let left := (spdmChain s).length - field b 4 2 - part.length
    spdmAnswer s n b 0x02 (le 2 part.length ++ le 2 left ++ part)

/-- CHALLENGE (R861). -/
def spdmChallenge (s : State) (n : Nat) (b : Bytes) : State :=
  if !doeOpen s n then s
  else if !spdmReady (portAtN s n) then spdmFail s n spdmUnexpected
  else if !identityUsable s then spdmFail s n spdmUnspecified
  else
    let (nonce, s) := keelDraw s 32
    let content := Config.out .sha384 [spdmChain s] 48 ++ nonce
    let (sig, s) := spdmSign s n b content
    spdmAnswer s n b 0x03 (content ++ sig)

/-- The half that is not active, when it is valid (R860, R874). -/
def fallbackHalf (s : State) : Option Half :=
  let h := imageHalf s (1 - s.flash.half)
  if halfValid s h then some h else none

/-- Measurement block `k`, 1 to 9 (R860). -/
def measurement (s : State) (k : Nat) : Bytes :=
  let active := imageHalf s s.flash.half
  match k with
  | 1 => Config.out .firmware [[1#8]] 48
  | 2 => Config.out .firmware [[2#8], active.image] 48
  | 3 => Config.out .firmware [[3#8], active.image] 48
  | 4 => match fallbackHalf s with
    | some h => Config.out .firmware [[4#8], h.image] 48
    | none => zeros 48
  | 9 =>
    [BitVec.ofNat 8 (lifecycle s)] ++ le 2 (evidenceCount s.otp) ++
    [BitVec.ofNat 8 (bitAt s.flash.fallback 0), BitVec.ofNat 8 active.svn, BitVec.ofNat 8 (svnFloor s), 0#8, 0#8]
  | _ => if 5 ≤ k ∧ k ≤ 8 ∧ slotLoaded s (k - 5) then Config.out .sha384 [(tget {} s.mc.slots (k - 5)).image] 48 else zeros 48

/-- GET_MEASUREMENTS: the number of blocks, one block or all, signed where the request asks for it (R860, R861). -/
def spdmMeasurements (s : State) (n : Nat) (b : Bytes) : State :=
  let k := field b 3 1
  let sign := bit (field b 2 1) 0
  if !doeOpen s n then s
  else if !spdmReady (portAtN s n) then spdmFail s n spdmUnexpected
  else if 9 < k ∧ k ≠ 255 then spdmFail s n spdmInvalid
  else if sign && !identityUsable s then spdmFail s n spdmUnspecified
  else
    let content := if k = 0 then [9#8]
      else if k = 255 then ((List.range 9).map fun i => BitVec.ofNat 8 (i + 1) :: measurement s (i + 1)).flatten
      else BitVec.ofNat 8 k :: measurement s k
    if sign then
      let (sig, s) := spdmSign s n b content
      spdmAnswer s n b 0x60 (content ++ sig)
    else spdmAnswer s n b 0x60 content

/-- KEY_EXCHANGE begins a session (R859): at most four per port. -/
def spdmKeyExchange (s : State) (n : Nat) (b : Bytes) : State :=
  let p := portAtN s n
  if !doeOpen s n then s
  else if !spdmReady p then spdmFail s n spdmUnexpected
  else if !identityUsable s then spdmFail s n spdmUnspecified
  else if 4 ≤ p.sessions.length then spdmFail s n spdmLimit
  else
    let (eph, s) := keelDraw s 48
    let free := ((List.range 5).find? fun r => !p.sessions.any fun x => decide (x.id / 2 ^ 16 = r)).getD 0
    let secret := Config.out .kdf [Config.out .ecdh [eph, slice b 40 97] 48, p.transcript] 48
    let x : SpdmSession := { id := field b 4 2 + 2 ^ 16 * free, secret := BitVec.ofNat 384 (unbe secret) }
    let content := le 2 free ++ Config.out .publicOf [[2#8], eph] 97
    let (sig, s) := spdmSign s n b content
    let s := putPortN s n { portAtN s n with sessions := p.sessions ++ [x] }
    spdmAnswer s n b 0x64 (content ++ sig)

/-- FINISH completes the session begun last (R859). -/
def spdmFinish (s : State) (n : Nat) (b : Bytes) : State :=
  let p := portAtN s n
  if !doeOpen s n then s
  else match p.sessions.find? fun x => !x.established with
    | none => spdmFail s n spdmUnexpected
    | some x =>
      if Config.check .spdm [be 48 x.secret.toNat, p.transcript, b] then
        let done := p.sessions.map fun y => if y.id = x.id then { y with established := true } else y
        spdmAnswer (putPortN s n { p with sessions := done }) n b 0x65 []
      else spdmFail (putPortN s n { p with sessions := p.sessions.filter fun y => y.id ≠ x.id }) n spdmInvalid

/-- An established session of a port. -/
def sessionOf (s : State) (n id : Nat) : Option SpdmSession := (portAtN s n).sessions.find? fun x => x.established && decide (x.id = id)

/-- KEY_UPDATE: 1 updates the requester's direction, 2 both (R859). -/
def spdmKeyUpdate (s : State) (n id : Nat) (b : Bytes) : State :=
  if !doeOpen s n then s
  else match sessionOf s n id with
    | none => spdmFail s n spdmUnexpected
    | some x =>
      let op := field b 2 1
      let y := { x with
        updatesReq := if op = 1 ∨ op = 2 then x.updatesReq + 1 else x.updatesReq
        updatesRsp := if op = 2 then x.updatesRsp + 1 else x.updatesRsp }
      let p := portAtN s n
      spdmAnswer (putPortN s n { p with sessions := p.sessions.map fun z => if z.id = id then y else z }) n b 0x69 (b.drop 2)

/-- END_SESSION (R859). -/
def spdmEnd (s : State) (n id : Nat) : State :=
  if !doeOpen s n then s
  else match sessionOf s n id with
    | none => spdmFail s n spdmUnexpected
    | some _ =>
      let p := portAtN s n
      spdmAnswer (putPortN s n { p with sessions := p.sessions.filter fun z => z.id ≠ id }) n [] 0x6C []

/-- An IDE_KM object within an established session (R862). -/
def ideKm (s : State) (n id stream : Nat) (content : Bytes) (f : IdeStream → IdeStream) : State :=
  if !doeOpen s n then s
  else match sessionOf s n id with
    | none => spdmFail s n spdmUnexpected
    | some _ =>
      if 3 ≤ stream then spdmFail s n spdmInvalid
      else
        let p := portAtN s n
        spdmAnswer (putPortN s n { p with streams := tset {} p.streams stream (f (streamAt p stream)) }) n [] 0x7E content

/-- A key set of a stream: set 0 or 1, receive or transmit (R862). -/
def keySlot (set : Nat) (tx : Bool) : Nat := 2 * (set % 2) + bitAt tx 0

/-- K_SET_GO: the direction uses the key set, once programmed (R862). -/
def setGo (set : Nat) (tx : Bool) (x : IdeStream) : IdeStream :=
  if (tfind x.keys (keySlot set tx)).isNone then x
  else if tx then { x with tx := some (set % 2) } else { x with rx := some (set % 2) }

/-- K_SET_STOP (R862). -/
def setStop (set : Nat) (tx : Bool) (x : IdeStream) : IdeStream :=
  if tx then (if x.tx = some (set % 2) then { x with tx := none } else x)
  else if x.rx = some (set % 2) then { x with rx := none } else x

/-! ### Meanings -/

/-- VF_ENABLE_WRITE (R856). -/
def execVfEnableWrite (port : Nat) (on : Bool) (numVf : Nat) (s : State) : Host.Outcome State Fault Refusal :=
  .next (writeVfEnable s port on numVf)
/-- FUNCTION_LEVEL_RESET_PF (R857). -/
def execFunctionLevelResetPf (port : Nat) (s : State) : Host.Outcome State Fault Refusal := .next (pfReset s port)
/-- PORT_RESET (R888). -/
def execPortReset (port cause : Nat) (s : State) : Host.Outcome State Fault Refusal := .next (portReset s port cause)
/-- LINK_UP (R889). -/
def execLinkUp (port speed width : Nat) (s : State) : Host.Outcome State Fault Refusal := .next (linkUp s port speed width)
/-- COMPLETION_TIMEOUT (R852): the job's read ends as with an error completion, unless the timeout is disabled. -/
def execCompletionTimeout (job : Nat) (s : State) : Host.Outcome State Fault Refusal :=
  .next (match jobAt s job with
    | some j => if (portAtN s (instAt s j.inst).port).ctoDisable then s else hostRead s job false []
    | none => s)
/-- TLP_RECEIVE (R863). `stream` is 3 for a TLP that no stream carries. -/
def execTlpReceive (port : Nat) (exempt : Bool) (stream : Nat) (s : State) : Host.Outcome State Fault Refusal :=
  .next (tlpReceive s port exempt stream)
/-- IDE_INTEGRITY_FAIL (R863). -/
def execIdeIntegrityFail (port stream : Nat) (s : State) : Host.Outcome State Fault Refusal := .next (ideFail s port stream)
/-- GET_VERSION (R859). -/
def execGetVersion (port : Nat) (data : Bytes) (s : State) : Host.Outcome State Fault Refusal := .next (spdmVersion s port data)
/-- GET_CAPABILITIES (R859). -/
def execGetCapabilities (port : Nat) (data : Bytes) (s : State) : Host.Outcome State Fault Refusal := .next (spdmCaps s port data)
/-- NEGOTIATE_ALGORITHMS (R859). -/
def execNegotiateAlgorithms (port : Nat) (data : Bytes) (s : State) : Host.Outcome State Fault Refusal := .next (spdmAlgs s port data)
/-- GET_DIGESTS (R859). -/
def execGetDigests (port : Nat) (data : Bytes) (s : State) : Host.Outcome State Fault Refusal := .next (spdmDigests s port data)
/-- GET_CERTIFICATE (R859). -/
def execGetCertificate (port : Nat) (data : Bytes) (s : State) : Host.Outcome State Fault Refusal := .next (spdmCertificate s port data)
/-- SPDM_CHALLENGE (R861). -/
def execSpdmChallenge (port : Nat) (data : Bytes) (s : State) : Host.Outcome State Fault Refusal := .next (spdmChallenge s port data)
/-- GET_MEASUREMENTS (R860). -/
def execGetMeasurements (port : Nat) (data : Bytes) (s : State) : Host.Outcome State Fault Refusal :=
  .next (spdmMeasurements s port data)
/-- KEY_EXCHANGE (R859). -/
def execKeyExchange (port : Nat) (data : Bytes) (s : State) : Host.Outcome State Fault Refusal := .next (spdmKeyExchange s port data)
/-- FINISH (R859). -/
def execFinish (port : Nat) (data : Bytes) (s : State) : Host.Outcome State Fault Refusal := .next (spdmFinish s port data)
/-- KEY_UPDATE (R859). -/
def execKeyUpdate (port session : Nat) (data : Bytes) (s : State) : Host.Outcome State Fault Refusal :=
  .next (spdmKeyUpdate s port session data)
/-- END_SESSION (R859). -/
def execEndSession (port session : Nat) (s : State) : Host.Outcome State Fault Refusal := .next (spdmEnd s port session)
/-- QUERY (R862). -/
def execQuery (port session stream : Nat) (s : State) : Host.Outcome State Fault Refusal :=
  .next (ideKm s port session stream [BitVec.ofNat 8 stream] fun x => x)
/-- KEY_PROG (R862). -/
def execKeyProg (port session stream keySet : Nat) (tx : Bool) (key : Bytes) (s : State) : Host.Outcome State Fault Refusal :=
  .next (ideKm s port session stream [BitVec.ofNat 8 stream] fun x =>
    { x with keys := tput x.keys (keySlot keySet tx) (BitVec.ofNat 256 (unbe (pad 32 key))) })
/-- K_SET_GO (R862). -/
def execKSetGo (port session stream keySet : Nat) (tx : Bool) (s : State) : Host.Outcome State Fault Refusal :=
  .next (ideKm s port session stream [BitVec.ofNat 8 stream] (setGo keySet tx))
/-- K_SET_STOP (R862). -/
def execKSetStop (port session stream keySet : Nat) (tx : Bool) (s : State) : Host.Outcome State Fault Refusal :=
  .next (ideKm s port session stream [BitVec.ofNat 8 stream] (setStop keySet tx))
/-- PHYSICAL_FUNCTION_BUS_MASTER_ENABLE (R858). -/
def execPhysicalFunctionBusMasterEnable (port : Nat) (on : Bool) (s : State) : Host.Outcome State Fault Refusal :=
  .next (writePfBme s port on)
/-- PERST_RELEASE (R872): the port begins link training; LINK_UP tells its end. -/
def execPerstRelease (port : Nat) (s : State) : Host.Outcome State Fault Refusal :=
  .next (if port < 2 then putPortN s port { portAtN s port with perst := false } else s)
/-- GENERATION_WRAP_WAIT_END (R634 of 15). -/
def execGenerationWrapWaitEnd (inst : Nat) (s : State) : Host.Outcome State Fault Refusal :=
  .next (vfSettle (vfSettle (wrapWaitEnd s inst) 0) 1)
/-- FUNCTION_LEVEL_RESET_VF (R635 of 15). -/
def execFunctionLevelResetVf (inst : Nat) (s : State) : Host.Outcome State Fault Refusal := .next (vfReset s inst)

end Sys2Proof.Machine
end

