-- ==== Sys2Proof/Machine/PowerCmds.lean ====
section
/-! DEFINITION. Power states, staging of firmware and the lifecycle commands (22_host_ports_power_startup.md, R864 to R885, R888): the
commands IDLE_ENTRY to ZEROISE. -/

namespace Sys2Proof.Machine

/-! ### IDLE and STANDBY (R864 to R868) -/

/-- A manager request is BUSY. -/
def requestBusy (s : State) : Bool := s.im.windows.any fun e => winBusy e.2

/-- The conditions of R865 hold: no job, no manager request, no seal or key record in the making (DESIGN CHOICE, log 93). -/
def quiet (s : State) : Bool :=
  s.jobs.isEmpty && !requestBusy s && !s.audit.logs.any fun e => !e.2.seals.isEmpty || !e.2.keyRecs.isEmpty

/-- IDLE_DELAY in µs, 0 taken as 1 (PWR_CTRL). -/
def idleMicros (s : State) : Nat := max 1 s.power.idleDelay

/-- The power state changes, with POWER of R891. -/
def setPower (s : State) (p : PState) : State := setEvent { s with power := { s.power with state := p, quietSince := s.cycles } } 0 17

/-- The device enters IDLE (R865). -/
def enterIdle (s : State) : State :=
  if s.power.state = .run ∧ s.power.idleEn ∧ quiet s ∧ s.power.quietSince + usCycles (idleMicros s) ≤ s.cycles then setPower s .idle
  else s

/-- A program or erase of the flash is running. -/
def flashRuns (s : State) : Bool := (bankAt s 0).run.isSome || (bankAt s 1).run.isSome

/-- The checks of R866 in order, 0 when all pass. -/
def standbyCheck (s : State) : Nat :=
  if !(createdInsts s).isEmpty ∨ !s.im.tickets.isEmpty then 1
  else if s.bridle.state = .forming ∨ s.bridle.state = .member ∨ s.bridle.state = .leaving then 2
  else if requestBusy s ∨ s.power.fwState = 1 ∨ flashRuns s then 3
  else 0

/-- A channel and its units lose power (R866). -/
def channelOff (s : State) (c : Nat) : State :=
  let one (s : State) (p : Nat) : State :=
    if (unitAt s p).permanent ∨ (unitAt s p).state = .retired ∨ (unitAt s p).state = .off then s
    else modUnit (setUState s p .off) p fun u => { u with enable := false, pending := false }
  let s := (descendants (chanPage c)).foldl one (one s (chanPage c))
  { s with
    cores := s.cores.filter fun e => !(isChanPage e.1 && decide (chanOf e.1 = c))
    lanes := tmap (fun _ => {})
      (fun k (l : Lane) =>
        if k = c then { l with unwrap := none, port := none, job := none, help := none, split := none, busy := false } else l)
      s.lanes }

/-- A bridle line loses power (R866). -/
def lineOff (s : State) (m : Nat) : State := if (lineAt s m).lstate = .down then s else lineDown s m

/-- Power leaves the compute dies and the bridle, and each link is asked for L1 (R866). -/
def standbyNow (s : State) : State :=
  let s := (List.range 34).foldl channelOff s
  let s := (List.range 64).foldl lineOff s
  let l1 (s : State) (n : Nat) : State :=
    let p := portAtN s n
    if p.up then putPortN s n { p with l1 := true } else s
  setPower { l1 (l1 s 0) 1 with sig := { s.sig with tables := [] } } .standby

/-- PWR_CTRL.STANDBY = 1 (R866). -/
def requestStandby (s : State) : State :=
  if s.power.state = .standby ∨ s.power.state = .moored then s
  else
    let r := standbyCheck s
    let s := { s with power := { s.power with result := r } }
    if r = 0 then standbyNow s else s

/-! ### Firmware staging (R875, R883) -/

/-- What the read of an image set of FW_STAGE_LEN bytes leads to (R875): FW_STATUS.RESULT (DESIGN CHOICE, log 94). -/
def stageResult (s : State) (ok : Bool) (b : Bytes) : Nat :=
  if lifecycle s = 3 then 5
  else if !ok then 1
  else if s.power.stageLen.toNat = 0 ∨ 2 ^ 23 < s.power.stageLen.toNat ∨ Config.measure .firmware [b, [0#8]] ≠ b.length then 2
  else if !imageSigned b then 3
  else if imageSvn b < svnFloor s then 4
  else 0

/-- FW_CTRL.GO with what its read returned (R875, R891). -/
def stageFirmware (s : State) (ok : Bool) (data : Bytes) : State :=
  let b := slice data 0 s.power.stageLen.toNat
  let r := stageResult s ok b
  let staged := if r = 0 then some b else s.power.staged
  setEvent { s with power := { s.power with fwState := 2, fwResult := r, staged := staged } } 0 18

/-- A write of FW_CTRL.GO: the staging stays BUSY until its read returns (R875). -/
def fwGo (s : State) : State :=
  if s.power.fwState = 1 then s else { s with power := { s.power with fwState := 1 } }

/-! ### Lifecycle commands (R878 to R885) -/

def lcAt (s : State) (a : Nat) : LcAcc := tget {} s.lc.accs a
def putLc (s : State) (a : Nat) (x : LcAcc) : State := { s with lc := { s.lc with accs := tset {} s.lc.accs a x } }

/-- Codes of LC_RESULT. -/
def lcOk : Nat := 0
def lcBadCmd : Nat := 1
def lcLifecycle : Nat := 2
def lcReadFault : Nat := 3
def lcFormat : Nat := 4
def lcNonce : Nat := 5
def lcDevice : Nat := 6
def lcSignature : Nat := 7
def lcOwner : Nat := 8
def lcRollback : Nat := 9

/-- Both signatures over a body under a certificate's keys (R880). -/
def ownerSigned (cert body sigEc sigPq context : Bytes) : Bool :=
  Config.check .sign [[2#8], cert, sigEc, body] && Config.check .sign [[0x0A#8], cert, sigPq, body, context]

/-- SHIP (R878) (DEDUCED, log 95). -/
def ship (s : State) (ok : Bool) (b : Bytes) : State × Nat :=
  if lifecycle s ≠ 0 then (s, lcLifecycle)
  else if !ok then (s, lcReadFault)
  else if b = [] ∨ 65536 < b.length ∨ !Config.check .x509 [b, [2#8]] then (s, lcFormat)
  else if !Config.check .x509 [b] then (s, lcSignature)
  else
    let s := { s with lc := { s.lc with deviceCert := b } }
    (closeGate (lifecycleChanged 0 (burnLifecycle s 0)), lcOk)

/-- The nonce of a bundle against the one outstanding, which is consumed (R879). -/
def useNonce (s : State) (n : Bytes) : State × Bool :=
  ({ s with lc := { s.lc with nonce := none } }, decide (s.lc.nonce = some n))

/-- A commissioning bundle's fixed fields and length (FORMAT of R880). -/
def commissionFormat (b : Bytes) (len : Nat) : Bool :=
  let n := field b 8 4
  decide (slice b 0 4 = [0x45#8, 0x5A#8, 0x4F#8, 0x31#8] ∧ field b 4 1 = 1 ∧ field b 5 3 = 0 ∧ n ≤ 8192 ∧ len = 72 + n + 4723 ∧
    field b 68 4 = 0) && Config.check .x509 [slice b 72 n, [3#8]]

/-- COMMISSION (R880). -/
def commission (s : State) (ok : Bool) (b : Bytes) (len : Nat) : State × Nat :=
  let n := field b 8 4
  let cert := slice b 72 n
  let body := b.take (72 + n)
  if lifecycle s ≠ 1 then (s, lcLifecycle)
  else if !ok then (s, lcReadFault)
  else if !commissionFormat b len then (s, lcFormat)
  else
    let (s, good) := useNonce s (slice b 12 32)
    let fp := BitVec.ofNat 192 (unle (Config.out .deviceFp [cert] 24))
    if !good then (s, lcNonce)
    else if slice b 44 24 ≠ deviceFp then (s, lcDevice)
    else if !Config.check .x509 [cert, [4#8]] ∨
        !ownerSigned cert body (slice b (72 + n) 96) (slice b (168 + n) 4627) (ascii "ECZ-COMMISSION") then (s, lcSignature)
    else if s.otp.ownerFp &&& ~~~fp ≠ 0 then (s, lcOwner)
    else
      let s := otpBurned { s with lc := { s.lc with ownerCert := cert }, otp := { s.otp with ownerFp := s.otp.ownerFp ||| fp } }
      let s := raiseFloors (lifecycleChanged 1 (burnLifecycle s 1))
      (closeGate (writeLock s tamperPage), lcOk)

/-- An owner device list's fixed fields and length (FORMAT of R882). -/
def listFormat (b : Bytes) : Bool :=
  let n := field b 16 2
  decide (slice b 0 4 = [0x45#8, 0x5A#8, 0x4C#8, 0x31#8] ∧ field b 4 1 = 1 ∧ field b 5 3 = 0 ∧ 1 ≤ n ∧ n ≤ 4096 ∧ field b 18 6 = 0 ∧
    b.length = 48 + 24 * n + 4723)

/-- OWNER_LIST (R882). -/
def ownerList (s : State) (ok : Bool) (b : Bytes) : State × Nat :=
  let n := field b 16 2
  let body := b.take (48 + 24 * n)
  let serial := field b 8 8
  let held : Nat := match s.lc.list with
    | some l => l.1
    | none => 0
  if lifecycle s ≠ 2 then (s, lcLifecycle)
  else if !ok then (s, lcReadFault)
  else if !listFormat b then (s, lcFormat)
  else if slice b 24 24 ≠ ownerFp s then (s, lcOwner)
  else if !ownerSigned s.lc.ownerCert body (slice b (48 + 24 * n) 96) (slice b (144 + 24 * n) 4627) (ascii "ECZ-OWNERLIST") then
    (s, lcSignature)
  else if s.lc.list.isSome ∧ serial ≤ held then (s, lcRollback)
  else
    let fps := (List.range n).map fun k => slice b (48 + 24 * k) 24
    (storePut { s with lc := { s.lc with list := some (serial, fps) } } 4 0 (.ownerList serial fps), lcOk)

/-- What a ZEROISE that passes does (R881): as the RIPCORD_LOCK rung, but no firing. -/
def zeroiseNow (s : State) : State := zeroiseLock (ripcord s)

/-- A ZEROISE bundle's fixed fields and length (FORMAT of R881). -/
def zeroiseFormat (b : Bytes) (len : Nat) : Bool :=
  decide (slice b 0 4 = [0x45#8, 0x5A#8, 0x5A#8, 0x31#8] ∧ field b 4 1 = 1 ∧ field b 5 3 = 0 ∧ len = 4787)

/-- ZEROISE (R881). -/
def zeroise (s : State) (ok : Bool) (b : Bytes) (len : Nat) : State × Nat :=
  if lifecycle s = 3 then (s, lcLifecycle)
  else if lifecycle s ≠ 2 then (if len = 0 then (zeroiseNow s, lcOk) else (s, lcFormat))
  else if !ok then (s, lcReadFault)
  else if !zeroiseFormat b len then (s, lcFormat)
  else
    let (s, good) := useNonce s (slice b 8 32)
    if !good then (s, lcNonce)
    else if slice b 40 24 ≠ deviceFp then (s, lcDevice)
    else if !ownerSigned s.lc.ownerCert (b.take 64) (slice b 64 96) (slice b 160 4627) (ascii "ECZ-ZEROISE") then (s, lcSignature)
    else (zeroiseNow s, lcOk)

/-- CHALLENGE (R879). -/
def lcChallenge (s : State) : State × Nat :=
  let (n, s) := keelDraw s 32
  ({ s with lc := { s.lc with nonce := some n } }, lcOk)

/-- The command reads a bundle from host memory before it can go on: its lifecycle state allows it (R878 to R882). -/
def lcReads (s : State) (cmd : Nat) : Bool :=
  match cmd with
  | 2 => decide (lifecycle s = 0)
  | 3 => decide (lifecycle s = 1)
  | 4 => decide (lifecycle s = 2)
  | 5 => decide (lifecycle s = 2)
  | _ => false

/-- What a lifecycle command does, with what its read returned. -/
def lcRun (s : State) (cmd : Nat) (ok : Bool) (data : Bytes) (len : Nat) : State × Nat :=
  let b := slice data 0 (min len 65536)
  match cmd with
  | 1 => lcChallenge s
  | 2 => ship s ok (slice data 0 (min len 65537))
  | 3 => commission s ok b len
  | 4 => ownerList s ok b
  | 5 => zeroise s ok b len
  | _ => (s, lcBadCmd)

/-- A lifecycle command reaches DONE (R884, R885). -/
def lcDone (s : State) (a : Nat) (ok : Bool) (data : Bytes) : State :=
  let x := lcAt s a
  let (s, code) := lcRun s x.cmd ok data x.bufLen.toNat
  setEvent (putLc s a { lcAt s a with state := 2, code := code }) 0x00D 17

/-- LC_CMD with GO = 1: dropped while any accessor's command is BUSY. A command that reads a bundle stays BUSY until its read
returns. -/
def lcGo (s : State) (acc : Acc) (cmd : Nat) : State :=
  let a := accIdx acc
  if !reaches s acc 0x00D ∨ s.lc.accs.any fun e => decide (e.2.state = 1) then s
  else
    let s := putLc s a { lcAt s a with cmd := cmd % 8, state := 1, code := 0 }
    if lcReads s cmd then s else lcDone s a true []

/-- A row of R878 to R882: the command, or the bundle that a command given before waits for. -/
def lcRow (s : State) (acc : Acc) (cmd : Nat) (ok : Bool) (data : Bytes) : State :=
  let a := accIdx acc
  let x := lcAt s a
  if x.state = 1 ∧ x.cmd = cmd then lcDone s a ok data
  else
    let s := lcGo s acc cmd
    if (lcAt s a).state = 1 ∧ (lcAt s a).cmd = cmd ∧ x.state ≠ 1 then lcDone s a ok data else s

/-! ### Meanings -/

/-- IDLE_ENTRY (R865). -/
def execIdleEntry (s : State) : Host.Outcome State Fault Refusal := .next (enterIdle s)
/-- STANDBY (R866). -/
def execStandby (acc : Acc) (s : State) : Host.Outcome State Fault Refusal :=
  .next (if reaches s acc 0 then requestStandby s else s)
/-- WAKE (R868). -/
def execWake (acc : Acc) (s : State) : Host.Outcome State Fault Refusal := .next (if reaches s acc 0 then leaveStandby s else s)
/-- VIN_VALID (R871, R872): start-up runs, with the straps as sampled (DESIGN CHOICE, log 7). -/
def execVinValid (straps : Nat) (s : State) : Host.Outcome State Fault Refusal :=
  .next (if s.power.state = .moored ∨ !s.power.ready then deviceStart s 1 straps else s)
/-- RESET_N_LOW (R888): RESET_N low, or the tamper RESET rung. -/
def execResetNLow (tamper : Bool) (s : State) : Host.Outcome State Fault Refusal :=
  .next (if s.power.state = .moored then s else deviceReset s (if tamper then 3 else 2))
/-- FW_STAGE (R875): the command, or the image set that one given before waits for. -/
def execFwStage (acc : Acc) (ok : Bool) (data : Bytes) (s : State) : Host.Outcome State Fault Refusal :=
  .next (if reaches s acc 0 then stageFirmware (fwGo s) ok data else s)
/-- CHALLENGE (R879). -/
def execChallenge (acc : Acc) (s : State) : Host.Outcome State Fault Refusal := .next (lcRow s acc 1 true [])
/-- SHIP (R878). -/
def execShip (acc : Acc) (ok : Bool) (data : Bytes) (s : State) : Host.Outcome State Fault Refusal := .next (lcRow s acc 2 ok data)
/-- COMMISSION (R880). -/
def execCommission (acc : Acc) (ok : Bool) (data : Bytes) (s : State) : Host.Outcome State Fault Refusal :=
  .next (lcRow s acc 3 ok data)
/-- OWNER_LIST (R882). -/
def execOwnerList (acc : Acc) (ok : Bool) (data : Bytes) (s : State) : Host.Outcome State Fault Refusal :=
  .next (lcRow s acc 4 ok data)
/-- ZEROISE (R881). -/
def execZeroise (acc : Acc) (ok : Bool) (data : Bytes) (s : State) : Host.Outcome State Fault Refusal := .next (lcRow s acc 5 ok data)

end Sys2Proof.Machine
end

