-- ==== Sys2Proof/Machine/RegRead.lean ====
section
/-! DEFINITION. What a read of a register returns: the common header of every unit page (02_unit_pages.md), and the
registers of each kind of page, at the offsets of the register tables of each chapter. `a` is the accessor's number
(R317). -/

namespace Sys2Proof.Machine

/-- A register word from its fields: lowest bit and value. -/
def pack (fs : List (Nat × Nat)) : Nat := (fs.map fun (f : Nat × Nat) => f.2 * 2 ^ f.1).sum

/-- The halves of a 64-bit value. -/
def lo32 (v : Nat) : Nat := v % 2 ^ 32
def hi32 (v : Nat) : Nat := v / 2 ^ 32 % 2 ^ 32

/-- The half of a 64-bit value that a LO or HI register shows. -/
def half32 (hi : Bool) (v : Nat) : Nat := if hi then hi32 v else lo32 v

/-- Register `p` of a byte string shown four bytes a register. -/
def byteReg (b : Bytes) (p : Nat) : Nat := field b (4 * p) 4

/-! ### The common header (R80 to R101) -/

/-- Levels below the device (R82). -/
def unitDepth (p : Nat) : Nat :=
  if p = 0 then 0
  else if isChanPage p then (if slotOf p = 0 then 2 else 3)
  else if (0x040 ≤ p ∧ p < 0x080) ∨ (0x400 ≤ p ∧ p < 0x800) then 2 else 1

/-- UNIT_PATH (R82, R83). -/
def unitPath (p : Nat) : Nat :=
  if isChanPage p then
    pack [(0, p), (12, chanOf p), (18, halfOf (chanOf p)), (20, slotOf p), (24, unitDepth p)]
  else
    pack [(0, p), (12, 0x3F), (18, if p = 0x090 then 0 else if p = 0x091 then 1 else 3), (20, 0xF), (24, unitDepth p)]

/-- UNIT_PATH of the gondola view at level k (R82). -/
def viewPath (k : Nat) : Nat := pack [(0, 0x010 + k), (12, 0x3F), (18, 3), (20, 0xF), (24, k + 1), (31, 1)]

/-- UNIT_CHILDREN (R91, R93). -/
def unitChildren (p : Nat) : Nat :=
  if p = 0 then pack [(0, 0x001), (12, 19), (28, 1)]
  else if p = 0x090 then pack [(0, 0x100), (12, 17), (24, 4)]
  else if p = 0x091 then pack [(0, 0x210), (12, 17), (24, 4)]
  else if isChanPage p ∧ slotOf p = 0 then pack [(0, p + 1), (12, 11)]
  else if p = 0x020 then pack [(0, 0x040), (12, 64)]
  else if p = 0x084 then pack [(0, 0x400), (12, 1024)]
  else 0

/-- Units with a unit key or identity key (R101): the device, halves, channels and engines. -/
def hasUnitKey (p : Nat) : Bool := decide (p = 0 ∨ p = 0x090 ∨ p = 0x091) || isChanPage p

/-- The 24 bytes of the fingerprint registers (R27, R30, R100, R101): a unit key is derived from UNIT_PATH and the boot nonce. -/
def unitFingerprint (s : State) (p : Nat) : Bytes :=
  if p = 0 then deviceFp
  else if !hasUnitKey p ∨ s.rng.bootNonce = [] then []
  else Config.out .unitFp [le 4 (unitPath p), s.rng.bootNonce] 24

/-- UNIT_EVENT as read, with CHILD (R94). -/
def eventRead (s : State) (p : Nat) : Nat := (unitAt s p).event.toNat + bitAt (childRaised s p) 4

/-- A read of the common header, offsets 0x000 to 0x03C, of a unit of the device. -/
def headerRead (s : State) (p off : Nat) : Nat :=
  let u := unitAt s p
  match off with
  | 0x000 => kindOf p + 0x100
  | 0x004 => unitPath p
  | 0x008 => pack [(0, ustateCode u.state), (31, bitAt u.pending 0)]
  | 0x00C => bitAt (u.enable && decide (u.state ≠ .retired)) 0 + bitAt u.level 1 + bitAt u.quiesce 2
  | 0x010 => pack [(0, u.transient), (8, u.lastCause), (16, u.permCause), (31, bitAt u.permanent 0)]
  | 0x014 => pack [(16, bitAt u.factory 0), (17, bitAt u.field 0), (24, u.mapIndex)]
  | 0x018 => unitChildren p
  | 0x01C => eventRead s p
  | 0x020 => u.eventEn.toNat
  | 0x024 => pack [(0, bitAt u.lock 0), (8, u.refused)]
  | _ => if 0x028 ≤ off ∧ off ≤ 0x03C then byteReg (unitFingerprint s p) ((off - 0x028) / 4) else 0

/-- The child table of the device root (R92). -/
def childTable (off : Nat) : Nat :=
  let q := (off - 0x7C0) / 4
  pack [(0, rootChildren.getD (2 * q) 0), (16, rootChildren.getD (2 * q + 1) 0)]

/-! ### Pages 0x000 to 0x00D -/

/-- PWR_STATUS.STATE. -/
def powerCode : PState → Nat
  | .idle => 1
  | .standby => 2
  | _ => 0

/-- The word of the field selected by OTP_SEL (R886). -/
def otpWord (o : Otp) (f w : Nat) : Nat :=
  let v : Nat := match f with
    | 0 => o.lifecycle.toNat
    | 1 => o.ownerFp.toNat
    | 2 => o.evidence.toNat
    | 3 => o.retireFactory.toNat
    | 4 => o.retireField.toNat
    | 5 => o.fuse.toNat
    | 6 => o.svnFloor.toNat
    | 7 => o.drkEver.toNat
    | _ => 0
  bits v (32 * w) 32

/-- RM_SEL's record (R679 of 16). -/
def mapRecordRead (s : State) (a : Nat) : Bytes := s.faults.map.getD (tget 0 s.faults.sel a) []

/-- Device root, page 0x000 (22, 16). -/
def rootRead (s : State) (a off : Nat) : Nat :=
  let w := s.power
  let f := s.faults
  let active := (List.range 34).countP (chanActive s)
  match off with
  | 0x040 => pack [(0, bitAt w.idleEn 0), (8, w.idleDelay)]
  | 0x044 => pack [(0, powerCode w.state), (2, bitAt w.ready 0), (4, w.result), (8, w.cause)]
  | 0x060 => w.stageLo.toNat
  | 0x064 => w.stageHi.toNat
  | 0x068 => w.stageLen.toNat
  | 0x070 =>
    pack [(0, w.fwState), (4, w.fwResult), (8, bitAt w.staged.isSome 0), (16, svnFloor s), (24, (imageHalf s s.flash.half).svn)]
  | 0x200 =>
    pack [(0, active), (6, (List.range 34).countP (isSpare s)),
      (12, (List.range 34).countP fun c => decide ((unitAt s (chanPage c)).state = .retired)), (18, min active 32),
      (24, bitAt f.noChannel 0)]
  | 0x204 => f.testAt
  | 0x208 => pack [(0, f.map.length), (8, bitAt f.full 0), (9, bitAt (!f.burning.isEmpty) 0), (10, f.restored)]
  | 0x20C => tget 0 f.sel a
  | 0x220 => lo32 s.otp.retireFactory.toNat
  | 0x224 => hi32 s.otp.retireFactory.toNat
  | 0x228 => lo32 s.otp.retireField.toNat
  | 0x22C => hi32 s.otp.retireField.toNat
  | _ =>
    if 0x048 ≤ off ∧ off ≤ 0x05C then (tget 0 w.startT ((off - 0x048) / 4 + 1)).toNat
    else if 0x210 ≤ off ∧ off ≤ 0x21C then byteReg (mapRecordRead s a) ((off - 0x210) / 4)
    else if 0x7C0 ≤ off ∧ off ≤ 0x7FC then childTable off
    else 0

/-- Host ports, pages 0x001 and 0x002 (22) (DEDUCED, log 91). -/
def portRead (s : State) (n off : Nat) : Nat :=
  let p := portAtN s n
  match off with
  | 0x040 => pack [(0, p.speed), (3, p.width), (8, bitAt p.up 0), (9, bitAt p.l1 0), (10, bitAt p.perst 0)]
  | 0x044 => pack [(0, p.numVf), (11, bitAt (p.enabled || !p.resetting.isEmpty) 0), (12, bitAt p.pending 0)]
  | 0x048 =>
    pack [(0, bitAt p.require 0), (1, bitAt (streamSecure p 0) 0), (2, bitAt (streamSecure p 1) 0),
      (3, bitAt (streamSecure p 2) 0), (4, p.sessions.countP (·.established)), (16, p.plainDrops)]
  | _ => 0

/-- TMP_SRC_CFGs (R739 of 18). -/
def srcCfgRead (s : State) (n : Nat) : Nat :=
  let x := srcAt s n
  let r := srcRow n
  pack [(0, x.response), (4, bitAt (srcDisabled s n) 0), (5, bitAt (decide (r.top = 0)) 0), (6, bitAt r.cell 0),
    (8, if r.top = 0 then 0 else x.filter), (16, r.floor)]

/-- Sources whose filter count is above 0 (TMP_LIVE). -/
def liveSources (s : State) : Nat := ((List.range 42).map fun n => bitAt (decide (0 < (srcAt s n).count)) n).sum

/-- Tamper, page 0x004 (18). -/
def tamperRead (s : State) (a off : Nat) : Nat :=
  let t := s.tamper
  let m := s.mooring
  match off with
  | 0x040 => pack [(0, 42), (8, 8)]
  | 0x044 => lo32 t.fired.toNat
  | 0x048 => hi32 t.fired.toNat
  | 0x04C => lo32 (liveSources s)
  | 0x050 => hi32 (liveSources s)
  | 0x054 => pack [(0, m.epRung), (3, bitAt m.epOpen 0), (4, bitAt (episodeHold s) 0), (16, m.epNumber)]
  | 0x058 =>
    let n := evidenceCount s.otp
    pack [(0, n), (11, bitAt (decide (n = 1024)) 0), (12, bitAt (decide (n < m.evidTarget)) 0), (16, t.applied)]
  | 0x05C => s.otp.fuse.toNat
  | 0x064 => pack [(0, t.testSrc), (7, bitAt t.testBusy 0), (8, t.testResult)]
  | 0x070 => tget 0 t.logSel a
  | 0x084 => t.logCount.toNat
  | _ =>
    if 0x074 ≤ off ∧ off ≤ 0x080 then byteReg (t.log.getD (tget 0 t.logSel a) []) ((off - 0x074) / 4)
    else if 0x100 ≤ off ∧ off < 0x100 + 4 * 42 then srcCfgRead s ((off - 0x100) / 4)
    else 0

/-- RNG_SRC.STATE (R504 of 12). -/
def srcStateCode : SrcState → Nat
  | .startup => 0
  | .healthy => 1
  | .retest => 2
  | .retired => 4

/-- DRBG_STATUS.STATE. -/
def drbgCode : DrbgState → Nat
  | .uninst => 0
  | .seeded => 1
  | .unseeded => 2

/-- Noise sources and conditioning, page 0x005 (12). -/
def rngRead (s : State) (a off : Nat) : Nat :=
  match off with
  | 0x050 => pack [(0, healthySources s), (3, bitAt s.rng.gathered 0), (4, s.rng.pool.length)]
  | 0x054 => pack [(0, 41), (8, 795), (20, 10)]
  | 0x05C => hi32 (tget 0 s.rng.blocksSnap a)
  | 0x060 =>
    let d := drbgAt s keelDrbg
    pack [(0, drbgCode d.state), (2, bitAt d.pending 0), (3, bitAt d.atLimit 0)]
  | _ =>
    if 0x040 ≤ off ∧ off ≤ 0x04C then
      let x := sourceAt s ((off - 0x040) / 4)
      pack [(0, srcStateCode x.state), (3, x.failRun), (5, bitAt x.lastApt 0), (8, x.rctFails), (16, x.aptFails)]
    else 0

/-- EVT_CTRL.STATE (R319 of 06). -/
def evStateCode : EvState → Nat
  | .empty => 0
  | .armed => 1
  | .done => 2
  | .failed => 3

/-- The 64-bit values of MOOR_A_RTC to MOOR_B_POS, in the order of their offsets (R331 of 06). -/
def anchorValue (s : State) (k : Nat) : Nat :=
  let a := s.mooring.anchorA.getD {}
  let b := s.mooring.anchorB.getD {}
  [a.rtc, a.pos, b.rtc, b.pos].getD k 0

/-- Tether and event table, page 0x006 (06). -/
def tetherRead (s : State) (acc : Acc) (off : Nat) : Nat :=
  let t := s.tether
  let a := accIdx acc
  let e := evtAt s (evtSel s acc)
  match off with
  | 0x040 => pack [(0, t.source), (2, bitAt t.ppsEdge 0)]
  | 0x044 =>
    pack [(0, tetherCode t.state), (2, bitAt (catchupNow s) 0), (3, bitAt (followsBridle s) 0), (4, bitAt (isTetherRoot s) 0),
      (5, bitAt t.number.isSome 0), (8, t.mismatchRun)]
  | 0x04C => hi32 (tget 0 t.posSnap a)
  | 0x050 => t.nextSecLo.toNat
  | 0x054 => t.nextSecHi.toNat
  | 0x060 => hi32 (tget 0 t.secSnap a)
  | 0x064 => t.interval
  | 0x068 => pack [(0, t.glitch), (8, t.todErr), (16, t.renumber), (24, t.adriftCount)]
  | 0x080 => evtSel s acc
  | 0x084 => lo32 e.pos
  | 0x088 => hi32 e.pos
  | 0x08C => pack [(0, e.action), (8, e.period)]
  | 0x090 => pack [(0, e.inst), (10, e.chan), (16, e.slot)]
  | 0x094 => pack [(4, evStateCode e.state), (7, bitAt e.fw 0), (8, tget 0 s.evtRes a), (16, e.missed)]
  | 0x098 => lo32 e.fired
  | 0x09C => hi32 e.fired
  | 0x0A0 => s.events.countP fun e => decide (e.2.state = .armed)
  | 0x0E0 => pack [(0, s.mooring.corr), (2, s.mooring.corrCount)]
  | _ =>
    if 0x0C0 ≤ off ∧ off ≤ 0x0DC then half32 (decide ((off - 0x0C0) / 4 % 2 = 1)) (anchorValue s ((off - 0x0C0) / 8)) else 0

/-- Flash controller, page 0x007 (19); FL_WIN_DATA has its own read. -/
def flashRegRead (s : State) (a off : Nat) : Nat :=
  let f := s.flash
  match off with
  | 0x040 => pack [(0, 2), (2, 8), (6, 127), (14, 128), (22, 4), (26, 8)]
  | 0x044 => winAddr s a
  | 0x04C => (bankStatus s 0).toNat
  | 0x050 => (bankStatus s 1).toNat
  | 0x054 => pack [(0, f.fetch), (2, f.half), (3, bitAt f.fallback 0)]
  | 0x058 => pack [(0, f.corrected), (16, f.uncorrected)]
  | 0x05C => pack [(0, bitAt f.brownout 0), (8, f.brownouts)]
  | 0x060 =>
    pack [(0, freeSectors f), (6, bitAt f.epoch.isSome 0), (7, bitAt f.compacting 0), (8, f.retired.length),
      (16, sat 0xFFFF f.store.length)]
  | _ => 0

/-- CCB_SLOTn.STATE (20). -/
def cardStateCode : CardState → Nat
  | .empty => 0
  | .powering => 1
  | .ident => 2
  | .ready => 3
  | .locked => 4
  | .inactive => 5

/-- Custodian card bus, page 0x008 (20). -/
def ccbRead (s : State) (a off : Nat) : Nat :=
  let x := cardAccAt s a
  match off with
  | 0x040 => pack [(0, 4), (3, 16), (8, 15)]
  | 0x054 => x.idSel
  | 0x080 => pack [(0, x.op), (4, x.slot), (8, x.record)]
  | 0x084 => x.wcount.toNat
  | 0x088 => pack [(0, x.state), (8, x.code), (16, bitAt x.rstate 0)]
  | _ =>
    if 0x044 ≤ off ∧ off ≤ 0x050 then
      let c := cardSlotAt s ((off - 0x044) / 4)
      pack [(0, cardStateCode c.state), (3, bitAt c.present 0), (4, bitAt c.power 0), (5, c.addr), (9, c.mode),
        (11, bitAt c.overcurrent 0), (12, c.fails)]
    else if 0x058 ≤ off ∧ off ≤ 0x064 then byteReg (cardSlotAt s x.idSel).id ((off - 0x058) / 4)
    else 0

/-- TAG_STATUS.STATE (21). -/
def tagStateCode : TagState → Nat
  | .idle => 0
  | .ready => 1
  | .active => 2
  | .halt => 3
  | .protocol => 4

/-- Custody tag, page 0x009 (21). -/
def tagRead (s : State) (a off : Nat) : Nat :=
  let t := s.tag
  let kcv : Bytes := match tagKey s t.keyId with
    | some k => tagCmac k (zeros 16) 5
    | none => []
  match off with
  | 0x040 =>
    pack [(0, bitAt t.field 0), (1, if t.field then tagStateCode t.state else 0), (4, t.mod),
      (6, (t.session.map (·.1)).getD 0), (8, bitAt t.run.isSome 0)]
  | 0x044 => if t.field then byteReg t.uid 0 else 0
  | 0x048 => pack [(0, (journal s).length), (10, t.slots.length), (20, tornSlots s), (29, bitAt (journalFull s) 0)]
  | 0x04C => tget 0 t.jrSel a
  | 0x0A8 => t.appExpect.toNat
  | 0x0AC => pack [(0, t.appType), (8, t.appState), (10, t.appResult)]
  | 0x0B0 => pack [(0, t.keyId), (2, bitAt t.keyClear 0)]
  | 0x0C4 => byteReg kcv 0
  | 0x0C8 => byteReg kcv 1
  | 0x0D0 => pack [(0, t.fieldOns), (16, t.authFails), (24, t.refusals)]
  | _ =>
    if 0x050 ≤ off ∧ off ≤ 0x08C then byteReg ((journal s).getD (tget 0 t.jrSel a) []) ((off - 0x050) / 4)
    else if 0x090 ≤ off ∧ off ≤ 0x0A4 then (tget 0 t.appData ((off - 0x090) / 4)).toNat
    else 0

/-- Mooring domain, page 0x00A (18, 07). -/
def mooringRead (s : State) (a off : Nat) : Nat :=
  let m := s.mooring
  match off with
  | 0x040 =>
    pack [(0, m.log.length), (8, m.dropped), (16, m.evidTarget), (27, bitAt m.pendingLock 0), (28, bitAt m.ripcordSeen 0)]
  | 0x048 => hi32 (tget 0 m.rtcSnap a)
  | 0x04C => m.vbat
  | 0x060 => tget 0 m.logSel a
  | 0x700 => pack [(0, drkStatus s), (2, bitAt s.kh.pendingGen 0), (8, s.kh.losses)]
  | _ => if 0x064 ≤ off ∧ off ≤ 0x080 then byteReg (m.log.getD (tget 0 m.logSel a) []) ((off - 0x064) / 4) else 0

/-- An OTP bit is being burned (OTP_STATUS.BURNING). -/
def otpBurning (s : State) : Bool := !s.faults.burning.isEmpty || decide (evidenceCount s.otp < s.mooring.evidTarget)

/-- OTP, page 0x00B (R886 of 22). -/
def otpRead (s : State) (a off : Nat) : Nat :=
  let sel := (tget 0 s.otpRegs.sel a).toNat
  match off with
  | 0x040 => pack [(0, bitAt (otpBurning s) 0), (1, bitAt s.otpRegs.marginal 0), (2, s.otp.drkEver.toNat)]
  | 0x044 => sel
  | 0x048 => otpWord s.otp (bits sel 0 4) (bits sel 8 8)
  | _ => 0

/-- DBG_STATE.STATE (14). -/
def gateCode : GateState → Nat
  | .closed => 0
  | .challenged => 1
  | .opened => 2

/-- Debug gate, page 0x00C (R611, R616 of 14). -/
def debugRead (s : State) (a off : Nat) : Nat :=
  let d := s.dbg
  match off with
  | 0x040 => pack [(0, gateCode d.state), (2, bitAt (decide (lifecycle s < 2)) 0), (8, if d.state = .opened then d.inst else 0)]
  | 0x044 => pack [(0, d.refused), (8, d.locks)]
  | 0x04C => hi32 (tget 0 d.lastSnap a)
  | _ => 0

/-- Lifecycle, page 0x00D (22). -/
def lcRead (s : State) (a off : Nat) : Nat :=
  let x := lcAt s a
  let l := s.lc.list.getD (0, [])
  match off with
  | 0x040 => pack [(0, lifecycle s), (2, bitAt (decide (s.otp.ownerFp ≠ 0)) 0), (3, bitAt s.lc.nonce.isSome 0)]
  | 0x07C => x.bufLo.toNat
  | 0x080 => x.bufHi.toNat
  | 0x084 => x.bufLen.toNat
  | 0x088 => x.cmd
  | 0x08C => pack [(0, x.state), (8, x.code)]
  | 0x090 => lo32 l.1
  | 0x094 => hi32 l.1
  | 0x098 => l.2.length
  | _ =>
    if 0x044 ≤ off ∧ off ≤ 0x060 then byteReg (s.lc.nonce.getD []) ((off - 0x044) / 4)
    else if 0x064 ≤ off ∧ off ≤ 0x078 then byteReg (ownerFp s) ((off - 0x064) / 4)
    else 0

/-! ### Gondola views and the bridle (17) -/

/-- Direct member `j` of gondola `g`, devices first, in record order: a gondola or not, and its number (GV_MEMBER). -/
def directMember (s : State) (g j : Nat) : Option (Bool × Nat) :=
  let r := heldRecord s
  let ds := ((recMembers r).filter fun n => decide (recHome r n = g)).map fun n => (false, n)
  let gs := ((recGondolas r).filter fun h => decide (recParent r h = g)).map fun h => (true, h)
  (ds ++ gs)[j]?

/-- Hops to a member; 0 to this device itself and to one that is not present. -/
def hopsTo (s : State) (n : Nat) : Nat := if n = selfMember s then 0 else ((routeTo s n).map (·.hops)).getD 0

/-- GV_MEMBER. -/
def viewMember (s : State) (g j : Nat) : Nat :=
  match directMember s g j with
  | none => 0
  | some (false, n) => pack [(0, bitAt ((presentSet s).contains n) 0), (2, n), (11, hopsTo s n)]
  | some (true, h) =>
    let ds := (devicesIn (heldRecord s) h).filter (presentSet s).contains
    let hops := (ds.map (hopsTo s)).foldl (fun m n => if m = 0 then n else min m n) 0
    pack [(0, bitAt (gondolaUp s h) 0), (1, 1), (2, h), (11, if ds.contains (selfMember s) then 0 else hops)]

/-- The gondola view at level k, page 0x010 + k (R727, R728); 0 for a level that does not exist (PRESUMED, log 87). -/
def viewRead (s : State) (a k off : Nat) : Nat :=
  match viewGondola s k with
  | none => 0
  | some g =>
    let r := heldRecord s
    let p := 0x010 + k
    let c := tfind s.bridle.certs g
    let present := presentSet s
    match off with
    | 0x000 => 0x120
    | 0x004 => viewPath k
    | 0x008 => ustateCode (viewState s g)
    | 0x00C => bitAt (decide (s.bridle.state ≠ .isolated)) 0
    | 0x010 => 0
    | 0x014 => 0xFF000000
    | 0x018 => 0
    | 0x01C => (unitAt s p).event.toNat
    | 0x020 => (unitAt s p).eventEn.toNat
    | 0x024 => pack [(0, bitAt (unitAt s p).lock 0), (8, (unitAt s p).refused)]
    | 0x040 => pack [(0, g), (9, recDirect r g), (18, recQuorum r g)]
    | 0x044 =>
      pack [(0, (devicesIn r g).countP present.contains), (10, presentDirect s g), (19, (rootInOffice s g).getD 0)]
    | 0x048 => lo32 ((c.map (·.pos)).getD 0)
    | 0x04C => hi32 ((c.map (·.pos)).getD 0)
    | 0x050 => tget 0 s.bridle.gvSel (16 * a + k)
    | 0x054 => viewMember s g (tget 0 s.bridle.gvSel (16 * a + k))
    | _ =>
      if 0x028 ≤ off ∧ off ≤ 0x03C then
        match c with
        | none => 0
        | some c => byteReg (Config.out .unitFp [c.pub] 24) ((off - 0x028) / 4)
      else 0

/-- BRL_FORM_STATUS.STATE. -/
def formCode : FormState → Nat
  | .none => 0
  | .forming => 1
  | .member => 2
  | .isolated => 3
  | .leaving => 4

/-- Bridle root, page 0x020. -/
def brlRead (s : State) (a off : Nat) : Nat :=
  let b := s.bridle
  let r := heldRecord s
  let held := b.record.isSome
  let sel := tget 0 b.routeSel a
  match off with
  | 0x040 => pack [(0, 480), (9, 16), (14, 64), (21, 8)]
  | 0x044 => b.recLo.toNat
  | 0x048 => b.recHi.toNat
  | 0x04C => b.recLen.toNat
  | 0x050 => pack [(16, b.target)]
  | 0x054 =>
    pack [(0, formCode b.state), (3, bitAt b.busy 0), (4, b.result), (12, if held then selfMember s else 0),
      (21, if held then (rootInOffice s (recOutermost r)).getD 0 else 0)]
  | 0x05C => hi32 (tget 0 b.serialSnap a)
  | 0x060 => if held then pack [(0, (presentSet s).length), (10, (recMembers r).length)] else 0
  | 0x064 => sel
  | 0x068 =>
    if !held then 0
    else match routeTo s sel with
      | some x => pack [(0, x.line), (6, x.hops), (10, bitAt ((presentSet s).contains sel) 0)]
      | none => pack [(10, bitAt ((presentSet s).contains sel) 0)]
  | 0x06C => b.fwdDepth
  | 0x070 => b.fwdOut.toNat
  | 0x074 => b.fwdIn.toNat
  | 0x078 => b.returned.toNat
  | 0x07C => b.lost.toNat
  | _ => 0

/-- LINE_STATUS.LSTATE. -/
def lstateCode : LState → Nat
  | .down => 0
  | .training => 1
  | .keying => 2
  | .up => 3
  | .retraining => 4
  | .mismatch => 5

/-- LINE_CFG as read. -/
def lineCfgRead (l : Line) : Nat := pack [(0, l.first), (9, l.count), (15, bitAt l.spare 0)]

/-- Bridle line m, page 0x040 + m. -/
def lineRead (s : State) (a m off : Nat) : Nat :=
  let l := lineAt s m
  match off with
  | 0x040 => lineCfgRead l
  | 0x044 =>
    pack [(0, lstateCode l.lstate), (3, l.positions.length), (9, bitAt l.spareUsed 0), (10, l.peer.getD 0),
      (19, bitAt l.peer.isSome 0), (20, l.attempts), (22, l.cause)]
  | 0x048 => l.delay
  | 0x04C => l.crc.toNat
  | 0x050 => l.replays.toNat
  | 0x054 => l.stomped.toNat
  | 0x05C => hi32 (tget 0 l.rxSnap a)
  | 0x064 => hi32 (tget 0 l.txSnap a)
  | _ => 0

/-! ### Ballast, key cache, audit, instance manager, halves -/

/-- Ballast, page 0x080 (R40 to R50 of 01). -/
def ballastRead (s : State) (off : Nat) : Nat :=
  let b := s.ballast
  match off with
  | 0x040 => pack [(0, 384), (9, 32)]
  | 0x044 => pack [(0, freeGeneral s), (16, freeReserve s)]
  | 0x048 =>
    pack [(0, b.withdrawn.length), (9, bitAt b.stalled 0), (10, bitAt b.creditHeld 0),
      (11, (List.range 34).countP fun c => (intakeAt s c).waitBallast)]
  | 0x04C => b.acquired.toNat
  | 0x050 => b.waits.toNat
  | _ => 0

/-- KC_PROBE_STATE (R284 of 05): the fields of a head entry; a continuation shows all but HEAD and COUNT (DEDUCED, log 116). -/
def probeState (k : KeyCache) (e : Nat) : Nat :=
  match keyAtEntry k e with
  | none => 0
  | some (h, x) =>
    let own := pack [(0, 1), (1, bitAt x.dead 0), (10, x.inst), (20, x.gen), (28, min 15 x.pins.length)]
    if h = e then own + pack [(2, 1), (3, x.entries.length)] else own

/-- Tag bytes of the probed way (R268, R284 of 05). -/
def probeTag (k : KeyCache) (e : Nat) : Bytes :=
  match tfind k.keys e with
  | some x => (be 32 x.digest).take 12
  | none => []

/-- Key cache, page 0x081 (05). -/
def kcRead (s : State) (off : Nat) : Nat :=
  let k := s.kc
  let e := 8 * k.probeSet + k.probeWay
  match off with
  | 0x040 => pack [(0, 18), (5, 15), (10, 8)]
  | 0x044 => kcUsed k
  | 0x048 => kcPinned k
  | 0x04C => k.hits.toNat
  | 0x050 => k.misses.toNat
  | 0x054 => k.fillCount.toNat
  | 0x058 => k.evicts.toNat
  | 0x05C => k.bypasses.toNat
  | 0x060 => k.authFails.toNat
  | 0x064 => pack [(0, k.flushInst), (16, bitAt k.flushAll 0), (17, bitAt k.flushOld 0)]
  | 0x068 => pack [(0, bitAt k.busy 0), (1, bitAt (kcDraining k) 0)]
  | 0x800 => pack [(0, k.probeSet), (16, k.probeWay)]
  | 0x804 => byteReg (probeTag k e) 0
  | 0x808 => byteReg (probeTag k e) 1
  | 0x80C => byteReg (probeTag k e) 2
  | 0x810 => probeState k e
  | _ => 0

/-- Jobs of instance `i` whose leaf waits for its commit (AUD_STATUS.WAITING). -/
def commitsWaiting (s : State) (i : Nat) : Nat :=
  s.jobs.countP fun e => decide (e.2.inst = i ∧ e.2.phase = .leafBuilt ∧ e.2.origin = none)

/-- Audit, page 0x082 (08). -/
def audRead (s : State) (acc : Acc) (off : Nat) : Nat :=
  let i := audSel s acc
  let a := accIdx acc
  let l := logAt s i
  match off with
  | 0x040 => i
  | 0x044 => pack [(0, bitAt l.ringEn 0), (1, bitAt l.psEn 0), (2, l.port), (8, l.sealLog2)]
  | 0x048 => lo32 l.ringBase
  | 0x04C => hi32 l.ringBase
  | 0x050 => l.ringLog2
  | 0x054 => l.wr
  | 0x058 => l.rd
  | 0x05C => lo32 l.psBase
  | 0x060 => hi32 l.psBase
  | 0x064 => l.psLog2
  | 0x06C => hi32 (tget 0 s.audit.snap (4 * a))
  | 0x074 => hi32 (tget 0 s.audit.snap (4 * a + 1))
  | 0x07C => hi32 (tget 0 s.audit.snap (4 * a + 2))
  | 0x080 =>
    pack [(0, bitAt l.ringWait 0), (1, bitAt (!l.seals.isEmpty) 0), (2, bitAt (!l.keyRecs.isEmpty) 0),
      (3, bitAt l.cfgErr 0), (16, sat 0xFFFF (commitsWaiting s i))]
  | _ => 0

/-- IM_RESULT.STATE. -/
def imStateCode : ImState → Nat
  | .idle => 0
  | .busy => 1
  | .done => 2

/-- KH_SLOT.STATE (R347 of 07). -/
def slotCode : SlotState → Nat
  | .empty => 0
  | .collecting => 1
  | .staged => 2
  | .failed => 3

/-- KCV of the current generation, no bytes when there is none (KH_CUR_KCV). -/
def curKcv (s : State) (i : Nat) : Bytes := if (instKeys s i).cur = 0 then [] else kbpkKcv (instKeys s i).curKey

/-- Instance manager, page 0x084 (15, 07, 13). -/
def imRead (s : State) (a off : Nat) : Nat :=
  let w := winAt s a
  let x := slotAt s (tget 0 s.kh.selSlot a)
  let i := tget 0 s.kh.selInst a
  let k := instKeys s i
  let m : McSlot := tget {} s.mc.slots (tget 0 s.mc.sel a)
  let bound := (List.range 1024).countP fun i =>
    (instAt s i).created && decide ((instAt s i).mcSlot = some (tget 0 s.mc.sel a))
  match off with
  | 0x040 => pack [(0, 4096 - (poolUsed s).length), (16, (createdInsts s).length)]
  | 0x044 => 2 ^ 18 - kcShared s none
  | 0x080 => pack [(0, w.op), (8, w.inst)]
  | 0x084 => pack [(0, imStateCode w.state), (8, w.code)]
  | 0x088 => lo32 w.out0
  | 0x600 => pack [(0, tget 0 s.kh.selSlot a), (16, i)]
  | 0x604 =>
    pack [(0, slotCode x.state), (3, bitAt x.persisted 0), (4, x.shares.length), (8, x.m), (12, x.n),
      (16, if x.state = .failed then x.cause else 0)]
  | 0x608 => pack [(0, x.inst), (16, x.gen)]
  | 0x60C => byteReg x.kcv 0
  | 0x610 => byteReg x.kcv 1
  | 0x620 => pack [(0, k.cur), (8, k.prev.getD 0), (16, bitAt k.prev.isSome 0)]
  | 0x624 => if k.prev.isSome then lo32 k.retireAt else 0
  | 0x628 => if k.prev.isSome then hi32 k.retireAt else 0
  | 0x62C => byteReg (curKcv s i) 0
  | 0x630 => byteReg (curKcv s i) 1
  | 0x680 => tget 0 s.mc.sel a
  | 0x684 =>
    pack [(0, m.state), (2, if m.state = 3 then m.cause else 0), (6, if m.state = 2 then imgEntries m.image else 0),
      (11, bound)]
  | 0x694 => if m.state = 2 then lo32 (imgVersion m.image) else 0
  | 0x698 => if m.state = 2 then hi32 (imgVersion m.image) else 0
  | _ =>
    if 0x060 ≤ off ∧ off ≤ 0x07C then (tget 0 w.args ((off - 0x060) / 4)).toNat
    else if 0x688 ≤ off ∧ off ≤ 0x690 then (if m.state = 2 then byteReg (imageDigest m.image) ((off - 0x688) / 4) else 0)
    else 0

/-- Halves, pages 0x090 and 0x091 (R478 of 10). -/
def halfRead (s : State) (h off : Nat) : Nat :=
  let x : HalfRegs := tget {} s.sig.halves h
  match off with
  | 0x040 => x.pass.toNat
  | 0x044 => x.mismatch.toNat
  | 0x048 => x.evals.toNat
  | 0x04C => x.bisects.toNat
  | 0x050 => s.sig.tables.countP fun t => decide (halfOf (chanOf t.engine) = h)
  | 0x054 => pack [(0, x.chargePage), (12, x.chargeCount), (14, bitAt x.asChecker 0)]
  | _ => 0

/-! ### Channels and engines -/

/-- CH_TEST.STATE. -/
def testCode : TestState → Nat
  | .idle => 0
  | .waiting => 1
  | .running => 2

/-- Channel c, slot 0 (16). -/
def chanRead (s : State) (a c off : Nat) : Nat :=
  let x := chanAt s c
  match off with
  | 0x040 => pack [(0, testCode x.test), (2, x.last), (4, x.step), (8, x.since)]
  | 0x048 => hi32 (tget 0 x.posSnap a)
  | 0x04C => x.reruns.toNat
  | _ => 0

/-- CARIT_STATUS.STALL_ON. -/
def stallCode : Stall → Nat
  | .none => 0
  | .rng => 1
  | .jobNext => 2
  | .leafWait => 3
  | .swait => 4
  | .bmove => 5
  | .waiti => 6
  | .fence => 7

/-- The core of a CARIT page. -/
def coreAt (s : State) (p : Nat) : Core := tget {} s.cores p
def putCore (s : State) (p : Nat) (c : Core) : State := { s with cores := tset {} s.cores p c }

/-- Carit cores, slots 1 to 4 (13). -/
def caritRead (s : State) (a p off : Nat) : Nat :=
  let c := coreAt s p
  match off with
  | 0x040 => pack [(0, 16), (8, 4), (12, 4), (16, 128)]
  | 0x044 =>
    pack [(0, c.ring), (2, bitAt (decide (c.stall ≠ .none)) 0), (3, stallCode c.stall), (7, c.ldepth),
      (10, if c.ring = 3 then c.mcSlot else 0)]
  | 0x04C => hi32 (tget 0 c.instrSnap a)
  | 0x054 => hi32 (tget 0 c.stallSnap a)
  | _ => 0

/-- SAIL_STATUS.ESTATE (R445 of 09). -/
def estateCode : EState → Nat
  | .idle => 0
  | .busy => 1
  | .waitRand => 2
  | .waitLane => 3
  | .wiping => 4
  | .loading => 5

/-- Sail engines, slots 5 to 7 (09); SAIL_MEM_LO and SAIL_MEM_HI have their own read. -/
def sailRead (s : State) (p off : Nat) : Nat :=
  let e := sailAt s p
  let w := isWide p
  match off with
  | 0x040 =>
    pack [(0, if w then 16 else 8), (8, if w then 42 else 21), (16, maxLen p), (25, if w then 13 else 11)]
  | 0x044 =>
    pack [(0, estateCode e.estate), (3, bitAt e.expert 0), (4, e.ownerInst), (14, e.ownerGen), (22, e.ownerKgen),
      (30, bitAt e.ownerValid 0)]
  | 0x048 => e.countCmd.toNat
  | 0x04C => e.countWipe.toNat
  | 0x050 => e.countAbort.toNat
  | 0x054 => e.countReject.toNat
  | 0x800 => e.cmd.toNat
  | 0x804 => e.arg0.toNat
  | 0x808 => e.arg1.toNat
  | 0x80C => e.arg2.toNat
  | 0x810 => e.arg3.toNat
  | 0x814 => e.xlen.toNat
  | 0x818 =>
    pack [(0, bitAt e.run.isSome 0), (1, bitAt e.flag 0), (2, bitAt e.identity 0), (3, bitAt e.overrun 0),
      (4, bitAt e.hidden 0), (8, e.result)]
  | 0x81C => e.cycles
  | 0x820 =>
    pack [(0, (e.mods.map fun m => 2 ^ m.1).sum), (4, (e.curves.map fun c => 2 ^ c.1).sum), (6, e.lane)]
  | 0x824 => e.memAddr.toNat
  | _ => 0

/-- Bulk lanes, slot 8 (11). -/
def bulkRead (s : State) (a c off : Nat) : Nat :=
  let l := laneAt s c
  match off with
  | 0x040 => pack [(0, 4), (4, 4), (12, 7)]
  | 0x044 =>
    pack [(0, bitAt l.unwrap.isSome 0), (1, bitAt l.port.isSome 0), (2, bitAt l.job.isSome 0), (3, bitAt l.help.isSome 0),
      (4, (l.help.map (·.1)).getD 0x3F)]
  | 0x04C => hi32 (tget 0 l.bytesSnap a)
  | 0x050 => l.stripes.toNat
  | 0x054 => l.tagFails.toNat
  | 0x058 => l.redone.toNat
  | 0x800 => pack [(0, l.op), (8, l.param)]
  | 0x808 => l.xlen.toNat
  | 0x80C => pack [(0, bitAt l.busy 0), (1, bitAt l.overrun 0), (2, l.result), (4, l.digestLen)]
  | 0x810 => l.pass
  | _ => if 0x840 ≤ off ∧ off ≤ 0x87C then byteReg l.digest ((off - 0x840) / 4) else 0

/-- Channel DRBGs, slot 9 (12). -/
def drbgRead (s : State) (c off : Nat) : Nat :=
  let d := drbgAt s c
  match off with
  | 0x040 => pack [(0, drbgCode d.state), (2, bitAt d.pending 0), (3, bitAt d.atLimit 0)]
  | 0x044 => d.calls
  | 0x048 => d.reseeds.toNat
  | 0x04C => d.unseeded.toNat
  | _ => 0

/-- Leaves of channel `c` built and not committed (AP_STATUS.PENDING). -/
def leavesPending (s : State) (c : Nat) : Nat :=
  s.jobs.countP fun e => decide (e.2.chan = some c ∧ e.2.phase = .leafBuilt)

/-- Audit ports, slot 10 (R408 of 08). -/
def auditPortRead (s : State) (c off : Nat) : Nat :=
  let p := portAt s c
  match off with
  | 0x040 =>
    pack [(0, bitAt (jobsWhere s fun j => decide (j.chan = some c ∧ j.phase = .final)) 0),
      (1, bitAt (jobsWhere s fun j => decide (j.chan = some c ∧ j.phase = .leafBuilt) && (logAt s j.inst).ringWait) 0),
      (8, sat 255 (leavesPending s c))]
  | 0x044 => p.built.toNat
  | 0x048 => p.committed.toNat
  | 0x04C => p.discarded.toNat
  | _ => 0

/-- Rings bound to the intake of channel `c`: pool number and ring key, in ascending pool number (INT_RING). -/
def boundRings (s : State) (c : Nat) : List (Nat × Nat) :=
  let rs := s.rings.filterMap fun (e : Nat × Ring) =>
    if e.2.intake = c then e.2.pool.map fun g => (g, e.1) else none
  (List.range 4096).filterMap fun g => rs.find? fun r => decide (r.1 = g)

/-- Per-accessor registers that State keeps in `regs` (R317). -/
def accReg (a p off : Nat) : Nat := 2 ^ 24 * (a + 1) + 2 ^ 12 * p + off

/-- Intakes, slot 11 (R51 to R57 of 01). -/
def intakeRead (s : State) (a p off : Nat) : Nat :=
  let c := chanOf p
  let x := intakeAt s c
  let j := (tget 0 s.regs (accReg a p 0x050)).toNat
  match off with
  | 0x040 =>
    pack [(0, bitAt (!x.scan.isEmpty) 0), (1, bitAt x.waitBallast 0), (2, bitAt x.quotaSkip 0),
      (8, s.rings.countP fun e => e.2.pool.isSome && decide (e.2.intake = c))]
  | 0x044 => x.taken.toNat
  | 0x048 => x.handed.toNat
  | 0x04C => x.scans.toNat
  | 0x050 => j
  | 0x054 =>
    match (boundRings s c)[j]? with
    | some (g, k) => pack [(0, g), (12, k / 16), (22, k % 16), (31, 1)]
    | none => 0
  | _ => 0

/-! ### Instances -/

/-- Jobs of instance `i` without a written or discarded completion (INST_USE.JOBS). -/
def instJobs (s : State) (i : Nat) : Nat := s.jobs.countP fun e => decide (e.2.inst = i ∧ e.2.origin = none)

/-- INST_CFG0 and INST_CFG1 in the layout of R624. -/
def instCfg (x : Inst) (k : Nat) : Nat :=
  if !x.created then 0
  else if k = 0 then pack [(0, x.port), (1, x.rings), (8, x.overlapLog2), (16, x.weight), (24, x.span)]
  else pack [(0, x.ballast), (16, x.mcSlot.getD 0), (18, bitAt x.mcSlot.isSome 0)]

/-- Instance i, page 0x400 + i (15). -/
def instRead (s : State) (i off : Nat) : Nat :=
  let x := instAt s i
  match off with
  | 0x040 => instCfg x 0
  | 0x044 => instCfg x 1
  | 0x048 => if x.created then x.kcShare else 0
  | 0x04C => if x.created then lo32 x.chans else 0
  | 0x050 => if x.created then hi32 x.chans else 0
  | 0x054 => pack [(0, instHeld s i), (16, sat 0xFFFF (instJobs s i))]
  | 0x058 => pack [(0, x.gen), (8, bitAt x.saved 0), (9, bitAt x.waitWrap 0)]
  | _ => 0

/-- The data-path page of instance i (R113, R114, R659 of 15). -/
def dpRead (s : State) (i off : Nat) : Nat :=
  let x := instAt s i
  match off with
  | 0x040 => pack [(0, i), (10, x.gen), (18, bitAt (unitAt s (instPage i)).quiesce 0), (19, bitAt x.saved 0)]
  | 0x044 => ((List.range 16).map fun r => bitAt (ringThere s i r) r).sum
  | 0x048 => pack [(0, x.ballast), (16, instHeld s i)]
  | 0x04C => x.dpEvent.toNat
  | 0x050 => x.dpEventEn.toNat
  | _ => if off < 0x040 then headerRead s (instPage i) off else 0

/-- A ring page (R115, R116, R121 to R127 of 03). -/
def ringRead (s : State) (i r off : Nat) : Nat :=
  let x := ringAt s (ringKey i r)
  if !ringThere s i r then 0
  else match off with
    | 0x000 => x.baseLo.toNat
    | 0x004 => x.baseHi.toNat
    | 0x008 => x.log2
    | 0x010 => x.head
    | 0x014 =>
      pack [(0, bitAt x.enable 0), (1, bitAt (ringActive s (ringKey i r)) 0), (2, bitAt (ringIdle s (ringKey i r)) 0),
        (3, bitAt x.error 0), (4, x.cause), (16, if x.error then x.faultIndex else 0)]
    | 0x018 => pack [(0, r), (8, bitAt x.every 0)]
    | _ => 0

/-- An MSI-X table of a function, 16 bytes an entry (PCI Express): address, data, Vector Control. -/
def msixRead (s : State) (func n off : Nat) : Nat :=
  let e := msixAt s func (off / 16)
  if n ≤ off / 16 then 0
  else match off % 16 with
    | 0 => lo32 e.addr
    | 4 => hi32 e.addr
    | 8 => e.data.toNat
    | _ => bitAt e.masked 0

/-- A pending-bit array. -/
def pendingRead (s : State) (func n off : Nat) : Nat :=
  if off = 0 then ((List.range n).map fun k => bitAt (msixAt s func k).pending k).sum else 0

/-- MSI-X entries of a virtual function (R113) and of a physical function (R96). -/
def vfEntries : Nat := 17
def pfEntries : Nat := 1

/-- First page number under which the model names page 0 of BAR2 of virtual function 1, 32 pages an instance (R113), and BAR4
of physical function 0, two pages a function (R118). -/
def bar2Base : Nat := 0x1000
def bar4Base : Nat := 0xA000

/-- BAR4 page of the accessor's own physical function (DEDUCED, log 92). -/
def bar4Page (acc : Acc) : Option Nat :=
  match acc with
  | .pf0 => some bar4Base
  | .pf1 => some (bar4Base + 2)
  | _ => none

/-- A read of page `g` of BAR2 of instance `i` (R113). -/
def bar2Read (s : State) (i g off : Nat) : Nat :=
  match g with
  | 0 => dpRead s i off
  | 17 => msixRead s i vfEntries off
  | 18 => pendingRead s i vfEntries off
  | g => if g ≤ 16 then ringRead s i (g - 1) off else 0

/-! ### Any page of BAR0 -/

/-- The registers of a unit's page from offset 0x040 on. -/
def bodyRead (s : State) (acc : Acc) (p off : Nat) : Nat :=
  let a := accIdx acc
  match kindOf p with
  | 0x01 => rootRead s a off
  | 0x02 => halfRead s (p - 0x090) off
  | 0x03 => chanRead s a (chanOf p) off
  | 0x04 => caritRead s a p off
  | 0x05 => sailRead s p off
  | 0x06 => sailRead s p off
  | 0x07 => bulkRead s a (chanOf p) off
  | 0x08 => if p = 0x082 then audRead s acc off else auditPortRead s (chanOf p) off
  | 0x09 => if p = 0x005 then rngRead s a off else drbgRead s (chanOf p) off
  | 0x0A => kcRead s off
  | 0x0B => tetherRead s acc off
  | 0x0C => tamperRead s a off
  | 0x0D => flashRegRead s a off
  | 0x0E => ccbRead s a off
  | 0x0F => tagRead s a off
  | 0x10 => if p = 0x020 then brlRead s a off else lineRead s a (p - 0x040) off
  | 0x11 => portRead s (p - 1) off
  | 0x12 => instRead s (p - 0x400) off
  | 0x13 => intakeRead s a p off
  | 0x14 => mooringRead s a off
  | 0x15 => otpRead s a off
  | 0x16 => debugRead s a off
  | 0x17 => lcRead s a off
  | 0x18 => ballastRead s off
  | 0x19 => imRead s a off
  | _ => 0

/-- The value of the register at `off` of page `p`, without side effects (R77, R107): unassigned pages and registers read 0, and
expert registers read 0 at the basic level. -/
def pageRead (s : State) (acc : Acc) (p off : Nat) : Nat :=
  if 0x010 ≤ p ∧ p ≤ 0x018 then viewRead s (accIdx acc) (p - 0x010) off
  else if kindOf p = 0 then 0
  else if off < 0x040 then headerRead s p off
  else if 0x800 ≤ off ∧ !(unitAt s p).level then 0
  else bodyRead s acc p off

/-! ### Snapshots (R317) -/

/-- The 64-bit value behind a LO register that takes a snapshot. -/
def snapValue (s : State) (acc : Acc) (p off : Nat) : Option Nat :=
  let l := logAt s (audSel s acc)
  match kindOf p, off with
  | 0x0B, 0x048 => some (position s)
  | 0x0B, 0x05C => some s.tether.lastSec
  | 0x08, 0x068 => if p = 0x082 then some l.seqNext else none
  | 0x08, 0x070 => if p = 0x082 then some l.covered else none
  | 0x08, 0x078 => if p = 0x082 then some l.sealNext else none
  | 0x07, 0x048 => some (laneAt s (chanOf p)).bytes
  | 0x09, 0x058 => if p = 0x005 then some s.rng.blocks else none
  | 0x04, 0x048 => some (coreAt s p).instrs
  | 0x04, 0x050 => some (coreAt s p).stalls
  | 0x16, 0x048 => some s.dbg.last
  | 0x03, 0x044 => some (chanAt s (chanOf p)).pos
  | 0x10, 0x058 =>
    if p = 0x020 then some (if s.bridle.record.isSome then recSerial (heldRecord s) else 0) else some (lineAt s (p - 0x040)).rx
  | 0x10, 0x060 => if p = 0x020 then none else some (lineAt s (p - 0x040)).tx
  | 0x14, 0x044 => some s.mooring.rtc
  | _, _ => none

/-- The accessor's snapshot of the value of a LO register. -/
def snapKeep (s : State) (a p off v : Nat) : State :=
  match kindOf p, off with
  | 0x0B, 0x048 => { s with tether := { s.tether with posSnap := tset 0 s.tether.posSnap a v } }
  | 0x0B, _ => { s with tether := { s.tether with secSnap := tset 0 s.tether.secSnap a v } }
  | 0x08, o => { s with audit := { s.audit with snap := tset 0 s.audit.snap (4 * a + (o - 0x068) / 8) v } }
  | 0x07, _ =>
    let l := laneAt s (chanOf p)
    putLane s (chanOf p) { l with bytesSnap := tset 0 l.bytesSnap a v }
  | 0x09, _ => { s with rng := { s.rng with blocksSnap := tset 0 s.rng.blocksSnap a v } }
  | 0x04, 0x048 =>
    let c := coreAt s p
    putCore s p { c with instrSnap := tset 0 c.instrSnap a v }
  | 0x04, _ =>
    let c := coreAt s p
    putCore s p { c with stallSnap := tset 0 c.stallSnap a v }
  | 0x16, _ => { s with dbg := { s.dbg with lastSnap := tset 0 s.dbg.lastSnap a v } }
  | 0x03, _ =>
    let x := chanAt s (chanOf p)
    putChan s (chanOf p) { x with posSnap := tset 0 x.posSnap a v }
  | 0x14, _ => { s with mooring := { s.mooring with rtcSnap := tset 0 s.mooring.rtcSnap a v } }
  | 0x10, o =>
    if p = 0x020 then modBridle s fun b => { b with serialSnap := tset 0 b.serialSnap a v }
    else if o = 0x058 then modLine s (p - 0x040) fun l => { l with rxSnap := tset 0 l.rxSnap a v }
    else modLine s (p - 0x040) fun l => { l with txSnap := tset 0 l.txSnap a v }
  | _, _ => s

/-! ### A read by an accessor -/

/-- HI registers of AUD_SEQ, AUD_COVERED, AUD_SEAL and MOOR_RTC show bits 47:32; the values are 48 bits wide. -/
def readFrom (s : State) (acc : Acc) (p off : Nat) : Nat × State :=
  if 0x800 ≤ off ∧ !(unitAt s p).level then (0, s)
  else match snapValue s acc p off with
    | some v => (lo32 v, snapKeep s (accIdx acc) p off v)
    | none =>
      if (kindOf p = 0x05 ∨ kindOf p = 0x06) ∧ (off = 0x828 ∨ off = 0x82C) then windowRead s p (decide (off = 0x82C))
      else (pageRead s acc p off, s)

/-- A page whose unit is without power in STANDBY reads as an unassigned page (R867 of 22). -/
def readsUnassigned (s : State) (p : Nat) : Bool :=
  decide (s.power.state = .standby) && (isChanPage p || decide (p = 0x090 ∨ p = 0x091 ∨ (0x020 ≤ p ∧ p < 0x080)))

/-- The virtual function of instance `i` exists on the port that the instance is bound to (R617 of 15). -/
def vfThere (s : State) (i : Nat) : Bool :=
  decide (i < 1024 ∧ s.power.state ≠ .moored) && (instAt s i).created && vfExists s (instAt s i).port i

/-- A 32-bit read by an accessor (R73): its value, or none where no completion with data comes, and the state after it. A
misaligned read completes with every byte 0xFF. A virtual function without a created instance reads 0 (R617 of 15). FL_WIN_DATA
is read without an ECC error. A page or function that is not there gives no data (PRESUMED, log 115). -/
def regRead (s : State) (acc : Acc) (p off : Nat) : Option Nat × State :=
  if off % 4 ≠ 0 ∨ 0x1000 ≤ off then (some 0xFFFFFFFF, s)
  else if acc = .vf then
    let i := (p - bar2Base) / 32
    if bar2Base ≤ p ∧ vfThere s i then (some (bar2Read s i ((p - bar2Base) % 32) off), s)
    else if bar2Base ≤ p ∧ i < 1024 ∧ s.power.state ≠ .moored ∧ (vfExists s 0 i ∨ vfExists s 1 i) then (some 0, s)
    else (none, s)
  else if bar4Page acc = some p then (some (msixRead s (pfFunc (accIdx acc)) pfEntries off), s)
  else if (bar4Page acc).map (· + 1) = some p then (some (pendingRead s (pfFunc (accIdx acc)) pfEntries off), s)
  else if readsUnassigned s p then (some 0, s)
  else if !reaches s acc p then (none, s)
  else if p = flashPage ∧ off = 0x048 then (none, s)
  else
    let (v, s) := readFrom s acc p off
    (some (v % 2 ^ 32), s)

end Sys2Proof.Machine
end

