-- ==== Sys2Proof/Machine/RegWrite.lean ====
section
/-! DEFINITION. What a write of a register does, for every register of every page, and the commands REGISTER_WRITE and
SNAPSHOT_READ (R12 of 00_scope.md; R73, R107, R108 of 02_unit_pages.md; R317 of 06_tether.md). -/

namespace Sys2Proof.Machine

/-! ### The common header -/

/-- A write of UNIT_CTRL (R86, R102, R109): LEVEL is judged by the state before the write, then QUIESCE and ENABLE follow. -/
def writeCtrl (s : State) (p v : Nat) : State :=
  let s' := writeLevel s p (bit v 1)
  let s' := if bit v 2 = (unitAt s' p).quiesce then s' else if bit v 2 then writeQuiesce1 s' p else writeQuiesce0 s' p
  let s' := if bit v 0 = (unitAt s' p).enable then s' else if bit v 0 then writeEnable1 s' p else writeEnable0 s' p
  let s' := if (unitAt s' p).enable = (unitAt s p).enable then s' else keepEnable s' p
  linesAfter s (rebindAll (noteCtrl (unitAt s p) s' p))

/-- A write of the common header of a unit's page. -/
def headerPut (s : State) (acc : Acc) (p off : Nat) (v : Word32) : State :=
  match off with
  | 0x00C => if ctrlWrite s acc p then writeCtrl s p v.toNat else s
  | 0x010 => if v.getLsbD 30 then writeFaultClear s p else s
  | 0x014 => if v.toNat % 2 ^ 16 = 0xD1E5 then linesAfter s (rebindAll (requestRetire s p)) else s
  | 0x01C => writeEvent s p v
  | 0x020 => writeEventEn s p v
  | 0x024 => if v.getLsbD 0 then writeLock s p else s
  | _ => s

/-- A write of an RWL field that would change it: refused while the page is locked (R108). -/
def lockedWrite (s : State) (p : Nat) (changes : Bool) (f : State → State) : State :=
  if !changes then s else if (unitAt s p).lock then refuseWrite s p else f s

/-! ### Pages 0x000 to 0x00D -/

/-- Device root. -/
def rootWrite (s : State) (acc : Acc) (off : Nat) (v : Word32) : State :=
  let a := accIdx acc
  let n := v.toNat
  match off with
  | 0x040 =>
    let s := { s with power := { s.power with idleEn := bit n 0, idleDelay := bits n 8 8 } }
    let s := if bit n 1 then requestStandby s else s
    if bit n 2 then leaveStandby s else s
  | 0x060 => { s with power := { s.power with stageLo := v } }
  | 0x064 => { s with power := { s.power with stageHi := v } }
  | 0x068 => { s with power := { s.power with stageLen := v } }
  | 0x06C => if bit n 0 then fwGo s else s
  | 0x204 =>
    lockedWrite s 0 (decide (bits n 0 8 ≠ s.faults.testAt)) fun s => { s with faults := { s.faults with testAt := bits n 0 8 } }
  | 0x20C => { s with faults := { s.faults with sel := tset 0 s.faults.sel a (bits n 0 8) } }
  | _ => s

/-- Host ports: HP_IDE.REQUIRE. -/
def hostPortWrite (s : State) (n off : Nat) (v : Word32) : State :=
  match off with
  | 0x048 =>
    let p := portAtN s n
    lockedWrite s (portPage n) (decide (v.getLsbD 0 ≠ p.require)) fun s => putPortN s n { p with require := v.getLsbD 0 }
  | _ => s

/-- Tamper. -/
def tamperWrite (s : State) (a off : Nat) (v : Word32) : State :=
  match off with
  | 0x044 => writeFired s false v
  | 0x048 => writeFired s true v
  | 0x060 => burnFuse s v
  | 0x064 => writeTest s v
  | 0x070 => { s with tamper := { s.tamper with logSel := tset 0 s.tamper.logSel a (bits v.toNat 0 8) } }
  | _ => if 0x100 ≤ off ∧ off < 0x100 + 4 * 42 then writeSrcCfg s ((off - 0x100) / 4) v else s

/-- Fields of the selected event table entry: dropped while it is ARMED (R326). -/
def writeEvtField (s : State) (acc : Acc) (f : EvEntry → EvEntry) : State :=
  let e := evtAt s (evtSel s acc)
  if e.state = .armed then s else putEvt s (evtSel s acc) (f e)

/-- Tether and event table. -/
def tetherWrite (s : State) (acc : Acc) (off : Nat) (v : Word32) : State :=
  let n := v.toNat
  match off with
  | 0x040 =>
    let t := s.tether
    lockedWrite s 0x006 (decide (bits n 0 2 ≠ t.source ∨ bit n 2 ≠ t.ppsEdge)) fun s =>
      { s with tether := { t with source := bits n 0 2, ppsEdge := bit n 2 } }
  | 0x050 => writeNextSec s v
  | 0x054 => if tetherSource s.tether = 0 then s else { s with tether := { s.tether with nextSecHi := v } }
  | 0x058 => if tetherSource s.tether = 2 ∧ !followsBridle s then pulse s none else s
  | 0x080 => { s with evtSel := tset 0 s.evtSel (accIdx acc) (bits n 0 8) }
  | 0x084 => writeEvtField s acc fun e => { e with pos := e.pos / 2 ^ 32 * 2 ^ 32 + n }
  | 0x088 => writeEvtField s acc fun e => { e with pos := e.pos % 2 ^ 32 + 2 ^ 32 * n }
  | 0x08C => writeEvtField s acc fun e => { e with action := bits n 0 8, period := bits n 8 6 }
  | 0x090 => writeEvtField s acc fun e => { e with inst := bits n 0 10, chan := bits n 10 6, slot := bits n 16 8 }
  | 0x094 => writeEvtCtrl s acc n
  | _ => s

/-- Flash controller: FL_WIN_ADDR, and a write cycle from ring 0 (R768, R769). -/
def flashRegWrite (s : State) (acc : Acc) (off : Nat) (v : Word32) : State :=
  let a := accIdx acc
  match off with
  | 0x044 => { s with flash := { s.flash with winAddr := tset 0 s.flash.winAddr a (v &&& 0x83FFFFFC) } }
  | 0x048 => if acc = .fw0 then winAdvance (writeCycle s (winAddr s a % 2 ^ 26) v) a else s
  | _ => s

/-- Custodian card bus. -/
def ccbWrite (s : State) (acc : Acc) (off : Nat) (v : Word32) : State :=
  let a := accIdx acc
  let x := cardAccAt s a
  match off with
  | 0x054 => putCardAcc s a { x with idSel := bits v.toNat 0 2 }
  | 0x080 => writeCardCmd s acc v
  | 0x084 => putCardAcc s a { x with wcount := v }
  | 0x09C => cardAbort s acc v
  | _ =>
    if 0x08C ≤ off ∧ off ≤ 0x098 then
      let k := off - 0x08C
      putCardAcc s a { x with pwd := pad 16 (slice x.pwd 0 k ++ le 4 v.toNat ++ slice x.pwd (k + 4) 16) }
    else s

/-- Custody tag. -/
def tagWrite (s : State) (a off : Nat) (v : Word32) : State :=
  let t := s.tag
  match off with
  | 0x04C => putTag s { t with jrSel := tset 0 t.jrSel a (bits v.toNat 0 10) }
  | 0x0A8 => putTag s { t with appExpect := v }
  | 0x0AC => deviceAppend s v
  | 0x0B0 => writeTagKey s v
  | 0x0CC => clearJournal s v
  | _ =>
    if 0x090 ≤ off ∧ off ≤ 0x0A4 then putTag s { t with appData := tset 0 t.appData ((off - 0x090) / 4) v }
    else if 0x0B4 ≤ off ∧ off ≤ 0x0C0 then putTag s { t with keyWords := tset 0 t.keyWords ((off - 0x0B4) / 4) v }
    else s

/-- Mooring domain. -/
def mooringWrite (s : State) (a off : Nat) (v : Word32) : State :=
  match off with
  | 0x060 => { s with mooring := { s.mooring with logSel := tset 0 s.mooring.logSel a (bits v.toNat 0 4) } }
  | 0x084 => clearMooringLog s v
  | _ => s

/-- OTP: OTP_SEL. -/
def otpWrite (s : State) (a off : Nat) (v : Word32) : State :=
  match off with
  | 0x044 => { s with otpRegs := { s.otpRegs with sel := tset 0 s.otpRegs.sel a (v &&& 0xFF0F) } }
  | _ => s

/-- Lifecycle: the bundle's address and length, and LC_CMD. -/
def lcWrite (s : State) (acc : Acc) (off : Nat) (v : Word32) : State :=
  let a := accIdx acc
  let x := lcAt s a
  match off with
  | 0x07C => putLc s a { x with bufLo := v }
  | 0x080 => putLc s a { x with bufHi := v }
  | 0x084 => putLc s a { x with bufLen := v }
  | 0x088 =>
    if v.getLsbD 31 then lcGo s acc (bits v.toNat 0 3)
    else if x.state = 1 then s else putLc s a { x with cmd := bits v.toNat 0 3 }
  | _ => s

/-! ### Gondola views and the bridle -/

/-- A gondola view (R728 of 17): UNIT_EVENT, UNIT_EVENT_EN, UNIT_LOCK and GV_MEMBER_SEL; other writes are dropped
(DEDUCED, log 86). -/
def viewWrite (s : State) (a k off : Nat) (v : Word32) : State :=
  let p := 0x010 + k
  match off with
  | 0x01C => writeEvent s p v
  | 0x020 => writeEventEn s p v
  | 0x024 => if v.getLsbD 0 then writeLock s p else s
  | 0x050 => modBridle s fun b => { b with gvSel := tset 0 b.gvSel (16 * a + k) (bits v.toNat 0 9) }
  | _ => s

/-- Bridle root. -/
def brlWrite (s : State) (a off : Nat) (v : Word32) : State :=
  let n := v.toNat
  match off with
  | 0x044 => modBridle s fun b => { b with recLo := v }
  | 0x048 => modBridle s fun b => { b with recHi := v }
  | 0x04C => modBridle s fun b => { b with recLen := v }
  | 0x050 => formCmd (modBridle s fun b => { b with target := bits n 16 9 }) (bits n 0 3)
  | 0x064 => modBridle s fun b => { b with routeSel := tset 0 b.routeSel a (bits n 0 9) }
  | 0x06C =>
    lockedWrite s brlPage (decide (bits n 0 4 ≠ s.bridle.fwdDepth)) fun s => modBridle s fun b => { b with fwdDepth := bits n 0 4 }
  | _ => s

/-- Bridle line m: LINE_CFG (R692, R919 of 17). -/
def lineWrite (s : State) (m off : Nat) (v : Word32) : State :=
  let n := v.toNat
  match off with
  | 0x040 =>
    lockedWrite s (linePage m) (decide (n % 2 ^ 16 ≠ lineCfgRead (lineAt s m))) fun s =>
      keepLines (modLine s m fun l => { l with first := bits n 0 9, count := bits n 9 6, spare := bit n 15 })
  | _ => s

/-! ### Key cache, audit, instance manager, engines -/

/-- Key cache. -/
def kcWrite (s : State) (off : Nat) (v : Word32) : State :=
  match off with
  | 0x064 => writeFlush s v
  | 0x800 => { s with kc := { s.kc with probeSet := bits v.toNat 0 15, probeWay := bits v.toNat 16 3 } }
  | _ => s

/-- Audit. -/
def audWrite (s : State) (acc : Acc) (off : Nat) (v : Word32) : State :=
  let i := audSel s acc
  match off with
  | 0x040 => { s with audit := { s.audit with sel := tset 0 s.audit.sel (accIdx acc) (bits v.toNat 0 10) } }
  | 0x044 => writeAudCfg s i v.toNat
  | 0x058 => writeRingRd s i v.toNat
  | off => writeAudConfig s i off v.toNat

/-- Instance manager: the request window, KH_SEL and MC_SEL. -/
def imWrite (s : State) (acc : Acc) (off : Nat) (v : Word32) : State :=
  let a := accIdx acc
  let n := v.toNat
  let w := winAt s a
  match off with
  | 0x080 =>
    if bit n 31 then imGo s acc (bits n 0 8) (bits n 8 10) none
    else if winBusy w then s else putWin s a { w with op := bits n 0 8, inst := bits n 8 10 }
  | 0x600 =>
    { s with kh := { s.kh with
      selSlot := tset 0 s.kh.selSlot a (bits n 0 5), selInst := tset 0 s.kh.selInst a (bits n 16 10) } }
  | 0x680 => { s with mc := { s.mc with sel := tset 0 s.mc.sel a (bits n 0 2) } }
  | _ =>
    if 0x060 ≤ off ∧ off ≤ 0x07C then putWin s a { w with args := tset 0 w.args ((off - 0x060) / 4) v } else s

/-- Sail engines: the expert registers (R449 of 09). -/
def sailWrite (s : State) (p off : Nat) (v : Word32) : State :=
  let e := sailAt s p
  match off with
  | 0x800 => writeSailCmd s p v
  | 0x804 => putSail s p { e with arg0 := v }
  | 0x808 => putSail s p { e with arg1 := v }
  | 0x80C => putSail s p { e with arg2 := v }
  | 0x810 => putSail s p { e with arg3 := v }
  | 0x814 => putSail s p { e with xlen := v }
  | 0x824 => putSail s p { e with memAddr := v &&& 0x11FFF }
  | 0x828 => windowWrite s p false v
  | 0x82C => windowWrite s p true v
  | 0x830 => if v = 0xA5A5 then abortEngine s p else s
  | _ => s

/-- Bulk lanes: the expert registers (R500 of 11). -/
def bulkWrite (s : State) (c off : Nat) (v : Word32) : State :=
  match off with
  | 0x800 => writeBulkCmd s c (bits v.toNat 0 8) (bits v.toNat 8 8)
  | 0x804 => writeFeed s c v
  | 0x808 => putLane s c { laneAt s c with xlen := v }
  | _ => s

/-- Channel DRBGs: DRBG_CTRL (R519 of 12). -/
def drbgWrite (s : State) (c off : Nat) (v : Word32) : State :=
  match off with
  | 0x050 => if v.getLsbD 0 then demandReseed s c else s
  | _ => s

/-- Intakes: INT_RING_SEL. -/
def intakeWrite (s : State) (a p off : Nat) (v : Word32) : State :=
  match off with
  | 0x050 => { s with regs := tset 0 s.regs (accReg a p 0x050) (v &&& 0xFFF) }
  | _ => s

/-! ### BAR2 and BAR4 -/

/-- A W1C write of DP_EVENT, and a write of DP_EVENT_EN: a page left raised sends its message again (R659 of 15). -/
def writeDpEvent (s : State) (i : Nat) (f : Inst → Inst) : State :=
  let x := f (instAt s i)
  let s := putInst s i x
  if x.dpEvent &&& x.dpEventEn ≠ 0 then sendMsix s i 16 else s

/-- A write of an MSI-X table entry (PCI Express); clearing the mask sends a pending message. -/
def msixWrite (s : State) (func n off : Nat) (v : Word32) : State :=
  let k := off / 16
  let e := msixAt s func k
  let put (e : MsixEntry) : State := { s with msix := tset {} s.msix (32 * func + k) e }
  if n ≤ k then s
  else match off % 16 with
    | 0 => put { e with addr := e.addr / 2 ^ 32 * 2 ^ 32 + v.toNat / 4 * 4 }
    | 4 => put { e with addr := e.addr % 2 ^ 32 + 2 ^ 32 * v.toNat }
    | 8 => put { e with data := v }
    | _ => if v.getLsbD 0 then put { e with masked := true } else unmask s func k

/-- A write of a ring page (R115, R116, R121 to R134 of 03). -/
def ringWriteReg (s : State) (i r off : Nat) (v : Word32) : State :=
  let k := ringKey i r
  if !ringThere s i r then s
  else match off with
    | 0x00C => if ringActive s k then wakeRing (wakeIdle s) k else s
    | 0x014 => if v.getLsbD 0 then enableRingPage s k else disableRingPage s k
    | 0x018 => putRing s k { ringAt s k with every := v.getLsbD 8 }
    | off => writeRingConfig s k off v

/-- A write of page `g` of BAR2 of instance `i` (R113, R114). -/
def bar2Write (s : State) (i g off : Nat) (v : Word32) : State :=
  match g with
  | 0 =>
    match off with
    | 0x04C => writeDpEvent s i fun x => { x with dpEvent := x.dpEvent &&& ~~~v }
    | 0x050 => writeDpEvent s i fun x => { x with dpEventEn := v &&& 0x1F }
    | _ => s
  | 17 => msixWrite s i vfEntries off v
  | g => if g ≤ 16 then ringWriteReg s i (g - 1) off v else s

/-! ### Any page -/

/-- The registers of a unit's page from offset 0x040 on. -/
def bodyWrite (s : State) (acc : Acc) (p off : Nat) (v : Word32) : State :=
  let a := accIdx acc
  match kindOf p with
  | 0x01 => rootWrite s acc off v
  | 0x05 => sailWrite s p off v
  | 0x06 => sailWrite s p off v
  | 0x07 => bulkWrite s (chanOf p) off v
  | 0x08 => if p = 0x082 then audWrite s acc off v else s
  | 0x09 => if p = 0x005 then s else drbgWrite s (chanOf p) off v
  | 0x0A => kcWrite s off v
  | 0x0B => tetherWrite s acc off v
  | 0x0C => tamperWrite s a off v
  | 0x0D => flashRegWrite s acc off v
  | 0x0E => ccbWrite s acc off v
  | 0x0F => tagWrite s a off v
  | 0x10 => if p = 0x020 then brlWrite s a off v else lineWrite s (p - 0x040) off v
  | 0x11 => hostPortWrite s (p - 1) off v
  | 0x13 => intakeWrite s a p off v
  | 0x14 => mooringWrite s a off v
  | 0x15 => otpWrite s a off v
  | 0x17 => lcWrite s acc off v
  | 0x19 => imWrite s acc off v
  | _ => s

/-- A write of the register at `off` of page `p` (R77, R107). -/
def pageWrite (s : State) (acc : Acc) (p off : Nat) (v : Word32) : State :=
  if 0x010 ≤ p ∧ p ≤ 0x018 then
    if (viewGondola s (p - 0x010)).isSome then viewWrite s (accIdx acc) (p - 0x010) off v else s
  else if kindOf p = 0 then s
  else if off < 0x040 then headerPut s acc p off v
  else if 0x800 ≤ off ∧ !(unitAt s p).level then s
  else bodyWrite s acc p off v

/-- A 32-bit write by an accessor (R73): misaligned writes are dropped (DEDUCED, log 25). -/
def regWrite (s : State) (acc : Acc) (p off : Nat) (v : Word32) : State :=
  if off % 4 ≠ 0 ∨ 0x1000 ≤ off then s
  else if acc = .vf then
    let i := (p - bar2Base) / 32
    if bar2Base ≤ p ∧ vfThere s i then bar2Write s i ((p - bar2Base) % 32) off v else s
  else if bar4Page acc = some p then msixWrite s (pfFunc (accIdx acc)) pfEntries off v
  else if reaches s acc p then pageWrite s acc p off v
  else s

/-! ### Meanings -/

/-- REGISTER_WRITE (R12, R73, R108). -/
def execRegisterWrite (acc : Acc) (page offset : Nat) (value : Word32) (s : State) : Host.Outcome State Fault Refusal :=
  .next (regWrite s acc page offset value)

/-- SNAPSHOT_READ (R317): the read's value goes to its accessor; a LO register's snapshot is taken. A page that does not
answer gives an error response (R876 of 22, R770 of 19). -/
def execSnapshotRead (acc : Acc) (page offset : Nat) (s : State) : Host.Outcome State Fault Refusal :=
  if s.power.state = .moored then stay s
  else if page = flashPage ∧ offset = 0x048 ∧ reaches s acc flashPage then .next (flashRead s acc 0)
  else match regRead s acc page offset with
    | (some v, s) => .next (emit s (.readValue acc (w32 v)))
    | (none, s) => .next (emit s (.readError acc))

end Sys2Proof.Machine
end

