-- ==== Sys2Proof/Machine/CaritMem.lean ====
section
/-! DEFINITION. What a Carit core reaches: its address map, the protection unit and the order of its checks, local memory
with granule tags, the data cache of the channel window, the device window, and capability windows
(14_exceptions_privilege_protection.md, R598 to R610; 05_key_blobs_and_cache.md, R286, R294). -/

namespace Sys2Proof.Machine

/-- What an access asks for (R608). -/
inductive AccKind where
  | read | write | exec
  deriving DecidableEq, Repr

/-- An exception as it is raised: vector, DETAIL and FADDR (R580, R582). -/
structure Exc where
  vec : Nat
  detail : Nat := 0
  faddr : Nat := 0
  deriving DecidableEq, Repr

/-- Where a byte of a core's address map lies (R599). -/
inductive Target where
  | own (off : Nat)
  | window (page off : Nat)
  | device (page off : Nat)
  | nowhere
  deriving DecidableEq, Repr

/-- The target of address `a` on core `p` (R599). -/
def targetOf (p a : Nat) : Target :=
  if a < 0x20000 then .own a
  else if 0x10000000 ≤ a ∧ a < 0x10080000 then
    .window (chanPage (chanOf p) + 1 + (a - 0x10000000) / 0x20000) ((a - 0x10000000) % 0x20000)
  else if 0x40000000 ≤ a ∧ a < 0x41000000 then .device ((a - 0x40000000) / 0x1000) (a % 0x1000)
  else .nowhere

/-! ### The protection unit (R602, R603, R605, R608) -/

def rbaseOf (c : Core) (i : Nat) : Nat := (tget 0 c.mpu (0x060 + 2 * i)).toNat
def rlimitOf (c : Core) (i : Nat) : Nat := (tget 0 c.mpu (0x061 + 2 * i)).toNat

/-- Region `i`, in force and enabled, covers address `a`. -/
def regionCovers (c : Core) (a i : Nat) : Bool :=
  let b := rbaseOf c i
  bit b 0 && decide (b / 256 * 256 ≤ a ∧ a ≤ rlimitOf c i / 256 * 256 + 0xFF)

/-- The region that governs address `a` (R603). -/
def regionOf (c : Core) (a : Nat) : Option Nat := (List.range 16).find? (regionCovers c a)

/-- A page of the device window is closed to a ring whatever a region grants (R600). -/
def deviceClosed (ring a : Nat) : Bool :=
  decide (0x40000000 ≤ a ∧ a < 0x41000000) &&
    (decide (2 ≤ ring) ||
      (decide (ring = 1) && let p := (a - 0x40000000) / 0x1000; decide (p = 0x004 ∨ (0x00A ≤ p ∧ p ≤ 0x00D))))

/-- DETAIL of a missing permission. -/
def kindDetail : AccKind → Nat
  | .read => 2 | .write => 3 | .exec => 4

/-- The checks of R608 on one byte, 0 when it passes. `plain`: an ordinary load or store (R605)
(DEDUCED, log 43; DEDUCED, log 44). -/
def byteCheck (c : Core) (ring : Nat) (k : AccKind) (plain : Bool) (a : Nat) : Nat :=
  match regionOf c a with
  | none =>
    if 2 ≤ ring then 1
    else if deviceClosed ring a then 7
    else if k = .exec ∧ 0x6000 ≤ a then 4
    else 0
  | some i =>
    let b := rbaseOf c i
    if deviceClosed ring a then 7
    else if bits b 4 2 < ring then 5
    else if !bit b (match k with | .read => 1 | .write => 2 | .exec => 3) then kindDetail k
    else if plain && decide (2 ≤ ring) && bit (rlimitOf c i) 5 then 6
    else 0

/-- What governs a byte and where it lies: bytes that agree form one part of a straddling access (R609). -/
def partKey (p : Nat) (c : Core) (a : Nat) : Option Nat × Nat :=
  (regionOf c a, match targetOf p a with
    | .own _ => 0 | .window _ _ => 1 | .device _ _ => 2 | .nowhere => 3)

/-- The bus check of one byte of an access of `n` bytes at `addr`: 0, 1 UNMAPPED or 4 WIDTH (R599, R600, R609)
(DEDUCED, log 46). -/
def busCheck (p : Nat) (c : Core) (addr n a : Nat) : Nat :=
  match targetOf p a with
  | .nowhere => 1
  | .device _ _ =>
    let part := ((List.range n).map (addr + ·)).filter fun x => partKey p c x = partKey p c a
    if part.length = 4 ∧ part.headD 0 % 4 = 0 then 0 else 4
  | _ => 0

/-- The checks of an address-map access (R599, R608, R609): the exception of the first byte that fails, protection first. -/
def accessCheck (p : Nat) (c : Core) (ring : Nat) (k : AccKind) (plain : Bool) (addr n : Nat) : Option Exc :=
  if 2 ^ 32 ≤ addr then some ⟨9, 1, addr⟩
  else
    let as := (List.range n).map (addr + ·)
    match as.find? fun a => byteCheck c ring k plain a ≠ 0 with
    | some a => some ⟨8, byteCheck c ring k plain a, a⟩
    | none => match as.find? fun a => busCheck p c addr n a ≠ 0 with
      | some a => some ⟨9, busCheck p c addr n a, a⟩
      | none => none

/-! ### Local memory and its tags (R294, R568) -/

/-- Bytes put into a table, a 0 removing its entry. -/
def putBytes (m : Tab Byte) : Nat → Bytes → Tab Byte
  | _, [] => m
  | off, b :: bs => putBytes (tset 0 m off b) (off + 1) bs

/-- Tags of the granules that `n` bytes from `off` touch are cleared. -/
def clearTags (t : Tab Bool) (off n : Nat) : Tab Bool :=
  if n = 0 then t
  else (List.range ((off + n - 1) / 16 - off / 16 + 1)).foldl (fun t i => tset false t (off / 16 + i) false) t

/-- A store into the local memory of core `q` (R294). -/
def memPut (s : State) (q off : Nat) (bs : Bytes) : State :=
  let c := coreAt s q
  putCore s q { c with mem := putBytes c.mem off bs, tags := clearTags c.tags off bs.length }

/-- Bytes of the local memory of core `q`; a byte that nothing has written reads 0 (DESIGN CHOICE, log 41). -/
def memGet (s : State) (q off n : Nat) : Bytes := (List.range n).map fun i => tget 0 (coreAt s q).mem (off + i)

/-- The tag of the granule at `off`. -/
def memTag (s : State) (q off : Nat) : Bool := tget false (coreAt s q).tags (off / 16)

/-- A granule with its tag: the capability store of R294. -/
def memPutTagged (s : State) (q off : Nat) (bs : Bytes) (tag : Bool) : State :=
  let s := memPut s q off bs
  let c := coreAt s q
  putCore s q { c with tags := tset false c.tags (off / 16) tag }

/-! ### The data cache (R601) -/

/-- Lines of the data cache: 4 KiB of 64 bytes (DESIGN CHOICE, log 45). -/
def cacheLines : Nat := 64

/-- The policy for a byte of the channel window: 0 uncached, 1 write-through, 2 write-back (R601 to R603). -/
def cachePolicy (c : Core) (a : Nat) : Nat :=
  match regionOf c a with
  | none => 0
  | some i =>
    let l := rlimitOf c i
    if 2 ≤ bits l 2 2 ∨ bits l 0 2 = 3 then 0 else bits l 0 2

/-- The memory behind line `ln` of the channel window. -/
def lineTarget (p ln : Nat) : Nat × Nat :=
  (chanPage (chanOf p) + 1 + (64 * ln - 0x10000000) / 0x20000, (64 * ln - 0x10000000) % 0x20000)

def cacheFind (c : Core) (ln : Nat) : Option CacheLine := (c.cache.find? fun e => e.1 = ln).map (·.2)

/-- A dirty line reaches memory. -/
def writeBack (s : State) (p : Nat) (e : Nat × CacheLine) : State :=
  if e.2.dirty then memPut s (lineTarget p e.1).1 (lineTarget p e.1).2 e.2.bytes else s

/-- Line `ln` enters the cache; with the cache full the oldest line leaves it. -/
def cacheFill (s : State) (p ln : Nat) : State :=
  let c := coreAt s p
  let s := match c.cache.getLast? with
    | some e =>
      if cacheLines ≤ c.cache.length then
        let s := writeBack s p e
        let c := coreAt s p
        putCore s p { c with cache := c.cache.dropLast }
      else s
    | none => s
  let l : CacheLine := { bytes := memGet s (lineTarget p ln).1 (lineTarget p ln).2 64 }
  let c := coreAt s p
  putCore s p { c with cache := (ln, l) :: c.cache }

/-- A line of the cache is changed. -/
def cacheSet (s : State) (p ln : Nat) (f : CacheLine → CacheLine) : State :=
  let c := coreAt s p
  putCore s p { c with cache := c.cache.map fun (e : Nat × CacheLine) => if e.1 = ln then (e.1, f e.2) else e }

/-- A byte read through the channel window. -/
def winRead1 (s : State) (p a q off : Nat) : Byte × State :=
  if cachePolicy (coreAt s p) a = 0 then ((memGet s q off 1).headD 0, s)
  else
    let s := if (cacheFind (coreAt s p) (a / 64)).isNone then cacheFill s p (a / 64) else s
    (((cacheFind (coreAt s p) (a / 64)).getD {}).bytes.getD (a % 64) 0, s)

/-- A byte written through the channel window. -/
def winWrite1 (s : State) (p a q off : Nat) (b : Byte) : State :=
  let upd (dirty : Bool) (l : CacheLine) : CacheLine :=
    { l with bytes := l.bytes.set (a % 64) b, dirty := l.dirty || dirty }
  match cachePolicy (coreAt s p) a with
  | 0 => memPut s q off [b]
  | 1 => cacheSet (memPut s q off [b]) p (a / 64) (upd false)
  | _ =>
    let s := if (cacheFind (coreAt s p) (a / 64)).isNone then cacheFill s p (a / 64) else s
    cacheSet s p (a / 64) (upd true)

/-- CCLEAN (R601): a line, or the whole cache, is written back and leaves the cache. -/
def cacheClean (s : State) (p v : Nat) : State :=
  let out (e : Nat × CacheLine) : Bool := decide (v = 0xFFFFFFFF ∨ e.1 = v / 64)
  let s := ((coreAt s p).cache.filter out).foldl (fun s e => writeBack s p e) s
  let c := coreAt s p
  putCore s p { c with cache := c.cache.filter fun e => !out e }

/-! ### Accesses (R599, R600, R609) -/

/-- The accessor as which a ring reaches the device window (R600). -/
def ringAcc (ring : Nat) : Acc := if ring = 0 then .fw0 else .fw1

/-- A 32-bit read of a page as another port makes it: its value, none for an error response. FL_WIN_DATA reads flash (R770
of 19). -/
def registerRead (s : State) (acc : Acc) (page off : Nat) : Option Nat × State :=
  if page = flashPage ∧ off = 0x048 ∧ reaches s acc page then
    let t := flashRead { s with out := [] } acc 0
    let v : Option Nat := match t.out.getLast? with
      | some (.readValue _ v) => some v.toNat
      | _ => none
    (v, { t with out := s.out ++ t.out.dropLast })
  else regRead s acc page off

/-- What one byte position of a load brings: its byte, the four bytes of a device register at its first, none else. -/
def loadUnit (s : State) (p ring a : Nat) : Option Bytes × State :=
  match targetOf p a with
  | .own off => (some (memGet s p off 1), s)
  | .window q off =>
    let (b, s) := winRead1 s p a q off
    (some [b], s)
  | .device pg off =>
    if a % 4 ≠ 0 then (some [], s)
    else match registerRead s (ringAcc ring) pg off with
      | (some v, s) => (some (le 4 v), s)
      | (none, s) => (none, s)
  | .nowhere => (some [0], s)

/-- `n` bytes from `a`, none for an error response. -/
def loadFrom (p ring : Nat) : Nat → Nat → State → Option Bytes × State
  | 0, _, s => (some [], s)
  | n + 1, a, s =>
    match loadUnit s p ring a with
    | (none, s) => (none, s)
    | (some b, s) =>
      let (r, s) := loadFrom p ring n (a + 1) s
      (r.map (b ++ ·), s)

/-- A load that has passed its checks. -/
def loadRaw (s : State) (p ring addr n : Nat) : Option Bytes × State :=
  if addr + n ≤ 0x20000 then (some (memGet s p addr n), s) else loadFrom p ring n addr s

/-- Stores one byte position after another; a device register is written at its first byte. -/
def storeFrom (p ring : Nat) : Nat → Bytes → State → State
  | _, [], s => s
  | a, b :: bs, s =>
    let s := match targetOf p a with
      | .own off => memPut s p off [b]
      | .window q off => winWrite1 s p a q off b
      | .device pg off => if a % 4 = 0 then regWrite s (ringAcc ring) pg off (w32 (unle ((b :: bs).take 4))) else s
      | .nowhere => s
    storeFrom p ring (a + 1) bs s

/-- A store that has passed its checks. -/
def storeRaw (s : State) (p ring addr : Nat) (bs : Bytes) : State :=
  if addr + bs.length ≤ 0x20000 then memPut s p addr bs else storeFrom p ring addr bs s

/-- A load through the address map (R599, R608, R609): the bytes, or the exception. `plain`: an ordinary one (R605). -/
def load (s : State) (p : Nat) (plain : Bool) (addr n : Nat) : Except Exc (Bytes × State) :=
  let c := coreAt s p
  match accessCheck p c c.ring .read plain addr n with
  | some e => .error e
  | none => match loadRaw s p c.ring addr n with
    | (some b, s) => .ok (b, s)
    | (none, _) => .error ⟨9, 2, addr⟩

/-- A device register that does not answer refuses a store. -/
def storeRefused (s : State) (p ring addr n : Nat) : Option Nat :=
  ((List.range n).map (addr + ·)).find? fun a => match targetOf p a with
    | .device pg _ => decide (a % 4 = 0) && !reaches s (ringAcc ring) pg
    | _ => false

/-- A store through the address map (R599, R608, R609). -/
def store (s : State) (p : Nat) (plain : Bool) (addr : Nat) (bs : Bytes) : Except Exc State :=
  let c := coreAt s p
  match accessCheck p c c.ring .write plain addr bs.length with
  | some e => .error e
  | none => match storeRefused s p c.ring addr bs.length with
    | some a => .error ⟨9, 2, a⟩
    | none => .ok (storeRaw s p c.ring addr bs)

/-- The tag of the granule at an address. -/
def tagOf (s : State) (p addr : Nat) : Bool :=
  match targetOf p addr with
  | .own off => memTag s p off
  | .window q off => memTag s q off
  | _ => false

/-- A granule written with its tag at an aligned address of a core's memory, past the data cache, whose line follows. -/
def putGranule (s : State) (p addr : Nat) (bs : Bytes) (tag : Bool) : State :=
  match targetOf p addr with
  | .own off => memPutTagged s p off bs tag
  | .window q off =>
    cacheSet (memPutTagged s q off bs tag) p (addr / 64) fun l => { l with bytes := splice 64 l.bytes (addr % 64) bs }
  | _ => s

/-! ### Capability windows (R286, R548, R578) -/

/-- Instance and generation of the executing context (R286, R578): no instance while CTX.INSTANCE is 0x3FF. -/
def ctxOf (s : State) (c : Core) : Nat × Nat :=
  if c.ctxInst = 0x3FF then (0x400, 0)
  else (c.ctxInst, if c.inJob then c.ctxGen else (instAt s c.ctxInst).gen)

/-- Capability register k (DEDUCED, log 47). -/
def capReg (c : Core) (k : Nat) : Cap := tget {} c.k (k % 4)

/-- The check of a use of `n` bytes from `off` of the window of register k (R286): CAP_FAULT with its cause. -/
def capUse (s : State) (c : Core) (k perms off n : Nat) : Option Exc :=
  let x := ctxOf s c
  (capCheck s (capReg c k) x.1 x.2 perms off n).map fun cause => ⟨7, cause, off⟩

/-- A byte of a job's ballast, as an offset from its first buffer (R572): input, output, result area; none where neither the
device nor a core has written (DEDUCED, log 19; DEDUCED, log 48). -/
def ballastByte (j : Job) (o : Nat) : Option Byte :=
  match tfind j.mem o with
  | some b => some b
  | none =>
    let n := eInLen j.entry
    if o < n then j.input[o]? else j.out[o - n]?

/-- Bytes of the object that a capability names: ballast, or the material of a key. Ballast that nothing has written is free. -/
def objBytes (s : State) (object off n : Nat) : Bytes × State :=
  if bits object 44 4 = 2 then
    match jobAt s (bits object 10 32) with
    | none => (zeros n, s)
    | some j =>
      let have_ := (List.range n).map fun i => ballastByte j (off + i)
      let (f, s) := if have_.all (·.isSome) then ([], s) else freeBytes s n
      ((List.range n).map fun i => ((have_.getD i none).getD (f.getD i 0)), s)
  else (slice (((objectKey s object).map (·.material)).getD []) off n, s)

/-- Bytes stored into a job's ballast; the tags of their granules are cleared (R294). -/
def objPut (s : State) (object off : Nat) (bs : Bytes) : State :=
  if bits object 44 4 = 2 then
    modJob s (bits object 10 32) fun j =>
      { j with
        mem := (List.range bs.length).foldl (fun m i => tput m (off + i) (bs.getD i 0)) j.mem
        tags := clearTags j.tags off bs.length }
  else s

/-- The tag of a ballast granule, and its store with a tag. -/
def objTag (s : State) (object off : Nat) : Bool :=
  if bits object 44 4 = 2 then
    match jobAt s (bits object 10 32) with
    | some j => tget false j.tags (off / 16)
    | none => false
  else false

def objPutTagged (s : State) (object off : Nat) (bs : Bytes) (tag : Bool) : State :=
  let s := objPut s object off bs
  if bits object 44 4 = 2 then
    modJob s (bits object 10 32) fun j => { j with tags := tset false j.tags (off / 16) tag }
  else s

/-- A load through register k (R548). -/
def capLoad (s : State) (p k perms off n : Nat) : Except Exc (Bytes × State) :=
  let c := coreAt s p
  match capUse s c k perms off n with
  | some e => .error e
  | none => .ok (objBytes s (capReg c k).object ((capReg c k).offset + off) n)

/-- A store through register k (R548). -/
def capStore (s : State) (p k off : Nat) (bs : Bytes) : Except Exc State :=
  let c := coreAt s p
  match capUse s c k (2 ^ permStore) off bs.length with
  | some e => .error e
  | none => .ok (objPut s (capReg c k).object ((capReg c k).offset + off) bs)

end Sys2Proof.Machine
end

