-- ==== Sys2Proof/Machine/CaritCore.lean ====
section
/-! DEFINITION. How a Carit instruction runs: the data stack with its spills and fills, frames, taking an exception and
returning from one, the order of checks, loops, cycles (13_carit_instruction_set.md, R534 to R543, R551 to R565;
14_exceptions_privilege_protection.md, R574 to R597). -/

namespace Sys2Proof.Machine

/-! ### The data stack (R534 to R538) -/

/-- Data-stack entries held in the core (R534). -/
def coreEntries : Nat := 16

/-- Entries spilled to memory. -/
def spilled (c : Core) : Nat := c.depth - c.stack.length

/-- The value at depth `i` from the top. -/
def topOf (c : Core) (i : Nat) : Word64 := (c.stack.getD i {}).v

/-- `n` entries popped. -/
def popN (c : Core) (n : Nat) : Core := { c with stack := c.stack.drop n, depth := c.depth - n }

/-- An entry pushed with its hidden bits. -/
def pushEnt (c : Core) (e : Ent) : Core := { c with stack := e :: c.stack, depth := c.depth + 1 }

/-- An entry pushed untagged (R537). -/
def push (c : Core) (v : Word64) : Core := pushEnt c { v := v }

/-- Two entries as a granule: the one nearer the base at the lower address (R535). -/
def granuleBytes (lo hi : Ent) : Bytes := le 8 lo.v.toNat ++ le 8 hi.v.toNat

/-- The tag of a spilled granule (R536). -/
def granuleTagged (lo hi : Ent) : Bool := lo.tag && hi.tag && !lo.half && hi.half

/-- A granule stored at an address without checks; nothing where no memory lies. -/
def granulePut (s : State) (p a : Nat) (bs : Bytes) (tag : Bool) : State :=
  if a % 16 = 0 then putGranule s p a bs tag
  else match targetOf p a with
    | .own _ | .window _ _ => storeRaw s p 0 a bs
    | _ => s

/-- Two entries spilled as one granule below DSP (R535). The caller has taken them from the stack (DEDUCED, log 42). -/
def spillPair (s : State) (p : Nat) (lo hi : Ent) : State :=
  let a := (coreAt s p).dsp - 16
  let s := granulePut s p a.toNat (granuleBytes lo hi) (granuleTagged lo hi)
  putCore s p { coreAt s p with dsp := a }

/-- The topmost granule in memory returns to the core (R535, R536): one entry when its second is padding (R583). -/
def fillPair (s : State) (p : Nat) : State :=
  let c := coreAt s p
  let a := c.dsp.toNat
  let (b, s) := loadRaw s p c.ring a 16
  let b := b.getD []
  let t := decide (a % 16 = 0) && tagOf s p a
  let lo : Ent := { v := BitVec.ofNat 64 (field b 0 8), tag := t, half := false }
  let hi : Ent := { v := BitVec.ofNat 64 (field b 8 8), tag := t, half := t }
  let c := coreAt s p
  putCore s p { c with
    stack := c.stack ++ (if spilled c % 2 = 1 then [{ lo with tag := false }] else [hi, lo]), dsp := c.dsp + 16 }

/-- Fills until the core holds `reach` entries: granules filled (R535). -/
def fillTo (p reach : Nat) : Nat → State → Except Exc (Nat × State)
  | 0, s => .ok (0, s)
  | n + 1, s =>
    let c := coreAt s p
    if reach ≤ c.stack.length then .ok (0, s)
    else match accessCheck p c c.ring .read false c.dsp.toNat 16 with
      | some e => .error e
      | none => match fillTo p reach n (fillPair s p) with
        | .ok (k, s) => .ok (k + 1, s)
        | .error e => .error e

/-- Granules to spill while the core would hold `n` entries (R535). -/
def spillsFor (n : Nat) : Nat := (n - coreEntries + 1) / 2

/-- The bottom two entries of the core are spilled, `n` times. -/
def spillDown (p : Nat) : Nat → State → State
  | 0, s => s
  | n + 1, s =>
    let c := coreAt s p
    let r := c.stack.reverse
    spillDown p n (spillPair (putCore s p { c with stack := c.stack.dropLast.dropLast }) p (r.getD 0 {}) (r.getD 1 {}))

/-- Entries, nearest the base first, spilled two by two; a last one alone is padded (R583). -/
def spillList (p : Nat) : List Ent → State → State
  | [], s => s
  | [x], s => spillPair s p x {}
  | x :: y :: r, s => spillList p r (spillPair s p x y)

/-- Addresses of the granules that exception entry spills (R583). -/
def spillAddrs (c : Core) : List Nat :=
  if c.stack.isEmpty then []
  else
    let odd := spilled c % 2
    (List.range ((c.stack.length + odd + 1) / 2)).map fun i =>
      (c.dsp + BitVec.ofNat 32 (16 * odd) - BitVec.ofNat 32 (16 * (i + 1))).toNat

/-- Every entry held in the core is spilled (R583). -/
def spillAll (s : State) (p : Nat) : State :=
  if (coreAt s p).stack.isEmpty then s
  else
    let s := if spilled (coreAt s p) % 2 = 1 then fillPair s p else s
    let c := coreAt s p
    spillList p c.stack.reverse (putCore s p { c with stack := [] })

/-! ### Frames (R582) -/

/-- A ring control register by its MFS/MTS number (R577). -/
def rcOf (c : Core) (n : Nat) : Word32 := tget 0 c.rc n
def rcPut (c : Core) (n : Nat) (v : Word32) : Core := { c with rc := tset 0 c.rc n v }

/-- CTX as a register (R577). -/
def ctxWord (c : Core) : Nat := c.ctxInst + 2 ^ 10 * c.ctxGen + bitAt c.inJob 18

/-- CTX from a register's bits. -/
def ctxSet (c : Core) (v : Nat) : Core := { c with ctxInst := bits v 0 10, ctxGen := bits v 10 8, inJob := bit v 18 }

/-- INFO of a frame (R582). -/
def frameInfo (c : Core) (member : Nat) : Nat :=
  c.ring + 4 * member + bitAt (c.bmCtl.getLsbD 0) 4 + bitAt (c.hfCtl.getLsbD 0) 5 + bitAt (c.swMask.getLsbD 63) 6

/-- The 256 bytes of a frame (R582). -/
def frameBytes (c : Core) (pc : Word32) (vec member detail faddr : Nat) : Bytes :=
  le 4 pc.toNat ++ [BitVec.ofNat 8 vec, BitVec.ofNat 8 (frameInfo c member), BitVec.ofNat 8 detail, 0#8] ++ le 8 faddr ++
    le 4 c.depth ++ [BitVec.ofNat 8 c.ldepth, 0#8, 0#8, 0#8] ++
    [c.dsb, c.dsp, c.dsl, c.rsb, c.rsp, c.rsl].flatMap (fun x => le 4 x.toNat) ++
    [c.a, c.b, c.fp, BitVec.ofNat 64 (bitAt c.c 0)].flatMap (fun x => le 8 x.toNat) ++
    (List.range 4).flatMap (fun i => le 4 (tget 0 c.ls i).toNat) ++
    (List.range 4).flatMap (fun i => le 4 (tget 0 c.le i).toNat) ++
    (List.range 4).flatMap (fun i => le 8 (tget 0 c.lc i).toNat) ++
    le 4 (ctxWord c) ++ zeros 12 ++
    (List.range 4).flatMap (fun i => le 16 (capBits (capReg c i))) ++ zeros 32

/-- A frame written at an address, its capabilities by the capability store (R582). -/
def frameWrite (s : State) (p a : Nat) (c : Core) (b : Bytes) : State :=
  (List.range 4).foldl (fun s i => granulePut s p (a + 160 + 16 * i) (slice b (160 + 16 * i) 16) (capReg c i).tag)
    (storeRaw s p 0 a b)

/-- The registers that a frame holds, restored (R587 item 3): `caps` are the tags of its capability granules. -/
def frameRestore (c : Core) (b : Bytes) (tags : Nat → Bool) : Core :=
  let w (off : Nat) : Word32 := BitVec.ofNat 32 (field b off 4)
  let d (off : Nat) : Word64 := BitVec.ofNat 64 (field b off 8)
  let info := field b 5 1
  let act (v : Word64) (bitNo i : Nat) : Word64 :=
    BitVec.ofNat 64 (v.toNat - bitAt (v.getLsbD bitNo) bitNo + bitAt (bit info i) bitNo)
  let regs (n base width : Nat) : Tab Word32 := (List.range n).foldl (fun t i => tset 0 t i (w (base + width * i))) []
  let c := ctxSet c (field b 144 4)
  { c with
    pc := w 0, depth := field b 16 4, ldepth := bits (field b 20 1) 0 3, stack := []
    dsb := w 24, dsp := w 28, dsl := w 32, rsb := w 36, rsp := w 40, rsl := w 44
    a := d 48, b := d 56, fp := d 64, c := (d 72).getLsbD 0
    ls := regs 4 80 4, le := regs 4 96 4
    lc := (List.range 4).foldl (fun t i => tset 0 t i (d (112 + 8 * i))) []
    k := (List.range 4).foldl (fun t i => tset {} t i (capOfBits (tags i) (field b (160 + 16 * i) 16))) []
    bmCtl := act c.bmCtl 0 4, hfCtl := act c.hfCtl 0 5, swMask := act c.swMask 63 6
    ring := bits info 0 2 }

/-- The secret classes are cleared at entry into ring 2 or 3 (R532). -/
def clearSecrets (c : Core) : Core := if 2 ≤ c.ring then { c with sreg := [], sport := 0 } else c

/-- Cycles pass on a core (R531, R594). -/
def passCycles (c : Core) (n : Nat) : Core := { c with cycles := (c.cycles + n) % 2 ^ 64, noint := c.noint - n }

/-! ### Taking an exception, a trap or an interrupt (R575, R583 to R586) -/

/-- Items 4 to 6 of R584: the stacks of ring `h`, nothing on them, no capability, no instruction in progress. -/
def enterRing (c : Core) (h : Nat) : Core :=
  let c : Core :=
    if h < c.ring then
      { c with
        dsb := rcOf c (0x043 + 8 * h), dsp := rcOf c (0x043 + 8 * h), dsl := rcOf c (0x044 + 8 * h)
        rsb := rcOf c (0x045 + 8 * h), rsp := rcOf c (0x045 + 8 * h), rsl := rcOf c (0x046 + 8 * h) }
    else { c with dsb := c.dsp, rsb := c.rsp }
  clearSecrets { c with
    depth := 0, stack := [], ldepth := 0, k := [], ring := h, stall := .none
    bmCtl := c.bmCtl &&& ~~~ 1#64, hfCtl := c.hfCtl &&& ~~~ 1#64, swMask := c.swMask &&& 0x7FFFFFFFFFFFFFFF#64 }

/-- Entry `v` of ring `h`'s vector table, read as ring `h` (R579, R584 item 7) (DEDUCED, log 56). -/
def vectorEntry (s : State) (p h v : Nat) : Option Nat :=
  let c := coreAt s p
  let a := (rcOf c (0x040 + 8 * h)).toNat + 8 * v
  if (accessCheck p c h .read false a 8).isSome then none
  else match loadRaw s p h a 8 with
    | (some b, _) => some (unle b)
    | (none, _) => none

/-- Entry into ring `h` (R584), none when the exception becomes DOUBLE (R585). `keep`: a non-interruptible window goes on
unless the entry opens its own (R594, R595). -/
def enterTry (s : State) (p vec detail faddr : Nat) (pc : Word32) (member h : Nat) (keep : Bool) : Option State :=
  let c := coreAt s p
  let fsp := (rcOf c (0x041 + 8 * h)).toNat
  let fsl := (rcOf c (0x042 + 8 * h)).toNat
  let at_ := spillAddrs c
  if fsp < fsl + 256 ∨ rcOf c (0x040 + 8 * h) = 0 then none
  else if at_.any (fun a => (accessCheck p c h .write false a 16).isSome) ||
      (accessCheck p c h .write false (fsp - 256) 256).isSome then none
  else
    let s := spillAll s p
    let c := coreAt s p
    let s := frameWrite s p (fsp - 256) c (frameBytes c pc vec member detail faddr)
    let c := enterRing (rcPut (coreAt s p) (0x041 + 8 * h) (BitVec.ofNat 32 (fsp - 256))) h
    let s := putCore s p (passCycles c (36 + 2 * at_.length))
    match vectorEntry s p h vec with
    | none => none
    | some e =>
      let c := coreAt s p
      if !bit e 32 || (accessCheck p c h .exec false (bits e 0 32) 4).isSome then none
      else some (putCore s p { c with
        pc := BitVec.ofNat 32 e
        noint := if bit e 33 then 256 else if keep then c.noint else 0
        nointRing := if bit e 33 then h else c.nointRing })

/-- Where DOUBLE is handled, and its frame (R585). -/
def doubleHandler : Word32 := 0x100
def doubleFrame : Nat := 0x5F00

/-- DOUBLE for an exception of vector `vec` that could not be entered (R585, R586). -/
def double (s : State) (p vec : Nat) (pc : Word32) (member : Nat) : State :=
  if (coreAt s p).dfBusy then lockup s p
  else
    let g := (spillAddrs (coreAt s p)).length
    let s := spillAll s p
    let c := coreAt s p
    let s := frameWrite s p doubleFrame c (frameBytes c pc 0x0C member vec 0)
    let c := passCycles (enterRing (coreAt s p) 0) (36 + 2 * g)
    putCore s p { c with pc := doubleHandler, dfBusy := true, noint := 0 }

/-- The handling ring of an exception or a trap (R575). -/
def handlingRing (ring : Nat) : Nat := ring - 1

/-- Entry through a vector, or DOUBLE (R584, R585). -/
def enterVector (s : State) (p vec detail faddr : Nat) (pc : Word32) (member h : Nat) (keep : Bool) : State :=
  match enterTry s p vec detail faddr pc member h keep with
  | some t => t
  | none => double s p vec pc member

/-- ILLEGAL and CAP_FAULT of R566. -/
def excEvent (s : State) (p vec : Nat) : State :=
  if vec = 1 ∨ vec = 3 then setEvent s p 16 else if vec = 7 then setEvent s p 17 else s

/-- An exception is taken (R565, R575, R580, R586, R597). -/
def takeException (s : State) (p : Nat) (e : Exc) (pc : Word32) (member : Nat) : State :=
  let s := excEvent s p e.vec
  let s := putCore s p { coreAt s p with entropy := false }
  let c := coreAt s p
  let s := if c.dfBusy then lockup s p
    else enterVector s p e.vec e.detail e.faddr pc member (handlingRing c.ring) false
  if e.vec = 0x0B then fireTamper s privilegeForge else s

/-! ### Running one instruction -/

/-- What an instruction's work gives. -/
inductive Res where
  /-- completed: the state, the next PC of a taken branch, jump, call or return, its cycles -/
  | done (s : State) (jump : Option Word32) (cycles : Nat)
  /-- an exception of pair member 1 or 2, 0 for a long instruction -/
  | trap (member : Nat) (e : Exc)
  /-- an exception after the first issue of a resumable instruction: what has been done stays (R559) -/
  | trapAt (s : State) (e : Exc)
  /-- it waits; the state holds what of it is done -/
  | wait (on : Stall) (s : State)
  /-- a unit of work is done and the instruction goes on (R559) -/
  | again (s : State) (cycles : Nat)

/-- The end of an instruction at the LE of the innermost level (R552): the next PC and the core. -/
def loopNext : Nat → Core → Word32 × Core
  | 0, c => (c.pc + 4, c)
  | n + 1, c =>
    if c.ldepth = 0 ∨ tget 0 c.le (c.ldepth - 1) ≠ c.pc then (c.pc + 4, c)
    else
      let l := c.ldepth - 1
      let k := tget 0 c.lc l - 1
      let c := { c with lc := tset 0 c.lc l k }
      if k ≠ 0 then (tget 0 c.ls l, c) else loopNext n { c with ldepth := l }

/-- The core executes: a RUNNING, STOPPING or QUIESCED unit at LEVEL 0 on a page with power (R567). -/
def coreRuns (s : State) (p : Nat) : Bool :=
  let u := unitAt s p
  decide (kindOf p = 0x04) && pageAnswers s p && !u.level &&
    decide (u.state = .running ∨ u.state = .stopping ∨ u.state = .quiesced)

/-- Reach, pops and pushes of an instruction's members. -/
abbrev Part := Nat × Nat × Nat

/-- Entries that one member needs. -/
def partNeed (x : Part) : Nat := max x.1 x.2.1

/-- Entries that the members need, counted from the top before the first: the second's are those left after the first's
pops (R542). -/
def needOf : List Part → Nat
  | [] => 0
  | [x] => partNeed x
  | x :: y :: _ => max (partNeed x) (if partNeed y = 0 then 0 else x.2.1 + partNeed y)

/-- Entries in the core after the members, from `n` before. -/
def leftOf (n : Nat) (ps : List Part) : Nat := ps.foldl (fun n x => n - x.2.1 + x.2.2) n

/-- The member that is number `i`, 0 for a single one (DEDUCED, log 57). -/
def memberNo (ps : List Part) (i : Nat) : Nat := if ps.length = 1 then 0 else i

/-- STACK_UNDERFLOW (R538): the member that raises it. -/
def underflow (c : Core) (ps : List Part) : Option Nat :=
  if c.depth < needOf (ps.take 1) then some (memberNo ps 1)
  else if c.depth < needOf ps then some (memberNo ps 2)
  else none

/-- The stack made ready (R535, R538): granules filled and to be spilled afterwards, and the state; STACK_LIMIT, or the
exception of a spill or fill that the protection unit refuses. -/
def ready (s : State) (p : Nat) (ps : List Part) : Except (Nat × Exc) (Nat × Nat × State) :=
  let c := coreAt s p
  let oddSpill := decide (coreEntries < leftOf c.stack.length ps) && decide (spilled c % 2 = 1)
  let reach := max (needOf ps) (if oddSpill then c.stack.length + 1 else 0)
  match fillTo p reach (coreEntries + 1) s with
  | .error e => .error (memberNo ps 1, e)
  | .ok (fills, s) =>
    let c := coreAt s p
    let g := spillsFor (leftOf c.stack.length ps)
    let g1 := spillsFor (leftOf c.stack.length (ps.take 1))
    let deep (g : Nat) : Bool := decide (0 < g ∧ c.dsp.toNat < c.dsl.toNat + 16 * g)
    if deep g then .error (memberNo ps (if deep g1 then 1 else 2), ⟨5, 0, 0⟩)
    else
      match ((List.range g).filterMap fun i => accessCheck p c c.ring .write false (c.dsp.toNat - 16 * (i + 1)) 16).head? with
      | some e => .error (memberNo ps 1, e)
      | none => .ok (fills, g, s)

/-- The instruction completes (R552, R566). -/
def completeIns (s : State) (p : Nat) (jump : Option Word32) (cycles spills : Nat) : State :=
  let s := spillDown p spills s
  let c := coreAt s p
  let (next, c) : Word32 × Core := match jump with
    | some t => (t, c)
    | none => loopNext 4 c
  putCore s p (passCycles { c with pc := next, stall := .none, instrs := (c.instrs + 1) % 2 ^ 64 } cycles)

/-- The instruction waits (R563). -/
def waitIns (s : State) (p : Nat) (on : Stall) : State :=
  let c := coreAt s p
  putCore s p (passCycles { c with stall := on, stalls := (c.stalls + 1) % 2 ^ 64 } 1)

/-- The exception of the instruction fetch (R610) (DESIGN CHOICE, log 40). -/
def fetchCheck (p : Nat) (c : Core) : Option Exc := accessCheck p c c.ring .exec false c.pc.toNat 4

/-- The checks that come before an instruction's own accesses, in the order of R565 and R610: fetch, ILLEGAL_OP (of the
member `illegal` names), RING_VIOLATION, ILLEGAL_PAIR, STACK_UNDERFLOW. -/
def firstFault (p : Nat) (c : Core) (illegal : Option Nat) (ringBad pairBad : Bool) (ps : List Part) : Option (Nat × Exc) :=
  match fetchCheck p c with
  | some e => some (0, e)
  | none =>
    if c.pc.toNat % 4 ≠ 0 then some (0, ⟨1, 0, 0⟩)
    else match illegal with
      | some m => some (m, ⟨1, 0, 0⟩)
      | none =>
        if ringBad then some (0, ⟨2, 0, 0⟩)
        else if pairBad then some (0, ⟨3, 0, 0⟩)
        else (underflow c ps).map fun m => (m, ⟨4, 0, 0⟩)

/-- One instruction at PC: its checks, its work, its completion (R543, R565, R589, R610). `loopFull`: LOOP_DEPTH. -/
def runIns (p : Nat) (illegal : Option Nat) (ringBad pairBad loopFull : Bool) (ps : List Part) (body : State → Res)
    (s : State) : State :=
  if !coreRuns s p then s
  else
    let pc := (coreAt s p).pc
    match firstFault p (coreAt s p) illegal ringBad pairBad ps with
    | some (m, e) => takeException s p e pc m
    | none => match ready s p ps with
      | .error (m, e) => takeException s p e pc m
      | .ok (fills, spills, t) =>
        if loopFull then takeException s p ⟨6, 0, 0⟩ pc 0
        else match body t with
          | .done t jump cycles => completeIns t p jump (cycles + 2 * (fills + spills)) spills
          | .trap m e => takeException s p e pc m
          | .trapAt t e => takeException t p e pc 0
          | .wait on t => waitIns t p on
          | .again t cycles =>
            let c := coreAt t p
            putCore t p (passCycles { c with stall := .none } cycles)

/-- A long instruction without restrictions. -/
def runPlain (p pops pushes : Nat) (body : State → Res) (s : State) : State :=
  runIns p none false false false [(pops, pops, pushes)] body s

/-- A work that only changes the core. -/
def coreWork (p cycles : Nat) (f : Core → Core) (s : State) : Res := .done (putCore s p (f (coreAt s p))) none cycles

end Sys2Proof.Machine
end

