-- ==== Sys2Proof/Machine/Operands.lean ====
section
/-! DEFINITION. Operand forms of Carit instructions: sign-extended fields, sizes, branch targets, the reach of an access
(13_carit_instruction_set.md, R544 to R546). -/

namespace Sys2Proof.Machine

/-- The low `w` bits of an operand field, sign-extended to 64. -/
def signed64 (w v : Nat) : Word64 := (BitVec.ofNat w v).signExtend 64

/-- Next PC of a branch by words. -/
def branchTo (c : Core) (off : Word64) : Word32 := c.pc + (off.setWidth 32 <<< 2)

/-- Bytes of a size code 0 to 3 (R546). -/
def sizeBytes (size : Nat) : Nat := 2 ^ (size % 4)

/-- A loaded value, sign- or zero-extended (R546). -/
def extended (signed : Bool) (b : Bytes) : Word64 :=
  if signed then signed64 (8 * b.length) (unle b) else BitVec.ofNat 64 (unle b)

/-- Cycles that an access adds over one to local memory (R599): the channel window takes 8, a device register is free
(DESIGN CHOICE, log 53). -/
def accessCycles (s : State) (p addr : Nat) : Nat × State :=
  match targetOf p addr with
  | .window _ _ => (7, s)
  | .device _ _ => freeNat s
  | _ => (0, s)

end Sys2Proof.Machine
end

