-- ==== Sys2Proof/Machine/Flags.lean ====
section
/-! DEFINITION. Results of Carit's value operations and FLAGS.C (13_carit_instruction_set.md, R531, R544). -/

namespace Sys2Proof.Machine

/-- The sum of two words with a carry in, and its carry out. -/
def addC (a b : Word64) (cin : Bool) : Word64 × Bool :=
  let n := a.toNat + b.toNat + cin.toNat
  (BitVec.ofNat 64 n, decide (2 ^ 64 ≤ n))

/-- 1 or 0. -/
def truth (b : Bool) : Word64 := if b then 1 else 0

/-- Population count, and leading zeros, 64 for 0 (R544). -/
def popCount (v : Word64) : Nat := (List.range 64).countP fun i => v.getLsbD i
def leadingZeros (v : Word64) : Nat := ((List.range 64).find? fun i => v.getLsbD (63 - i)).getD 64

/-- A two-operand operation: its result and the new C, from NOS and TOS. -/
def binaryOp (sop : Nat) (n t : Word64) (cin : Bool) : Option (Word64 × Bool) :=
  match sop with
  | 0x09 => some (addC n t false)
  | 0x0A => some (n - t, decide (n.toNat < t.toNat))
  | 0x0B => some (addC n t cin)
  | 0x0C => some (n * t, cin)
  | 0x0D => some (BitVec.ofNat 64 (n.toNat * t.toNat / 2 ^ 64), cin)
  | 0x0E => some (n &&& t, cin)
  | 0x0F => some (n ||| t, cin)
  | 0x10 => some (n ^^^ t, cin)
  | 0x17 => some (n <<< (t.toNat % 64), cin)
  | 0x18 => some (n >>> (t.toNat % 64), cin)
  | 0x19 => some (truth (n == t), cin)
  | 0x1A => some (truth (n.ult t), cin)
  | 0x1B => some (truth (n.slt t), cin)
  | _ => none

/-- A one-operand operation: its result and the new C, from TOS and IMM. -/
def unaryOp (v : Nat) (t : Word64) (cin : Bool) : Option (Word64 × Bool) :=
  let i := immOf v
  match sopOf v with
  | 0x11 => some (~~~ t, cin)
  | 0x12 => some (-t, cin)
  | 0x13 => some (t <<< i, cin)
  | 0x14 => some (t >>> i, cin)
  | 0x15 => some (t.sshiftRight i, cin)
  | 0x16 => some (t.rotateLeft i, cin)
  | 0x1C => some (truth (t == 0), cin)
  | 0x1E => some (BitVec.ofNat 64 (popCount t), cin)
  | 0x1F => some (BitVec.ofNat 64 (leadingZeros t), cin)
  | 0x20 => some (addC t (signed64 9 i) false)
  | 0x2C => some (BitVec.ofNat 64 (t.toNat / 2 ^ (8 * i) % 256), cin)
  | _ => none

end Sys2Proof.Machine
end

