-- ==== Sys2Proof/Machine/Carit.lean ====
section
/-! DEFINITION. Pairs of short operations, and the long operations on values, control, memory and capabilities
(13_carit_instruction_set.md, R540 to R556). -/

namespace Sys2Proof.Machine

/-! ### Short operations (R544) -/

/-- The operations that neither access memory nor control the flow. -/
def shortValue (v : Nat) (c : Core) : Core :=
  let t := topOf c 0
  let n := topOf c 1
  match binaryOp (sopOf v) n t c.c with
  | some (r, cy) => { push (popN c 2) r with c := cy }
  | none => match unaryOp v t c.c with
    | some (r, cy) => { push (popN c 1) r with c := cy }
    | none => match sopOf v with
      | 0x01 => push c (signed64 9 (immOf v))
      | 0x02 => push c t
      | 0x03 => popN c 1
      | 0x04 => push (push (popN c 2) t) n
      | 0x05 => push c n
      | 0x06 => push (popN c 2) t
      | 0x07 => push (push (push (popN c 3) n) t) (topOf c 2)
      | 0x08 => push c (topOf c (immOf v))
      | 0x1D => push (popN c 3) (if t ≠ 0 then topOf c 2 else n)
      | 0x27 => { popN c 1 with a := t }
      | 0x28 => push c c.a
      | 0x29 => { popN c 1 with b := t }
      | 0x2A => push c c.b
      | 0x2B => { c with a := c.a + (signed64 9 (immOf v) <<< 3) }
      | _ => c

/-- The address of a memory operation, and A and B after it (R544). -/
def shortAddr (v : Nat) (c : Core) : Word64 × Core :=
  match sopOf v with
  | 0x21 | 0x22 => (c.a, { c with a := if immOf v = 1 then c.a + 8 else c.a })
  | 0x23 | 0x24 => (c.b, { c with b := if immOf v = 1 then c.b + 8 else c.b })
  | _ => (c.fp + BitVec.ofNat 64 (8 * immOf v), c)

/-- What one member of a pair does: the state, a taken branch, its cycles; or its exception. -/
abbrev ShortEnd := Except Exc (State × Option Word32 × Nat)

/-- Loads and stores of R544 and R545. -/
def shortAccess (p v : Nat) (s : State) : ShortEnd :=
  let (addr, c') := shortAddr v (coreAt s p)
  let (extra, s) := accessCycles s p addr.toNat
  match sopOf v with
  | 0x21 | 0x23 | 0x25 =>
    match load s p true addr.toNat 8 with
    | .error e => .error e
    | .ok (b, s) =>
      let c := coreAt s p
      .ok (putCore s p (push { c with a := c'.a, b := c'.b } (BitVec.ofNat 64 (unle b))), none, 2 + extra)
  | _ =>
    match store s p true addr.toNat (le 8 (topOf (coreAt s p) 0).toNat) with
    | .error e => .error e
    | .ok s =>
      let c := coreAt s p
      .ok (putCore s p (popN { c with a := c'.a, b := c'.b } 1), none, 2 + extra)

/-- Branches, RET and LEXIT (R544, R553, R554, R556). -/
def shortFlow (p v : Nat) (s : State) : ShortEnd :=
  let c := coreAt s p
  let to_ := branchTo c (signed64 9 (immOf v))
  match sopOf v with
  | 0x30 => .ok (s, some to_, 2)
  | 0x31 => .ok (putCore s p (popN c 1), if topOf c 0 = 0 then some to_ else none, if topOf c 0 = 0 then 2 else 1)
  | 0x32 => .ok (putCore s p (popN c 1), if topOf c 0 ≠ 0 then some to_ else none, if topOf c 0 ≠ 0 then 2 else 1)
  | 0x33 =>
    match load s p false c.rsp.toNat 8 with
    | .error e => .error e
    | .ok (b, s) =>
      let c := coreAt s p
      .ok (putCore s p { c with rsp := c.rsp + 8 }, some (BitVec.ofNat 32 (unle b)), 2)
  | _ => .ok (putCore s p { c with ldepth := c.ldepth - 1 }, some (tget 0 c.le (c.ldepth - 1) + 4), 1)

/-- One member of a pair. -/
def shortExec (p v : Nat) (s : State) : ShortEnd :=
  if shortMem v then shortAccess p v s
  else if shortControl v then shortFlow p v s
  else .ok (putCore s p (shortValue v (coreAt s p)), none, if sopOf v = 0x0C ∨ sopOf v = 0x0D then 3 else 1)

/-- The member whose word raises ILLEGAL_OP (R541, R554). -/
def pairIllegal (c : Core) (a b : Nat) : Option Nat :=
  let bad (v : Nat) : Bool := !shortOk v || (decide (sopOf v = 0x34) && decide (c.ldepth = 0))
  if bad a then some 1 else if bad b then some 2 else none

/-- Reach, pops and pushes of a member; a RET with an empty return stack raises STACK_UNDERFLOW (R556). -/
def shortPart (c : Core) (v : Nat) : Part :=
  if sopOf v = 0x33 ∧ c.rsp = c.rsb then (c.depth + 1, 0, 0) else shortStack v

/-- The work of a pair: A, then B (R540, R543). -/
def pairWork (p a b : Nat) (s : State) : Res :=
  match shortExec p a s with
  | .error e => .trap 1 e
  | .ok (s, _, n) => match shortExec p b s with
    | .error e => .trap 2 e
    | .ok (s, j, m) => .done s j (max n m)

/-- PAIR_INSTRUCTION (R540 to R545). -/
def execPairInstruction (core a b : Nat) (s : State) : Host.Outcome State Fault Refusal :=
  let a := a % 2 ^ 15
  let b := b % 2 ^ 15
  let c := coreAt s core
  .next (runIns core (pairIllegal c a b) false (pairDependent a b) false [shortPart c a, shortPart c b] (pairWork core a b) s)

/-! ### Literals and jumps (R546, R555) -/

/-- LIT24. -/
def execLit24 (core imm : Nat) (s : State) : Host.Outcome State Fault Refusal :=
  .next (runPlain core 0 1 (coreWork core 1 fun c => push c (signed64 24 imm)) s)

/-- LITHI. -/
def execLithi (core imm : Nat) (s : State) : Host.Outcome State Fault Refusal :=
  .next (runPlain core 1 1 (coreWork core 1 fun c =>
    push (popN c 1) ((topOf c 0 <<< 24) ||| BitVec.ofNat 64 (imm % 2 ^ 24))) s)

/-- A call (R555): the return address below RSP, then the target. -/
def callWork (p pops : Nat) (target : Core → Word32) (s : State) : Res :=
  let c := coreAt s p
  if c.rsp.toNat < c.rsl.toNat + 8 then .trap 0 ⟨5, 0, 0⟩
  else match store s p false (c.rsp - 8).toNat (le 8 (c.pc + 4).toNat) with
    | .error e => .trap 0 e
    | .ok s =>
      let k := coreAt s p
      .done (putCore s p { popN k pops with rsp := c.rsp - 8 }) (some (target c)) 2

/-- CALL. -/
def execCall (core off : Nat) (s : State) : Host.Outcome State Fault Refusal :=
  .next (runPlain core 0 0 (callWork core 0 fun c => branchTo c (signed64 24 off)) s)

/-- CALLI. -/
def execCalli (core : Nat) (s : State) : Host.Outcome State Fault Refusal :=
  .next (runPlain core 1 0 (callWork core 1 fun c => (topOf c 0).setWidth 32) s)

/-- JMP. -/
def execJmp (core off : Nat) (s : State) : Host.Outcome State Fault Refusal :=
  .next (runPlain core 0 0 (fun s => .done s (some (branchTo (coreAt s core) (signed64 24 off))) 2) s)

/-- JMPI. -/
def execJmpi (core : Nat) (s : State) : Host.Outcome State Fault Refusal :=
  .next (runPlain core 1 0 (fun s =>
    let c := coreAt s core
    .done (putCore s core (popN c 1)) (some ((topOf c 0).setWidth 32)) 2) s)

/-- A conditional jump. -/
def condWork (p off : Nat) (taken : Word64 → Bool) (s : State) : Res :=
  let c := coreAt s p
  let s := putCore s p (popN c 1)
  if taken (topOf c 0) then .done s (some (branchTo c (signed64 24 off))) 2 else .done s none 1

/-- BZL. -/
def execBzl (core off : Nat) (s : State) : Host.Outcome State Fault Refusal :=
  .next (runPlain core 1 0 (condWork core off fun v => decide (v = 0)) s)

/-- BNZL. -/
def execBnzl (core off : Nat) (s : State) : Host.Outcome State Fault Refusal :=
  .next (runPlain core 1 0 (condWork core off fun v => decide (v ≠ 0)) s)

/-! ### Loops (R551) -/

/-- A loop level opens with a count; a count of 0 goes on at LE + 4. -/
def loopWork (p pops span : Nat) (count : Core → Word64) (s : State) : Res :=
  let c := coreAt s p
  let le_ := c.pc + BitVec.ofNat 32 (4 * span)
  let n := count c
  let c' := popN c pops
  if n = 0 then .done (putCore s p c') (some (le_ + 4)) 1
  else
    .done (putCore s p { c' with
      ls := tset 0 c.ls c.ldepth (c.pc + 4), le := tset 0 c.le c.ldepth le_, lc := tset 0 c.lc c.ldepth n
      ldepth := c.ldepth + 1 }) (some (c.pc + 4)) 1

/-- END 0 is ILLEGAL_OP (R551). -/
def spanIllegal (span : Nat) : Option Nat := if span % 2 ^ 12 = 0 then some 0 else none

/-- LOOP. -/
def execLoop (core span : Nat) (s : State) : Host.Outcome State Fault Refusal :=
  .next (runIns core (spanIllegal span) false false (decide (4 ≤ (coreAt s core).ldepth)) [(1, 1, 0)]
    (loopWork core 1 (span % 2 ^ 12) fun c => topOf c 0) s)

/-- LOOPI. -/
def execLoopi (core count span : Nat) (s : State) : Host.Outcome State Fault Refusal :=
  .next (runIns core (spanIllegal span) false false (decide (4 ≤ (coreAt s core).ldepth)) [(0, 0, 0)]
    (loopWork core 0 (span % 2 ^ 12) fun _ => BitVec.ofNat 64 (count % 2 ^ 12)) s)

/-! ### Memory (R546) -/

/-- LD. -/
def execLd (core size : Nat) (signed : Bool) (disp : Nat) (s : State) : Host.Outcome State Fault Refusal :=
  .next (runPlain core 1 1 (fun s =>
    let addr := topOf (coreAt s core) 0 + signed64 20 disp
    let (extra, s) := accessCycles s core addr.toNat
    match load s core true addr.toNat (sizeBytes size) with
    | .error e => .trap 0 e
    | .ok (b, s) => .done (putCore s core (push (popN (coreAt s core) 1) (extended signed b))) none (2 + extra)) s)

/-- ST. -/
def execSt (core size disp : Nat) (s : State) : Host.Outcome State Fault Refusal :=
  .next (runPlain core 2 0 (fun s =>
    let c := coreAt s core
    let addr := topOf c 0 + signed64 20 disp
    let (extra, s) := accessCycles s core addr.toNat
    match store s core true addr.toNat (le (sizeBytes size) (topOf c 1).toNat) with
    | .error e => .trap 0 e
    | .ok s => .done (putCore s core (popN (coreAt s core) 2)) none (1 + extra)) s)

/-! ### Capabilities (R546 to R550) -/

/-- The register names ballast. -/
def namesBallast (c : Core) (k : Nat) : Bool := decide (bits (capReg c k).object 44 4 = 2)

/-- Capability register k written. -/
def putCap (c : Core) (k : Nat) (x : Cap) : Core := { c with k := tset {} c.k (k % 4) x }

/-- LDC (R548). -/
def execLdc (core k size : Nat) (signed : Bool) (disp : Nat) (s : State) : Host.Outcome State Fault Refusal :=
  .next (runPlain core 1 1 (fun s =>
    let c := coreAt s core
    let off := topOf c 0 + signed64 16 disp
    match capLoad s core k (2 ^ permLoad) off.toNat (sizeBytes size) with
    | .error e => .trap 0 e
    | .ok (b, s) =>
      .done (putCore s core (push (popN (coreAt s core) 1) (extended signed b))) none (if namesBallast c k then 20 else 3)) s)

/-- STC (R548). -/
def execStc (core k size disp : Nat) (s : State) : Host.Outcome State Fault Refusal :=
  .next (runPlain core 2 0 (fun s =>
    let c := coreAt s core
    let off := topOf c 0 + signed64 16 disp
    match capStore s core k off.toNat (le (sizeBytes size) (topOf c 1).toNat) with
    | .error e => .trap 0 e
    | .ok s => .done (putCore s core (popN (coreAt s core) 2)) none (if namesBallast c k then 20 else 2)) s)

/-- The granule that CLD and CST name: its bytes and tag (R547). -/
def granuleRead (s : State) (p : Nat) (via : Bool) (j off : Nat) : Except Exc (Bytes × Bool × State) :=
  let c := coreAt s p
  if via then
    let x := capReg c j
    match capUse s c j (2 ^ permLoad) off 16 with
    | some e => .error e
    | none =>
      if (x.offset + off) % 16 ≠ 0 then .error ⟨7, 6, off⟩
      else
        let (b, t) := objBytes s x.object (x.offset + off) 16
        .ok (b, objTag s x.object (x.offset + off), t)
  else if off % 16 ≠ 0 then .error ⟨7, 6, off⟩
  else match load s p true off 16 with
    | .error e => .error e
    | .ok (b, t) => .ok (b, tagOf s p off, t)

/-- The granule written with a tag (R294, R547). -/
def granuleWrite (s : State) (p : Nat) (via : Bool) (j off : Nat) (b : Bytes) (tag : Bool) : Except Exc State :=
  let c := coreAt s p
  if via then
    let x := capReg c j
    match capUse s c j (2 ^ permStore) off 16 with
    | some e => .error e
    | none => if (x.offset + off) % 16 ≠ 0 then .error ⟨7, 6, off⟩ else .ok (objPutTagged s x.object (x.offset + off) b tag)
  else if off % 16 ≠ 0 then .error ⟨7, 6, off⟩
  else match store s p true off b with
    | .error e => .error e
    | .ok t => .ok (putGranule t p off b tag)

/-- CLD (R547). -/
def execCld (core k : Nat) (via : Bool) (j : Nat) (s : State) : Host.Outcome State Fault Refusal :=
  .next (runPlain core 1 0 (fun s =>
    match granuleRead s core via j (topOf (coreAt s core) 0).toNat with
    | .error e => .trap 0 e
    | .ok (b, t, s) => .done (putCore s core (putCap (popN (coreAt s core) 1) k (capOfBits t (unle b)))) none 3) s)

/-- CST (R547). -/
def execCst (core k : Nat) (via : Bool) (j : Nat) (s : State) : Host.Outcome State Fault Refusal :=
  .next (runPlain core 1 0 (fun s =>
    let c := coreAt s core
    let x := capReg c k
    match granuleWrite s core via j (topOf c 0).toNat (le 16 (capBits x)) x.tag with
    | .error e => .trap 0 e
    | .ok s => .done (putCore s core (popN (coreAt s core) 1)) none 2) s)

/-- CPUSH (R549): an untagged zero first when DEPTH is odd. -/
def execCpush (core k : Nat) (s : State) : Host.Outcome State Fault Refusal :=
  let odd := decide ((coreAt s core).depth % 2 = 1)
  .next (runPlain core 0 (if odd then 3 else 2) (coreWork core 1 fun c =>
    let x := capReg c k
    let c := if odd then push c 0 else c
    pushEnt (pushEnt c { v := BitVec.ofNat 64 (capBits x), tag := x.tag, half := false })
      { v := BitVec.ofNat 64 (capBits x / 2 ^ 64), tag := x.tag, half := true }) s)

/-- CPOP (R549): tagged only from a tagged low half below a tagged high half. -/
def execCpop (core k : Nat) (s : State) : Host.Outcome State Fault Refusal :=
  .next (runPlain core 2 0 (coreWork core 1 fun c =>
    let hi : Ent := c.stack.getD 0 {}
    let lo : Ent := c.stack.getD 1 {}
    putCap (popN c 2) k (capOfBits (granuleTagged lo hi) (lo.v.toNat + 2 ^ 64 * hi.v.toNat))) s)

/-- CNARROW (R293, R550). -/
def execCnarrow (core k : Nat) (s : State) : Host.Outcome State Fault Refusal :=
  .next (runPlain core 3 0 (coreWork core 2 fun c =>
    let perms := (topOf c 0).toNat
    let len := (topOf c 1).toNat
    let off := (topOf c 2).toNat
    let x := narrow (capReg c k) off len perms
    let x : Cap := { x with
      tag := x.tag && decide (perms < 2 ^ 16), perms := perms % 2 ^ 16, length := len % 2 ^ 23, offset := off % 2 ^ 23 }
    putCap (popN c 3) k x) s)

/-- CTEST. -/
def execCtest (core k : Nat) (s : State) : Host.Outcome State Fault Refusal :=
  .next (runPlain core 0 1 (coreWork core 1 fun c => push c (truth (capReg c k).tag)) s)

/-- CFIELD: fields 6 and 7 are ILLEGAL_OP. -/
def execCfield (core k field : Nat) (s : State) : Host.Outcome State Fault Refusal :=
  .next (runIns core (if 5 < field % 8 then some 0 else none) false false false [(0, 0, 1)] (coreWork core 1 fun c =>
    let x := capReg c k
    push c (BitVec.ofNat 64 (match field % 8 with
      | 0 => x.offset | 1 => x.length | 2 => x.perms | 3 => x.inst | 4 => x.gen | _ => bits x.object 44 4))) s)

/-- CNULL. -/
def execCnull (core k : Nat) (s : State) : Host.Outcome State Fault Refusal :=
  .next (runPlain core 0 0 (coreWork core 1 fun c => putCap c k {}) s)

end Sys2Proof.Machine
end

