-- ==== Sys2Proof/Machine/CaritSys.lean ====
section
/-! DEFINITION. The resumable long instructions, the hash and Sail operations, device reads and writes, exceptions by
instruction, special registers, the secret operations, and interrupts (13_carit_instruction_set.md, R546, R557 to R564;
14_exceptions_privilege_protection.md, R577, R581, R587, R590 to R597, R606, R607). -/

namespace Sys2Proof.Machine

/-! ### Block moves (R559 to R561) -/

/-- Unit page of Sail engine `e` of a core's channel. -/
def enginePage (p e : Nat) : Nat := chanPage (chanOf p) + 5 + e

/-- Either end is of a kind. -/
def bmHas (ctl k : Nat) : Bool := decide (bmKind ctl false = k ∨ bmKind ctl true = k)

/-- DIR (R560): the ends are of one kind and one register or engine, and the destination lies above the source inside it. -/
def bmDir (ctl src dst len : Nat) : Bool :=
  decide (bmKind ctl false = bmKind ctl true ∧ src < dst ∧ dst < src + len) &&
    match bmKind ctl false with
    | 1 => decide (bmCap ctl false = bmCap ctl true)
    | 2 => decide (bmEng ctl false = bmEng ctl true)
    | _ => true

/-- First issue of BMOVE (R557, R560): the operands popped into the registers, ACTIVE set. A move from the end starts with
both addresses at the ends (DESIGN CHOICE, log 52). -/
def bmBegin (c : Core) (operand : Nat) : Core :=
  let ctl := 4 * (operand % 2 ^ 12)
  let len := topOf c 0
  let dst := topOf c 1
  let src := topOf c 2
  let dir := bmDir ctl src.toNat dst.toNat len.toNat
  { popN c 3 with
    bmSrc := if dir then src + len else src, bmDst := if dir then dst + len else dst, bmLen := len
    bmCtl := BitVec.ofNat 64 (ctl + bitAt dir 1 + 1) }

/-- Bytes of the next unit: 16, or fewer to reach 16-byte alignment of the destination (R559). -/
def bmUnit (c : Core) : Nat :=
  let d := c.bmDst.toNat
  let room := if c.bmCtl.getLsbD 1 then (if d % 16 = 0 then 16 else d % 16) else 16 - d % 16
  min room c.bmLen.toNat

/-- An engine of the move is BUSY, WIPING or LOADING (R561). -/
def bmBlocked (s : State) (p ctl : Nat) : Bool :=
  [false, true].any fun d => decide (bmKind ctl d = 2) && windowShut (sailAt s (enginePage p (bmEng ctl d)))

/-- Bytes of a unit from its source (R415, R548, R560). -/
def bmRead (s : State) (p ctl addr n : Nat) : Except Exc (Bytes × State) :=
  match bmKind ctl false with
  | 0 => load s p true addr n
  | 1 => capLoad s p (bmCap ctl false) (2 ^ permLoad) addr n
  | _ =>
    let q := enginePage p (bmEng ctl false)
    let e := sailAt s q
    if 8 * memWords q < addr + n then .error ⟨9, 1, addr⟩
    else
      let ws := (List.range ((n + 7) / 8)).flatMap fun i =>
        le 8 (if (attrAt e (addr / 8 + i)).secret then 0 else memWord e (addr / 8 + i))
      .ok (ws.take n, s)

/-- Bytes of a unit to its destination (R414, R548, R560, R561). -/
def bmWrite (s : State) (p ctl addr : Nat) (b : Bytes) : Except Exc State :=
  match bmKind ctl true with
  | 0 => store s p true addr b
  | 1 => capStore s p (bmCap ctl true) addr b
  | _ =>
    let q := enginePage p (bmEng ctl true)
    if 8 * memWords q < addr + b.length then .error ⟨9, 1, addr⟩
    else .ok (putSail s q ((List.range ((b.length + 7) / 8)).foldl
      (fun e i => writeWord e (addr / 8 + i, field b (8 * i) 8, {})) (sailAt s q)))

/-- Cycles of a unit of `n` bytes (R559). -/
def bmCycles (ctl n : Nat) : Nat := if bmHas ctl 1 || bmHas ctl 2 then (n + 7) / 8 else 1

/-- The move is complete: ACTIVE clears (R557). -/
def bmEnd (c : Core) : Core := { c with bmCtl := c.bmCtl &&& ~~~ 1#64 }

/-- A unit of BMOVE, its registers after it, and its end (R557, R559). -/
def bmStep (p : Nat) (s : State) : Res :=
  let c := coreAt s p
  let ctl := c.bmCtl.toNat
  let back := c.bmCtl.getLsbD 1
  if c.bmLen = 0 then .done (putCore s p (bmEnd c)) none 1
  else if bmBlocked s p ctl then .wait .bmove s
  else
    let n := bmUnit c
    let w := BitVec.ofNat 64 n
    let src := if back then c.bmSrc - w else c.bmSrc
    let dst := if back then c.bmDst - w else c.bmDst
    match bmRead s p ctl src.toNat n with
    | .error e => .trapAt s e
    | .ok (b, t) => match bmWrite t p ctl dst.toNat b with
      | .error e => .trapAt s e
      | .ok t =>
        let k := coreAt t p
        let k : Core := { k with
          bmSrc := if back then src else src + w, bmDst := if back then dst else dst + w, bmLen := c.bmLen - w }
        if k.bmLen = 0 then .done (putCore t p (bmEnd k)) none (bmCycles ctl n)
        else .again (putCore t p k) (bmCycles ctl n)

/-- A Sail end asks for addresses and a length that are multiples of 8 (R561). -/
def bmUnaligned (ctl : Nat) (c : Core) : Bool :=
  bmHas ctl 2 && [topOf c 0, topOf c 1, topOf c 2].any fun v => decide (v.toNat % 8 ≠ 0)

/-- BMOVE (R557 to R561): the first issue or a later one, and one unit of work. -/
def execBmove (core operand : Nat) (s : State) : Host.Outcome State Fault Refusal :=
  let c := coreAt s core
  if c.bmCtl.getLsbD 0 then
    .next (runIns core (if bmIllegal c.bmCtl.toNat then some 0 else none) false false false [(0, 0, 0)] (bmStep core) s)
  else
    let ctl := 4 * (operand % 2 ^ 12)
    .next (runIns core (if bmIllegal ctl then some 0 else none) false false false [(3, 3, 0)] (fun s =>
      let c := coreAt s core
      if bmUnaligned ctl c then .trap 0 ⟨1, 0, 0⟩ else bmStep core (putCore s core (bmBegin c operand))) s)

/-! ### Hashes (R246, R546, R559) -/

/-- HSTART: an ALG that R246 does not list is ILLEGAL_OP. -/
def execHstart (core alg : Nat) (keyed : Bool) (k : Nat) (s : State) : Host.Outcome State Fault Refusal :=
  .next (runIns core (if (hashLen (alg % 256)).isNone then some 0 else none) false false false [(0, 0, 0)] (fun s =>
    let c := coreAt s core
    let x := capReg c k
    if keyed then
      match capUse s c k (2 ^ permEngine) 0 x.length with
      | some e => .trap 0 e
      | none =>
        let key := objectKey s x.object
        .done (putCore s core { c with hash := some (alg % 256, key, []) }) none 4
    else .done (putCore s core { c with hash := some (alg % 256, none, []) }) none 4) s)

/-- First issue of HFEED (R557). -/
def hfBegin (c : Core) (cap : Bool) (k : Nat) : Core :=
  { popN c 2 with hfLen := topOf c 0, hfPtr := topOf c 1, hfCtl := BitVec.ofNat 64 (1 + bitAt cap 1 + 4 * (k % 4)) }

/-- HFEED is complete. -/
def hfEnd (c : Core) : Core := { c with hfCtl := c.hfCtl &&& ~~~ 1#64 }

/-- Bytes reach the open hash, and the lane counts them. -/
def hashFeed (s : State) (p : Nat) (b : Bytes) : State :=
  let c := coreAt s p
  match c.hash with
  | none => s
  | some (alg, key, fed) =>
    let l := laneAt s (chanOf p)
    putLane (putCore s p { c with hash := some (alg, key, fed ++ b) }) (chanOf p) { l with bytes := (l.bytes + b.length) % 2 ^ 64 }

/-- A unit of HFEED: 64 bytes, or the remainder (R559). -/
def hfStep (p : Nat) (s : State) : Res :=
  let c := coreAt s p
  let n := min 64 c.hfLen.toNat
  if n = 0 then .done (putCore s p (hfEnd c)) none 1
  else
    let r := if c.hfCtl.getLsbD 1 then capLoad s p (bits c.hfCtl.toNat 2 2) (2 ^ permLoad) c.hfPtr.toNat n
      else load s p true c.hfPtr.toNat n
    match r with
    | .error e => .trapAt s e
    | .ok (b, t) =>
      let t := hashFeed t p b
      let k := coreAt t p
      let k : Core := { k with hfPtr := c.hfPtr + BitVec.ofNat 64 n, hfLen := c.hfLen - BitVec.ofNat 64 n }
      let cyc := (16 * n + 99) / 100
      if k.hfLen = 0 then .done (putCore t p (hfEnd k)) none cyc else .again (putCore t p k) cyc

/-- HFEED (R557, R559). -/
def execHfeed (core : Nat) (cap : Bool) (k : Nat) (s : State) : Host.Outcome State Fault Refusal :=
  if (coreAt s core).hfCtl.getLsbD 0 then .next (runPlain core 0 0 (hfStep core) s)
  else .next (runPlain core 2 0 (fun s => hfStep core (putCore s core (hfBegin (coreAt s core) cap k))) s)

/-- The digest of a core's open hash, none while none is open (DEDUCED, log 50). -/
def hashDigest (c : Core) : Option Bytes :=
  c.hash.map fun h =>
    let n := if 0x21 ≤ h.1 then 64 else (hashLen h.1).getD 0
    match h.2.1 with
    | none => Config.out (hashPrim h.1) [h.2.2] n
    | some k => Config.out .hmac [[BitVec.ofNat 8 h.1], k.material, h.2.2] n

/-- HEND: the digest at a local address, its length pushed. -/
def execHend (core : Nat) (s : State) : Host.Outcome State Fault Refusal :=
  .next (runPlain core 1 1 (fun s =>
    let c := coreAt s core
    let d := (hashDigest c).getD []
    match (if d = [] then Except.ok s else store s core true (topOf c 0).toNat d) with
    | .error e => .trap 0 e
    | .ok s =>
      let (t, s) := freeNat s
      let k := popN (coreAt s core) 1
      .done (putCore s core (push { k with hash := none } (BitVec.ofNat 64 d.length))) none (8 + t)) s)

/-! ### Sail commands (R421, R439, R440, R546) -/

/-- The engine serves the core's job: its owner, with the wipe of a change of owner (R439, R440), and its release with the
job. -/
def engineFor (s : State) (q n : Nat) : State :=
  match jobAt s n with
  | none => s
  | some j =>
    let e := sailAt s q
    let s :=
      if isWide q then
        if ownedBy s j e then s
        else
          let e : Sail := if e.ownerValid then { wiped e with estate := .idle, countWipe := e.countWipe + 1 } else e
          let s := { s with sig := { s.sig with tables := s.sig.tables.filter fun t => t.engine ≠ q } }
          putSail s q { e with
            ownerInst := j.inst, ownerGen := j.gen, ownerKgen := (instKeys s j.inst).cur, ownerValid := true }
      else putSail s q { e with job := some n }
    modJob s n fun j => { j with engines := if j.engines.contains q then j.engines else j.engines ++ [q] }

/-- A command at an engine's port (R421): dropped with OVERRUN while the engine is not IDLE, dropped while it is not RUNNING
or stands at the expert level (DEDUCED, log 51). -/
def portIssue (s : State) (p e : Nat) (x : SailRun) : State :=
  let q := enginePage p e
  let n := (coreAt s p).job
  if !serves s q || (unitAt s q).level then s
  else if (sailAt s q).estate ≠ .idle then putSail s q { sailAt s q with overrun := true }
  else issue (engineFor s q n) q { x with job := if (jobAt s n).isSome then some n else none, core := some p }

/-- SCMD. -/
def execScmd (core engine : Nat) (s : State) : Host.Outcome State Fault Refusal :=
  .next (runIns core (engineIllegal engine) false false false [(6, 6, 0)] (fun s =>
    let c := coreAt s core
    let w (i : Nat) : Nat := (topOf c i).toNat % 2 ^ 32
    let x : SailRun := { word := w 0, arg0 := w 1, arg1 := w 2, arg2 := w 3, arg3 := w 4, xlen := w 5 }
    .done (portIssue (putCore s core (popN c 6)) core (engine % 4) x) none 2) s)

/-- SKEY: KEY_LOAD with a capability register. -/
def execSkey (core engine k : Nat) (s : State) : Host.Outcome State Fault Refusal :=
  .next (runIns core (engineIllegal engine) false false false [(1, 1, 0)] (fun s =>
    let c := coreAt s core
    let x := capReg c k
    match capUse s c k (2 ^ permEngine) 0 x.length with
    | some e => .trap 0 e
    | none =>
      let r : SailRun := { word := 0x0C, arg0 := (topOf c 0).toNat % 2 ^ 32, cap := x }
      .done (portIssue (putCore s core (popN c 1)) core (engine % 4) r) none 2) s)

/-- One cycle of SWAIT (R557, R559): the bits of engines no longer BUSY clear. -/
def swStep (p : Nat) (s : State) : Res :=
  let c := coreAt s p
  let m := bits c.swMask.toNat 0 3
  let left := (List.range 3).filter fun e => bit m e && (sailAt s (enginePage p e)).run.isSome
  if left.isEmpty then .done (putCore s p { c with swMask := 0 }) none 1
  else .wait .swait (putCore s p { c with swMask := BitVec.ofNat 64 (2 ^ 63 + (left.map (2 ^ ·)).sum) })

/-- SWAIT. -/
def execSwait (core mask : Nat) (s : State) : Host.Outcome State Fault Refusal :=
  if (coreAt s core).swMask.getLsbD 63 then .next (runPlain core 0 0 (swStep core) s)
  else .next (runPlain core 0 0 (fun s =>
    let c := coreAt s core
    swStep core (putCore s core { c with swMask := BitVec.ofNat 64 (2 ^ 63 + mask % 8) })) s)

/-- SSTAT. -/
def execSstat (core engine : Nat) (s : State) : Host.Outcome State Fault Refusal :=
  .next (runIns core (engineIllegal engine) false false false [(0, 0, 1)] (coreWork core 1 fun c =>
    push c (BitVec.ofNat 64 (sailRead s (enginePage core (engine % 4)) 0x818))) s)

/-! ### Device reads and writes (R522, R562 to R564) -/

/-- A device register used in ring 2 alone. -/
def notRing2 (s : State) (p : Nat) : Bool := decide ((coreAt s p).ring ≠ 2)

/-- 64 bits of the channel DRBG (R521, R522, R525, R526, R563, R564): delivered, refused, or awaited. -/
def rngTake (p : Nat) (use : State → Word64 → Res) (s : State) : Res :=
  let d := chanOf p
  let c := coreAt s p
  let x := drbgAt s d
  let i := ctxOf s c
  if c.entropy then .trap 0 ⟨0x0A, 0, 0⟩
  else if 8 ≤ x.buf.length ∧ x.bufInst = i.1 ∧ x.bufGen = i.2 then
    use (putDrbg s d { x with buf := x.buf.drop 8 }) (BitVec.ofNat 64 (field x.buf 0 8))
  else if x.queue.any fun r => decide (r.for_ = .core p) then .wait .rng s
  else
    let t := askRand s d { for_ := .core p, code := 3, inst := i.1, gen := i.2, serial := c.job, len := 64 }
    if (coreAt t p).entropy then .trapAt t ⟨0x0A, 0, 0⟩ else .wait .rng t

/-- DEVRD of RNG_DATA. -/
def execRngDataRead (core : Nat) (s : State) : Host.Outcome State Fault Refusal :=
  .next (runPlain core 0 1 (rngTake core fun s v => .done (putCore s core (push (coreAt s core) v)) none 2) s)

/-- The job that the channel hands to a core: one it waited for, else the first of the hand-off queue. -/
def nextJob (s : State) (p : Nat) : Option (Nat × Job) :=
  let here := s.jobs.filter fun e =>
    decide (e.2.chan = some (chanOf p)) && undecided e.2 && match e.2.phase with
      | .unwrap _ | .waitFill _ | .run => true
      | _ => false
  match here.find? fun e => decide (e.2.core = some p ∧ e.1 ≠ (coreAt s p).job) with
  | some e => some e
  | none => here.find? fun e => e.2.core.isNone

/-- DEVRD of JOB_NEXT (R562, R563, R578). -/
def execJobNext (core : Nat) (s : State) : Host.Outcome State Fault Refusal :=
  .next (runIns core none (notRing2 s core) false false [(0, 0, 1)] (fun s =>
    match nextJob s core with
    | none => .wait .jobNext s
    | some (n, j) =>
      let s := modJob s n fun j => { j with core := some core }
      let c := push (coreAt s core) (BitVec.ofNat 64 n)
      .done (putCore s core { c with
        job := n, ctxInst := j.inst, ctxGen := j.gen, inJob := true, mcSlot := j.image.getD 0 }) none 2) s)

/-- DEVRD of LEAF_WAIT: SEQ of the committed leaf of the current job (DEDUCED, log 61). -/
def execLeafWait (core : Nat) (s : State) : Host.Outcome State Fault Refusal :=
  .next (runIns core none (notRing2 s core) false false [(0, 0, 1)] (fun s =>
    match jobAt s (coreAt s core).job with
    | some j => match j.phase with
      | .committed | .kept => .done (putCore s core (push (coreAt s core) (BitVec.ofNat 64 j.seq))) none 2
      | _ => .wait .leafWait s
    | none =>
      let (v, s) := freeNat s
      .done (putCore s core (push (coreAt s core) (BitVec.ofNat 64 v))) none 2) s)

/-- DEVRD of CORE_ID. -/
def execCoreId (core : Nat) (s : State) : Host.Outcome State Fault Refusal :=
  .next (runPlain core 0 1 (coreWork core 2 fun c =>
    push c (BitVec.ofNat 64 (chanOf core + 2 ^ 6 * (slotOf core - 1) + 2 ^ 8 * halfOf (chanOf core)))) s)

/-- DEVRD of TETHER. -/
def execTetherRead (core : Nat) (s : State) : Host.Outcome State Fault Refusal :=
  .next (runPlain core 0 1 (coreWork core 2 fun c => push c (BitVec.ofNat 64 (position s))) s)

/-- DEVRD of JOB_SERIAL: 0 when none. -/
def execJobSerial (core : Nat) (s : State) : Host.Outcome State Fault Refusal :=
  .next (runPlain core 0 1 (coreWork core 2 fun c =>
    push c (BitVec.ofNat 64 (if (jobAt s c.job).isSome then c.job else 0))) s)

/-- Statuses that R184 and R175 of 04 allow an opcode. -/
def statusAllowed (op st : Nat) : Bool :=
  let k := op / 256
  let key := !([0x0401, 0x0402, 0x0407, 0x0505, 0x0601, 0x0602, 0x0603].contains op)
  let reads := key || [0x0407, 0x0505].contains op
  let buf := [0x0101, 0x0104, 0x0401, 0x0402, 0x0403, 0x0404, 0x0405, 0x0407, 0x0408, 0x0409, 0x040A, 0x0501, 0x0502, 0x0505,
    0x0601, 0x0602].contains op
  let more : List Nat := match op with
    | 0x0101 | 0x0104 => [0x5002]
    | 0x0102 | 0x0103 => [0x2007, 0x3001]
    | 0x0201 => [0x1009, 0x3002]
    | 0x0202 => [0x3002, 0x3003]
    | 0x0203 => [0x3002]
    | 0x0204 | 0x0205 => [0x1009, 0x100A, 0x3002]
    | 0x0301 | 0x0303 => [0x3005]
    | 0x0305 => [0x3004]
    | 0x0403 => [0x2008]
    | 0x0405 => [0x2005]
    | 0x0407 => [0x2007]
    | 0x0502 => [0x3006]
    | 0x0602 => [0x4002]
    | _ => []
  decide (k ≤ 6) && ([0x0000, 0x1002, 0x1003, 0x1004, 0x1007, 0x1008, 0x4001, 0x5001].contains st ||
    (reads && [0x1005, 0x100B].contains st) || (buf && decide (st = 0x1006)) ||
    (key && [0x2001, 0x2002, 0x2003, 0x2004, 0x2006, 0x6001].contains st) ||
    (drawsOp op && [0x6001, 0x7001].contains st) || more.contains st)

/-- Ballast bytes as host memory sees them: a granule with its tag set is 16 zeros (R295 of 05). -/
def ballastOut (s : State) (j : Job) (off n : Nat) : Bytes × State :=
  let got := (List.range n).map fun i => ballastByte j (off + i)
  let (f, s) := if got.all (·.isSome) then ([], s) else freeBytes s n
  ((List.range n).map fun i =>
    if tget false j.tags ((off + i) / 16) then 0 else (got.getD i none).getD (f.getD i 0), s)

/-- The word of JOB_END: status in bits [15:0], output length in bits [63:32] (DESIGN CHOICE, log 60). -/
def jobEnd (s : State) (p : Nat) (v : Word64) : State :=
  let n := (coreAt s p).job
  match jobAt s n with
  | none => s
  | some j =>
    if j.phase ≠ .run ∨ j.core ≠ some p then s
    else
      let e := j.entry
      let st := v.toNat % 2 ^ 16
      let len := v.toNat / 2 ^ 32
      let st := if eOutCap e < len ∨ !statusAllowed (eOp e) st then 0x4001 else st
      let s := if st = 0x4001 ∧ j.image.isSome then setEvent s p 18 else s
      if st = 0 ∨ (st = 0x3001 ∧ eOp e = 0x0103) then
        let (r, s) := ballastOut s j (eInLen e + eOutCap e) 44
        let (o, s) := if st = 0 then ballastOut s j (eInLen e) len else ([], s)
        endJob s n st r o o.length
      else failJob s n st

/-- DEVWR of JOB_END (R562, R572, R578). -/
def execJobEnd (core : Nat) (s : State) : Host.Outcome State Fault Refusal :=
  .next (runIns core none (notRing2 s core) false false [(1, 1, 0)] (fun s =>
    let c := coreAt s core
    let s := jobEnd (putCore s core (popN c 1)) core (topOf c 0)
    let c := coreAt s core
    .done (putCore s core { c with ctxInst := 0x3FF, inJob := false }) none 2) s)

/-- DEVWR of LEAF_SUBMIT: the 64 bytes at a local address go to the audit port as the leaf of the current job, whose result
is final. -/
def execLeafSubmit (core : Nat) (s : State) : Host.Outcome State Fault Refusal :=
  .next (runIns core none (notRing2 s core) false false [(1, 1, 0)] (fun s =>
    let c := coreAt s core
    match load s core true (topOf c 0).toNat 64 with
    | .error e => .trap 0 e
    | .ok (b, s) =>
      let n := c.job
      let s := match jobAt s n with
        | some j =>
          if j.phase = .final ∧ j.core = some core then modJob (resultFinal s n) n fun j => { j with leaf := b } else s
        | none => s
      .done (putCore s core (popN (coreAt s core) 1)) none 2) s)

/-! ### TRAP and RETX (R581, R584, R587, R596) -/

/-- TRAP n: the entry of vector 0x40 + n; one that is not VALID is RING_VIOLATION (DEDUCED, log 55). -/
def trapWork (p n : Nat) (s : State) : Res :=
  let c := coreAt s p
  let h := handlingRing c.ring
  let v := 0x40 + n % 256
  let valid := match vectorEntry (putCore s p { c with ring := h }) p h v with
    | some e => bit e 32
    | none => true
  if rcOf c (0x040 + 8 * h) ≠ 0 ∧ !valid then .trap 0 ⟨2, 0, 0⟩
  else
    let (next, c) := loopNext 4 c
    let t := enterVector (putCore s p c) p v 0 0 next 0 h false
    .done t (some (coreAt t p).pc) 0

/-- TRAP. -/
def execTrap (core n : Nat) (s : State) : Host.Outcome State Fault Refusal := .next (runPlain core 0 0 (trapWork core n) s)

/-- RETX (R587, R596): the frame of the current ring, or of DOUBLE, is read, checked and restored. -/
def retxWork (p : Nat) (s : State) : Res :=
  let c := coreAt s p
  let h := c.ring
  let fr := if c.dfBusy then doubleFrame else (rcOf c (0x041 + 8 * h)).toNat
  match load s p false fr 256 with
  | .error e => .trap 0 e
  | .ok (b, s) =>
    if bits (field b 5 1) 0 2 < h then .trap 0 ⟨0x0B, 0, fr⟩
    else
      let r := clearSecrets (frameRestore (coreAt s p) b fun i => tagOf s p (fr + 160 + 16 * i))
      let r : Core := { r with noint := 0, stall := .none }
      let r := if c.dfBusy then { r with dfBusy := false } else rcPut r (0x041 + 8 * h) (BitVec.ofNat 32 (fr + 256))
      .done (putCore s p r) (some r.pc) 24

/-- RETX. -/
def execRetx (core : Nat) (s : State) : Host.Outcome State Fault Refusal :=
  .next (runIns core none (decide (2 < (coreAt s core).ring)) false false [(0, 0, 0)] (retxWork core) s)

/-! ### Interrupts pending (R590) -/

/-- IPEND: the bits kept by the core, and those that follow the state of other units (DEDUCED, log 58). -/
def pendingOf (s : State) (p : Nat) : Nat :=
  let tamper := (unitAt s tamperPage).event.getLsbD 16
  let manager := [0, 1].any fun a => let w := winAt s a; winBusy w && w.waits
  let tether := (unitAt s 0x006).event.getLsbD 19 && s.events.any fun e => e.2.fw && decide (e.2.fired ≠ 0)
  ((coreAt s p).ipend ||| w32 (bitAt tamper 1 + bitAt manager 2 + bitAt tether 3)).toNat

/-! ### Special registers (R531, R577, R606, R607) -/

/-- A staged value differs from the rule in force. -/
def rulesPending (c : Core) : Bool := decide (c.mpu ≠ c.mpuStaged)

/-- The value of a special register. -/
def msrRead (s : State) (p r : Nat) : Word64 :=
  let c := coreAt s p
  let w (x : Word32) : Word64 := x.setWidth 64
  if 0x010 ≤ r ∧ r < 0x014 then w (tget 0 c.ls (r - 0x010))
  else if 0x014 ≤ r ∧ r < 0x018 then w (tget 0 c.le (r - 0x014))
  else if 0x018 ≤ r ∧ r < 0x01C then tget 0 c.lc (r - 0x018)
  else if 0x040 ≤ r ∧ r < 0x058 then w (rcOf c r)
  else if 0x05D ≤ r then w (tget 0 c.mpuStaged r)
  else match r with
    | 0x000 => w c.pc
    | 0x001 => BitVec.ofNat 64 c.depth
    | 0x002 => w c.dsb
    | 0x003 => w c.dsp
    | 0x004 => w c.dsl
    | 0x005 => w c.rsb
    | 0x006 => w c.rsp
    | 0x007 => w c.rsl
    | 0x008 => c.a
    | 0x009 => c.b
    | 0x00A => c.fp
    | 0x00B => truth c.c
    | 0x01C => BitVec.ofNat 64 c.ldepth
    | 0x020 => c.bmSrc
    | 0x021 => c.bmDst
    | 0x022 => c.bmLen
    | 0x023 => c.bmCtl
    | 0x024 => c.hfPtr
    | 0x025 => c.hfLen
    | 0x026 => c.hfCtl
    | 0x027 => c.swMask
    | 0x030 => BitVec.ofNat 64 c.cycles
    | 0x058 => BitVec.ofNat 64 (ctxWord c)
    | 0x059 => BitVec.ofNat 64 (pendingOf s p)
    | 0x05A => BitVec.ofNat 64 c.noint
    | 0x05C => BitVec.ofNat 64 (bitAt c.dfBusy 0 + bitAt (rulesPending c) 1)
    | _ => 0

/-- An MTS of a number is allowed in a ring (R531, R577, R607). -/
def mtsAllowed (c : Core) (r : Nat) : Bool :=
  let ring := c.ring
  if 0x060 ≤ r then
    decide (ring = 0) || (decide (ring = 1) && !(tget 0 c.mpu 0x05D).getLsbD ((r - 0x060) / 2))
  else if 0x040 ≤ r ∧ r < 0x058 then decide (ring ≤ (r - 0x040) / 8)
  else if (0x008 ≤ r ∧ r ≤ 0x01B) ∨ (0x020 ≤ r ∧ r ≤ 0x027) then true
  else if r = 0x058 ∨ r = 0x05D then decide (ring ≤ 1)
  else if r = 0x002 ∨ r = 0x004 ∨ r = 0x005 ∨ r = 0x007 ∨ r = 0x05A ∨ r = 0x05B then decide (ring ≤ 2)
  else false

/-- Bits that a ring control or protection register holds (R577, R602). -/
def msrMask (r : Nat) : Word32 :=
  if 0x060 ≤ r then 0xFFFFFF3F
  else if r = 0x05D then 0x0000FFFF
  else match (r - 0x040) % 8 with
    | 0 => 0xFFFFF000
    | 1 => 0xFFFFFFF0
    | _ => 0xFFFFFFFF

/-- A special register written. CCLEAN acts on the data cache (R601). -/
def msrWrite (s : State) (p r : Nat) (v : Word64) : State :=
  let c := coreAt s p
  let w : Word32 := v.setWidth 32
  if r = 0x05B then cacheClean s p w.toNat
  else
    let c' : Core :=
      if 0x010 ≤ r ∧ r < 0x014 then { c with ls := tset 0 c.ls (r - 0x010) w }
      else if 0x014 ≤ r ∧ r < 0x018 then { c with le := tset 0 c.le (r - 0x014) w }
      else if 0x018 ≤ r ∧ r < 0x01C then { c with lc := tset 0 c.lc (r - 0x018) v }
      else if 0x040 ≤ r ∧ r < 0x058 then rcPut c r (w &&& msrMask r)
      else if 0x05D ≤ r then
        let old := tget 0 c.mpuStaged r
        let new := w &&& msrMask r
        { c with mpuStaged := tset 0 c.mpuStaged r (if r = 0x05D ∧ c.ring = 1 then old ||| new else new) }
      else match r with
        | 0x002 => { c with dsb := w, dsp := w, depth := c.stack.length }
        | 0x004 => { c with dsl := w }
        | 0x005 => { c with rsb := w, rsp := w }
        | 0x007 => { c with rsl := w }
        | 0x008 => { c with a := v }
        | 0x009 => { c with b := v }
        | 0x00A => { c with fp := v }
        | 0x00B => { c with c := v.getLsbD 0 }
        | 0x020 => { c with bmSrc := v }
        | 0x021 => { c with bmDst := v }
        | 0x022 => { c with bmLen := v }
        | 0x023 => { c with bmCtl := v }
        | 0x024 => { c with hfPtr := v }
        | 0x025 => { c with hfLen := v }
        | 0x026 => { c with hfCtl := v }
        | 0x027 => { c with swMask := v }
        | 0x058 => ctxSet c v.toNat
        | 0x05A => if v = 0 ∧ c.ring = c.nointRing then { c with noint := 0 } else c
        | _ => c
    putCore s p c'

/-- ILLEGAL_OP for a number that neither R531 nor R577 assigns. -/
def msrIllegal (r : Nat) : Option Nat := if msrAssigned r then none else some 0

/-- MFS. -/
def execMfs (core reg : Nat) (s : State) : Host.Outcome State Fault Refusal :=
  let r := reg % 2 ^ 9
  .next (runIns core (msrIllegal r) (decide ((coreAt s core).ring = 3 ∧ 0x040 ≤ r)) false false [(0, 0, 1)]
    (coreWork core 1 fun c => push c (msrRead s core r)) s)

/-- MTS. -/
def execMts (core reg : Nat) (s : State) : Host.Outcome State Fault Refusal :=
  let r := reg % 2 ^ 9
  .next (runIns core (msrIllegal r) (!mtsAllowed (coreAt s core) r) false false [(1, 1, 0)] (fun s =>
    let c := coreAt s core
    .done (msrWrite (putCore s core (popN c 1)) core r (topOf c 0)) none 1) s)

/-- MPUSYNC (R606). -/
def execMpusync (core : Nat) (s : State) : Host.Outcome State Fault Refusal :=
  .next (runIns core none (decide (1 < (coreAt s core).ring)) false false [(0, 0, 0)]
    (coreWork core 4 fun c => { c with mpu := c.mpuStaged }) s)

/-- FENCE: every access of this model completes with its instruction (DEDUCED, log 54). -/
def execFence (core : Nat) (s : State) : Host.Outcome State Fault Refusal :=
  .next (runPlain core 0 0 (coreWork core 1 fun c => c) s)

/-- WAITI. -/
def execWaiti (core : Nat) (s : State) : Host.Outcome State Fault Refusal :=
  .next (runIns core none (decide (2 < (coreAt s core).ring)) false false [(0, 0, 0)]
    (fun s => if pendingOf s core = 0 then .wait .waiti s else .done s none 1) s)

/-! ### Secret operations (R346, R532, R546) -/

/-- Rings 0 and 1 alone. -/
def notManager (s : State) (p : Nat) : Bool := decide (1 < (coreAt s p).ring)

def secretReg (c : Core) (i : Nat) : Word64 := tget 0 c.sreg (i % 16)
def putSecret (c : Core) (i : Nat) (v : Word64) : Core := { c with sreg := tset 0 c.sreg (i % 16) v }

/-- SLD. -/
def execSld (core sd k disp : Nat) (s : State) : Host.Outcome State Fault Refusal :=
  .next (runIns core none (notManager s core) false false [(1, 1, 0)] (fun s =>
    let off := topOf (coreAt s core) 0 + signed64 16 disp
    match capLoad s core k (2 ^ permLoadSecret) off.toNat 8 with
    | .error e => .trap 0 e
    | .ok (b, s) => .done (putCore s core (putSecret (popN (coreAt s core) 1) sd (BitVec.ofNat 64 (unle b)))) none 3) s)

/-- SXOR. -/
def execSxor (core sd ss : Nat) (s : State) : Host.Outcome State Fault Refusal :=
  .next (runIns core none (notManager s core) false false [(0, 0, 0)]
    (coreWork core 1 fun c => putSecret c sd (secretReg c sd ^^^ secretReg c ss)) s)

/-- Each byte of a word times a constant (R345 of 07). -/
def gfWord (v : Word64) (k : Byte) : Word64 := BitVec.ofNat 64 (unle ((le 8 v.toNat).map fun b => gfMul b k))

/-- SGFM. -/
def execSgfm (core sd k : Nat) (s : State) : Host.Outcome State Fault Refusal :=
  .next (runIns core none (notManager s core) false false [(0, 0, 0)]
    (coreWork core 1 fun c => putSecret c sd (gfWord (secretReg c sd) (BitVec.ofNat 8 k))) s)

/-- SCLR. -/
def execSclr (core sd : Nat) (all : Bool) (s : State) : Host.Outcome State Fault Refusal :=
  .next (runIns core none (notManager s core) false false [(0, 0, 0)]
    (coreWork core 1 fun c => if all then { c with sreg := [] } else putSecret c sd 0) s)

/-- Four secret registers as the 256 bits of SPORT (DEDUCED, log 62). -/
def sportOf (c : Core) (ss : Nat) : BitVec 256 :=
  BitVec.ofNat 256 (((List.range 4).map fun i => (secretReg c (ss + i)).toNat * 2 ^ (64 * i)).sum)

/-- SPUT: to the keel's staging share input or to the card bus's share buffer, whose later 32 bytes it fills while the earlier
content moves down; SPORT is 0 afterwards. -/
def execSput (core ss dest : Nat) (s : State) : Host.Outcome State Fault Refusal :=
  .next (runIns core (if ss % 16 % 4 ≠ 0 ∨ 1 < dest % 4 then some 0 else none) (decide ((coreAt s core).ring ≠ 1)) false false
    [(0, 0, 0)] (fun s =>
      let c := coreAt s core
      let v := sportOf c (ss % 16)
      let s := putCore s core { c with sport := 0 }
      if dest % 4 = 0 then .done { s with kh := { s.kh with shareIn := v } } none 4
      else .done { s with ccb := { s.ccb with share := slice s.ccb.share 32 32 ++ le 32 v.toNat } } none 4) s)

/-- SRAND. -/
def execSrand (core sd : Nat) (s : State) : Host.Outcome State Fault Refusal :=
  .next (runIns core none (notManager s core) false false [(0, 0, 0)]
    (rngTake core fun s v => .done (putCore s core (putSecret (coreAt s core) sd v)) none 2) s)

/-! ### Interrupts (R563, R590 to R595) -/

/-- Handling ring of an interrupt vector (R590). -/
def vectorRing (v : Nat) : Nat := if v ≤ 0x21 then 0 else if v ≤ 0x24 then 1 else 2

/-- Interrupt vector `v` can be taken now (R591, R594). -/
def takable (s : State) (p v : Nat) : Bool :=
  let c := coreAt s p
  let h := vectorRing v
  bit (pendingOf s p) (v - 0x20) && decide (h ≤ c.ring) && (decide (v = 0x20) || (rcOf c (0x047 + 8 * h)).getLsbD (v - 0x20)) &&
    decide (rcOf c (0x040 + 8 * h) ≠ 0) && (decide (c.noint = 0) || decide (v = 0x20))

/-- The lowest vector that can be taken. -/
def nextInterrupt (s : State) (p : Nat) : Option Nat := ((List.range 6).map (0x20 + ·)).find? (takable s p)

/-- A stalled instruction is withdrawn (R563): its draw leaves the DRBG's queue; a WAITI completes. -/
def withdraw (s : State) (p : Nat) : State :=
  let s := if (coreAt s p).stall = .waiti then completeIns s p none 1 0 else s
  let d := drbgAt s (chanOf p)
  let s := putDrbg s (chanOf p) { d with queue := d.queue.filter fun r => r.for_ ≠ .core p }
  putCore s p { coreAt s p with stall := .none }

/-- INTERRUPT_TAKEN (R584, R591, R592): pending bits that the core keeps clear. -/
def execInterruptTaken (core : Nat) (s : State) : Host.Outcome State Fault Refusal :=
  if !coreRuns s core then stay s
  else match nextInterrupt s core with
    | none => stay s
    | some v =>
      let s := withdraw s core
      let c := coreAt s core
      let kept : List Nat := [0x20, 0x24, 0x25]
      let s := putCore s core { c with
        ipend := if kept.contains v then c.ipend &&& ~~~ w32 (2 ^ (v - 0x20)) else c.ipend }
      .next (enterVector s core v 0 0 c.pc 0 (vectorRing v) true)

/-- NOINT_EXPIRE (R594): the cycles of the window pass (DESIGN CHOICE, log 59). -/
def execNointExpire (core : Nat) (s : State) : Host.Outcome State Fault Refusal :=
  let c := coreAt s core
  if !coreRuns s core || decide (c.noint = 0) then stay s
  else
    let k := passCycles c c.noint
    .next (putCore s core { k with stalls := if c.stall = .none then k.stalls else (k.stalls + c.noint) % 2 ^ 64 })

end Sys2Proof.Machine
end

