-- ==== Sys2Proof/Machine/Debug.lean ====
section
/-! DEFINITION. The debug gate (14_exceptions_privilege_protection.md, R611 to R616). -/

namespace Sys2Proof.Machine

/-- Page of the debug gate. -/
def gatePage : Nat := 0x00C

/-- Ticks within which three refusals fire DEBUG_LOCK (R614). -/
def refusalSpan : Nat := 2 ^ 20

/-- Distance of two tether positions. -/
def apart (a b : Nat) : Nat := (a - b) + (b - a)

/-- Refusals that lie within the span of a position (R614). -/
def closeBy (ps : List Nat) (p : Nat) : List Nat := ps.filter fun q => decide (apart p q ≤ refusalSpan)

/-- Two of the earlier refusals lie within the span of each other and of the new one. -/
def threeClose (ps : List Nat) : Bool :=
  (List.range ps.length).any fun i => (List.range i).any fun j => decide (apart (ps.getD i 0) (ps.getD j 0) ≤ refusalSpan)

/-- A refusal (R614): an error response, counted and placed; the third within the span fires DEBUG_LOCK. -/
def refuseDebug (s : State) : State :=
  let p := position s
  let d := s.dbg
  let near := closeBy d.recent p
  let s := { s with dbg := { d with refused := sat 255 (d.refused + 1), last := p, recent := p :: near } }
  let s := setEvent (emit s (.debug [])) gatePage 17
  if threeClose near then
    let s := setEvent (closeGate { s with dbg := { s.dbg with locks := sat 255 (s.dbg.locks + 1) } }) gatePage 18
    fireTamper s debugLock
  else s

/-- The gate takes instructions. -/
def gateTakes (s : State) : Bool := pageAnswers s gatePage && takesWork s gatePage

/-- DEBUG_CHALLENGE (R612): refused in ZEROISED (R615). -/
def execDebugChallenge (s : State) : Host.Outcome State Fault Refusal :=
  if !gateTakes s then stay s
  else if lifecycle s = 3 then .next (refuseDebug s)
  else
    let (n, s) := keelDraw s 32
    .next (emit { s with dbg := { s.dbg with state := .challenged, nonce := some n, inst := 0 } } (.debug n))

/-- The certificate and the signature of a response (R612). -/
def responseGood (s : State) (nonce chain : Bytes) (inst : Nat) (sig : Bytes) : Bool :=
  let body := ascii "ECZ-DEBUG" ++ nonce ++ deviceFp ++ le 2 inst
  (if lifecycle s = 2 then Config.check .x509 [chain, s.lc.ownerCert, [5#8]] && Config.check .x509 [chain, le 2 inst, [6#8]]
    else Config.check .x509 [chain, [7#8]]) &&
  Config.check .sign [[2#8], chain, sig, body]

/-- DEBUG_RESPONSE (R612): a nonce serves one response. -/
def execDebugResponse (chain : Bytes) (inst : Nat) (sig : Bytes) (s : State) : Host.Outcome State Fault Refusal :=
  if !gateTakes s then stay s
  else match s.dbg.state, s.dbg.nonce with
    | .challenged, some n =>
      let i := inst % 2 ^ 16
      let t := { s with dbg := { s.dbg with nonce := none } }
      if i < 1024 && decide (lifecycle s ≠ 3) && responseGood s n chain i sig then
        .next (setEvent { t with dbg := { t.dbg with state := .opened, inst := i } } gatePage 16)
      else .next (refuseDebug t)
    | _, _ => .next (refuseDebug s)

/-- A byte of a core's local memory is locked (R613). -/
def byteLocked (s : State) (p a : Nat) : Bool :=
  let c := coreAt s p
  memTag s p a ||
    (decide (2 ≤ lifecycle s) && !(decide (c.ctxInst = s.dbg.inst) && match regionOf c a with
      | none => false
      | some i => decide (bits (rbaseOf c i) 4 2 = 3) && bit (rlimitOf c i) 4))

/-- A debug access is refused (R613, R614). -/
def accessRefused (s : State) (p addr : Nat) : Bool :=
  decide (s.dbg.state ≠ .opened ∨ kindOf p ≠ 0x04 ∨ addr % 4 ≠ 0 ∨ 0x20000 ≤ addr) ||
    (List.range 4).any fun i => byteLocked s p (addr + i)

/-- DEBUG_ACCESS (R613, R614). -/
def execDebugAccess (core : Nat) (write : Bool) (addr : Nat) (value : Word32) (s : State) :
    Host.Outcome State Fault Refusal :=
  if !gateTakes s then stay s
  else if accessRefused s core addr then .next (refuseDebug s)
  else if write then .next (memPut s core addr (le 4 value.toNat))
  else .next (emit s (.debug (memGet s core addr 4)))

/-- DEBUG_CLOSE (R615). -/
def execDebugClose (s : State) : Host.Outcome State Fault Refusal := .next (if gateTakes s then closeGate s else s)

end Sys2Proof.Machine
end

