-- ==== Sys2Proof/Machine/Smbus.lean ====
section
/-! DEFINITION. The SMBus management port (23_electrical_and_package.md, R905 to R908): accesses as host port 0's physical
function (R907). -/

namespace Sys2Proof.Machine

/-- The device answers on its slow ports: it has main power (DEDUCED, log 64). -/
def smbusUp (s : State) : Bool := decide (s.power.state ≠ .moored)

/-- The 7-bit target address (R906). -/
def smbusAddress (s : State) : Nat := 0x58 + s.power.smb % 8

/-- Page and offset of a 24-bit BAR0 offset. -/
def smbusPage (ptr : Nat) : Nat := ptr % 2 ^ 24 / 0x1000
def smbusOffset (ptr : Nat) : Nat := ptr % 0x1000

/-- SMBUS_SET_POINTER (R906). -/
def execSmbusSetPointer (ptr : Nat) (pecOk : Bool) (s : State) : Host.Outcome State Fault Refusal :=
  .next (if smbusUp s && pecOk then { s with smbPtr := ptr % 2 ^ 24 } else s)

/-- SMBUS_WRITE (R906, R907): the pointer stays. -/
def execSmbusWrite (ptr : Nat) (value : Word32) (pecOk : Bool) (s : State) : Host.Outcome State Fault Refusal :=
  .next (if smbusUp s && pecOk then regWrite s .pf0 (smbusPage ptr) (smbusOffset ptr) value else s)

/-- SMBUS_READ (R906, R907): four bytes, none when the page answers with an error. -/
def execSmbusRead (s : State) : Host.Outcome State Fault Refusal :=
  if !smbusUp s then stay s
  else match registerRead s .pf0 (smbusPage s.smbPtr) (smbusOffset s.smbPtr) with
    | (some v, s) => .next (emit s (.smbus (le 4 v)))
    | (none, s) => .next (emit s (.smbus []))

/-- ALERT_RESPONSE (R908): the device's own address while ALERT_N is low. -/
def execAlertResponse (s : State) : Host.Outcome State Fault Refusal :=
  .next (if smbusUp s && rootRaised s then emit s (.smbus [BitVec.ofNat 8 (smbusAddress s)]) else s)

end Sys2Proof.Machine
end

