-- ==== Sys2Proof/Machine/Dispatch.lean ====
section
/-! DEFINITION. `exec`: one arm per command of the opcode table, each a direct call of that command's meaning. -/

namespace Sys2Proof.Machine

/-- The effect of one command on everything but the queue. -/
def exec (i : Instr) (s : State) : Host.Outcome State Fault Refusal :=
  match i with
  | .ringDoorbell inst ring => Sys2Proof.Machine.execRingDoorbell inst ring s
  | .entryReadComplete chan ok data => Sys2Proof.Machine.execEntryReadComplete chan ok data s
  | .ballastWaitEnd => Sys2Proof.Machine.execBallastWaitEnd s
  | .orderedRelease job => Sys2Proof.Machine.execOrderedRelease job s
  | .jobHandoff job chan core => Sys2Proof.Machine.execJobHandoff job chan core s
  | .hostReadComplete job ok data => Sys2Proof.Machine.execHostReadComplete job ok data s
  | .unwrapComplete job => Sys2Proof.Machine.execUnwrapComplete job s
  | .resultFinal job => Sys2Proof.Machine.execResultFinal job s
  | .leafCommit job => Sys2Proof.Machine.execLeafCommit job s
  | .completionWrite job => Sys2Proof.Machine.execCompletionWrite job s
  | .outputSegmentWrite job => Sys2Proof.Machine.execOutputSegmentWrite job s
  | .forward line frame => Sys2Proof.Machine.execForward line frame s
  | .forwardSend job member => Sys2Proof.Machine.execForwardSend job member s
  | .result line frame => Sys2Proof.Machine.execResult line frame s
  | .unitEnable acc page => Sys2Proof.Machine.execUnitEnable acc page s
  | .unitDisable acc page => Sys2Proof.Machine.execUnitDisable acc page s
  | .unitQuiesce acc page => Sys2Proof.Machine.execUnitQuiesce acc page s
  | .unitUnquiesce acc page => Sys2Proof.Machine.execUnitUnquiesce acc page s
  | .unitLevelChange acc page level => Sys2Proof.Machine.execUnitLevelChange acc page level s
  | .unitStartComplete page => Sys2Proof.Machine.execUnitStartComplete page s
  | .unitDrainComplete page => Sys2Proof.Machine.execUnitDrainComplete page s
  | .faultClear acc page => Sys2Proof.Machine.execFaultClear acc page s
  | .retireRequest acc page => Sys2Proof.Machine.execRetireRequest acc page s
  | .unitEventClear acc page mask => Sys2Proof.Machine.execUnitEventClear acc page mask s
  | .unitEventEnWrite acc page value => Sys2Proof.Machine.execUnitEventEnWrite acc page value s
  | .unitLockSet acc page => Sys2Proof.Machine.execUnitLockSet acc page s
  | .registerWrite acc page offset value => Sys2Proof.Machine.execRegisterWrite acc page offset value s
  | .snapshotRead acc page offset => Sys2Proof.Machine.execSnapshotRead acc page offset s
  | .ringConfigWrite inst ring offset value => Sys2Proof.Machine.execRingConfigWrite inst ring offset value s
  | .ringEnable inst ring => Sys2Proof.Machine.execRingEnable inst ring s
  | .ringDisable inst ring => Sys2Proof.Machine.execRingDisable inst ring s
  | .busMasterEnableChange inst on => Sys2Proof.Machine.execBusMasterEnableChange inst on s
  | .msixUnmask func entry => Sys2Proof.Machine.execMsixUnmask func entry s
  | .sign job => Sys2Proof.Machine.execSign job s
  | .verify job => Sys2Proof.Machine.execVerify job s
  | .verifyBatch job => Sys2Proof.Machine.execVerifyBatch job s
  | .attestKey job => Sys2Proof.Machine.execAttestKey job s
  | .translatePin job => Sys2Proof.Machine.execTranslatePin job s
  | .verifyPinOffset job => Sys2Proof.Machine.execVerifyPinOffset job s
  | .generatePinOffset job => Sys2Proof.Machine.execGeneratePinOffset job s
  | .dukptTranslatePinAes job => Sys2Proof.Machine.execDukptTranslatePinAes job s
  | .dukptTranslatePinTdea job => Sys2Proof.Machine.execDukptTranslatePinTdea job s
  | .arqcVerify job => Sys2Proof.Machine.execArqcVerify job s
  | .arpcGenerate job => Sys2Proof.Machine.execArpcGenerate job s
  | .arqcVerifyArpc job => Sys2Proof.Machine.execArqcVerifyArpc job s
  | .macGenerate job => Sys2Proof.Machine.execMacGenerate job s
  | .macVerify job => Sys2Proof.Machine.execMacVerify job s
  | .generate job => Sys2Proof.Machine.execGenerate job s
  | .generatePair job => Sys2Proof.Machine.execGeneratePair job s
  | .importKey job => Sys2Proof.Machine.execImport job s
  | .translateKeyblock job => Sys2Proof.Machine.execTranslateKeyblock job s
  | .exportUnderKek job => Sys2Proof.Machine.execExportUnderKek job s
  | .kcv job => Sys2Proof.Machine.execKcv job s
  | .importPublic job => Sys2Proof.Machine.execImportPublic job s
  | .publicKey job => Sys2Proof.Machine.execPublicKey job s
  | .encapsulate job => Sys2Proof.Machine.execEncapsulate job s
  | .decapsulate job => Sys2Proof.Machine.execDecapsulate job s
  | .encrypt job => Sys2Proof.Machine.execEncrypt job s
  | .decrypt job => Sys2Proof.Machine.execDecrypt job s
  | .tokenise job => Sys2Proof.Machine.execTokenise job s
  | .detokenise job => Sys2Proof.Machine.execDetokenise job s
  | .hash job => Sys2Proof.Machine.execHash job s
  | .getRandom job => Sys2Proof.Machine.execGetRandom job s
  | .auditProof job => Sys2Proof.Machine.execAuditProof job s
  | .nopFence job => Sys2Proof.Machine.execNopFence job s
  | .kcFlush acc value => Sys2Proof.Machine.execKcFlush acc value s
  | .kcFlushDone => Sys2Proof.Machine.execKcFlushDone s
  | .tetherPpsPulse rising held => Sys2Proof.Machine.execTetherPpsPulse rising held s
  | .tetherTodFrame chars bad => Sys2Proof.Machine.execTetherTodFrame chars bad s
  | .todIdleExpiry => Sys2Proof.Machine.execTodIdleExpiry s
  | .tetherNextSec acc value => Sys2Proof.Machine.execTetherNextSec acc value s
  | .tetherStrobe acc value => Sys2Proof.Machine.execTetherStrobe acc value s
  | .tetherAdrift => Sys2Proof.Machine.execTetherAdrift s
  | .catchupEnd => Sys2Proof.Machine.execCatchupEnd s
  | .tetherMark line second delay => Sys2Proof.Machine.execTetherMark line second delay s
  | .eventFire index => Sys2Proof.Machine.execEventFire index s
  | .periodicSealFire inst => Sys2Proof.Machine.execPeriodicSealFire inst s
  | .arm acc => Sys2Proof.Machine.execArm acc s
  | .disarm acc => Sys2Proof.Machine.execDisarm acc s
  | .eventClear acc => Sys2Proof.Machine.execEventClear acc s
  | .drkGenerate => Sys2Proof.Machine.execDrkGenerate s
  | .sealWrite inst => Sys2Proof.Machine.execSealWrite inst s
  | .keyRecordWrite inst => Sys2Proof.Machine.execKeyRecordWrite inst s
  | .audRingRdWrite acc value => Sys2Proof.Machine.execAudRingRdWrite acc value s
  | .audRingConfigWrite acc offset value => Sys2Proof.Machine.execAudRingConfigWrite acc offset value s
  | .audRingEnable acc => Sys2Proof.Machine.execAudRingEnable acc s
  | .audPsEnable acc => Sys2Proof.Machine.execAudPsEnable acc s
  | .sailModSet page word => Sys2Proof.Machine.execSailModSet page word s
  | .sailToMont page word => Sys2Proof.Machine.execSailToMont page word s
  | .sailFromMont page word => Sys2Proof.Machine.execSailFromMont page word s
  | .sailAdd page word => Sys2Proof.Machine.execSailAdd page word s
  | .sailSub page word => Sys2Proof.Machine.execSailSub page word s
  | .sailMul page word => Sys2Proof.Machine.execSailMul page word s
  | .sailSqr page word => Sys2Proof.Machine.execSailSqr page word s
  | .sailInv page word => Sys2Proof.Machine.execSailInv page word s
  | .sailExp page word => Sys2Proof.Machine.execSailExp page word s
  | .sailReduce page word => Sys2Proof.Machine.execSailReduce page word s
  | .sailRand page word => Sys2Proof.Machine.execSailRand page word s
  | .sailKeyLoad page word => Sys2Proof.Machine.execSailKeyLoad page word s
  | .sailClear page word => Sys2Proof.Machine.execSailClear page word s
  | .sailCopy page word => Sys2Proof.Machine.execSailCopy page word s
  | .sailEq page word => Sys2Proof.Machine.execSailEq page word s
  | .sailCurveSet page word => Sys2Proof.Machine.execSailCurveSet page word s
  | .sailPoc page word => Sys2Proof.Machine.execSailPoc page word s
  | .sailPload page word => Sys2Proof.Machine.execSailPload page word s
  | .sailPstore page word => Sys2Proof.Machine.execSailPstore page word s
  | .sailPdbl page word => Sys2Proof.Machine.execSailPdbl page word s
  | .sailPadd page word => Sys2Proof.Machine.execSailPadd page word s
  | .sailPmul page word => Sys2Proof.Machine.execSailPmul page word s
  | .sailPdecomp page word => Sys2Proof.Machine.execSailPdecomp page word s
  | .sailLaneSet page word => Sys2Proof.Machine.execSailLaneSet page word s
  | .sailNtt page word => Sys2Proof.Machine.execSailNtt page word s
  | .sailIntt page word => Sys2Proof.Machine.execSailIntt page word s
  | .sailPwmul page word => Sys2Proof.Machine.execSailPwmul page word s
  | .sailPwadd page word => Sys2Proof.Machine.execSailPwadd page word s
  | .sailPwsub page word => Sys2Proof.Machine.execSailPwsub page word s
  | .sailSign page word => Sys2Proof.Machine.execSailSign page word s
  | .sailVerify page word => Sys2Proof.Machine.execSailVerify page word s
  | .sailBatchVerify page word => Sys2Proof.Machine.execSailBatchVerify page word s
  | .sailKeygen page word => Sys2Proof.Machine.execSailKeygen page word s
  | .sailEncaps page word => Sys2Proof.Machine.execSailEncaps page word s
  | .sailDecaps page word => Sys2Proof.Machine.execSailDecaps page word s
  | .sailCommandEnd page => Sys2Proof.Machine.execSailCommandEnd page s
  | .sailAbort acc page value => Sys2Proof.Machine.execSailAbort acc page value s
  | .wipeComplete page nonzero => Sys2Proof.Machine.execWipeComplete page nonzero s
  | .sailMemRead acc page hi => Sys2Proof.Machine.execSailMemRead acc page hi s
  | .sailMemWrite acc page hi value => Sys2Proof.Machine.execSailMemWrite acc page hi value s
  | .checkForm page => Sys2Proof.Machine.execCheckForm page s
  | .verifyGather page => Sys2Proof.Machine.execVerifyGather page s
  | .evaluationComplete page flip => Sys2Proof.Machine.execEvaluationComplete page flip s
  | .arbitrationComplete page flip => Sys2Proof.Machine.execArbitrationComplete page flip s
  | .stripeComplete chan stripe => Sys2Proof.Machine.execStripeComplete chan stripe s
  | .hashStart acc chan alg => Sys2Proof.Machine.execHashStart acc chan alg s
  | .bulkFeed acc chan value => Sys2Proof.Machine.execBulkFeed acc chan value s
  | .hashEnd acc chan => Sys2Proof.Machine.execHashEnd acc chan s
  | .selftest acc chan param => Sys2Proof.Machine.execSelftest acc chan param s
  | .selftestAll acc chan => Sys2Proof.Machine.execSelftestAll acc chan s
  | .bulkCmdDone chan pass => Sys2Proof.Machine.execBulkCmdDone chan pass s
  | .sourceHealthFailure src apt => Sys2Proof.Machine.execSourceHealthFailure src apt s
  | .sourceTestPass src => Sys2Proof.Machine.execSourceTestPass src s
  | .failRunReset src => Sys2Proof.Machine.execFailRunReset src s
  | .seedBlockRelease src => Sys2Proof.Machine.execSeedBlockRelease src s
  | .seedRequestServe => Sys2Proof.Machine.execSeedRequestServe s
  | .drbgCallDeliver drbg => Sys2Proof.Machine.execDrbgCallDeliver drbg s
  | .reseed acc drbg => Sys2Proof.Machine.execReseed acc drbg s
  | .pairInstruction core a b => Sys2Proof.Machine.execPairInstruction core a b s
  | .lit24 core imm => Sys2Proof.Machine.execLit24 core imm s
  | .lithi core imm => Sys2Proof.Machine.execLithi core imm s
  | .call core off => Sys2Proof.Machine.execCall core off s
  | .calli core => Sys2Proof.Machine.execCalli core s
  | .jmp core off => Sys2Proof.Machine.execJmp core off s
  | .jmpi core => Sys2Proof.Machine.execJmpi core s
  | .bzl core off => Sys2Proof.Machine.execBzl core off s
  | .bnzl core off => Sys2Proof.Machine.execBnzl core off s
  | .loop core last => Sys2Proof.Machine.execLoop core last s
  | .loopi core count last => Sys2Proof.Machine.execLoopi core count last s
  | .ld core size signed disp => Sys2Proof.Machine.execLd core size signed disp s
  | .st core size disp => Sys2Proof.Machine.execSt core size disp s
  | .ldc core k size signed disp => Sys2Proof.Machine.execLdc core k size signed disp s
  | .stc core k size disp => Sys2Proof.Machine.execStc core k size disp s
  | .cld core k via j => Sys2Proof.Machine.execCld core k via j s
  | .cst core k via j => Sys2Proof.Machine.execCst core k via j s
  | .cpush core k => Sys2Proof.Machine.execCpush core k s
  | .cpop core k => Sys2Proof.Machine.execCpop core k s
  | .cnarrow core k => Sys2Proof.Machine.execCnarrow core k s
  | .ctest core k => Sys2Proof.Machine.execCtest core k s
  | .cfield core k field => Sys2Proof.Machine.execCfield core k field s
  | .cnull core k => Sys2Proof.Machine.execCnull core k s
  | .bmove core operand => Sys2Proof.Machine.execBmove core operand s
  | .hstart core alg keyed k => Sys2Proof.Machine.execHstart core alg keyed k s
  | .hfeed core cap k => Sys2Proof.Machine.execHfeed core cap k s
  | .hend core => Sys2Proof.Machine.execHend core s
  | .scmd core engine => Sys2Proof.Machine.execScmd core engine s
  | .skey core engine k => Sys2Proof.Machine.execSkey core engine k s
  | .swait core mask => Sys2Proof.Machine.execSwait core mask s
  | .sstat core engine => Sys2Proof.Machine.execSstat core engine s
  | .rngDataRead core => Sys2Proof.Machine.execRngDataRead core s
  | .jobNext core => Sys2Proof.Machine.execJobNext core s
  | .leafWait core => Sys2Proof.Machine.execLeafWait core s
  | .coreId core => Sys2Proof.Machine.execCoreId core s
  | .tetherRead core => Sys2Proof.Machine.execTetherRead core s
  | .jobSerial core => Sys2Proof.Machine.execJobSerial core s
  | .jobEnd core => Sys2Proof.Machine.execJobEnd core s
  | .leafSubmit core => Sys2Proof.Machine.execLeafSubmit core s
  | .trap core n => Sys2Proof.Machine.execTrap core n s
  | .retx core => Sys2Proof.Machine.execRetx core s
  | .mfs core reg => Sys2Proof.Machine.execMfs core reg s
  | .mts core reg => Sys2Proof.Machine.execMts core reg s
  | .mpusync core => Sys2Proof.Machine.execMpusync core s
  | .fence core => Sys2Proof.Machine.execFence core s
  | .waiti core => Sys2Proof.Machine.execWaiti core s
  | .sld core sd k disp => Sys2Proof.Machine.execSld core sd k disp s
  | .sxor core sd ss => Sys2Proof.Machine.execSxor core sd ss s
  | .sgfm core sd k => Sys2Proof.Machine.execSgfm core sd k s
  | .sclr core sd all => Sys2Proof.Machine.execSclr core sd all s
  | .sput core ss dest => Sys2Proof.Machine.execSput core ss dest s
  | .srand core sd => Sys2Proof.Machine.execSrand core sd s
  | .interruptTaken core => Sys2Proof.Machine.execInterruptTaken core s
  | .nointExpire core => Sys2Proof.Machine.execNointExpire core s
  | .debugChallenge => Sys2Proof.Machine.execDebugChallenge s
  | .debugResponse chain inst sig => Sys2Proof.Machine.execDebugResponse chain inst sig s
  | .debugAccess core write addr value => Sys2Proof.Machine.execDebugAccess core write addr value s
  | .debugClose => Sys2Proof.Machine.execDebugClose s
  | .create acc inst => Sys2Proof.Machine.execCreate acc inst s
  | .reset acc inst => Sys2Proof.Machine.execReset acc inst s
  | .remove acc inst => Sys2Proof.Machine.execRemove acc inst s
  | .removeComplete inst => Sys2Proof.Machine.execRemoveComplete inst s
  | .freeze acc inst => Sys2Proof.Machine.execFreeze acc inst s
  | .freezeComplete inst => Sys2Proof.Machine.execFreezeComplete inst s
  | .thaw acc inst => Sys2Proof.Machine.execThaw acc inst s
  | .ticket acc inst => Sys2Proof.Machine.execTicket acc inst s
  | .save acc inst ok data => Sys2Proof.Machine.execSave acc inst ok data s
  | .restore acc inst ok data => Sys2Proof.Machine.execRestore acc inst ok data s
  | .configure acc inst => Sys2Proof.Machine.execConfigure acc inst s
  | .mcBind acc inst => Sys2Proof.Machine.execMcBind acc inst s
  | .cerJoin acc inst => Sys2Proof.Machine.execCerJoin acc inst s
  | .cerSplit acc inst => Sys2Proof.Machine.execCerSplit acc inst s
  | .cerAbandon acc inst => Sys2Proof.Machine.execCerAbandon acc inst s
  | .cerActivate acc inst => Sys2Proof.Machine.execCerActivate acc inst s
  | .mcLoad acc inst ok data => Sys2Proof.Machine.execMcLoad acc inst ok data s
  | .generationWrapWaitEnd inst => Sys2Proof.Machine.execGenerationWrapWaitEnd inst s
  | .functionLevelResetVf inst => Sys2Proof.Machine.execFunctionLevelResetVf inst s
  | .transientFault page cause job => Sys2Proof.Machine.execTransientFault page cause job s
  | .sramCorrectedError page block row => Sys2Proof.Machine.execSramCorrectedError page block row s
  | .sramUncorrectedError page block row => Sys2Proof.Machine.execSramUncorrectedError page block row s
  | .networkParityError page job times => Sys2Proof.Machine.execNetworkParityError page job times s
  | .retirementRecorded page => Sys2Proof.Machine.execRetirementRecorded page s
  | .fieldTestStart chan => Sys2Proof.Machine.execFieldTestStart chan s
  | .fieldTestResult chan result step => Sys2Proof.Machine.execFieldTestResult chan result step s
  | .lineSignalDetect line => Sys2Proof.Machine.execLineSignalDetect line s
  | .lineTrainingAttempt line good => Sys2Proof.Machine.execLineTrainingAttempt line good s
  | .laneLossOfLock line lane => Sys2Proof.Machine.execLaneLossOfLock line lane s
  | .frameRelay line frame ok => Sys2Proof.Machine.execFrameRelay line frame ok s
  | .lseqRekey line => Sys2Proof.Machine.execLseqRekey line s
  | .hello line cert sysId serial digest peerLine nonce => Sys2Proof.Machine.execHello line cert sysId serial digest peerLine nonce s
  | .key line ecdh kem ct sigEc sigPq => Sys2Proof.Machine.execKey line ecdh kem ct sigEc sigPq s
  | .record line data => Sys2Proof.Machine.execRecord line data s
  | .linkState line member version lines peers => Sys2Proof.Machine.execLinkState line member version lines peers s
  | .root line gondola member => Sys2Proof.Machine.execRoot line gondola member s
  | .cosignReq line from_ gondola sysId serial digest ecPub pqPub pos => Sys2Proof.Machine.execCosignReq line from_ gondola sysId serial digest ecPub pqPub pos s
  | .cosign line member gondola sig => Sys2Proof.Machine.execCosign line member gondola sig s
  | .cert line gondola pos root pub cosigners data => Sys2Proof.Machine.execCert line gondola pos root pub cosigners data s
  | .kbpk line from_ kind inst slot gen pos kcv key => Sys2Proof.Machine.execKbpk line from_ kind inst slot gen pos kcv key s
  | .span line from_ kind inst kc ballast overlap mc => Sys2Proof.Machine.execSpan line from_ kind inst kc ballast overlap mc s
  | .signReq line from_ gondola msg => Sys2Proof.Machine.execSignReq line from_ gondola msg s
  | .signed line from_ ec pq => Sys2Proof.Machine.execSigned line from_ ec pq s
  | .leave line member => Sys2Proof.Machine.execLeave line member s
  | .expel line member => Sys2Proof.Machine.execExpel line member s
  | .ack line lseq => Sys2Proof.Machine.execAck line lseq s
  | .nak line lseq => Sys2Proof.Machine.execNak line lseq s
  | .credit line cls vlane flits => Sys2Proof.Machine.execCredit line cls vlane flits s
  | .fwdAck line frame => Sys2Proof.Machine.execFwdAck line frame s
  | .nakFwd line frame => Sys2Proof.Machine.execNakFwd line frame s
  | .nakRes line frame => Sys2Proof.Machine.execNakRes line frame s
  | .lost line frame => Sys2Proof.Machine.execLost line frame s
  | .returned line frame => Sys2Proof.Machine.execReturned line frame s
  | .load line member idle free => Sys2Proof.Machine.execLoad line member idle free s
  | .formLoad acc ok data => Sys2Proof.Machine.execFormLoad acc ok data s
  | .formJoin acc => Sys2Proof.Machine.execFormJoin acc s
  | .formLeave acc => Sys2Proof.Machine.execFormLeave acc s
  | .formExpel acc => Sys2Proof.Machine.execFormExpel acc s
  | .formClear acc => Sys2Proof.Machine.execFormClear acc s
  | .tamperFire src machine unit => Sys2Proof.Machine.execTamperFire src machine unit s
  | .tmpFiredClear acc hi mask => Sys2Proof.Machine.execTmpFiredClear acc hi mask s
  | .evidenceBitBurn => Sys2Proof.Machine.execEvidenceBitBurn s
  | .tmpTest acc value => Sys2Proof.Machine.execTmpTest acc value s
  | .tmpTestDone pass => Sys2Proof.Machine.execTmpTestDone pass s
  | .tmpFuseBurn acc value => Sys2Proof.Machine.execTmpFuseBurn acc value s
  | .tmpSrcCfgWrite acc src value => Sys2Proof.Machine.execTmpSrcCfgWrite acc src value s
  | .vinLoss => Sys2Proof.Machine.execVinLoss s
  | .cellTamperFire src => Sys2Proof.Machine.execCellTamperFire src s
  | .vbatCollapse => Sys2Proof.Machine.execVbatCollapse s
  | .mooringLogClear acc value => Sys2Proof.Machine.execMooringLogClear acc value s
  | .flWinDataRead acc ecc => Sys2Proof.Machine.execFlWinDataRead acc ecc s
  | .programGranule acc addr w0 w1 w2 w3 => Sys2Proof.Machine.execProgramGranule acc addr w0 w1 w2 w3 s
  | .bufferedProgram acc addr data => Sys2Proof.Machine.execBufferedProgram acc addr data s
  | .sectorErase acc addr => Sys2Proof.Machine.execSectorErase acc addr s
  | .eraseSuspend acc bank => Sys2Proof.Machine.execEraseSuspend acc bank s
  | .eraseSuspended bank => Sys2Proof.Machine.execEraseSuspended bank s
  | .eraseResume acc bank => Sys2Proof.Machine.execEraseResume acc bank s
  | .readStatus acc bank => Sys2Proof.Machine.execReadStatus acc bank s
  | .returnToReadArray acc bank => Sys2Proof.Machine.execReturnToReadArray acc bank s
  | .flashOperationEnd bank good => Sys2Proof.Machine.execFlashOperationEnd bank good s
  | .brownout => Sys2Proof.Machine.execBrownout s
  | .storeCompaction => Sys2Proof.Machine.execStoreCompaction s
  | .slotPresent slot => Sys2Proof.Machine.execSlotPresent slot s
  | .slotRemoval slots => Sys2Proof.Machine.execSlotRemoval slots s
  | .ccbOvercurrent slot => Sys2Proof.Machine.execCcbOvercurrent slot s
  | .cardReply addr status data crcOk => Sys2Proof.Machine.execCardReply addr status data crcOk s
  | .cardBlock data crc => Sys2Proof.Machine.execCardBlock data crc s
  | .cardBusyEnd => Sys2Proof.Machine.execCardBusyEnd s
  | .readRecord acc slot record => Sys2Proof.Machine.execReadRecord acc slot record s
  | .writeRecord acc slot record => Sys2Proof.Machine.execWriteRecord acc slot record s
  | .status acc slot => Sys2Proof.Machine.execStatus acc slot s
  | .setPwd acc slot => Sys2Proof.Machine.execSetPwd acc slot s
  | .clrPwd acc slot => Sys2Proof.Machine.execClrPwd acc slot s
  | .lock acc slot => Sys2Proof.Machine.execLock acc slot s
  | .unlock acc slot => Sys2Proof.Machine.execUnlock acc slot s
  | .forceErase acc slot => Sys2Proof.Machine.execForceErase acc slot s
  | .ccbAbort acc value => Sys2Proof.Machine.execCcbAbort acc value s
  | .fieldOn => Sys2Proof.Machine.execFieldOn s
  | .fieldOff => Sys2Proof.Machine.execFieldOff s
  | .fdWakeRelease => Sys2Proof.Machine.execFdWakeRelease s
  | .reqa => Sys2Proof.Machine.execReqa s
  | .wupa => Sys2Proof.Machine.execWupa s
  | .anticollision nvb bits => Sys2Proof.Machine.execAnticollision nvb bits s
  | .select nvb bits crcOk => Sys2Proof.Machine.execSelect nvb bits crcOk s
  | .hlta crcOk => Sys2Proof.Machine.execHlta crcOk s
  | .rats param crcOk => Sys2Proof.Machine.execRats param crcOk s
  | .sDeselect crcOk => Sys2Proof.Machine.execSDeselect crcOk s
  | .selectAid cla p1 p2 data => Sys2Proof.Machine.execSelectAid cla p1 p2 data s
  | .getEvidence cla p1 p2 data => Sys2Proof.Machine.execGetEvidence cla p1 p2 data s
  | .readJournal cla p1 p2 data => Sys2Proof.Machine.execReadJournal cla p1 p2 data s
  | .authBegin cla p1 p2 data => Sys2Proof.Machine.execAuthBegin cla p1 p2 data s
  | .authEnd cla p1 p2 data => Sys2Proof.Machine.execAuthEnd cla p1 p2 data s
  | .readIdentity cla p1 p2 data => Sys2Proof.Machine.execReadIdentity cla p1 p2 data s
  | .readMoorLog cla p1 p2 data => Sys2Proof.Machine.execReadMoorLog cla p1 p2 data s
  | .append cla p1 p2 data => Sys2Proof.Machine.execAppend cla p1 p2 data s
  | .appendResume strong => Sys2Proof.Machine.execAppendResume strong s
  | .deviceAppend acc value => Sys2Proof.Machine.execDeviceAppend acc value s
  | .tagKeyWrite acc value => Sys2Proof.Machine.execTagKeyWrite acc value s
  | .tagJrnlClr acc value => Sys2Proof.Machine.execTagJrnlClr acc value s
  | .vfEnableWrite port on numVf => Sys2Proof.Machine.execVfEnableWrite port on numVf s
  | .functionLevelResetPf port => Sys2Proof.Machine.execFunctionLevelResetPf port s
  | .portReset port cause => Sys2Proof.Machine.execPortReset port cause s
  | .linkUp port speed width => Sys2Proof.Machine.execLinkUp port speed width s
  | .completionTimeout job => Sys2Proof.Machine.execCompletionTimeout job s
  | .tlpReceive port exempt stream => Sys2Proof.Machine.execTlpReceive port exempt stream s
  | .ideIntegrityFail port stream => Sys2Proof.Machine.execIdeIntegrityFail port stream s
  | .getVersion port data => Sys2Proof.Machine.execGetVersion port data s
  | .getCapabilities port data => Sys2Proof.Machine.execGetCapabilities port data s
  | .negotiateAlgorithms port data => Sys2Proof.Machine.execNegotiateAlgorithms port data s
  | .getDigests port data => Sys2Proof.Machine.execGetDigests port data s
  | .getCertificate port data => Sys2Proof.Machine.execGetCertificate port data s
  | .spdmChallenge port data => Sys2Proof.Machine.execSpdmChallenge port data s
  | .getMeasurements port data => Sys2Proof.Machine.execGetMeasurements port data s
  | .keyExchange port data => Sys2Proof.Machine.execKeyExchange port data s
  | .finish port data => Sys2Proof.Machine.execFinish port data s
  | .keyUpdate port session data => Sys2Proof.Machine.execKeyUpdate port session data s
  | .endSession port session => Sys2Proof.Machine.execEndSession port session s
  | .query port session stream => Sys2Proof.Machine.execQuery port session stream s
  | .keyProg port session stream keySet tx key => Sys2Proof.Machine.execKeyProg port session stream keySet tx key s
  | .kSetGo port session stream keySet tx => Sys2Proof.Machine.execKSetGo port session stream keySet tx s
  | .kSetStop port session stream keySet tx => Sys2Proof.Machine.execKSetStop port session stream keySet tx s
  | .idleEntry => Sys2Proof.Machine.execIdleEntry s
  | .standby acc => Sys2Proof.Machine.execStandby acc s
  | .wake acc => Sys2Proof.Machine.execWake acc s
  | .vinValid straps => Sys2Proof.Machine.execVinValid straps s
  | .resetNLow tamper => Sys2Proof.Machine.execResetNLow tamper s
  | .fwStage acc ok data => Sys2Proof.Machine.execFwStage acc ok data s
  | .challenge acc => Sys2Proof.Machine.execChallenge acc s
  | .ship acc ok data => Sys2Proof.Machine.execShip acc ok data s
  | .commission acc ok data => Sys2Proof.Machine.execCommission acc ok data s
  | .ownerList acc ok data => Sys2Proof.Machine.execOwnerList acc ok data s
  | .zeroise acc ok data => Sys2Proof.Machine.execZeroise acc ok data s
  | .smbusSetPointer ptr pecOk => Sys2Proof.Machine.execSmbusSetPointer ptr pecOk s
  | .smbusWrite ptr value pecOk => Sys2Proof.Machine.execSmbusWrite ptr value pecOk s
  | .smbusRead => Sys2Proof.Machine.execSmbusRead s
  | .alertResponse => Sys2Proof.Machine.execAlertResponse s
  | .tamperSample src asserted => Sys2Proof.Machine.execTamperSample src asserted s
  | .loadFlood => Sys2Proof.Machine.execLoadFlood s
  | .portHashComplete page => Sys2Proof.Machine.execPortHashComplete page s
  | .brownoutDeassert => Sys2Proof.Machine.execBrownoutDeassert s
  | .physicalFunctionBusMasterEnable port on => Sys2Proof.Machine.execPhysicalFunctionBusMasterEnable port on s
  | .perstRelease port => Sys2Proof.Machine.execPerstRelease port s

end Sys2Proof.Machine
end

