-- ==== Sys2Proof/Machine/Step.lean ====
section
/-! DEFINITION. The step: the command at the front of the queue, or, on an empty queue, one cycle of the local crystal with
what the units begin by themselves. -/

namespace Sys2Proof.Machine

/-- Work of the device since when it is quiet, for IDLE_DELAY (R865 of 22). -/
def noteQuiet (s : State) : State := if quiet s then s else { s with power := { s.power with quietSince := s.cycles } }

/-- What units begin by themselves on main power: the card bus takes its next command (R809, R815 of 20), waiting manager
requests whose turn has come (R622 of 15), waiting forwards (R67 of 01), and a member that has no forwarded work left leaves
(R729 of 17). -/
def ownWork (s : State) : State := tryLeave (fwdPump (pumpRequests (cardNext (noteQuiet s))))

/-- A cycle with no command waiting (DESIGN CHOICE, log 4). The tag's append goes on whatever the power state (R843 of 21). -/
def idleStep (s : State) : State :=
  let s := appendStep (tick s)
  if s.power.state = .moored then s else ownWork s

/-- One step: the front command on the state with the queue's rest; on an empty queue a cycle passes
(DESIGN CHOICE, log 1). -/
def step (s : State) : Host.Outcome State Fault Refusal :=
  match s.pending with
  | [] => .next (idleStep s)
  | c :: rest => exec c { s with pending := rest }

/-- The state with the command that a word spells at the front of its queue; unchanged where the word spells none. -/
def State.withFetchWord (s : State) (nbits w : Nat) : State :=
  match Sys2Proof.decodeTableWord nbits w with
  | some c => { s with pending := c :: s.pending }
  | none => s

end Sys2Proof.Machine
end

