-- ==== Sys2Proof/Safety.lean ====
section
/-! DEFINITION. The vocabulary of the claims: what a legal state is, what a step may not undo, and when a unit or a core can
do what a command asks. -/

namespace Sys2Proof.Machine

/-- A table that has no default of its own lists its keys strictly rising. -/
def risingFrom {α : Type} : Option Nat → Tab α → Bool
  | _, [] => true
  | lo, (k, _) :: t => decide (∀ l, lo = some l → l < k) && risingFrom (some k) t

/-- The tables of the state are in canonical form: keys strictly rising, no entry equal to what an unlisted key reads as. -/
structure TablesCanonical (s : State) : Prop where
  regs : Tab.wf (fun _ => 0) s.regs = true
  units : Tab.wf unitDflt s.units = true
  rings : Tab.wf (fun _ => {}) s.rings = true
  jobs : risingFrom none s.jobs = true
  intakes : Tab.wf (fun _ => {}) s.intakes = true
  msix : Tab.wf (fun _ => {}) s.msix = true
  events : Tab.wf (fun _ => {}) s.events = true
  evtSel : Tab.wf (fun _ => 0) s.evtSel = true
  evtRes : Tab.wf (fun _ => 0) s.evtRes = true
  sails : Tab.wf (fun _ => {}) s.sails = true
  lanes : Tab.wf (fun _ => {}) s.lanes = true
  cores : Tab.wf (fun _ => {}) s.cores = true
  ports : Tab.wf (fun _ => {}) s.ports = true

/-- The canonical form of a byte memory whose unlisted bytes read 0: addresses strictly rising, no byte 0 listed. -/
abbrev Memory.wf (m : List Host.Cell) : Bool := Tab.wf (fun _ => (0 : Byte)) m

/-- The debug gate is legal (R612, R616 of 14): a nonce is outstanding only in CHALLENGED, and only an OPEN gate names an
instance, one of the device's 1,024. -/
structure GateLegal (d : Debug) : Prop where
  nonce : d.nonce ≠ none → d.state = .challenged
  inst : d.state ≠ .opened → d.inst = 0
  range : d.inst < 1024

/-- Every bit burned in `a` is burned in `b` (R886 of 22). -/
structure BurnedStays (a b : Otp) : Prop where
  lifecycle : a.lifecycle ||| b.lifecycle = b.lifecycle
  ownerFp : a.ownerFp ||| b.ownerFp = b.ownerFp
  evidence : a.evidence ||| b.evidence = b.evidence
  retireFactory : a.retireFactory ||| b.retireFactory = b.retireFactory
  retireField : a.retireField ||| b.retireField = b.retireField
  fuse : a.fuse ||| b.fuse = b.fuse
  svnFloor : a.svnFloor ||| b.svnFloor = b.svnFloor
  drkEver : a.drkEver ||| b.drkEver = b.drkEver
  overwritten : a.overwritten ||| b.overwritten = b.overwritten

/-- The header of the unit on page `q` is in `t` as it is in `s`, but for bits of UNIT_EVENT that have become 1. -/
def sameButEvents (s t : State) (q : Nat) : Prop :=
  ∃ v, unitAt t q = { unitAt s q with event := (unitAt s q).event ||| v }

/-- Job `n`, which is `j`, stands in step 6 of R58 with opcode `op`: all its input has been read, it runs no routine of an
image and waits for no random bytes. -/
structure OpReady (op : Nat) (s : State) (n : Nat) (j : Job) : Prop where
  job : jobAt s n = some j
  run : j.phase = .run
  opcode : eOp j.entry = op
  image : j.image = none
  wait : j.waitRand = false
  input : eInLen j.entry ≤ j.input.length

/-- `t` is `s` but for job `n`, which is `j` in `t`. -/
structure OnlyJob (s t : State) (n : Nat) (j : Job) : Prop where
  job : jobAt t n = some j
  others : ∀ m, m ≠ n → jobAt t m = jobAt s m
  frame : t = { s with jobs := t.jobs }

/-- `t` is `s` but for core `p`, which is `c` in `t`. -/
structure OnlyCore (s t : State) (p : Nat) (c : Core) : Prop where
  core : coreAt t p = c
  others : ∀ q, q ≠ p → coreAt t q = coreAt s q
  frame : t = { s with cores := t.cores }

/-- Core `p` can run an instruction with these members to its end (R534 to R538, R552, R565, R608): it executes, PC is aligned
and may be fetched, the data stack holds what the members need, in the core, with room for what they leave, and the
instruction is not the last one of a loop. -/
structure CanRun (s : State) (p : Nat) (ps : List Part) : Prop where
  runs : coreRuns s p = true
  fetch : fetchCheck p (coreAt s p) = none
  aligned : (coreAt s p).pc.toNat % 4 = 0
  depth : underflow (coreAt s p) ps = none
  held : needOf ps ≤ (coreAt s p).stack.length
  room : leftOf (coreAt s p).stack.length ps ≤ coreEntries
  noLoopEnd : (coreAt s p).ldepth = 0 ∨ tget 0 (coreAt s p).le ((coreAt s p).ldepth - 1) ≠ (coreAt s p).pc

/-- A core after an instruction of `n` cycles whose next PC is `next` (R552, R566). -/
def retired (c : Core) (next : Word32) (n : Nat) : Core :=
  passCycles { c with pc := next, stall := .none, instrs := (c.instrs + 1) % 2 ^ 64 } n

/-- Request `op` for instance `i`, written with GO by an accessor that reaches the instance manager, while no window is BUSY and
the device is in RUN (R621, R622): `w` is the accessor's window, with its arguments as they stand at GO, and `t` the device as
the request is carried out. `data` is what its read of host memory returned. -/
structure ImRun (s : State) (acc : Acc) (op i : Nat) (data : Option (Bool × Bytes)) (w : ImWindow) (t : State) : Prop where
  reached : reaches s acc imPage = true
  free : ∀ b, winBusy (winAt s b) = false
  awake : s.power.state = .run
  range : op < 256 ∧ i < 1024
  window : w = { winAt s (accIdx acc) with
    op := op, inst := i, state := .busy, code := 0, order := s.im.nextOrder, waits := false, data := data, discard := false, out0 := 0
    held := (List.range 8).map fun k => (tget 0 (winAt s (accIdx acc)).args k).toNat }
  device : t = { s with im := { s.im with
    windows := tset {} (tset {} s.im.windows (accIdx acc) { w with waits := true }) (accIdx acc) w, nextOrder := s.im.nextOrder + 1 } }

/-- The invariant that every step keeps: a legal debug gate, a pointer of the management port within 24 bits, canonical
tables. -/
structure Legal (s : State) : Prop where
  gate : GateLegal s.dbg
  pointer : s.smbPtr < 2 ^ 24
  tables : TablesCanonical s

end Sys2Proof.Machine
end

