-- ==== Sys2Proof/Certificates/Slice0/Obligations.lean ====
section
/-! DEFINITION. The statements for the provers: what a step is, what every step keeps, what reset leaves, and, family by
family, what each command does, with the conditions on the state and the operands under which it does it, and its frame. -/

open Sys2Proof Sys2Proof.Machine

/-! ### The machine -/

/-- A step runs the command at the front of the queue: it is `exec` of that command on the state with the queue's rest. The
model's choice: the queue (log 1). -/
def Obligations.StepRunsFrontCommand : Prop :=
  ∀ (c : Instr) (rest : List Instr) (s : State), s.pending = c :: rest → step s = exec c { s with pending := rest }

/-- R329 with the model's choice of assumption log 4, that a step on an empty queue is one cycle of the 25 MHz crystal: in
MOORED, with no append of the tag in hand, `n` such steps count `n` cycles, the mooring RTC counts 32,768 of every 25,000,000
of them, modulo 2^48, and nothing else changes. -/
def Obligations.MooredClockCounts : Prop :=
  ∀ (n : Nat) (s : State), s.pending = [] → s.power.state = .moored → s.tag.run = none → s.tag.waiting = [] →
    s.mooring.rtcFrac < 25000000 → s.mooring.rtc < 2 ^ 48 →
    Sys2Proof.core.run n s = .next { s with
      cycles := s.cycles + n
      mooring := { s.mooring with
        rtc := (s.mooring.rtc + (s.mooring.rtcFrac + 32768 * n) / 25000000) % 2 ^ 48
        rtcFrac := (s.mooring.rtcFrac + 32768 * n) % 25000000 } }

/-- No command stops the block or touches the queue: `exec` answers a next state with the queue as it was. The model's choice:
that no command stops (log 3). -/
def Obligations.EveryCommandAnswersAndKeepsQueue : Prop :=
  ∀ (c : Instr) (s : State), ∃ t, exec c s = .next t ∧ t.pending = s.pending

/-- The state after reset is legal. -/
def Obligations.ResetIsLegal : Prop :=
  Legal State.reset

/-- A step from a legal state leads to a legal state: the tables keep their canonical form, the debug gate stays legal, and
the pointer of the management port stays within 24 bits. -/
def Obligations.EveryStepKeepsLegal : Prop :=
  ∀ s t : State, Legal s → step s = .next t → Legal t

/-- R886 of 22: a burned bit of the OTP is never cleared, by any command or by the passing of time. -/
def Obligations.BurnedOtpBitStaysBurned : Prop :=
  ∀ s t : State, step s = .next t → BurnedStays s.otp t.otp

/-- What the spec states of reset: no seal, ring, job, capability or key is there, every pin, count and status that a rule
gives the reset value 0 reads 0, TAG_STATUS.MOD is 1 (R828), BRL_FORM_STATUS.STATE is NONE, FWD_CFG.DEPTH is 4 (R690 of 17),
FLT_CFG.TEST_AT is 16, IDLE_EN is 1 and IDLE_DELAY 10 (R865), FL_FETCH.BANK is 3. -/
def Obligations.ResetState : Prop :=
  State.reset.pending = [] ∧ State.reset.jobs = [] ∧ State.reset.kc.keys = [] ∧ State.reset.out = [] ∧
  State.reset.power.state = .run ∧ State.reset.power.ready = false ∧ State.reset.power.idleEn = true ∧
  State.reset.power.idleDelay = 10 ∧ State.reset.tag.mod = 1 ∧ State.reset.tag.state = .idle ∧
  State.reset.bridle.state = .none ∧ State.reset.bridle.fwdDepth = 4 ∧ State.reset.faults.testAt = 16 ∧
  State.reset.flash.fetch = 3 ∧ State.reset.dbg.state = .closed ∧ State.reset.tether.state = .unset ∧
  State.reset.otp.lifecycle = 0 ∧ State.reset.smbPtr = 0 ∧
  (∀ k, (ringAt State.reset k).enable = false ∧ (ringAt State.reset k).error = false ∧ (ringAt State.reset k).head = 0) ∧
  (∀ p, (unitAt State.reset p).event = 0 ∧ (unitAt State.reset p).eventEn = 0 ∧ (unitAt State.reset p).lock = false ∧
    (unitAt State.reset p).refused = 0 ∧ (unitAt State.reset p).level = false) ∧
  (∀ p, (tget {} State.reset.cores p).pc = 0 ∧ (tget {} State.reset.cores p).depth = 0) ∧
  (∀ p, (tget {} State.reset.sails p).estate = .idle)

/-! ### Rings, intakes, ballast, Bus Master Enable, MSI-X (03_rings.md; R40 to R57 of 01) -/

/-- R53, R54, R130: the intake is to scan a ring. A ring that its intake does not scan goes to the end of the round; one that
it scans already is scanned again; one that is not ACTIVE is left alone. No other ring or intake changes. R53, R116, R124,
R130: a doorbell of an ACTIVE ring wakes its intake, and is work for R865; a doorbell of a ring that is not allocated, or not
ACTIVE, is dropped. The model's choice: that an event whose condition does not hold changes nothing (log 3). -/
def Obligations.RingScanAndDoorbell : Prop :=
  (∀ (k : Nat) (s : State),
    (ringActive s k = false → wakeRing s k = s) ∧
    (ringActive s k = true → (intakeAt s (ringAt s k).intake).scan.contains k = false →
      (intakeAt (wakeRing s k) (ringAt s k).intake).scan = (intakeAt s (ringAt s k).intake).scan ++ [k] ∧
      (intakeAt (wakeRing s k) (ringAt s k).intake).scans = (intakeAt s (ringAt s k).intake).scans + 1 ∧
      (∀ c, c ≠ (ringAt s k).intake → intakeAt (wakeRing s k) c = intakeAt s c) ∧ (wakeRing s k).rings = s.rings) ∧
    (ringActive s k = true → (intakeAt s (ringAt s k).intake).scan.contains k = true →
      ringAt (wakeRing s k) k = { ringAt s k with rescan := true } ∧
      (∀ j, j ≠ k → ringAt (wakeRing s k) j = ringAt s j) ∧ (wakeRing s k).intakes = s.intakes) ∧
    (ringActive s k = true → (intakeAt (wakeRing s k) (ringAt (wakeRing s k) k).intake).scan.contains k = true) ∧
    wakeRing s k = { s with rings := (wakeRing s k).rings, intakes := (wakeRing s k).intakes }) ∧
  (∀ (i r : Nat) (s : State),
    (ringThere s i r = true → ringActive s (ringKey i r) = true →
      exec (.ringDoorbell i r) s = .next (wakeRing (wakeIdle s) (ringKey i r)) ∧
      ringActive (wakeIdle s) (ringKey i r) = true) ∧
    ((ringThere s i r = false ∨ ringActive s (ringKey i r) = false) → exec (.ringDoorbell i r) s = .next s))

/-- R128 of 03: RING_BASE_LO, RING_BASE_HI and RING_SIZE of a ring that exists. -/
def Obligations.RingConfigWrite : Prop :=
  ∀ (i r : Nat) (v : Word32) (s : State), ringThere s i r = true →
    ((ringAt s (ringKey i r)).enable = false → ringIdle s (ringKey i r) = true →
      exec (.ringConfigWrite i r 0x000 v) s = .next (putRing s (ringKey i r)
        { ringAt s (ringKey i r) with baseLo := v &&& 0xFFFFF000#32, head := 0 }) ∧
      exec (.ringConfigWrite i r 0x004 v) s = .next (putRing s (ringKey i r)
        { ringAt s (ringKey i r) with baseHi := v, head := 0 }) ∧
      exec (.ringConfigWrite i r 0x008 v) s = .next (putRing s (ringKey i r)
        { ringAt s (ringKey i r) with log2 := v.toNat % 32, head := 0 })) ∧
    ((ringAt s (ringKey i r)).enable = true ∨ ringIdle s (ringKey i r) = false →
      ∀ offset, exec (.ringConfigWrite i r offset v) s = .next s)

/-- R129 and R131 of 03: what writing RING_STATUS.ENABLE does. R130, R133 of 03: Bus Master Enable of a virtual function.
Cleared, it is only noted (the reads and the writing of completions look at it); set, every ring of the instance that has
become ACTIVE is scanned. R169 of 03: unmasking an MSI-X entry sends the one message that it holds pending. The model's
choice: that an event whose condition does not hold changes nothing (log 3), MSI-X taken as enabled (log 22). -/
def Obligations.RingEnableBusMasterAndMsix : Prop :=
  (∀ (i r : Nat) (s : State), Legal s → ringThere s i r = true →
    ((ringAt s (ringKey i r)).enable = false → 6 ≤ (ringAt s (ringKey i r)).log2 → (ringAt s (ringKey i r)).log2 ≤ 16 →
      ringBase (ringAt s (ringKey i r)) + 64 * 2 ^ (ringAt s (ringKey i r)).log2 ≤ 2 ^ 64 →
      ∃ t, exec (.ringEnable i r) s = .next t ∧ (ringAt t (ringKey i r)).enable = true ∧
        (ringAt t (ringKey i r)).error = false ∧ (ringAt t (ringKey i r)).cause = 0 ∧
        (ringAt t (ringKey i r)).faultIndex = 0 ∧ t = { s with rings := t.rings, intakes := t.intakes } ∧
        (∀ k, k ≠ ringKey i r → ringAt t k = ringAt s k)) ∧
    ((ringAt s (ringKey i r)).enable = false →
      ((ringAt s (ringKey i r)).log2 < 6 ∨ 16 < (ringAt s (ringKey i r)).log2 ∨
        2 ^ 64 < ringBase (ringAt s (ringKey i r)) + 64 * 2 ^ (ringAt s (ringKey i r)).log2) →
      ∃ t, exec (.ringEnable i r) s = .next t ∧ (ringAt t (ringKey i r)).enable = true ∧
        (ringAt t (ringKey i r)).error = true ∧ (ringAt t (ringKey i r)).cause = 2 ∧
        (∀ k, k ≠ ringKey i r → ringAt t k = ringAt s k)) ∧
    ((ringAt s (ringKey i r)).enable = true →
      ∃ t, exec (.ringDisable i r) s = .next t ∧ (ringAt t (ringKey i r)).enable = false ∧
        (intakeAt t (ringAt s (ringKey i r)).intake).scan.contains (ringKey i r) = false ∧ t.jobs = s.jobs ∧
        (∀ k, k ≠ ringKey i r → ringAt t k = ringAt s k)) ∧
    ((ringAt s (ringKey i r)).enable = true → exec (.ringEnable i r) s = .next s) ∧
    ((ringAt s (ringKey i r)).enable = false → exec (.ringDisable i r) s = .next s)) ∧
  (∀ (i : Nat) (s : State), i < 1024 →
    exec (.busMasterEnableChange i false) s = .next (putInst s i { instAt s i with bme := false }) ∧
    (∃ t, exec (.busMasterEnableChange i true) s = .next t ∧ instAt t i = { instAt s i with bme := true } ∧
      (∀ m, m ≠ i → instAt t m = instAt s m) ∧ t = { s with im := t.im, rings := t.rings, intakes := t.intakes } ∧
      ((instAt s i).bme = false → ∀ k, k / 16 = i → ringActive t k = true →
        (intakeAt t (ringAt t k).intake).scan.contains k = true))) ∧
  (∀ (f e : Nat) (s : State), (msixAt s f e).masked = true →
    ((msixAt s f e).pending = true → exec (.msixUnmask f e) s = .next
      { s with
        msix := tset {} s.msix (32 * f + e) { msixAt s f e with masked := false, pending := false }
        out := s.out ++ [.msix f e (msixAt s f e).addr (msixAt s f e).data] }) ∧
    ((msixAt s f e).pending = false → exec (.msixUnmask f e) s = .next
      { s with msix := tset {} s.msix (32 * f + e) { msixAt s f e with masked := false, pending := false } }))

/-- R53, R102, R137, R140, R145, R172, R284, R380: the read of the entry at the front of an intake's round. A failed read puts the ring in ERROR
with CAUSE 1 and the entry's index; an entry not owned ends the scan; a single owned entry that the quota and the ballast
allow is taken: RING_HEAD advances by one and a job stands under the next serial with the entry as read. The model's choice:
the order of the quota and the other checks (logs 16 and 17), job serials (log 23). -/
def Obligations.EntryReadTakesStopsOrFaults : Prop :=
  ∀ (c k : Nat) (rest : List Nat) (data : Bytes) (s : State), Legal s →
    (intakeAt s c).scan = k :: rest → intakeTakes s c = true → (ringAt s k).waitBallast = false →
    ringActive s k = true → takesWork s (instPage (k / 16)) = true →
    takesWork s (1 + (instAt s (k / 16)).port) = true → (logAt s (k / 16)).everEnabled = true →
    (∃ t, exec (.entryReadComplete c false data) s = .next t ∧ (ringAt t k).error = true ∧ (ringAt t k).cause = 1 ∧
      (ringAt t k).faultIndex = ((ringAt s k).head + (ringAt s k).readSoFar.length) % 2 ^ (ringAt s k).log2 ∧
      t.jobs = s.jobs) ∧
    (eOwn (pad 64 data) = false → (ringAt s k).rescan = false →
      ∃ t, exec (.entryReadComplete c true data) s = .next t ∧ (ringAt t k).head = (ringAt s k).head ∧
        t.jobs = s.jobs ∧ t.nextSerial = s.nextSerial ∧
        ((ringAt s k).intake = c → (intakeAt t c).scan = rest.filter (· ≠ k))) ∧
    ((ringAt s k).readSoFar = [] →
      owned s k ((ringAt s k).head % 2 ^ (ringAt s k).log2) (pad 64 data) = true →
      eFirst (pad 64 data) = true → eLast (pad 64 data) = true → badEntry (pad 64 data) = false →
      (instAt s (k / 16)).ballast ≥ instHeld s (k / 16) + bufNeed (pad 64 data) →
      freeGeneral s ≥ bufNeed (pad 64 data) → (s.intakes.any fun e => e.2.waitBallast && decide (e.1 ≠ c)) = false →
      ∃ t j, exec (.entryReadComplete c true data) s = .next t ∧ jobAt t s.nextSerial = some j ∧ j.entry = pad 64 data ∧
        j.inst = k / 16 ∧ j.ring = k % 16 ∧ j.index = (ringAt s k).head % 2 ^ (ringAt s k).log2 ∧
        j.gen = (instAt s (k / 16)).gen ∧ j.bufs = pickBufs s (bufNeed (pad 64 data)) ∧
        (ringAt t k).head = ((ringAt s k).head + 1) % 2 ^ (ringAt s k).log2 ∧ t.nextSerial = s.nextSerial + 1 ∧
        (intakeAt t c).taken = (intakeAt s c).taken + 1)

/-- R158 of 03: an ORDERED entry or chain waits for every entry taken earlier from its ring; any other, and one that need wait
no longer, begins step 4 of R58. R48 of 01: freed ballast goes to a waiting intake, which takes the entry it holds. The
model's choice: that an event whose condition does not hold changes nothing (log 3). -/
def Obligations.OrderedReleaseAndBallastWait : Prop :=
  (∀ (n : Nat) (j : Job) (s : State), jobAt s n = some j → j.phase = .taken → j.first = n →
    (eOrdered j.entry = true → earlierWaits s n j = true → exec (.orderedRelease n) s = .next s) ∧
    (eOrdered j.entry = false ∨ earlierWaits s n j = false → j.origin = none →
      (badEntry j.entry = true → exec (.orderedRelease n) s = .next (failJob s n 0x1003)) ∧
      (badEntry j.entry = false → entryStatus j.entry ≠ 0 →
        exec (.orderedRelease n) s = .next (failJob s n (entryStatus j.entry))) ∧
      (badEntry j.entry = false → entryStatus j.entry = 0 →
        exec (.orderedRelease n) s = .next (modJob s n fun j => { j with phase :=
          (if blobCount j.entry ≠ 0 then Phase.readHead 0 else if eInLen j.entry ≠ 0 then .readInput else .handoff) })))) ∧
  (∀ (c k : Nat) (rest : List Nat) (e : Bytes) (s : State), Legal s → c < 34 → s.bridle.fwdWaiting = [] →
    (intakeAt s c).waitBallast = true → (∀ d, d ≠ c → (intakeAt s d).waitBallast = false) →
    intakeTakes s c = true → (intakeAt s c).scan = k :: rest → (ringAt s k).pool.isSome = true → (ringAt s k).waitBallast = true →
    (ringAt s k).readSoFar = [e] →
    eFirst e = true → eLast e = true → badEntry e = false →
    (instAt s (k / 16)).ballast ≥ instHeld s (k / 16) + bufNeed e → freeGeneral s ≥ bufNeed e →
    ∃ t j, exec .ballastWaitEnd s = .next t ∧ jobAt t s.nextSerial = some j ∧ j.entry = e ∧ j.inst = k / 16 ∧
      j.bufs = pickBufs s (bufNeed e) ∧ (intakeAt t c).waitBallast = false ∧ (ringAt t k).waitBallast = false ∧
      (ringAt t k).head = ((ringAt s k).head + 1) % 2 ^ (ringAt s k).log2 ∧ t.nextSerial = s.nextSerial + 1 ∧
      t.ballast.nextIntake = (c + 1) % 34)

/-! ### The unit tree (02_unit_pages.md) -/

/-- R86, R102, R103: UNIT_CTRL.ENABLE = 1. An OFF unit whose parent is RUNNING or QUIESCED and that is not faulted enters
STARTING; with its parent in another state it stays OFF with ENABLE_PENDING; a unit in any other state but RETIRED keeps its
state with ENABLE 1. No other unit's header changes but for event bits. R86, R102: UNIT_CTRL.ENABLE = 0 while no bridle line
is UP. A unit that is STARTING, RUNNING or QUIESCED enters STOPPING, and so does each such unit below it. -/
def Obligations.UnitEnableAndDisable : Prop :=
  (∀ (acc : Acc) (p : Nat) (s : State), Legal s → ctrlWrite s acc p = true →
    ∃ t, exec (.unitEnable acc p) s = .next t ∧ (∀ q, q ≠ p → sameButEvents s t q) ∧
      ((unitAt s p).state = .off → parentUp s p = true → (unitAt s p).permanent = false →
        (unitAt t p).state = .starting ∧ (unitAt t p).enable = true ∧ (unitAt t p).pending = false) ∧
      ((unitAt s p).state = .off → parentUp s p = false ∨ (unitAt s p).permanent = true →
        (unitAt t p).state = .off ∧ (unitAt t p).enable = true ∧ (unitAt t p).pending = true) ∧
      ((unitAt s p).state = .stopping →
        (unitAt t p).state = .stopping ∧ (unitAt t p).enable = true ∧ (unitAt t p).pending = true) ∧
      ((unitAt s p).state = .starting ∨ (unitAt s p).state = .running ∨ (unitAt s p).state = .quiesced ∨
        (unitAt s p).state = .faulted → (unitAt t p).state = (unitAt s p).state ∧ (unitAt t p).enable = true) ∧
      ((unitAt s p).state = .retired → sameButEvents s t p)) ∧
  (∀ (acc : Acc) (p : Nat) (s : State), Legal s → ctrlWrite s acc p = true → (∀ m, (lineAt s m).lstate ≠ .up) →
    (unitAt s p).state ≠ .retired →
    ∃ t, exec (.unitDisable acc p) s = .next t ∧ (unitAt t p).enable = false ∧ (unitAt t p).pending = false ∧
      (∀ q, q = p ∨ q ∈ descendants p →
        (unitAt s q).state = .starting ∨ (unitAt s q).state = .running ∨ (unitAt s q).state = .quiesced →
        (unitAt t q).state = .stopping) ∧
      (∀ q, q = p ∨ q ∈ descendants p →
        (unitAt s q).state = .off ∨ (unitAt s q).state = .stopping ∨ (unitAt s q).state = .faulted ∨
          (unitAt s q).state = .retired → (unitAt t q).state = (unitAt s q).state) ∧
      (∀ q, q ≠ p → q ∉ descendants p → sameButEvents s t q))

/-- R86, R102: UNIT_CTRL.QUIESCE. Set, a RUNNING unit without work in flight becomes QUIESCED and one with work takes no more
until it has completed; cleared, a QUIESCED unit whose parent is RUNNING is RUNNING again. R86, R108, R109, R112:
UNIT_CTRL.LEVEL. It takes effect on a page that is not locked while the unit is OFF or QUIESCED; a Sail engine wipes first. On
a locked page the write is refused and counted. The model's choice: that an event whose condition does not hold changes
nothing (log 3). -/
def Obligations.UnitQuiesceAndLevel : Prop :=
  (∀ (acc : Acc) (p : Nat) (s : State), Legal s → ctrlWrite s acc p = true →
    ((unitAt s p).state = .running → workInFlight s p = false →
      ∃ t, exec (.unitQuiesce acc p) s = .next t ∧ (unitAt t p).state = .quiesced ∧ (unitAt t p).quiesce = true ∧
        ∀ q, q ≠ p → q ∉ descendants p → sameButEvents s t q) ∧
    ((unitAt s p).state = .running → workInFlight s p = true →
      ∃ t, exec (.unitQuiesce acc p) s = .next t ∧ (unitAt t p).state = .running ∧ (unitAt t p).quiesce = true ∧
        takesWork t p = false ∧ ∀ q, q ≠ p → q ∉ descendants p → sameButEvents s t q) ∧
    ((unitAt s p).state = .quiesced → (∀ q, parentOf p = some q → isRunning s q = true) → (p = 0 → episodeHold s = false) →
      ∃ t, exec (.unitUnquiesce acc p) s = .next t ∧ (unitAt t p).state = .running ∧ (unitAt t p).quiesce = false ∧
        ∀ q, q ≠ p → q ∉ descendants p → sameButEvents s t q)) ∧
  (∀ (acc : Acc) (p : Nat) (lv : Bool) (s : State), Legal s → ctrlWrite s acc p = true → (unitAt s p).level ≠ lv →
    ((unitAt s p).lock = false → ((unitAt s p).state = .off ∨ (unitAt s p).state = .quiesced) →
      kindOf p ≠ 0x05 → kindOf p ≠ 0x06 →
      ∃ t, exec (.unitLevelChange acc p lv) s = .next t ∧ unitAt t p = { unitAt s p with level := lv } ∧
        ∀ q, q ≠ p → unitAt t q = unitAt s q) ∧
    ((unitAt s p).lock = false → ((unitAt s p).state = .off ∨ (unitAt s p).state = .quiesced) →
      (kindOf p = 0x05 ∨ kindOf p = 0x06) →
      ∃ t, exec (.unitLevelChange acc p lv) s = .next t ∧ (tget {} t.sails p).estate = .wiping ∧
        (tget {} t.sails p).levelAfterWipe = some lv ∧ (tget {} t.sails p).mem = [] ∧ t = { s with sails := t.sails }) ∧
    ((unitAt s p).lock = true → (unitAt s p).state ≠ .retired →
      ∃ t, exec (.unitLevelChange acc p lv) s = .next t ∧ (unitAt t p).level = (unitAt s p).level ∧
        (unitAt t p).refused = sat 255 ((unitAt s p).refused + 1) ∧ (unitAt t p).event.getLsbD 3 = true) ∧
    ((unitAt s p).lock = false → ((unitAt s p).state = .running ∨ (unitAt s p).state = .starting ∨
      (unitAt s p).state = .stopping ∨ (unitAt s p).state = .faulted) → exec (.unitLevelChange acc p lv) s = .next s))

/-- R102: a start that completes: QUIESCED with QUIESCE 1 or under a QUIESCED parent, else RUNNING. R102: work in flight has
completed, while no bridle line is UP. A unit without children that was STOPPING with ENABLE 0 is OFF; one that was draining
is QUIESCED. -/
def Obligations.UnitStartAndDrainComplete : Prop :=
  (∀ (p q : Nat) (s : State), Legal s → (unitAt s p).state = .starting → parentOf p = some q →
    (kindOf p ≠ 0x10 ∨ p = 0x020) → kindOf p ≠ 0x11 →
    ((kindOf p = 0x05 ∨ kindOf p = 0x06) → (tget {} s.sails p).estate ≠ .wiping) →
    ∃ t, exec (.unitStartComplete p) s = .next t ∧
      (unitAt t p).state = (if (unitAt s p).quiesce ∨ (unitAt s q).state = .quiesced then .quiesced else .running) ∧
      (unitAt t p).event.getLsbD 0 = true ∧ ∀ r, r ≠ p → r ∉ descendants p → sameButEvents s t r) ∧
  (∀ (p : Nat) (s : State), Legal s → (∀ m, (lineAt s m).lstate ≠ .up) → childrenOf p = [] → workInFlight s p = false →
    kindOf p ≠ 0x12 →
    ((unitAt s p).state = .stopping → (unitAt s p).retiring = false → (unitAt s p).enable = false →
      ∃ t, exec (.unitDrainComplete p) s = .next t ∧ (unitAt t p).state = .off ∧ ∀ r, r ≠ p → sameButEvents s t r) ∧
    ((unitAt s p).state = .running → (unitAt s p).draining = true →
      ∃ t, exec (.unitDrainComplete p) s = .next t ∧ (unitAt t p).state = .quiesced ∧ (unitAt t p).draining = false ∧
        ∀ r, r ≠ p → sameButEvents s t r))

/-- R87, R94, R95, R98: CLEAR of UNIT_FAULT, W1C of UNIT_EVENT (CHILD and reserved bits stay), UNIT_EVENT_EN, and
UNIT_LOCK.LOCK, each on a page that the accessor reaches; a page that it does not reach is left alone. R87, R94, R661, R662 of
16: a transient fault is counted on its unit, saturating at 255, with its cause; with cause 0x01, corrected, no job is
touched. The model's choice: that an event whose condition does not hold changes nothing (log 3). -/
def Obligations.UnitFaultEventAndLockWrites : Prop :=
  (∀ (acc : Acc) (p : Nat) (v : Word32) (s : State), Legal s →
    (headerWrite s acc p = true →
      (∃ t, exec (.faultClear acc p) s = .next t ∧ unitAt t p = { unitAt s p with transient := 0, lastCause := 0 } ∧
        (∀ q, q ≠ p → unitAt t q = unitAt s q) ∧ t = { s with units := t.units }) ∧
      (∃ t, exec (.unitEventClear acc p v) s = .next t ∧
        unitAt t p = { unitAt s p with event := (unitAt s p).event &&& ~~~(v &&& 0xFFFF000F) } ∧
        (∀ q, q ≠ p → unitAt t q = unitAt s q) ∧
        t = { s with units := t.units, msix := t.msix, out := t.out, rootSent := t.rootSent }) ∧
      (∃ t, exec (.unitEventEnWrite acc p v) s = .next t ∧
        unitAt t p = { unitAt s p with eventEn := v &&& 0xFFFF001F } ∧ (∀ q, q ≠ p → unitAt t q = unitAt s q) ∧
        t = { s with units := t.units, msix := t.msix, out := t.out, rootSent := t.rootSent }) ∧
      (∃ t, exec (.unitLockSet acc p) s = .next t ∧ unitAt t p = { unitAt s p with lock := true } ∧
        (∀ q, q ≠ p → unitAt t q = unitAt s q) ∧ t = { s with units := t.units })) ∧
    (headerWrite s acc p = false →
      exec (.faultClear acc p) s = .next s ∧ exec (.unitEventClear acc p v) s = .next s ∧
      exec (.unitEventEnWrite acc p v) s = .next s ∧ exec (.unitLockSet acc p) s = .next s)) ∧
  (∀ (p : Nat) (s : State), Legal s → kindOf p ≠ 0 →
    ∃ t, exec (.transientFault p 1 0) s = .next t ∧ (unitAt t p).transient = sat 255 ((unitAt s p).transient + 1) ∧
      (unitAt t p).lastCause = 1 ∧ (unitAt t p).event.getLsbD 1 = true ∧ (unitAt t p).permanent = (unitAt s p).permanent ∧
      (∀ q, q ≠ p → unitAt t q = unitAt s q) ∧ t.jobs = s.jobs)

/-- R96: the management message. The message is sent on each host port when the device root becomes raised, and again after a
write to the root's event registers that leaves it raised; an unmasked entry sends it, a masked one holds it pending. R89,
R90, R102 and R674 to R679 of 16: a retirement request of a bridle line, and the recording that ends it. -/
def Obligations.ManagementMessageAndRetirement : Prop :=
  (∀ (s : State),
    (rootRaised s = true → s.rootSent = false → noteRoot s = { sendManagement s with rootSent := true }) ∧
    (rootRaised s = true → s.rootSent = true → noteRoot s = s) ∧
    (rootRaised s = false → noteRoot s = { s with rootSent := false }) ∧
    (rootRaised s = true → afterEventWrite s 0 = { sendManagement s with rootSent := true }) ∧
    ((msixAt s 1024 0).masked = false → (msixAt s 1025 0).masked = false →
      sendManagement s = { s with out := s.out ++
        [.msix 1024 0 (msixAt s 1024 0).addr (msixAt s 1024 0).data, .msix 1025 0 (msixAt s 1025 0).addr (msixAt s 1025 0).data] }) ∧
    ((msixAt s 1024 0).masked = true → (msixAt (sendManagement s) 1024 0).pending = true)) ∧
  (∀ (acc : Acc) (m : Nat) (s : State), Legal s → m < 64 → (∀ j, (lineAt s j).lstate ≠ .up) →
    (headerWrite s acc (linePage m) = true → (unitAt s (linePage m)).lock = false →
      ((unitAt s (linePage m)).state = .off ∨ (unitAt s (linePage m)).state = .starting ∨
        (unitAt s (linePage m)).state = .running ∨ (unitAt s (linePage m)).state = .quiesced ∨
        (unitAt s (linePage m)).state = .stopping) →
      ∃ t, exec (.retireRequest acc (linePage m)) s = .next t ∧ (unitAt t (linePage m)).state = .stopping ∧
        (unitAt t (linePage m)).retiring = true ∧ (unitAt t (linePage m)).enable = false ∧
        ∀ q, q ≠ linePage m → sameButEvents s t q) ∧
    ((unitAt s (linePage m)).state = .stopping → (unitAt s (linePage m)).retiring = true →
      (unitAt s (linePage m)).permanent = false → s.faults.map.length < 255 →
      ∃ t, exec (.retirementRecorded (linePage m)) s = .next t ∧ (unitAt t (linePage m)).state = .retired ∧
        (unitAt t (linePage m)).permanent = true ∧ (unitAt t (linePage m)).permCause = 0x0D ∧
        (unitAt t (linePage m)).field = true ∧ (unitAt t (linePage m)).mapIndex = s.faults.map.length ∧
        (unitAt t (linePage m)).enable = false ∧
        t.faults.map = s.faults.map ++ [mapRecord 4 0x0D 0 m (position s % 2 ^ 56)]))

/-! ### Register accesses and the management port (R12, R73, R77, R107, R108, R317; R905 to R908 of 23) -/

/-- R73, R77, R118: a write that is misaligned, that lies beyond the page, that reaches no page, or that meets a page without
a unit, is dropped. R12: an RW register reads as it was written: a read after a write by an accessor that reaches the page
returns the value written, and the write changes nothing but that register. The registers are FW_STAGE_LO, FW_STAGE_HI,
FW_STAGE_LEN, EVT_SEL, BRL_REC_LO, AUD_SEL and the SAIL argument registers of an engine at LEVEL 1. The model's choice: that
an event whose condition does not hold changes nothing (log 3). -/
def Obligations.RegisterWritesDroppedOrReadBack : Prop :=
  (∀ (acc : Acc) (p off : Nat) (v : Word32) (s : State),
    (off % 4 ≠ 0 ∨ 0x1000 ≤ off → exec (.registerWrite acc p off v) s = .next s) ∧
    (acc ≠ .vf → bar4Page acc ≠ some p → reaches s acc p = false → exec (.registerWrite acc p off v) s = .next s) ∧
    (acc ≠ .vf → bar4Page acc ≠ some p → kindOf p = 0 → (p < 0x010 ∨ 0x018 < p) →
      exec (.registerWrite acc p off v) s = .next s)) ∧
  (∀ (acc : Acc) (v : Word32) (s : State), acc ≠ .vf →
    (reaches s acc 0x000 = true → ∀ off, off = 0x060 ∨ off = 0x064 ∨ off = 0x068 →
      ∃ t, exec (.registerWrite acc 0x000 off v) s = .next t ∧ t = { s with power := t.power } ∧
        exec (.snapshotRead acc 0x000 off) t = .next { t with out := s.out ++ [.readValue acc v] }) ∧
    (reaches s acc 0x006 = true → Legal s →
      ∃ t, exec (.registerWrite acc 0x006 0x080 v) s = .next t ∧ t = { s with evtSel := t.evtSel } ∧
        exec (.snapshotRead acc 0x006 0x080) t = .next { t with out := s.out ++ [.readValue acc (w32 (v.toNat % 256))] } ∧
        ∀ b, accIdx b ≠ accIdx acc → evtSel t b = evtSel s b) ∧
    (reaches s acc 0x020 = true →
      ∃ t, exec (.registerWrite acc 0x020 0x044 v) s = .next t ∧ t = { s with bridle := t.bridle } ∧
        exec (.snapshotRead acc 0x020 0x044) t = .next { t with out := s.out ++ [.readValue acc v] }) ∧
    (∀ p, reaches s acc p = true → kindOf p = 0x05 → (unitAt s p).level = true → Legal s →
      ∃ t, exec (.registerWrite acc p 0x804 v) s = .next t ∧ t = { s with sails := t.sails } ∧
        sailAt t p = { sailAt s p with arg0 := v } ∧ ∀ q, q ≠ p → sailAt t q = sailAt s q))

/-- R107: at LEVEL 0 every register at offsets 0x800 to 0xFFF of a unit's page reads 0, and writes to them are dropped. -/
def Obligations.ExpertRegistersClosedAtBasicLevel : Prop :=
  ∀ (acc : Acc) (p off : Nat) (v : Word32) (s : State), acc ≠ .vf → kindOf p ≠ 0 → (unitAt s p).level = false →
    0x800 ≤ off → off < 0x1000 → off % 4 = 0 → reaches s acc p = true →
    exec (.registerWrite acc p off v) s = .next s ∧
    exec (.snapshotRead acc p off) s = .next { s with out := s.out ++ [.readValue acc 0] }

/-- R108: a write that would change an RWL field of a locked page changes nothing of that field, and is counted; on an
unlocked page it takes effect. The field is FLT_CFG.TEST_AT of page 0x000. -/
def Obligations.LockedFieldWriteRefused : Prop :=
  ∀ (acc : Acc) (v : Word32) (s : State), Legal s → acc ≠ .vf → reaches s acc 0x000 = true →
    v.toNat % 256 ≠ s.faults.testAt →
    ((unitAt s 0).lock = true →
      ∃ t, exec (.registerWrite acc 0x000 0x204 v) s = .next t ∧ t.faults = s.faults ∧
        (unitAt t 0).refused = sat 255 ((unitAt s 0).refused + 1) ∧ (unitAt t 0).event.getLsbD 3 = true ∧
        ∀ q, q ≠ 0 → unitAt t q = unitAt s q) ∧
    ((unitAt s 0).lock = false → exec (.registerWrite acc 0x000 0x204 v) s =
      .next { s with faults := { s.faults with testAt := v.toNat % 256 } })

/-- R317 of 06: a read of TETHER_POS_LO takes the accessor's snapshot of the whole position, the read of TETHER_POS_HI that
follows returns that snapshot's upper half, and no other accessor's snapshot changes. -/
def Obligations.PositionSnapshotPerAccessor : Prop :=
  ∀ (acc : Acc) (s : State), acc ≠ .vf → reaches s acc 0x006 = true → position s < 2 ^ 64 →
    Tab.wf (fun _ => 0) s.tether.posSnap = true →
    ∃ t, exec (.snapshotRead acc 0x006 0x048) s = .next t ∧
      t.out = s.out ++ [.readValue acc (w32 (position s % 2 ^ 32))] ∧
      t = { s with tether := t.tether, out := t.out } ∧ t.tether = { s.tether with posSnap := t.tether.posSnap } ∧
      exec (.snapshotRead acc 0x006 0x04C) t = .next { t with out := t.out ++ [.readValue acc (w32 (position s / 2 ^ 32))] } ∧
      ∀ a, a ≠ accIdx acc → tget 0 t.tether.posSnap a = tget 0 s.tether.posSnap a

/-- R906, R907, R908 of 23: the SMBus port while the device has main power. The model's choice: that an event whose condition
does not hold changes nothing (log 3), the pointer kept over accesses (log 64). -/
def Obligations.SmbusPort : Prop :=
  ∀ (ptr : Nat) (v : Word32) (s : State), s.power.state ≠ .moored →
    exec (.smbusSetPointer ptr true) s = .next { s with smbPtr := ptr % 2 ^ 24 } ∧
    exec (.smbusSetPointer ptr false) s = .next s ∧
    exec (.smbusWrite ptr v true) s = exec (.registerWrite .pf0 (ptr % 2 ^ 24 / 0x1000) (ptr % 0x1000) v) s ∧
    exec (.smbusWrite ptr v false) s = .next s ∧
    (∀ n t, registerRead s .pf0 (s.smbPtr % 2 ^ 24 / 0x1000) (s.smbPtr % 0x1000) = (some n, t) →
      exec .smbusRead s = .next { t with out := t.out ++ [.smbus (le 4 n)] }) ∧
    (rootRaised s = true → exec .alertResponse s =
      .next { s with out := s.out ++ [.smbus [BitVec.ofNat 8 (0x58 + s.power.smb % 8)]] }) ∧
    (rootRaised s = false → exec .alertResponse s = .next s)

/-! ### Transactions (01_unit_tree_and_transaction_path.md, 04_transaction_jobs.md, 05_key_blobs_and_cache.md) -/

/-- R163, R164, R183, R187: how a result becomes final. DONE carries RESULT bytes, output and OUT_LEN; output longer than
OUT_CAP ends with 0x1006 and the needed length, its output not written; a status of the work carries its RESULT bytes and no
output beyond what has streamed. A job that is refused or aborted carries neither, and one already decided stays as it is. No
other job and no other part of the state changes. -/
def Obligations.JobResultBecomesFinal : Prop :=
  ∀ (s : State) (n : Nat) (j : Job), jobAt s n = some j →
    (∀ r : JobEnd, r.status = 0 → r.out.length ≤ eOutCap j.entry →
      OnlyJob s (finishJob s n j r) n
        { j with phase := .final, status := 0, result := r.result, out := r.out, outLen := r.out.length, waitRand := false }) ∧
    (∀ r : JobEnd, r.status = 0 → eOutCap j.entry < r.out.length →
      OnlyJob s (finishJob s n j r) n
        { j with
          phase := .final, status := 0x1006, result := [], out := j.out.take j.streamed, outLen := r.out.length, waitRand := false }) ∧
    (∀ r : JobEnd, r.status ≠ 0 →
      OnlyJob s (finishJob s n j r) n
        { j with
          phase := .final, status := r.status, result := r.result, out := j.out.take j.streamed, outLen := 0, waitRand := false }) ∧
    (∀ st : Nat, undecided j = true →
      OnlyJob s (failJob s n st) n
        { j with phase := .final, status := st, result := [], out := j.out.take j.streamed, outLen := 0, waitRand := false }) ∧
    (∀ st : Nat, undecided j = false → OnlyJob s (failJob s n st) n j)

/-- R56, R58, R110, R150: JOB_HANDOFF. A job that waits for a channel goes to one that may take it, unless an earlier member
of its chain has no final result; the intake counts a hand-off to another channel than its own; a core of the channel that
waits in JOB_NEXT receives it. Then step 5 begins. With no channel that may take it the job waits. The model's choice: that an
event whose condition does not hold changes nothing (log 3), which channel and core take the job (log 18). -/
def Obligations.JobHandoff : Prop :=
  ∀ (n c core : Nat) (j : Job) (s : State), Legal s → jobAt s n = some j → j.phase = .handoff →
    (mayTake s n j c = true → chainBefore s n j = false → j.origin = none →
      (ringAt s (ringKey j.inst j.ring)).intake = c → (tget {} s.cores core).stall ≠ .jobNext →
      exec (.jobHandoff n c core) s =
        .next (beginStep5 (modJob s n fun j => { j with chan := some c, core := none }) n)) ∧
    (mayTake s n j c = true → chainBefore s n j = false → j.origin = none →
      (ringAt s (ringKey j.inst j.ring)).intake ≠ c → (tget {} s.cores core).stall ≠ .jobNext →
      exec (.jobHandoff n c core) s =
        .next (beginStep5 (modJob (putIntake s (ringAt s (ringKey j.inst j.ring)).intake
          { intakeAt s (ringAt s (ringKey j.inst j.ring)).intake with
            handed := (intakeAt s (ringAt s (ringKey j.inst j.ring)).intake).handed + 1 }) n
          fun j => { j with chan := some c, core := none }) n)) ∧
    (mayTake s n j c = true → chainBefore s n j = false → j.origin = none →
      (ringAt s (ringKey j.inst j.ring)).intake = c → (tget {} s.cores core).stall = .jobNext → isRunning s core = true →
      chanPage c < core → core ≤ chanPage c + 4 →
      ∃ t, exec (.jobHandoff n c core) s = .next (beginStep5 t n) ∧
        jobAt t n = some { j with chan := some c, core := some core } ∧ (tget {} t.cores core).stall = .none ∧
        t = { s with jobs := t.jobs, cores := t.cores }) ∧
    (mayTake s n j c = false ∨ chainBefore s n j = true → exec (.jobHandoff n c core) s = .next s)

/-- R58, R59, R270, R279, R341, R359, R367: step 5. A job without key goes on to step 6; a ripcorded device refuses with
0x6001; a generation that the instance does not hold gives 0x2003 and one that cannot be read 0x2001, which KC_AUTH_FAILS
counts; a hit pins the cached key; a digest whose unwrap is under way makes the job wait for it; otherwise a fill begins and
the lane unwraps. -/
def Obligations.KeyLookup : Prop :=
  ∀ (n k : Nat) (j : Job) (s : State), jobAt s n = some j →
    (s.kh.ripcorded = true → lookupKey s n k = (false, failJob s n 0x6001)) ∧
    (s.kh.ripcorded = false → (chooseGen s j (blobOf j k)).1 ≠ 0 →
      lookupKey s n k = (false, refuseBlob s n (chooseGen s j (blobOf j k)).1)) ∧
    (s.kh.ripcorded = false → (chooseGen s j (blobOf j k)).1 = 0 → ∀ h ck,
      ((chooseGen s j (blobOf j k)).2.filterMap fun g => cacheHit s j.inst g (sha256 (blobOf j k))).head? = some (h, ck) →
      keyStatus j.entry k ck.key = 0 → k = 0 →
      ∃ t, lookupKey s n k = (true, t) ∧ t.kc.hits = s.kc.hits + 1 ∧
        jobAt t n = some { j with
          key1 := some ck.key, cap1 := keyCap (keyObject h ck.serial) j.inst j.gen ck.key, phase := .run } ∧
        t = { s with jobs := t.jobs, kc := t.kc }) ∧
    (s.kh.ripcorded = false → (chooseGen s j (blobOf j k)).1 = 0 →
      ((chooseGen s j (blobOf j k)).2.filterMap fun g => cacheHit s j.inst g (sha256 (blobOf j k))) = [] →
      (fillMarked s j.inst (sha256 (blobOf j k))).isSome = true →
      lookupKey s n k = (false,
        modJob { s with kc := { s.kc with misses := s.kc.misses + 1 } } n fun j => { j with phase := .waitFill k })) ∧
    (s.kh.ripcorded = false → (chooseGen s j (blobOf j k)).1 = 0 →
      ((chooseGen s j (blobOf j k)).2.filterMap fun g => cacheHit s j.inst g (sha256 (blobOf j k))) = [] →
      fillMarked s j.inst (sha256 (blobOf j k)) = none →
      lookupKey s n k = (false, laneUnwrap (modJob
        (beginFill s n j.inst ((chooseGen s j (blobOf j k)).2.headD 0) (sha256 (blobOf j k)) (blobOf j k)) n
        fun j => { j with phase := .unwrap k }) (j.chan.getD 0))) ∧
    (blobCount j.entry = 0 → j.genSet = true → beginStep5 s n =
      modJob (modJob s n fun j => { j with image := imageSlot s j }) n fun j => { j with phase := .run })

/-- R140, R165, R251, R404: HOST_READ_COMPLETE. The bytes read go to the job's blob, input or proof; the first 32 bytes of a
blob state its length, 0x2001 where they state none; a read that ends in an error ends the job with 0x1005. R59, R265, R279,
R280, R283: UNWRAP_COMPLETE. A blob that does not unwrap ends the job, and every job that waits for the same fill, with its
status, the fill dropped; a blob that unwraps gives its key to the job, which goes on to step 6. The model's choice: that the
bytes read come with the command (log 5), opaque primitives (log 10). -/
def Obligations.HostReadAndUnwrapComplete : Prop :=
  (∀ (n : Nat) (data : Bytes) (j : Job) (s : State), jobAt s n = some j →
    (j.phase = .readHead 0 → (statedLen (pad 32 data)).isSome = true → ∃ t, exec (.hostReadComplete n true data) s = .next t ∧
      OnlyJob s t n { j with blob1 := pad 32 data, phase := .readRest 0 }) ∧
    (j.phase = .readHead 0 → statedLen (pad 32 data) = none →
      exec (.hostReadComplete n true data) s = .next (refuseBlob s n 0x2001)) ∧
    (j.phase = .readRest 0 → ∃ t, exec (.hostReadComplete n true data) s = .next t ∧
      OnlyJob s t n { j with
        blob1 := j.blob1 ++ pad ((statedLen j.blob1).getD 32 - 32) data, blob1Done := true, phase := afterBlob j 0 }) ∧
    (j.phase = .readHead 1 → (statedLen (pad 32 data)).isSome = true → ∃ t, exec (.hostReadComplete n true data) s = .next t ∧
      OnlyJob s t n { j with blob2 := pad 32 data, phase := .readRest 1 }) ∧
    (j.phase = .readRest 1 → ∃ t, exec (.hostReadComplete n true data) s = .next t ∧
      OnlyJob s t n { j with
        blob2 := j.blob2 ++ pad ((statedLen j.blob2).getD 32 - 32) data, blob2Done := true, phase := afterBlob j 1 }) ∧
    (j.phase = .readInput → ∃ t, exec (.hostReadComplete n true data) s = .next t ∧
      OnlyJob s t n { j with input := pad (nextRead j 0) data, phase := .handoff }) ∧
    (j.phase = .nextSegment → ∃ t, exec (.hostReadComplete n true data) s = .next t ∧
      OnlyJob s t n { j with input := j.input ++ pad (nextRead j j.input.length) data, phase := .run }) ∧
    (j.phase = .readProof → ∃ t, exec (.hostReadComplete n true data) s = .next t ∧
      OnlyJob s t n { j with proof := j.proof ++ [data], phase := .run }) ∧
    ((∃ k, j.phase = .readHead k ∨ j.phase = .readRest k) ∨ j.phase = .readInput ∨ j.phase = .nextSegment →
      exec (.hostReadComplete n false data) s = .next (failJob s n 0x1005))) ∧
  (∀ (n : Nat) (j : Job) (s : State), jobAt s n = some j → j.phase = .unwrap 0 →
    (tget {} s.lanes (j.chan.getD 0)).unwrap = some n → (chooseGen s j j.blob1).1 = 0 →
    (∀ st, unwrapBlob s j j.blob1 (chooseGen s j j.blob1).2 = .status st →
      exec (.unwrapComplete n) s = .next (laneUnwrap ((n :: (waiters s j.inst (sha256 j.blob1)).map (·.1)).foldl
        (fun s m => refuseBlob s m st) (dropFill s n)) (j.chan.getD 0))) ∧
    (∀ key, unwrapBlob s j j.blob1 (chooseGen s j j.blob1).2 = .key key → waiters s j.inst (sha256 j.blob1) = [] →
      keyStatus j.entry 0 key = 0 → blobCount j.entry = 1 →
      ∃ t cap, exec (.unwrapComplete n) s = .next t ∧
        jobAt t n = some { j with key1 := some key, cap1 := cap, phase := .run } ∧ (∀ m, m ≠ n → jobAt t m = jobAt s m) ∧
        t = { s with jobs := t.jobs, kc := t.kc, lanes := t.lanes }))

/-- R62, R150, R151, R186, R370 of 08: RESULT_FINAL of a job of this member. Its leaf is built and counted. With DONE the next
member of its chain begins step 4; with another status every later member whose result is not final ends ABORTED (0x4001). -/
def Obligations.ResultFinal : Prop :=
  ∀ (n : Nat) (j : Job) (s : State), Legal s → jobAt s n = some j → j.phase = .final → j.origin = none → j.fwdId = none →
    (j.status = 0 → nextMember s n j = none → ∃ t, exec (.resultFinal n) s = .next t ∧
      jobAt t n = some { j with
        phase := .leafBuilt, chan := some (j.chan.getD (ringAt s (ringKey j.inst j.ring)).intake)
        leaf := buildLeaf s j (j.chan.getD (ringAt s (ringKey j.inst j.ring)).intake) (selfMember s) false } ∧
      (portAt t (j.chan.getD (ringAt s (ringKey j.inst j.ring)).intake)).built =
        (portAt s (j.chan.getD (ringAt s (ringKey j.inst j.ring)).intake)).built + 1 ∧
      (∀ m, m ≠ n → jobAt t m = jobAt s m) ∧ t = { s with jobs := t.jobs, audit := t.audit }) ∧
    (j.status ≠ 0 → ∃ t, exec (.resultFinal n) s = .next t ∧
      (∀ m k, n < m → jobAt s m = some k → k.first = j.first → undecided k = true →
        jobAt t m = some { k with phase := .final, status := 0x4001 }) ∧
      (∀ m k, m ≠ n → jobAt s m = some k → (m < n ∨ k.first ≠ j.first ∨ undecided k = false) → jobAt t m = some k) ∧
      t = { s with jobs := t.jobs, audit := t.audit })

/-- R63, R64, R133, R153, R156, R161: COMPLETION_WRITE. Of a chain whose members are all committed, with bus mastering on and
the generation of its ring, each member's output, then the bytes 1 to 63 of its entry, then byte 0 are written, FIRST last; a
member whose status is not committed, or an instance that may not write, leaves everything; a job of an earlier generation is
retired and writes nothing. R63, R133, R188: OUTPUT_SEGMENT_WRITE of a streamed job writes the output produced so far at
OUT_PTR plus what has been written; a job of an earlier generation is marked and writes nothing. The model's choice: that an
event whose condition does not hold changes nothing (log 3), the order of what is put out (log 5). -/
def Obligations.CompletionAndSegmentWrites : Prop :=
  (∀ (n : Nat) (j : Job) (s : State), Legal s → jobAt s n = some j → kcDraining s.kc = false →
    (chainOf s j = [(n, j)] → j.origin = none → j.phase = .committed → bmeNow s j.inst = true → j.genFailed = false →
      j.gen = (instAt s j.inst).gen → eIrq j.entry = false → (ringAt s (ringKey j.inst j.ring)).every = false →
      j.engines = [] → j.streamed = 0 → j.out ≠ [] →
      ∃ t, exec (.completionWrite n) s = .next t ∧ jobAt t n = none ∧
        t.out = s.out ++ [.hostWrite (instAt s j.inst).port (eOutPtr j.entry) j.out,
          .hostWrite (instAt s j.inst).port (entryAddr s j + 1) ((completion j).drop 1),
          .hostWrite (instAt s j.inst).port (entryAddr s j) ((completion j).take 1)]) ∧
    (chainOf s j = [(n, j)] → j.origin = none → j.phase = .committed → bmeNow s j.inst = true →
      j.gen ≠ (instAt s j.inst).gen → j.engines = [] → ∃ t, exec (.completionWrite n) s = .next t ∧ jobAt t n = none ∧ t.out = s.out) ∧
    (j.origin ≠ none ∨ bmeNow s j.inst = false ∨ (∃ m k, (m, k) ∈ chainOf s j ∧ k.phase ≠ .committed) →
      exec (.completionWrite n) s = .next s)) ∧
  (∀ (n : Nat) (j : Job) (s : State), jobAt s n = some j → streams j = true → (j.phase = .nextSegment ∨ j.phase = .run) →
    j.origin = none → bmeNow s j.inst = true → j.streamed < j.out.length → j.genFailed = false →
    (j.gen = (instAt s j.inst).gen → exec (.outputSegmentWrite n) s = .next (modJob (emit s (.hostWrite (instAt s j.inst).port
      (eOutPtr j.entry + j.streamed) (j.out.drop j.streamed))) n fun j => { j with streamed := j.out.length })) ∧
    (j.gen ≠ (instAt s j.inst).gen → exec (.outputSegmentWrite n) s = .next (modJob s n fun j => { j with genFailed := true })))

/-! ### Step 6: what the opcodes compute (04_transaction_jobs.md, 08, 10, 11) -/

/-- R226 to R237, R246 to R249, R403, R405 of 08: key jobs and service jobs in step 6. GENERATE takes LEN bits of key material
from its draw and answers the block under the current KBPK with key check value and digest; IMPORT unwraps the subject and
writes it again; TRANSLATE_KEYBLOCK writes a record or a block again; EXPORT_UNDER_KEK writes a version D block under the
second key; KCV answers the key check value; HASH, GET_RANDOM and NOP_FENCE answer digest, drawn bytes and nothing;
AUDIT_PROOF reads its leaf-map entry, then the seal-table entry and nodes, then writes the proof. `finishJob` ends the job
with these bytes. R228, R234 to R237, R439, R450: the key jobs that run on a Sail engine, here the channel's first narrow one,
which is free. The engine counts the command and is released and wipes; without a RUNNING engine that the job may use the job
ends 0x5001. The model's choice: opaque primitives (log 10), one draw for material and padding (log 27), the engine claimed
and released within the command (log 39). -/
def Obligations.KeyServiceAndEngineJobs : Prop :=
  (∀ (n : Nat) (j : Job) (s : State),
    (OpReady 0x0401 s n j → noWriteKey s j = 0 → j.rand ≠ [] → exec (.generate n) s = .next (finishJob s n j
      (blockEnd s j (template j.entry) (j.rand.take (field j.entry 48 2 / 8)) (j.rand.drop (field j.entry 48 2 / 8)) []))) ∧
    (OpReady 0x0403 s n j → noWriteKey s j = 0 → subjectAlgBad j = false → j.rand ≠ [] → ∀ k, openSubject j = .key k →
      exec (.importKey n) s = .next (finishJob s n j (blockEnd s j k.desc k.material j.rand []))) ∧
    (OpReady 0x0404 s n j → noWriteKey s j = 0 → j.rand ≠ [] → (key1Of j).desc.isRecord = false →
      exec (.translateKeyblock n) s =
        .next (finishJob s n j (blockEnd s j (key1Of j).desc (key1Of j).material j.rand []))) ∧
    (OpReady 0x0404 s n j → noWriteKey s j = 0 → j.rand ≠ [] → (key1Of j).desc.isRecord = true →
      exec (.translateKeyblock n) s = .next (finishJob s n j
        { out := writeRecord ((writeKey s j).getD 0) j.genCur j.inst (key1Of j).desc (key1Of j).material (j.rand.take 12) })) ∧
    (OpReady 0x0405 s n j → j.rand ≠ [] → ∃ b, b = writeBlock (key2Of j).material (keyKcv (code1 'A') (key2Of j).material 5)
        (key1Of j).desc (key1Of j).material j.rand ∧
      exec (.exportUnderKek n) s = .next (finishJob s n j
        { result := blockResult (key1Of j).desc.alg (key1Of j).material b, out := b })) ∧
    (OpReady 0x0406 s n j → exec (.kcv n) s = .next (finishJob s n j
      { result := keyKcv (key1Of j).desc.alg (key1Of j).material (if (key1Of j).desc.alg = code1 'T' then 3 else 5) })) ∧
    (OpReady 0x0505 s n j → hashOut j.entry ≤ 44 → exec (.hash n) s = .next (countLane (finishJob s n j
      { result := Config.out (hashPrim (ePar j.entry 40)) [j.input] (hashOut j.entry) }) j j.input.length 0)) ∧
    (OpReady 0x0505 s n j → 44 < hashOut j.entry → exec (.hash n) s = .next (countLane (finishJob s n j
      { out := Config.out (hashPrim (ePar j.entry 40)) [j.input] (hashOut j.entry) }) j j.input.length 0)) ∧
    (OpReady 0x0601 s n j → j.rand ≠ [] → exec (.getRandom n) s = .next (finishJob s n j { out := j.rand })) ∧
    (OpReady 0x0603 s n j → exec (.nopFence n) s = .next (finishJob s n j {})) ∧
    (OpReady 0x0602 s n j → j.proof = [] → proofPre s j = 0 →
      exec (.auditProof n) s = .next (modJob s n fun j => { j with phase := .readProof })) ∧
    (OpReady 0x0602 s n j → j.proof = [] → proofPre s j ≠ 0 → exec (.auditProof n) s = .next (failJob s n (proofPre s j))) ∧
    (OpReady 0x0602 s n j → ∀ m b, j.proof = [m, b] → proofEntryBad j m b = false →
      exec (.auditProof n) s = .next (finishJob s n j { out := proofOut j b })) ∧
    (OpReady 0x0401 s n j ∨ OpReady 0x0403 s n j ∨ OpReady 0x0404 s n j → noWriteKey s j ≠ 0 →
      exec (if eOp j.entry = 0x0401 then .generate n else if eOp j.entry = 0x0403 then .importKey n else .translateKeyblock n) s =
        .next (failJob s n (noWriteKey s j)))) ∧
  (∀ (n c : Nat) (j : Job) (s : State), j.chan = some c → engineFree s j (chanPage c + 5) = true →
    (OpReady 0x0402 s n j → noWriteKey s j = 0 → j.rand ≠ [] → ∃ m, m = newMaterial (ePar j.entry 40) (j.rand.take 64) ∧
      exec (.generatePair n) s = .next (releaseEngine (finishJob s n j (recordEnd s j
        { isRecord := true, alg := ePar j.entry 40, mode := 1, recUsage := field j.entry 42 2, flags := 3, created := position s
          origin := deviceFp } m (j.rand.drop 64) (pubOf (ePar j.entry 40) m))) (chanPage c + 5))) ∧
    (OpReady 0x0407 s n j → noWriteKey s j = 0 → pubValid (ePar j.entry 40) j.input = true → j.rand ≠ [] →
      exec (.importPublic n) s = .next (releaseEngine (finishJob s n j (recordEnd s j
        { isRecord := true, alg := ePar j.entry 40, mode := 2, recUsage := field j.entry 42 2, flags := 4, created := position s
          origin := zeros 24 } j.input j.rand [])) (chanPage c + 5))) ∧
    (OpReady 0x0407 s n j → noWriteKey s j = 0 → pubValid (ePar j.entry 40) j.input = false →
      exec (.importPublic n) s = .next (failJob s n 0x2007)) ∧
    (OpReady 0x0408 s n j → exec (.publicKey n) s = .next (releaseEngine (finishJob s n j
      { out := if (key1Of j).desc.mode = 2 then (key1Of j).material else pubOf (key1Of j).desc.alg (key1Of j).material })
      (chanPage c + 5))) ∧
    (OpReady 0x0409 s n j → noWriteKey s j = 0 → j.rand ≠ [] → exec (.encapsulate n) s = .next (releaseEngine (finishJob s n j
      (blockEnd s j (template j.entry)
        (Config.out .kemShared [[BitVec.ofNat 8 (key1Of j).desc.alg], recordPub (key1Of j), j.rand.take 32] 32) (j.rand.drop 32)
        (Config.out .kemEncaps [[BitVec.ofNat 8 (key1Of j).desc.alg], recordPub (key1Of j), j.rand.take 32]
          (kemLen (key1Of j).desc.alg)))) (chanPage c + 5))) ∧
    (OpReady 0x040A s n j → noWriteKey s j = 0 → j.input.length = kemLen (key1Of j).desc.alg → j.rand ≠ [] →
      exec (.decapsulate n) s = .next (releaseEngine (finishJob s n j (blockEnd s j (template j.entry)
        (Config.out .kemDecaps [[BitVec.ofNat 8 (key1Of j).desc.alg], (key1Of j).material, j.input] 32) j.rand []))
        (chanPage c + 5))) ∧
    (OpReady 0x040A s n j → noWriteKey s j = 0 → j.input.length ≠ kemLen (key1Of j).desc.alg →
      exec (.decapsulate n) s = .next (failJob s n 0x1008)))

/-- R209 to R225, R243 to R245: PIN, card-cryptogram, MAC and token jobs in step 6, whose input passes the bulk lane. A check
that fails ends the job with its status; a comparison that fails ends it with 0x3003, 0x3004 or 0x3005. The model's choice:
opaque primitives (log 10), the length of the BDK (log 29), ARPC with AES (log 35), the bound on FF1 (log 36). -/
def Obligations.PaymentJobs : Prop :=
  ∀ (n : Nat) (j : Job) (s : State),
    (OpReady 0x0201 s n j → pinPre j (fun _ => true) false (key1Of j) 0 = 0 → (ePar j.entry 49 ≠ 0 → j.rand ≠ []) →
      exec (.translatePin n) s = .next (countLane (finishJob s n j
        { result := buildBlock (ePar j.entry 49) (key2Of j) (jobPin j (key1Of j)) (pinPan j) j.rand }) j j.input.length 0)) ∧
    (OpReady 0x0201 s n j → pinPre j (fun _ => true) false (key1Of j) 0 ≠ 0 →
      exec (.translatePin n) s = .next (failJob s n (pinPre j (fun _ => true) false (key1Of j) 0))) ∧
    (OpReady 0x0202 s n j → pinPre j offsetText false (key1Of j) (ePar j.entry 51) = 0 →
      asciiDigits (offsetOf j) = givenOffset j →
      exec (.verifyPinOffset n) s = .next (countLane (finishJob s n j {}) j j.input.length 0)) ∧
    (OpReady 0x0202 s n j → pinPre j offsetText false (key1Of j) (ePar j.entry 51) = 0 →
      asciiDigits (offsetOf j) ≠ givenOffset j →
      exec (.verifyPinOffset n) s = .next (countLane (finishJob s n j { status := 0x3003 }) j j.input.length 0x3003)) ∧
    (OpReady 0x0203 s n j → pinPre j offsetText false (key1Of j) (ePar j.entry 51) = 0 →
      exec (.generatePinOffset n) s = .next (countLane (finishJob s n j { result := asciiDigits (offsetOf j) })
        j j.input.length 0)) ∧
    (OpReady 0x0204 s n j → pinPre j (fun _ => true) (ksnAesBad j.entry) (dukptAesKey j) 0 = 0 →
      (ePar j.entry 49 ≠ 0 → j.rand ≠ []) → exec (.dukptTranslatePinAes n) s = .next (countLane (finishJob s n j
        { result := buildBlock (ePar j.entry 49) (key2Of j) (jobPin j (dukptAesKey j)) (pinPan j) j.rand })
        j j.input.length 0)) ∧
    (OpReady 0x0205 s n j → pinPre j (fun _ => true) (ksnTdeaBad j.entry) (dukptTdeaKey j) 0 = 0 →
      (ePar j.entry 49 ≠ 0 → j.rand ≠ []) → exec (.dukptTranslatePinTdea n) s = .next (countLane (finishJob s n j
        { result := buildBlock (ePar j.entry 49) (key2Of j) (jobPin j (dukptTdeaKey j)) (pinPan j) j.rand })
        j j.input.length 0)) ∧
    (OpReady 0x0301 s n j → cardPre j = 0 → arqcOk j = true →
      exec (.arqcVerify n) s = .next (countLane (finishJob s n j {}) j j.input.length 0)) ∧
    (OpReady 0x0301 s n j → cardPre j = 0 → arqcOk j = false →
      exec (.arqcVerify n) s = .next (countLane (finishJob s n j { status := 0x3005 }) j j.input.length 0x3005)) ∧
    (OpReady 0x0302 s n j → cardPre j = 0 →
      exec (.arpcGenerate n) s = .next (countLane (finishJob s n j { result := arpc j }) j j.input.length 0)) ∧
    (OpReady 0x0303 s n j → cardPre j = 0 → arqcOk j = true →
      exec (.arqcVerifyArpc n) s = .next (countLane (finishJob s n j { result := arpc j }) j j.input.length 0)) ∧
    (OpReady 0x0303 s n j → cardPre j = 0 → arqcOk j = false →
      exec (.arqcVerifyArpc n) s = .next (countLane (finishJob s n j { status := 0x3005 }) j j.input.length 0x3005)) ∧
    (OpReady 0x0304 s n j → macPre j = 0 →
      exec (.macGenerate n) s = .next (countLane (finishJob s n j { result := macOf j j.input }) j j.input.length 0)) ∧
    (OpReady 0x0305 s n j → macPre j = 0 → macOf j (j.input.drop (ePar j.entry 40)) = j.input.take (ePar j.entry 40) →
      exec (.macVerify n) s = .next (countLane (finishJob s n j {}) j j.input.length 0)) ∧
    (OpReady 0x0305 s n j → macPre j = 0 → macOf j (j.input.drop (ePar j.entry 40)) ≠ j.input.take (ePar j.entry 40) →
      exec (.macVerify n) s = .next (countLane (finishJob s n j { status := 0x3004 }) j j.input.length 0x3004)) ∧
    (OpReady 0x0503 s n j → j.input.all isDec = true → exec (.tokenise n) s = .next (countLane (finishJob s n j
      { result := asciiDigits (withMiddle j (ff1Loop false j 4096 (middle j))) }) j j.input.length 0)) ∧
    (OpReady 0x0504 s n j → j.input.all isDec = true → (ePar j.entry 42 = 1 → luhn (digitsOf j.input) = false) →
      exec (.detokenise n) s = .next (countLane (finishJob s n j
        { result := asciiDigits (withMiddle j (ff1Loop true j 4096 (middle j))) }) j j.input.length 0)) ∧
    (OpReady 0x0504 s n j → (j.input.all isDec = false ∨ (ePar j.entry 42 = 1 ∧ luhn (digitsOf j.input) = true)) →
      exec (.detokenise n) s = .next (countLane (finishJob s n j { status := 0x100B }) j j.input.length 0x100B))

/-! ### Signatures (10_signature_pipeline.md) and bulk lanes (11_bulk_lanes.md) -/

/-- R197 to R207, R297, R453 to R457: signature jobs reach their cross-check or wait to be gathered. SIGN, ready and with a
free engine, makes its signature, of which the other half holds a copy to check; its result is not final before that check.
Without a RUNNING channel in the other half it ends 0x5002. ATTEST_KEY signs its statement with both identity keys, and is
refused with 0x6001 while the lifecycle is FACTORY or RETURNED. VERIFY and VERIFY_BATCH wait with their checks passed. R457,
R463 to R475: what the engines of the pipeline do. CHECK_FORM gives the group of waiting own signatures to a free engine and
begins one evaluation; VERIFY_GATHER takes the first verification job that waits in its channel, one that fails decoding ends 0x3001 at once; EVALUATION_COMPLETE releases
an own signature whose equation holds and decides a received one by it, halving a failed group; ARBITRATION_COMPLETE signs
again and charges the engine that was wrong: the signer when the signature fails, else the checker. The model's choice: that
an event whose condition does not hold changes nothing (log 3), signatures of the device that verify unless told otherwise
(log 13), draws within the command (log 37). -/
def Obligations.SignatureJobsAndPipeline : Prop :=
  (∀ (n c : Nat) (j : Job) (s : State), j.chan = some c →
    (OpReady 0x0101 s n j → signPre j = 0 → sigLen (sigAlg j) ≤ eOutCap j.entry → ePar j.entry 48 = 0 →
      halfRuns s (1 - halfOf c) = true → j.rand ≠ [] → engineFree s j (chanPage c + 5) = true →
      (signature (sigAlg j) (key1Of j).material (sigMessage j.entry (j.input.take (ePar j.entry 44))
        (j.input.drop (ePar j.entry 44))) j.rand).length = sigLen (sigAlg j) →
      ∃ t o, exec (.sign n) s = .next t ∧ t.sig.own = tput s.sig.own s.sig.nextOwn o ∧ o.owner = .job n ∧
        o.half = 1 - halfOf c ∧ o.signer = chanPage c + 5 ∧ o.pub = recordPub (key1Of j) ∧
        ∃ k, jobAt t n = some k ∧ k.phase = .crossCheck ∧ k.out = o.sig ∧ undecided k = true) ∧
    (OpReady 0x0101 s n j → signPre j ≠ 0 → exec (.sign n) s = .next (failJob s n (signPre j))) ∧
    (OpReady 0x0101 s n j → signPre j = 0 → sigLen (sigAlg j) ≤ eOutCap j.entry → halfRuns s (1 - halfOf c) = false →
      exec (.sign n) s = .next (failJob s n 0x5002)) ∧
    (OpReady 0x0104 s n j → 88 + (recordPub (key1Of j)).length + 4723 ≤ eOutCap j.entry → lifecycle s ≠ 0 → lifecycle s ≠ 3 →
      ∀ h, keelHalf s = some h → ∃ t k, exec (.attestKey n) s = .next t ∧ jobAt t n = some k ∧ k.phase = .crossCheck ∧
        k.outLen = 88 + (recordPub (key1Of j)).length + 4723 ∧ k.out.take (attestBody s j).length = attestBody s j ∧
        t.sig.nextOwn = s.sig.nextOwn + 2) ∧
    (OpReady 0x0104 s n j → 88 + (recordPub (key1Of j)).length + 4723 ≤ eOutCap j.entry → (lifecycle s = 0 ∨ lifecycle s = 3) →
      exec (.attestKey n) s = .next (failJob s n 0x6001)) ∧
    (OpReady 0x0102 s n j → verifyPre j = 0 → exec (.verify n) s = .next (modJob s n fun j => { j with phase := .verify })) ∧
    (OpReady 0x0102 s n j → verifyPre j ≠ 0 → exec (.verify n) s = .next (failJob s n (verifyPre j))) ∧
    (OpReady 0x0103 s n j → batchPre j = 0 →
      exec (.verifyBatch n) s = .next (modJob s n fun j => { j with phase := .verify })) ∧
    (OpReady 0x0103 s n j → batchPre j ≠ 0 → exec (.verifyBatch n) s = .next (failJob s n (batchPre j)))) ∧
  (∀ (p : Nat) (s : State), Legal s →
    (checksNow s p = true → drbgReady s (chanOf p) = true → ∀ e rest, waitingOwn s (halfOf (chanOf p)) p = e :: rest →
      ∃ t v, exec (.checkForm p) s = .next t ∧ tfind t.sig.evals p = some v ∧
        v.groups = [(checkGroup (buildTable s p e.2 (e :: rest)) p (e :: rest)).map Member.own] ∧
        (tget {} t.sails p).estate = .busy ∧ t.jobs = s.jobs) ∧
    (checksNow s p = true → isWide p = false → ∀ n j rest,
      (verifyJobs s (chanOf p)).filter (needsGather s) = (n, j) :: rest → jobAt s n = some j → j.excluded.contains p = false →
      eOp j.entry = 0x0102 → gatherable j = false →
      (deadClaim (verifyClaim j) = false →
        ∃ t v, exec (.verifyGather p) s = .next t ∧ tfind t.sig.evals p = some v ∧ v.groups = [[Member.verify n]] ∧
          v.single = true ∧ (tget {} t.sails p).estate = .busy ∧ t.jobs = s.jobs) ∧
      (deadClaim (verifyClaim j) = true → exec (.verifyGather p) s = .next (endJob s n 0x3001 [] [] 0))) ∧
    (checksNow s p = false → exec (.checkForm p) s = .next s ∧ exec (.verifyGather p) s = .next s) ∧
    (∀ n j b, tfind s.sig.evals p = some { groups := [[.verify n]], single := true } → jobAt s n = some j → j.phase = .verify →
      b = (memberHolds s true (.verify n)) →
      ∃ t, exec (.evaluationComplete p false) s = .next t ∧ tfind t.sig.evals p = tfind (tdel s.sig.evals p) p ∧
        (jobAt t n).map (·.status) = some (if b then 0 else 0x3001) ∧ (jobAt t n).map (·.phase) = some .final) ∧
    (∀ k o n j, tfind s.sig.evals p = some { groups := [[.own k]], single := true } → tfind s.sig.own k = some o →
      o.owner = .job n → jobAt s n = some j → j.phase = .crossCheck →
      (∃ t, exec (.evaluationComplete p false) s = .next t ∧ (jobAt t n).map (·.phase) = some .final ∧
        (jobAt t n).map (·.status) = some 0) ∧
      (∃ t o', exec (.evaluationComplete p true) s = .next t ∧ tfind t.sig.own k = some o' ∧ o'.foundBy = some p ∧
        (jobAt t n).map (·.phase) = some .crossCheck)) ∧
    (∀ k o found, s.sig.own.find? (fun e => mayArbitrate s e.2 p || noArbiter s e.2) = some (k, o) → noArbiter s o = false →
      o.foundBy = some found → ∃ s', s' = putHalf s (halfOf (chanOf p)) { halfAt s (halfOf (chanOf p)) with
        evals := (halfAt s (halfOf (chanOf p))).evals + 1 } ∧
      exec (.arbitrationComplete p true) s = .next (chargeMismatch (resign s' k o) o.signer false) ∧
      exec (.arbitrationComplete p false) s = .next (chargeMismatch (resign s' k o) found true)))

/-- R238 to R242, R489 to R497: ENCRYPT and DECRYPT on one lane give the text of their mode, the tag after it or checked, and
count their bytes; output space is checked before any work. A lane of a split returns its stripe, and the last stripe ends the
segment. R107, R498 to R501: the commands of a lane at the expert level. A command starts while the lane is not BUSY and is
dropped with OVERRUN while it is; a fed word adds its bytes up to XLEN; the end of a command sets RESULT and the lane's event,
a failed self-test also the failure event; an accessor that does not reach the lane changes nothing. The model's choice: that
an event whose condition does not hold changes nothing (log 3), opaque primitives (log 10). -/
def Obligations.BulkCipherJobsAndLanes : Prop :=
  (∀ (n c : Nat) (j : Job) (s : State), j.chan = some c → (laneAt s c).job = none →
    (OpReady 0x0501 s n j → cryptPre j = 0 → dataLen j + tagBytes j ≤ eOutCap j.entry →
      (bit (ePar j.entry 43) 0 = true → j.rand ≠ []) → splits false j = false →
      ∃ t, exec (.encrypt n) s = .next (countLane t j (segData j) (((jobAt t n).map (·.status)).getD 0)) ∧
        t = finishJob s n j (cryptEnd false j)) ∧
    (OpReady 0x0502 s n j → cryptPre j = 0 → dataLen j ≤ eOutCap j.entry →
      (bit (ePar j.entry 43) 0 = true → j.rand ≠ []) → splits true j = false →
      ∃ t, exec (.decrypt n) s = .next (countLane t j (segData j) (((jobAt t n).map (·.status)).getD 0)) ∧
        t = finishJob s n j (cryptEnd true j)) ∧
    (OpReady 0x0501 s n j → cryptPre j ≠ 0 → exec (.encrypt n) s = .next (failJob s n (cryptPre j))) ∧
    (OpReady 0x0502 s n j → cryptPre j ≠ 0 → exec (.decrypt n) s = .next (failJob s n (cryptPre j))) ∧
    (OpReady 0x0501 s n j → cryptPre j = 0 → eOutCap j.entry < dataLen j + tagBytes j →
      exec (.encrypt n) s = .next (endJob s n 0x1006 [] (j.out.take j.streamed) (dataLen j + tagBytes j))) ∧
    (∀ i b rest, (laneAt s c).split = some { job := n, stripes := b, left := [(i, c)] ++ rest } →
      jobAt s n = some j → rest ≠ [] → (rest.all fun x => decide (x.1 ≠ i)) = true →
      ∃ l, l = { laneAt s c with bytes := ((laneAt s c).bytes + stripeLen j i) % 2 ^ 64 } ∧
      (Legal s → exec (.stripeComplete c i) s =
        .next (putLane s c { l with split := some { job := n, stripes := b, left := rest } })))) ∧
  (∀ (acc : Acc) (c param pass : Nat) (v : Word32) (s : State),
    (laneExpert s acc c = true → (laneAt s c).busy = false →
      exec (.hashStart acc c param) s = .next (putLane s c { laneAt s c with
        op := 0x01, param := param % 256, busy := true, fed := [], hashing := (hashLen (param % 256)).isSome }) ∧
      exec (.hashEnd acc c) s = .next (putLane s c { laneAt s c with op := 0x02, busy := true }) ∧
      exec (.selftest acc c param) s = .next (putLane s c { laneAt s c with op := 0x10, param := param % 256, busy := true }) ∧
      exec (.selftestAll acc c) s = .next (putLane s c { laneAt s c with op := 0x11, param := 0, busy := true })) ∧
    (laneExpert s acc c = true → (laneAt s c).busy = true →
      exec (.hashStart acc c param) s = .next (putLane s c { laneAt s c with overrun := true }) ∧
      exec (.hashEnd acc c) s = .next (putLane s c { laneAt s c with overrun := true }) ∧
      exec (.selftest acc c param) s = .next (putLane s c { laneAt s c with overrun := true }) ∧
      exec (.selftestAll acc c) s = .next (putLane s c { laneAt s c with overrun := true })) ∧
    (laneExpert s acc c = true → (laneAt s c).hashing = true → (laneAt s c).fed.length + 4 ≤ (laneAt s c).xlen.toNat →
      exec (.bulkFeed acc c v) s = .next (putLane s c { laneAt s c with
        fed := (laneAt s c).fed ++ le 4 v.toNat, bytes := ((laneAt s c).bytes + 4) % 2 ^ 64 })) ∧
    (laneExpert s acc c = true → ((laneAt s c).hashing = false ∨ (laneAt s c).xlen.toNat ≤ (laneAt s c).fed.length) →
      exec (.bulkFeed acc c v) s = .next (putLane s c { laneAt s c with overrun := true })) ∧
    ((laneAt s c).busy = true → (laneAt s c).op = 0x10 → (laneAt s c).param < 10 → bit pass (laneAt s c).param = true →
      exec (.bulkCmdDone c pass) s = .next (setEvent (putLane s c { laneAt s c with
        busy := false, result := 0
        pass := ((laneAt s c).pass &&& (1023 - 2 ^ (laneAt s c).param)) + 2 ^ (laneAt s c).param }) (lanePage c) 16)) ∧
    ((laneAt s c).busy = true → (laneAt s c).op = 0x11 → pass < 1023 →
      exec (.bulkCmdDone c pass) s = .next (setEvent (setEvent (putLane s c { laneAt s c with
        busy := false, result := 2, pass := pass }) (lanePage c) 16) (lanePage c) 17)) ∧
    (laneExpert s acc c = false →
      exec (.hashStart acc c param) s = .next s ∧ exec (.bulkFeed acc c v) s = .next s ∧ exec (.hashEnd acc c) s = .next s ∧
      exec (.selftest acc c param) s = .next s ∧ exec (.selftestAll acc c) s = .next s))

/-! ### Audit log (08_audit_log.md) -/

/-- R370, R377 to R380, R382, R389, R394 to R397, R402, R407: the commands of the audit unit. LEAF_COMMIT of a built leaf
gives the next SEQ, stamps the leaf and writes its ring slot, unless it must wait; SEAL_WRITE writes the front seal with its
chained hash and covers its leaves; KEY_RECORD_WRITE takes the front key record; AUD_RING_RD moves only as far as WR; the
configuration is written while the ring is off, and enabling checks it. The model's choice: that an event whose condition does
not hold changes nothing (log 3), the seal's own signature passing its check (log 13). -/
def Obligations.AuditUnit : Prop :=
  ∀ (acc : Acc) (n i : Nat) (j : Job) (s : State),
    (jobAt s n = some j → j.phase = .leafBuilt → j.inst = i → chainWaits s n j = false → firingsDue s i = false →
      commitWaits s i = false →
      exec (.leafCommit n) s = .next (ackForwards (noteRingWait (commitLeaf s n j) i)) ∧
      ((logAt s i).seqNext + 1 < 2 ^ 48 → jobAt (commitLeaf s n j) n = some { j with
        phase := .committed, seq := (logAt s i).seqNext, leaf := stampLeaf s i (logAt s i).seqNext j.leaf })) ∧
    (jobAt s n = some j → j.phase = .leafBuilt → chainWaits s n j = true ∨ firingsDue s j.inst = true →
      exec (.leafCommit n) s = .next (ackForwards s)) ∧
    (∀ x rest k, (logAt s i).seals = x :: rest → sealXchk s = some k → ringTakes s (logAt s i) 4 = true →
      (logAt s i).keyRecs = [] → (logAt s i).psEn = false →
      ∃ t, exec (.sealWrite i) s = .next t ∧ (logAt t i).seals = rest ∧
        (logAt t i).prev = sha256 (sealBody i k (x.startPrev.getD (logAt s i).prev) x) ∧
        (x.ended = false → (logAt t i).covered = x.first + x.count) ∧ t.jobs = s.jobs ∧ t.kc = s.kc) ∧
    (∀ r rest, (logAt s i).keyRecs = r :: rest → ringTakes s (logAt s i) 80 = true → halfRuns s 0 = true ∨ halfRuns s 1 = true →
      ∃ t, exec (.keyRecordWrite i) s = .next t ∧ (logAt t i).keyRecs = rest ∧ t.jobs = s.jobs ∧ t.kc = s.kc) ∧
    ((logAt s i).seals = [] → exec (.sealWrite i) s = .next s) ∧
    ((logAt s i).keyRecs = [] → exec (.keyRecordWrite i) s = .next s) ∧
    (∀ v : Word32, reaches s acc auditPage = true →
      ((v.toNat + 2 ^ 32 - (logAt s (audSel s acc)).rd) % 2 ^ 32 ≤
        ((logAt s (audSel s acc)).wr + 2 ^ 32 - (logAt s (audSel s acc)).rd) % 2 ^ 32 →
        exec (.audRingRdWrite acc v) s = .next (noteRingWait
          (putLog s (audSel s acc) { logAt s (audSel s acc) with rd := v.toNat }) (audSel s acc))) ∧
      (((logAt s (audSel s acc)).wr + 2 ^ 32 - (logAt s (audSel s acc)).rd) % 2 ^ 32 <
        (v.toNat + 2 ^ 32 - (logAt s (audSel s acc)).rd) % 2 ^ 32 → exec (.audRingRdWrite acc v) s = .next s)) ∧
    (∀ v : Word32, reaches s acc auditPage = true → (logAt s (audSel s acc)).ringEn = false →
      exec (.audRingConfigWrite acc 0x050 v) s = .next (putLog s (audSel s acc) { logAt s (audSel s acc) with
        ringLog2 := v.toNat % 32, wr := 0, rd := 0 })) ∧
    (∀ v : Word32, reaches s acc auditPage = true → (logAt s (audSel s acc)).ringEn = true →
      exec (.audRingConfigWrite acc 0x050 v) s = .next s) ∧
    (∀ l, reaches s acc auditPage = true → l = logAt s (audSel s acc) → l.ringEn = false →
      (8 ≤ l.ringLog2 → l.ringLog2 ≤ 24 → l.ringBase + 64 * 2 ^ l.ringLog2 ≤ 2 ^ 64 →
        exec (.audRingEnable acc) s = .next (noteRingWait (putLog s (audSel s acc)
          { l with ringEn := true, everEnabled := true, cfgErr := false }) (audSel s acc))) ∧
      (l.ringLog2 < 8 ∨ 24 < l.ringLog2 → exec (.audRingEnable acc) s =
        .next (setEvent (putLog s (audSel s acc) { l with cfgErr := true }) auditPage 19))) ∧
    (∀ l, reaches s acc auditPage = true → l = logAt s (audSel s acc) → l.psEn = false →
      (16 ≤ l.psLog2 → l.psLog2 ≤ 32 → l.psBase + psSize l.psLog2 ≤ 2 ^ 64 → ∃ t, exec (.audPsEnable acc) s = .next t ∧
        (logAt t (audSel s acc)).psEn = true ∧ (logAt t (audSel s acc)).provFrom = l.seqNext ∧
        (logAt t (audSel s acc)).unprovBelow = l.sealNext ∧ t.jobs = s.jobs) ∧
      (l.psLog2 < 16 ∨ 32 < l.psLog2 → exec (.audPsEnable acc) s =
        .next (setEvent (putLog s (audSel s acc) { l with cfgErr := true }) auditPage 19))) ∧
    (reaches s acc auditPage = false → ∀ v o, exec (.audRingRdWrite acc v) s = .next s ∧
      exec (.audRingConfigWrite acc o v) s = .next s ∧ exec (.audRingEnable acc) s = .next s ∧
      exec (.audPsEnable acc) s = .next s)

/-! ### Random numbers (12_random_numbers.md) -/

/-- R505 to R527: the commands of the random-number units. The third failure in a row of a source retires it; a test passed
makes it HEALTHY; a block is released to the pool of at most 16 while two sources are HEALTHY; the first waiting request takes
its blocks; a SEEDED DRBG that is not at its limit delivers to the front request and counts the call; a reseed is demanded
once. The model's choice: that an event whose condition does not hold changes nothing (log 3), free values for random bytes
(log 9). -/
def Obligations.RandomNumbers : Prop :=
  ∀ (acc : Acc) (i d : Nat) (apt : Bool) (s : State), Legal s → i < 4 → d < 34 →
    ((sourceAt s i).state = .startup ∨ (sourceAt s i).state = .retest →
      ∃ t, exec (.sourceTestPass i) s = .next t ∧ (sourceAt t i).state = .healthy ∧ (∀ k, k ≠ i → sourceAt t k = sourceAt s k) ∧
        t.jobs = s.jobs) ∧
    ((sourceAt s i).state = .healthy →
      exec (.failRunReset i) s = .next (putSource s i { sourceAt s i with failRun := 0 })) ∧
    ((sourceAt s i).state = .healthy → healthySources s = 4 → s.rng.pool = [] → (∀ k, affectedBy s i k = false) →
      (sourceAt s i).failRun = 0 →
      ∃ t, exec (.sourceHealthFailure i apt) s = .next t ∧ (sourceAt t i).state = .retest ∧ (sourceAt t i).failRun = 1 ∧
        (sourceAt t i).lastApt = apt ∧ (∀ k, k ≠ i → sourceAt t k = sourceAt s k)) ∧
    ((sourceAt s i).state = .retired → exec (.sourceHealthFailure i apt) s = .next s) ∧
    ((sourceAt s i).state = .healthy → 2 ≤ healthySources s → s.rng.gathered = true → s.rng.pool.length < 16 →
      exec (.seedBlockRelease i) s = .next { s with rng := { s.rng with
        pool := s.rng.pool ++ [(i, s.cycles)], blocks := s.rng.blocks + 1 } }) ∧
    ((sourceAt s i).state ≠ .healthy ∨ healthySources s < 2 → exec (.seedBlockRelease i) s = .next s) ∧
    (firstRequest s.rng.requests = some (.instantiate d) → s.rng.gathered = true → 2 ≤ s.rng.pool.length →
      ∃ t, exec .seedRequestServe s = .next t ∧ (drbgAt t d).state = .seeded ∧ (drbgAt t d).calls = 0 ∧
        (drbgAt t d).seed = s.rng.pool.take 2 ∧ t.rng.pool = s.rng.pool.drop 2 ∧ t.jobs = s.jobs) ∧
    (∀ r rest, (drbgAt s d).state = .seeded → (drbgAt s d).atLimit = false → (drbgAt s d).queue = r :: rest →
      ∀ n j, r.for_ = .job n → jobAt s n = some j →
      ∃ t, exec (.drbgCallDeliver d) s = .next t ∧ (drbgAt t d).queue = rest ∧
        (∃ b, b.length = r.len ∧ jobAt t n = some { j with rand := b, waitRand := false }) ∧
        (∀ m, m ≠ n → jobAt t m = jobAt s m)) ∧
    ((drbgAt s d).queue = [] → exec (.drbgCallDeliver d) s = .next s) ∧
    (reaches s acc (drbgPage d) = true → (drbgAt s d).pending = false → (drbgAt s d).state = .seeded →
      exec (.reseed acc d) s =
        .next (postSeed (putDrbg s d { drbgAt s d with pending := true }) (.reseed d (drbgAt s d).atLimit))) ∧
    (reaches s acc (drbgPage d) = false ∨ (drbgAt s d).pending = true ∨ (drbgAt s d).state ≠ .seeded →
      exec (.reseed acc d) s = .next s)

/-! ### Tether and event table (06_tether.md) -/

/-- R303 to R314: pulses and numbers. A pulse held below 100 ns or early is a glitch; a pulse that is accepted leads to LOCKED
at its second, the position never going back; a number that comes with a good frame waits for the next pulse, a bad frame
counts; the slack leads to ADRIFT; a pulse of another source, or on a member that follows marks, is left. The model's choice:
that an event whose condition does not hold changes nothing (log 3), the time of an edge (log 98). -/
def Obligations.TetherPulses : Prop :=
  ∀ (acc : Acc) (rising bad : Bool) (held : Nat) (chars : Bytes) (v : Word32) (s : State), Legal s →
    (rising ≠ s.tether.ppsEdge → tetherSource s.tether ≠ 2 → followsBridle s = false → held < 100 →
      exec (.tetherPpsPulse rising held) s =
        .next { s with tether := { s.tether with glitch := sat 255 (s.tether.glitch + 1) } }) ∧
    (rising ≠ s.tether.ppsEdge → tetherSource s.tether ≠ 2 → followsBridle s = false → 100 ≤ held → slackUsed s = false →
      s.tether.state = .locked → s.cycles < s.tether.lastPulse + earlyCycles →
      (∀ x, s.tether.number = some x → x.2 + 250 ≤ s.cycles) →
      exec (.tetherPpsPulse rising held) s = .next { s with tether := { s.tether with glitch := sat 255 (s.tether.glitch + 1) } }) ∧
    (rising ≠ s.tether.ppsEdge → tetherSource s.tether ≠ 2 → followsBridle s = false → 100 ≤ held → slackUsed s = false →
      s.tether.state = .locked → s.tether.lastPulse + earlyCycles ≤ s.cycles → s.tether.number = none → s.tether.everPulsed = true →
      s.audit.logs = [] → isTetherRoot s = false →
      ∃ t, exec (.tetherPpsPulse rising held) s = .next t ∧ t.tether.state = .locked ∧ t.tether.lastSec = s.tether.lastSec + 1 ∧
        t.tether.lastPulse = s.cycles ∧ t.tether.interval = (s.cycles - s.tether.lastPulse) % 2 ^ 28 ∧
        position s ≤ t.tether.pos ∧ t = { s with tether := t.tether, mooring := t.mooring }) ∧
    (rising = s.tether.ppsEdge ∨ tetherSource s.tether = 2 ∨ followsBridle s = true →
      exec (.tetherPpsPulse rising held) s = .next s) ∧
    (tetherSource s.tether = 0 → bad = false → chars.length = 10 → chars.getD 0 0 = 0x54#8 →
      chars.getD 9 0 = crc8 (slice chars 1 8) → exec (.tetherTodFrame chars bad) s = .next { s with tether := { s.tether with
        number := some (unle (slice chars 1 8) % 2 ^ 64, s.cycles) } }) ∧
    (tetherSource s.tether = 0 → bad = true ∨ chars.length ≠ 10 ∨ chars.getD 0 0 ≠ 0x54#8 →
      exec (.tetherTodFrame chars bad) s = exec .todIdleExpiry s ∧
      exec .todIdleExpiry s = .next (setEvent { s with tether := { s.tether with
        todErr := sat 255 (s.tether.todErr + 1) } } 0x006 21)) ∧
    (reaches s acc 0x006 = true → tetherSource s.tether ≠ 0 → exec (.tetherNextSec acc v) s = .next { s with tether := { s.tether with
      nextSecLo := v, number := some ((v.toNat + 2 ^ 32 * s.tether.nextSecHi.toNat) % 2 ^ 64, s.cycles) } }) ∧
    (reaches s acc 0x006 = true → tetherSource s.tether = 2 → followsBridle s = false →
      exec (.tetherStrobe acc v) s = .next (pulse s none)) ∧
    (slackUsed s = true → ∃ t, exec .tetherAdrift s = .next t ∧ t.tether.state = .adrift ∧ t.tether.pos = position s ∧
      t.tether.number = none ∧ t.tether.adriftCount = sat 255 (s.tether.adriftCount + 1) ∧ t.jobs = s.jobs) ∧
    (slackUsed s = false → exec .tetherAdrift s = .next s) ∧
    (s.tether.catchup = true → catchupNow s = false →
      exec .catchupEnd s = .next { s with tether := { s.tether with catchup := false } }) ∧
    (∀ m second delay, lineUp s m = true → s.tether.lastMark ≠ some second → followsBridle s = true →
      ∃ s', s' = { received s m 2 with tether := { s.tether with lastMark := some second } } ∧
      exec (.tetherMark m second delay) s =
        .next (pulse (sendMarks s' (some m) second (delay + (lineAt s' m).delay)) (some second))) ∧
    (∀ m second delay, lineUp s m = false → exec (.tetherMark m second delay) s = .next s)

/-- R319 to R326: the event table. ARM checks the selected entry in order and arms it; DISARM and CLEAR make it EMPTY, but
others than firmware are refused on firmware's entries; an entry fires only when it is due and first among the due, becoming
DONE or, with a period, ARMED again above the position; a firing that cannot take effect makes it FAILED. The model's choice:
that an event whose condition does not hold changes nothing (log 3). -/
def Obligations.EventTable : Prop :=
  ∀ (acc : Acc) (n : Nat) (s : State), Legal s →
    (reaches s acc 0x006 = true →
      exec (.arm acc) s = .next (evtResult (if armCheck s acc (evtSel s acc) (evtAt s (evtSel s acc)) = 0 then
        putEvt s (evtSel s acc) { evtAt s (evtSel s acc) with state := .armed, fw := isFw acc } else s) acc
        (armCheck s acc (evtSel s acc) (evtAt s (evtSel s acc))))) ∧
    (reaches s acc 0x006 = true → fwOwned acc (evtSel s acc) (evtAt s (evtSel s acc)) = false →
      (evtAt s (evtSel s acc)).state = .armed →
      exec (.disarm acc) s =
        .next (evtResult (putEvt s (evtSel s acc) { evtAt s (evtSel s acc) with state := .empty }) acc 0)) ∧
    (reaches s acc 0x006 = true → fwOwned acc (evtSel s acc) (evtAt s (evtSel s acc)) = false →
      (evtAt s (evtSel s acc)).state ≠ .armed → exec (.disarm acc) s = .next (evtResult s acc 7)) ∧
    (reaches s acc 0x006 = true → fwOwned acc (evtSel s acc) (evtAt s (evtSel s acc)) = false →
      exec (.eventClear acc) s = .next (evtResult (putEvt s (evtSel s acc) {}) acc 0)) ∧
    (reaches s acc 0x006 = true → fwOwned acc (evtSel s acc) (evtAt s (evtSel s acc)) = true →
      exec (.disarm acc) s = .next (evtResult s acc 3) ∧ exec (.eventClear acc) s = .next (evtResult s acc 3)) ∧
    (reaches s acc 0x006 = false → exec (.arm acc) s = .next s ∧ exec (.disarm acc) s = .next s ∧
      exec (.eventClear acc) s = .next s) ∧
    (fires s n = true → s.power.state ≠ .idle → fireAction s (evtAt s n) (position s) = none →
      ∃ t, exec (.eventFire n) s = .next t ∧ (evtAt t n).state = .failed ∧ (evtAt t n).fired = position s ∧
        (∀ k, k ≠ n → evtAt t k = evtAt s k) ∧ t.jobs = s.jobs) ∧
    (fires s n = true → s.power.state = .run → (evtAt s n).action = 7 → ∃ t, exec (.eventFire n) s = .next t ∧
      (evtAt t n).fired = position s ∧ (∀ k, k ≠ n → evtAt t k = evtAt s k) ∧ t.jobs = s.jobs ∧
      ((evtAt s n).period = 0 → (evtAt t n).state = .done ∧ (evtAt t n).pos = (evtAt s n).pos) ∧
      ((evtAt s n).period ≠ 0 → position s + 2 ^ (evtAt s n).period < 2 ^ 64 → (evtAt t n).state = .armed ∧ position s < (evtAt t n).pos ∧
        (evtAt t n).pos ≤ position s + 2 ^ (evtAt s n).period ∧
        2 ^ (evtAt s n).period ∣ (evtAt t n).pos - (evtAt s n).pos)) ∧
    (fires s n = false → exec (.eventFire n) s = .next s) ∧
    (∀ i m, periodicDue s i = some m → s.events = [] → s.power.state ≠ .idle →
      exec (.periodicSealFire i) s =
        .next (putLog (makeSeal s i 1 m) i { logAt (makeSeal s i 1 m) i with lastMultiple := m })) ∧
    (∀ i, periodicDue s i = none → exec (.periodicSealFire i) s = .next s)

/-! ### Key cache, root key, debug gate (05, 07, 14) -/

/-- R282, R335 to R337, R612 to R615: KC_FLUSH begins a walk, dropped while one runs, and its end invalidates the selected
keys; DRK_GENERATE draws the DRK with a block of the pool; DEBUG_CHALLENGE puts a fresh nonce out, DEBUG_RESPONSE opens the
gate once and only with a good response, DEBUG_ACCESS reads or writes local memory of the bound instance, and the gate closes.
The model's choice: that an event whose condition does not hold changes nothing (log 3), the debug gate's corners (log 63),
certificate checks by tag (log 12). -/
def Obligations.CacheFlushRootKeyAndDebugGate : Prop :=
  ∀ (acc : Acc) (v : Word32) (s : State), Legal s →
    (reaches s acc 0x081 = true → s.kc.busy = false → bit v.toNat 31 = true →
      exec (.kcFlush acc v) s = .next { s with kc := { s.kc with
        flushInst := bits v.toNat 0 10, flushAll := bit v.toNat 16, flushOld := bit v.toNat 17, busy := true
        walkInst := bits v.toNat 0 10, walkAll := bit v.toNat 16, walkOld := bit v.toNat 17 } }) ∧
    (reaches s acc 0x081 = true → bit v.toNat 31 = false → exec (.kcFlush acc v) s = .next { s with kc := { s.kc with
      flushInst := bits v.toNat 0 10, flushAll := bit v.toNat 16, flushOld := bit v.toNat 17 } }) ∧
    (reaches s acc 0x081 = false ∨ (s.kc.busy = true ∧ bit v.toNat 31 = true) → exec (.kcFlush acc v) s = .next s) ∧
    (s.kc.busy = true → ∃ t, exec .kcFlushDone s = .next t ∧ t.kc.busy = false ∧
      (∀ h k, (h, k) ∈ t.kc.keys → flushSelects s k.inst k.gen = true → k.dead = true ∧ k.pins ≠ []) ∧
      (∀ h k, (h, k) ∈ s.kc.keys → flushSelects s k.inst k.gen = false → (h, k) ∈ t.kc.keys) ∧ t.jobs = s.jobs) ∧
    (s.kc.busy = false → exec .kcFlushDone s = .next s) ∧
    (s.kh.pendingGen = true → s.rng.gathered = true → s.rng.pool ≠ [] →
      ∃ t, exec .drkGenerate s = .next t ∧ t.kh.pendingGen = false ∧ t.kh.check = some (drkCheckValue t.mooring.drk) ∧
        t.rng.pool = s.rng.pool.drop 1 ∧ t.otp.drkEver ≠ 0 ∧ t.jobs = s.jobs) ∧
    (s.kh.pendingGen = false ∨ s.rng.gathered = false ∨ s.rng.pool = [] → exec .drkGenerate s = .next s) ∧
    (gateTakes s = true → lifecycle s ≠ 3 → ∃ t n, exec .debugChallenge s = .next t ∧ n.length = 32 ∧
      t.dbg.state = .challenged ∧ t.dbg.nonce = some n ∧ Output.debug n ∈ t.out) ∧
    (∀ n chain inst sg, gateTakes s = true → s.dbg.state = .challenged → s.dbg.nonce = some n → inst < 1024 →
      lifecycle s ≠ 3 → responseGood s n chain inst sg = true → ∃ t, exec (.debugResponse chain inst sg) s = .next t ∧
        t.dbg.state = .opened ∧ t.dbg.inst = inst ∧ t.dbg.nonce = none ∧ t.cores = s.cores) ∧
    (∀ n chain inst sg, gateTakes s = true → s.dbg.state = .challenged → s.dbg.nonce = some n →
      responseGood s n chain (inst % 2 ^ 16) sg = false → exec (.debugResponse chain inst sg) s =
        .next (refuseDebug { s with dbg := { s.dbg with nonce := none } })) ∧
    (∀ core addr, gateTakes s = true → accessRefused s core addr = false →
      exec (.debugAccess core false addr v) s = .next (emit s (.debug (memGet s core addr 4))) ∧
      exec (.debugAccess core true addr v) s = .next (memPut s core addr (le 4 v.toNat))) ∧
    (∀ core addr w, gateTakes s = true → accessRefused s core addr = true →
      exec (.debugAccess core w addr v) s = .next (refuseDebug s)) ∧
    (gateTakes s = true → exec .debugClose s =
      .next { s with dbg := { s.dbg with state := .closed, nonce := none, inst := 0 } }) ∧
    (gateTakes s = false → exec .debugChallenge s = .next s ∧ exec .debugClose s = .next s)

/-! ### Faults and tests (16_channels_faults_self_repair.md) -/

/-- R660, R662, R670, R684, R687, R688: a corrected error is charged and remembered once, its second occurrence repairs the
row; an error that is not corrected is charged and its row repaired; a transfer repeated fewer than four times touches no job;
a test begins on a waiting channel without a job and ends with PASS, FAIL and its step, or SKIPPED. The model's choice: that
an event whose condition does not hold changes nothing (log 3), the row number of a cache entry (log 102), a test's outcome as
operand (log 103). -/
def Obligations.FaultsAndFieldTests : Prop :=
  ∀ (p block row c : Nat) (s : State), Legal s →
    (kindOf p ≠ 0 → s.faults.corrected = [] → exec (.sramCorrectedError p block row) s =
      .next { charge s p 1 with faults := { (charge s p 1).faults with corrected := [(p, rowKey block row)] } }) ∧
    (kindOf p ≠ 0 → kindOf p ≠ 0x0A → kindOf p ≠ 0x18 → kindOf p ≠ 0x04 → kindOf p ≠ 0x05 → kindOf p ≠ 0x06 →
      exec (.sramUncorrectedError p block row) s = .next (rowRepair (charge s p 2) p block row)) ∧
    (kindOf p = 0 → exec (.sramCorrectedError p block row) s = .next s ∧ exec (.sramUncorrectedError p block row) s = .next s) ∧
    (∀ n times, kindOf p ≠ 0 → helps s p = false → times < 4 → exec (.networkParityError p n times) s = .next (charge s p 3)) ∧
    (c < 34 → (chanAt s c).test = .waiting → (chanAt s c).standInFor = none → chanIdle s c = true →
      exec (.fieldTestStart c) s =
        .next (postSeed (putChan s c { chanAt s c with test := .running, step := 0 }) (.instantiate c))) ∧
    ((chanAt s c).test = .running → exec (.fieldTestStart c) s = .next s) ∧
    (∀ step, c < 34 → (chanAt s c).test = .running → (chanAt s c).standInFor = none → isRunning s (chanPage c) = true →
      exec (.fieldTestResult c 1 step) s = .next (setEvent (putChan s c { chanAt s c with
        test := .idle, last := 1, step := 0, since := 0, spareTest := false, standInFor := none, pos := position s }) (chanPage c) 16) ∧
      exec (.fieldTestResult c 3 step) s = .next (setEvent (putChan s c { chanAt s c with
        test := .idle, last := 3, spareTest := false, pos := position s }) (chanPage c) 18)) ∧
    (∀ result step, (chanAt s c).test ≠ .running → exec (.fieldTestResult c result step) s = .next s)

/-! ### Sail engines (09_sail_engine.md) -/

/-- R421, R425, R432, R434, R449: the 35 commands of the command table. A command word written to an IDLE engine that is
RUNNING at LEVEL 1 issues that command with the operands of SAIL_ARG0 to SAIL_ARG3 and SAIL_XLEN as they stand; written to an
engine that is not IDLE it is dropped with OVERRUN, and at LEVEL 0 it does nothing. R421 to R423, R430, R437, R448: an issued
command that a check refuses is BUSY with that result decided and 4 cycles; one that draws waits for its DRBG; one that hashes
waits for the lane; another is BUSY, LOADING for KEY_LOAD. SAIL_COMMAND_END of a refused command gives its result and writes
no operand memory; of a command that ran it applies what the command computed, and the engine is IDLE with the command
counted. The model's choice: that an event whose condition does not hold changes nothing (log 3), reserved bits and missing
PARAM (log 67), FLAG cleared at accept (log 68), scratch words (log 69). -/
def Obligations.SailCommandsIssueRunAndEnd : Prop :=
  (∀ (p : Nat) (word : Word32) (s : State), kindOf p = 0x05 ∨ kindOf p = 0x06 →
    ∀ (k : Nat) (c : Instr), (k, c) ∈ [(0x01, Instr.sailModSet p word), (0x02, .sailToMont p word), (0x03, .sailFromMont p word),
      (0x04, .sailAdd p word), (0x05, .sailSub p word), (0x06, .sailMul p word), (0x07, .sailSqr p word), (0x08, .sailInv p word),
      (0x09, .sailExp p word), (0x0A, .sailReduce p word), (0x0B, .sailRand p word), (0x0C, .sailKeyLoad p word),
      (0x0D, .sailClear p word), (0x0E, .sailCopy p word), (0x0F, .sailEq p word), (0x20, .sailCurveSet p word),
      (0x21, .sailPoc p word), (0x22, .sailPload p word), (0x23, .sailPstore p word), (0x24, .sailPdbl p word),
      (0x25, .sailPadd p word), (0x26, .sailPmul p word), (0x27, .sailPdecomp p word), (0x40, .sailSign p word),
      (0x41, .sailVerify p word), (0x42, .sailBatchVerify p word), (0x43, .sailKeygen p word), (0x44, .sailEncaps p word),
      (0x45, .sailDecaps p word), (0x60, .sailLaneSet p word), (0x61, .sailNtt p word), (0x62, .sailIntt p word),
      (0x63, .sailPwmul p word), (0x64, .sailPwadd p word), (0x65, .sailPwsub p word)] →
    (cmdOp word.toNat = k → (unitAt s p).level = true → (sailAt s p).estate = .idle → takesWork s p = true →
      exec c s = .next (issue s p
        { word := word.toNat, arg0 := (sailAt s p).arg0.toNat, arg1 := (sailAt s p).arg1.toNat, arg2 := (sailAt s p).arg2.toNat
          arg3 := (sailAt s p).arg3.toNat, xlen := (sailAt s p).xlen.toNat })) ∧
    (cmdOp word.toNat = k → (unitAt s p).level = true → (sailAt s p).estate ≠ .idle →
      exec c s = .next (putSail s p { sailAt s p with overrun := true })) ∧
    (cmdOp word.toNat ≠ k ∨ (unitAt s p).level = false → exec c s = .next s)) ∧
  (∀ (p : Nat) (x : SailRun) (e : Sail) (s : State), Legal s → e = { sailAt s p with
      overrun := false, hidden := false, flag := false, identity := false, cmd := w32 x.word } →
    (preCheck s p e x ≠ 0 → issue s p x = putSail s p { e with
      estate := .busy, run := some { x with fin := { result := preCheck s p e x, cycles := 4 } } }) ∧
    (preCheck s p e x = 0 → drawLen e { x with hashed := !needsHash x } = 0 → drawLen e x = 0 → needsHash x = true →
      issue s p x = putSail s p { e with estate := .waitLane, run := some { x with hashed := false } }) ∧
    (preCheck s p e x = 0 → drawLen e x = 0 → needsHash x = false →
      issue s p x = putSail s p { e with
        estate := if cmdOp x.word = 0x0C then .loading else .busy, run := some { x with hashed := true } }) ∧
    ((sailAt s p).run = some x → (sailAt s p).estate = .busy → x.fin.result ≠ 0 → x.fin.result < 0xA → x.fin.writes = [] →
      x.core = none → (sailAt s p).expert = false →
      ∃ t, exec (.sailCommandEnd p) s = .next t ∧ (sailAt t p).estate = .idle ∧ (sailAt t p).run = none ∧
        (sailAt t p).result = x.fin.result ∧ (sailAt t p).mem = (sailAt s p).mem ∧
        (sailAt t p).countCmd = (sailAt s p).countCmd + 1 ∧ t = { s with sails := t.sails }) ∧
    ((sailAt s p).run = some x → (sailAt s p).estate = .busy → x.fin.result = 0 → x.core = none → (sailAt s p).expert = false →
      cmdOp x.word < 0x20 → (primEnd s (sailAt s p) x).result = 0 →
      ∃ t n, exec (.sailCommandEnd p) s = .next t ∧ (sailAt t p).estate = .idle ∧ (sailAt t p).run = none ∧
        (sailAt t p).result = 0 ∧ (sailAt t p).flag = (primEnd s (sailAt s p) x).flag ∧
        (sailAt t p).mem = ((primEnd s (sailAt s p) x).writes.foldl writeWord (sailAt s p)).mem ∧
        (sailAt t p).cycles = sat (2 ^ 32 - 1) (commandCycles p (sailAt s p) x n) ∧ t.jobs = s.jobs) ∧
    ((sailAt s p).run = none → exec (.sailCommandEnd p) s = .next s))

/-- R418, R419, R425: what the modular and data commands write, with `a` and `b` the sources and `m` the modulus of slot MS:
SAIL_ADD (a + b) mod m, SAIL_SUB (a - b) mod m, SAIL_MUL the Montgomery product, SAIL_REDUCE a mod m, SAIL_COPY a, SAIL_CLEAR
zeros; EQ sets FLAG to a = b; MOD_SET fills the slot. Word i of an operand is bits 64i to 64i + 63 of its value. R415, R437 to
R446, R449: the rest of an engine's commands. SAIL_ABORT with 0xA5A5 ends the command with ABORTED and begins a wipe;
WIPE_COMPLETE leaves it IDLE with no memory, slot or attribute, or repeats the wipe; a write of SAIL_MEM_HI stores the word
with the LO half held and moves the address on; a read of a SECRET word gives 0; no window access while it is shut;
PORT_HASH_COMPLETE lets the command that waited for the lane run. The model's choice: that an event whose condition does not
hold changes nothing (log 3). -/
def Obligations.SailArithmeticAndEngine : Prop :=
  (∀ (s : State) (e : Sail) (x : SailRun) (d a b : Opnd) (m : ModSlot), d = opnd x.arg0 1 true → a = opnd x.arg1 1 false →
    b = opnd x.arg2 1 false → tfind e.mods (cmdMs x.word) = some m →
    (cmdOp x.word = 0x04 → (primEnd s e x).writes.map (fun w => (w.1, w.2.1)) = (List.range (opLen d)).map fun i =>
      (d.addr + i, (opInt e a 0 (opLen a) + opInt e b 0 (opLen b)) % m.m / 2 ^ (64 * i) % 2 ^ 64)) ∧
    (cmdOp x.word = 0x05 → (primEnd s e x).writes.map (fun w => (w.1, w.2.1)) = (List.range (opLen d)).map fun i =>
      (d.addr + i, (opInt e a 0 (opLen a) + m.m - opInt e b 0 (opLen b)) % m.m / 2 ^ (64 * i) % 2 ^ 64)) ∧
    (cmdOp x.word = 0x06 → (primEnd s e x).writes.map (fun w => (w.1, w.2.1)) = (List.range (opLen d)).map fun i =>
      (d.addr + i, montMul m.n m.m (opInt e a 0 (opLen a)) (opInt e b 0 (opLen b)) / 2 ^ (64 * i) % 2 ^ 64)) ∧
    (cmdOp x.word = 0x0A → (primEnd s e x).writes.map (fun w => (w.1, w.2.1)) = (List.range (opLen d)).map fun i =>
      (d.addr + i, opInt e a 0 (opLen a) % m.m / 2 ^ (64 * i) % 2 ^ 64)) ∧
    (cmdOp x.word = 0x0E → (primEnd s e x).writes.map (fun w => (w.1, w.2.1)) = (List.range (opLen d)).map fun i =>
      (d.addr + i, opInt e a 0 (opLen a) / 2 ^ (64 * i) % 2 ^ 64)) ∧
    (cmdOp x.word = 0x0D → (primEnd s e x).writes.map (fun w => (w.1, w.2.1)) = (List.range (opLen d)).map fun i =>
      (d.addr + i, 0)) ∧
    (cmdOp x.word = 0x0F → (primEnd s e x).flag = decide (opInt e a 0 (opLen a) = opInt e b 0 (opLen b)) ∧
      (primEnd s e x).writes = []) ∧
    (cmdOp x.word = 0x01 → (primEnd s e x).mods.map (fun q => (q.1, q.2.m, q.2.n)) =
      [(cmdMs x.word, opInt e a 0 (opLen a), opLen a)] ∧ (primEnd s e x).writes = [])) ∧
  (∀ (acc : Acc) (p : Nat) (v : Word32) (s : State), Legal s →
    (expertReach s acc p = true → ∃ t, exec (.sailAbort acc p 0xA5A5) s = .next t ∧ (sailAt t p).estate = .wiping ∧
      (sailAt t p).result = 0xB ∧ (sailAt t p).run = none ∧ (sailAt t p).mem = [] ∧
      (sailAt t p).countAbort = (sailAt s p).countAbort + 1 ∧ (∀ q, q ≠ p → sailAt t q = sailAt s q) ∧ t.jobs = s.jobs) ∧
    (v ≠ 0xA5A5 ∨ expertReach s acc p = false → exec (.sailAbort acc p v) s = .next s) ∧
    ((sailAt s p).estate = .wiping → (sailAt s p).levelAfterWipe = none → ∃ t, exec (.wipeComplete p false) s = .next t ∧
      (sailAt t p).estate = .idle ∧ (sailAt t p).mem = [] ∧ (sailAt t p).mods = [] ∧ (sailAt t p).curves = [] ∧
      (sailAt t p).attr = [] ∧ (sailAt t p).job = none ∧ (sailAt t p).countWipe = (sailAt s p).countWipe + 1 ∧
      (∀ q, q ≠ p → sailAt t q = sailAt s q) ∧ t = { s with sails := t.sails, sig := t.sig }) ∧
    ((sailAt s p).estate = .wiping → exec (.wipeComplete p true) s = .next (rowRepair (setEvent s p 17) p 0 0)) ∧
    (∀ b, (sailAt s p).estate ≠ .wiping → exec (.wipeComplete p b) s = .next s) ∧
    (expertReach s acc p = true → windowShut (sailAt s p) = false → exec (.sailMemWrite acc p false v) s =
      .next (putSail s p { sailAt s p with heldLo := v })) ∧
    (expertReach s acc p = true → windowShut (sailAt s p) = false → bit (sailAt s p).memAddr.toNat 16 = false →
      bits (sailAt s p).memAddr.toNat 0 13 < memWords p → exec (.sailMemWrite acc p true v) s =
        .next (putSail s p (writeWord { sailAt s p with memAddr := nextAddr (sailAt s p).memAddr }
          (bits (sailAt s p).memAddr.toNat 0 13, (sailAt s p).heldLo.toNat + 2 ^ 32 * v.toNat, {})))) ∧
    (expertReach s acc p = true → windowShut (sailAt s p) = false → bit (sailAt s p).memAddr.toNat 16 = false →
      bits (sailAt s p).memAddr.toNat 0 13 < memWords p → (attrAt (sailAt s p) (bits (sailAt s p).memAddr.toNat 0 13)).secret = true →
      exec (.sailMemRead acc p false) s = .next (emit (putSail s p { sailAt s p with hidden := true, readHi := 0 })
        (.readValue acc 0))) ∧
    (expertReach s acc p = true → windowShut (sailAt s p) = true → ∀ hi,
      exec (.sailMemWrite acc p hi v) s = .next (putSail s p { sailAt s p with overrun := true }) ∧
      exec (.sailMemRead acc p hi) s = .next (emit (putSail s p { sailAt s p with overrun := true }) (.readValue acc 0))) ∧
    (∀ x, (sailAt s p).run = some x → (sailAt s p).estate = .waitLane →
      (tget {} s.lanes (chanOf p)).port ≠ some p →
      exec (.portHashComplete p) s = .next (putSail s p { sailAt s p with estate := .busy, run := some { x with hashed := true } })))

/-! ### Carit cores (13_carit_instruction_set.md, 14_exceptions_privilege_protection.md) -/

/-- R294 of 05, R568: local memory. A store of bytes is read back where it went, every other byte and every other core keep
their content, the tags of the granules it touches are cleared, and the memory keeps its canonical form. The model's choice:
the canonical form and the zero of an unwritten byte (log 41). -/
def Obligations.LocalMemoryReadAfterWrite : Prop :=
  ∀ (p a : Nat) (bs : Bytes) (s : State), Legal s → Tab.wf (fun _ => 0) (coreAt s p).mem = true →
    memGet (memPut s p a bs) p a bs.length = bs ∧
    (∀ b, b < a ∨ a + bs.length ≤ b → memGet (memPut s p a bs) p b 1 = memGet s p b 1) ∧
    (∀ q b n, q ≠ p → memGet (memPut s p a bs) q b n = memGet s q b n) ∧
    (Tab.wf (fun _ => false) (coreAt s p).tags = true → ∀ i, i < bs.length → memTag (memPut s p a bs) p (a + i) = false) ∧
    Tab.wf (fun _ => 0) (coreAt (memPut s p a bs) p).mem = true

/-- R540 to R550, R553 to R556: pairs, literals, jumps, calls, loops, loads and stores, capabilities. `pc + 4` follows unless
a jump is taken; the stack, the registers and the cycles are as the tables R544 and R546 give them; nothing but the core
changes. The model's choice: that the command is the instruction at the PC (log 40), unwritten memory (log 41). -/
def Obligations.CaritValuesControlAndMemory : Prop :=
  ∀ (p : Nat) (s : State) (c : Core), Legal s → c = coreAt s p →
    (∀ a b, a < 2 ^ 15 → b < 2 ^ 15 → CanRun s p [shortPart c a, shortPart c b] → pairIllegal c a b = none →
      pairDependent a b = false → shortMem a = false → shortMem b = false → shortControl a = false → shortControl b = false →
      ∃ t n, exec (.pairInstruction p a b) s = .next t ∧ 1 ≤ n ∧ n ≤ 3 ∧
        OnlyCore s t p (retired (shortValue b (shortValue a c)) (c.pc + 4) n)) ∧
    (∀ imm, CanRun s p [(0, 0, 1)] → ∃ t, exec (.lit24 p imm) s = .next t ∧
      OnlyCore s t p (retired (push c (signed64 24 imm)) (c.pc + 4) 1)) ∧
    (∀ imm, CanRun s p [(1, 1, 1)] → ∃ t, exec (.lithi p imm) s = .next t ∧
      OnlyCore s t p (retired (push (popN c 1) ((topOf c 0 <<< 24) ||| BitVec.ofNat 64 (imm % 2 ^ 24))) (c.pc + 4) 1)) ∧
    (∀ off, CanRun s p [(0, 0, 0)] → ∃ t, exec (.jmp p off) s = .next t ∧
      OnlyCore s t p (retired c (branchTo c (signed64 24 off)) 2)) ∧
    (CanRun s p [(1, 1, 0)] → ∃ t, exec (.jmpi p) s = .next t ∧
      OnlyCore s t p (retired (popN c 1) ((topOf c 0).setWidth 32) 2)) ∧
    (∀ off, CanRun s p [(1, 1, 0)] →
      (∃ t, exec (.bzl p off) s = .next t ∧ OnlyCore s t p (if topOf c 0 = 0 then
        retired (popN c 1) (branchTo c (signed64 24 off)) 2 else retired (popN c 1) (c.pc + 4) 1)) ∧
      (∃ t, exec (.bnzl p off) s = .next t ∧ OnlyCore s t p (if topOf c 0 ≠ 0 then
        retired (popN c 1) (branchTo c (signed64 24 off)) 2 else retired (popN c 1) (c.pc + 4) 1))) ∧
    (∀ off, CanRun s p [(0, 0, 0)] → c.rsl.toNat + 8 ≤ c.rsp.toNat → c.rsp.toNat ≤ 0x20000 →
      accessCheck p c c.ring .write false (c.rsp - 8).toNat 8 = none → ∃ t, exec (.call p off) s = .next t ∧
        OnlyCore s t p (retired { c with
          rsp := c.rsp - 8, mem := putBytes c.mem (c.rsp - 8).toNat (le 8 (c.pc + 4).toNat)
          tags := clearTags c.tags (c.rsp - 8).toNat 8 } (branchTo c (signed64 24 off)) 2)) ∧
    (CanRun s p [(1, 1, 0)] → c.rsl.toNat + 8 ≤ c.rsp.toNat → c.rsp.toNat ≤ 0x20000 →
      accessCheck p c c.ring .write false (c.rsp - 8).toNat 8 = none → ∃ t, exec (.calli p) s = .next t ∧
        OnlyCore s t p (retired (popN { c with
          rsp := c.rsp - 8, mem := putBytes c.mem (c.rsp - 8).toNat (le 8 (c.pc + 4).toNat)
          tags := clearTags c.tags (c.rsp - 8).toNat 8 } 1) ((topOf c 0).setWidth 32) 2)) ∧
    (∀ span, CanRun s p [(1, 1, 0)] → c.ldepth < 4 → 0 < span → span < 2 ^ 12 → topOf c 0 ≠ 0 → ∃ t, exec (.loop p span) s = .next t ∧
      OnlyCore s t p (retired { popN c 1 with
        ls := tset 0 c.ls c.ldepth (c.pc + 4), le := tset 0 c.le c.ldepth (c.pc + BitVec.ofNat 32 (4 * span))
        lc := tset 0 c.lc c.ldepth (topOf c 0), ldepth := c.ldepth + 1 } (c.pc + 4) 1)) ∧
    (∀ n span, CanRun s p [(0, 0, 0)] → c.ldepth < 4 → 0 < span → span < 2 ^ 12 → 0 < n → n < 2 ^ 12 →
      ∃ t, exec (.loopi p n span) s = .next t ∧ OnlyCore s t p (retired { c with
        ls := tset 0 c.ls c.ldepth (c.pc + 4), le := tset 0 c.le c.ldepth (c.pc + BitVec.ofNat 32 (4 * span))
        lc := tset 0 c.lc c.ldepth (BitVec.ofNat 64 n), ldepth := c.ldepth + 1 } (c.pc + 4) 1)) ∧
    (∀ span, CanRun s p [(1, 1, 0)] → c.ldepth < 4 → 0 < span → span < 2 ^ 12 → topOf c 0 = 0 → ∃ t, exec (.loop p span) s = .next t ∧
      OnlyCore s t p (retired (popN c 1) (c.pc + BitVec.ofNat 32 (4 * span) + 4) 1)) ∧
    (∀ span, CanRun s p [(1, 1, 0)] → c.ldepth = 4 → 0 < span → span < 2 ^ 12 →
      exec (.loop p span) s = .next (takeException s p ⟨6, 0, 0⟩ c.pc 0)) ∧
    (∀ size signed disp a, CanRun s p [(1, 1, 1)] → a = (topOf c 0 + signed64 20 disp).toNat → a + sizeBytes size ≤ 0x20000 →
      accessCheck p c c.ring .read true a (sizeBytes size) = none → ∃ t, exec (.ld p size signed disp) s = .next t ∧
        OnlyCore s t p (retired (push (popN c 1) (extended signed (memGet s p a (sizeBytes size)))) (c.pc + 4) 2)) ∧
    (∀ size disp a, CanRun s p [(2, 2, 0)] → a = (topOf c 0 + signed64 20 disp).toNat → a + sizeBytes size ≤ 0x20000 →
      accessCheck p c c.ring .write true a (sizeBytes size) = none → ∃ t, exec (.st p size disp) s = .next t ∧
        OnlyCore s t p (retired (popN { c with
          mem := putBytes c.mem a (le (sizeBytes size) (topOf c 1).toNat), tags := clearTags c.tags a (sizeBytes size) } 2)
          (c.pc + 4) 1)) ∧
    (∀ k size signed disp off, CanRun s p [(1, 1, 1)] → off = (topOf c 0 + signed64 16 disp).toNat → namesBallast c k = false →
      capUse s c k (2 ^ permLoad) off (sizeBytes size) = none → ∃ t, exec (.ldc p k size signed disp) s = .next t ∧
        OnlyCore s t p (retired (push (popN c 1) (extended signed
          (objBytes s (capReg c k).object ((capReg c k).offset + off) (sizeBytes size)).1)) (c.pc + 4) 3)) ∧
    (∀ k size disp off, CanRun s p [(2, 2, 0)] → off = (topOf c 0 + signed64 16 disp).toNat → namesBallast c k = true →
      capUse s c k (2 ^ permStore) off (sizeBytes size) = none → ∃ t, exec (.stc p k size disp) s = .next t ∧
        coreAt t p = retired (popN c 2) (c.pc + 4) 20 ∧
        t.jobs = (objPut s (capReg c k).object ((capReg c k).offset + off) (le (sizeBytes size) (topOf c 1).toNat)).jobs ∧
        t = { s with jobs := t.jobs, cores := t.cores }) ∧
    (∀ k j, CanRun s p [(1, 1, 0)] → (topOf c 0).toNat % 16 = 0 → (topOf c 0).toNat + 16 ≤ 0x20000 →
      accessCheck p c c.ring .read true (topOf c 0).toNat 16 = none → ∃ t, exec (.cld p k false j) s = .next t ∧
        OnlyCore s t p (retired (putCap (popN c 1) k (capOfBits (memTag s p (topOf c 0).toNat)
          (unle (memGet s p (topOf c 0).toNat 16)))) (c.pc + 4) 3)) ∧
    (∀ k j, CanRun s p [(1, 1, 0)] → (topOf c 0).toNat % 16 = 0 → (topOf c 0).toNat + 16 ≤ 0x20000 →
      accessCheck p c c.ring .write true (topOf c 0).toNat 16 = none → Tab.wf (fun _ => 0) c.mem = true →
      Tab.wf (fun _ => false) c.tags = true → ∃ t, exec (.cst p k false j) s = .next t ∧
        memGet t p (topOf c 0).toNat 16 = le 16 (capBits (capReg c k)) ∧ memTag t p (topOf c 0).toNat = (capReg c k).tag ∧
        (coreAt t p).depth = c.depth - 1 ∧ (coreAt t p).pc = c.pc + 4 ∧ t = { s with cores := t.cores }) ∧
    (∀ k, CanRun s p [(0, 0, 2)] → c.depth % 2 = 0 → ∃ t, exec (.cpush p k) s = .next t ∧
      OnlyCore s t p (retired (pushEnt (pushEnt c { v := BitVec.ofNat 64 (capBits (capReg c k)), tag := (capReg c k).tag, half := false })
        { v := BitVec.ofNat 64 (capBits (capReg c k) / 2 ^ 64), tag := (capReg c k).tag, half := true }) (c.pc + 4) 1)) ∧
    (∀ k, CanRun s p [(2, 2, 0)] → ∃ t, exec (.cpop p k) s = .next t ∧
      OnlyCore s t p (retired (putCap (popN c 2) k (capOfBits (granuleTagged (c.stack.getD 1 {}) (c.stack.getD 0 {}))
        ((c.stack.getD 1 {}).v.toNat + 2 ^ 64 * (c.stack.getD 0 {}).v.toNat))) (c.pc + 4) 1)) ∧
    (∀ k, CanRun s p [(3, 3, 0)] → (topOf c 0).toNat < 2 ^ 16 → (topOf c 1).toNat < 2 ^ 23 → (topOf c 2).toNat < 2 ^ 23 →
      ∃ t, exec (.cnarrow p k) s = .next t ∧ OnlyCore s t p (retired (putCap (popN c 3) k
        (narrow (capReg c k) (topOf c 2).toNat (topOf c 1).toNat (topOf c 0).toNat)) (c.pc + 4) 2)) ∧
    (∀ k, CanRun s p [(0, 0, 1)] → ∃ t, exec (.ctest p k) s = .next t ∧
      OnlyCore s t p (retired (push c (truth (capReg c k).tag)) (c.pc + 4) 1)) ∧
    (∀ k, CanRun s p [(0, 0, 1)] → ∃ t, exec (.cfield p k 2) s = .next t ∧
      OnlyCore s t p (retired (push c (BitVec.ofNat 64 (capReg c k).perms)) (c.pc + 4) 1)) ∧
    (∀ k, CanRun s p [(0, 0, 0)] → ∃ t, exec (.cnull p k) s = .next t ∧ OnlyCore s t p (retired (putCap c k {}) (c.pc + 4) 1))

/-- R346, R531, R532, R557 to R564, R577, R594, R606: block moves, hashes, Sail commands, device reads and writes, special
registers, secret operations and interrupt windows, each in the ring that may run it. The model's choice: that the command is
the instruction at the PC (log 40), one issue per command (log 52), the word of JOB_END (log 60), LEAF_WAIT (log 61), SPUT
(log 62). -/
def Obligations.CaritSystemOperations : Prop :=
  ∀ (p : Nat) (s : State) (c : Core), Legal s → c = coreAt s p →
    (∀ operand, CanRun s p [(3, 3, 0)] → c.bmCtl.getLsbD 0 = false → bmIllegal (4 * (operand % 2 ^ 12)) = false →
      bmUnaligned (4 * (operand % 2 ^ 12)) c = false → topOf c 0 = 0 → ∃ t, exec (.bmove p operand) s = .next t ∧
        (coreAt t p).depth = c.depth - 3 ∧ (coreAt t p).pc = c.pc + 4 ∧ (coreAt t p).bmCtl.getLsbD 0 = false ∧
        (coreAt t p).mem = c.mem ∧ t = { s with cores := t.cores }) ∧
    (∀ k src dst len, CanRun s p [(3, 3, 0)] → c.bmCtl.getLsbD 0 = false → k % 2 ^ 12 = 0 → len = (topOf c 0).toNat →
      dst = (topOf c 1).toNat → src = (topOf c 2).toNat → 0 < len → len ≤ 16 → dst % 16 = 0 → dst + len ≤ 0x20000 →
      src + len ≤ 0x20000 → (dst ≤ src ∨ src + len ≤ dst) → accessCheck p c c.ring .read true src len = none →
      accessCheck p c c.ring .write true dst len = none → ∃ t, exec (.bmove p k) s = .next t ∧
        (coreAt t p).mem = putBytes c.mem dst (memGet s p src len) ∧ (coreAt t p).bmLen = 0 ∧
        (coreAt t p).bmCtl.getLsbD 0 = false ∧ (coreAt t p).depth = c.depth - 3 ∧ (coreAt t p).pc = c.pc + 4 ∧
        t = { s with cores := t.cores }) ∧
    (∀ alg k, CanRun s p [(0, 0, 0)] → alg < 256 → (hashLen alg).isSome = true → ∃ t, exec (.hstart p alg false k) s = .next t ∧
      OnlyCore s t p (retired { c with hash := some (alg, none, []) } (c.pc + 4) 4)) ∧
    (∀ k alg key fed n a, CanRun s p [(2, 2, 0)] → c.hfCtl.getLsbD 0 = false → c.hash = some (alg, key, fed) →
      n = (topOf c 0).toNat → a = (topOf c 1).toNat → 0 < n → n ≤ 64 → a + n ≤ 0x20000 →
      accessCheck p c c.ring .read true a n = none → ∃ t, exec (.hfeed p false k) s = .next t ∧
        (coreAt t p).hash = some (alg, key, fed ++ memGet s p a n) ∧ (coreAt t p).hfCtl.getLsbD 0 = false ∧
        (coreAt t p).depth = c.depth - 2 ∧ (coreAt t p).pc = c.pc + 4 ∧
        t = { s with cores := t.cores, lanes := t.lanes }) ∧
    (∀ a d, CanRun s p [(1, 1, 1)] → hashDigest c = some d → d ≠ [] → a = (topOf c 0).toNat → a + d.length ≤ 0x20000 →
      accessCheck p c c.ring .write true a d.length = none → ∃ t, exec (.hend p) s = .next t ∧
        (coreAt t p).mem = putBytes c.mem a d ∧ (coreAt t p).hash = none ∧ topOf (coreAt t p) 0 = BitVec.ofNat 64 d.length ∧
        (coreAt t p).depth = c.depth ∧ (coreAt t p).pc = c.pc + 4) ∧
    (∀ e, CanRun s p [(6, 6, 0)] → e < 3 → serves s (enginePage p e) = true → (unitAt s (enginePage p e)).level = false →
      (sailAt s (enginePage p e)).estate ≠ .idle → ∃ t, exec (.scmd p e) s = .next t ∧
        (sailAt t (enginePage p e)).overrun = true ∧ coreAt t p = retired (popN c 6) (c.pc + 4) 2 ∧
        t = { s with cores := t.cores, sails := t.sails }) ∧
    (∀ e, CanRun s p [(6, 6, 0)] → e < 2 → serves s (enginePage p e) = true → (unitAt s (enginePage p e)).level = false →
      (sailAt s (enginePage p e)).estate = .idle → kindOf p = 0x04 → jobAt s c.job = none →
      ∃ t u, exec (.scmd p e) s = .next t ∧ u = issue (putCore s p (popN c 6)) (enginePage p e)
        { word := (topOf c 0).toNat % 2 ^ 32, arg0 := (topOf c 1).toNat % 2 ^ 32, arg1 := (topOf c 2).toNat % 2 ^ 32
          arg2 := (topOf c 3).toNat % 2 ^ 32, arg3 := (topOf c 4).toNat % 2 ^ 32, xlen := (topOf c 5).toNat % 2 ^ 32
          core := some p } ∧ t.sails = u.sails ∧ (coreAt t p).depth = c.depth - 6 ∧ (coreAt t p).pc = c.pc + 4) ∧
    (∀ e k, CanRun s p [(1, 1, 0)] → e < 3 → capUse s c k (2 ^ permEngine) 0 (capReg c k).length = none →
      serves s (enginePage p e) = true → (unitAt s (enginePage p e)).level = false →
      (sailAt s (enginePage p e)).estate = .idle → jobAt s c.job = none → e ≠ 2 → ∃ t, exec (.skey p e k) s = .next t ∧
        ((sailAt t (enginePage p e)).run.map fun x => (x.word, x.arg0, x.cap)) =
          some (0x0C, (topOf c 0).toNat % 2 ^ 32, capReg c k) ∧
        (coreAt t p).depth = c.depth - 1 ∧ (coreAt t p).pc = c.pc + 4) ∧
    (∀ mask, CanRun s p [(0, 0, 0)] → c.swMask.getLsbD 63 = false → (∀ e, e < 3 → (sailAt s (enginePage p e)).run = none) →
      ∃ t, exec (.swait p mask) s = .next t ∧ OnlyCore s t p (retired { c with swMask := 0 } (c.pc + 4) 1)) ∧
    (∀ e, CanRun s p [(0, 0, 1)] → e < 3 → ∃ t, exec (.sstat p e) s = .next t ∧
      OnlyCore s t p (retired (push c (BitVec.ofNat 64 (sailRead s (enginePage p e) 0x818))) (c.pc + 4) 1)) ∧
    (CanRun s p [(0, 0, 1)] → c.entropy = false → 8 ≤ (drbgAt s (chanOf p)).buf.length →
      (drbgAt s (chanOf p)).bufInst = (ctxOf s c).1 → (drbgAt s (chanOf p)).bufGen = (ctxOf s c).2 →
      ∃ t, exec (.rngDataRead p) s = .next t ∧
        coreAt t p = retired (push c (BitVec.ofNat 64 (field (drbgAt s (chanOf p)).buf 0 8))) (c.pc + 4) 2 ∧
        t = { s with cores := t.cores, rng := t.rng }) ∧
    (∀ n j, CanRun s p [(0, 0, 1)] → c.ring = 2 → nextJob s p = some (n, j) → jobAt s n = some j →
      ∃ t, exec (.jobNext p) s = .next t ∧ jobAt t n = some { j with core := some p } ∧ (coreAt t p).job = n ∧
        (coreAt t p).ctxInst = j.inst ∧ (coreAt t p).ctxGen = j.gen ∧ (coreAt t p).inJob = true ∧
        topOf (coreAt t p) 0 = BitVec.ofNat 64 n ∧ t = { s with cores := t.cores, jobs := t.jobs }) ∧
    (CanRun s p [(0, 0, 1)] → c.ring = 2 → nextJob s p = none → ∃ t, exec (.jobNext p) s = .next t ∧
      OnlyCore s t p (passCycles { c with stall := .jobNext, stalls := (c.stalls + 1) % 2 ^ 64 } 1)) ∧
    (∀ j, CanRun s p [(0, 0, 1)] → c.ring = 2 → jobAt s c.job = some j → j.phase = .committed →
      ∃ t, exec (.leafWait p) s = .next t ∧ OnlyCore s t p (retired (push c (BitVec.ofNat 64 j.seq)) (c.pc + 4) 2)) ∧
    (CanRun s p [(0, 0, 1)] →
      (∃ t, exec (.coreId p) s = .next t ∧ OnlyCore s t p (retired (push c (BitVec.ofNat 64
        (chanOf p + 2 ^ 6 * (slotOf p - 1) + 2 ^ 8 * halfOf (chanOf p)))) (c.pc + 4) 2)) ∧
      (∃ t, exec (.tetherRead p) s = .next t ∧ OnlyCore s t p (retired (push c (BitVec.ofNat 64 (position s))) (c.pc + 4) 2)) ∧
      (∃ t, exec (.jobSerial p) s = .next t ∧ OnlyCore s t p (retired (push c (BitVec.ofNat 64
        (if (jobAt s c.job).isSome then c.job else 0))) (c.pc + 4) 2))) ∧
    (∀ j, CanRun s p [(1, 1, 0)] → c.ring = 2 → jobAt s c.job = some j → j.phase = .run → j.core = some p →
      j.image = none → statusAllowed (eOp j.entry) ((topOf c 0).toNat % 2 ^ 16) = true →
      (topOf c 0).toNat / 2 ^ 32 ≤ eOutCap j.entry → (topOf c 0).toNat % 2 ^ 16 ≠ 0 →
      (topOf c 0).toNat % 2 ^ 16 ≠ 0x3001 → ∃ t, exec (.jobEnd p) s = .next t ∧
        (jobAt t c.job).map (·.phase) = some .final ∧ (jobAt t c.job).map (·.status) = some ((topOf c 0).toNat % 2 ^ 16) ∧
        (coreAt t p).ctxInst = 0x3FF ∧ (coreAt t p).inJob = false ∧ (coreAt t p).depth = c.depth - 1) ∧
    (∀ j, CanRun s p [(1, 1, 0)] → c.ring = 2 → jobAt s c.job = some j → j.phase ≠ .final → (topOf c 0).toNat + 64 ≤ 0x20000 →
      accessCheck p c c.ring .read true (topOf c 0).toNat 64 = none → ∃ t, exec (.leafSubmit p) s = .next t ∧
        OnlyCore s t p (retired (popN c 1) (c.pc + 4) 2)) ∧
    (∀ r, CanRun s p [(0, 0, 1)] → r < 2 ^ 9 → msrAssigned r = true → (c.ring ≤ 2 ∨ r < 0x040) → ∃ t, exec (.mfs p r) s = .next t ∧
      OnlyCore s t p (retired (push c (msrRead s p r)) (c.pc + 4) 1)) ∧
    (CanRun s p [(1, 1, 0)] → ∃ t, exec (.mts p 0x008) s = .next t ∧
      OnlyCore s t p (retired { popN c 1 with a := topOf c 0 } (c.pc + 4) 1)) ∧
    (CanRun s p [(1, 1, 0)] → c.ring ≤ 1 → ∃ t, exec (.mts p 0x058) s = .next t ∧
      OnlyCore s t p (retired (ctxSet (popN c 1) (topOf c 0).toNat) (c.pc + 4) 1)) ∧
    (CanRun s p [(0, 0, 0)] → c.ring ≤ 1 → ∃ t, exec (.mpusync p) s = .next t ∧
      OnlyCore s t p (retired { c with mpu := c.mpuStaged } (c.pc + 4) 4)) ∧
    (CanRun s p [(0, 0, 0)] → ∃ t, exec (.fence p) s = .next t ∧ OnlyCore s t p (retired c (c.pc + 4) 1)) ∧
    (CanRun s p [(0, 0, 0)] → c.ring ≤ 2 → pendingOf s p ≠ 0 → ∃ t, exec (.waiti p) s = .next t ∧
      OnlyCore s t p (retired c (c.pc + 4) 1)) ∧
    (∀ sd k disp off, CanRun s p [(1, 1, 0)] → c.ring ≤ 1 → off = (topOf c 0 + signed64 16 disp).toNat →
      bits (capReg c k).object 44 4 ≠ 2 → capUse s c k (2 ^ permLoadSecret) off 8 = none → ∃ t, exec (.sld p sd k disp) s = .next t ∧
        OnlyCore s t p (retired (putSecret (popN c 1) sd (BitVec.ofNat 64 (unle
          (objBytes s (capReg c k).object ((capReg c k).offset + off) 8).1))) (c.pc + 4) 3)) ∧
    (∀ sd ss, CanRun s p [(0, 0, 0)] → c.ring ≤ 1 → ∃ t, exec (.sxor p sd ss) s = .next t ∧
      OnlyCore s t p (retired (putSecret c sd (secretReg c sd ^^^ secretReg c ss)) (c.pc + 4) 1)) ∧
    (∀ sd k, CanRun s p [(0, 0, 0)] → c.ring ≤ 1 → ∃ t, exec (.sgfm p sd k) s = .next t ∧
      OnlyCore s t p (retired (putSecret c sd (gfWord (secretReg c sd) (BitVec.ofNat 8 k))) (c.pc + 4) 1)) ∧
    (∀ sd, CanRun s p [(0, 0, 0)] → c.ring ≤ 1 →
      (∃ t, exec (.sclr p sd true) s = .next t ∧ OnlyCore s t p (retired { c with sreg := [] } (c.pc + 4) 1)) ∧
      (∃ t, exec (.sclr p sd false) s = .next t ∧ OnlyCore s t p (retired (putSecret c sd 0) (c.pc + 4) 1))) ∧
    (∀ ss, CanRun s p [(0, 0, 0)] → c.ring = 1 → ss % 16 % 4 = 0 → ∃ t, exec (.sput p ss 0) s = .next t ∧
      t.kh.shareIn = sportOf c (ss % 16) ∧ coreAt t p = retired { c with sport := 0 } (c.pc + 4) 4 ∧
      t = { s with cores := t.cores, kh := { s.kh with shareIn := t.kh.shareIn } }) ∧
    (∀ sd, CanRun s p [(0, 0, 0)] → c.ring ≤ 1 → c.entropy = false → 8 ≤ (drbgAt s (chanOf p)).buf.length →
      (drbgAt s (chanOf p)).bufInst = (ctxOf s c).1 → (drbgAt s (chanOf p)).bufGen = (ctxOf s c).2 →
      ∃ t, exec (.srand p sd) s = .next t ∧
        coreAt t p = retired (putSecret c sd (BitVec.ofNat 64 (field (drbgAt s (chanOf p)).buf 0 8))) (c.pc + 4) 2 ∧
        t = { s with cores := t.cores, rng := t.rng }) ∧
    (coreRuns s p = true → c.noint ≠ 0 → c.stall = .none → ∃ t, exec (.nointExpire p) s = .next t ∧
      OnlyCore s t p (passCycles c c.noint) ∧ (coreAt t p).noint = 0)

/-- R538, R565, R575, R581, R584 to R592, R596, R597, R608, R610: exceptions, traps, interrupts and the return. The first
check that fails in R565's order decides the exception, taken by the handling ring; a refused special register or ring is
RING_VIOLATION; a TRAP enters its vector with the next PC saved; RETX restores the frame's PC and ring, and a forged frame is
PRIVILEGE; an interrupt enters the vector it names; a core that does not execute does nothing. The model's choice: that the
command is the instruction at the PC (log 40), unreadable vector entries (log 56), the level bits of IPEND (log 58). -/
def Obligations.CaritExceptions : Prop :=
  ∀ (p : Nat) (s : State) (c : Core), Legal s → c = coreAt s p →
    (∀ imm e, coreRuns s p = true → fetchCheck p c = some e → exec (.lit24 p imm) s = .next (takeException s p e c.pc 0)) ∧
    (coreRuns s p = true → fetchCheck p c = none → c.pc.toNat % 4 = 0 → c.depth = 0 →
      exec (.jmpi p) s = .next (takeException s p ⟨4, 0, 0⟩ c.pc 0)) ∧
    (∀ r, coreRuns s p = true → fetchCheck p c = none → c.pc.toNat % 4 = 0 → r < 2 ^ 9 → msrAssigned r = true →
      mtsAllowed c r = false → exec (.mts p r) s = .next (takeException s p ⟨2, 0, 0⟩ c.pc 0)) ∧
    (∀ r, coreRuns s p = true → fetchCheck p c = none → c.pc.toNat % 4 = 0 → r < 2 ^ 9 → msrAssigned r = false →
      exec (.mfs p r) s = .next (takeException s p ⟨1, 0, 0⟩ c.pc 0)) ∧
    (∀ e n, c.dfBusy = false → c.ring ≠ 0 → e.vec ≠ 1 → e.vec ≠ 3 → e.vec ≠ 7 → e.vec ≠ 0x0B → ∀ t u,
      u = putCore s p { c with entropy := false } →
      enterTry u p e.vec e.detail e.faddr n 0 (c.ring - 1) false = some t →
      takeException s p e n 0 = t ∧ (coreAt t p).ring = c.ring - 1 ∧ (coreAt t p).stack = [] ∧ (coreAt t p).depth = 0 ∧
        (coreAt t p).ldepth = 0) ∧
    (∀ n t, CanRun s p [(0, 0, 0)] → n < 256 → rcOf c (0x040 + 8 * (c.ring - 1)) ≠ 0 → ∀ e,
      vectorEntry (putCore s p { c with ring := c.ring - 1 }) p (c.ring - 1) (0x40 + n) = some e → bit e 32 = true →
      enterTry (putCore s p c) p (0x40 + n) 0 0 (c.pc + 4) 0 (c.ring - 1) false = some t →
      exec (.trap p n) s = .next (completeIns t p (some (coreAt t p).pc) 0 0)) ∧
    (∀ b, CanRun s p [(0, 0, 0)] → c.ring ≤ 2 → c.dfBusy = false → b = memGet s p (rcOf c (0x041 + 8 * c.ring)).toNat 256 →
      (rcOf c (0x041 + 8 * c.ring)).toNat + 256 ≤ 0x20000 →
      accessCheck p c c.ring .read false (rcOf c (0x041 + 8 * c.ring)).toNat 256 = none →
      (c.ring ≤ bits (field b 5 1) 0 2 → ∃ t, exec (.retx p) s = .next t ∧
        (coreAt t p).pc = BitVec.ofNat 32 (field b 0 4) ∧ (coreAt t p).ring = bits (field b 5 1) 0 2 ∧
        (coreAt t p).depth = field b 16 4 ∧ (coreAt t p).a = BitVec.ofNat 64 (field b 48 8) ∧
        t = { s with cores := t.cores }) ∧
      (bits (field b 5 1) 0 2 < c.ring → exec (.retx p) s =
        .next (takeException s p ⟨0x0B, 0, (rcOf c (0x041 + 8 * c.ring)).toNat⟩ c.pc 0))) ∧
    (∀ v t, coreRuns s p = true → nextInterrupt s p = some v → v = 0x22 → c.stall = .none →
      (drbgAt s (chanOf p)).queue = [] → enterTry (putCore (putDrbg s (chanOf p) { drbgAt s (chanOf p) with queue := [] }) p c)
        p v 0 0 c.pc 0 1 true = some t →
      ∃ t', exec (.interruptTaken p) s = .next t' ∧ (coreAt t' p).ring = (coreAt t p).ring ∧ (coreAt t' p).pc = (coreAt t p).pc) ∧
    (coreRuns s p = false → ∀ n r imm, exec (.lit24 p imm) s = .next s ∧ exec (.trap p n) s = .next s ∧
      exec (.retx p) s = .next s ∧ exec (.mts p r) s = .next s ∧ exec (.interruptTaken p) s = .next s)

/-! ### Instances (15_instances.md, 07_key_hierarchy_and_ceremonies.md, 13_carit_instruction_set.md) -/

/-- R621 to R625: a request is carried out at GO with its arguments as they stand. One that fails a check of R625 ends with
that check's code and has no other effect; GO on a window that is BUSY, or by an accessor that does not reach the instance
manager, is dropped. The model's choice: that an event whose condition does not hold changes nothing (log 3), which requests
need the virtual function (log 70), codes of CONFIGURE and MC_BIND (log 71). -/
def Obligations.InstanceRequestChecks : Prop :=
  ∀ (acc : Acc) (i : Nat) (ok : Bool) (b : Bytes) (s t : State) (w : ImWindow) (op : Nat) (c : Instr) (d : Option (Bool × Bytes)),
    (op, c, d) ∈ [(0x01, Instr.create acc i, none), (0x02, .reset acc i, none), (0x03, .remove acc i, none),
      (0x04, .freeze acc i, none), (0x05, .thaw acc i, none), (0x06, .ticket acc i, none), (0x07, .save acc i ok b, some (ok, b)),
      (0x08, .restore acc i ok b, some (ok, b)), (0x09, .configure acc i, none), (0x0A, .mcBind acc i, none),
      (0x10, .cerJoin acc i, none), (0x11, .cerSplit acc i, none), (0x12, .cerAbandon acc i, none),
      (0x13, .cerActivate acc i, none), (0x14, .mcLoad acc i ok b, some (ok, b))] →
    (∀ k, ImRun s acc op i d w t → generalCheck t op i w = k → k ≠ 0 → exec c s = .next (endRequest t (accIdx acc) k)) ∧
    (winBusy (winAt s (accIdx acc)) = true → (winAt s (accIdx acc)).waits = false → exec c s = .next s) ∧
    (winBusy (winAt s (accIdx acc)) = false → reaches s acc imPage = false → exec c s = .next s)

/-- R623, R633 to R641, R649 to R653, R570, R572, R343, R350 to R352: what each request does once its general checks pass: an
instance is created, reset, removed, frozen, thawed, given a ticket, saved, restored or configured, a slot is bound or loaded,
a ceremony is joined, split, abandoned or activated. RESET raises the generation, or waits while jobs of the next value live.
TICKET and SAVE, which sign, are carried out while a channel can check the signatures (R457). R634, R635, R638, R640: a removal, a freeze or a reset that waited takes effect when what it waited for has ended, and not
before; a Function Level Reset of a virtual function resets its configuration space and, once created, its instance. The
model's choice: that an event whose condition does not hold changes nothing (log 3), the moments of logs 72 and 73, the saved
record (log 75). -/
def Obligations.InstanceRequestsAndCompletions : Prop :=
  (∀ (acc : Acc) (i a : Nat) (ok : Bool) (b : Bytes) (s t : State) (w : ImWindow), a = accIdx acc →
    (ImRun s acc 0x01 i none w t → generalCheck t 0x01 i w = 0 → poolCheck t (argInst w).rings (argInst w).kcShare 0 = 0 →
      (∀ k, (argInst w).mcSlot = some k → slotLoaded t k = true) → (argInst w).span = 0 →
      exec (.create acc i) s = .next (endRequest (createGo t i w) a 0)) ∧
    (ImRun s acc 0x02 i none w t → generalCheck t 0x02 i w = 0 → (instAt t i).removing = false → wrapBlocked t i = false →
      exec (.reset acc i) s = .next (endRequest (resetInst t i) a 0) ∧
      (instAt (resetInst t i) i).gen = ((instAt t i).gen + 1) % 256) ∧
    (ImRun s acc 0x02 i none w t → generalCheck t 0x02 i w = 0 → (instAt t i).removing = false → wrapBlocked t i = true →
      exec (.reset acc i) s = .next (putInst t i { instAt t i with waitWrap := true })) ∧
    (ImRun s acc 0x03 i none w t → generalCheck t 0x03 i w = 0 → exec (.remove acc i) s = .next (beginRemove t i)) ∧
    (ImRun s acc 0x04 i none w t → generalCheck t 0x04 i w = 0 → exec (.freeze acc i) s = .next (beginFreeze t i)) ∧
    (ImRun s acc 0x05 i none w t → generalCheck t 0x05 i w = 0 →
      ((instAt t i).saved = false → exec (.thaw acc i) s = .next (endRequest
        (persistInst (tryRun (modUnit t (instPage i) fun u => { u with quiesce := false }) (instPage i)) i) a 0)) ∧
      ((instAt t i).saved = true → exec (.thaw acc i) s = .next (endRequest t a 0x10))) ∧
    (ImRun s acc 0x06 i none w t → generalCheck t 0x06 i w = 0 →
      (t.im.tickets.length < 16 → 6475 + (certOf t).length ≤ argOf w 2 → keelChecks t = true →
        (doTicket t a i w).2 = 0 ∧ exec (.ticket acc i) s = .next (endRequest (doTicket t a i w).1 a 0) ∧
        ∃ x, (doTicket t a i w).1.im.tickets = (t.im.tickets.filter fun y => y.inst ≠ i) ++ [x] ∧ x.inst = i ∧
          x.destFp = deviceFp) ∧
      (t.im.tickets.length < 16 → argOf w 2 < 6475 + (certOf t).length → exec (.ticket acc i) s =
        .next (endRequest (putWin t a { winAt t a with out0 := 6475 + (certOf t).length }) a 0x13))) ∧
    (ImRun s acc 0x07 i (some (ok, b)) w t → generalCheck t 0x07 i w = 0 → keelChecks t = true ∨ (doSave t a i w).2 ≠ 0 →
      exec (.save acc i ok b) s = .next (endRequest (doSave t a i w).1 a (doSave t a i w).2) ∧
      ((instAt t i).saved = true → (doSave t a i w).2 ≠ 0 ∧ (doSave t a i w).1 = t)) ∧
    (∀ u p, ImRun s acc 0x08 i (some (ok, b)) w t → generalCheck t 0x08 i w = 0 → restoreCheck t i w = (u, 0, p) →
      (argInst w).span = 0 → exec (.restore acc i ok b) s = .next (endRequest (restoreNow u i w p) a 0)) ∧
    (∀ u k p, ImRun s acc 0x08 i (some (ok, b)) w t → generalCheck t 0x08 i w = 0 → restoreCheck t i w = (u, k, p) → k ≠ 0 →
      exec (.restore acc i ok b) s = .next (endRequest u a k)) ∧
    (ImRun s acc 0x09 i none w t → generalCheck t 0x09 i w = 0 → kcShared t (some i) + (argInst w).kcShare ≤ 262144 →
      (∀ k, (argInst w).mcSlot = some k → slotLoaded t k = true) →
      exec (.configure acc i) s = .next (endRequest (tellSpan (persistInst (rebind (mendShare (putInst t i { instAt t i with
        weight := (argInst w).weight, ballast := (argInst w).ballast, mcSlot := (argInst w).mcSlot, kcShare := (argInst w).kcShare
        chans := (argInst w).chans }) i) i) i) i 4) a 0)) ∧
    (ImRun s acc 0x0A i none w t → generalCheck t 0x0A i w = 0 →
      exec (.mcBind acc i) s = .next (endRequest (tellSpan (persistInst (putInst t i { instAt t i with
        mcSlot := if bit (argOf w 0) 2 then none else some (argOf w 0 % 4) }) i) i 4) a 0)) ∧
    (ImRun s acc 0x10 i none w t → generalCheck t 0x10 i w = 0 → t.kh.pendingGen = false → ceremonyCheck t 0x10 i w = 0 →
      exec (.cerJoin acc i) s = .next (endRequest
        { t with kh := { t.kh with joins := t.kh.joins ++ [(bits (argOf w 0) 8 2, argOf w 0 % 32, i)] } } a 0)) ∧
    (ImRun s acc 0x11 i none w t → generalCheck t 0x11 i w = 0 → t.kh.pendingGen = false → ceremonyCheck t 0x11 i w = 0 →
      exec (.cerSplit acc i) s = .next (endRequest (beginSplit t (argOf w 0 % 32) i (bits (argOf w 0) 8 4) (bits (argOf w 0) 12 4)
        (bits (argOf w 0) 16 8)) a 0)) ∧
    (ImRun s acc 0x12 i none w t → generalCheck t 0x12 i w = 0 → t.kh.pendingGen = false → ceremonyCheck t 0x12 i w = 0 →
      exec (.cerAbandon acc i) s = .next (endRequest (emptySlot t (argOf w 0 % 32)) a 0)) ∧
    (ImRun s acc 0x13 i none w t → generalCheck t 0x13 i w = 0 → t.kh.pendingGen = false → ceremonyCheck t 0x13 i w = 0 →
      (instAt t i).span = 0 →
      exec (.cerActivate acc i) s = .next (endRequest (armActivate t (argOf w 0 % 32) i (argOf w 1 + 2 ^ 32 * argOf w 2)) a 0)) ∧
    (∀ op c, (op, c) ∈ [(0x10, Instr.cerJoin acc i), (0x11, .cerSplit acc i), (0x12, .cerAbandon acc i), (0x13, .cerActivate acc i)] →
      ImRun s acc op i none w t → generalCheck t op i w = 0 → t.kh.pendingGen = false → ceremonyCheck t op i w ≠ 0 →
      exec c s = .next (endRequest t a (ceremonyCheck t op i w))) ∧
    (ImRun s acc 0x14 i (some (true, b)) w t → generalCheck t 0x14 i w = 0 →
      (imageCause t (argOf w 0 % 4) b (argOf w 3) = 0 →
        exec (.mcLoad acc i true b) s = .next (endRequest (loadImage t (argOf w 0 % 4) b) a 0)) ∧
      (∀ k, imageCause t (argOf w 0 % 4) b (argOf w 3) = k → k ≠ 0 → exec (.mcLoad acc i true b) s = .next (endRequest
        (storeDrop { t with mc := { t.mc with slots := tset {} t.mc.slots (argOf w 0 % 4) { state := 3, cause := k } } } 5
          (argOf w 0 % 4)) a 0))) ∧
    (ImRun s acc 0x14 i (some (false, b)) w t → generalCheck t 0x14 i w = 0 →
      exec (.mcLoad acc i false b) s = .next (endRequest t a 0x12))) ∧
  (∀ (i : Nat) (s : State), (∀ a, winBusy (winAt s a) = true → (winAt s a).waits = false ∧
      ((winAt s a).op = 0x08 → s.kh.ripcorded = false)) →
    ((instAt s i).removing = true → instIdle s i = true → exec (.removeComplete i) s = .next (finishRemove s i)) ∧
    ((instAt s i).removing = false ∨ instIdle s i = false → exec (.removeComplete i) s = .next s) ∧
    ((instAt s i).freezing = true → instIdle s i = true → exec (.freezeComplete i) s = .next (finishFreeze s i)) ∧
    ((instAt s i).freezing = false ∨ instIdle s i = false → exec (.freezeComplete i) s = .next s) ∧
    ((instAt s i).waitWrap = true → wrapBlocked s i = false → ∀ u, u = endRequests (resetInst s i) 0x02 i 0 →
      exec (.generationWrapWaitEnd i) s =
        .next (vfSettle (vfSettle (if resetAsked s i && (instAt s i).resetWaits then resetOrWait u i else u) 0) 1)) ∧
    ((instAt s i).waitWrap = false ∨ wrapBlocked s i = true → exec (.generationWrapWaitEnd i) s = .next (vfSettle (vfSettle s 0) 1)) ∧
    (∀ t, t = putInst { s with msix := s.msix.filter fun e => e.1 / 32 ≠ i } i { instAt s i with bme := false } →
      ((instAt t i).created = true → (instAt t i).removing = false → wrapBlocked t i = false →
        exec (.functionLevelResetVf i) s = .next (resetInst t i)) ∧
      ((instAt t i).created = true → (instAt t i).removing = false → wrapBlocked t i = true → exec (.functionLevelResetVf i) s =
        .next (putInst t i { instAt t i with waitWrap := true, resetWaits := true })) ∧
      ((instAt t i).created = false ∨ (instAt t i).removing = true → exec (.functionLevelResetVf i) s = .next t)))

/-! ### Host ports (22_host_ports_power_startup.md) -/

/-- R852, R856 to R858, R863, R872, R888, R889: the events of a host port. VF Enable, resets of the function and the port, the
link coming up, completion timeouts, TLPs without a Secure stream, integrity failures, Bus Master Enable and PERSTn_N. The
model's choice: that an event whose condition does not hold changes nothing (log 3), PCI Express defaults (log 88),
PLAIN_DROPS (log 89). -/
def Obligations.HostPortEvents : Prop :=
  ∀ (n k : Nat) (s : State), Legal s → n < 2 →
    ((portAtN s n).enabled = false → (portAtN s n).resetting = [] → k ≤ 1024 → exec (.vfEnableWrite n true k) s =
      .next (putPortN s n { portAtN s n with enabled := true, numVf := k })) ∧
    ((portAtN s n).enabled = false → (portAtN s n).resetting ≠ [] → k ≤ 1024 → exec (.vfEnableWrite n true k) s =
      .next (putPortN s n { portAtN s n with pending := true, numVf := k })) ∧
    ((portAtN s n).enabled = true ∨ 1024 < k → exec (.vfEnableWrite n true k) s = .next s) ∧
    ((portAtN s n).enabled = true → ∃ t, exec (.vfEnableWrite n false k) s = .next t ∧ t = clearVfs s n ∧
      (portAtN t n).enabled = false ∧ (portAtN t n).numVf = 0) ∧
    ((portAtN s n).enabled = false → (portAtN s n).pending = false → exec (.vfEnableWrite n false k) s = .next s) ∧
    (exec (.functionLevelResetPf n) s = .next (noteRingWaits (pumpRequests (clearAccessor (configReset s n) n))) ∧
      (portAtN (configReset s n) n).bme = false ∧ (portAtN (configReset s n) n).enabled = false) ∧
    (∀ cause, cause ≤ 2 → ∃ t, exec (.portReset n cause) s = .next t ∧ (portAtN t n).up = false ∧ (portAtN t n).bme = false ∧
      (portAtN t n).sessions = [] ∧ (portAtN t n).streams = [] ∧ (portAtN t n).speed = 0 ∧ (portAtN t n).width = 0 ∧
      (cause = 0 → (portAtN t n).perst = true)) ∧
    (∀ speed width, (portAtN s n).perst = false → (portAtN s n).up = false → 1 ≤ speed → speed ≤ 5 → width ∈ [1, 2, 4, 8, 16] →
      (unitAt s (portPage n)).state = .starting → (unitAt s (portPage n)).quiesce = false → (unitAt s 0).state ≠ .quiesced →
      portInsts s n = [] →
      ∃ t, exec (.linkUp n speed width) s = .next t ∧ (portAtN t n).up = true ∧ (portAtN t n).speed = speed ∧
        (portAtN t n).width = width ∧ (unitAt t (portPage n)).state = .running) ∧
    (∀ speed width, (portAtN s n).perst = true ∨ (portAtN s n).up = true → exec (.linkUp n speed width) s = .next s) ∧
    (∀ m j, jobAt s m = some j → (portAtN s (instAt s j.inst).port).ctoDisable = false →
      exec (.completionTimeout m) s = .next (hostRead s m false []) ∧
      ((∃ k, j.phase = .readHead k) → hostRead s m false [] = failJob s m 0x1005)) ∧
    (∀ m j, jobAt s m = some j → (portAtN s (instAt s j.inst).port).ctoDisable = true →
      exec (.completionTimeout m) s = .next s) ∧
    (∀ stream, (portAtN s n).require = true → 3 ≤ stream ∨ streamSecure (portAtN s n) stream = false →
      exec (.tlpReceive n false stream) s =
        .next (putPortN s n { portAtN s n with plainDrops := min 65535 ((portAtN s n).plainDrops + 1) })) ∧
    (∀ stream exempt, (portAtN s n).require = false ∨ exempt = true ∨ (stream < 3 ∧ streamSecure (portAtN s n) stream = true) →
      exec (.tlpReceive n exempt stream) s = .next s) ∧
    (∀ stream, stream < 3 → streamSecure (portAtN s n) stream = true → exec (.ideIntegrityFail n stream) s =
      .next (setEvent (putPortN s n { portAtN s n with
        streams := tset {} (portAtN s n).streams stream { streamAt (portAtN s n) stream with rx := none, tx := none } }) (1 + n) 19)) ∧
    (∀ stream, streamSecure (portAtN s n) stream = false → exec (.ideIntegrityFail n stream) s = .next s) ∧
    (∀ on, exec (.physicalFunctionBusMasterEnable n on) s = .next (noteRingWaits (putPortN s n { portAtN s n with bme := on }))) ∧
    exec (.perstRelease n) s = .next (putPortN s n { portAtN s n with perst := false })

/-- R859 to R862, R873: SPDM and IDE_KM. A request is answered only while the mailbox takes data objects; one out of order, on
a session that is not established or that the lifecycle forbids gets an error; an answer goes out with its content, and
sessions and key sets change as the request says. The model's choice: that an event whose condition does not hold changes
nothing (log 3), SPDM codes and the form of answers (log 90). -/
def Obligations.SpdmAndIdeKeys : Prop :=
  ∀ (n id stream set : Nat) (tx : Bool) (b key : Bytes) (s : State), Legal s →
    (doeOpen s n = false → ∀ c ∈ [Instr.getVersion n b, .getCapabilities n b, .negotiateAlgorithms n b, .getDigests n b,
      .getCertificate n b, .spdmChallenge n b, .getMeasurements n b, .keyExchange n b, .finish n b, .keyUpdate n id b,
      .endSession n id, .query n id stream, .keyProg n id stream set tx key, .kSetGo n id stream set tx, .kSetStop n id stream set tx],
      exec c s = .next s) ∧
    (doeOpen s n = true → exec (.getVersion n b) s = .next (spdmAnswer (putPortN s n { portAtN s n with
      spdmVersion := true, spdmCaps := false, spdmAlgs := false, transcript := [] }) n b 0x04 [0x12#8])) ∧
    (doeOpen s n = true → (portAtN s n).spdmVersion = true →
      exec (.getCapabilities n b) s = .next (spdmAnswer (putPortN s n { portAtN s n with spdmCaps := true }) n b 0x61 [16#8])) ∧
    (doeOpen s n = true → (portAtN s n).spdmCaps = true → exec (.negotiateAlgorithms n b) s =
      .next (spdmAnswer (putPortN s n { portAtN s n with spdmAlgs := true }) n b 0x63
        (ascii "ECDSA-P384" ++ ascii "SHA-384" ++ ascii "secp384r1" ++ ascii "AES-256-GCM"))) ∧
    (doeOpen s n = true → spdmReady (portAtN s n) = false →
      ∀ c ∈ [Instr.getDigests n b, .getCertificate n b, .spdmChallenge n b, .getMeasurements n b, .keyExchange n b],
        exec c s = .next (spdmFail s n 0x04)) ∧
    (doeOpen s n = true → spdmReady (portAtN s n) = true →
      exec (.getDigests n b) s = .next (spdmAnswer s n b 0x01 (Config.out .sha384 [spdmChain s] 48)) ∧
      (field b 2 1 = 0 → ∀ part, part = ((spdmChain s).drop (field b 4 2)).take (field b 6 2) →
        exec (.getCertificate n b) s = .next (spdmAnswer s n b 0x02
          (le 2 part.length ++ le 2 ((spdmChain s).length - field b 4 2 - part.length) ++ part))) ∧
      (identityUsable s = false → exec (.spdmChallenge n b) s = .next (spdmFail s n 0x05) ∧
        exec (.keyExchange n b) s = .next (spdmFail s n 0x05)) ∧
      (identityUsable s = true → ∃ t nonce sig, exec (.spdmChallenge n b) s = .next t ∧ nonce.length = 32 ∧ sig.length = 96 ∧
        Output.spdm n ([0x12#8, 3#8] ++ (Config.out .sha384 [spdmChain s] 48 ++ nonce ++ sig)) ∈ t.out) ∧
      (field b 3 1 = 0 → bit (field b 2 1) 0 = false → exec (.getMeasurements n b) s = .next (spdmAnswer s n b 0x60 [9#8])) ∧
      (1 ≤ field b 3 1 → field b 3 1 ≤ 9 → bit (field b 2 1) 0 = false → exec (.getMeasurements n b) s =
        .next (spdmAnswer s n b 0x60 (BitVec.ofNat 8 (field b 3 1) :: measurement s (field b 3 1)))) ∧
      (identityUsable s = true → (portAtN s n).sessions.length < 4 → ∃ t x, exec (.keyExchange n b) s = .next t ∧
        (portAtN t n).sessions = (portAtN s n).sessions ++ [x] ∧ x.established = false) ∧
      (identityUsable s = true → 4 ≤ (portAtN s n).sessions.length → exec (.keyExchange n b) s = .next (spdmFail s n 0x0A))) ∧
    (∀ x, doeOpen s n = true → (portAtN s n).sessions.find? (fun x => !x.established) = some x →
      Config.check .spdm [be 48 x.secret.toNat, (portAtN s n).transcript, b] = true → exec (.finish n b) s =
        .next (spdmAnswer (putPortN s n { portAtN s n with
          sessions := (portAtN s n).sessions.map fun y => if y.id = x.id then { y with established := true } else y }) n b 0x65 [])) ∧
    (doeOpen s n = true → sessionOf s n id = none →
      ∀ c ∈ [Instr.keyUpdate n id b, .endSession n id, .query n id stream, .keyProg n id stream set tx key,
        .kSetGo n id stream set tx, .kSetStop n id stream set tx], exec c s = .next (spdmFail s n 0x04)) ∧
    (∀ x, doeOpen s n = true → sessionOf s n id = some x →
      (field b 2 1 = 2 → exec (.keyUpdate n id b) s = .next (spdmAnswer (putPortN s n { portAtN s n with
        sessions := (portAtN s n).sessions.map fun z => if z.id = id then
          { x with updatesReq := x.updatesReq + 1, updatesRsp := x.updatesRsp + 1 } else z }) n b 0x69 (b.drop 2))) ∧
      exec (.endSession n id) s = .next (spdmAnswer (putPortN s n { portAtN s n with
        sessions := (portAtN s n).sessions.filter fun z => z.id ≠ id }) n [] 0x6C []) ∧
      (∀ f c, (c, f) ∈ [(Instr.query n id stream, fun (y : IdeStream) => y),
        (.keyProg n id stream set tx key, fun y => { y with
          keys := tput y.keys (2 * (set % 2) + bitAt tx 0) (BitVec.ofNat 256 (unbe (pad 32 key))) }),
        (.kSetGo n id stream set tx, setGo set tx), (.kSetStop n id stream set tx, setStop set tx)] →
        (stream < 3 → exec c s = .next (spdmAnswer (putPortN s n { portAtN s n with
          streams := tset {} (portAtN s n).streams stream (f (streamAt (portAtN s n) stream)) }) n [] 0x7E [BitVec.ofNat 8 stream])) ∧
        (3 ≤ stream → exec c s = .next (spdmFail s n 0x01)))) ∧
    (∀ y : IdeStream, (tfind y.keys (2 * (set % 2))).isSome = true → setGo set false y = { y with rx := some (set % 2) }) ∧
    (∀ y : IdeStream, tfind y.keys (2 * (set % 2)) = none → setGo set false y = y) ∧
    (∀ y : IdeStream, y.rx = some (set % 2) → setStop set false y = { y with rx := none })

/-! ### Bridle lines (17_gondolas_and_bridle.md) -/

/-- R692 to R694, R697 to R702: the lines. Signal starts training; an attempt takes the positions that trained at both ends,
or fails; a lane that loses lock makes an UP line retrain or takes it down; a line near the end of its LSEQ agrees new keys;
ACK empties the replay buffer up to its LSEQ, NAK replays from it, at most three times; CREDIT is added; a frame for another
member goes on with VLANE + 1, or is dropped. The model's choice: that an event whose condition does not hold changes nothing
(log 3), logs 78, 79 and 80. -/
def Obligations.BridleLines : Prop :=
  ∀ (m : Nat) (l : Line) (s : State), l = lineAt s m →
    (lineEnabled s m = true → l.lstate = .down → ∃ t, exec (.lineSignalDetect m) s = .next t ∧
      lineAt t m = { l with lstate := .training } ∧ ∀ k, k ≠ m → lineAt t k = lineAt s k) ∧
    (lineEnabled s m = false ∨ l.lstate ≠ .down → exec (.lineSignalDetect m) s = .next s) ∧
    (∀ good, lineEnabled s m = true → l.lstate = .training → lineConfigBad s m = false → 0 < l.count → forms s = false →
      (∀ p, p < l.count → p ∈ good ∧ s.bridle.lanesRetired.contains (l.first + p) = false) →
      ∃ t, exec (.lineTrainingAttempt m good) s = .next t ∧ (lineAt t m).lstate = .keying ∧
        (lineAt t m).positions = List.range l.count ∧ (lineAt t m).attempts = 0 ∧ (lineAt t m).cause = 0 ∧
        (lineAt t m).lseqOut = 0 ∧ (lineAt t m).lseqIn = 0 ∧ (lineAt t m).replay = []) ∧
    (∀ good, lineEnabled s m = true → l.lstate = .training → lineConfigBad s m = true →
      exec (.lineTrainingAttempt m good) s = .next (attemptFailed s m 1)) ∧
    (lineEnabled s m = true → l.lstate = .training → lineConfigBad s m = false →
      exec (.lineTrainingAttempt m []) s = .next (attemptFailed s m 2)) ∧
    (∀ k, l.lstate = .training → l.attempts < 2 → noLaneLeft s m = false →
      (lineAt (attemptFailed s m k) m).lstate = .down ∧ (lineAt (attemptFailed s m k) m).attempts = l.attempts + 1 ∧
      (lineAt (attemptFailed s m k) m).cause = k) ∧
    (∀ good, lineEnabled s m = false ∨ (l.lstate ≠ .training ∧ l.lstate ≠ .retraining) →
      exec (.lineTrainingAttempt m good) s = .next s) ∧
    (∀ lane left, left = l.positions.filter (fun p => decide (l.first + p ≠ lane)) → lineEnabled s m = true →
      (l.lstate = .up → left ≠ l.positions → left ≠ [] → exec (.laneLossOfLock m lane) s =
        .next (setLine (putLine s m { l with positions := left }) m .retraining)) ∧
      (l.lstate = .up → left ≠ l.positions → left = [] → exec (.laneLossOfLock m lane) s =
        .next (lineDown (putLine s m { l with positions := [] }) m)) ∧
      (l.lstate = .up → left = l.positions → exec (.laneLossOfLock m lane) s = .next s) ∧
      (l.lstate = .down → exec (.laneLossOfLock m lane) s = .next s)) ∧
    (l.lstate = .up → l.ephemeral = 0 → 2 ^ 47 ≤ l.lseqOut ∨ 2 ^ 47 ≤ l.lseqIn → ∃ t f, exec (.lseqRekey m) s = .next t ∧
      f.cls = 1 ∧ f.cdata = pad 40 [2#8] ∧ f.lseq = l.lseqOut ∧ (lineAt t m).replay = l.replay ++ [f] ∧
      (lineAt t m).keyOut = l.keyOut ∧ (lineAt t m).keyIn = l.keyIn ∧ Output.frame m f ∈ t.out) ∧
    (l.lstate ≠ .up ∨ (l.lseqOut < 2 ^ 47 ∧ l.lseqIn < 2 ^ 47) → exec (.lseqRekey m) s = .next s) ∧
    (∀ q, l.lstate = .up ∨ l.lstate = .keying → s.power.state = .run →
      exec (.ack m q) s = .next (putLine s m { l with
        replay := l.replay.filter fun f => decide (q < f.lseq)
        tries := if (l.replay.filter fun f => decide (q < f.lseq)).head? = l.replay.head? then l.tries else 0 })) ∧
    (∀ q left f rest, l.lstate = .up → s.power.state = .run → left = l.replay.filter (fun f => decide (q ≤ f.lseq)) →
      left = f :: rest → l.replay.head? = some f →
      (l.tries < 3 → exec (.nak m q) s = .next (left.foldl (fun s f => emit s (.frame m f)) (putLine s m { l with
        replay := left, tries := l.tries + 1, replays := l.replays + w32 left.length
        tx := (l.tx + (left.map frameFlits).sum) % 2 ^ 64 }))) ∧
      (3 ≤ l.tries → lineUp (putLine s m { l with replay := if needsCredit f then rest else left, tries := 0 }) m = true →
        exec (.nak m q) s = .next (dropFrame (setLine (putLine s m { l with
          replay := (if needsCredit f then rest else left), tries := 0 }) m .retraining) f))) ∧
    (∀ cls vlane flits, l.lstate = .up ∨ l.lstate = .keying → s.power.state = .run → l.waiting = [] → flits ≠ 0 →
      exec (.credit m cls vlane flits) s = .next (putLine s m { l with
        credit := tset 0 l.credit (creditKey cls vlane) (tget 0 l.credit (creditKey cls vlane) + flits) })) ∧
    (∀ q cls vlane flits, l.lstate ≠ .up → l.lstate ≠ .keying → exec (.ack m q) s = .next s ∧ exec (.nak m q) s = .next s ∧
      exec (.credit m cls vlane flits) s = .next s) ∧
    (∀ f r, l.lstate = .up → f.dst ≠ selfMember s → f.dst ≠ 0xFFFF → f.vlane < 7 → routeTo s f.dst = some r →
      exec (.frameRelay m f true) s =
        .next (grant (sendOn (takeFrame s m (frameFlits f)) r.line { f with vlane := f.vlane + 1 }) m f)) ∧
    (∀ f, l.lstate = .up → f.dst ≠ selfMember s → f.dst ≠ 0xFFFF → routeTo s f.dst = none ∨ 7 ≤ f.vlane →
      exec (.frameRelay m f true) s = .next (dropFrame (takeFrame s m (frameFlits f)) f) ∧
      exec (.frameRelay m f false) s = .next (crcFailed (charge s (linePage m) 5) m)) ∧
    (∀ f ok, l.lstate ≠ .up ∨ f.dst = selfMember s ∨ f.dst = 0xFFFF → exec (.frameRelay m f ok) s = .next s)

/-! ### Formation -/

/-- R706 to R709, R711 to R715, R721, R722, R361, R653: the FORMATION messages. A message on a line that does not carry it has
no effect; one that is carried is counted and acknowledged, and then does what its rule says, or no more than that. The
model's choice: that an event whose condition does not hold changes nothing (log 3), the layout and sequence of messages (logs
76, 77, 82, 83 and 85), the keel's signatures counted at once (log 13). -/
def Obligations.FormationMessages : Prop :=
  ∀ (m n g : Nat) (s : State),
    (lineLive s m = false → ∀ cert sys ser dg pl nonce a b c d e data, exec (.hello m cert sys ser dg pl nonce) s = .next s ∧
      exec (.key m a b c d e) s = .next s ∧ exec (.record m data) s = .next s) ∧
    (lineUp s m = false → ∀ c ∈ [Instr.linkState m n g [] [], .root m g n, .cosign m n g [], .cert m g 0 n [] [] [], .signReq m n g [],
      .signed m n [] [], .leave m n, .expel m n], exec c s = .next s) ∧
    (∀ cert sys ser dg pl nonce u r, u = takeFrame s m 2 → r = heldRecord u → lineLive s m = true → lineUp u m = false →
      (forms u = false → exec (.hello m cert sys ser dg pl nonce) s = .next u) ∧
      (forms u = true → Config.check .x509 [cert] = false →
        exec (.hello m cert sys ser dg pl nonce) s = .next (lineMismatch u m 3)) ∧
      (forms u = true → Config.check .x509 [cert] = true → sys = recSystem r → recSerial r < ser →
        exec (.hello m cert sys ser dg pl nonce) s = .next (putFrame u m (formation 3 [] []))) ∧
      (forms u = true → Config.check .x509 [cert] = true → sys ≠ recSystem r →
        recIndexOf r (Config.out .deviceFp [cert] 24) = none →
        exec (.hello m cert sys ser dg pl nonce) s = .next (lineMismatch u m 4)) ∧
      (∀ k, forms u = true → Config.check .x509 [cert] = true → sys = recSystem r → ser = recSerial r → dg = recordDigest u →
        recIndexOf r (Config.out .deviceFp [cert] 24) = some k → linkListed r (selfMember u) m k pl = true →
        exec (.hello m cert sys ser dg pl nonce) s = .next (sendKey (modLine u m fun l => { l with
          peer := some k, peerHello := pad 32 nonce ++ (lineAt u m).nonce ++ cert ++ dg ++ le 8 sys ++ le 8 ser }) m))) ∧
    (∀ ecdh kem ct e p k u, u = takeFrame s m 2 → lineLive s m = true → (lineAt s m).peer = some k → forms u = true →
      (lineAt s m).peerHello ≠ [] →
      (Config.check .sign [[2#8], (lineAt s m).peerHello, e, (lineAt s m).peerHello ++ ecdh ++ kem] = false →
        exec (.key m ecdh kem ct e p) s = .next (lineMismatch u m 7)) ∧
      (Config.check .sign [[2#8], (lineAt s m).peerHello, e, (lineAt s m).peerHello ++ ecdh ++ kem] = true →
        Config.check .sign [[0x0A#8], (lineAt s m).peerHello, p, (lineAt s m).peerHello ++ ecdh ++ kem] = true →
        ((lineAt s m).lstate = .up → ∃ t, exec (.key m ecdh kem ct e p) s = .next t ∧ (lineAt t m).keyOut.isSome = true ∧
          (lineAt t m).keyIn.isSome = true ∧ (lineAt t m).ephemeral = 0) ∧
        ((lineAt s m).lstate = .keying → ∃ v w, w = setLine (greetPeer v m) m .up ∧
          exec (.key m ecdh kem ct e p) s = .next (drainWaiting w m (lineAt w m).waiting.length) ∧
          (lineAt v m).keyOut.isSome = true ∧ (lineAt v m).keyIn.isSome = true))) ∧
    (∀ data u, u = takeFrame s m (2 + (data.length + 63) / 64) → lineLive s m = true → forms u = true →
      (data = [] → exec (.record m data) s = .next (putFrame u m (formation 3 [] [heldRecord u]))) ∧
      (data ≠ [] → recSystem data = recSystem (heldRecord u) → recSerial (heldRecord u) < recSerial data → recordCheck u data = 0 →
        exec (.record m data) s = .next (reformAll (adoptRecord u data))) ∧
      (data ≠ [] → recordCheck u data ≠ 0 → exec (.record m data) s = .next u)) ∧
    (∀ ver lines peers u, u = takeFrame s m 2 → lineUp s m = true → forms u = true → n ≠ selfMember u →
      (tfind u.bridle.links n = none → exec (.linkState m n ver lines peers) s = .next (settle s (flood (modBridle u fun b => { b with
        links := tput b.links n { version := ver, links := lines.zip peers, seen := b.version }
        left := b.left.filter (· ≠ n), expelled := b.expelled.filter (· ≠ n) }) (some m)
        { formation 4 ([n, ver] ++ (lines.zip peers).flatMap fun e => [e.1, e.2]) [] with src := n }))) ∧
      (∀ x, tfind u.bridle.links n = some x → ver ≤ x.version → exec (.linkState m n ver lines peers) s = .next u)) ∧
    (∀ u, u = takeFrame s m 3 → lineUp s m = true → forms u = true →
      (rootInOffice u g ≠ some n → agreesRoot u m g n = true → n ≠ selfMember u → exec (.root m g n) s =
        .next (settle s (flood (setRoot u g n) (some m) (formation 5 [g, n] [])))) ∧
      (rootInOffice u g ≠ some n → agreesRoot u m g n = true → n = selfMember u → u.bridle.noOffice = false →
        exec (.root m g n) s = .next (settle s (takeOffice u g))) ∧
      (rootInOffice u g = some n ∨ agreesRoot u m g n = false → exec (.root m g n) s = .next u)) ∧
    (∀ ser ec pq pos u r, u = takeFrame s m 46 → r = heldRecord u → lineUp s m = true → forms u = true →
      (ser = recSerial r → g < (recCounts r).1 → ∃ sig, sig.length = 96 ∧
        exec (.cosignReq m n g (recSystem r) ser (recordDigest u) ec pq pos) s =
          .next (sendTo { passKeel u 1 with fresh := (passKeel u 1).fresh + 1 } n (formation 7 [selfMember u, g] [sig]))) ∧
      (ser ≠ recSerial r → exec (.cosignReq m n g (recSystem r) ser (recordDigest u) ec pq pos) s = .next u)) ∧
    (∀ sig k u, u = takeFrame s m 4 → lineUp s m = true → tfind u.bridle.keys g = some k →
      (Config.check .sign [[2#8], recFp (heldRecord u) n, sig, k.statement] = true → (∀ c ∈ k.cosigns, c.1 ≠ n) →
        n ∈ devicesIn (heldRecord u) g → exec (.cosign m n g sig) s = .next (settle s (tryIssue (modBridle u fun b => { b with
          keys := tput b.keys g { k with cosigns := k.cosigns ++ [(n, sig)] } }) g))) ∧
      (Config.check .sign [[2#8], recFp (heldRecord u) n, sig, k.statement] = false →
        exec (.cosign m n g sig) s = .next u)) ∧
    (∀ pos pub co data u c, u = takeFrame s m (2 + (data.length + 63) / 64) → lineUp s m = true →
      c = ({ pos := pos, root := n, pub := pub, cosigners := co } : GCert) → forms u = true → tfind u.bridle.certs g ≠ some c →
      (rootInOffice u g = some n → Config.check .x509 [data] = true → cosignQuorum u g co = true →
        exec (.cert m g pos n pub co data) s = .next (settle s (flood (certInForce u g c) (some m) (certFrame g c)))) ∧
      (rootInOffice u g ≠ some n ∨ Config.check .x509 [data] = false ∨ cosignQuorum u g co = false →
        exec (.cert m g pos n pub co data) s = .next u)) ∧
    (∀ i k gen pos kcv key u, u = takeFrame s m 4 → lineUp s m = true → (∀ h ∈ u.bridle.spanHeld, h.inst = i → h.home ≠ n) →
      exec (.kbpk m n 0 i k gen pos kcv key) s = .next (pumpRequests u) ∧
      exec (.kbpk m n 4 i k gen pos kcv key) s = .next (pumpRequests u)) ∧
    (∀ i k gen pos kcv key u h, u = takeFrame s m 4 → lineUp s m = true → h ∈ u.bridle.spanHeld → h.inst = i → h.home = n →
      ((slotAt u k).state = .staged → (slotAt u k).inst = i → exec (.kbpk m n 2 i k gen pos kcv key) s =
        .next (pumpRequests (armActivate u k i pos))) ∧
      (u.kh.ripcorded = false → (slotAt u k).state = .empty → kbpkKcv (BitVec.ofNat 256 (unbe (pad 32 key))) ≠ kcv →
        exec (.kbpk m n 0 i k gen pos kcv key) s = .next (pumpRequests (failSlot
          (putSlot u k { state := .collecting, gen := gen, inst := i, kcv := kcv }) k i 5)))) ∧
    (∀ i kc ballast ov mc u, u = takeFrame s m 3 → lineUp s m = true →
      ((∀ h ∈ u.bridle.spanHeld, h.inst ≠ i) → (instAt u i).created = false → kcShared u none + kc ≤ 262144 →
        exec (.span m n 0 i kc ballast ov mc) s = .next (pumpRequests (sendSpan (modBridle u fun b => { b with
          spanHeld := b.spanHeld ++ [{ inst := i, home := n, kc := kc, ballast := ballast, overlap := ov, mc := mc }] }) i 1 n {}))) ∧
      ((instAt u i).created = true ∨ 262144 < kcShared u none + kc → exec (.span m n 0 i kc ballast ov mc) s =
        .next (pumpRequests (sendSpan u i 2 n {})))) ∧
    (∀ msg k u, u = takeFrame s m (2 + (msg.length + 63) / 64) → lineUp s m = true → tfind u.bridle.keys g = some k →
      ∃ a b, a.length = 96 ∧ b.length = 4627 ∧ exec (.signReq m n g msg) s =
        .next (sendTo { passKeel u 2 with fresh := (passKeel u 2).fresh + 1 } n (formation 12 [selfMember u] [a, b]))) ∧
    (∀ a b, lineUp s m = true → exec (.signed m n a b) s = .next (takeFrame s m 76)) ∧
    (∀ u, u = takeFrame s m 3 → lineUp s m = true →
      (forms u = true → n ≠ selfMember u → u.bridle.left.contains n = false → exec (.leave m n) s =
        .next (settle s (modBridle (flood u (some m) { formation 13 [n] [] with src := n }) fun b => { b with left := b.left ++ [n] }))) ∧
      (forms u = true → u.bridle.expelled.contains n = false → exec (.expel m n) s =
        .next (expelMember s (flood u (some m) (formation 14 [n] [])) n)) ∧
      (forms u = false → exec (.leave m n) s = .next u ∧ exec (.expel m n) s = .next u))

/-- R704, R705, R721, R722, R729: the commands of BRL_FORM. LOAD ends with what its read or the first failing check says, or
loads the record; JOIN, LEAVE, EXPEL and CLEAR end at once with STATE or NOT_ROOT where they may not run; a command while BUSY
is dropped. The model's choice: that an event whose condition does not hold changes nothing (log 3), CLEAR and LOAD (log 85).
-/
def Obligations.FormationCommands : Prop :=
  ∀ (acc : Acc) (data : Bytes) (s u : State), u = modBridle s (fun b => { b with busy := true }) →
    (reaches s acc 0x020 = true → s.bridle.busy = false →
      exec (.formLoad acc false data) s = .next (endForm u 1) ∧
      (∀ k, recordCheck u (slice data 0 s.bridle.recLen.toNat) = k → k ≠ 0 → exec (.formLoad acc true data) s = .next (endForm u k)) ∧
      (recordCheck u (slice data 0 s.bridle.recLen.toNat) = 0 → exec (.formLoad acc true data) s =
        .next (endForm (loadRecord u (slice data 0 s.bridle.recLen.toNat)) 0)) ∧
      (s.bridle.state = .isolated → exec (.formJoin acc) s =
        .next (endForm (reformAll (modBridle s fun b => { b with state := .forming })) 0) ∧
        exec (.formClear acc) s = .next (endForm (dropRecord s) 0) ∧ exec (.formLeave acc) s = .next (endForm s 8)) ∧
      (s.bridle.state ≠ .isolated → exec (.formJoin acc) s = .next (endForm s 8)) ∧
      (s.bridle.state = .none → exec (.formClear acc) s = .next (endForm s 8) ∧ exec (.formLeave acc) s = .next (endForm s 8)) ∧
      (forms s = true → exec (.formLeave acc) s = .next (tryLeave (viewEvents s
          (modBridle s fun b => { b with state := .leaving, busy := true, clearing := false }))) ∧
        exec (.formClear acc) s = .next (tryLeave (viewEvents s
          (modBridle s fun b => { b with state := .leaving, busy := true, clearing := true })))) ∧
      (forms s = true → rootInOffice s (recOutermost (heldRecord s)) = some (selfMember s) → exec (.formExpel acc) s =
        .next (endForm (expelMember s (flood s none (formation 14 [s.bridle.target] [])) s.bridle.target) 0)) ∧
      (forms s = false ∨ rootInOffice s (recOutermost (heldRecord s)) ≠ some (selfMember s) →
        exec (.formExpel acc) s = .next (endForm s 9))) ∧
    (∀ k, (endForm s k).bridle = { s.bridle with busy := false, result := k } ∧ (endForm s k).jobs = s.jobs) ∧
    (∀ c ∈ [Instr.formJoin acc, .formLeave acc, .formExpel acc, .formClear acc],
      (s.bridle.busy = true → exec c s = .next s) ∧ (reaches s acc 0x020 = false → exec c s = .next s)) ∧
    (∀ ok, reaches s acc 0x020 = false → exec (.formLoad acc ok data) s = .next s)

/-! ### Forwarded work -/

/-- R31, R32, R47, R66 to R70, R362, R573, R696, R701, R724, R725: forwarded work. A chain goes out whole to the member R725
picks; a received forward is taken, waits for ballast, or goes back with NAK_FWD, a kept result or RETURNED; a result is
committed and acknowledged; a lost forward runs again, the fourth time it ends with 0x5001; LOAD is taken and flooded. The
model's choice: that an event whose condition does not hold changes nothing (log 3), the choices of log 84 and the ring field
of the identifier (log 81). -/
def Obligations.ForwardedWork : Prop :=
  ∀ (m n dest : Nat) (f : Frame) (s : State),
    (∀ j, jobAt s n = some j → j.phase = .handoff → n = j.first → j.origin = none → fwdTarget s j = some dest →
      mayForward s (chainOf s j) j = true → (∀ x ∈ chainOf s j, x.2.phase = .handoff) → ∀ g, g = forwardFrame s (chainOf s j) j dest →
      exec (.forwardSend n dest) s = .next (sendTo (modBridle ((chainOf s j).foldl (fun s x => modJob s x.1 fun j => { j with
        phase := .forwarded, fwdId := some g.fwdId, execMember := some dest }) s) fun b => { b with fwdOut := b.fwdOut + 1 }) dest g)) ∧
    (∀ j, jobAt s n = some j → j.phase ≠ .handoff ∨ fwdTarget s j ≠ some dest ∨ mayForward s (chainOf s j) j = false →
      exec (.forwardSend n dest) s = .next s) ∧
    (∀ u o, u = takeFrame s m (frameFlits f) → o = f.fwdId % 512 → lineUp s m = true → f.cls = 3 → f.dst = selfMember s →
      (tagOk u o f = false → exec (.forward m f) s =
        .next (grant (sendTo (charge u (linePage m) 6) o (control 5 f.fwdId [])) m f)) ∧
      (tagOk u o f = true → u.bridle.state = .leaving ∨ u.bridle.state = .isolated ∨ takesWork u 0 = false ∨
          takesWork u 0x020 = false → exec (.forward m f) s =
        .next (grant (sendTo u o (control 8 f.fwdId [3#8])) m f)) ∧
      (tagOk u o f = true → u.bridle.state = .member → takesWork u 0 = true → takesWork u 0x020 = true → receivedJobs u f.fwdId o = [] → u.bridle.fwdWaiting = [] →
        (executes u (bits f.fwdId 9 10) o = false → exec (.forward m f) s =
          .next (grant (sendTo u o (control 8 f.fwdId [3#8])) m f)) ∧
        (executes u (bits f.fwdId 9 10) o = true → (instKeys u (bits f.fwdId 9 10)).cur ≠ field f.cdata 0 1 →
          exec (.forward m f) s = .next (grant (sendTo u o (control 8 f.fwdId [1#8])) m f)) ∧
        (executes u (bits f.fwdId 9 10) o = true → (instKeys u (bits f.fwdId 9 10)).cur ≠ 0 →
          (instKeys u (bits f.fwdId 9 10)).cur = field f.cdata 0 1 → holdsImage u (slice f.cdata 4 12) = true →
          field f.cdata 1 1 = 1 → 1 ≤ freeReserve u + freeGeneral u → ∃ t j, exec (.forward m f) s = .next t ∧
            jobAt t s.nextSerial = some j ∧ j.phase = .handoff ∧ j.fwdId = some f.fwdId ∧ j.origin = some o ∧
            j.inst = bits f.fwdId 9 10 ∧ j.gen = bits f.fwdId 19 8 ∧ t.bridle.fwdWaiting = [] ∧ t.ballast.creditHeld = false ∧
            t.nextSerial = s.nextSerial + 1))) ∧
    (lineUp s m = false → exec (.forward m f) s = .next s ∧ exec (.result m f) s = .next s ∧ exec (.fwdAck m f) s = .next s ∧
      exec (.nakFwd m f) s = .next s ∧ exec (.nakRes m f) s = .next s ∧ exec (.lost m f) s = .next s ∧
      exec (.returned m f) s = .next s ∧ ∀ a b, exec (.load m n a b) s = .next s) ∧
    (∀ u, u = grant (takeFrame s m (frameFlits f)) m f → lineUp s m = true → f.cls = 4 → f.dst = selfMember s →
      (forwardsOf u f.fwdId = [] → exec (.result m f) s = .next u) ∧
      (forwardsOf u f.fwdId = [n] → tagOk u f.src f = false → exec (.result m f) s =
        .next (askResult (charge u (linePage m) 6) f.fwdId)) ∧
      (forwardsOf u f.fwdId = [n] → tagOk u f.src f = true → exec (.result m f) s =
        .next (tryLeave (ackForwards (tryCommit (takeResults u [n] (f.body.take (f.body.length - 16))) n))))) ∧
    (∀ u, u = takeFrame s m 2 → lineUp s m = true → f.cls = 5 →
      (∀ j, receivedJobs u f.fwdId (f.fwdId % 512) = [(n, j)] → j.phase = .kept → exec (.fwdAck m f) s =
        .next (tryLeave (fwdPump (dropLingering (retireJob u n) j.inst)))) ∧
      exec (.nakRes m f) s = .next (sendResult u f.fwdId (f.fwdId % 512)) ∧
      (forwardsOf u f.fwdId = [n] → exec (.nakFwd m f) s = .next (tryLeave (rerunForward 0 u n))) ∧
      (field f.cdata 1 1 = 3 → forwardsOf u f.fwdId = [n] → exec (.lost m f) s =
        .next (tryLeave (rerunForward 0 (modBridle u fun b => { b with lost := b.lost + 1 }) n))) ∧
      (field f.cdata 1 1 ≠ 3 → exec (.lost m f) s =
        .next (tryLeave (askResult (modBridle u fun b => { b with lost := b.lost + 1 }) f.fwdId))) ∧
      (forwardsOf u f.fwdId = [n] → field f.cdata 1 1 = 3 → exec (.returned m f) s =
        .next (tryLeave (modJob (modBridle u fun b => { b with returned := b.returned + 1 }) n fun j => { j with
          phase := .handoff, fwdId := none, execMember := none })))) ∧
    (∀ j p, jobAt s n = some j → j.phase = .forwarded →
      (j.reruns < 3 → OnlyJob s (rerunForward p s n) n { fresh5 j with
        reruns := j.reruns + 1, excluded := (if p = 0 then j.excluded else p :: j.excluded), fwdId := none, execMember := none
        nakRes := 0 }) ∧
      (3 ≤ j.reruns → OnlyJob s (rerunForward p s n) n { j with
        phase := .final, status := 0x5001, result := [], out := [], outLen := 0, leaf := [], fwdId := none, execMember := none })) ∧
    (∀ u idle free, u = takeFrame s m 2 → lineUp s m = true → forms u = true → n ≠ selfMember u →
      tfind u.bridle.loads n ≠ some (idle, free) → exec (.load m n idle free) s =
        .next (flood (modBridle u fun b => { b with
          loads := tput b.loads n (idle, free), excluded := b.excluded.filter fun e => e.2 ≠ n }) (some m) (loadFrame n idle free))) ∧
    (forms s = true → s.bridle.lastLoad + 4 ≤ idleChannels s ∨ idleChannels s + 4 ≤ s.bridle.lastLoad → exec .loadFlood s =
      .next (flood (modBridle s fun b => { b with lastLoad := idleChannels s }) none
        (loadFrame (selfMember s) (idleChannels s) (freeGeneral s)))) ∧
    (forms s = false ∨ (idleChannels s < s.bridle.lastLoad + 4 ∧ s.bridle.lastLoad < idleChannels s + 4) →
      exec .loadFlood s = .next s)

/-! ### Tamper (18_tamper_and_monitors.md) -/

/-- R734, R736, R739 to R742, R746 to R748, R753, R755, R757, R870: the commands of the tamper unit and the mooring domain. A
source fires on main power or on the cell, and not while it is disabled or under test; an acknowledged bit clears unless its
source is asserted; the thermometer and the fuses burn upward; a configuration under lock is refused; without VIN the device
is MOORED. The model's choice: that an event whose condition does not hold changes nothing (log 3), logs 109, 110 and 111. -/
def Obligations.TamperCommands : Prop :=
  ∀ (acc : Acc) (src machine unit : Nat) (v : Word32) (s : State),
    (vinPresent s = true → src < 42 → src ≠ 38 → (fireCore s src).2 = false →
      exec (.tamperFire src machine unit) s = .next (fireCore s src).1) ∧
    (vinPresent s = true → src < 42 → src ≠ 38 → (fireCore s src).2 = true →
      exec (.tamperFire src machine unit) s = .next (deviceReset (fireCore s src).1 3)) ∧
    (vinPresent s = true → src < 42 → src ≠ 38 → srcDisabled s src = false → s.tamper.testBusy = false → (srcAt s src).response = 0 →
      s.mooring.epOpen = true → ∃ t, exec (.tamperFire src machine unit) s = .next t ∧ t = { s with tamper := t.tamper } ∧
        t.tamper.fired = s.tamper.fired ||| BitVec.ofNat 42 (2 ^ src) ∧ t.tamper.logCount = s.tamper.logCount + 1) ∧
    (vinPresent s = true → src < 42 → src ≠ 38 → srcDisabled s src = true ∨ (s.tamper.testBusy = true ∧ s.tamper.testSrc = src ∧ 2 ≤ src) →
      exec (.tamperFire src machine unit) s =
        .next (putSrc s src { srcAt s src with count := 0, asserted := decide ((srcRow src).top ≠ 0) })) ∧
    (vinPresent s = false ∨ 42 ≤ src → exec (.tamperFire src machine unit) s = .next s) ∧
    (∀ hi, reaches s acc 0x004 = true → ∃ t, exec (.tmpFiredClear acc hi v) s = .next t ∧
      (∀ n, n < 32 → t.tamper.fired.getLsbD n =
        (s.tamper.fired.getLsbD n && !(!hi && v.getLsbD n && !(srcAt s n).asserted))) ∧
      (∀ n, 32 ≤ n → n < 42 → t.tamper.fired.getLsbD n =
        (s.tamper.fired.getLsbD n && !(hi && v.getLsbD (n - 32) && !(srcAt s n).asserted))) ∧ t.jobs = s.jobs ∧ t.otp = s.otp) ∧
    (vinPresent s = true → evidenceCount s.otp < s.mooring.evidTarget → ∃ t, exec .evidenceBitBurn s = .next t ∧
      t.otp = { s.otp with evidence := s.otp.evidence ||| BitVec.ofNat 1024 (2 ^ evidenceCount s.otp) } ∧ t.jobs = s.jobs) ∧
    (vinPresent s = false ∨ s.mooring.evidTarget ≤ evidenceCount s.otp → exec .evidenceBitBurn s = .next s) ∧
    (reaches s acc 0x004 = true → s.tamper.testBusy = false → v.getLsbD 6 = true → v.toNat % 64 < 42 →
      srcDisabled s (v.toNat % 64) = false → exec (.tmpTest acc v) s =
        .next { s with tamper := { s.tamper with testSrc := v.toNat % 64, testBusy := true, testResult := 0 } }) ∧
    (reaches s acc 0x004 = true → s.tamper.testBusy = true → v.getLsbD 6 = true → exec (.tmpTest acc v) s =
        .next { s with tamper := { s.tamper with testResult := 3 } }) ∧
    (∀ pass, s.tamper.testBusy = true → ∃ t, exec (.tmpTestDone pass) s = .next t ∧ t.tamper.testBusy = false ∧
      t.tamper.testResult = (if pass then 1 else 2) ∧ t.tamper.fired = s.tamper.fired ∧ t.jobs = s.jobs) ∧
    (∀ pass, s.tamper.testBusy = false → exec (.tmpTestDone pass) s = .next s) ∧
    (reaches s acc 0x004 = true → v.toNat / 2 ^ 24 = 0xF5 → lifecycle s < 2 → (unitAt s 0x004).lock = false →
      ∃ t, exec (.tmpFuseBurn acc v) s = .next t ∧ t.otp = { s.otp with fuse := s.otp.fuse ||| BitVec.ofNat 20 v.toNat } ∧
        t.jobs = s.jobs) ∧
    (v.toNat / 2 ^ 24 ≠ 0xF5 ∨ 2 ≤ lifecycle s ∨ (unitAt s 0x004).lock = true → exec (.tmpFuseBurn acc v) s = .next s) ∧
    (reaches s acc 0x004 = true → src < 42 → srcDisabled s src = false → (unitAt s 0x004).lock = false → bits v.toNat 0 3 < 6 →
      lifecycle s ≠ 2 ∨ (srcRow src).floor ≤ bits v.toNat 0 3 → 1 ≤ bits v.toNat 8 8 → bits v.toNat 8 8 ≤ (srcRow src).top →
      exec (.tmpSrcCfgWrite acc src v) s =
        .next (putSrcCfg s src { srcAt s src with response := bits v.toNat 0 3, filter := bits v.toNat 8 8 })) ∧
    (reaches s acc 0x004 = true → src < 42 → srcDisabled s src = false → (unitAt s 0x004).lock = true → bits v.toNat 0 3 < 6 →
      bits v.toNat 0 3 ≠ (srcAt s src).response → exec (.tmpSrcCfgWrite acc src v) s =
        .next (refuseWrite (putSrcCfg s src (srcAt s src)) 0x004)) ∧
    (s.power.state ≠ .moored → ∃ t, exec .vinLoss s = .next t ∧ t.power.state = .moored ∧ t.jobs = [] ∧ t.otp = s.otp ∧
      t.mooring = s.mooring ∧ t.units = [] ∧ t.pending = s.pending) ∧
    (s.power.state = .moored → exec .vinLoss s = .next s) ∧
    (vinPresent s = false → s.mooring.held = true → src < 42 → (srcRow src).cell = true → srcDisabled s src = false →
      ∃ t, exec (.cellTamperFire src) s = .next t ∧ t.mooring.cellNew = true ∧ t.mooring.epOpen = true ∧
        (s.mooring.epOpen = false → (srcAt s src).response = 4 → t.mooring.drk = 0 ∧ t.mooring.ripcordSeen = true) ∧
        (s.mooring.epOpen = false → (srcAt s src).response < 4 → t.mooring.drk = s.mooring.drk) ∧ t.otp = s.otp) ∧
    (vinPresent s = true ∨ s.mooring.held = false ∨ 42 ≤ src ∨ (srcRow src).cell = false ∨ srcDisabled s src = true →
      exec (.cellTamperFire src) s = .next s) ∧
    (vinPresent s = false → exec .vbatCollapse s = .next { s with mooring := { held := false }, tamper := {} }) ∧
    (vinPresent s = true → exec .vbatCollapse s = .next s) ∧
    (reaches s acc 0x00A = true → v.toNat % 2 ^ 16 = 0xC1EA → (unitAt s 0x00A).lock = false → s.mooring.epOpen = false →
      exec (.mooringLogClear acc v) s = .next { s with mooring := { s.mooring with log := [], dropped := 0, cellNew := false } }) ∧
    (v.toNat % 2 ^ 16 ≠ 0xC1EA ∨ (unitAt s 0x00A).lock = true ∨ s.mooring.epOpen = true → exec (.mooringLogClear acc v) s = .next s) ∧
    (srcWatched s src = true → (srcAt s src).count + 1 < (srcAt s src).filter → exec (.tamperSample src true) s =
      .next (putSrc s src { srcAt s src with count := (srcAt s src).count + 1, asserted := true })) ∧
    (srcWatched s src = true → (srcAt s src).filter ≤ (srcAt s src).count + 1 → vinPresent s = true →
      exec (.tamperSample src true) s = .next (fireTamper s src)) ∧
    (srcWatched s src = true → exec (.tamperSample src false) s =
      .next (closeEpisode (putSrc s src { srcAt s src with count := 0, asserted := false }))) ∧
    (∀ b, srcWatched s src = false → exec (.tamperSample src b) s = .next s)

/-! ### Flash (19_flash.md) -/

/-- R763, R765 to R771, R773, R775 to R779, R782, R792: the flash. A window read gives the status word, an error or the array;
a sequence of ring 0 firmware that passes the checks starts a program or an erase of its bank alone; an erase is suspended and
resumed; an operation ends with its granules programmed or its sector erased. The model's choice: that an event whose
condition does not hold changes nothing (log 3), logs 112, 113 and 114. -/
def Obligations.FlashCommands : Prop :=
  ∀ (acc : Acc) (addr b : Nat) (x : Bank) (s : State), x = bankAt s b →
    (∀ a, reaches s acc 0x007 = true → a = winAddr s (accIdx acc) % 2 ^ 26 → bankOf a = some b → x.suspended ≠ some (sectorOf a) →
      (x.run = none → x.statusMode = false → exec (.flWinDataRead acc 0) s =
        .next (winAdvance (emit s (.readValue acc (arrayWord s a))) (accIdx acc))) ∧
      (x.run ≠ none ∨ x.statusMode = true → ∀ ecc, exec (.flWinDataRead acc ecc) s =
        .next (winAdvance (emit s (.readValue acc (bankStatus s b))) (accIdx acc)))) ∧
    (∀ a ecc, reaches s acc 0x007 = true → a = winAddr s (accIdx acc) % 2 ^ 26 →
      (bankOf a = none ∧ isCalRow a = false) ∨ (bankOf a = some b ∧ x.suspended = some (sectorOf a)) →
      exec (.flWinDataRead acc ecc) s = .next (emit s (.readError acc))) ∧
    (∀ ecc, reaches s acc 0x007 = false → exec (.flWinDataRead acc ecc) s = .next s) ∧
    (∀ w0 w1 w2 w3 data, ∀ c ∈ [Instr.programGranule acc addr w0 w1 w2 w3, .bufferedProgram acc addr data, .sectorErase acc addr, .eraseSuspend acc b,
      .eraseResume acc b, .readStatus acc b, .returnToReadArray acc b],
      acc ≠ .fw0 ∨ reaches s acc 0x007 = false → exec c s = .next s) ∧
    (reaches s .fw0 0x007 = true → bankOf addr = some b → x.cycles = [] → x.run = none → s.flash.brownout = false →
      flashProtected s addr false = false → addr % 16 = 0 → s.flash.fetch ≠ b → x.suspended ≠ some (sectorOf addr) →
      (∀ w0 w1 w2 w3, granuleErased s addr = true → ∃ t, exec (.programGranule .fw0 addr w0 w1 w2 w3) s = .next t ∧
        (bankAt t b).run = some { op := 1, granules := granulesOf addr [w0, w1, w2, w3] } ∧ (bankAt t b).op = 1 ∧
        (∀ k, k ≠ b → bankAt t k = bankAt s k) ∧ t.flash.data = s.flash.data ∧ t.jobs = s.jobs) ∧
      (∀ data n, 1 ≤ n → n ≤ 16 → data.length = 16 * n → addr % 256 + 16 * n ≤ 256 →
        (∀ i, i < n → granuleErased s (addr + 16 * i) = true) → ∃ t, exec (.bufferedProgram .fw0 addr data) s = .next t ∧
        (bankAt t b).run = some { op := 2, granules := granulesOf addr (dataWords data) } ∧ (bankAt t b).op = 2 ∧
        (∀ k, k ≠ b → bankAt t k = bankAt s k) ∧ t.flash.data = s.flash.data ∧ t.jobs = s.jobs) ∧
      (∀ w0 w1 w2 w3, granuleErased s addr = false → ∃ t, exec (.programGranule .fw0 addr w0 w1 w2 w3) s = .next t ∧
        (bankAt t b).run = none ∧ (bankAt t b).result = 6 ∧ t.flash.data = s.flash.data)) ∧
    (reaches s .fw0 0x007 = true → bankOf addr = some b → x.cycles = [] → x.run = none → s.flash.brownout = false →
      flashProtected s addr true = false → addr = sectorBase b (sectorOf addr) → s.flash.fetch ≠ b → x.suspended = none →
      ∃ t, exec (.sectorErase .fw0 addr) s = .next t ∧ (bankAt t b).run = some { op := 3, sector := sectorOf addr } ∧
        (bankAt t b).op = 3 ∧ (∀ k, k ≠ b → bankAt t k = bankAt s k) ∧ t.flash.data = s.flash.data ∧ t.jobs = s.jobs) ∧
    (reaches s .fw0 0x007 = true → b < 2 → ∀ r, x.run = some r → r.op = 3 →
      exec (.eraseSuspend .fw0 b) s = .next (putBank s b { x with suspendAsked := true })) ∧
    (reaches s .fw0 0x007 = true → b < 2 → x.run = none → x.cycles = [] → exec (.eraseSuspend .fw0 b) s = .next s) ∧
    (∀ r, x.run = some r → r.op = 3 → x.suspendAsked = true → x.resumedAt = none → exec (.eraseSuspended b) s =
      .next (putBank s b { x with run := none, suspended := some r.sector, suspendAsked := false })) ∧
    (∀ r at_, x.run = some r → x.resumedAt = some at_ → s.cycles < at_ + usCycles 200 → exec (.eraseSuspended b) s = .next s) ∧
    (x.run = none → exec (.eraseSuspended b) s = .next s) ∧
    (∀ k, reaches s .fw0 0x007 = true → b < 2 → x.run = none → x.cycles = [] → x.suspended = some k → s.flash.brownout = false →
      exec (.eraseResume .fw0 b) s = .next (putBank s b { x with
        suspended := none, run := some { op := 3, sector := k }, op := 3, resumedAt := some s.cycles, suspendAsked := false })) ∧
    (reaches s .fw0 0x007 = true → b < 2 → x.run = none → x.cycles = [] →
      (∃ t, exec (.readStatus .fw0 b) s = .next t ∧ bankAt t b = { x with statusMode := true } ∧
        (∀ k, k ≠ b → bankAt t k = bankAt s k) ∧ t.flash.data = s.flash.data) ∧
      exec (.returnToReadArray .fw0 b) s = .next (putBank s b { x with statusMode := false })) ∧
    (∀ r, x.run = some r →
      (r.op = 3 → ∀ good, 1 ≤ good → exec (.flashOperationEnd b good) s = .next (endRun (eraseSector s b r.sector) b 0)) ∧
      (r.op ≠ 3 → ∀ good, r.granules.length ≤ good →
        exec (.flashOperationEnd b good) s = .next (endRun (programGranules s r.granules) b 0)) ∧
      (r.op = 3 → exec (.flashOperationEnd b 0) s = .next (noteVerify (endRun (tearRun s b r 0) b 7) b r.sector))) ∧
    (∀ good, x.run = none → exec (.flashOperationEnd b good) s = .next s) ∧
    (s.flash.brownout = false → (bankAt s 0).run = none → (bankAt s 1).run = none → ∃ t, exec .brownout s = .next t ∧
      t.flash = { s.flash with brownout := true, brownouts := min 255 (s.flash.brownouts + 1) } ∧ t.jobs = s.jobs) ∧
    (s.flash.brownout = true → exec .brownout s = .next s) ∧
    exec .brownoutDeassert s = .next { s with flash := { s.flash with brownout := false } } ∧
    (s.flash.epoch ≠ none → freeSectors s.flash < 3 → s.flash.tail ≠ s.flash.head → ∃ t, exec .storeCompaction s = .next t ∧
      (∀ k e, (k, e) ∈ t.flash.store → e.sector ≠ s.flash.tail) ∧ t.flash.erasing = none ∧ t.jobs = s.jobs ∧ t.otp = s.otp) ∧
    (s.flash.epoch = none ∨ 3 ≤ freeSectors s.flash ∨ s.flash.tail = s.flash.head → exec .storeCompaction s = .next s)

/-! ### Custodian card bus (20_custodian_card_bus.md) -/

/-- R796, R797, R801 to R804, R806, R808 to R817: the card bus. A card that appears is brought up; a removed slot is powered
down; a reply moves the transaction on, repeats it or ends it; a command of CCB_CMD is refused, or queues and is sent when the
bus is free, with its password cleared at its end; ABORT ends it. The model's choice: that an event whose condition does not
hold changes nothing (log 3), logs 104, 105 and 106. -/
def Obligations.CardBus : Prop :=
  ∀ (acc : Acc) (k record : Nat) (v : Word32) (s : State),
    (k < 4 → (cardSlotAt s k).present = false → s.ccb.txn = none → s.ccb.bringUp = [] → takesWork s 0x008 = true →
      ∃ t x, exec (.slotPresent k) s = .next t ∧ (cardSlotAt t k).present = true ∧ (cardSlotAt t k).power = true ∧
        (cardSlotAt t k).state = .powering ∧ t.ccb.txn = some x ∧ x.acc = none ∧ x.slot = k ∧ x.op = 1 ∧ x.phase = .reply ∧
        Output.cardFrame 0 1 0 (frameCrc 0 1 0) ∈ t.out ∧ t.jobs = s.jobs) ∧
    (4 ≤ k ∨ (cardSlotAt s k).present = true → exec (.slotPresent k) s = .next s) ∧
    (k < 4 → (cardSlotAt s k).present = true → exec (.slotRemoval [k]) s =
      .next (removeSlots (putCardSlot s k { cardSlotAt s k with present := false }) [k])) ∧
    (∀ ks, (∀ q ∈ ks, (cardSlotAt s q).present = false) → exec (.slotRemoval ks) s = .next s) ∧
    ((cardSlotAt s k).power = true → exec (.ccbOvercurrent k) s =
      .next (removeSlots (putCardSlot s k { cardSlotAt s k with overcurrent := true }) [k])) ∧
    ((cardSlotAt s k).power = false → exec (.ccbOvercurrent k) s = .next s) ∧
    (∀ x st, s.ccb.txn = some x → x.phase = .reply →
      (∀ a, exec (.cardReply a st v false) s = .next (cardRetry s x)) ∧
      (st = 0xFE ∨ st = 0xFD → exec (.cardReply (replyAddr x) st v true) s = .next (cardRetry s x)) ∧
      (∀ a, a ≠ replyAddr x → exec (.cardReply a st v true) s = .next s) ∧
      (st ≠ 0 → st ≠ 0xFE → st ≠ 0xFD → exec (.cardReply (replyAddr x) st v true) s = .next (cardRefuses s x st)) ∧
      (st = 0 → x.acc ≠ none → x.op = 0x10 →
        exec (.cardReply (replyAddr x) st v true) s = .next (putTxn s (some { x with phase := .readBlock }))) ∧
      (st = 0 → x.acc ≠ none → x.op = 0x11 ∨ x.op = 0x12 → exec (.cardReply (replyAddr x) st v true) s =
        .next (emit (putTxn s (some { x with phase := .ack })) (.cardBlock x.block (crc32c x.block).toNat))) ∧
      (st = 0 → x.acc ≠ none → x.op = 0x06 → exec (.cardReply (replyAddr x) st v true) s =
        .next (finishCard (noteStatus s x.slot v.toNat) (x.code.getD 0))) ∧
      (st = 0 → x.acc = none → x.op = 0x01 → exec (.cardReply (replyAddr x) st v true) s =
        .next (bringStep (putCardSlot s x.slot { cardSlotAt s x.slot with caps := v.toNat }) x.slot 0x02 (nextCardAddr s)))) ∧
    (∀ x, x.failures < 3 → cardRetry s x = sendRequest (charge s 0x008 3) { x with failures := x.failures + 1 }) ∧
    (∀ x, 3 ≤ x.failures → cardRetry s x = cardFails (charge s 0x008 3) x 6) ∧
    (∀ x, s.ccb.txn = some x → x.phase = .ack → exec (.cardReply (replyAddr x) 0 v true) s =
      .next (putTxn s (some { x with phase := .busy }))) ∧
    (∀ a st ok, s.ccb.txn = none → exec (.cardReply a st v ok) s = .next s) ∧
    (∀ x data crc, s.ccb.txn = some x → x.phase = .readBlock →
      (data.length ≠ cardBlockLen x.op ∨ crc ≠ (crc32c data).toNat → exec (.cardBlock data crc) s = .next (cardRetry s x)) ∧
      (data.length = cardBlockLen x.op → crc = (crc32c data).toNat →
        (∀ a, x.acc = some a → exec (.cardBlock data crc) s = .next (finishCard (recordRead s x a data) 0)) ∧
        (x.acc = none → exec (.cardBlock data crc) s =
          .next (bringStep (putCardSlot s x.slot { cardSlotAt s x.slot with id := data }) x.slot 0x06 0)))) ∧
    (∀ data crc, s.ccb.txn = none → exec (.cardBlock data crc) s = .next s ∧ exec .cardBusyEnd s = .next s) ∧
    (∀ x a, s.ccb.txn = some x → x.phase = .busy → x.acc = some a →
      (x.op = 0x11 → a ≠ 2 → exec .cardBusyEnd s =
        .next (finishCard (putCardAcc s a { cardAccAt s a with wcount := (cardAccAt s a).wcount + 1 }) 0)) ∧
      (x.op = 0x12 → exec .cardBusyEnd s = .next (finishCard (putCardSlot s x.slot { cardSlotAt s x.slot with
        state := afterCred (field x.block 0 4) (cardSlotAt s x.slot).state }) 0))) ∧
    (∀ op c, (op, c) ∈ [(1, Instr.readRecord acc k record), (2, .writeRecord acc k record), (3, .status acc k), (4, .setPwd acc k),
        (5, .clrPwd acc k), (6, .lock acc k), (7, .unlock acc k), (8, .forceErase acc k)] → k < 4 → record < 16 →
      ∀ a r, a = accIdx acc → r = (if op ≤ 2 then record else 0) →
      (reaches s acc 0x008 = true → s.power.state = .run → (cardAccAt s a).state ≠ 1 → 3 ≤ op ∨ a = 2 →
        (cardSlotAt s k).state = .ready ∨ (cardSlotAt s k).state = .locked →
        (s.ccb.txn ≠ none → ∃ t, exec c s = .next t ∧ t.ccb.queue = s.ccb.queue ++ [(a, op, k, r)] ∧ (cardAccAt t a).state = 1 ∧
          (cardAccAt t a).op = op ∧ (cardAccAt t a).slot = k ∧ (cardAccAt t a).record = r ∧ t.ccb.txn = s.ccb.txn ∧ t.jobs = s.jobs) ∧
        (s.ccb.txn = none → s.ccb.queue = [] → s.ccb.bringUp = [] → takesWork s 0x008 = true →
          ∃ t x, exec c s = .next t ∧ t.ccb.txn = some x ∧ x.acc = some a ∧ x.slot = k ∧ x.phase = .reply ∧
            x.op = (if op = 1 then 0x10 else if op = 2 then 0x11 else if op = 3 then 0x06 else 0x12) ∧ x.arg = r ∧
            x.addr = (cardSlotAt s k).addr ∧ Output.cardFrame x.addr x.op x.arg (frameCrc x.addr x.op x.arg) ∈ t.out ∧
            t.jobs = s.jobs)) ∧
      (reaches s acc 0x008 = true → (cardAccAt s a).state ≠ 1 → 3 ≤ op ∨ a = 2 →
        (cardSlotAt s k).state ≠ .ready → (cardSlotAt s k).state ≠ .locked → exec c s =
          .next (endCard (putCardAcc s a { cardAccAt s a with op := op, slot := k, record := r }) a op k 1)) ∧
      (reaches s acc 0x008 = true → (cardAccAt s a).state ≠ 1 → op ≤ 2 → a ≠ 2 → exec c s =
          .next (endCard (putCardAcc s a { cardAccAt s a with op := op, slot := k, record := r }) a op k 2)) ∧
      (reaches s acc 0x008 = false → exec c s = .next s)) ∧
    (reaches s acc 0x008 = true → v.toNat % 2 ^ 16 = 0xAB07 →
      (∀ x, s.ccb.txn = some x → x.acc = some (accIdx acc) → exec (.ccbAbort acc v) s = .next (finishCard s 9)) ∧
      (s.ccb.txn = none → exec (.ccbAbort acc v) s = .next (endWaiting s 9 fun q => decide (q.1 = accIdx acc)))) ∧
    (reaches s acc 0x008 = false ∨ v.toNat % 2 ^ 16 ≠ 0xAB07 → exec (.ccbAbort acc v) s = .next s) ∧
    (∀ a op code, a ≠ 2 → 4 ≤ op → (cardAccAt (endCard s a op k code) a).pwd = [] ∧ (endCard s a op k code).ccb.share = [])

/-- R817: a password of CCB_PWD0 to CCB_PWD3 goes into the block of the next CREDENTIAL command of the same accessor, is
cleared when that command ends, and reads as 0 at all times. -/
def Obligations.CardPasswordUse : Prop :=
  ∀ (acc : Acc) (k : Nat) (s : State),
    (∀ op c, (op, c) ∈ [(4, Instr.setPwd acc k), (5, .clrPwd acc k), (6, .lock acc k), (7, .unlock acc k), (8, .forceErase acc k)] →
      k < 4 → reaches s acc 0x008 = true → s.power.state = .run → (cardAccAt s (accIdx acc)).state ≠ 1 →
      (cardSlotAt s k).state = .ready ∨ (cardSlotAt s k).state = .locked → s.ccb.txn = none → s.ccb.queue = [] → s.ccb.bringUp = [] →
      takesWork s 0x008 = true →
      ∃ t x, exec c s = .next t ∧ t.ccb.txn = some x ∧ x.block = credentialBlock op (cardAccAt s (accIdx acc)).pwd) ∧
    (∀ op code, 4 ≤ op → (cardAccAt (endCard s (accIdx acc) op k code) (accIdx acc)).pwd = []) ∧
    (acc ≠ .vf → k < 4 → reaches s acc 0x008 = true →
      exec (.snapshotRead acc 0x008 (0x08C + 4 * k)) s = .next (emit s (.readValue acc 0)))

/-! ### Custody tag (21_custody_tag.md) -/

/-- R822, R824 to R827, R829: the field and the ISO 14443-3 frames. Each field-on gives a UID of the tag generator; REQA and
WUPA, anticollision, SELECT, RATS, HLTA and DESELECT move the tag through its states with the answers the rules give; a frame
with a wrong CRC, or while the tag does not listen, has no effect. R830 to R836, R838, R840 to R843: the APDUs of the tag and
its registers. An APDU is checked in the order of R832 and answered with its data and 90 00; a session of the right key with
its C-MAC carries READ_IDENTITY, READ_MOOR_LOG and APPEND; keys and the journal clear only where their rules allow. The
model's choice: that an event whose condition does not hold changes nothing (log 3), logs 107 and 108. -/
def Obligations.TagFramesApdusAndJournal : Prop :=
  (∀ (nvb p : Nat) (b : Bytes) (s : State),
    (s.tag.field = false → ∃ t, exec .fieldOn s = .next t ∧ t.tag.field = true ∧ t.tag.state = .idle ∧ t.tag.wake = true ∧
      t.tag.uid = 0x08#8 :: slice (tagBlock s.tag.seed s.tag.counter) 0 3 ∧ t.tag.counter = (s.tag.counter + 2 ^ 16) % 2 ^ 64 ∧
      t.tag.session = none ∧ t.tag.slots = s.tag.slots ∧ t.jobs = s.jobs) ∧
    (s.tag.field = true → exec .fieldOn s = .next s) ∧
    (s.tag.field = true → s.tag.run = none → (∀ a ∈ s.tag.waiting, a.reader = true) → ∃ t, exec .fieldOff s = .next t ∧
      t.tag.field = false ∧ t.tag.state = .idle ∧ t.tag.uid = [] ∧ t.tag.selected = false ∧ t.tag.session = none ∧
      t.tag.challenge = none ∧ t.tag.slots = s.tag.slots ∧ t.jobs = s.jobs) ∧
    (s.tag.field = false → exec .fieldOff s = .next s ∧
      exec .fdWakeRelease s = .next { s with tag := { s.tag with wake := false } }) ∧
    (s.tag.field = true → exec .fdWakeRelease s = .next s) ∧
    (tagListens s = true → s.tag.state = .idle ∨ s.tag.state = .ready → ∀ c ∈ [Instr.reqa, .wupa], exec c s =
      .next (emit { s with tag := { s.tag with state := .ready } } (.tagFrame [0x04#8, 0x00#8]))) ∧
    (tagListens s = true → s.tag.state = .halt → exec .reqa s = .next s ∧ exec .wupa s =
      .next (emit { s with tag := { s.tag with state := .ready } } (.tagFrame [0x04#8, 0x00#8]))) ∧
    (tagListens s = true → s.tag.state = .active → ∀ c ∈ [Instr.reqa, .wupa],
      exec c s = .next { s with tag := { s.tag with state := .idle } }) ∧
    (tagListens s = true → s.tag.state = .ready → 0x20 ≤ nvb → nvb < 0x70 → nvb % 16 < 8 →
      ((sentBits (pad 5 b)).take (nvbBits nvb) = (sentBits (uidBcc s.tag)).take (nvbBits nvb) →
        exec (.anticollision nvb b) s = .next (emit s (.tagBits ((sentBits (uidBcc s.tag)).drop (nvbBits nvb))))) ∧
      ((sentBits (pad 5 b)).take (nvbBits nvb) ≠ (sentBits (uidBcc s.tag)).take (nvbBits nvb) →
        exec (.anticollision nvb b) s = .next s)) ∧
    (tagListens s = true → s.tag.state = .ready → b.length = 5 → s.tag.uid.length = 4 →
      (b = uidBcc s.tag → exec (.select 0x70 b true) s =
        .next (emit { s with tag := { s.tag with state := .active } } (.tagFrame [0x20#8]))) ∧
      (sentBits b ≠ sentBits (uidBcc s.tag) → exec (.select 0x70 b true) s = .next s)) ∧
    (tagListens s = true → s.tag.state = .active →
      exec (.hlta true) s = .next { s with tag := { s.tag with state := .halt } } ∧
      (p < 256 → exec (.rats p true) s = .next (emit { s with tag := { s.tag with state := .protocol } }
        (.tagFrame [0x05#8, 0x78#8, 0x00#8, 0x80#8, 0x00#8])))) ∧
    (tagListens s = true → s.tag.state = .protocol →
      exec (.sDeselect true) s = .next (emit { s with tag := { s.tag with state := .halt } } (.tagFrame [0xC2#8]))) ∧
    (tagListens s = false → ∀ ok, ∀ c ∈ [Instr.reqa, .wupa, .anticollision nvb b, .select nvb b ok, .hlta ok, .rats p ok,
      .sDeselect ok], exec c s = .next s) ∧
    (∀ c ∈ [Instr.select nvb b false, .hlta false, .rats p false, .sDeselect false], exec c s = .next s)) ∧
  (∀ (acc : Acc) (p1 p2 : Nat) (data : Bytes) (v : Word32) (s : State),
    (tagListens s = true → s.tag.state = .protocol →
      (exec (.selectAid 0 4 0 tagAid) s = .next (answer { s with tag := { s.tag with selected := true } } [] 0x9000)) ∧
      (data.length = 6 → data ≠ tagAid → exec (.selectAid 0 4 0 data) s = .next (answer s [] 0x6A82)) ∧
      (s.tag.selected = false → ∀ cla, ∀ c ∈ [Instr.getEvidence cla p1 p2 data, .readJournal cla p1 p2 data, .authBegin cla p1 p2 data,
        .authEnd cla p1 p2 data, .readIdentity cla p1 p2 data, .readMoorLog cla p1 p2 data, .append cla p1 p2 data],
        exec c s = .next (answer s [] 0x6D00)) ∧
      (s.tag.selected = true →
        exec (.getEvidence 0x80 0 0 []) s = .next (answer s (evidenceBytes s) 0x9000) ∧
        exec (.getEvidence 0x00 0 0 []) s = .next (answer s [] 0x6E00) ∧
        exec (.getEvidence 0x80 1 0 []) s = .next (answer s [] 0x6A86) ∧
        exec (.getEvidence 0x80 0 0 [0]) s = .next (answer s [] 0x6700) ∧
        (∀ r, (journal s)[256 * p1 + p2]? = some r → exec (.readJournal 0x80 p1 p2 []) s = .next (answer s r 0x9000)) ∧
        ((journal s)[256 * p1 + p2]? = none → exec (.readJournal 0x80 p1 p2 []) s = .next (answer s [] 0x6A82)) ∧
        (s.tag.blocked = false → p1 = 1 ∨ p1 = 2 → ∃ t rnd, exec (.authBegin 0x80 p1 0 []) s = .next t ∧
          rnd = tagBlock s.tag.seed s.tag.genNext ∧ t.tag.challenge = some (p1, rnd) ∧ t.tag.session = none ∧
          Output.tagFrame (rnd ++ [0x90#8, 0x00#8]) ∈ t.out ∧ t.jobs = s.jobs) ∧
        (s.tag.blocked = true → p1 = 1 ∨ p1 = 2 → exec (.authBegin 0x80 p1 0 []) s = .next (answer s [] 0x6983)) ∧
        (∀ k rndT key, data.length = 32 → s.tag.challenge = some (k, rndT) → tagKey s k = some key →
          (slice data 16 16 = tagCmac key (ascii "ECZ-TAG" ++ [1#8] ++ rndT ++ slice data 0 16 ++ s.tag.uid) 16 →
            exec (.authEnd 0x80 0 0 data) s = .next (answer { s with tag := { s.tag with
              challenge := none, stale := false
              session := some (k, BitVec.ofNat 128 (unbe (tagCmac key ([3#8] ++ rndT ++ slice data 0 16) 16)), 0) } }
              (tagCmac key (ascii "ECZ-TAG" ++ [2#8] ++ slice data 0 16 ++ rndT ++ s.tag.uid) 16) 0x9000)) ∧
          (slice data 16 16 ≠ tagCmac key (ascii "ECZ-TAG" ++ [1#8] ++ rndT ++ slice data 0 16 ++ s.tag.uid) 16 →
            ∃ t, exec (.authEnd 0x80 0 0 data) s = .next t ∧ t.tag.blocked = true ∧ t.tag.challenge = none ∧
              t.tag.session = s.tag.session ∧ Output.tagFrame [0x69#8, 0x82#8] ∈ t.out)) ∧
        (∀ key ctr, s.tag.session = some (1, key, ctr) → s.tag.stale = false → data.length = 8 →
          (data = tagCmac key (be 2 ctr ++ [0x80#8, 0x40#8, 0#8, 0#8]) 8 → exec (.readIdentity 0x80 0 0 data) s =
            .next (raiseCtr (answer s (identityBytes s ++ rMac key ctr (identityBytes s)) 0x9000))) ∧
          (data ≠ tagCmac key (be 2 ctr ++ [0x80#8, 0x40#8, 0#8, 0#8]) 8 → exec (.readIdentity 0x80 0 0 data) s =
            .next (answer { s with tag := { s.tag with session := none } } [] 0x6982)) ∧
          (∀ e, p2 < 16 → data = tagCmac key (be 2 ctr ++ [0x80#8, 0x42#8, 0#8, BitVec.ofNat 8 p2]) 8 → s.mooring.log[p2]? = some e →
            exec (.readMoorLog 0x80 0 p2 data) s = .next (raiseCtr (answer s (e ++ rMac key ctr e) 0x9000)))) ∧
        (s.tag.session = none → data.length = 8 → exec (.readIdentity 0x80 0 0 data) s = .next (answer s [] 0x6982)) ∧
        (∀ key ctr, s.tag.session = some (2, key, ctr) → s.tag.stale = false → data.length = 37 →
          slice data 29 8 = tagCmac key (be 2 ctr ++ [0x80#8, 0x50#8, 0#8, 0#8] ++ data.take 29) 8 → s.tag.run = none →
          s.tag.waiting = [] →
          (field data 0 4 = (journal s).length → journalFull s = false → mayProgram s = true →
            exec (.append 0x80 0 0 data) s = .next { s with tag := { s.tag with run := some {
              expect := field data 0 4, type := field data 4 1, payload := slice data 5 24, reader := true, ctr := ctr } } }) ∧
          (field data 0 4 ≠ (journal s).length →
            exec (.append 0x80 0 0 data) s = .next (raiseCtr (answer s [] 0x6A80)))))) ∧
    (s.tag.field = true → s.tag.run = none → ∀ b, exec (.appendResume b) s =
      .next { s with tag := { s.tag with strong := b } }) ∧
    (∀ a, s.tag.field = true → s.tag.run = some a → a.step = 1 → ∃ t, exec (.appendResume true) s = .next t ∧
      t.tag.run = some { a with step := 2 } ∧ t.tag.slots = s.tag.slots ++ [recordBody s a ++ List.replicate 16 0xFF#8] ∧
      t.jobs = s.jobs) ∧
    (∀ b, s.tag.field = false → exec (.appendResume b) s = .next s) ∧
    (reaches s acc 0x009 = true → v.getLsbD 31 = true → s.tag.appState ≠ 1 → s.tag.run = none → s.tag.waiting = [] →
      takesWork s 0x009 = true → vinPresent s = true → v.toNat % 256 ≠ 0 → s.tag.appExpect.toNat = (journal s).length →
      journalFull s = false → ∃ t a, exec (.deviceAppend acc v) s = .next t ∧ t.tag.appState = 1 ∧ t.tag.run = some a ∧
        a.type = v.toNat % 256 ∧ a.reader = false ∧ a.payload = (List.range 6).flatMap (fun p => le 4 (tget 0 s.tag.appData p).toNat) ∧
        t.tag.slots = s.tag.slots ∧ t.jobs = s.jobs) ∧
    (reaches s acc 0x009 = true → v.getLsbD 31 = true → v.getLsbD 2 = false → (unitAt s 0x009).lock = false → lifecycle s ≠ 3 →
      v.toNat % 4 = 1 → ∃ t, exec (.tagKeyWrite acc v) s = .next t ∧ t.tag.kJournal = s.tag.kJournal ∧ t.tag.keyWords = [] ∧
        t.tag.kRead = some (BitVec.ofNat 128 (unbe ((List.range 4).flatMap fun p => le 4 (tget 0 s.tag.keyWords p).toNat))) ∧
        t.tag.slots = s.tag.slots ∧ t.jobs = s.jobs) ∧
    (reaches s acc 0x009 = true → (unitAt s 0x009).lock = true ∨ lifecycle s = 3 → ∃ t, exec (.tagKeyWrite acc v) s = .next t ∧
      t.tag.kRead = s.tag.kRead ∧ t.tag.kJournal = s.tag.kJournal ∧ t.tag.keyWords = s.tag.keyWords) ∧
    (reaches s acc 0x009 = true → v.toNat % 2 ^ 16 = 0xC1E7 → lifecycle s < 2 → s.tag.run = none → exec (.tagJrnlClr acc v) s =
      .next { s with tag := { s.tag with slots := [] } }) ∧
    (v.toNat % 2 ^ 16 ≠ 0xC1E7 ∨ 2 ≤ lifecycle s → exec (.tagJrnlClr acc v) s = .next s) ∧
    (reaches s acc 0x009 = false → exec (.deviceAppend acc v) s = .next s ∧ exec (.tagKeyWrite acc v) s = .next s ∧
      exec (.tagJrnlClr acc v) s = .next s))

/-! ### Power, start-up and reset (22_host_ports_power_startup.md) -/

/-- R865 to R868, R871 to R875, R888, R902: power states, start-up and staging. IDLE after the idle delay with nothing to do;
STANDBY is refused with the first failing check of R866 or entered; WAKE leaves it with an empty key cache; VIN_VALID and a
device reset run start-up on what the mooring state, the flash and OTP keep; FW_STAGE ends with the result of R875. The
model's choice: that an event whose condition does not hold changes nothing (log 3), logs 8, 93, 94, 96 and 121. -/
def Obligations.PowerAndStartUp : Prop :=
  ∀ (acc : Acc) (ok : Bool) (data : Bytes) (straps : Nat) (s : State),
    (s.power.state = .run → s.power.idleEn = true → quiet s = true → s.power.quietSince + usCycles (idleMicros s) ≤ s.cycles →
      exec .idleEntry s = .next (setEvent { s with power := { s.power with state := .idle, quietSince := s.cycles } } 0 17)) ∧
    (s.power.state ≠ .run ∨ s.power.idleEn = false ∨ quiet s = false → exec .idleEntry s = .next s) ∧
    (reaches s acc 0 = true → s.power.state = .run ∨ s.power.state = .idle →
      (standbyCheck s = 0 → exec (.standby acc) s = .next (standbyNow { s with power := { s.power with result := 0 } })) ∧
      (∀ k, standbyCheck s = k → k ≠ 0 → exec (.standby acc) s = .next { s with power := { s.power with result := k } })) ∧
    (s.power.state = .standby → exec (.standby acc) s = .next s) ∧
    (∀ u, (standbyNow u).power.state = .standby ∧ (standbyNow u).sig.tables = []) ∧
    (reaches s acc 0 = true → s.power.state = .standby → exec (.wake acc) s = .next (enableChannels (setEvent { s with
      power := { s.power with state := .run, quietSince := s.cycles }, kc := { withdrawn := s.kc.withdrawn } } 0 17))) ∧
    (reaches s acc 0 = false ∨ s.power.state ≠ .standby → exec (.wake acc) s = .next s) ∧
    (s.power.state = .moored ∨ s.power.ready = false → exec (.vinValid straps) s = .next (deviceStart s 1 straps)) ∧
    (s.power.state ≠ .moored → s.power.ready = true → exec (.vinValid straps) s = .next s) ∧
    (∀ b, s.power.state ≠ .moored → exec (.resetNLow b) s = .next (deviceStart s (if b then 3 else 2) (strapsNow s))) ∧
    (∀ b, s.power.state = .moored → exec (.resetNLow b) s = .next s) ∧
    (∀ k u, startOnce s k straps = (u, false) → deviceStart s k straps = u) ∧
    (∀ k u h f, chooseHalf (bootMooring (reburnMarginal
        (sampleStraps { resetBase s with power := { (resetBase s).power with cause := k } } straps))) = (h, f, u) →
      (u.power.strapTest = true → startOnce s k straps = (setUState u 0 .starting, false)) ∧
      (u.power.strapTest = false → h = none → startOnce s k straps = (setUState u 0 .faulted, false))) ∧
    ((resetBase s).otp = s.otp ∧ (resetBase s).mooring = s.mooring ∧ (resetBase s).pending = s.pending ∧
      (resetBase s).jobs = [] ∧ (resetBase s).cores = [] ∧ (resetBase s).im = {} ∧ (resetBase s).kc = {} ∧
      (resetBase s).tag.slots = s.tag.slots ∧ (resetBase s).flash.data = s.flash.data ∧ (resetBase s).flash.store = s.flash.store) ∧
    (reaches s acc 0 = true → ∃ t r, exec (.fwStage acc ok data) s = .next t ∧
      r = stageResult s ok (slice data 0 s.power.stageLen.toNat) ∧ t.power.fwState = 2 ∧ t.power.fwResult = r ∧
      t.power.staged = (if r = 0 then some (slice data 0 s.power.stageLen.toNat) else s.power.staged) ∧ t.jobs = s.jobs ∧ t.otp = s.otp) ∧
    (reaches s acc 0 = false → exec (.fwStage acc ok data) s = .next s)

/-- R878 to R885: the lifecycle commands. A command is dropped while another is BUSY; one whose lifecycle state allows it is
carried out with what its read of the bundle returned, another at once; either way it is DONE with its code. CHALLENGE leaves
a fresh nonce; SHIP, COMMISSION, OWNER_LIST and ZEROISE do what their rules say once every check passes. The model's choice:
that an event whose condition does not hold changes nothing (log 3), the order and form of the checks (log 95). -/
def Obligations.LifecycleCommands : Prop :=
  ∀ (acc : Acc) (ok : Bool) (data b : Bytes) (len a : Nat) (s t : State), a = accIdx acc →
    (∀ k c, (k, c) ∈ [(1, Instr.challenge acc), (2, .ship acc ok data), (3, .commission acc ok data), (4, .ownerList acc ok data),
        (5, .zeroise acc ok data)] →
      t = putLc s a { lcAt s a with cmd := k, state := 1, code := 0 } →
      (∀ u code, reaches s acc 0x00D = true → (∀ e ∈ s.lc.accs, e.2.state ≠ 1) → lcReads s k = true →
        lcRun t k ok data (lcAt s a).bufLen.toNat = (u, code) →
        exec c s = .next (setEvent (putLc u a { lcAt u a with state := 2, code := code }) 0x00D 17)) ∧
      (∀ u code, reaches s acc 0x00D = true → (∀ e ∈ s.lc.accs, e.2.state ≠ 1) → lcReads s k = false →
        lcRun t k true [] (lcAt s a).bufLen.toNat = (u, code) →
        exec c s = .next (setEvent (putLc u a { lcAt u a with state := 2, code := code }) 0x00D 17)) ∧
      ((lcAt s a).state ≠ 1 → (∃ e ∈ s.lc.accs, e.2.state = 1) ∨ reaches s acc 0x00D = false → exec c s = .next s)) ∧
    (reaches s acc 0x00D = true → (∀ e ∈ s.lc.accs, e.2.state ≠ 1) → ∃ u n, exec (.challenge acc) s = .next u ∧ n.length = 32 ∧
      u.lc.nonce = some n ∧ (lcAt u a).state = 2 ∧ (lcAt u a).code = 0 ∧ u.jobs = s.jobs) ∧
    (lifecycle s = 0 → b ≠ [] → b.length ≤ 65536 → Config.check .x509 [b, [2#8]] = true → Config.check .x509 [b] = true →
      (ship s true b).2 = 0 ∧ lifecycle (ship s true b).1 = 1 ∧ (ship s true b).1.lc.deviceCert = b ∧
      (ship s true b).1.dbg.state = .closed) ∧
    (lifecycle s = 0 → b ≠ [] → b.length ≤ 65536 → Config.check .x509 [b, [2#8]] = true → Config.check .x509 [b] = false →
      ship s true b = (s, 7)) ∧
    (lifecycle s ≠ 0 → ship s true b = (s, 2)) ∧
    (lifecycle s = 1 → commissionFormat b len = true → s.lc.nonce = some (slice b 12 32) → slice b 44 24 = deviceFp →
      Config.check .x509 [slice b 72 (field b 8 4), [4#8]] = true →
      ownerSigned (slice b 72 (field b 8 4)) (b.take (72 + field b 8 4)) (slice b (72 + field b 8 4) 96)
        (slice b (168 + field b 8 4) 4627) (ascii "ECZ-COMMISSION") = true →
      s.otp.ownerFp = 0 →
      (commission s true b len).2 = 0 ∧ lifecycle (commission s true b len).1 = 2 ∧ (commission s true b len).1.lc.nonce = none ∧
      (commission s true b len).1.otp.ownerFp = BitVec.ofNat 192 (unle (Config.out .deviceFp [slice b 72 (field b 8 4)] 24)) ∧
      (unitAt (commission s true b len).1 0x004).lock = true) ∧
    (lifecycle s = 1 → commissionFormat b len = true → s.lc.nonce ≠ some (slice b 12 32) →
      commission s true b len = ({ s with lc := { s.lc with nonce := none } }, 5)) ∧
    (lifecycle s ≠ 1 → commission s true b len = (s, 2)) ∧
    (lifecycle s = 2 → listFormat b = true → slice b 24 24 = ownerFp s →
      ownerSigned s.lc.ownerCert (b.take (48 + 24 * field b 16 2)) (slice b (48 + 24 * field b 16 2) 96)
        (slice b (144 + 24 * field b 16 2) 4627) (ascii "ECZ-OWNERLIST") = true →
      (∀ l, s.lc.list = some l → l.1 < field b 8 8) →
      (ownerList s true b).2 = 0 ∧ (ownerList s true b).1.lc.list =
        some (field b 8 8, (List.range (field b 16 2)).map fun k => slice b (48 + 24 * k) 24) ∧
      (ownerList s true b).1.otp = s.otp) ∧
    (∀ l, lifecycle s = 2 → listFormat b = true → slice b 24 24 = ownerFp s →
      ownerSigned s.lc.ownerCert (b.take (48 + 24 * field b 16 2)) (slice b (48 + 24 * field b 16 2) 96)
        (slice b (144 + 24 * field b 16 2) 4627) (ascii "ECZ-OWNERLIST") = true →
      s.lc.list = some l → field b 8 8 ≤ l.1 → ownerList s true b = (s, 9)) ∧
    (lifecycle s ≠ 2 → ownerList s true b = (s, 2)) ∧
    (lifecycle s < 2 → zeroise s true b 0 = (zeroiseNow s, 0)) ∧
    (lifecycle s = 3 → zeroise s true b len = (s, 2)) ∧
    (lifecycle s = 2 → zeroiseFormat b len = true → s.lc.nonce = some (slice b 8 32) → slice b 40 24 = deviceFp →
      ownerSigned s.lc.ownerCert (b.take 64) (slice b 64 96) (slice b 160 4627) (ascii "ECZ-ZEROISE") = true →
      zeroise s true b len = (zeroiseNow { s with lc := { s.lc with nonce := none } }, 0)) ∧
    (lifecycle (zeroiseNow s) = 3 ∧ (zeroiseNow s).dbg.state = .closed)
end

