-- ==== Sys2Proof/Laws/Tables.lean ====
section
/-! SUPPORT. Laws of the sparse tables: a read after a write, and that every operation keeps the canonical form. -/

namespace Sys2Proof.Machine

section
variable {α : Type}

theorem tget_tput_same (d : α) (t : Tab α) (k : Nat) (v : α) : tget d (tput t k v) k = v := by
  induction t with
  | nil => simp [tput, tget]
  | cons e t ih => simp only [tput]; split; · simp [tget]
                   · split
                     · simp [tget]
                     · simp_all [tget]

theorem tget_tput_ne (d : α) (t : Tab α) {k j : Nat} (v : α) (h : j ≠ k) : tget d (tput t k v) j = tget d t j := by
  induction t with
  | nil => simp [tput, tget, Ne.symm h]
  | cons e t ih =>
    simp only [tput]; split
    · rename_i hk; subst hk; simp [tget, Ne.symm h]
    · split
      · simp [tget, Ne.symm h]
      · simp [tget, ih]

theorem tfind_tput_same (t : Tab α) (k : Nat) (v : α) : tfind (tput t k v) k = some v := by
  induction t with
  | nil => simp [tput, tfind]
  | cons e t ih => simp only [tput]; split; · simp [tfind]
                   · split
                     · simp [tfind]
                     · simp_all [tfind]

theorem tfind_tput_ne (t : Tab α) {k j : Nat} (v : α) (h : j ≠ k) : tfind (tput t k v) j = tfind t j := by
  induction t with
  | nil => simp [tput, tfind, Ne.symm h]
  | cons e t ih =>
    simp only [tput]; split
    · rename_i hk; subst hk; simp [tfind, Ne.symm h]
    · split
      · simp [tfind, Ne.symm h]
      · simp [tfind, ih]

theorem tget_tdel_ne (d : α) (t : Tab α) {k j : Nat} (h : j ≠ k) : tget d (tdel t k) j = tget d t j := by
  induction t with
  | nil => simp [tdel, tget]
  | cons e t ih =>
    simp only [tdel]; split
    · rename_i hk; subst hk; simp [tget, Ne.symm h]
    · simp [tget, ih]

variable [DecidableEq α]

theorem wf_head {d : Nat → α} {lo : Option Nat} {e : Nat × α} {t : Tab α} :
    tabWfFrom d lo (e :: t) = true ↔ (∀ l, lo = some l → l < e.1) ∧ e.2 ≠ d e.1 ∧ tabWfFrom d (some e.1) t = true := by
  simp [tabWfFrom, and_assoc]

/-- A lower bound may be weakened. -/
theorem wf_weaken {d : Nat → α} {a : Nat} {t : Tab α} (h : tabWfFrom d (some a) t = true) {lo : Option Nat}
    (hl : ∀ l, lo = some l → l ≤ a) : tabWfFrom d lo t = true := by
  cases t with
  | nil => rfl
  | cons e t =>
    rw [wf_head] at h ⊢
    exact ⟨fun l hlo => Nat.lt_of_le_of_lt (hl l hlo) (h.1 a rfl), h.2⟩

/-- Nothing is listed at or below a table's lower bound. -/
theorem tget_below {d : Nat → α} {a : Nat} {t : Tab α} (h : tabWfFrom d (some a) t = true) {k : Nat} (hk : k ≤ a) (x : α) :
    tget x t k = x := by
  induction t generalizing a with
  | nil => rfl
  | cons e t ih =>
    rw [wf_head] at h
    have := h.1 a rfl
    simp only [tget]
    rw [if_neg (by omega)]
    exact ih h.2.2 (by omega)

theorem wf_tdel_from {d : Nat → α} {lo : Option Nat} {t : Tab α} (h : tabWfFrom d lo t = true) (k : Nat) :
    tabWfFrom d lo (tdel t k) = true := by
  induction t generalizing lo with
  | nil => rfl
  | cons e t ih =>
    rw [wf_head] at h
    simp only [tdel]; split
    · exact wf_weaken h.2.2 fun l hl => Nat.le_of_lt (h.1 l hl)
    · rw [wf_head]; exact ⟨h.1, h.2.1, ih h.2.2⟩

theorem wf_tput_from {d : Nat → α} {lo : Option Nat} {t : Tab α} (h : tabWfFrom d lo t = true) {k : Nat} {v : α}
    (hk : ∀ l, lo = some l → l < k) (hv : v ≠ d k) : tabWfFrom d lo (tput t k v) = true := by
  induction t generalizing lo with
  | nil => simp [tput, tabWfFrom, hv]; simpa using hk
  | cons e t ih =>
    have h' := h
    rw [wf_head] at h
    simp only [tput]; split
    · rename_i he; rw [wf_head]; exact ⟨hk, hv, he ▸ h.2.2⟩
    · split
      · rename_i hlt; rw [wf_head]
        refine ⟨hk, hv, ?_⟩
        rw [wf_head]; exact ⟨fun l hl => by cases hl; exact hlt, h.2⟩
      · rw [wf_head]
        refine ⟨h.1, h.2.1, ih h.2.2 ?_⟩
        intro l hl; cases hl; omega

theorem tdel_wf {d : Nat → α} {t : Tab α} (h : Tab.wf d t = true) (k : Nat) : Tab.wf d (tdel t k) = true :=
  wf_tdel_from h k

theorem tput_wf {d : Nat → α} {t : Tab α} (h : Tab.wf d t = true) {k : Nat} {v : α} (hv : v ≠ d k) :
    Tab.wf d (tput t k v) = true := wf_tput_from h (by simp) hv

/-- A write keeps the canonical form. -/
theorem tset_wf {d : Nat → α} {t : Tab α} (h : Tab.wf d t = true) (k : Nat) (v : α) : Tab.wf d (tset (d k) t k v) = true := by
  unfold tset; split
  · exact tdel_wf h k
  · rename_i hv; exact tput_wf h hv

theorem wf_filter_from {d : Nat → α} {lo : Option Nat} {t : Tab α} (h : tabWfFrom d lo t = true) (p : Nat × α → Bool) :
    tabWfFrom d lo (t.filter p) = true := by
  induction t generalizing lo with
  | nil => rfl
  | cons e t ih =>
    rw [wf_head] at h
    simp only [List.filter]; split
    · rw [wf_head]; exact ⟨h.1, h.2.1, ih h.2.2⟩
    · exact wf_weaken (ih h.2.2) fun l hl => Nat.le_of_lt (h.1 l hl)

theorem filter_wf {d : Nat → α} {t : Tab α} (h : Tab.wf d t = true) (p : Nat × α → Bool) : Tab.wf d (t.filter p) = true :=
  wf_filter_from h p

/-- A filter that keeps each entry's key and never answers the default keeps the form. -/
theorem wf_filterMap_from {β : Type} [DecidableEq β] {d : Nat → α} {d' : Nat → β} {lo : Option Nat} {t : Tab α}
    (h : tabWfFrom d lo t = true) (f : Nat × α → Option (Nat × β)) (hf : ∀ e r, f e = some r → r.1 = e.1 ∧ r.2 ≠ d' r.1) :
    tabWfFrom d' lo (t.filterMap f) = true := by
  induction t generalizing lo with
  | nil => rfl
  | cons e t ih =>
    rw [wf_head] at h
    simp only [List.filterMap_cons]; split
    · exact wf_weaken (ih h.2.2) fun l hl => Nat.le_of_lt (h.1 l hl)
    · rename_i r hr
      rw [wf_head]
      obtain ⟨hk, hv⟩ := hf _ _ hr
      exact ⟨hk ▸ h.1, hv, hk ▸ ih h.2.2⟩

theorem filterMap_wf {β : Type} [DecidableEq β] {d : Nat → α} {d' : Nat → β} {t : Tab α}
    (h : Tab.wf d t = true) (f : Nat × α → Option (Nat × β)) (hf : ∀ e r, f e = some r → r.1 = e.1 ∧ r.2 ≠ d' r.1) :
    Tab.wf d' (t.filterMap f) = true := wf_filterMap_from h f hf

theorem tmap_wf {d : Nat → α} {t : Tab α} (h : Tab.wf d t = true) (f : Nat → α → α) : Tab.wf d (tmap d f t) = true := by
  refine filterMap_wf h _ fun e r hr => ?_
  split at hr
  · cases hr
  · rename_i hne; cases hr; exact ⟨rfl, hne⟩

end

/-! ### Tables without a default -/

section
variable {α : Type}

theorem rising_head {lo : Option Nat} {e : Nat × α} {t : Tab α} :
    risingFrom lo (e :: t) = true ↔ (∀ l, lo = some l → l < e.1) ∧ risingFrom (some e.1) t = true := by
  simp [risingFrom]

theorem rising_weaken {a : Nat} {t : Tab α} (h : risingFrom (some a) t = true) {lo : Option Nat}
    (hl : ∀ l, lo = some l → l ≤ a) : risingFrom lo t = true := by
  cases t with
  | nil => rfl
  | cons e t =>
    rw [rising_head] at h ⊢
    exact ⟨fun l hlo => Nat.lt_of_le_of_lt (hl l hlo) (h.1 a rfl), h.2⟩

theorem rising_tdel {lo : Option Nat} {t : Tab α} (h : risingFrom lo t = true) (k : Nat) :
    risingFrom lo (tdel t k) = true := by
  induction t generalizing lo with
  | nil => rfl
  | cons e t ih =>
    rw [rising_head] at h
    simp only [tdel]; split
    · exact rising_weaken h.2 fun l hl => Nat.le_of_lt (h.1 l hl)
    · rw [rising_head]; exact ⟨h.1, ih h.2⟩

theorem rising_tput {lo : Option Nat} {t : Tab α} (h : risingFrom lo t = true) {k : Nat} (v : α)
    (hk : ∀ l, lo = some l → l < k) : risingFrom lo (tput t k v) = true := by
  induction t generalizing lo with
  | nil => simp [tput, risingFrom]; simpa using hk
  | cons e t ih =>
    rw [rising_head] at h
    simp only [tput]; split
    · rename_i he; rw [rising_head]; exact ⟨hk, he ▸ h.2⟩
    · split
      · rename_i hlt; rw [rising_head]
        refine ⟨hk, ?_⟩
        rw [rising_head]; exact ⟨fun l hl => by cases hl; exact hlt, h.2⟩
      · rw [rising_head]
        refine ⟨h.1, ih h.2 ?_⟩
        intro l hl; cases hl; omega

theorem rising_map {lo : Option Nat} {t : Tab α} (h : risingFrom lo t = true) (f : Nat × α → Nat × α) (hf : ∀ e, (f e).1 = e.1) :
    risingFrom lo (t.map f) = true := by
  induction t generalizing lo with
  | nil => rfl
  | cons e t ih =>
    rw [rising_head] at h
    rw [List.map_cons, rising_head]
    exact ⟨(hf e).symm ▸ h.1, (hf e).symm ▸ ih h.2⟩

theorem rising_foldl_tput {β : Type} {t : Tab α} (h : risingFrom none t = true) (l : List β) (k : β → Nat) (v : β → α) :
    risingFrom none (l.foldl (fun t b => tput t (k b) (v b)) t) = true := by
  induction l generalizing t with
  | nil => exact h
  | cons b l ih => exact ih (rising_tput h _ (by simp))

end

end Sys2Proof.Machine
end

