-- ==== Sys2Proof/Laws/Evolves.lean ====
section
/-! SUPPORT. What no operation of the machine undoes: the queue stays as it is, burned bits stay burned, and a legal state
stays legal. One lemma per operation, cited by the next. -/

namespace Sys2Proof.Machine

/-- What every operation of the machine leaves in place on the way from `s` to `t`. -/
structure Evolves (s t : State) : Prop where
  queue : t.pending = s.pending
  burned : BurnedStays s.otp t.otp
  pointer : s.smbPtr < 2 ^ 24 → t.smbPtr < 2 ^ 24
  gate : GateLegal s.dbg → GateLegal t.dbg
  tables : TablesCanonical s → TablesCanonical t

theorem BurnedStays.refl (a : Otp) : BurnedStays a a := by constructor <;> simp

theorem burned_trans {w : Nat} {a b c : BitVec w} (h : a ||| b = b) (k : b ||| c = c) : a ||| c = c := by
  rw [← k, ← BitVec.or_assoc, h]

theorem BurnedStays.trans {a b c : Otp} (h : BurnedStays a b) (k : BurnedStays b c) : BurnedStays a c :=
  ⟨burned_trans h.1 k.1, burned_trans h.2 k.2, burned_trans h.3 k.3, burned_trans h.4 k.4, burned_trans h.5 k.5,
    burned_trans h.6 k.6, burned_trans h.7 k.7, burned_trans h.8 k.8, burned_trans h.9 k.9⟩

theorem Evolves.refl (s : State) : Evolves s s := ⟨rfl, .refl _, id, id, id⟩

theorem Evolves.trans {s t u : State} (h : Evolves s t) (k : Evolves t u) : Evolves s u :=
  ⟨k.queue.trans h.queue, h.burned.trans k.burned, fun x => k.pointer (h.pointer x), fun x => k.gate (h.gate x),
    fun x => k.tables (h.tables x)⟩

theorem Evolves.ite {s a b : State} {c : Prop} [Decidable c] (ha : Evolves s a) (hb : Evolves s b) :
    Evolves s (if c then a else b) := by split <;> assumption

theorem Evolves.foldl {s : State} {α : Type} {f : State → α → State} {l : List α} {t : State}
    (h : Evolves s t) (hf : ∀ a x, Evolves s a → Evolves s (f a x)) : Evolves s (l.foldl f t) := by
  induction l generalizing t with
  | nil => exact h
  | cons x l ih => exact ih (hf _ _ h)

/-- A fold that carries a number beside the state. -/
theorem Evolves.foldlFst {s : State} {α β : Type} {f : State × β → α → State × β} {l : List α} {p : State × β}
    (h : Evolves s p.1) (hf : ∀ q x, Evolves s q.1 → Evolves s (f q x).1) : Evolves s (l.foldl f p).1 := by
  induction l generalizing p with
  | nil => exact h
  | cons x l ih => exact ih (hf _ _ h)

theorem Evolves.foldlLast {s : State} {α β γ : Type} {f : β × γ × State → α → β × γ × State} {l : List α} {p : β × γ × State}
    (h : Evolves s p.2.2) (hf : ∀ q x, Evolves s q.2.2 → Evolves s (f q x).2.2) : Evolves s (l.foldl f p).2.2 := by
  induction l generalizing p with
  | nil => exact h
  | cons x l ih => exact ih (hf _ _ h)

/-- A write of fields that the relation does not mention. -/
theorem Evolves.upd {s t : State}
    {cycles : Nat} {fresh : Nat} {out : List Output} {rootSent : Bool} {nextSerial : Nat} {ballast : Ballast} {kc :
    KeyCache} {tether : Tether} {kh : KeyHier} {audit : Audit} {sig : SigPipe} {rng : Rng} {mc : Microcode} {im :
    InstMgr} {faults : Faults} {bridle : Bridle} {tamper : Tamper} {mooring : Mooring} {flash : Flash} {ccb :
    CardBus} {tag : Tag} {power : Power} {lc : Lifecycle} {otpRegs : OtpRegs}
    (h : Evolves s t) :
    Evolves s (State.mk t.pending cycles fresh out t.regs t.units rootSent t.rings t.jobs nextSerial t.intakes ballast
      t.msix kc tether t.events t.evtSel t.evtRes kh audit t.sails sig t.lanes rng t.cores mc
      t.dbg im faults bridle tamper mooring flash ccb tag t.ports power lc t.otp otpRegs t.smbPtr) :=
  ⟨h.queue, h.burned, h.pointer, h.gate, fun x =>
    let y := h.tables x
    ⟨y.regs, y.units, y.rings, y.jobs, y.intakes, y.msix, y.events, y.evtSel, y.evtRes, y.sails, y.lanes, y.cores, y.ports⟩⟩

/-- A write of tables as well, each new one canonical if the old one was. -/
theorem Evolves.updTabs {s t : State}
    {cycles : Nat} {fresh : Nat} {out : List Output} {regs : Tab Word32} {units : Tab UnitHdr} {rootSent : Bool} {rings
    : Tab Ring} {jobs : Tab Job} {nextSerial : Nat} {intakes : Tab Intake} {ballast : Ballast} {msix : Tab
    MsixEntry} {kc : KeyCache} {tether : Tether} {events : Tab EvEntry} {evtSel : Tab Nat} {evtRes : Tab Nat} {kh :
    KeyHier} {audit : Audit} {sails : Tab Sail} {sig : SigPipe} {lanes : Tab Lane} {rng : Rng} {cores : Tab Core}
    {mc : Microcode} {im : InstMgr} {faults : Faults} {bridle : Bridle} {tamper : Tamper} {mooring : Mooring} {flash
    : Flash} {ccb : CardBus} {tag : Tag} {ports : Tab Port} {power : Power} {lc : Lifecycle} {otpRegs : OtpRegs}
    (h : Evolves s t)
    (h1 : Tab.wf (fun _ => 0) t.regs = true → Tab.wf (fun _ => 0) regs = true)
    (h2 : Tab.wf unitDflt t.units = true → Tab.wf unitDflt units = true)
    (h3 : Tab.wf (fun _ => {}) t.rings = true → Tab.wf (fun _ => {}) rings = true)
    (h4 : risingFrom none t.jobs = true → risingFrom none jobs = true)
    (h5 : Tab.wf (fun _ => {}) t.intakes = true → Tab.wf (fun _ => {}) intakes = true)
    (h6 : Tab.wf (fun _ => {}) t.msix = true → Tab.wf (fun _ => {}) msix = true)
    (h7 : Tab.wf (fun _ => {}) t.events = true → Tab.wf (fun _ => {}) events = true)
    (h8 : Tab.wf (fun _ => 0) t.evtSel = true → Tab.wf (fun _ => 0) evtSel = true)
    (h9 : Tab.wf (fun _ => 0) t.evtRes = true → Tab.wf (fun _ => 0) evtRes = true)
    (h10 : Tab.wf (fun _ => {}) t.sails = true → Tab.wf (fun _ => {}) sails = true)
    (h11 : Tab.wf (fun _ => {}) t.lanes = true → Tab.wf (fun _ => {}) lanes = true)
    (h12 : Tab.wf (fun _ => {}) t.cores = true → Tab.wf (fun _ => {}) cores = true)
    (h13 : Tab.wf (fun _ => {}) t.ports = true → Tab.wf (fun _ => {}) ports = true) :
    Evolves s (State.mk t.pending cycles fresh out regs units rootSent rings jobs nextSerial intakes ballast msix kc tether
      events evtSel evtRes kh audit sails sig lanes rng cores mc t.dbg im faults bridle tamper
      mooring flash ccb tag ports power lc t.otp otpRegs t.smbPtr) :=
  ⟨h.queue, h.burned, h.pointer, h.gate, fun x =>
    let y := h.tables x
    ⟨h1 y.regs, h2 y.units, h3 y.rings, h4 y.jobs, h5 y.intakes, h6 y.msix, h7 y.events, h8 y.evtSel, h9 y.evtRes, h10 y.sails,
      h11 y.lanes, h12 y.cores, h13 y.ports⟩⟩

/-- Bits of the one-time-programmable store are burned. -/
theorem Evolves.burn {s t : State} {o : Otp}
    {cycles : Nat} {fresh : Nat} {out : List Output} {rootSent : Bool} {nextSerial : Nat} {ballast : Ballast} {kc :
    KeyCache} {tether : Tether} {kh : KeyHier} {audit : Audit} {sig : SigPipe} {rng : Rng} {mc : Microcode} {im :
    InstMgr} {faults : Faults} {bridle : Bridle} {tamper : Tamper} {mooring : Mooring} {flash : Flash} {ccb :
    CardBus} {tag : Tag} {power : Power} {lc : Lifecycle} {otpRegs : OtpRegs}
    (h : Evolves s t) (hb : BurnedStays t.otp o) :
    Evolves s (State.mk t.pending cycles fresh out t.regs t.units rootSent t.rings t.jobs nextSerial t.intakes ballast
      t.msix kc tether t.events t.evtSel t.evtRes kh audit t.sails sig t.lanes rng t.cores mc
      t.dbg im faults bridle tamper mooring flash ccb tag t.ports power lc o otpRegs t.smbPtr) :=
  ⟨h.queue, h.burned.trans hb, h.pointer, h.gate, fun x =>
    let y := h.tables x
    ⟨y.regs, y.units, y.rings, y.jobs, y.intakes, y.msix, y.events, y.evtSel, y.evtRes, y.sails, y.lanes, y.cores, y.ports⟩⟩

/-- The debug gate changes. -/
theorem Evolves.gated {s t : State} {d : Debug}
    {cycles : Nat} {fresh : Nat} {out : List Output} {rootSent : Bool} {nextSerial : Nat} {ballast : Ballast} {kc :
    KeyCache} {tether : Tether} {kh : KeyHier} {audit : Audit} {sig : SigPipe} {rng : Rng} {mc : Microcode} {im :
    InstMgr} {faults : Faults} {bridle : Bridle} {tamper : Tamper} {mooring : Mooring} {flash : Flash} {ccb :
    CardBus} {tag : Tag} {power : Power} {lc : Lifecycle} {otpRegs : OtpRegs}
    (h : Evolves s t) (hd : GateLegal t.dbg → GateLegal d) :
    Evolves s (State.mk t.pending cycles fresh out t.regs t.units rootSent t.rings t.jobs nextSerial t.intakes ballast
      t.msix kc tether t.events t.evtSel t.evtRes kh audit t.sails sig t.lanes rng t.cores mc d im
      faults bridle tamper mooring flash ccb tag t.ports power lc t.otp otpRegs t.smbPtr) :=
  ⟨h.queue, h.burned, h.pointer, fun x => hd (h.gate x), fun x =>
    let y := h.tables x
    ⟨y.regs, y.units, y.rings, y.jobs, y.intakes, y.msix, y.events, y.evtSel, y.evtRes, y.sails, y.lanes, y.cores, y.ports⟩⟩

/-- An answer of an operation keeps the relation: `get` finds the state in it, where it holds one. -/
structure Keeps {α : Type} (get : α → Option State) (s : State) (x : α) : Prop where
  found : ∀ t, get x = some t → Evolves s t

/-- The state in an answer: a pair's first or second, a result that may be absent, an outcome. -/
def inFst {α : Type} (x : State × α) : Option State := some x.1
def inSnd {α : Type} (x : α × State) : Option State := some x.2
def inLast {α β : Type} (x : α × β × State) : Option State := some x.2.2
def inOpt (x : Option State) : Option State := x
def inExc {ε : Type} : Except ε State → Option State
  | .ok s => some s
  | .error _ => none
def inExcSnd {ε α : Type} : Except ε (α × State) → Option State
  | .ok s => some s.2
  | .error _ => none
def inExcFst {ε α β : Type} : Except ε (State × α × β) → Option State
  | .ok s => some s.1
  | .error _ => none
def inExcLast {ε α β : Type} : Except ε (α × β × State) → Option State
  | .ok s => some s.2.2
  | .error _ => none
def inOut {φ ρ : Type} : Host.Outcome State φ ρ → Option State
  | .next s => some s
  | _ => none
def inRes : Res → Option State
  | .done s _ _ | .trapAt s _ | .wait _ s | .again s _ => some s
  | .trap _ _ => none

section
variable {α : Type} {get : α → Option State} {s : State}

theorem Keeps.ite {a b : α} {c : Prop} [Decidable c] (ha : Keeps get s a) (hb : Keeps get s b) :
    Keeps get s (if c then a else b) := by split <;> assumption

/-! The state found in an answer that is known. -/

theorem Keeps.ofFst {β : Type} {x : State × β} {t : State} {b : β} (e : x = (t, b)) (h : Keeps inFst s x) : Evolves s t :=
  h.found t (e ▸ rfl)
theorem Keeps.ofSnd {β : Type} {x : β × State} {t : State} {b : β} (e : x = (b, t)) (h : Keeps inSnd s x) : Evolves s t :=
  h.found t (e ▸ rfl)
theorem Keeps.ofLast {β γ : Type} {x : β × γ × State} {t : State} {b : β} {c : γ} (e : x = (b, c, t))
    (h : Keeps inLast s x) : Evolves s t := h.found t (e ▸ rfl)
theorem Keeps.ofSome {x : Option State} {t : State} (e : x = .some t) (h : Keeps inOpt s x) : Evolves s t :=
  h.found t (e ▸ rfl)
theorem Keeps.ofOk {ε : Type} {x : Except ε State} {t : State} (e : x = .ok t) (h : Keeps inExc s x) : Evolves s t :=
  h.found t (e ▸ rfl)
theorem Keeps.ofOkFst {ε β γ : Type} {x : Except ε (State × β × γ)} {t : State} {b : β} {c : γ} (e : x = .ok (t, b, c))
    (h : Keeps inExcFst s x) : Evolves s t := h.found t (e ▸ rfl)
theorem Keeps.ofOkSnd {ε β : Type} {x : Except ε (β × State)} {t : State} {b : β} (e : x = .ok (b, t))
    (h : Keeps inExcSnd s x) : Evolves s t := h.found t (e ▸ rfl)
theorem Keeps.ofOkLast {ε β γ : Type} {x : Except ε (β × γ × State)} {t : State} {b : β} {c : γ} (e : x = .ok (b, c, t))
    (h : Keeps inExcLast s x) : Evolves s t := h.found t (e ▸ rfl)
theorem Keeps.ofDone {x : Res} {t : State} {j : Option Word32} {n : Nat} (e : x = .done t j n) (h : Keeps inRes s x) :
    Evolves s t := h.found t (e ▸ rfl)
theorem Keeps.ofTrapAt {x : Res} {t : State} {j : Exc} (e : x = .trapAt t j) (h : Keeps inRes s x) : Evolves s t :=
  h.found t (e ▸ rfl)
theorem Keeps.ofWait {x : Res} {t : State} {j : Stall} (e : x = .wait j t) (h : Keeps inRes s x) : Evolves s t :=
  h.found t (e ▸ rfl)
theorem Keeps.ofAgain {x : Res} {t : State} {n : Nat} (e : x = .again t n) (h : Keeps inRes s x) : Evolves s t :=
  h.found t (e ▸ rfl)

theorem Keeps.mkFst {β : Type} {t : State} {b : β} (h : Evolves s t) : Keeps inFst s (t, b) :=
  ⟨fun _ e => by cases e; exact h⟩
theorem Keeps.mkSnd {β : Type} {t : State} {b : β} (h : Evolves s t) : Keeps inSnd s (b, t) :=
  ⟨fun _ e => by cases e; exact h⟩
theorem Keeps.mkLast {β γ : Type} {t : State} {b : β} {c : γ} (h : Evolves s t) : Keeps inLast s (b, c, t) :=
  ⟨fun _ e => by cases e; exact h⟩
theorem Keeps.mkSome {t : State} (h : Evolves s t) : Keeps inOpt s (.some t) := ⟨fun _ e => by cases e; exact h⟩
theorem Keeps.mkNone : Keeps inOpt s .none := ⟨fun _ e => by cases e⟩
theorem Keeps.ok {ε : Type} {t : State} (h : Evolves s t) : Keeps (inExc (ε := ε)) s (.ok t) :=
  ⟨fun _ e => by cases e; exact h⟩
theorem Keeps.err {ε : Type} {e : ε} : Keeps inExc s (.error e) := ⟨fun _ e => by cases e⟩
theorem Keeps.okFst {ε β γ : Type} {t : State} {b : β} {c : γ} (h : Evolves s t) : Keeps (inExcFst (ε := ε)) s (.ok (t, b, c)) :=
  ⟨fun _ e => by cases e; exact h⟩
theorem Keeps.errFst {ε β γ : Type} {e : ε} : Keeps (inExcFst (α := β) (β := γ)) s (.error e) := ⟨fun _ e => by cases e⟩
theorem Keeps.okSnd {ε β : Type} {t : State} {b : β} (h : Evolves s t) : Keeps (inExcSnd (ε := ε)) s (.ok (b, t)) :=
  ⟨fun _ e => by cases e; exact h⟩
theorem Keeps.errSnd {ε β : Type} {e : ε} : Keeps (inExcSnd (α := β)) s (.error e) := ⟨fun _ e => by cases e⟩
theorem Keeps.okLast {ε β γ : Type} {t : State} {b : β} {c : γ} (h : Evolves s t) :
    Keeps (inExcLast (ε := ε)) s (.ok (b, c, t)) := ⟨fun _ e => by cases e; exact h⟩
theorem Keeps.errLast {ε β γ : Type} {e : ε} : Keeps (inExcLast (α := β) (β := γ)) s (.error e) := ⟨fun _ e => by cases e⟩
theorem Keeps.next {φ ρ : Type} {t : State} (h : Evolves s t) : Keeps (inOut (φ := φ) (ρ := ρ)) s (.next t) :=
  ⟨fun _ e => by cases e; exact h⟩
theorem Keeps.done {t : State} {j : Option Word32} {n : Nat} (h : Evolves s t) : Keeps inRes s (.done t j n) :=
  ⟨fun _ e => by cases e; exact h⟩
theorem Keeps.trapAt {t : State} {e : Exc} (h : Evolves s t) : Keeps inRes s (.trapAt t e) := ⟨fun _ e => by cases e; exact h⟩
theorem Keeps.wait {t : State} {w : Stall} (h : Evolves s t) : Keeps inRes s (.wait w t) := ⟨fun _ e => by cases e; exact h⟩
theorem Keeps.again {t : State} {n : Nat} (h : Evolves s t) : Keeps inRes s (.again t n) := ⟨fun _ e => by cases e; exact h⟩
theorem Keeps.trap {n : Nat} {e : Exc} : Keeps inRes s (.trap n e) := ⟨fun _ e => by cases e⟩

theorem Keeps.last {β γ : Type} {x : β × γ × State} (h : Keeps inLast s x) : Evolves s x.2.2 := h.found _ rfl
theorem Keeps.fst {β : Type} {x : State × β} (h : Keeps inFst s x) : Evolves s x.1 := h.found _ rfl
theorem Keeps.snd {β : Type} {x : β × State} (h : Keeps inSnd s x) : Evolves s x.2 := h.found _ rfl
end

end Sys2Proof.Machine
end

