-- ==== Sys2Proof/Laws/EvolvesTree.lean ====
section
/-! SUPPORT. `Evolves`: one lemma for each operation of the unit tree, the store, the tether clock, keys, jobs in flight, randomness, audit and the Sail engines. Each
says that what `Evolves` keeps up to the state the operation begins with, it keeps up to the state the operation leaves. -/

namespace Sys2Proof.Machine

theorem freeNat_ev {s0 s : State} (h : Evolves s0 s) :
    Keeps inSnd s0 (freeNat s) := by
  unfold freeNat
  exact Keeps.mkSnd (Evolves.upd h)

theorem stay_ev {s0 s : State} (h : Evolves s0 s) :
    Keeps inOut s0 (stay s) := by
  unfold stay
  exact Keeps.next h

theorem emit_ev {s0 s : State} {o} (h : Evolves s0 s) :
    Evolves s0 (emit s o) := by
  unfold emit
  exact Evolves.upd h

theorem freeBytes_ev {s0 s : State} {n} (h : Evolves s0 s) :
    Keeps inSnd s0 (freeBytes s n) := by
  unfold freeBytes
  exact Keeps.mkSnd (Evolves.upd h)

theorem onStarting_ev {s0 s : State} {p} (h : Evolves s0 s) :
    Evolves s0 (onStarting s p) := by
  unfold onStarting
  repeat' first
    | with_reducible assumption
    | intro h
      first | exact h | exact tset_wf h _ _ | exact tdel_wf h _ | exact filter_wf h _ | exact tmap_wf h _
            | exact rising_tput h _ (by simp) | exact rising_foldl_tput h _ _ _ | exact rising_tdel h _
            | exact rising_map h _ fun e => by split <;> rfl
    | fail_if_no_progress extract_lets -underBinder +onlyGivenNames _x
    | with_reducible refine Evolves.ite ?_ ?_
    | (fail_if_success (with_reducible refine Evolves.upd ?_))
      with_reducible refine Evolves.updTabs ?_ ?_ ?_ ?_ ?_ ?_ ?_ ?_ ?_ ?_ ?_ ?_ ?_ ?_

theorem putInst_ev {s0 s : State} {i x} (h : Evolves s0 s) :
    Evolves s0 (putInst s i x) := by
  unfold putInst
  repeat' first
    | with_reducible assumption
    | fail_if_no_progress extract_lets -underBinder +onlyGivenNames _x
    | fail_if_no_progress with_reducible refine Evolves.upd ?_

theorem sendMsix_ev {s0 s : State} {func entry} (h : Evolves s0 s) :
    Evolves s0 (sendMsix s func entry) := by
  unfold sendMsix
  repeat' first
    | with_reducible assumption
    | intro h
      first | exact h | exact tset_wf h _ _ | exact tdel_wf h _ | exact filter_wf h _ | exact tmap_wf h _
            | exact rising_tput h _ (by simp) | exact rising_foldl_tput h _ _ _ | exact rising_tdel h _
            | exact rising_map h _ fun e => by split <;> rfl
    | fail_if_no_progress extract_lets -underBinder +onlyGivenNames _x
    | with_reducible refine Evolves.ite ?_ ?_
    | with_reducible refine emit_ev ?_
    | (fail_if_success (with_reducible refine Evolves.upd ?_))
      with_reducible refine Evolves.updTabs ?_ ?_ ?_ ?_ ?_ ?_ ?_ ?_ ?_ ?_ ?_ ?_ ?_ ?_

theorem dpEvent_ev {s0 s : State} {i b} (h : Evolves s0 s) :
    Evolves s0 (dpEvent s i b) := by
  unfold dpEvent
  repeat' first
    | with_reducible assumption
    | (fail_if_no_progress extract_lets -underBinder +onlyGivenNames x)
      refine (fun (hx : Evolves s0 x) => ?_ : Evolves s0 x → _) ?_
      (on_goal 1 => clear_value x)
      (on_goal 2 => simp -zeta only [x])
    | fail_if_no_progress extract_lets -underBinder +onlyGivenNames _x
    | with_reducible refine Evolves.ite ?_ ?_
    | with_reducible refine putInst_ev ?_
    | with_reducible refine sendMsix_ev ?_

theorem putRing_ev {s0 s : State} {k r} (h : Evolves s0 s) :
    Evolves s0 (putRing s k r) := by
  unfold putRing
  repeat' first
    | with_reducible assumption
    | intro h
      first | exact h | exact tset_wf h _ _ | exact tdel_wf h _ | exact filter_wf h _ | exact tmap_wf h _
            | exact rising_tput h _ (by simp) | exact rising_foldl_tput h _ _ _ | exact rising_tdel h _
            | exact rising_map h _ fun e => by split <;> rfl
    | (fail_if_success (with_reducible refine Evolves.upd ?_))
      with_reducible refine Evolves.updTabs ?_ ?_ ?_ ?_ ?_ ?_ ?_ ?_ ?_ ?_ ?_ ?_ ?_ ?_

theorem putIntake_ev {s0 s : State} {c x} (h : Evolves s0 s) :
    Evolves s0 (putIntake s c x) := by
  unfold putIntake
  repeat' first
    | with_reducible assumption
    | intro h
      first | exact h | exact tset_wf h _ _ | exact tdel_wf h _ | exact filter_wf h _ | exact tmap_wf h _
            | exact rising_tput h _ (by simp) | exact rising_foldl_tput h _ _ _ | exact rising_tdel h _
            | exact rising_map h _ fun e => by split <;> rfl
    | (fail_if_success (with_reducible refine Evolves.upd ?_))
      with_reducible refine Evolves.updTabs ?_ ?_ ?_ ?_ ?_ ?_ ?_ ?_ ?_ ?_ ?_ ?_ ?_ ?_

theorem wakeRing_ev {s0 s : State} {k} (h : Evolves s0 s) :
    Evolves s0 (wakeRing s k) := by
  unfold wakeRing
  repeat' first
    | with_reducible assumption
    | fail_if_no_progress extract_lets -underBinder +onlyGivenNames _x
    | with_reducible refine Evolves.ite ?_ ?_
    | with_reducible refine putRing_ev ?_
    | with_reducible refine putIntake_ev ?_

theorem instFollow_ev {s0 s : State} {p old} (h : Evolves s0 s) :
    Evolves s0 (instFollow s p old) := by
  unfold instFollow
  repeat' first
    | with_reducible assumption
    | fail_if_no_progress extract_lets -underBinder +onlyGivenNames _x
    | with_reducible refine Evolves.ite ?_ ?_
    | with_reducible refine dpEvent_ev ?_
    | with_reducible refine wakeRing_ev ?_
    | with_reducible refine Evolves.foldl ?_ ?_
    | intro _
    | split

theorem sendManagement_ev {s0 s : State} (h : Evolves s0 s) :
    Evolves s0 (sendManagement s) := by
  unfold sendManagement
  exact sendMsix_ev (sendMsix_ev h)

theorem noteRoot_ev {s0 s : State} (h : Evolves s0 s) :
    Evolves s0 (noteRoot s) := by
  unfold noteRoot
  repeat' first
    | with_reducible assumption
    | (fail_if_no_progress extract_lets -underBinder +onlyGivenNames x)
      refine (fun (hx : Evolves s0 x) => ?_ : Evolves s0 x → _) ?_
      (on_goal 1 => clear_value x)
      (on_goal 2 => simp -zeta only [x])
    | fail_if_no_progress extract_lets -underBinder +onlyGivenNames _x
    | with_reducible refine Evolves.ite ?_ ?_
    | with_reducible refine sendManagement_ev ?_
    | fail_if_no_progress with_reducible refine Evolves.upd ?_

theorem putUnit_ev {s0 s : State} {p u} (h : Evolves s0 s) :
    Evolves s0 (putUnit s p u) := by
  unfold putUnit
  repeat' first
    | with_reducible assumption
    | intro h
      first | exact h | exact tset_wf h _ _ | exact tdel_wf h _ | exact filter_wf h _ | exact tmap_wf h _
            | exact rising_tput h _ (by simp) | exact rising_foldl_tput h _ _ _ | exact rising_tdel h _
            | exact rising_map h _ fun e => by split <;> rfl
    | (fail_if_success (with_reducible refine Evolves.upd ?_))
      with_reducible refine Evolves.updTabs ?_ ?_ ?_ ?_ ?_ ?_ ?_ ?_ ?_ ?_ ?_ ?_ ?_ ?_

theorem modUnit_ev {s0 s : State} {p f} (h : Evolves s0 s) :
    Evolves s0 (modUnit s p f) := by
  unfold modUnit
  exact putUnit_ev h

theorem setEvent_ev {s0 s : State} {p b} (h : Evolves s0 s) :
    Evolves s0 (setEvent s p b) := by
  unfold setEvent
  exact noteRoot_ev (modUnit_ev h)

theorem coreFollow_ev {s0 s : State} {p st} (h : Evolves s0 s) :
    Evolves s0 (coreFollow s p st) := by
  unfold coreFollow
  repeat' first
    | with_reducible assumption
    | intro h
      first | exact h | exact tset_wf h _ _ | exact tdel_wf h _ | exact filter_wf h _ | exact tmap_wf h _
            | exact rising_tput h _ (by simp) | exact rising_foldl_tput h _ _ _ | exact rising_tdel h _
            | exact rising_map h _ fun e => by split <;> rfl
    | fail_if_no_progress extract_lets -underBinder +onlyGivenNames _x
    | with_reducible refine Evolves.ite ?_ ?_
    | (fail_if_success (with_reducible refine Evolves.upd ?_))
      with_reducible refine Evolves.updTabs ?_ ?_ ?_ ?_ ?_ ?_ ?_ ?_ ?_ ?_ ?_ ?_ ?_ ?_
    | split

theorem sailFollow_ev {s0 s : State} {p st} (h : Evolves s0 s) :
    Evolves s0 (sailFollow s p st) := by
  unfold sailFollow
  repeat' first
    | with_reducible assumption
    | intro h
      first | exact h | exact tset_wf h _ _ | exact tdel_wf h _ | exact filter_wf h _ | exact tmap_wf h _
            | exact rising_tput h _ (by simp) | exact rising_foldl_tput h _ _ _ | exact rising_tdel h _
            | exact rising_map h _ fun e => by split <;> rfl
    | with_reducible refine Evolves.ite ?_ ?_
    | (fail_if_success (with_reducible refine Evolves.upd ?_))
      with_reducible refine Evolves.updTabs ?_ ?_ ?_ ?_ ?_ ?_ ?_ ?_ ?_ ?_ ?_ ?_ ?_ ?_
    | split

theorem drbgFollow_ev {s0 s : State} {p st} (h : Evolves s0 s) :
    Evolves s0 (drbgFollow s p st) := by
  unfold drbgFollow
  repeat' first
    | with_reducible assumption
    | (fail_if_no_progress extract_lets -underBinder +onlyGivenNames x)
      refine (fun (hx : Evolves s0 x) => ?_ : Evolves s0 x → _) ?_
      (on_goal 1 => clear_value x)
      (on_goal 2 => simp -zeta only [x])
    | fail_if_no_progress extract_lets -underBinder +onlyGivenNames _x
    | with_reducible refine Evolves.ite ?_ ?_
    | with_reducible refine setEvent_ev ?_
    | fail_if_no_progress with_reducible refine Evolves.upd ?_
    | split

theorem setUState_ev {s0 s : State} {p st} (h : Evolves s0 s) :
    Evolves s0 (setUState s p st) := by
  unfold setUState
  exact Evolves.ite h (instFollow_ev (setEvent_ev (modUnit_ev (coreFollow_ev (sailFollow_ev (drbgFollow_ev h))))))

theorem tryStart_ev {s0 s : State} {p} (h : Evolves s0 s) :
    Evolves s0 (tryStart s p) := by
  unfold tryStart
  repeat' first
    | with_reducible assumption
    | fail_if_no_progress extract_lets -underBinder +onlyGivenNames _x
    | with_reducible refine Evolves.ite ?_ ?_
    | with_reducible refine onStarting_ev ?_
    | with_reducible refine setUState_ev ?_
    | with_reducible refine modUnit_ev ?_

theorem wakeIdle_ev {s0 s : State} (h : Evolves s0 s) :
    Evolves s0 (wakeIdle s) := by
  unfold wakeIdle
  repeat' first
    | with_reducible assumption
    | fail_if_no_progress extract_lets -underBinder +onlyGivenNames _x
    | with_reducible refine Evolves.ite ?_ ?_
    | with_reducible refine setEvent_ev ?_
    | fail_if_no_progress with_reducible refine Evolves.upd ?_

theorem tryRun_ev {s0 s : State} {p} (h : Evolves s0 s) :
    Evolves s0 (tryRun s p) := by
  unfold tryRun
  repeat' first
    | with_reducible assumption
    | fail_if_no_progress extract_lets -underBinder +onlyGivenNames _x
    | with_reducible refine Evolves.ite ?_ ?_
    | with_reducible refine setUState_ev ?_
    | with_reducible refine modUnit_ev ?_

theorem mendShare_ev {s0 s : State} {i} (h : Evolves s0 s) :
    Evolves s0 (mendShare s i) := by
  unfold mendShare
  repeat' first
    | with_reducible assumption
    | fail_if_no_progress extract_lets -underBinder +onlyGivenNames _x
    | with_reducible refine Evolves.ite ?_ ?_
    | with_reducible refine setEvent_ev ?_
    | fail_if_no_progress with_reducible refine Evolves.upd ?_
    | split

theorem followOne_ev {s0 s : State} {st p} (h : Evolves s0 s) :
    Evolves s0 (followOne st s p) := by
  unfold followOne
  exact Evolves.ite h (setUState_ev (modUnit_ev h))

theorem noteStall_ev {s0 s : State} (h : Evolves s0 s) :
    Evolves s0 (noteStall s) := by
  unfold noteStall
  repeat' first
    | with_reducible assumption
    | fail_if_no_progress extract_lets -underBinder +onlyGivenNames _x
    | with_reducible refine Evolves.ite ?_ ?_
    | with_reducible refine setEvent_ev ?_
    | fail_if_no_progress with_reducible refine Evolves.upd ?_

theorem dropTake_ev {s0 s : State} {k} (h : Evolves s0 s) :
    Evolves s0 (dropTake s k) := by
  unfold dropTake
  repeat' first
    | with_reducible assumption
    | (fail_if_no_progress extract_lets -underBinder +onlyGivenNames x)
      refine (fun (hx : Evolves s0 x) => ?_ : Evolves s0 x → _) ?_
      (on_goal 1 => clear_value x)
      (on_goal 2 => simp -zeta only [x])
    | fail_if_no_progress extract_lets -underBinder +onlyGivenNames _x
    | with_reducible refine Evolves.ite ?_ ?_
    | with_reducible refine putRing_ev ?_
    | with_reducible refine noteStall_ev ?_
    | with_reducible refine putIntake_ev ?_

theorem moveRing_ev {s0 s : State} {k old new} (h : Evolves s0 s) :
    Evolves s0 (moveRing s k old new) := by
  unfold moveRing
  repeat' first
    | with_reducible assumption
    | (fail_if_no_progress extract_lets -underBinder +onlyGivenNames x)
      refine (fun (hx : Evolves s0 x) => ?_ : Evolves s0 x → _) ?_
      (on_goal 1 => clear_value x)
      (on_goal 2 => simp -zeta only [x])
    | fail_if_no_progress extract_lets -underBinder +onlyGivenNames _x
    | with_reducible refine Evolves.ite ?_ ?_
    | with_reducible refine dropTake_ev ?_
    | with_reducible refine putIntake_ev ?_
    | with_reducible refine setEvent_ev ?_

theorem rebind_ev {s0 s : State} {i} (h : Evolves s0 s) :
    Evolves s0 (rebind s i) := by
  unfold rebind
  repeat' first
    | with_reducible assumption
    | intro h
      first | exact h | exact tset_wf h _ _ | exact tdel_wf h _ | exact filter_wf h _ | exact tmap_wf h _
            | exact rising_tput h _ (by simp) | exact rising_foldl_tput h _ _ _ | exact rising_tdel h _
            | exact rising_map h _ fun e => by split <;> rfl
    | (fail_if_no_progress extract_lets -underBinder +onlyGivenNames x)
      refine (fun (hx : Evolves s0 x) => ?_ : Evolves s0 x → _) ?_
      (on_goal 1 => clear_value x)
      (on_goal 2 => simp -zeta only [x])
    | fail_if_no_progress extract_lets -underBinder +onlyGivenNames _x
    | with_reducible refine moveRing_ev ?_
    | with_reducible refine Evolves.foldl ?_ ?_
    | (fail_if_success (with_reducible refine Evolves.upd ?_))
      with_reducible refine Evolves.updTabs ?_ ?_ ?_ ?_ ?_ ?_ ?_ ?_ ?_ ?_ ?_ ?_ ?_ ?_
    | intro _
    | split

theorem onOff_ev {s0 s : State} {p} (h : Evolves s0 s) :
    Evolves s0 (onOff s p) := by
  unfold onOff
  repeat' first
    | with_reducible assumption
    | intro h
      first | exact h | exact tset_wf h _ _ | exact tdel_wf h _ | exact filter_wf h _ | exact tmap_wf h _
            | exact rising_tput h _ (by simp) | exact rising_foldl_tput h _ _ _ | exact rising_tdel h _
            | exact rising_map h _ fun e => by split <;> rfl
    | (fail_if_no_progress extract_lets -underBinder +onlyGivenNames x)
      refine (fun (hx : Evolves s0 x) => ?_ : Evolves s0 x → _) ?_
      (on_goal 1 => clear_value x)
      (on_goal 2 => simp -zeta only [x])
    | fail_if_no_progress extract_lets -underBinder +onlyGivenNames _x
    | with_reducible refine Evolves.ite ?_ ?_
    | with_reducible refine setEvent_ev ?_
    | fail_if_no_progress with_reducible refine Evolves.upd ?_
    | (fail_if_success (with_reducible refine Evolves.upd ?_))
      with_reducible refine Evolves.updTabs ?_ ?_ ?_ ?_ ?_ ?_ ?_ ?_ ?_ ?_ ?_ ?_ ?_ ?_

theorem refuseWrite_ev {s0 s : State} {p} (h : Evolves s0 s) :
    Evolves s0 (refuseWrite s p) := by
  unfold refuseWrite
  exact setEvent_ev (modUnit_ev h)

theorem rebindAll_ev {s0 s : State} (h : Evolves s0 s) :
    Evolves s0 (rebindAll s) := by
  unfold rebindAll
  repeat' first
    | with_reducible assumption
    | with_reducible refine rebind_ev ?_
    | with_reducible refine mendShare_ev ?_
    | with_reducible refine Evolves.foldl ?_ ?_
    | intro _

theorem replaceInShares_ev {s0 s : State} {c n} (h : Evolves s0 s) :
    Evolves s0 (replaceInShares s c n) := by
  unfold replaceInShares
  repeat' first
    | with_reducible assumption
    | fail_if_no_progress extract_lets -underBinder +onlyGivenNames _x
    | with_reducible refine Evolves.ite ?_ ?_
    | with_reducible refine setEvent_ev ?_
    | with_reducible refine Evolves.foldl ?_ ?_
    | fail_if_no_progress with_reducible refine Evolves.upd ?_
    | intro _

theorem transientFault_ev {s0 s : State} {p cause} (h : Evolves s0 s) :
    Evolves s0 (transientFault s p cause) := by
  unfold transientFault
  exact setEvent_ev (modUnit_ev h)

theorem beginQuiesce_ev {s0 s : State} {p} (h : Evolves s0 s) :
    Evolves s0 (beginQuiesce s p) := by
  unfold beginQuiesce
  exact Evolves.ite (Evolves.ite (modUnit_ev h) (setUState_ev h)) h

theorem wakeChild_ev {s0 s : State} {p} (h : Evolves s0 s) :
    Evolves s0 (wakeChild s p) := by
  unfold wakeChild
  repeat' first
    | with_reducible assumption
    | with_reducible refine Evolves.ite ?_ ?_
    | with_reducible refine tryStart_ev ?_
    | with_reducible refine beginQuiesce_ev ?_
    | with_reducible refine tryRun_ev ?_
    | split

theorem wakeBelow_ev {s0 s : State} {p} (h : Evolves s0 s) :
    Evolves s0 (wakeBelow s p) := by
  unfold wakeBelow
  repeat' first
    | with_reducible assumption
    | with_reducible refine wakeChild_ev ?_
    | with_reducible refine Evolves.foldl ?_ ?_
    | intro _

theorem stopOne_ev {s0 s : State} {p} (h : Evolves s0 s) :
    Evolves s0 (stopOne s p) := by
  unfold stopOne
  repeat' first
    | with_reducible assumption
    | with_reducible refine setUState_ev ?_
    | split

theorem faultTree_ev {s0 s : State} {p} (h : Evolves s0 s) :
    Evolves s0 (faultTree s p) := by
  unfold faultTree
  repeat' first
    | with_reducible assumption
    | with_reducible refine followOne_ev ?_
    | with_reducible refine setUState_ev ?_
    | with_reducible refine Evolves.foldl ?_ ?_
    | intro _

theorem permanentFault_ev {s0 s : State} {p cause} (h : Evolves s0 s) :
    Evolves s0 (permanentFault s p cause) := by
  unfold permanentFault
  exact Evolves.ite h (faultTree_ev (setEvent_ev (modUnit_ev h)))

theorem stopTree_ev {s0 s : State} {p} (h : Evolves s0 s) :
    Evolves s0 (stopTree s p) := by
  unfold stopTree
  repeat' first
    | with_reducible assumption
    | with_reducible refine stopOne_ev ?_
    | with_reducible refine Evolves.foldl ?_ ?_
    | intro _

theorem retireTree_ev {s0 s : State} {p} (h : Evolves s0 s) :
    Evolves s0 (retireTree s p) := by
  unfold retireTree
  repeat' first
    | with_reducible assumption
    | with_reducible refine followOne_ev ?_
    | with_reducible refine setUState_ev ?_
    | with_reducible refine Evolves.foldl ?_ ?_
    | intro _

theorem restOne_ev {s0 s : State} {p} (h : Evolves s0 s) :
    Evolves s0 (restOne s p) := by
  unfold restOne
  repeat' first
    | with_reducible assumption
    | fail_if_no_progress extract_lets -underBinder +onlyGivenNames _x
    | with_reducible refine Evolves.ite ?_ ?_
    | with_reducible refine tryStart_ev ?_
    | with_reducible refine onOff_ev ?_
    | with_reducible refine setUState_ev ?_

theorem otpBurned_ev {s0 s : State} (h : Evolves s0 s) :
    Evolves s0 (otpBurned s) := by
  unfold otpBurned
  exact setEvent_ev h

theorem storeReady_ev {s0 s : State} (h : Evolves s0 s) :
    Evolves s0 (storeReady s) := by
  unfold storeReady
  repeat' first
    | with_reducible assumption
    | with_reducible refine Keeps.snd (freeBytes_ev ?_)
    | fail_if_no_progress with_reducible refine Evolves.upd ?_
    | split

theorem storeErase_ev {s0 s : State} (h : Evolves s0 s) :
    Evolves s0 (storeErase s) := by
  unfold storeErase
  repeat' first
    | with_reducible assumption
    | fail_if_no_progress extract_lets -underBinder +onlyGivenNames _x
    | with_reducible refine storeReady_ev ?_
    | fail_if_no_progress with_reducible refine Evolves.upd ?_

theorem storeLow_ev {s0 s : State} {old} (h : Evolves s0 s) :
    Evolves s0 (storeLow old s) := by
  unfold storeLow
  exact Evolves.ite (setEvent_ev h) h

theorem storeDrop_ev {s0 s : State} {type item} (h : Evolves s0 s) :
    Evolves s0 (storeDrop s type item) := by
  unfold storeDrop
  repeat' first
    | with_reducible assumption
    | fail_if_no_progress extract_lets -underBinder +onlyGivenNames _x
    | with_reducible refine Evolves.ite ?_ ?_
    | with_reducible refine storeLow_ev ?_
    | fail_if_no_progress with_reducible refine Evolves.upd ?_
    | split

theorem lifecycleChanged_ev {s0 s : State} {old} (h : Evolves s0 s) :
    Evolves s0 (lifecycleChanged old s) := by
  unfold lifecycleChanged
  exact Evolves.ite h (setEvent_ev h)

theorem burnLifecycle_ev {s0 s : State} {n} (h : Evolves s0 s) :
    Evolves s0 (burnLifecycle s n) := by
  unfold burnLifecycle
  repeat' first
    | (fail_if_success (with_reducible refine Evolves.upd ?_)); with_reducible refine Evolves.burn ?_ ?_
    | ((with_reducible refine BurnedStays.mk ?_ ?_ ?_ ?_ ?_ ?_ ?_ ?_ ?_) <;> simp +zetaDelta [← BitVec.or_assoc])
    | with_reducible assumption
    | fail_if_no_progress extract_lets -underBinder +onlyGivenNames _x
    | with_reducible refine otpBurned_ev ?_

theorem devAppend_ev {s0 s : State} {rs} (h : Evolves s0 s) :
    Evolves s0 (devAppend s rs) := by
  unfold devAppend
  repeat' first
    | with_reducible assumption
    | fail_if_no_progress extract_lets -underBinder +onlyGivenNames _x
    | fail_if_no_progress with_reducible refine Evolves.upd ?_

theorem storePut_ev {s0 s : State} {type item p} (h : Evolves s0 s) :
    Evolves s0 (storePut s type item p) := by
  unfold storePut
  repeat' first
    | with_reducible assumption
    | (fail_if_no_progress extract_lets -underBinder +onlyGivenNames x)
      refine (fun (hx : Evolves s0 x) => ?_ : Evolves s0 x → _) ?_
      (on_goal 1 => clear_value x)
      (on_goal 2 => simp -zeta only [x])
    | fail_if_no_progress extract_lets -underBinder +onlyGivenNames _x
    | with_reducible refine Evolves.ite ?_ ?_
    | with_reducible refine storeReady_ev ?_
    | with_reducible refine storeLow_ev ?_
    | fail_if_no_progress with_reducible refine Evolves.upd ?_

theorem keepLines_ev {s0 s : State} (h : Evolves s0 s) :
    Evolves s0 (keepLines s) := by
  unfold keepLines
  repeat' first
    | with_reducible assumption
    | with_reducible refine storePut_ev ?_
    | split

theorem afterEventWrite_ev {s0 s : State} {p} (h : Evolves s0 s) :
    Evolves s0 (afterEventWrite s p) := by
  unfold afterEventWrite
  repeat' first
    | with_reducible assumption
    | (fail_if_no_progress extract_lets -underBinder +onlyGivenNames x)
      refine (fun (hx : Evolves s0 x) => ?_ : Evolves s0 x → _) ?_
      (on_goal 1 => clear_value x)
      (on_goal 2 => simp -zeta only [x])
    | with_reducible refine Evolves.ite ?_ ?_
    | with_reducible refine sendManagement_ev ?_
    | with_reducible refine noteRoot_ev ?_
    | fail_if_no_progress with_reducible refine Evolves.upd ?_

theorem writeEventEn_ev {s0 s : State} {p value} (h : Evolves s0 s) :
    Evolves s0 (writeEventEn s p value) := by
  unfold writeEventEn
  exact afterEventWrite_ev (modUnit_ev h)

theorem execUnitEventEnWrite_ev {s0 s : State} {acc page value} (h : Evolves s0 s) :
    Keeps inOut s0 (execUnitEventEnWrite acc page value s) := by
  unfold execUnitEventEnWrite
  exact Keeps.next (Evolves.ite (writeEventEn_ev h) h)

theorem noteCtrl_ev {s0 s : State} {old p} (h : Evolves s0 s) :
    Evolves s0 (noteCtrl old s p) := by
  unfold noteCtrl
  repeat' first
    | with_reducible assumption
    | intro h
      first | exact h | exact tset_wf h _ _ | exact tdel_wf h _ | exact filter_wf h _ | exact tmap_wf h _
            | exact rising_tput h _ (by simp) | exact rising_foldl_tput h _ _ _ | exact rising_tdel h _
            | exact rising_map h _ fun e => by split <;> rfl
    | fail_if_no_progress extract_lets -underBinder +onlyGivenNames _x
    | with_reducible refine Evolves.ite ?_ ?_
    | with_reducible refine Evolves.foldl ?_ ?_
    | (fail_if_success (with_reducible refine Evolves.upd ?_))
      with_reducible refine Evolves.updTabs ?_ ?_ ?_ ?_ ?_ ?_ ?_ ?_ ?_ ?_ ?_ ?_ ?_ ?_
    | intro _

theorem writeFaultClear_ev {s0 s : State} {p} (h : Evolves s0 s) :
    Evolves s0 (writeFaultClear s p) := by
  unfold writeFaultClear
  exact modUnit_ev h

theorem writeQuiesce0_ev {s0 s : State} {p} (h : Evolves s0 s) :
    Evolves s0 (writeQuiesce0 s p) := by
  unfold writeQuiesce0
  exact Evolves.ite h (wakeBelow_ev (tryRun_ev (modUnit_ev h)))

theorem keepEnable_ev {s0 s : State} {p} (h : Evolves s0 s) :
    Evolves s0 (keepEnable s p) := by
  unfold keepEnable
  exact Evolves.ite (keepLines_ev h) h

theorem writeEnable1_ev {s0 s : State} {p} (h : Evolves s0 s) :
    Evolves s0 (writeEnable1 s p) := by
  unfold writeEnable1
  repeat' first
    | with_reducible assumption
    | fail_if_no_progress extract_lets -underBinder +onlyGivenNames _x
    | with_reducible refine tryStart_ev ?_
    | with_reducible refine modUnit_ev ?_
    | split

theorem execUnitEnable_ev {s0 s : State} {acc page} (h : Evolves s0 s) :
    Keeps inOut s0 (execUnitEnable acc page s) := by
  unfold execUnitEnable
  exact Keeps.next (rebindAll_ev (Evolves.ite (noteCtrl_ev (keepEnable_ev (writeEnable1_ev h))) h))

theorem execFaultClear_ev {s0 s : State} {acc page} (h : Evolves s0 s) :
    Keeps inOut s0 (execFaultClear acc page s) := by
  unfold execFaultClear
  exact Keeps.next (Evolves.ite (writeFaultClear_ev h) h)

theorem startComplete_ev {s0 s : State} {p} (h : Evolves s0 s) :
    Evolves s0 (startComplete s p) := by
  unfold startComplete
  repeat' first
    | with_reducible assumption
    | fail_if_no_progress extract_lets -underBinder +onlyGivenNames _x
    | with_reducible refine Evolves.ite ?_ ?_
    | with_reducible refine wakeBelow_ev ?_
    | with_reducible refine setUState_ev ?_

theorem quiesceBelow_ev {s0 s : State} {p} (h : Evolves s0 s) :
    Evolves s0 (quiesceBelow s p) := by
  unfold quiesceBelow
  exact Evolves.ite (wakeBelow_ev h) h

theorem writeQuiesce1_ev {s0 s : State} {p} (h : Evolves s0 s) :
    Evolves s0 (writeQuiesce1 s p) := by
  unfold writeQuiesce1
  exact Evolves.ite h (quiesceBelow_ev (beginQuiesce_ev (modUnit_ev h)))

theorem execUnitQuiesce_ev {s0 s : State} {acc page} (h : Evolves s0 s) :
    Keeps inOut s0 (execUnitQuiesce acc page s) := by
  unfold execUnitQuiesce
  exact Keeps.next (rebindAll_ev (Evolves.ite (noteCtrl_ev (writeQuiesce1_ev h)) h))

theorem writeEvent_ev {s0 s : State} {p mask} (h : Evolves s0 s) :
    Evolves s0 (writeEvent s p mask) := by
  unfold writeEvent
  exact afterEventWrite_ev (modUnit_ev h)

theorem execUnitEventClear_ev {s0 s : State} {acc page mask} (h : Evolves s0 s) :
    Keeps inOut s0 (execUnitEventClear acc page mask s) := by
  unfold execUnitEventClear
  exact Keeps.next (Evolves.ite (writeEvent_ev h) h)

theorem resetExpert_ev {s0 s : State} {p} (h : Evolves s0 s) :
    Evolves s0 (resetExpert s p) := by
  unfold resetExpert
  repeat' first
    | with_reducible assumption
    | intro h
      first | exact h | exact tset_wf h _ _ | exact tdel_wf h _ | exact filter_wf h _ | exact tmap_wf h _
            | exact rising_tput h _ (by simp) | exact rising_foldl_tput h _ _ _ | exact rising_tdel h _
            | exact rising_map h _ fun e => by split <;> rfl
    | fail_if_no_progress extract_lets -underBinder +onlyGivenNames _x
    | fail_if_no_progress with_reducible refine Evolves.upd ?_
    | (fail_if_success (with_reducible refine Evolves.upd ?_))
      with_reducible refine Evolves.updTabs ?_ ?_ ?_ ?_ ?_ ?_ ?_ ?_ ?_ ?_ ?_ ?_ ?_ ?_
    | split

theorem writeLevel_ev {s0 s : State} {p lv} (h : Evolves s0 s) :
    Evolves s0 (writeLevel s p lv) := by
  unfold writeLevel
  repeat' first
    | with_reducible assumption
    | intro h
      first | exact h | exact tset_wf h _ _ | exact tdel_wf h _ | exact filter_wf h _ | exact tmap_wf h _
            | exact rising_tput h _ (by simp) | exact rising_foldl_tput h _ _ _ | exact rising_tdel h _
            | exact rising_map h _ fun e => by split <;> rfl
    | (fail_if_no_progress extract_lets -underBinder +onlyGivenNames x)
      refine (fun (hx : Evolves s0 x) => ?_ : Evolves s0 x → _) ?_
      (on_goal 1 => clear_value x)
      (on_goal 2 => simp -zeta only [x])
    | fail_if_no_progress extract_lets -underBinder +onlyGivenNames _x
    | with_reducible refine Evolves.ite ?_ ?_
    | with_reducible refine refuseWrite_ev ?_
    | with_reducible refine modUnit_ev ?_
    | with_reducible refine resetExpert_ev ?_
    | (fail_if_success (with_reducible refine Evolves.upd ?_))
      with_reducible refine Evolves.updTabs ?_ ?_ ?_ ?_ ?_ ?_ ?_ ?_ ?_ ?_ ?_ ?_ ?_ ?_

theorem execUnitStartComplete_ev {s0 s : State} {page} (h : Evolves s0 s) :
    Keeps inOut s0 (execUnitStartComplete page s) := by
  unfold execUnitStartComplete
  exact Keeps.next (rebindAll_ev (startComplete_ev h))

theorem writeRetire_ev {s0 s : State} {p} (h : Evolves s0 s) :
    Evolves s0 (writeRetire s p) := by
  unfold writeRetire
  repeat' first
    | with_reducible assumption
    | fail_if_no_progress extract_lets -underBinder +onlyGivenNames _x
    | with_reducible refine Evolves.ite ?_ ?_
    | with_reducible refine refuseWrite_ev ?_
    | with_reducible refine setUState_ev ?_
    | with_reducible refine modUnit_ev ?_
    | with_reducible refine stopTree_ev ?_
    | split

theorem execUnitUnquiesce_ev {s0 s : State} {acc page} (h : Evolves s0 s) :
    Keeps inOut s0 (execUnitUnquiesce acc page s) := by
  unfold execUnitUnquiesce
  exact Keeps.next (rebindAll_ev (Evolves.ite (noteCtrl_ev (writeQuiesce0_ev h)) h))

theorem writeEnable0_ev {s0 s : State} {p} (h : Evolves s0 s) :
    Evolves s0 (writeEnable0 s p) := by
  unfold writeEnable0
  exact Evolves.ite h (stopTree_ev (modUnit_ev h))

theorem drainComplete_ev {s0 s : State} {p} (h : Evolves s0 s) :
    Evolves s0 (drainComplete s p) := by
  unfold drainComplete
  repeat' first
    | with_reducible assumption
    | fail_if_no_progress extract_lets -underBinder +onlyGivenNames _x
    | with_reducible refine Evolves.ite ?_ ?_
    | with_reducible refine restOne_ev ?_
    | with_reducible refine quiesceBelow_ev ?_
    | with_reducible refine setUState_ev ?_
    | with_reducible refine Evolves.foldl ?_ ?_
    | intro _

theorem writeLock_ev {s0 s : State} {p} (h : Evolves s0 s) :
    Evolves s0 (writeLock s p) := by
  unfold writeLock
  exact modUnit_ev h

theorem execUnitLockSet_ev {s0 s : State} {acc page} (h : Evolves s0 s) :
    Keeps inOut s0 (execUnitLockSet acc page s) := by
  unfold execUnitLockSet
  exact Keeps.next (Evolves.ite (writeLock_ev h) h)

theorem execUnitLevelChange_ev {s0 s : State} {acc page level} (h : Evolves s0 s) :
    Keeps inOut s0 (execUnitLevelChange acc page level s) := by
  unfold execUnitLevelChange
  exact Keeps.next (Evolves.ite (noteCtrl_ev (writeLevel_ev h)) h)

theorem tick_ev {s0 s : State} (h : Evolves s0 s) :
    Evolves s0 (tick s) := by
  unfold tick
  exact Evolves.upd h

theorem enterAdrift_ev {s0 s : State} (h : Evolves s0 s) :
    Evolves s0 (enterAdrift s) := by
  unfold enterAdrift
  repeat' first
    | with_reducible assumption
    | fail_if_no_progress extract_lets -underBinder +onlyGivenNames _x
    | with_reducible refine setEvent_ev ?_
    | fail_if_no_progress with_reducible refine Evolves.upd ?_

theorem setNumber_ev {s0 s : State} {n} (h : Evolves s0 s) :
    Evolves s0 (setNumber s n) := by
  unfold setNumber
  repeat' first
    | with_reducible assumption
    | fail_if_no_progress extract_lets -underBinder +onlyGivenNames _x
    | fail_if_no_progress with_reducible refine Evolves.upd ?_

theorem todError_ev {s0 s : State} (h : Evolves s0 s) :
    Evolves s0 (todError s) := by
  unfold todError
  repeat' first
    | with_reducible assumption
    | fail_if_no_progress extract_lets -underBinder +onlyGivenNames _x
    | with_reducible refine setEvent_ev ?_
    | fail_if_no_progress with_reducible refine Evolves.upd ?_

theorem glitch_ev {s0 s : State} (h : Evolves s0 s) :
    Evolves s0 (glitch s) := by
  unfold glitch
  repeat' first
    | with_reducible assumption
    | fail_if_no_progress extract_lets -underBinder +onlyGivenNames _x
    | fail_if_no_progress with_reducible refine Evolves.upd ?_

theorem writeAnchor_ev {s0 s : State} {m} (h : Evolves s0 s) :
    Evolves s0 (writeAnchor s m) := by
  unfold writeAnchor
  repeat' first
    | with_reducible assumption
    | fail_if_no_progress extract_lets -underBinder +onlyGivenNames _x
    | fail_if_no_progress with_reducible refine Evolves.upd ?_

theorem invalidate_ev {s0 s : State} {p} (h : Evolves s0 s) :
    Evolves s0 (invalidate s p) := by
  unfold invalidate
  repeat' first
    | with_reducible assumption
    | fail_if_no_progress extract_lets -underBinder +onlyGivenNames _x
    | fail_if_no_progress with_reducible refine Evolves.upd ?_

theorem writeFlush_ev {s0 s : State} {value} (h : Evolves s0 s) :
    Evolves s0 (writeFlush s value) := by
  unfold writeFlush
  repeat' first
    | with_reducible assumption
    | fail_if_no_progress extract_lets -underBinder +onlyGivenNames _x
    | with_reducible refine Evolves.ite ?_ ?_
    | fail_if_no_progress with_reducible refine Evolves.upd ?_

theorem execKcFlush_ev {s0 s : State} {acc value} (h : Evolves s0 s) :
    Keeps inOut s0 (execKcFlush acc value s) := by
  unfold execKcFlush
  exact Keeps.next (Evolves.ite (writeFlush_ev h) h)

theorem kcEvent_ev {s0 s : State} {b} (h : Evolves s0 s) :
    Evolves s0 (kcEvent s b) := by
  unfold kcEvent
  exact setEvent_ev h

theorem noteDrained_ev {s0 s : State} {old} (h : Evolves s0 s) :
    Evolves s0 (noteDrained old s) := by
  unfold noteDrained
  exact Evolves.ite (kcEvent_ev h) h

theorem clearCache_ev {s0 s : State} (h : Evolves s0 s) :
    Evolves s0 (clearCache s) := by
  unfold clearCache
  repeat' first
    | with_reducible assumption
    | fail_if_no_progress extract_lets -underBinder +onlyGivenNames _x
    | with_reducible refine noteDrained_ev ?_
    | fail_if_no_progress with_reducible refine Evolves.upd ?_

theorem endFill_ev {s0 s : State} {job key} (h : Evolves s0 s) :
    Keeps inSnd s0 (endFill s job key) := by
  unfold endFill
  repeat' first
    | with_reducible assumption
    | fail_if_no_progress extract_lets -underBinder +onlyGivenNames _x
    | with_reducible refine Keeps.mkSnd ?_
    | fail_if_no_progress with_reducible refine Evolves.upd ?_
    | split

theorem dropFill_ev {s0 s : State} {job} (h : Evolves s0 s) :
    Evolves s0 (dropFill s job) := by
  unfold dropFill
  repeat' first
    | with_reducible assumption
    | fail_if_no_progress extract_lets -underBinder +onlyGivenNames _x
    | fail_if_no_progress with_reducible refine Evolves.upd ?_

theorem pinKey_ev {s0 s : State} {head job} (h : Evolves s0 s) :
    Evolves s0 (pinKey s head job) := by
  unfold pinKey
  repeat' first
    | with_reducible assumption
    | fail_if_no_progress extract_lets -underBinder +onlyGivenNames _x
    | fail_if_no_progress with_reducible refine Evolves.upd ?_
    | split

theorem flushDone_ev {s0 s : State} (h : Evolves s0 s) :
    Evolves s0 (flushDone s) := by
  unfold flushDone
  repeat' first
    | with_reducible assumption
    | (fail_if_no_progress extract_lets -underBinder +onlyGivenNames x)
      refine (fun (hx : Evolves s0 x) => ?_ : Evolves s0 x → _) ?_
      (on_goal 1 => clear_value x)
      (on_goal 2 => simp -zeta only [x])
    | fail_if_no_progress extract_lets -underBinder +onlyGivenNames _x
    | with_reducible refine Evolves.ite ?_ ?_
    | with_reducible refine invalidate_ev ?_
    | with_reducible refine kcEvent_ev ?_
    | fail_if_no_progress with_reducible refine Evolves.upd ?_

theorem stageKey_ev {s0 s : State} {slot job key} (h : Evolves s0 s) :
    Evolves s0 (stageKey s slot job key) := by
  unfold stageKey
  repeat' first
    | with_reducible assumption
    | fail_if_no_progress extract_lets -underBinder +onlyGivenNames _x
    | fail_if_no_progress with_reducible refine Evolves.upd ?_

theorem unpinJob_ev {s0 s : State} {job} (h : Evolves s0 s) :
    Evolves s0 (unpinJob s job) := by
  unfold unpinJob
  repeat' first
    | with_reducible assumption
    | fail_if_no_progress extract_lets -underBinder +onlyGivenNames _x
    | with_reducible refine noteDrained_ev ?_
    | fail_if_no_progress with_reducible refine Evolves.upd ?_

theorem beginFill_ev {s0 s : State} {job inst gen digest blob} (h : Evolves s0 s) :
    Evolves s0 (beginFill s job inst gen digest blob) := by
  unfold beginFill
  repeat' first
    | with_reducible assumption
    | fail_if_no_progress extract_lets -underBinder +onlyGivenNames _x
    | with_reducible refine kcEvent_ev ?_
    | fail_if_no_progress with_reducible refine Evolves.upd ?_
    | split

theorem execKcFlushDone_ev {s0 s : State} (h : Evolves s0 s) :
    Keeps inOut s0 (execKcFlushDone s) := by
  unfold execKcFlushDone
  exact Keeps.next (flushDone_ev h)

theorem modJob_ev {s0 s : State} {n f} (h : Evolves s0 s) :
    Evolves s0 (modJob s n f) := by
  unfold modJob
  repeat' first
    | with_reducible assumption
    | intro h
      first | exact h | exact tset_wf h _ _ | exact tdel_wf h _ | exact filter_wf h _ | exact tmap_wf h _
            | exact rising_tput h _ (by simp) | exact rising_foldl_tput h _ _ _ | exact rising_tdel h _
            | exact rising_map h _ fun e => by split <;> rfl
    | (fail_if_success (with_reducible refine Evolves.upd ?_))
      with_reducible refine Evolves.updTabs ?_ ?_ ?_ ?_ ?_ ?_ ?_ ?_ ?_ ?_ ?_ ?_ ?_ ?_
    | split

theorem endJob_ev {s0 s : State} {n status result out outLen} (h : Evolves s0 s) :
    Evolves s0 (endJob s n status result out outLen) := by
  unfold endJob
  exact modJob_ev h

theorem burnRetire_ev {s0 s : State} {b} (h : Evolves s0 s) :
    Evolves s0 (burnRetire s b) := by
  unfold burnRetire
  repeat' first
    | (fail_if_success (with_reducible refine Evolves.upd ?_)); with_reducible refine Evolves.burn ?_ ?_
    | ((with_reducible refine BurnedStays.mk ?_ ?_ ?_ ?_ ?_ ?_ ?_ ?_ ?_) <;> simp +zetaDelta [← BitVec.or_assoc])
    | with_reducible assumption
    | fail_if_no_progress extract_lets -underBinder +onlyGivenNames _x
    | with_reducible refine otpBurned_ev ?_

theorem mapAppend_ev {s0 s : State} {kind cause locator} (h : Evolves s0 s) :
    Evolves s0 (mapAppend s kind cause locator) := by
  unfold mapAppend
  repeat' first
    | with_reducible assumption
    | fail_if_no_progress extract_lets -underBinder +onlyGivenNames _x
    | with_reducible refine Evolves.ite ?_ ?_
    | fail_if_no_progress with_reducible refine Evolves.upd ?_

theorem doneJob_ev {s0 s : State} {n result out outLen} (h : Evolves s0 s) :
    Evolves s0 (doneJob s n result out outLen) := by
  unfold doneJob
  exact modJob_ev h

theorem failJob_ev {s0 s : State} {n status} (h : Evolves s0 s) :
    Evolves s0 (failJob s n status) := by
  unfold failJob
  exact modJob_ev h

theorem postSeed_ev {s0 s : State} {r} (h : Evolves s0 s) :
    Evolves s0 (postSeed s r) := by
  unfold postSeed
  repeat' first
    | with_reducible assumption
    | fail_if_no_progress extract_lets -underBinder +onlyGivenNames _x
    | with_reducible refine Evolves.ite ?_ ?_
    | fail_if_no_progress with_reducible refine Evolves.upd ?_

theorem putDrbg_ev {s0 s : State} {d x} (h : Evolves s0 s) :
    Evolves s0 (putDrbg s d x) := by
  unfold putDrbg
  repeat' first
    | with_reducible assumption
    | fail_if_no_progress extract_lets -underBinder +onlyGivenNames _x
    | fail_if_no_progress with_reducible refine Evolves.upd ?_

theorem demandReseed_ev {s0 s : State} {d} (h : Evolves s0 s) :
    Evolves s0 (demandReseed s d) := by
  unfold demandReseed
  repeat' first
    | with_reducible assumption
    | fail_if_no_progress extract_lets -underBinder +onlyGivenNames _x
    | with_reducible refine Evolves.ite ?_ ?_
    | with_reducible refine postSeed_ev ?_
    | with_reducible refine putDrbg_ev ?_

theorem countCall_ev {s0 s : State} {d} (h : Evolves s0 s) :
    Evolves s0 (countCall s d) := by
  unfold countCall
  repeat' first
    | with_reducible assumption
    | (fail_if_no_progress extract_lets -underBinder +onlyGivenNames x)
      refine (fun (hx : Evolves s0 x) => ?_ : Evolves s0 x → _) ?_
      (on_goal 1 => clear_value x)
      (on_goal 2 => simp -zeta only [x])
    | fail_if_no_progress extract_lets -underBinder +onlyGivenNames _x
    | with_reducible refine Evolves.ite ?_ ?_
    | with_reducible refine putDrbg_ev ?_
    | with_reducible refine demandReseed_ev ?_
    | with_reducible refine setEvent_ev ?_
    | fail_if_no_progress with_reducible refine Evolves.upd ?_

theorem keelDraw_ev {s0 s : State} {n} (h : Evolves s0 s) :
    Keeps inSnd s0 (keelDraw s n) := by
  unfold keelDraw
  repeat' first
    | with_reducible assumption
    | with_reducible refine Keeps.snd (freeBytes_ev ?_)
    | with_reducible refine countCall_ev ?_
    | with_reducible refine Keeps.mkSnd ?_

theorem drawNonce_ev {s0 s : State} (h : Evolves s0 s) :
    Evolves s0 (drawNonce s) := by
  unfold drawNonce
  repeat' first
    | with_reducible assumption
    | with_reducible refine Evolves.ite ?_ ?_
    | with_reducible refine Keeps.snd (keelDraw_ev ?_)
    | fail_if_no_progress with_reducible refine Evolves.upd ?_

theorem applySeed_ev {s0 s : State} {r blocks} (h : Evolves s0 s) :
    Evolves s0 (applySeed s r blocks) := by
  unfold applySeed
  repeat' first
    | with_reducible assumption
    | (fail_if_no_progress extract_lets -underBinder +onlyGivenNames x)
      refine (fun (hx : Evolves s0 x) => ?_ : Evolves s0 x → _) ?_
      (on_goal 1 => clear_value x)
      (on_goal 2 => simp -zeta only [x])
    | fail_if_no_progress extract_lets -underBinder +onlyGivenNames _x
    | with_reducible refine Evolves.ite ?_ ?_
    | with_reducible refine putDrbg_ev ?_
    | with_reducible refine drawNonce_ev ?_
    | with_reducible refine setEvent_ev ?_
    | split

theorem putSource_ev {s0 s : State} {i x} (h : Evolves s0 s) :
    Evolves s0 (putSource s i x) := by
  unfold putSource
  repeat' first
    | with_reducible assumption
    | fail_if_no_progress extract_lets -underBinder +onlyGivenNames _x
    | fail_if_no_progress with_reducible refine Evolves.upd ?_

theorem refuseRand_ev {s0 s : State} {r} (h : Evolves s0 s) :
    Evolves s0 (refuseRand s r) := by
  unfold refuseRand
  repeat' first
    | with_reducible assumption
    | intro h
      first | exact h | exact tset_wf h _ _ | exact tdel_wf h _ | exact filter_wf h _ | exact tmap_wf h _
            | exact rising_tput h _ (by simp) | exact rising_foldl_tput h _ _ _ | exact rising_tdel h _
            | exact rising_map h _ fun e => by split <;> rfl
    | (fail_if_no_progress extract_lets -underBinder +onlyGivenNames x)
      refine (fun (hx : Evolves s0 x) => ?_ : Evolves s0 x → _) ?_
      (on_goal 1 => clear_value x)
      (on_goal 2 => simp -zeta only [x])
    | fail_if_no_progress extract_lets -underBinder +onlyGivenNames _x
    | with_reducible refine Evolves.ite ?_ ?_
    | with_reducible refine failJob_ev ?_
    | (fail_if_success (with_reducible refine Evolves.upd ?_))
      with_reducible refine Evolves.updTabs ?_ ?_ ?_ ?_ ?_ ?_ ?_ ?_ ?_ ?_ ?_ ?_ ?_ ?_
    | split

theorem unseed_ev {s0 s : State} {d} (h : Evolves s0 s) :
    Evolves s0 (unseed s d) := by
  unfold unseed
  repeat' first
    | with_reducible assumption
    | (fail_if_no_progress extract_lets -underBinder +onlyGivenNames x)
      refine (fun (hx : Evolves s0 x) => ?_ : Evolves s0 x → _) ?_
      (on_goal 1 => clear_value x)
      (on_goal 2 => simp -zeta only [x])
    | fail_if_no_progress extract_lets -underBinder +onlyGivenNames _x
    | with_reducible refine Evolves.ite ?_ ?_
    | with_reducible refine refuseRand_ev ?_
    | with_reducible refine putDrbg_ev ?_
    | with_reducible refine postSeed_ev ?_
    | with_reducible refine setEvent_ev ?_
    | with_reducible refine Evolves.foldl ?_ ?_
    | fail_if_no_progress with_reducible refine Evolves.upd ?_
    | intro _

theorem noteHealthy_ev {s0 s : State} {old} (h : Evolves s0 s) :
    Evolves s0 (noteHealthy old s) := by
  unfold noteHealthy
  repeat' first
    | with_reducible assumption
    | fail_if_no_progress extract_lets -underBinder +onlyGivenNames _x
    | with_reducible refine Evolves.ite ?_ ?_
    | with_reducible refine setEvent_ev ?_

theorem sourceFails_ev {s0 s : State} {i apt} (h : Evolves s0 s) :
    Evolves s0 (sourceFails s i apt) := by
  unfold sourceFails
  repeat' first
    | with_reducible assumption
    | (fail_if_no_progress extract_lets -underBinder +onlyGivenNames x)
      refine (fun (hx : Evolves s0 x) => ?_ : Evolves s0 x → _) ?_
      (on_goal 1 => clear_value x)
      (on_goal 2 => simp -zeta only [x])
    | fail_if_no_progress extract_lets -underBinder +onlyGivenNames _x
    | with_reducible refine Evolves.ite ?_ ?_
    | with_reducible refine putSource_ev ?_
    | with_reducible refine setEvent_ev ?_
    | with_reducible refine transientFault_ev ?_
    | with_reducible refine burnRetire_ev ?_
    | with_reducible refine mapAppend_ev ?_
    | with_reducible refine unseed_ev ?_
    | with_reducible refine noteHealthy_ev ?_
    | with_reducible refine permanentFault_ev ?_
    | with_reducible refine Evolves.foldl ?_ ?_
    | fail_if_no_progress with_reducible refine Evolves.upd ?_
    | intro _

theorem execSourceHealthFailure_ev {s0 s : State} {src apt} (h : Evolves s0 s) :
    Keeps inOut s0 (execSourceHealthFailure src apt s) := by
  unfold execSourceHealthFailure
  exact Keeps.next (sourceFails_ev h)

theorem giveRand_ev {s0 s : State} {d r b} (h : Evolves s0 s) :
    Evolves s0 (giveRand s d r b) := by
  unfold giveRand
  repeat' first
    | with_reducible assumption
    | intro h
      first | exact h | exact tset_wf h _ _ | exact tdel_wf h _ | exact filter_wf h _ | exact tmap_wf h _
            | exact rising_tput h _ (by simp) | exact rising_foldl_tput h _ _ _ | exact rising_tdel h _
            | exact rising_map h _ fun e => by split <;> rfl
    | (fail_if_no_progress extract_lets -underBinder +onlyGivenNames x)
      refine (fun (hx : Evolves s0 x) => ?_ : Evolves s0 x → _) ?_
      (on_goal 1 => clear_value x)
      (on_goal 2 => simp -zeta only [x])
    | fail_if_no_progress extract_lets -underBinder +onlyGivenNames _x
    | with_reducible refine modJob_ev ?_
    | with_reducible refine putDrbg_ev ?_
    | (fail_if_success (with_reducible refine Evolves.upd ?_))
      with_reducible refine Evolves.updTabs ?_ ?_ ?_ ?_ ?_ ?_ ?_ ?_ ?_ ?_ ?_ ?_ ?_ ?_
    | split

theorem deliver_ev {s0 s : State} {d} (h : Evolves s0 s) :
    Evolves s0 (deliver s d) := by
  unfold deliver
  repeat' first
    | with_reducible assumption
    | (fail_if_no_progress extract_lets -underBinder +onlyGivenNames x)
      refine (fun (hx : Evolves s0 x) => ?_ : Evolves s0 x → _) ?_
      (on_goal 1 => clear_value x)
      (on_goal 2 => simp -zeta only [x])
    | fail_if_no_progress extract_lets -underBinder +onlyGivenNames _x
    | with_reducible refine Evolves.ite ?_ ?_
    | with_reducible refine putDrbg_ev ?_
    | with_reducible refine Keeps.snd (freeBytes_ev ?_)
    | with_reducible refine giveRand_ev ?_
    | with_reducible refine countCall_ev ?_
    | split

theorem noteGathered_ev {s0 s : State} (h : Evolves s0 s) :
    Evolves s0 (noteGathered s) := by
  unfold noteGathered
  repeat' first
    | with_reducible assumption
    | fail_if_no_progress extract_lets -underBinder +onlyGivenNames _x
    | with_reducible refine Evolves.ite ?_ ?_
    | with_reducible refine setEvent_ev ?_
    | fail_if_no_progress with_reducible refine Evolves.upd ?_

theorem execReseed_ev {s0 s : State} {acc drbg} (h : Evolves s0 s) :
    Keeps inOut s0 (execReseed acc drbg s) := by
  unfold execReseed
  exact Keeps.next (Evolves.ite (demandReseed_ev h) h)

theorem askRand_ev {s0 s : State} {d r} (h : Evolves s0 s) :
    Evolves s0 (askRand s d r) := by
  unfold askRand
  repeat' first
    | with_reducible assumption
    | fail_if_no_progress extract_lets -underBinder +onlyGivenNames _x
    | with_reducible refine Evolves.ite ?_ ?_
    | with_reducible refine refuseRand_ev ?_
    | with_reducible refine putDrbg_ev ?_

theorem releaseBlock_ev {s0 s : State} {i} (h : Evolves s0 s) :
    Evolves s0 (releaseBlock s i) := by
  unfold releaseBlock
  repeat' first
    | with_reducible assumption
    | fail_if_no_progress extract_lets -underBinder +onlyGivenNames _x
    | with_reducible refine Evolves.ite ?_ ?_
    | with_reducible refine noteGathered_ev ?_
    | fail_if_no_progress with_reducible refine Evolves.upd ?_

theorem serveSeed_ev {s0 s : State} (h : Evolves s0 s) :
    Evolves s0 (serveSeed s) := by
  unfold serveSeed
  repeat' first
    | with_reducible assumption
    | fail_if_no_progress extract_lets -underBinder +onlyGivenNames _x
    | with_reducible refine Evolves.ite ?_ ?_
    | with_reducible refine applySeed_ev ?_
    | fail_if_no_progress with_reducible refine Evolves.upd ?_
    | split

theorem execSeedRequestServe_ev {s0 s : State} (h : Evolves s0 s) :
    Keeps inOut s0 (execSeedRequestServe s) := by
  unfold execSeedRequestServe
  exact Keeps.next (serveSeed_ev h)

theorem execSourceTestPass_ev {s0 s : State} {src} (h : Evolves s0 s) :
    Keeps inOut s0 (execSourceTestPass src s) := by
  unfold execSourceTestPass
  repeat' first
    | with_reducible assumption
    | fail_if_no_progress extract_lets -underBinder +onlyGivenNames _x
    | with_reducible refine Keeps.ite ?_ ?_
    | with_reducible refine noteHealthy_ev ?_
    | with_reducible refine putSource_ev ?_
    | with_reducible refine stay_ev ?_
    | with_reducible refine Keeps.next ?_

theorem execSeedBlockRelease_ev {s0 s : State} {src} (h : Evolves s0 s) :
    Keeps inOut s0 (execSeedBlockRelease src s) := by
  unfold execSeedBlockRelease
  exact Keeps.next (Evolves.ite (releaseBlock_ev h) h)

theorem execDrbgCallDeliver_ev {s0 s : State} {drbg} (h : Evolves s0 s) :
    Keeps inOut s0 (execDrbgCallDeliver drbg s) := by
  unfold execDrbgCallDeliver
  exact Keeps.next (deliver_ev h)

theorem execFailRunReset_ev {s0 s : State} {src} (h : Evolves s0 s) :
    Keeps inOut s0 (execFailRunReset src s) := by
  unfold execFailRunReset
  repeat' first
    | with_reducible assumption
    | fail_if_no_progress extract_lets -underBinder +onlyGivenNames _x
    | with_reducible refine Keeps.ite ?_ ?_
    | with_reducible refine putSource_ev ?_
    | with_reducible refine stay_ev ?_
    | with_reducible refine Keeps.next ?_

theorem putLog_ev {s0 s : State} {i l} (h : Evolves s0 s) :
    Evolves s0 (putLog s i l) := by
  unfold putLog
  repeat' first
    | with_reducible assumption
    | fail_if_no_progress extract_lets -underBinder +onlyGivenNames _x
    | fail_if_no_progress with_reducible refine Evolves.upd ?_

theorem beginKeyRec_ev {s0 s : State} {i cause} (h : Evolves s0 s) :
    Evolves s0 (beginKeyRec s i cause) := by
  unfold beginKeyRec
  repeat' first
    | with_reducible assumption
    | fail_if_no_progress extract_lets -underBinder +onlyGivenNames _x
    | with_reducible refine putLog_ev ?_

theorem drawAuditKey_ev {s0 s : State} {i} (h : Evolves s0 s) :
    Evolves s0 (drawAuditKey s i) := by
  unfold drawAuditKey
  repeat' first
    | with_reducible assumption
    | with_reducible refine Keeps.snd (keelDraw_ev ?_)
    | with_reducible refine putLog_ev ?_

theorem beginLog_ev {s0 s : State} {i} (h : Evolves s0 s) :
    Evolves s0 (beginLog s i) := by
  unfold beginLog
  repeat' first
    | with_reducible assumption
    | fail_if_no_progress extract_lets -underBinder +onlyGivenNames _x
    | with_reducible refine Keeps.snd (keelDraw_ev ?_)
    | with_reducible refine putLog_ev ?_
    | with_reducible refine beginKeyRec_ev ?_
    | with_reducible refine drawAuditKey_ev ?_

theorem putHalf_ev {s0 s : State} {a1 r} (h : Evolves s0 s) :
    Evolves s0 (putHalf s a1 r) := by
  unfold putHalf
  repeat' first
    | with_reducible assumption
    | fail_if_no_progress extract_lets -underBinder +onlyGivenNames _x
    | fail_if_no_progress with_reducible refine Evolves.upd ?_

theorem passKeel_ev {s0 s : State} {k} (h : Evolves s0 s) :
    Evolves s0 (passKeel s k) := by
  unfold passKeel
  repeat' first
    | with_reducible assumption
    | with_reducible refine Keeps.snd (freeNat_ev ?_)
    | with_reducible refine putHalf_ev ?_

theorem ringWrite_ev {s0 s : State} {i data} (h : Evolves s0 s) :
    Evolves s0 (ringWrite s i data) := by
  unfold ringWrite
  repeat' first
    | with_reducible assumption
    | (fail_if_no_progress extract_lets -underBinder +onlyGivenNames x)
      refine (fun (hx : Evolves s0 x) => ?_ : Evolves s0 x → _) ?_
      (on_goal 1 => clear_value x)
      (on_goal 2 => simp -zeta only [x])
    | fail_if_no_progress extract_lets -underBinder +onlyGivenNames _x
    | with_reducible refine emit_ev ?_
    | with_reducible refine putLog_ev ?_
    | with_reducible refine Evolves.foldl ?_ ?_
    | intro _

theorem writeKeyRec_ev {s0 s : State} {i} (h : Evolves s0 s) :
    Evolves s0 (writeKeyRec s i) := by
  unfold writeKeyRec
  repeat' first
    | with_reducible assumption
    | (fail_if_no_progress extract_lets -underBinder +onlyGivenNames x)
      refine (fun (hx : Evolves s0 x) => ?_ : Evolves s0 x → _) ?_
      (on_goal 1 => clear_value x)
      (on_goal 2 => simp -zeta only [x])
    | fail_if_no_progress extract_lets -underBinder +onlyGivenNames _x
    | with_reducible refine Evolves.ite ?_ ?_
    | with_reducible refine passKeel_ev ?_
    | with_reducible refine Keeps.snd (freeBytes_ev ?_)
    | with_reducible refine ringWrite_ev ?_
    | with_reducible refine setEvent_ev ?_
    | with_reducible refine putLog_ev ?_
    | split

theorem psWrite_ev {s0 s : State} {l off data} (h : Evolves s0 s) :
    Evolves s0 (psWrite s l off data) := by
  unfold psWrite
  exact emit_ev h

theorem psNode_ev {s0 s : State} {l base a3 k x} (h : Evolves s0 s) :
    Evolves s0 (psNode s l base a3 k x) := by
  unfold psNode
  exact psWrite_ev h

theorem psNodes_ev {s0 s : State} {i base ns} (h : Evolves s0 s) :
    Evolves s0 (psNodes s i base ns) := by
  unfold psNodes
  repeat' first
    | with_reducible assumption
    | (fail_if_no_progress extract_lets -underBinder +onlyGivenNames x)
      refine (fun (hx : Evolves s0 x) => ?_ : Evolves s0 x → _) ?_
      (on_goal 1 => clear_value x)
      (on_goal 2 => simp -zeta only [x])
    | fail_if_no_progress extract_lets -underBinder +onlyGivenNames _x
    | with_reducible refine Evolves.ite ?_ ?_
    | with_reducible refine psNode_ev ?_
    | with_reducible refine putLog_ev ?_
    | with_reducible refine Evolves.foldl ?_ ?_
    | intro _

theorem audCfgErr_ev {s0 s : State} {i} (h : Evolves s0 s) :
    Evolves s0 (audCfgErr s i) := by
  unfold audCfgErr
  repeat' first
    | with_reducible assumption
    | fail_if_no_progress extract_lets -underBinder +onlyGivenNames _x
    | with_reducible refine setEvent_ev ?_
    | with_reducible refine putLog_ev ?_

theorem enablePs_ev {s0 s : State} {i} (h : Evolves s0 s) :
    Evolves s0 (enablePs s i) := by
  unfold enablePs
  repeat' first
    | with_reducible assumption
    | (fail_if_no_progress extract_lets -underBinder +onlyGivenNames x)
      refine (fun (hx : Evolves s0 x) => ?_ : Evolves s0 x → _) ?_
      (on_goal 1 => clear_value x)
      (on_goal 2 => simp -zeta only [x])
    | fail_if_no_progress extract_lets -underBinder +onlyGivenNames _x
    | with_reducible refine Evolves.ite ?_ ?_
    | with_reducible refine putLog_ev ?_
    | with_reducible refine psNodes_ev ?_
    | with_reducible refine audCfgErr_ev ?_

theorem endLog_ev {s0 s : State} {i} (h : Evolves s0 s) :
    Evolves s0 (endLog s i) := by
  unfold endLog
  repeat' first
    | with_reducible assumption
    | fail_if_no_progress extract_lets -underBinder +onlyGivenNames _x
    | with_reducible refine putLog_ev ?_

theorem noteRingWait_ev {s0 s : State} {i} (h : Evolves s0 s) :
    Evolves s0 (noteRingWait s i) := by
  unfold noteRingWait
  repeat' first
    | with_reducible assumption
    | (fail_if_no_progress extract_lets -underBinder +onlyGivenNames x)
      refine (fun (hx : Evolves s0 x) => ?_ : Evolves s0 x → _) ?_
      (on_goal 1 => clear_value x)
      (on_goal 2 => simp -zeta only [x])
    | fail_if_no_progress extract_lets -underBinder +onlyGivenNames _x
    | with_reducible refine Evolves.ite ?_ ?_
    | with_reducible refine putLog_ev ?_
    | with_reducible refine setEvent_ev ?_

theorem enableRing_ev {s0 s : State} {i} (h : Evolves s0 s) :
    Evolves s0 (enableRing s i) := by
  unfold enableRing
  repeat' first
    | with_reducible assumption
    | fail_if_no_progress extract_lets -underBinder +onlyGivenNames _x
    | with_reducible refine Evolves.ite ?_ ?_
    | with_reducible refine noteRingWait_ev ?_
    | with_reducible refine putLog_ev ?_
    | with_reducible refine audCfgErr_ev ?_

theorem writeRingRd_ev {s0 s : State} {i v} (h : Evolves s0 s) :
    Evolves s0 (writeRingRd s i v) := by
  unfold writeRingRd
  repeat' first
    | with_reducible assumption
    | fail_if_no_progress extract_lets -underBinder +onlyGivenNames _x
    | with_reducible refine Evolves.ite ?_ ?_
    | with_reducible refine noteRingWait_ev ?_
    | with_reducible refine putLog_ev ?_

theorem execAudRingRdWrite_ev {s0 s : State} {acc value} (h : Evolves s0 s) :
    Keeps inOut s0 (execAudRingRdWrite acc value s) := by
  unfold execAudRingRdWrite
  exact Keeps.next (Evolves.ite (writeRingRd_ev h) h)

theorem continueLog_ev {s0 s : State} {i seqNext sealNext prev digestKey} (h : Evolves s0 s) :
    Evolves s0 (continueLog s i seqNext sealNext prev digestKey) := by
  unfold continueLog
  repeat' first
    | with_reducible assumption
    | (fail_if_no_progress extract_lets -underBinder +onlyGivenNames x)
      refine (fun (hx : Evolves s0 x) => ?_ : Evolves s0 x → _) ?_
      (on_goal 1 => clear_value x)
      (on_goal 2 => simp -zeta only [x])
    | fail_if_no_progress extract_lets -underBinder +onlyGivenNames _x
    | with_reducible refine putLog_ev ?_
    | with_reducible refine beginKeyRec_ev ?_
    | with_reducible refine drawAuditKey_ev ?_

theorem putPort_ev {s0 s : State} {c p} (h : Evolves s0 s) :
    Evolves s0 (putPort s c p) := by
  unfold putPort
  repeat' first
    | with_reducible assumption
    | fail_if_no_progress extract_lets -underBinder +onlyGivenNames _x
    | fail_if_no_progress with_reducible refine Evolves.upd ?_

theorem discardLeaf_ev {s0 s : State} {n} (h : Evolves s0 s) :
    Evolves s0 (discardLeaf s n) := by
  unfold discardLeaf
  repeat' first
    | with_reducible assumption
    | (fail_if_no_progress extract_lets -underBinder +onlyGivenNames x)
      refine (fun (hx : Evolves s0 x) => ?_ : Evolves s0 x → _) ?_
      (on_goal 1 => clear_value x)
      (on_goal 2 => simp -zeta only [x])
    | fail_if_no_progress extract_lets -underBinder +onlyGivenNames _x
    | with_reducible refine Evolves.ite ?_ ?_
    | with_reducible refine modJob_ev ?_
    | with_reducible refine setEvent_ev ?_
    | with_reducible refine putPort_ev ?_
    | split

theorem writeSeal_ev {s0 s : State} {i} (h : Evolves s0 s) :
    Evolves s0 (writeSeal s i) := by
  unfold writeSeal
  repeat' first
    | with_reducible assumption
    | (fail_if_no_progress extract_lets -underBinder +onlyGivenNames x)
      refine (fun (hx : Evolves s0 x) => ?_ : Evolves s0 x → _) ?_
      (on_goal 1 => clear_value x)
      (on_goal 2 => simp -zeta only [x])
    | fail_if_no_progress extract_lets -underBinder +onlyGivenNames _x
    | with_reducible refine Evolves.ite ?_ ?_
    | with_reducible refine passKeel_ev ?_
    | with_reducible refine Keeps.snd (freeBytes_ev ?_)
    | with_reducible refine psWrite_ev ?_
    | with_reducible refine ringWrite_ev ?_
    | with_reducible refine putLog_ev ?_
    | with_reducible refine setEvent_ev ?_
    | split

theorem execSealWrite_ev {s0 s : State} {inst} (h : Evolves s0 s) :
    Keeps inOut s0 (execSealWrite inst s) := by
  unfold execSealWrite
  exact Keeps.next (writeSeal_ev h)

theorem writeAudConfig_ev {s0 s : State} {i offset v} (h : Evolves s0 s) :
    Evolves s0 (writeAudConfig s i offset v) := by
  unfold writeAudConfig
  repeat' first
    | with_reducible assumption
    | fail_if_no_progress extract_lets -underBinder +onlyGivenNames _x
    | with_reducible refine Evolves.ite ?_ ?_
    | with_reducible refine putLog_ev ?_
    | split

theorem execAudRingConfigWrite_ev {s0 s : State} {acc offset value} (h : Evolves s0 s) :
    Keeps inOut s0 (execAudRingConfigWrite acc offset value s) := by
  unfold execAudRingConfigWrite
  exact Keeps.next (Evolves.ite (writeAudConfig_ev h) h)

theorem makeSeal_ev {s0 s : State} {i cause pos} (h : Evolves s0 s) :
    Evolves s0 (makeSeal s i cause pos) := by
  unfold makeSeal
  repeat' first
    | with_reducible assumption
    | fail_if_no_progress extract_lets -underBinder +onlyGivenNames _x
    | with_reducible refine Evolves.ite ?_ ?_
    | with_reducible refine psNodes_ev ?_
    | with_reducible refine putLog_ev ?_

theorem commitLeaf_ev {s0 s : State} {n j} (h : Evolves s0 s) :
    Evolves s0 (commitLeaf s n j) := by
  unfold commitLeaf
  repeat' first
    | with_reducible assumption
    | fail_if_no_progress extract_lets -underBinder +onlyGivenNames _x
    | with_reducible refine Evolves.ite ?_ ?_
    | with_reducible refine ringWrite_ev ?_
    | with_reducible refine putLog_ev ?_
    | with_reducible refine psNodes_ev ?_
    | with_reducible refine psWrite_ev ?_
    | with_reducible refine putPort_ev ?_
    | with_reducible refine modJob_ev ?_
    | with_reducible refine beginLog_ev ?_
    | with_reducible refine makeSeal_ev ?_
    | split

theorem tryCommit_ev {s0 s : State} {n} (h : Evolves s0 s) :
    Evolves s0 (tryCommit s n) := by
  unfold tryCommit
  repeat' first
    | with_reducible assumption
    | with_reducible refine Evolves.ite ?_ ?_
    | with_reducible refine noteRingWait_ev ?_
    | with_reducible refine commitLeaf_ev ?_
    | split

theorem execKeyRecordWrite_ev {s0 s : State} {inst} (h : Evolves s0 s) :
    Keeps inOut s0 (execKeyRecordWrite inst s) := by
  unfold execKeyRecordWrite
  exact Keeps.next (writeKeyRec_ev h)

theorem execAudRingEnable_ev {s0 s : State} {acc} (h : Evolves s0 s) :
    Keeps inOut s0 (execAudRingEnable acc s) := by
  unfold execAudRingEnable
  exact Keeps.next (Evolves.ite (enableRing_ev h) h)

theorem disableRing_ev {s0 s : State} {i} (h : Evolves s0 s) :
    Evolves s0 (disableRing s i) := by
  unfold disableRing
  repeat' first
    | with_reducible assumption
    | fail_if_no_progress extract_lets -underBinder +onlyGivenNames _x
    | with_reducible refine noteRingWait_ev ?_
    | with_reducible refine putLog_ev ?_

theorem writeAudCfg_ev {s0 s : State} {i v} (h : Evolves s0 s) :
    Evolves s0 (writeAudCfg s i v) := by
  unfold writeAudCfg
  repeat' first
    | with_reducible assumption
    | (fail_if_no_progress extract_lets -underBinder +onlyGivenNames x)
      refine (fun (hx : Evolves s0 x) => ?_ : Evolves s0 x → _) ?_
      (on_goal 1 => clear_value x)
      (on_goal 2 => simp -zeta only [x])
    | fail_if_no_progress extract_lets -underBinder +onlyGivenNames _x
    | with_reducible refine Evolves.ite ?_ ?_
    | with_reducible refine putLog_ev ?_
    | with_reducible refine enableRing_ev ?_
    | with_reducible refine disableRing_ev ?_
    | with_reducible refine enablePs_ev ?_

theorem execAudPsEnable_ev {s0 s : State} {acc} (h : Evolves s0 s) :
    Keeps inOut s0 (execAudPsEnable acc s) := by
  unfold execAudPsEnable
  exact Keeps.next (Evolves.ite (enablePs_ev h) h)

theorem dropMembers_ev {s0 s : State} {n} (h : Evolves s0 s) :
    Evolves s0 (dropMembers s n) := by
  unfold dropMembers
  repeat' first
    | with_reducible assumption
    | fail_if_no_progress extract_lets -underBinder +onlyGivenNames _x
    | fail_if_no_progress with_reducible refine Evolves.upd ?_

theorem dropLanes_ev {s0 s : State} {n} (h : Evolves s0 s) :
    Evolves s0 (dropLanes s n) := by
  unfold dropLanes
  repeat' first
    | with_reducible assumption
    | intro h
      first | exact h | exact tset_wf h _ _ | exact tdel_wf h _ | exact filter_wf h _ | exact tmap_wf h _
            | exact rising_tput h _ (by simp) | exact rising_foldl_tput h _ _ _ | exact rising_tdel h _
            | exact rising_map h _ fun e => by split <;> rfl
    | fail_if_no_progress extract_lets -underBinder +onlyGivenNames _x
    | (fail_if_success (with_reducible refine Evolves.upd ?_))
      with_reducible refine Evolves.updTabs ?_ ?_ ?_ ?_ ?_ ?_ ?_ ?_ ?_ ?_ ?_ ?_ ?_ ?_

theorem putSail_ev {s0 s : State} {p e} (h : Evolves s0 s) :
    Evolves s0 (putSail s p e) := by
  unfold putSail
  repeat' first
    | with_reducible assumption
    | intro h
      first | exact h | exact tset_wf h _ _ | exact tdel_wf h _ | exact filter_wf h _ | exact tmap_wf h _
            | exact rising_tput h _ (by simp) | exact rising_foldl_tput h _ _ _ | exact rising_tdel h _
            | exact rising_map h _ fun e => by split <;> rfl
    | (fail_if_success (with_reducible refine Evolves.upd ?_))
      with_reducible refine Evolves.updTabs ?_ ?_ ?_ ?_ ?_ ?_ ?_ ?_ ?_ ?_ ?_ ?_ ?_ ?_

theorem dropHeld_ev {s0 s : State} {n} (h : Evolves s0 s) :
    Evolves s0 (dropHeld s n) := by
  unfold dropHeld
  repeat' first
    | with_reducible assumption
    | (fail_if_no_progress extract_lets -underBinder +onlyGivenNames x)
      refine (fun (hx : Evolves s0 x) => ?_ : Evolves s0 x → _) ?_
      (on_goal 1 => clear_value x)
      (on_goal 2 => simp -zeta only [x])
    | fail_if_no_progress extract_lets -underBinder +onlyGivenNames _x
    | with_reducible refine Evolves.ite ?_ ?_
    | with_reducible refine dropMembers_ev ?_
    | with_reducible refine dropLanes_ev ?_
    | with_reducible refine dropFill_ev ?_
    | with_reducible refine unpinJob_ev ?_
    | with_reducible refine setEvent_ev ?_
    | with_reducible refine putSail_ev ?_
    | with_reducible refine Evolves.foldl ?_ ?_
    | fail_if_no_progress with_reducible refine Evolves.upd ?_
    | intro _
    | split

theorem putChan_ev {s0 s : State} {c x} (h : Evolves s0 s) :
    Evolves s0 (putChan s c x) := by
  unfold putChan
  repeat' first
    | with_reducible assumption
    | fail_if_no_progress extract_lets -underBinder +onlyGivenNames _x
    | fail_if_no_progress with_reducible refine Evolves.upd ?_

theorem rerunJob_ev {s0 s : State} {n p} (h : Evolves s0 s) :
    Evolves s0 (rerunJob s n p) := by
  unfold rerunJob
  repeat' first
    | with_reducible assumption
    | (fail_if_no_progress extract_lets -underBinder +onlyGivenNames x)
      refine (fun (hx : Evolves s0 x) => ?_ : Evolves s0 x → _) ?_
      (on_goal 1 => clear_value x)
      (on_goal 2 => simp -zeta only [x])
    | fail_if_no_progress extract_lets -underBinder +onlyGivenNames _x
    | with_reducible refine Evolves.ite ?_ ?_
    | with_reducible refine dropHeld_ev ?_
    | with_reducible refine discardLeaf_ev ?_
    | with_reducible refine putChan_ev ?_
    | with_reducible refine modJob_ev ?_
    | split

theorem loseJob_ev {s0 s : State} {c n} (h : Evolves s0 s) :
    Evolves s0 (loseJob c s n) := by
  unfold loseJob
  repeat' first
    | with_reducible assumption
    | with_reducible refine Evolves.ite ?_ ?_
    | with_reducible refine modJob_ev ?_
    | with_reducible refine rerunJob_ev ?_
    | split

theorem loseChecks_ev {s0 s : State} {c} (h : Evolves s0 s) :
    Evolves s0 (loseChecks s c) := by
  unfold loseChecks
  repeat' first
    | with_reducible assumption
    | (fail_if_no_progress extract_lets -underBinder +onlyGivenNames x)
      refine (fun (hx : Evolves s0 x) => ?_ : Evolves s0 x → _) ?_
      (on_goal 1 => clear_value x)
      (on_goal 2 => simp -zeta only [x])
    | fail_if_no_progress extract_lets -underBinder +onlyGivenNames _x
    | with_reducible refine Evolves.ite ?_ ?_
    | with_reducible refine failJob_ev ?_
    | with_reducible refine Evolves.foldl ?_ ?_
    | fail_if_no_progress with_reducible refine Evolves.upd ?_
    | intro _
    | split

theorem loseJobs_ev {s0 s : State} {c} (h : Evolves s0 s) :
    Evolves s0 (loseJobs s c) := by
  unfold loseJobs
  repeat' first
    | with_reducible assumption
    | with_reducible refine loseJob_ev ?_
    | with_reducible refine Evolves.foldl ?_ ?_
    | intro _

theorem putLane_ev {s0 s : State} {c l} (h : Evolves s0 s) :
    Evolves s0 (putLane s c l) := by
  unfold putLane
  repeat' first
    | with_reducible assumption
    | intro h
      first | exact h | exact tset_wf h _ _ | exact tdel_wf h _ | exact filter_wf h _ | exact tmap_wf h _
            | exact rising_tput h _ (by simp) | exact rising_foldl_tput h _ _ _ | exact rising_tdel h _
            | exact rising_map h _ fun e => by split <;> rfl
    | (fail_if_success (with_reducible refine Evolves.upd ?_))
      with_reducible refine Evolves.updTabs ?_ ?_ ?_ ?_ ?_ ?_ ?_ ?_ ?_ ?_ ?_ ?_ ?_ ?_

theorem redoStripes_ev {s0 s : State} {c} (h : Evolves s0 s) :
    Evolves s0 (redoStripes s c) := by
  unfold redoStripes
  repeat' first
    | with_reducible assumption
    | (fail_if_no_progress extract_lets -underBinder +onlyGivenNames x)
      refine (fun (hx : Evolves s0 x) => ?_ : Evolves s0 x → _) ?_
      (on_goal 1 => clear_value x)
      (on_goal 2 => simp -zeta only [x])
    | fail_if_no_progress extract_lets -underBinder +onlyGivenNames _x
    | with_reducible refine putLane_ev ?_
    | with_reducible refine setEvent_ev ?_
    | split

theorem noteNoChannel_ev {s0 s : State} (h : Evolves s0 s) :
    Evolves s0 (noteNoChannel s) := by
  unfold noteNoChannel
  repeat' first
    | with_reducible assumption
    | (fail_if_no_progress extract_lets -underBinder +onlyGivenNames x)
      refine (fun (hx : Evolves s0 x) => ?_ : Evolves s0 x → _) ?_
      (on_goal 1 => clear_value x)
      (on_goal 2 => simp -zeta only [x])
    | fail_if_no_progress extract_lets -underBinder +onlyGivenNames _x
    | with_reducible refine Evolves.ite ?_ ?_
    | with_reducible refine setUState_ev ?_
    | with_reducible refine failJob_ev ?_
    | with_reducible refine Evolves.foldl ?_ ?_
    | fail_if_no_progress with_reducible refine Evolves.upd ?_
    | intro _

theorem chooseStandIn_ev {s0 s : State} {c} (h : Evolves s0 s) :
    Evolves s0 (chooseStandIn s c) := by
  unfold chooseStandIn
  repeat' first
    | with_reducible assumption
    | fail_if_no_progress extract_lets -underBinder +onlyGivenNames _x
    | with_reducible refine setEvent_ev ?_
    | with_reducible refine putChan_ev ?_
    | split

theorem channelFault_ev {s0 s : State} {c cause} (h : Evolves s0 s) :
    Evolves s0 (channelFault s c cause) := by
  unfold channelFault
  repeat' first
    | with_reducible assumption
    | (fail_if_no_progress extract_lets -underBinder +onlyGivenNames x)
      refine (fun (hx : Evolves s0 x) => ?_ : Evolves s0 x → _) ?_
      (on_goal 1 => clear_value x)
      (on_goal 2 => simp -zeta only [x])
    | fail_if_no_progress extract_lets -underBinder +onlyGivenNames _x
    | with_reducible refine Evolves.ite ?_ ?_
    | with_reducible refine permanentFault_ev ?_
    | with_reducible refine putChan_ev ?_
    | with_reducible refine rebindAll_ev ?_
    | with_reducible refine loseChecks_ev ?_
    | with_reducible refine loseJobs_ev ?_
    | with_reducible refine redoStripes_ev ?_
    | with_reducible refine noteNoChannel_ev ?_
    | with_reducible refine chooseStandIn_ev ?_
    | split
    | dsimp -zeta +zetaDelta only

theorem engineFault_ev {s0 s : State} {p cause} (h : Evolves s0 s) :
    Evolves s0 (engineFault s p cause) := by
  unfold engineFault
  exact channelFault_ev (permanentFault_ev h)

theorem rowRepair_ev {s0 s : State} {p block row} (h : Evolves s0 s) :
    Evolves s0 (rowRepair s p block row) := by
  unfold rowRepair
  repeat' first
    | with_reducible assumption
    | fail_if_no_progress extract_lets -underBinder +onlyGivenNames _x
    | with_reducible refine Evolves.ite ?_ ?_
    | with_reducible refine mapAppend_ev ?_
    | with_reducible refine engineFault_ev ?_
    | with_reducible refine setEvent_ev ?_
    | with_reducible refine permanentFault_ev ?_
    | fail_if_no_progress with_reducible refine Evolves.upd ?_

theorem charge_ev {s0 s : State} {p cause} (h : Evolves s0 s) :
    Evolves s0 (charge s p cause) := by
  unfold charge
  repeat' first
    | with_reducible assumption
    | (fail_if_no_progress extract_lets -underBinder +onlyGivenNames x)
      refine (fun (hx : Evolves s0 x) => ?_ : Evolves s0 x → _) ?_
      (on_goal 1 => clear_value x)
      (on_goal 2 => simp -zeta only [x])
    | fail_if_no_progress extract_lets -underBinder +onlyGivenNames _x
    | with_reducible refine Evolves.ite ?_ ?_
    | with_reducible refine transientFault_ev ?_
    | with_reducible refine putChan_ev ?_

theorem issue_ev {s0 s : State} {p x} (h : Evolves s0 s) :
    Evolves s0 (issue s p x) := by
  unfold issue
  repeat' first
    | with_reducible assumption
    | (fail_if_no_progress extract_lets -underBinder +onlyGivenNames x)
      refine (fun (hx : Evolves s0 x) => ?_ : Evolves s0 x → _) ?_
      (on_goal 1 => clear_value x)
      (on_goal 2 => simp -zeta only [x])
    | fail_if_no_progress extract_lets -underBinder +onlyGivenNames _x
    | with_reducible refine Evolves.ite ?_ ?_
    | with_reducible refine putSail_ev ?_
    | with_reducible refine askRand_ev ?_

theorem writeSailCmd_ev {s0 s : State} {p word} (h : Evolves s0 s) :
    Evolves s0 (writeSailCmd s p word) := by
  unfold writeSailCmd
  repeat' first
    | with_reducible assumption
    | fail_if_no_progress extract_lets -underBinder +onlyGivenNames _x
    | with_reducible refine Evolves.ite ?_ ?_
    | with_reducible refine putSail_ev ?_
    | with_reducible refine issue_ev ?_

theorem sailRow_ev {s0 s : State} {op p word} (h : Evolves s0 s) :
    Keeps inOut s0 (sailRow op p word s) := by
  unfold sailRow
  exact Keeps.ite (Keeps.next (writeSailCmd_ev h)) (stay_ev h)

theorem execSailIntt_ev {s0 s : State} {page word} (h : Evolves s0 s) :
    Keeps inOut s0 (execSailIntt page word s) := by
  unfold execSailIntt
  exact sailRow_ev h

theorem execSailMul_ev {s0 s : State} {page word} (h : Evolves s0 s) :
    Keeps inOut s0 (execSailMul page word s) := by
  unfold execSailMul
  exact sailRow_ev h

theorem execSailFromMont_ev {s0 s : State} {page word} (h : Evolves s0 s) :
    Keeps inOut s0 (execSailFromMont page word s) := by
  unfold execSailFromMont
  exact sailRow_ev h

theorem execSailEq_ev {s0 s : State} {page word} (h : Evolves s0 s) :
    Keeps inOut s0 (execSailEq page word s) := by
  unfold execSailEq
  exact sailRow_ev h

theorem execSailExp_ev {s0 s : State} {page word} (h : Evolves s0 s) :
    Keeps inOut s0 (execSailExp page word s) := by
  unfold execSailExp
  exact sailRow_ev h

theorem execSailDecaps_ev {s0 s : State} {page word} (h : Evolves s0 s) :
    Keeps inOut s0 (execSailDecaps page word s) := by
  unfold execSailDecaps
  exact sailRow_ev h

theorem execSailInv_ev {s0 s : State} {page word} (h : Evolves s0 s) :
    Keeps inOut s0 (execSailInv page word s) := by
  unfold execSailInv
  exact sailRow_ev h

theorem execSailSign_ev {s0 s : State} {page word} (h : Evolves s0 s) :
    Keeps inOut s0 (execSailSign page word s) := by
  unfold execSailSign
  exact sailRow_ev h

theorem execSailEncaps_ev {s0 s : State} {page word} (h : Evolves s0 s) :
    Keeps inOut s0 (execSailEncaps page word s) := by
  unfold execSailEncaps
  exact sailRow_ev h

theorem windowRead_ev {s0 s : State} {p hi} (h : Evolves s0 s) :
    Keeps inSnd s0 (windowRead s p hi) := by
  unfold windowRead
  repeat' first
    | with_reducible assumption
    | fail_if_no_progress extract_lets -underBinder +onlyGivenNames _x
    | with_reducible refine Keeps.ite ?_ ?_
    | with_reducible refine putSail_ev ?_
    | with_reducible refine Keeps.snd (freeNat_ev ?_)
    | with_reducible refine Keeps.mkSnd ?_
    | split

theorem execSailReduce_ev {s0 s : State} {page word} (h : Evolves s0 s) :
    Keeps inOut s0 (execSailReduce page word s) := by
  unfold execSailReduce
  exact sailRow_ev h

theorem execSailPwmul_ev {s0 s : State} {page word} (h : Evolves s0 s) :
    Keeps inOut s0 (execSailPwmul page word s) := by
  unfold execSailPwmul
  exact sailRow_ev h

theorem execSailPdbl_ev {s0 s : State} {page word} (h : Evolves s0 s) :
    Keeps inOut s0 (execSailPdbl page word s) := by
  unfold execSailPdbl
  exact sailRow_ev h

theorem withdrawRequests_ev {s0 s : State} {p} (h : Evolves s0 s) :
    Evolves s0 (withdrawRequests s p) := by
  unfold withdrawRequests
  repeat' first
    | with_reducible assumption
    | intro h
      first | exact h | exact tset_wf h _ _ | exact tdel_wf h _ | exact filter_wf h _ | exact tmap_wf h _
            | exact rising_tput h _ (by simp) | exact rising_foldl_tput h _ _ _ | exact rising_tdel h _
            | exact rising_map h _ fun e => by split <;> rfl
    | (fail_if_no_progress extract_lets -underBinder +onlyGivenNames x)
      refine (fun (hx : Evolves s0 x) => ?_ : Evolves s0 x → _) ?_
      (on_goal 1 => clear_value x)
      (on_goal 2 => simp -zeta only [x])
    | fail_if_no_progress extract_lets -underBinder +onlyGivenNames _x
    | with_reducible refine Evolves.ite ?_ ?_
    | with_reducible refine putDrbg_ev ?_
    | (fail_if_success (with_reducible refine Evolves.upd ?_))
      with_reducible refine Evolves.updTabs ?_ ?_ ?_ ?_ ?_ ?_ ?_ ?_ ?_ ?_ ?_ ?_ ?_ ?_

theorem freeBelow_ev {s0 s : State} {p} (h : Evolves s0 s) :
    Keeps inSnd s0 (freeBelow s p) := by
  unfold freeBelow
  repeat' first
    | with_reducible assumption
    | with_reducible refine Keeps.snd (freeNat_ev ?_)
    | with_reducible refine Keeps.mkSnd ?_

theorem pointEnd_ev {s0 s : State} {e x} (h : Evolves s0 s) :
    Keeps inSnd s0 (pointEnd s e x) := by
  unfold pointEnd
  repeat' first
    | with_reducible assumption
    | fail_if_no_progress extract_lets -underBinder +onlyGivenNames _x
    | with_reducible refine Keeps.snd (freeBytes_ev ?_)
    | with_reducible refine Keeps.snd (freeBelow_ev ?_)
    | with_reducible refine Keeps.mkSnd ?_
    | split
    | dsimp -zeta only
    | dsimp -zeta +zetaDelta only

theorem computeEnd_ev {s0 s : State} {e x} (h : Evolves s0 s) :
    Keeps inSnd s0 (computeEnd s e x) := by
  unfold computeEnd
  repeat' first
    | with_reducible assumption
    | fail_if_no_progress extract_lets -underBinder +onlyGivenNames _x
    | with_reducible refine Keeps.ite ?_ ?_
    | with_reducible refine pointEnd_ev ?_
    | with_reducible refine Keeps.mkSnd ?_

theorem abortEngine_ev {s0 s : State} {p} (h : Evolves s0 s) :
    Evolves s0 (abortEngine s p) := by
  unfold abortEngine
  repeat' first
    | with_reducible assumption
    | fail_if_no_progress extract_lets -underBinder +onlyGivenNames _x
    | with_reducible refine Evolves.ite ?_ ?_
    | with_reducible refine Keeps.snd (freeNat_ev ?_)
    | with_reducible refine withdrawRequests_ev ?_
    | with_reducible refine putSail_ev ?_
    | with_reducible refine setEvent_ev ?_

theorem execSailAbort_ev {s0 s : State} {acc page value} (h : Evolves s0 s) :
    Keeps inOut s0 (execSailAbort acc page value s) := by
  unfold execSailAbort
  exact Keeps.next (Evolves.ite (abortEngine_ev h) h)

theorem execSailModSet_ev {s0 s : State} {page word} (h : Evolves s0 s) :
    Keeps inOut s0 (execSailModSet page word s) := by
  unfold execSailModSet
  exact sailRow_ev h

theorem execSailNtt_ev {s0 s : State} {page word} (h : Evolves s0 s) :
    Keeps inOut s0 (execSailNtt page word s) := by
  unfold execSailNtt
  exact sailRow_ev h

theorem execPortHashComplete.withdrawLane_ev {s0 s : State} {page} (h : Evolves s0 s) :
    Evolves s0 (execPortHashComplete.withdrawLane page s) := by
  unfold execPortHashComplete.withdrawLane
  repeat' first
    | with_reducible assumption
    | intro h
      first | exact h | exact tset_wf h _ _ | exact tdel_wf h _ | exact filter_wf h _ | exact tmap_wf h _
            | exact rising_tput h _ (by simp) | exact rising_foldl_tput h _ _ _ | exact rising_tdel h _
            | exact rising_map h _ fun e => by split <;> rfl
    | fail_if_no_progress extract_lets -underBinder +onlyGivenNames _x
    | with_reducible refine Evolves.ite ?_ ?_
    | (fail_if_success (with_reducible refine Evolves.upd ?_))
      with_reducible refine Evolves.updTabs ?_ ?_ ?_ ?_ ?_ ?_ ?_ ?_ ?_ ?_ ?_ ?_ ?_ ?_

theorem execSailCurveSet_ev {s0 s : State} {page word} (h : Evolves s0 s) :
    Keeps inOut s0 (execSailCurveSet page word s) := by
  unfold execSailCurveSet
  exact sailRow_ev h

theorem execSailPdecomp_ev {s0 s : State} {page word} (h : Evolves s0 s) :
    Keeps inOut s0 (execSailPdecomp page word s) := by
  unfold execSailPdecomp
  exact sailRow_ev h

theorem windowWrite_ev {s0 s : State} {p hi v} (h : Evolves s0 s) :
    Evolves s0 (windowWrite s p hi v) := by
  unfold windowWrite
  repeat' first
    | with_reducible assumption
    | fail_if_no_progress extract_lets -underBinder +onlyGivenNames _x
    | with_reducible refine Evolves.ite ?_ ?_
    | with_reducible refine putSail_ev ?_

theorem execSailMemWrite_ev {s0 s : State} {acc page hi value} (h : Evolves s0 s) :
    Keeps inOut s0 (execSailMemWrite acc page hi value s) := by
  unfold execSailMemWrite
  exact Keeps.next (Evolves.ite (windowWrite_ev h) h)

theorem wipeDone_ev {s0 s : State} {p nonzero} (h : Evolves s0 s) :
    Evolves s0 (wipeDone s p nonzero) := by
  unfold wipeDone
  repeat' first
    | with_reducible assumption
    | (fail_if_no_progress extract_lets -underBinder +onlyGivenNames x)
      refine (fun (hx : Evolves s0 x) => ?_ : Evolves s0 x → _) ?_
      (on_goal 1 => clear_value x)
      (on_goal 2 => simp -zeta only [x])
    | fail_if_no_progress extract_lets -underBinder +onlyGivenNames _x
    | with_reducible refine Evolves.ite ?_ ?_
    | with_reducible refine rowRepair_ev ?_
    | with_reducible refine setEvent_ev ?_
    | with_reducible refine putSail_ev ?_
    | with_reducible refine modUnit_ev ?_
    | with_reducible refine resetExpert_ev ?_
    | fail_if_no_progress with_reducible refine Evolves.upd ?_
    | split

theorem execWipeComplete_ev {s0 s : State} {page nonzero} (h : Evolves s0 s) :
    Keeps inOut s0 (execWipeComplete page nonzero s) := by
  unfold execWipeComplete
  exact Keeps.next (wipeDone_ev h)

theorem execSailPadd_ev {s0 s : State} {page word} (h : Evolves s0 s) :
    Keeps inOut s0 (execSailPadd page word s) := by
  unfold execSailPadd
  exact sailRow_ev h

theorem execSailSub_ev {s0 s : State} {page word} (h : Evolves s0 s) :
    Keeps inOut s0 (execSailSub page word s) := by
  unfold execSailSub
  exact sailRow_ev h

theorem wipeEngine_ev {s0 s : State} {p} (h : Evolves s0 s) :
    Evolves s0 (wipeEngine s p) := by
  unfold wipeEngine
  exact putSail_ev h

theorem execSailPwadd_ev {s0 s : State} {page word} (h : Evolves s0 s) :
    Keeps inOut s0 (execSailPwadd page word s) := by
  unfold execSailPwadd
  exact sailRow_ev h

theorem execSailMemRead_ev {s0 s : State} {acc page hi} (h : Evolves s0 s) :
    Keeps inOut s0 (execSailMemRead acc page hi s) := by
  unfold execSailMemRead
  repeat' first
    | with_reducible assumption
    | with_reducible refine Keeps.ite ?_ ?_
    | with_reducible refine Keeps.snd (windowRead_ev ?_)
    | with_reducible refine emit_ev ?_
    | with_reducible refine stay_ev ?_
    | with_reducible refine Keeps.next ?_

theorem execSailKeyLoad_ev {s0 s : State} {page word} (h : Evolves s0 s) :
    Keeps inOut s0 (execSailKeyLoad page word s) := by
  unfold execSailKeyLoad
  exact sailRow_ev h

theorem execSailCopy_ev {s0 s : State} {page word} (h : Evolves s0 s) :
    Keeps inOut s0 (execSailCopy page word s) := by
  unfold execSailCopy
  exact sailRow_ev h

theorem execSailPstore_ev {s0 s : State} {page word} (h : Evolves s0 s) :
    Keeps inOut s0 (execSailPstore page word s) := by
  unfold execSailPstore
  exact sailRow_ev h

theorem endCommand_ev {s0 s : State} {p} (h : Evolves s0 s) :
    Evolves s0 (endCommand s p) := by
  unfold endCommand
  repeat' first
    | with_reducible assumption
    | intro h
      first | exact h | exact tset_wf h _ _ | exact tdel_wf h _ | exact filter_wf h _ | exact tmap_wf h _
            | exact rising_tput h _ (by simp) | exact rising_foldl_tput h _ _ _ | exact rising_tdel h _
            | exact rising_map h _ fun e => by split <;> rfl
    | fail_if_no_progress extract_lets -underBinder +onlyGivenNames _x
    | with_reducible refine Evolves.ite ?_ ?_
    | with_reducible refine Keeps.snd (computeEnd_ev ?_)
    | with_reducible refine freeNat_ev ?_
    | with_reducible refine putSail_ev ?_
    | with_reducible refine setEvent_ev ?_
    | with_reducible refine Keeps.ofSnd (by assumption) ?_
    | fail_if_no_progress with_reducible refine Evolves.upd ?_
    | (fail_if_success (with_reducible refine Evolves.upd ?_))
      with_reducible refine Evolves.updTabs ?_ ?_ ?_ ?_ ?_ ?_ ?_ ?_ ?_ ?_ ?_ ?_ ?_ ?_
    | split

theorem execSailCommandEnd_ev {s0 s : State} {page} (h : Evolves s0 s) :
    Keeps inOut s0 (execSailCommandEnd page s) := by
  unfold execSailCommandEnd
  exact Keeps.next (endCommand_ev h)

theorem execPortHashComplete_ev {s0 s : State} {page} (h : Evolves s0 s) :
    Keeps inOut s0 (execPortHashComplete page s) := by
  unfold execPortHashComplete
  repeat' first
    | with_reducible assumption
    | fail_if_no_progress extract_lets -underBinder +onlyGivenNames _x
    | with_reducible refine Keeps.ite ?_ ?_
    | with_reducible refine stay_ev ?_
    | with_reducible refine execPortHashComplete.withdrawLane_ev ?_
    | with_reducible refine putSail_ev ?_
    | with_reducible refine Keeps.next ?_
    | split

theorem execSailPmul_ev {s0 s : State} {page word} (h : Evolves s0 s) :
    Keeps inOut s0 (execSailPmul page word s) := by
  unfold execSailPmul
  exact sailRow_ev h

theorem execSailClear_ev {s0 s : State} {page word} (h : Evolves s0 s) :
    Keeps inOut s0 (execSailClear page word s) := by
  unfold execSailClear
  exact sailRow_ev h

theorem execSailKeygen_ev {s0 s : State} {page word} (h : Evolves s0 s) :
    Keeps inOut s0 (execSailKeygen page word s) := by
  unfold execSailKeygen
  exact sailRow_ev h

theorem execSailLaneSet_ev {s0 s : State} {page word} (h : Evolves s0 s) :
    Keeps inOut s0 (execSailLaneSet page word s) := by
  unfold execSailLaneSet
  exact sailRow_ev h

theorem execSailVerify_ev {s0 s : State} {page word} (h : Evolves s0 s) :
    Keeps inOut s0 (execSailVerify page word s) := by
  unfold execSailVerify
  exact sailRow_ev h

theorem execSailSqr_ev {s0 s : State} {page word} (h : Evolves s0 s) :
    Keeps inOut s0 (execSailSqr page word s) := by
  unfold execSailSqr
  exact sailRow_ev h

theorem execSailToMont_ev {s0 s : State} {page word} (h : Evolves s0 s) :
    Keeps inOut s0 (execSailToMont page word s) := by
  unfold execSailToMont
  exact sailRow_ev h

theorem execSailPoc_ev {s0 s : State} {page word} (h : Evolves s0 s) :
    Keeps inOut s0 (execSailPoc page word s) := by
  unfold execSailPoc
  exact sailRow_ev h

theorem execSailPwsub_ev {s0 s : State} {page word} (h : Evolves s0 s) :
    Keeps inOut s0 (execSailPwsub page word s) := by
  unfold execSailPwsub
  exact sailRow_ev h

theorem execSailAdd_ev {s0 s : State} {page word} (h : Evolves s0 s) :
    Keeps inOut s0 (execSailAdd page word s) := by
  unfold execSailAdd
  exact sailRow_ev h

theorem execSailRand_ev {s0 s : State} {page word} (h : Evolves s0 s) :
    Keeps inOut s0 (execSailRand page word s) := by
  unfold execSailRand
  exact sailRow_ev h

theorem execSailBatchVerify_ev {s0 s : State} {page word} (h : Evolves s0 s) :
    Keeps inOut s0 (execSailBatchVerify page word s) := by
  unfold execSailBatchVerify
  exact sailRow_ev h

theorem execSailPload_ev {s0 s : State} {page word} (h : Evolves s0 s) :
    Keeps inOut s0 (execSailPload page word s) := by
  unfold execSailPload
  exact sailRow_ev h

end Sys2Proof.Machine
end

