-- ==== Sys2Proof/Laws/EvolvesJobs.lean ====
section
/-! SUPPORT. `Evolves`: one lemma for each operation of rings, jobs, faults and the key hierarchy. Each
says that what `Evolves` keeps up to the state the operation begins with, it keeps up to the state the operation leaves. -/

namespace Sys2Proof.Machine

theorem writeBme_ev {s0 s : State} {i on} (h : Evolves s0 s) :
    Evolves s0 (writeBme s i on) := by
  unfold writeBme
  repeat' first
    | with_reducible assumption
    | (fail_if_no_progress extract_lets -underBinder +onlyGivenNames x)
      refine (fun (hx : Evolves s0 x) => ?_ : Evolves s0 x → _) ?_
      (on_goal 1 => clear_value x)
      (on_goal 2 => simp -zeta only [x])
    | fail_if_no_progress extract_lets -underBinder +onlyGivenNames _x
    | with_reducible refine Evolves.ite ?_ ?_
    | with_reducible refine putInst_ev ?_
    | with_reducible refine wakeRing_ev ?_
    | with_reducible refine Evolves.foldl ?_ ?_
    | intro _

theorem execBusMasterEnableChange_ev {s0 s : State} {inst on} (h : Evolves s0 s) :
    Keeps inOut s0 (execBusMasterEnableChange inst on s) := by
  unfold execBusMasterEnableChange
  exact Keeps.next (Evolves.ite (writeBme_ev h) h)

theorem stopScan_ev {s0 s : State} {c k} (h : Evolves s0 s) :
    Evolves s0 (stopScan s c k) := by
  unfold stopScan
  repeat' first
    | with_reducible assumption
    | (fail_if_no_progress extract_lets -underBinder +onlyGivenNames x)
      refine (fun (hx : Evolves s0 x) => ?_ : Evolves s0 x → _) ?_
      (on_goal 1 => clear_value x)
      (on_goal 2 => simp -zeta only [x])
    | fail_if_no_progress extract_lets -underBinder +onlyGivenNames _x
    | with_reducible refine Evolves.ite ?_ ?_
    | with_reducible refine dropTake_ev ?_
    | with_reducible refine putIntake_ev ?_
    | with_reducible refine putRing_ev ?_

theorem rotate_ev {s0 s : State} {c k} (h : Evolves s0 s) :
    Evolves s0 (rotate s c k) := by
  unfold rotate
  repeat' first
    | with_reducible assumption
    | fail_if_no_progress extract_lets -underBinder +onlyGivenNames _x
    | with_reducible refine putIntake_ev ?_
    | with_reducible refine dropTake_ev ?_

theorem beginStep4_ev {s0 s : State} {n} (h : Evolves s0 s) :
    Evolves s0 (beginStep4 s n) := by
  unfold beginStep4
  repeat' first
    | with_reducible assumption
    | fail_if_no_progress extract_lets -underBinder +onlyGivenNames _x
    | with_reducible refine Evolves.ite ?_ ?_
    | with_reducible refine modJob_ev ?_
    | with_reducible refine failJob_ev ?_
    | split

theorem releaseFirst_ev {s0 s : State} {n} (h : Evolves s0 s) :
    Evolves s0 (releaseFirst s n) := by
  unfold releaseFirst
  repeat' first
    | with_reducible assumption
    | with_reducible refine Evolves.ite ?_ ?_
    | with_reducible refine beginStep4_ev ?_
    | split

theorem takeNow_ev {s0 s : State} {c k es st} (h : Evolves s0 s) :
    Evolves s0 (takeNow s c k es st) := by
  unfold takeNow
  repeat' first
    | with_reducible assumption
    | intro h
      first | exact h | exact tset_wf h _ _ | exact tdel_wf h _ | exact filter_wf h _ | exact tmap_wf h _
            | exact rising_tput h _ (by simp) | exact rising_foldl_tput h _ _ _ | exact rising_tdel h _
            | exact rising_map h _ fun e => by split <;> rfl
    | (fail_if_no_progress extract_lets -underBinder +onlyGivenNames x)
      refine (fun (hx : Evolves s0 x) => ?_ : Evolves s0 x → _) ?_
      (on_goal 1 => clear_value x)
      (on_goal 2 => simp -zeta only [x])
    | fail_if_no_progress extract_lets -underBinder +onlyGivenNames _x
    | with_reducible refine putRing_ev ?_
    | with_reducible refine putIntake_ev ?_
    | with_reducible refine releaseFirst_ev ?_
    | (fail_if_success (with_reducible refine Evolves.upd ?_))
      with_reducible refine Evolves.updTabs ?_ ?_ ?_ ?_ ?_ ?_ ?_ ?_ ?_ ?_ ?_ ?_ ?_ ?_

theorem retake_ev {s0 s : State} {c} (h : Evolves s0 s) :
    Evolves s0 (retake s c) := by
  unfold retake
  repeat' first
    | with_reducible assumption
    | fail_if_no_progress extract_lets -underBinder +onlyGivenNames _x
    | with_reducible refine Evolves.ite ?_ ?_
    | with_reducible refine rotate_ev ?_
    | with_reducible refine takeNow_ev ?_
    | fail_if_no_progress with_reducible refine Evolves.upd ?_
    | split

theorem ringError_ev {s0 s : State} {k cause index} (h : Evolves s0 s) :
    Evolves s0 (ringError s k cause index) := by
  unfold ringError
  repeat' first
    | with_reducible assumption
    | (fail_if_no_progress extract_lets -underBinder +onlyGivenNames x)
      refine (fun (hx : Evolves s0 x) => ?_ : Evolves s0 x → _) ?_
      (on_goal 1 => clear_value x)
      (on_goal 2 => simp -zeta only [x])
    | fail_if_no_progress extract_lets -underBinder +onlyGivenNames _x
    | with_reducible refine dropTake_ev ?_
    | with_reducible refine putIntake_ev ?_
    | with_reducible refine putRing_ev ?_
    | with_reducible refine dpEvent_ev ?_
    | with_reducible refine sendMsix_ev ?_

theorem enableRingPage_ev {s0 s : State} {k} (h : Evolves s0 s) :
    Evolves s0 (enableRingPage s k) := by
  unfold enableRingPage
  repeat' first
    | with_reducible assumption
    | (fail_if_no_progress extract_lets -underBinder +onlyGivenNames x)
      refine (fun (hx : Evolves s0 x) => ?_ : Evolves s0 x → _) ?_
      (on_goal 1 => clear_value x)
      (on_goal 2 => simp -zeta only [x])
    | fail_if_no_progress extract_lets -underBinder +onlyGivenNames _x
    | with_reducible refine Evolves.ite ?_ ?_
    | with_reducible refine putRing_ev ?_
    | with_reducible refine wakeRing_ev ?_
    | with_reducible refine ringError_ev ?_

theorem writeRingConfig_ev {s0 s : State} {k offset v} (h : Evolves s0 s) :
    Evolves s0 (writeRingConfig s k offset v) := by
  unfold writeRingConfig
  repeat' first
    | with_reducible assumption
    | fail_if_no_progress extract_lets -underBinder +onlyGivenNames _x
    | with_reducible refine Evolves.ite ?_ ?_
    | with_reducible refine putRing_ev ?_
    | split

theorem execOrderedRelease_ev {s0 s : State} {job} (h : Evolves s0 s) :
    Keeps inOut s0 (execOrderedRelease job s) := by
  unfold execOrderedRelease
  exact Keeps.next (releaseFirst_ev h)

theorem takeOrWait_ev {s0 s : State} {c k es} (h : Evolves s0 s) :
    Evolves s0 (takeOrWait s c k es) := by
  unfold takeOrWait
  repeat' first
    | with_reducible assumption
    | (fail_if_no_progress extract_lets -underBinder +onlyGivenNames x)
      refine (fun (hx : Evolves s0 x) => ?_ : Evolves s0 x → _) ?_
      (on_goal 1 => clear_value x)
      (on_goal 2 => simp -zeta only [x])
    | fail_if_no_progress extract_lets -underBinder +onlyGivenNames _x
    | with_reducible refine Evolves.ite ?_ ?_
    | with_reducible refine rotate_ev ?_
    | with_reducible refine noteStall_ev ?_
    | with_reducible refine putIntake_ev ?_
    | with_reducible refine putRing_ev ?_
    | with_reducible refine setEvent_ev ?_
    | with_reducible refine takeNow_ev ?_
    | fail_if_no_progress with_reducible refine Evolves.upd ?_

theorem entryRead_ev {s0 s : State} {c ok data} (h : Evolves s0 s) :
    Evolves s0 (entryRead s c ok data) := by
  unfold entryRead
  repeat' first
    | with_reducible assumption
    | fail_if_no_progress extract_lets -underBinder +onlyGivenNames _x
    | with_reducible refine Evolves.ite ?_ ?_
    | with_reducible refine stopScan_ev ?_
    | with_reducible refine putRing_ev ?_
    | with_reducible refine rotate_ev ?_
    | with_reducible refine ringError_ev ?_
    | with_reducible refine takeOrWait_ev ?_
    | split

theorem execRingDoorbell_ev {s0 s : State} {inst ring} (h : Evolves s0 s) :
    Keeps inOut s0 (execRingDoorbell inst ring s) := by
  unfold execRingDoorbell
  exact Keeps.next (Evolves.ite (wakeRing_ev (wakeIdle_ev h)) h)

theorem ballastWaitEnd_ev {s0 s : State} (h : Evolves s0 s) :
    Evolves s0 (ballastWaitEnd s) := by
  unfold ballastWaitEnd
  repeat' first
    | with_reducible refine Evolves.foldlFst ?_ ?_
    | with_reducible assumption
    | (fail_if_no_progress extract_lets -underBinder +onlyGivenNames x)
      refine (fun (hx : Evolves s0 x) => ?_ : Evolves s0 x → _) ?_
      (on_goal 1 => clear_value x)
      (on_goal 2 => simp -zeta only [x])
    | with_reducible refine retake_ev ?_
    | intro _
    | split

theorem unmask_ev {s0 s : State} {func entry} (h : Evolves s0 s) :
    Evolves s0 (unmask s func entry) := by
  unfold unmask
  repeat' first
    | with_reducible assumption
    | intro h
      first | exact h | exact tset_wf h _ _ | exact tdel_wf h _ | exact filter_wf h _ | exact tmap_wf h _
            | exact rising_tput h _ (by simp) | exact rising_foldl_tput h _ _ _ | exact rising_tdel h _
            | exact rising_map h _ fun e => by split <;> rfl
    | (fail_if_no_progress extract_lets -underBinder +onlyGivenNames x)
      refine (fun (hx : Evolves s0 x) => ?_ : Evolves s0 x → _) ?_
      (on_goal 1 => clear_value x)
      (on_goal 2 => simp -zeta only [x])
    | fail_if_no_progress extract_lets -underBinder +onlyGivenNames _x
    | with_reducible refine Evolves.ite ?_ ?_
    | with_reducible refine emit_ev ?_
    | (fail_if_success (with_reducible refine Evolves.upd ?_))
      with_reducible refine Evolves.updTabs ?_ ?_ ?_ ?_ ?_ ?_ ?_ ?_ ?_ ?_ ?_ ?_ ?_ ?_

theorem execMsixUnmask_ev {s0 s : State} {func entry} (h : Evolves s0 s) :
    Keeps inOut s0 (execMsixUnmask func entry s) := by
  unfold execMsixUnmask
  exact Keeps.next (unmask_ev h)

theorem execEntryReadComplete_ev {s0 s : State} {chan ok data} (h : Evolves s0 s) :
    Keeps inOut s0 (execEntryReadComplete chan ok data s) := by
  unfold execEntryReadComplete
  exact Keeps.next (entryRead_ev h)

theorem execRingEnable_ev {s0 s : State} {inst ring} (h : Evolves s0 s) :
    Keeps inOut s0 (execRingEnable inst ring s) := by
  unfold execRingEnable
  exact Keeps.next (Evolves.ite (enableRingPage_ev h) h)

theorem disableRingPage_ev {s0 s : State} {k} (h : Evolves s0 s) :
    Evolves s0 (disableRingPage s k) := by
  unfold disableRingPage
  repeat' first
    | with_reducible assumption
    | (fail_if_no_progress extract_lets -underBinder +onlyGivenNames x)
      refine (fun (hx : Evolves s0 x) => ?_ : Evolves s0 x → _) ?_
      (on_goal 1 => clear_value x)
      (on_goal 2 => simp -zeta only [x])
    | fail_if_no_progress extract_lets -underBinder +onlyGivenNames _x
    | with_reducible refine Evolves.ite ?_ ?_
    | with_reducible refine dropTake_ev ?_
    | with_reducible refine putRing_ev ?_
    | with_reducible refine putIntake_ev ?_

theorem execRingDisable_ev {s0 s : State} {inst ring} (h : Evolves s0 s) :
    Keeps inOut s0 (execRingDisable inst ring s) := by
  unfold execRingDisable
  exact Keeps.next (Evolves.ite (disableRingPage_ev h) h)

theorem execRingConfigWrite_ev {s0 s : State} {inst ring offset value} (h : Evolves s0 s) :
    Keeps inOut s0 (execRingConfigWrite inst ring offset value s) := by
  unfold execRingConfigWrite
  exact Keeps.next (Evolves.ite (writeRingConfig_ev h) h)

theorem writeSegment_ev {s0 s : State} {n} (h : Evolves s0 s) :
    Evolves s0 (writeSegment s n) := by
  unfold writeSegment
  repeat' first
    | with_reducible assumption
    | (fail_if_no_progress extract_lets -underBinder +onlyGivenNames x)
      refine (fun (hx : Evolves s0 x) => ?_ : Evolves s0 x → _) ?_
      (on_goal 1 => clear_value x)
      (on_goal 2 => simp -zeta only [x])
    | fail_if_no_progress extract_lets -underBinder +onlyGivenNames _x
    | with_reducible refine Evolves.ite ?_ ?_
    | with_reducible refine modJob_ev ?_
    | with_reducible refine emit_ev ?_
    | split

theorem execOutputSegmentWrite_ev {s0 s : State} {job} (h : Evolves s0 s) :
    Keeps inOut s0 (execOutputSegmentWrite job s) := by
  unfold execOutputSegmentWrite
  exact Keeps.next (writeSegment_ev h)

theorem dropLingering_ev {s0 s : State} {i} (h : Evolves s0 s) :
    Evolves s0 (dropLingering s i) := by
  unfold dropLingering
  repeat' first
    | with_reducible assumption
    | fail_if_no_progress extract_lets -underBinder +onlyGivenNames _x
    | fail_if_no_progress with_reducible refine Evolves.upd ?_

theorem writeCompletion_ev {s0 s : State} {j} (h : Evolves s0 s) :
    Evolves s0 (writeCompletion s j) := by
  unfold writeCompletion
  repeat' first
    | with_reducible assumption
    | (fail_if_no_progress extract_lets -underBinder +onlyGivenNames x)
      refine (fun (hx : Evolves s0 x) => ?_ : Evolves s0 x → _) ?_
      (on_goal 1 => clear_value x)
      (on_goal 2 => simp -zeta only [x])
    | fail_if_no_progress extract_lets -underBinder +onlyGivenNames _x
    | with_reducible refine Evolves.ite ?_ ?_
    | with_reducible refine emit_ev ?_

theorem retireJob_ev {s0 s : State} {n} (h : Evolves s0 s) :
    Evolves s0 (retireJob s n) := by
  unfold retireJob
  repeat' first
    | with_reducible assumption
    | intro h
      first | exact h | exact tset_wf h _ _ | exact tdel_wf h _ | exact filter_wf h _ | exact tmap_wf h _
            | exact rising_tput h _ (by simp) | exact rising_foldl_tput h _ _ _ | exact rising_tdel h _
            | exact rising_map h _ fun e => by split <;> rfl
    | (fail_if_no_progress extract_lets -underBinder +onlyGivenNames x)
      refine (fun (hx : Evolves s0 x) => ?_ : Evolves s0 x → _) ?_
      (on_goal 1 => clear_value x)
      (on_goal 2 => simp -zeta only [x])
    | with_reducible refine Evolves.ite ?_ ?_
    | with_reducible refine wipeEngine_ev ?_
    | with_reducible refine dropLanes_ev ?_
    | with_reducible refine unpinJob_ev ?_
    | with_reducible refine Evolves.foldl ?_ ?_
    | (fail_if_success (with_reducible refine Evolves.upd ?_))
      with_reducible refine Evolves.updTabs ?_ ?_ ?_ ?_ ?_ ?_ ?_ ?_ ?_ ?_ ?_ ?_ ?_ ?_
    | intro _
    | split

theorem writeCompletions_ev {s0 s : State} {n} (h : Evolves s0 s) :
    Evolves s0 (writeCompletions s n) := by
  unfold writeCompletions
  repeat' first
    | with_reducible assumption
    | (fail_if_no_progress extract_lets -underBinder +onlyGivenNames x)
      refine (fun (hx : Evolves s0 x) => ?_ : Evolves s0 x → _) ?_
      (on_goal 1 => clear_value x)
      (on_goal 2 => simp -zeta only [x])
    | fail_if_no_progress extract_lets -underBinder +onlyGivenNames _x
    | with_reducible refine Evolves.ite ?_ ?_
    | with_reducible refine writeCompletion_ev ?_
    | with_reducible refine sendMsix_ev ?_
    | with_reducible refine dropLingering_ev ?_
    | with_reducible refine retireJob_ev ?_
    | with_reducible refine Evolves.foldl ?_ ?_
    | intro _
    | split

theorem takeKey_ev {s0 s : State} {n k key cap} (h : Evolves s0 s) :
    Keeps inSnd s0 (takeKey s n k key cap) := by
  unfold takeKey
  repeat' first
    | with_reducible assumption
    | fail_if_no_progress extract_lets -underBinder +onlyGivenNames _x
    | with_reducible refine failJob_ev ?_
    | with_reducible refine modJob_ev ?_
    | with_reducible refine Keeps.mkSnd ?_
    | split

theorem refuseBlob_ev {s0 s : State} {n status} (h : Evolves s0 s) :
    Evolves s0 (refuseBlob s n status) := by
  unfold refuseBlob
  repeat' first
    | with_reducible assumption
    | (fail_if_no_progress extract_lets -underBinder +onlyGivenNames x)
      refine (fun (hx : Evolves s0 x) => ?_ : Evolves s0 x → _) ?_
      (on_goal 1 => clear_value x)
      (on_goal 2 => simp -zeta only [x])
    | fail_if_no_progress extract_lets -underBinder +onlyGivenNames _x
    | with_reducible refine Evolves.ite ?_ ?_
    | with_reducible refine failJob_ev ?_
    | fail_if_no_progress with_reducible refine Evolves.upd ?_

theorem laneUnwrap_ev {s0 s : State} {c} (h : Evolves s0 s) :
    Evolves s0 (laneUnwrap s c) := by
  unfold laneUnwrap
  repeat' first
    | with_reducible assumption
    | intro h
      first | exact h | exact tset_wf h _ _ | exact tdel_wf h _ | exact filter_wf h _ | exact tmap_wf h _
            | exact rising_tput h _ (by simp) | exact rising_foldl_tput h _ _ _ | exact rising_tdel h _
            | exact rising_map h _ fun e => by split <;> rfl
    | fail_if_no_progress extract_lets -underBinder +onlyGivenNames _x
    | (fail_if_success (with_reducible refine Evolves.upd ?_))
      with_reducible refine Evolves.updTabs ?_ ?_ ?_ ?_ ?_ ?_ ?_ ?_ ?_ ?_ ?_ ?_ ?_ ?_

theorem lookupKey_ev {s0 s : State} {n k} (h : Evolves s0 s) :
    Keeps inSnd s0 (lookupKey s n k) := by
  unfold lookupKey
  repeat' first
    | with_reducible assumption
    | (fail_if_no_progress extract_lets -underBinder +onlyGivenNames x)
      refine (fun (hx : Evolves s0 x) => ?_ : Evolves s0 x → _) ?_
      (on_goal 1 => clear_value x)
      (on_goal 2 => simp -zeta only [x])
    | fail_if_no_progress extract_lets -underBinder +onlyGivenNames _x
    | with_reducible refine failJob_ev ?_
    | with_reducible refine refuseBlob_ev ?_
    | with_reducible refine pinKey_ev ?_
    | with_reducible refine Keeps.snd (takeKey_ev ?_)
    | with_reducible refine modJob_ev ?_
    | with_reducible refine beginFill_ev ?_
    | with_reducible refine laneUnwrap_ev ?_
    | with_reducible refine Keeps.mkSnd ?_
    | fail_if_no_progress with_reducible refine Evolves.upd ?_
    | split

theorem followFill_ev {s0 s : State} {head key k n} (h : Evolves s0 s) :
    Evolves s0 (followFill head key k s n) := by
  unfold followFill
  repeat' first
    | with_reducible assumption
    | fail_if_no_progress extract_lets -underBinder +onlyGivenNames _x
    | with_reducible refine Evolves.ite ?_ ?_
    | with_reducible refine pinKey_ev ?_
    | with_reducible refine stageKey_ev ?_
    | with_reducible refine Keeps.snd (takeKey_ev ?_)
    | with_reducible refine Keeps.snd (lookupKey_ev ?_)
    | split

theorem fixSet_ev {s0 s : State} {n} (h : Evolves s0 s) :
    Evolves s0 (fixSet s n) := by
  unfold fixSet
  repeat' first
    | with_reducible assumption
    | fail_if_no_progress extract_lets -underBinder +onlyGivenNames _x
    | with_reducible refine Evolves.ite ?_ ?_
    | with_reducible refine modJob_ev ?_
    | split

theorem lookups_ev {s0 s : State} {n k} (h : Evolves s0 s) :
    Evolves s0 (lookups s n k) := by
  unfold lookups
  repeat' first
    | with_reducible assumption
    | with_reducible refine Evolves.ite ?_ ?_
    | with_reducible refine Keeps.snd (lookupKey_ev ?_)
    | split

theorem beginStep5_ev {s0 s : State} {n} (h : Evolves s0 s) :
    Evolves s0 (beginStep5 s n) := by
  unfold beginStep5
  repeat' first
    | with_reducible assumption
    | (fail_if_no_progress extract_lets -underBinder +onlyGivenNames x)
      refine (fun (hx : Evolves s0 x) => ?_ : Evolves s0 x → _) ?_
      (on_goal 1 => clear_value x)
      (on_goal 2 => simp -zeta only [x])
    | with_reducible refine Evolves.ite ?_ ?_
    | with_reducible refine modJob_ev ?_
    | with_reducible refine fixSet_ev ?_
    | with_reducible refine lookups_ev ?_
    | split

theorem handoff_ev {s0 s : State} {n c core} (h : Evolves s0 s) :
    Evolves s0 (handoff s n c core) := by
  unfold handoff
  repeat' first
    | with_reducible assumption
    | intro h
      first | exact h | exact tset_wf h _ _ | exact tdel_wf h _ | exact filter_wf h _ | exact tmap_wf h _
            | exact rising_tput h _ (by simp) | exact rising_foldl_tput h _ _ _ | exact rising_tdel h _
            | exact rising_map h _ fun e => by split <;> rfl
    | (fail_if_no_progress extract_lets -underBinder +onlyGivenNames x)
      refine (fun (hx : Evolves s0 x) => ?_ : Evolves s0 x → _) ?_
      (on_goal 1 => clear_value x)
      (on_goal 2 => simp -zeta only [x])
    | fail_if_no_progress extract_lets -underBinder +onlyGivenNames _x
    | with_reducible refine Evolves.ite ?_ ?_
    | with_reducible refine putIntake_ev ?_
    | with_reducible refine modJob_ev ?_
    | with_reducible refine beginStep5_ev ?_
    | (fail_if_success (with_reducible refine Evolves.upd ?_))
      with_reducible refine Evolves.updTabs ?_ ?_ ?_ ?_ ?_ ?_ ?_ ?_ ?_ ?_ ?_ ?_ ?_ ?_
    | split

theorem abortLater_ev {s0 s : State} {n j} (h : Evolves s0 s) :
    Evolves s0 (abortLater s n j) := by
  unfold abortLater
  repeat' first
    | with_reducible assumption
    | intro h
      first | exact h | exact tset_wf h _ _ | exact tdel_wf h _ | exact filter_wf h _ | exact tmap_wf h _
            | exact rising_tput h _ (by simp) | exact rising_foldl_tput h _ _ _ | exact rising_tdel h _
            | exact rising_map h _ fun e => by split <;> rfl
    | (fail_if_success (with_reducible refine Evolves.upd ?_))
      with_reducible refine Evolves.updTabs ?_ ?_ ?_ ?_ ?_ ?_ ?_ ?_ ?_ ?_ ?_ ?_ ?_ ?_

theorem resultFinal_ev {s0 s : State} {n} (h : Evolves s0 s) :
    Evolves s0 (resultFinal s n) := by
  unfold resultFinal
  repeat' first
    | with_reducible assumption
    | (fail_if_no_progress extract_lets -underBinder +onlyGivenNames x)
      refine (fun (hx : Evolves s0 x) => ?_ : Evolves s0 x → _) ?_
      (on_goal 1 => clear_value x)
      (on_goal 2 => simp -zeta only [x])
    | fail_if_no_progress extract_lets -underBinder +onlyGivenNames _x
    | with_reducible refine Evolves.ite ?_ ?_
    | with_reducible refine putPort_ev ?_
    | with_reducible refine modJob_ev ?_
    | with_reducible refine abortLater_ev ?_
    | with_reducible refine beginStep4_ev ?_
    | split

theorem hostRead_ev {s0 s : State} {n ok data} (h : Evolves s0 s) :
    Evolves s0 (hostRead s n ok data) := by
  unfold hostRead
  repeat' first
    | with_reducible assumption
    | fail_if_no_progress extract_lets -underBinder +onlyGivenNames _x
    | with_reducible refine Evolves.ite ?_ ?_
    | with_reducible refine failJob_ev ?_
    | with_reducible refine refuseBlob_ev ?_
    | with_reducible refine modJob_ev ?_
    | with_reducible refine rerunJob_ev ?_
    | with_reducible refine charge_ev ?_
    | split

theorem execHostReadComplete_ev {s0 s : State} {job ok data} (h : Evolves s0 s) :
    Keeps inOut s0 (execHostReadComplete job ok data s) := by
  unfold execHostReadComplete
  exact Keeps.next (hostRead_ev h)

theorem unwrapDone_ev {s0 s : State} {n} (h : Evolves s0 s) :
    Evolves s0 (unwrapDone s n) := by
  unfold unwrapDone
  repeat' first
    | with_reducible assumption
    | (fail_if_no_progress extract_lets -underBinder +onlyGivenNames x)
      refine (fun (hx : Evolves s0 x) => ?_ : Evolves s0 x → _) ?_
      (on_goal 1 => clear_value x)
      (on_goal 2 => simp -zeta only [x])
    | fail_if_no_progress extract_lets -underBinder +onlyGivenNames _x
    | with_reducible refine Evolves.ite ?_ ?_
    | with_reducible refine lookups_ev ?_
    | with_reducible refine laneUnwrap_ev ?_
    | with_reducible refine refuseBlob_ev ?_
    | with_reducible refine dropFill_ev ?_
    | with_reducible refine Keeps.snd (endFill_ev ?_)
    | with_reducible refine followFill_ev ?_
    | with_reducible refine Evolves.foldl ?_ ?_
    | fail_if_no_progress with_reducible refine Evolves.upd ?_
    | intro _
    | split

theorem execUnwrapComplete_ev {s0 s : State} {job} (h : Evolves s0 s) :
    Keeps inOut s0 (execUnwrapComplete job s) := by
  unfold execUnwrapComplete
  exact Keeps.next (unwrapDone_ev h)

theorem execJobHandoff_ev {s0 s : State} {job chan core} (h : Evolves s0 s) :
    Keeps inOut s0 (execJobHandoff job chan core s) := by
  unfold execJobHandoff
  exact Keeps.next (handoff_ev h)

theorem execCompletionWrite_ev {s0 s : State} {job} (h : Evolves s0 s) :
    Keeps inOut s0 (execCompletionWrite job s) := by
  unfold execCompletionWrite
  exact Keeps.next (writeCompletions_ev h)

theorem askForJob_ev {s0 s : State} {n j code len} (h : Evolves s0 s) :
    Evolves s0 (askForJob s n j code len) := by
  unfold askForJob
  exact askRand_ev (modJob_ev h)

theorem countLane_ev {s0 s : State} {j n status} (h : Evolves s0 s) :
    Evolves s0 (countLane s j n status) := by
  unfold countLane
  repeat' first
    | with_reducible assumption
    | intro h
      first | exact h | exact tset_wf h _ _ | exact tdel_wf h _ | exact filter_wf h _ | exact tmap_wf h _
            | exact rising_tput h _ (by simp) | exact rising_foldl_tput h _ _ _ | exact rising_tdel h _
            | exact rising_map h _ fun e => by split <;> rfl
    | fail_if_no_progress extract_lets -underBinder +onlyGivenNames _x
    | (fail_if_success (with_reducible refine Evolves.upd ?_))
      with_reducible refine Evolves.updTabs ?_ ?_ ?_ ?_ ?_ ?_ ?_ ?_ ?_ ?_ ?_ ?_ ?_ ?_
    | split

theorem claimWide_ev {s0 s : State} {j p} (h : Evolves s0 s) :
    Keeps inSnd s0 (claimWide s j p) := by
  unfold claimWide
  repeat' first
    | with_reducible assumption
    | fail_if_no_progress extract_lets -underBinder +onlyGivenNames _x
    | with_reducible refine Keeps.ite ?_ ?_
    | with_reducible refine putSail_ev ?_
    | with_reducible refine Keeps.mkSnd ?_

theorem finishJob_ev {s0 s : State} {n j r} (h : Evolves s0 s) :
    Evolves s0 (finishJob s n j r) := by
  unfold finishJob
  exact Evolves.ite (endJob_ev h) (Evolves.ite (endJob_ev h) (endJob_ev h))

theorem runOp_ev {s0 s : State} {op code bulk pre draw body n} (h : Evolves s0 s) :
    Evolves s0 (runOp op code bulk pre draw body n s) := by
  unfold runOp
  repeat' first
    | with_reducible assumption
    | (fail_if_no_progress extract_lets -underBinder +onlyGivenNames x)
      refine (fun (hx : Evolves s0 x) => ?_ : Evolves s0 x → _) ?_
      (on_goal 1 => clear_value x)
      (on_goal 2 => simp -zeta only [x])
    | fail_if_no_progress extract_lets -underBinder +onlyGivenNames _x
    | with_reducible refine Evolves.ite ?_ ?_
    | with_reducible refine modJob_ev ?_
    | with_reducible refine failJob_ev ?_
    | with_reducible refine askForJob_ev ?_
    | with_reducible refine finishJob_ev ?_
    | with_reducible refine countLane_ev ?_
    | split

theorem claimEngine_ev {s0 s : State} {j} (h : Evolves s0 s) :
    Keeps inSnd s0 (claimEngine s j) := by
  unfold claimEngine
  repeat' first
    | with_reducible assumption
    | fail_if_no_progress extract_lets -underBinder +onlyGivenNames _x
    | with_reducible refine Keeps.snd (claimWide_ev ?_)
    | with_reducible refine Keeps.mkSnd ?_
    | split

theorem releaseEngine_ev {s0 s : State} {p} (h : Evolves s0 s) :
    Evolves s0 (releaseEngine s p) := by
  unfold releaseEngine
  repeat' first
    | with_reducible assumption
    | (fail_if_no_progress extract_lets -underBinder +onlyGivenNames x)
      refine (fun (hx : Evolves s0 x) => ?_ : Evolves s0 x → _) ?_
      (on_goal 1 => clear_value x)
      (on_goal 2 => simp -zeta only [x])
    | fail_if_no_progress extract_lets -underBinder +onlyGivenNames _x
    | with_reducible refine Evolves.ite ?_ ?_
    | with_reducible refine putSail_ev ?_
    | with_reducible refine wipeEngine_ev ?_

theorem runOnEngine_ev {s0 s : State} {op code pre draw body n} (h : Evolves s0 s) :
    Evolves s0 (runOnEngine op code pre draw body n s) := by
  unfold runOnEngine
  repeat' first
    | with_reducible assumption
    | with_reducible refine Evolves.ite ?_ ?_
    | with_reducible refine runOp_ev ?_
    | with_reducible refine failJob_ev ?_
    | with_reducible refine claimEngine_ev ?_
    | with_reducible refine releaseEngine_ev ?_
    | with_reducible refine Keeps.ofSnd (by assumption) ?_
    | split

theorem execArpcGenerate_ev {s0 s : State} {job} (h : Evolves s0 s) :
    Keeps inOut s0 (execArpcGenerate job s) := by
  unfold execArpcGenerate
  exact Keeps.next (runOp_ev h)

theorem execDukptTranslatePinTdea_ev {s0 s : State} {job} (h : Evolves s0 s) :
    Keeps inOut s0 (execDukptTranslatePinTdea job s) := by
  unfold execDukptTranslatePinTdea
  exact Keeps.next (runOp_ev h)

theorem execGeneratePinOffset_ev {s0 s : State} {job} (h : Evolves s0 s) :
    Keeps inOut s0 (execGeneratePinOffset job s) := by
  unfold execGeneratePinOffset
  exact Keeps.next (runOp_ev h)

theorem execArqcVerifyArpc_ev {s0 s : State} {job} (h : Evolves s0 s) :
    Keeps inOut s0 (execArqcVerifyArpc job s) := by
  unfold execArqcVerifyArpc
  exact Keeps.next (runOp_ev h)

theorem execDetokenise_ev {s0 s : State} {job} (h : Evolves s0 s) :
    Keeps inOut s0 (execDetokenise job s) := by
  unfold execDetokenise
  exact Keeps.next (runOp_ev h)

theorem execTokenise_ev {s0 s : State} {job} (h : Evolves s0 s) :
    Keeps inOut s0 (execTokenise job s) := by
  unfold execTokenise
  exact Keeps.next (runOp_ev h)

theorem execTranslatePin_ev {s0 s : State} {job} (h : Evolves s0 s) :
    Keeps inOut s0 (execTranslatePin job s) := by
  unfold execTranslatePin
  exact Keeps.next (runOp_ev h)

theorem execMacVerify_ev {s0 s : State} {job} (h : Evolves s0 s) :
    Keeps inOut s0 (execMacVerify job s) := by
  unfold execMacVerify
  exact Keeps.next (runOp_ev h)

theorem execArqcVerify_ev {s0 s : State} {job} (h : Evolves s0 s) :
    Keeps inOut s0 (execArqcVerify job s) := by
  unfold execArqcVerify
  exact Keeps.next (runOp_ev h)

theorem execMacGenerate_ev {s0 s : State} {job} (h : Evolves s0 s) :
    Keeps inOut s0 (execMacGenerate job s) := by
  unfold execMacGenerate
  exact Keeps.next (runOp_ev h)

theorem execDukptTranslatePinAes_ev {s0 s : State} {job} (h : Evolves s0 s) :
    Keeps inOut s0 (execDukptTranslatePinAes job s) := by
  unfold execDukptTranslatePinAes
  exact Keeps.next (runOp_ev h)

theorem execVerifyPinOffset_ev {s0 s : State} {job} (h : Evolves s0 s) :
    Keeps inOut s0 (execVerifyPinOffset job s) := by
  unfold execVerifyPinOffset
  exact Keeps.next (runOp_ev h)

theorem execNopFence_ev {s0 s : State} {job} (h : Evolves s0 s) :
    Keeps inOut s0 (execNopFence job s) := by
  unfold execNopFence
  exact Keeps.next (runOp_ev h)

theorem execKcv_ev {s0 s : State} {job} (h : Evolves s0 s) :
    Keeps inOut s0 (execKcv job s) := by
  unfold execKcv
  exact Keeps.next (runOp_ev h)

theorem execTranslateKeyblock_ev {s0 s : State} {job} (h : Evolves s0 s) :
    Keeps inOut s0 (execTranslateKeyblock job s) := by
  unfold execTranslateKeyblock
  exact Keeps.next (runOp_ev h)

theorem execDecapsulate_ev {s0 s : State} {job} (h : Evolves s0 s) :
    Keeps inOut s0 (execDecapsulate job s) := by
  unfold execDecapsulate
  exact Keeps.next (runOnEngine_ev h)

theorem execGeneratePair_ev {s0 s : State} {job} (h : Evolves s0 s) :
    Keeps inOut s0 (execGeneratePair job s) := by
  unfold execGeneratePair
  exact Keeps.next (runOnEngine_ev h)

theorem execHash_ev {s0 s : State} {job} (h : Evolves s0 s) :
    Keeps inOut s0 (execHash job s) := by
  unfold execHash
  exact Keeps.next (runOp_ev h)

theorem execGetRandom_ev {s0 s : State} {job} (h : Evolves s0 s) :
    Keeps inOut s0 (execGetRandom job s) := by
  unfold execGetRandom
  exact Keeps.next (runOp_ev h)

theorem auditProof_ev {s0 s : State} {n} (h : Evolves s0 s) :
    Evolves s0 (auditProof n s) := by
  unfold auditProof
  repeat' first
    | with_reducible assumption
    | with_reducible refine Evolves.ite ?_ ?_
    | with_reducible refine failJob_ev ?_
    | with_reducible refine modJob_ev ?_
    | with_reducible refine finishJob_ev ?_
    | split

theorem execAuditProof_ev {s0 s : State} {job} (h : Evolves s0 s) :
    Keeps inOut s0 (execAuditProof job s) := by
  unfold execAuditProof
  exact Keeps.next (auditProof_ev h)

theorem execImportPublic_ev {s0 s : State} {job} (h : Evolves s0 s) :
    Keeps inOut s0 (execImportPublic job s) := by
  unfold execImportPublic
  exact Keeps.next (runOnEngine_ev h)

theorem execPublicKey_ev {s0 s : State} {job} (h : Evolves s0 s) :
    Keeps inOut s0 (execPublicKey job s) := by
  unfold execPublicKey
  exact Keeps.next (runOnEngine_ev h)

theorem execEncapsulate_ev {s0 s : State} {job} (h : Evolves s0 s) :
    Keeps inOut s0 (execEncapsulate job s) := by
  unfold execEncapsulate
  exact Keeps.next (runOnEngine_ev h)

theorem execGenerate_ev {s0 s : State} {job} (h : Evolves s0 s) :
    Keeps inOut s0 (execGenerate job s) := by
  unfold execGenerate
  exact Keeps.next (runOp_ev h)

theorem execImport_ev {s0 s : State} {job} (h : Evolves s0 s) :
    Keeps inOut s0 (execImport job s) := by
  unfold execImport
  exact Keeps.next (runOp_ev h)

theorem execExportUnderKek_ev {s0 s : State} {job} (h : Evolves s0 s) :
    Keeps inOut s0 (execExportUnderKek job s) := by
  unfold execExportUnderKek
  exact Keeps.next (runOp_ev h)

theorem putOwn_ev {s0 s : State} {k o} (h : Evolves s0 s) :
    Evolves s0 (putOwn s k o) := by
  unfold putOwn
  repeat' first
    | with_reducible assumption
    | fail_if_no_progress extract_lets -underBinder +onlyGivenNames _x
    | fail_if_no_progress with_reducible refine Evolves.upd ?_

theorem starveEval_ev {s0 s : State} {ms} (h : Evolves s0 s) :
    Evolves s0 (starveEval s ms) := by
  unfold starveEval
  repeat' first
    | with_reducible assumption
    | with_reducible refine putOwn_ev ?_
    | with_reducible refine failJob_ev ?_
    | with_reducible refine Evolves.foldl ?_ ?_
    | intro _
    | split

theorem claimWideOr_ev {s0 s : State} {j p} (h : Evolves s0 s) :
    Keeps inSnd s0 (claimWideOr s j p) := by
  unfold claimWideOr
  repeat' first
    | with_reducible assumption
    | with_reducible refine Keeps.ite ?_ ?_
    | with_reducible refine claimWide_ev ?_
    | with_reducible refine wipeEngine_ev ?_
    | with_reducible refine Keeps.ofSnd (by assumption) ?_
    | with_reducible refine Keeps.mkSnd ?_
    | split

theorem startEval_ev {s0 s : State} {p single bisect} (h : Evolves s0 s) :
    Evolves s0 (startEval s p single bisect) := by
  unfold startEval
  repeat' first
    | with_reducible assumption
    | (fail_if_no_progress extract_lets -underBinder +onlyGivenNames x)
      refine (fun (hx : Evolves s0 x) => ?_ : Evolves s0 x → _) ?_
      (on_goal 1 => clear_value x)
      (on_goal 2 => simp -zeta only [x])
    | fail_if_no_progress extract_lets -underBinder +onlyGivenNames _x
    | with_reducible refine Evolves.ite ?_ ?_
    | with_reducible refine putHalf_ev ?_
    | with_reducible refine countCall_ev ?_

theorem beginEval_ev {s0 s : State} {p groups single} (h : Evolves s0 s) :
    Evolves s0 (beginEval s p groups single) := by
  unfold beginEval
  repeat' first
    | with_reducible assumption
    | (fail_if_no_progress extract_lets -underBinder +onlyGivenNames x)
      refine (fun (hx : Evolves s0 x) => ?_ : Evolves s0 x → _) ?_
      (on_goal 1 => clear_value x)
      (on_goal 2 => simp -zeta only [x])
    | fail_if_no_progress extract_lets -underBinder +onlyGivenNames _x
    | with_reducible refine startEval_ev ?_
    | with_reducible refine putSail_ev ?_
    | fail_if_no_progress with_reducible refine Evolves.upd ?_

theorem gatherLive_ev {s0 s : State} {p j ms} (h : Evolves s0 s) :
    Evolves s0 (gatherLive s p j ms) := by
  unfold gatherLive
  repeat' first
    | with_reducible assumption
    | fail_if_no_progress extract_lets -underBinder +onlyGivenNames _x
    | with_reducible refine Evolves.ite ?_ ?_
    | with_reducible refine starveEval_ev ?_
    | with_reducible refine claimWideOr_ev ?_
    | with_reducible refine beginEval_ev ?_
    | with_reducible refine Keeps.ofSnd (by assumption) ?_
    | split

theorem buildTable_ev {s0 s : State} {p o waiting} (h : Evolves s0 s) :
    Evolves s0 (buildTable s p o waiting) := by
  unfold buildTable
  repeat' first
    | with_reducible assumption
    | fail_if_no_progress extract_lets -underBinder +onlyGivenNames _x
    | with_reducible refine Evolves.ite ?_ ?_
    | fail_if_no_progress with_reducible refine Evolves.upd ?_
    | split

theorem nextEval_ev {s0 s : State} {p v} (h : Evolves s0 s) :
    Evolves s0 (nextEval s p v) := by
  unfold nextEval
  repeat' first
    | with_reducible assumption
    | fail_if_no_progress extract_lets -underBinder +onlyGivenNames _x
    | with_reducible refine Evolves.ite ?_ ?_
    | with_reducible refine putSail_ev ?_
    | with_reducible refine releaseEngine_ev ?_
    | with_reducible refine starveEval_ev ?_
    | with_reducible refine startEval_ev ?_
    | fail_if_no_progress with_reducible refine Evolves.upd ?_
    | split

theorem dropOwn_ev {s0 s : State} {k} (h : Evolves s0 s) :
    Evolves s0 (dropOwn s k) := by
  unfold dropOwn
  repeat' first
    | with_reducible assumption
    | fail_if_no_progress extract_lets -underBinder +onlyGivenNames _x
    | fail_if_no_progress with_reducible refine Evolves.upd ?_

theorem passOwn_ev {s0 s : State} {a1 k} (h : Evolves s0 s) :
    Evolves s0 (passOwn s a1 k) := by
  unfold passOwn
  repeat' first
    | with_reducible assumption
    | (fail_if_no_progress extract_lets -underBinder +onlyGivenNames x)
      refine (fun (hx : Evolves s0 x) => ?_ : Evolves s0 x → _) ?_
      (on_goal 1 => clear_value x)
      (on_goal 2 => simp -zeta only [x])
    | fail_if_no_progress extract_lets -underBinder +onlyGivenNames _x
    | with_reducible refine Evolves.ite ?_ ?_
    | with_reducible refine putHalf_ev ?_
    | with_reducible refine dropOwn_ev ?_
    | with_reducible refine modJob_ev ?_
    | split

theorem endBatch_ev {s0 s : State} {n} (h : Evolves s0 s) :
    Evolves s0 (endBatch s n) := by
  unfold endBatch
  repeat' first
    | with_reducible assumption
    | (fail_if_no_progress extract_lets -underBinder +onlyGivenNames x)
      refine (fun (hx : Evolves s0 x) => ?_ : Evolves s0 x → _) ?_
      (on_goal 1 => clear_value x)
      (on_goal 2 => simp -zeta only [x])
    | fail_if_no_progress extract_lets -underBinder +onlyGivenNames _x
    | with_reducible refine Evolves.ite ?_ ?_
    | with_reducible refine endJob_ev ?_
    | fail_if_no_progress with_reducible refine Evolves.upd ?_
    | split

theorem decideMember_ev {s0 s : State} {m valid} (h : Evolves s0 s) :
    Evolves s0 (decideMember s m valid) := by
  unfold decideMember
  repeat' first
    | with_reducible assumption
    | fail_if_no_progress extract_lets -underBinder +onlyGivenNames _x
    | with_reducible refine Evolves.ite ?_ ?_
    | with_reducible refine endJob_ev ?_
    | with_reducible refine endBatch_ev ?_
    | fail_if_no_progress with_reducible refine Evolves.upd ?_
    | split

theorem mismatch_ev {s0 s : State} {p k} (h : Evolves s0 s) :
    Evolves s0 (mismatch s p k) := by
  unfold mismatch
  repeat' first
    | with_reducible assumption
    | fail_if_no_progress extract_lets -underBinder +onlyGivenNames _x
    | with_reducible refine putOwn_ev ?_
    | with_reducible refine putHalf_ev ?_
    | split

theorem failOne_ev {s0 s : State} {p single m} (h : Evolves s0 s) :
    Keeps inFst s0 (failOne s p single m) := by
  unfold failOne
  repeat' first
    | with_reducible assumption
    | with_reducible refine mismatch_ev ?_
    | with_reducible refine decideMember_ev ?_
    | with_reducible refine Keeps.mkFst ?_
    | split

theorem evalDone_ev {s0 s : State} {p flip} (h : Evolves s0 s) :
    Evolves s0 (evalDone s p flip) := by
  unfold evalDone
  repeat' first
    | with_reducible assumption
    | (fail_if_no_progress extract_lets -underBinder +onlyGivenNames x)
      refine (fun (hx : Evolves s0 x) => ?_ : Evolves s0 x → _) ?_
      (on_goal 1 => clear_value x)
      (on_goal 2 => simp -zeta only [x])
    | fail_if_no_progress extract_lets -underBinder +onlyGivenNames _x
    | with_reducible refine Evolves.ite ?_ ?_
    | with_reducible refine nextEval_ev ?_
    | with_reducible refine passOwn_ev ?_
    | with_reducible refine decideMember_ev ?_
    | with_reducible refine Keeps.fst (failOne_ev ?_)
    | with_reducible refine Evolves.foldl ?_ ?_
    | intro _
    | split

theorem gather_ev {s0 s : State} {p} (h : Evolves s0 s) :
    Evolves s0 (gather s p) := by
  unfold gather
  repeat' first
    | with_reducible assumption
    | (fail_if_no_progress extract_lets -underBinder +onlyGivenNames x)
      refine (fun (hx : Evolves s0 x) => ?_ : Evolves s0 x → _) ?_
      (on_goal 1 => clear_value x)
      (on_goal 2 => simp -zeta only [x])
    | fail_if_no_progress extract_lets -underBinder +onlyGivenNames _x
    | with_reducible refine Evolves.ite ?_ ?_
    | with_reducible refine decideMember_ev ?_
    | with_reducible refine gatherLive_ev ?_
    | with_reducible refine Evolves.foldl ?_ ?_
    | intro _
    | split

theorem execVerifyGather_ev {s0 s : State} {page} (h : Evolves s0 s) :
    Keeps inOut s0 (execVerifyGather page s) := by
  unfold execVerifyGather
  exact Keeps.next (gather_ev h)

theorem addOwn_ev {s0 s : State} {o} (h : Evolves s0 s) :
    Evolves s0 (addOwn s o) := by
  unfold addOwn
  repeat' first
    | with_reducible assumption
    | fail_if_no_progress extract_lets -underBinder +onlyGivenNames _x
    | fail_if_no_progress with_reducible refine Evolves.upd ?_

theorem execEvaluationComplete_ev {s0 s : State} {page flip} (h : Evolves s0 s) :
    Keeps inOut s0 (execEvaluationComplete page flip s) := by
  unfold execEvaluationComplete
  exact Keeps.next (evalDone_ev h)

theorem resign_ev {s0 s : State} {k o} (h : Evolves s0 s) :
    Evolves s0 (resign s k o) := by
  unfold resign
  repeat' first
    | with_reducible assumption
    | (fail_if_no_progress extract_lets -underBinder +onlyGivenNames x)
      refine (fun (hx : Evolves s0 x) => ?_ : Evolves s0 x → _) ?_
      (on_goal 1 => clear_value x)
      (on_goal 2 => simp -zeta only [x])
    | fail_if_no_progress extract_lets -underBinder +onlyGivenNames _x
    | with_reducible refine Evolves.ite ?_ ?_
    | with_reducible refine putChan_ev ?_
    | with_reducible refine modJob_ev ?_
    | fail_if_no_progress with_reducible refine Evolves.upd ?_
    | split

theorem chargeMismatch_ev {s0 s : State} {q asChecker} (h : Evolves s0 s) :
    Evolves s0 (chargeMismatch s q asChecker) := by
  unfold chargeMismatch
  repeat' first
    | with_reducible assumption
    | (fail_if_no_progress extract_lets -underBinder +onlyGivenNames x)
      refine (fun (hx : Evolves s0 x) => ?_ : Evolves s0 x → _) ?_
      (on_goal 1 => clear_value x)
      (on_goal 2 => simp -zeta only [x])
    | fail_if_no_progress extract_lets -underBinder +onlyGivenNames _x
    | with_reducible refine Evolves.ite ?_ ?_
    | with_reducible refine putHalf_ev ?_
    | with_reducible refine setEvent_ev ?_
    | with_reducible refine engineFault_ev ?_
    | with_reducible refine charge_ev ?_
    | fail_if_no_progress with_reducible refine Evolves.upd ?_

theorem arbitrate_ev {s0 s : State} {q flip} (h : Evolves s0 s) :
    Evolves s0 (arbitrate s q flip) := by
  unfold arbitrate
  repeat' first
    | with_reducible assumption
    | (fail_if_no_progress extract_lets -underBinder +onlyGivenNames x)
      refine (fun (hx : Evolves s0 x) => ?_ : Evolves s0 x → _) ?_
      (on_goal 1 => clear_value x)
      (on_goal 2 => simp -zeta only [x])
    | fail_if_no_progress extract_lets -underBinder +onlyGivenNames _x
    | with_reducible refine Evolves.ite ?_ ?_
    | with_reducible refine resign_ev ?_
    | with_reducible refine putHalf_ev ?_
    | with_reducible refine chargeMismatch_ev ?_
    | split

theorem execArbitrationComplete_ev {s0 s : State} {page flip} (h : Evolves s0 s) :
    Keeps inOut s0 (execArbitrationComplete page flip s) := by
  unfold execArbitrationComplete
  exact Keeps.next (arbitrate_ev h)

theorem starveOwn_ev {s0 s : State} {k o} (h : Evolves s0 s) :
    Evolves s0 (starveOwn s k o) := by
  unfold starveOwn
  repeat' first
    | with_reducible assumption
    | with_reducible refine Evolves.ite ?_ ?_
    | with_reducible refine putOwn_ev ?_
    | with_reducible refine failJob_ev ?_
    | with_reducible refine dropOwn_ev ?_
    | split

theorem formCheck_ev {s0 s : State} {p} (h : Evolves s0 s) :
    Evolves s0 (formCheck s p) := by
  unfold formCheck
  repeat' first
    | with_reducible assumption
    | (fail_if_no_progress extract_lets -underBinder +onlyGivenNames x)
      refine (fun (hx : Evolves s0 x) => ?_ : Evolves s0 x → _) ?_
      (on_goal 1 => clear_value x)
      (on_goal 2 => simp -zeta only [x])
    | fail_if_no_progress extract_lets -underBinder +onlyGivenNames _x
    | with_reducible refine Evolves.ite ?_ ?_
    | with_reducible refine buildTable_ev ?_
    | with_reducible refine putOwn_ev ?_
    | with_reducible refine beginEval_ev ?_
    | with_reducible refine starveOwn_ev ?_
    | with_reducible refine Evolves.foldl ?_ ?_
    | intro _
    | split
    | dsimp -zeta +zetaDelta only

theorem execCheckForm_ev {s0 s : State} {page} (h : Evolves s0 s) :
    Keeps inOut s0 (execCheckForm page s) := by
  unfold execCheckForm
  exact Keeps.next (formCheck_ev h)

theorem toVerify_ev {s0 s : State} {op pre n} (h : Evolves s0 s) :
    Evolves s0 (toVerify op pre n s) := by
  unfold toVerify
  repeat' first
    | with_reducible assumption
    | with_reducible refine Evolves.ite ?_ ?_
    | with_reducible refine modJob_ev ?_
    | with_reducible refine failJob_ev ?_
    | split

theorem execVerifyBatch_ev {s0 s : State} {job} (h : Evolves s0 s) :
    Keeps inOut s0 (execVerifyBatch job s) := by
  unfold execVerifyBatch
  exact Keeps.next (toVerify_ev h)

theorem attestJob_ev {s0 s : State} {n} (h : Evolves s0 s) :
    Evolves s0 (attestJob n s) := by
  unfold attestJob
  repeat' first
    | with_reducible assumption
    | fail_if_no_progress extract_lets -underBinder +onlyGivenNames _x
    | with_reducible refine Evolves.ite ?_ ?_
    | with_reducible refine endJob_ev ?_
    | with_reducible refine failJob_ev ?_
    | with_reducible refine Keeps.snd (keelDraw_ev ?_)
    | with_reducible refine modJob_ev ?_
    | with_reducible refine addOwn_ev ?_
    | split

theorem makeSig_ev {s0 s : State} {n j p} (h : Evolves s0 s) :
    Evolves s0 (makeSig s n j p) := by
  unfold makeSig
  repeat' first
    | with_reducible assumption
    | (fail_if_no_progress extract_lets -underBinder +onlyGivenNames x)
      refine (fun (hx : Evolves s0 x) => ?_ : Evolves s0 x → _) ?_
      (on_goal 1 => clear_value x)
      (on_goal 2 => simp -zeta only [x])
    | fail_if_no_progress extract_lets -underBinder +onlyGivenNames _x
    | with_reducible refine Evolves.ite ?_ ?_
    | with_reducible refine releaseEngine_ev ?_
    | with_reducible refine endJob_ev ?_
    | with_reducible refine addOwn_ev ?_
    | with_reducible refine modJob_ev ?_

theorem loseEval_ev {s0 s : State} {p} (h : Evolves s0 s) :
    Evolves s0 (loseEval s p) := by
  unfold loseEval
  repeat' first
    | with_reducible assumption
    | (fail_if_no_progress extract_lets -underBinder +onlyGivenNames x)
      refine (fun (hx : Evolves s0 x) => ?_ : Evolves s0 x → _) ?_
      (on_goal 1 => clear_value x)
      (on_goal 2 => simp -zeta only [x])
    | fail_if_no_progress extract_lets -underBinder +onlyGivenNames _x
    | with_reducible refine Evolves.ite ?_ ?_
    | with_reducible refine abortEngine_ev ?_
    | with_reducible refine putOwn_ev ?_
    | with_reducible refine rerunJob_ev ?_
    | with_reducible refine Evolves.foldl ?_ ?_
    | fail_if_no_progress with_reducible refine Evolves.upd ?_
    | intro _
    | split

theorem execVerify_ev {s0 s : State} {job} (h : Evolves s0 s) :
    Keeps inOut s0 (execVerify job s) := by
  unfold execVerify
  exact Keeps.next (toVerify_ev h)

theorem execAttestKey_ev {s0 s : State} {job} (h : Evolves s0 s) :
    Keeps inOut s0 (execAttestKey job s) := by
  unfold execAttestKey
  exact Keeps.next (attestJob_ev h)

theorem signJob_ev {s0 s : State} {n} (h : Evolves s0 s) :
    Evolves s0 (signJob n s) := by
  unfold signJob
  repeat' first
    | with_reducible assumption
    | with_reducible refine Evolves.ite ?_ ?_
    | with_reducible refine modJob_ev ?_
    | with_reducible refine failJob_ev ?_
    | with_reducible refine endJob_ev ?_
    | with_reducible refine askForJob_ev ?_
    | with_reducible refine claimEngine_ev ?_
    | with_reducible refine makeSig_ev ?_
    | with_reducible refine Keeps.ofSnd (by assumption) ?_
    | split

theorem execSign_ev {s0 s : State} {job} (h : Evolves s0 s) :
    Keeps inOut s0 (execSign job s) := by
  unfold execSign
  exact Keeps.next (signJob_ev h)

theorem afterSegment_ev {s0 s : State} {decrypt n} (h : Evolves s0 s) :
    Evolves s0 (afterSegment decrypt s n) := by
  unfold afterSegment
  repeat' first
    | with_reducible assumption
    | fail_if_no_progress extract_lets -underBinder +onlyGivenNames _x
    | with_reducible refine Evolves.ite ?_ ?_
    | with_reducible refine modJob_ev ?_
    | with_reducible refine finishJob_ev ?_
    | split

theorem stripeDone_ev {s0 s : State} {c i} (h : Evolves s0 s) :
    Evolves s0 (stripeDone s c i) := by
  unfold stripeDone
  repeat' first
    | with_reducible assumption
    | (fail_if_no_progress extract_lets -underBinder +onlyGivenNames x)
      refine (fun (hx : Evolves s0 x) => ?_ : Evolves s0 x → _) ?_
      (on_goal 1 => clear_value x)
      (on_goal 2 => simp -zeta only [x])
    | fail_if_no_progress extract_lets -underBinder +onlyGivenNames _x
    | with_reducible refine Evolves.ite ?_ ?_
    | with_reducible refine redoStripes_ev ?_
    | with_reducible refine putLane_ev ?_
    | with_reducible refine afterSegment_ev ?_
    | with_reducible refine countLane_ev ?_
    | split

theorem cryptJob_ev {s0 s : State} {decrypt op n} (h : Evolves s0 s) :
    Evolves s0 (cryptJob decrypt op n s) := by
  unfold cryptJob
  repeat' first
    | with_reducible assumption
    | (fail_if_no_progress extract_lets -underBinder +onlyGivenNames x)
      refine (fun (hx : Evolves s0 x) => ?_ : Evolves s0 x → _) ?_
      (on_goal 1 => clear_value x)
      (on_goal 2 => simp -zeta only [x])
    | fail_if_no_progress extract_lets -underBinder +onlyGivenNames _x
    | with_reducible refine Evolves.ite ?_ ?_
    | with_reducible refine failJob_ev ?_
    | with_reducible refine endJob_ev ?_
    | with_reducible refine askForJob_ev ?_
    | with_reducible refine putLane_ev ?_
    | with_reducible refine afterSegment_ev ?_
    | with_reducible refine countLane_ev ?_
    | with_reducible refine Evolves.foldl ?_ ?_
    | intro _
    | split

theorem execEncrypt_ev {s0 s : State} {job} (h : Evolves s0 s) :
    Keeps inOut s0 (execEncrypt job s) := by
  unfold execEncrypt
  exact Keeps.next (cryptJob_ev h)

theorem bulkDone_ev {s0 s : State} {c pass} (h : Evolves s0 s) :
    Evolves s0 (bulkDone s c pass) := by
  unfold bulkDone
  repeat' first
    | with_reducible assumption
    | fail_if_no_progress extract_lets -underBinder +onlyGivenNames _x
    | with_reducible refine Evolves.ite ?_ ?_
    | with_reducible refine setEvent_ev ?_
    | with_reducible refine putLane_ev ?_

theorem execBulkCmdDone_ev {s0 s : State} {chan pass} (h : Evolves s0 s) :
    Keeps inOut s0 (execBulkCmdDone chan pass s) := by
  unfold execBulkCmdDone
  exact Keeps.next (bulkDone_ev h)

theorem execDecrypt_ev {s0 s : State} {job} (h : Evolves s0 s) :
    Keeps inOut s0 (execDecrypt job s) := by
  unfold execDecrypt
  exact Keeps.next (cryptJob_ev h)

theorem writeBulkCmd_ev {s0 s : State} {c op param} (h : Evolves s0 s) :
    Evolves s0 (writeBulkCmd s c op param) := by
  unfold writeBulkCmd
  repeat' first
    | with_reducible assumption
    | fail_if_no_progress extract_lets -underBinder +onlyGivenNames _x
    | with_reducible refine Evolves.ite ?_ ?_
    | with_reducible refine putLane_ev ?_

theorem execSelftestAll_ev {s0 s : State} {acc chan} (h : Evolves s0 s) :
    Keeps inOut s0 (execSelftestAll acc chan s) := by
  unfold execSelftestAll
  exact Keeps.next (Evolves.ite (writeBulkCmd_ev h) h)

theorem writeFeed_ev {s0 s : State} {c v} (h : Evolves s0 s) :
    Evolves s0 (writeFeed s c v) := by
  unfold writeFeed
  repeat' first
    | with_reducible assumption
    | fail_if_no_progress extract_lets -underBinder +onlyGivenNames _x
    | with_reducible refine Evolves.ite ?_ ?_
    | with_reducible refine putLane_ev ?_

theorem execBulkFeed_ev {s0 s : State} {acc chan value} (h : Evolves s0 s) :
    Keeps inOut s0 (execBulkFeed acc chan value s) := by
  unfold execBulkFeed
  exact Keeps.next (Evolves.ite (writeFeed_ev h) h)

theorem execSelftest_ev {s0 s : State} {acc chan param} (h : Evolves s0 s) :
    Keeps inOut s0 (execSelftest acc chan param s) := by
  unfold execSelftest
  exact Keeps.next (Evolves.ite (writeBulkCmd_ev h) h)

theorem execHashStart_ev {s0 s : State} {acc chan alg} (h : Evolves s0 s) :
    Keeps inOut s0 (execHashStart acc chan alg s) := by
  unfold execHashStart
  exact Keeps.next (Evolves.ite (writeBulkCmd_ev h) h)

theorem execStripeComplete_ev {s0 s : State} {chan stripe} (h : Evolves s0 s) :
    Keeps inOut s0 (execStripeComplete chan stripe s) := by
  unfold execStripeComplete
  exact Keeps.next (stripeDone_ev h)

theorem execHashEnd_ev {s0 s : State} {acc chan} (h : Evolves s0 s) :
    Keeps inOut s0 (execHashEnd acc chan s) := by
  unfold execHashEnd
  exact Keeps.next (Evolves.ite (writeBulkCmd_ev h) h)

theorem dropEntry_ev {s0 s : State} {row} (h : Evolves s0 s) :
    Evolves s0 (dropEntry s row) := by
  unfold dropEntry
  repeat' first
    | with_reducible assumption
    | fail_if_no_progress extract_lets -underBinder +onlyGivenNames _x
    | with_reducible refine Evolves.ite ?_ ?_
    | with_reducible refine kcEvent_ev ?_
    | fail_if_no_progress with_reducible refine Evolves.upd ?_

theorem faultJob_ev {s0 s : State} {n p} (h : Evolves s0 s) :
    Evolves s0 (faultJob s n p) := by
  unfold faultJob
  repeat' first
    | with_reducible assumption
    | with_reducible refine modJob_ev ?_
    | with_reducible refine rerunJob_ev ?_
    | split

theorem lostBallast_ev {s0 s : State} {b row} (h : Evolves s0 s) :
    Evolves s0 (lostBallast s b row) := by
  unfold lostBallast
  repeat' first
    | with_reducible assumption
    | fail_if_no_progress extract_lets -underBinder +onlyGivenNames _x
    | with_reducible refine Evolves.ite ?_ ?_
    | with_reducible refine failJob_ev ?_
    | with_reducible refine dropHeld_ev ?_
    | with_reducible refine faultJob_ev ?_
    | split

theorem lostCore_ev {s0 s : State} {p} (h : Evolves s0 s) :
    Evolves s0 (lostCore s p) := by
  unfold lostCore
  repeat' first
    | with_reducible assumption
    | (fail_if_no_progress extract_lets -underBinder +onlyGivenNames x)
      refine (fun (hx : Evolves s0 x) => ?_ : Evolves s0 x → _) ?_
      (on_goal 1 => clear_value x)
      (on_goal 2 => simp -zeta only [x])
    | fail_if_no_progress extract_lets -underBinder +onlyGivenNames _x
    | with_reducible refine setUState_ev ?_
    | with_reducible refine onStarting_ev ?_
    | with_reducible refine faultJob_ev ?_

theorem lostContent_ev {s0 s : State} {p block row} (h : Evolves s0 s) :
    Evolves s0 (lostContent s p block row) := by
  unfold lostContent
  repeat' first
    | with_reducible assumption
    | (fail_if_no_progress extract_lets -underBinder +onlyGivenNames x)
      refine (fun (hx : Evolves s0 x) => ?_ : Evolves s0 x → _) ?_
      (on_goal 1 => clear_value x)
      (on_goal 2 => simp -zeta only [x])
    | fail_if_no_progress extract_lets -underBinder +onlyGivenNames _x
    | with_reducible refine Evolves.ite ?_ ?_
    | with_reducible refine dropEntry_ev ?_
    | with_reducible refine lostBallast_ev ?_
    | with_reducible refine lostCore_ev ?_
    | with_reducible refine loseEval_ev ?_
    | with_reducible refine abortEngine_ev ?_
    | with_reducible refine faultJob_ev ?_
    | split
    | dsimp -zeta +zetaDelta only

theorem uncorrectedError_ev {s0 s : State} {p block row} (h : Evolves s0 s) :
    Evolves s0 (uncorrectedError s p block row) := by
  unfold uncorrectedError
  exact Evolves.ite h (rowRepair_ev (lostContent_ev (charge_ev h)))

theorem beginTest_ev {s0 s : State} {c} (h : Evolves s0 s) :
    Evolves s0 (beginTest s c) := by
  unfold beginTest
  repeat' first
    | with_reducible assumption
    | fail_if_no_progress extract_lets -underBinder +onlyGivenNames _x
    | with_reducible refine postSeed_ev ?_
    | with_reducible refine putChan_ev ?_

theorem startTest_ev {s0 s : State} {c} (h : Evolves s0 s) :
    Evolves s0 (startTest s c) := by
  unfold startTest
  repeat' first
    | with_reducible assumption
    | fail_if_no_progress extract_lets -underBinder +onlyGivenNames _x
    | with_reducible refine Evolves.ite ?_ ?_
    | with_reducible refine beginTest_ev ?_

theorem recordRetirement_ev {s0 s : State} {p} (h : Evolves s0 s) :
    Evolves s0 (recordRetirement s p) := by
  unfold recordRetirement
  repeat' first
    | with_reducible assumption
    | (fail_if_no_progress extract_lets -underBinder +onlyGivenNames x)
      refine (fun (hx : Evolves s0 x) => ?_ : Evolves s0 x → _) ?_
      (on_goal 1 => clear_value x)
      (on_goal 2 => simp -zeta only [x])
    | fail_if_no_progress extract_lets -underBinder +onlyGivenNames _x
    | with_reducible refine Evolves.ite ?_ ?_
    | with_reducible refine mapAppend_ev ?_
    | with_reducible refine burnRetire_ev ?_
    | with_reducible refine modUnit_ev ?_
    | with_reducible refine noteNoChannel_ev ?_
    | with_reducible refine rebindAll_ev ?_
    | with_reducible refine retireTree_ev ?_

theorem startNow_ev {s0 s : State} {p} (h : Evolves s0 s) :
    Evolves s0 (startNow s p) := by
  unfold startNow
  repeat' first
    | with_reducible assumption
    | (fail_if_no_progress extract_lets -underBinder +onlyGivenNames x)
      refine (fun (hx : Evolves s0 x) => ?_ : Evolves s0 x → _) ?_
      (on_goal 1 => clear_value x)
      (on_goal 2 => simp -zeta only [x])
    | fail_if_no_progress extract_lets -underBinder +onlyGivenNames _x
    | with_reducible refine Evolves.ite ?_ ?_
    | with_reducible refine setUState_ev ?_
    | with_reducible refine onStarting_ev ?_
    | with_reducible refine modUnit_ev ?_
    | with_reducible refine putSail_ev ?_
    | fail_if_no_progress with_reducible refine Evolves.upd ?_

theorem standUp_ev {s0 s : State} {c d} (h : Evolves s0 s) :
    Evolves s0 (standUp s c d) := by
  unfold standUp
  repeat' first
    | with_reducible assumption
    | (fail_if_no_progress extract_lets -underBinder +onlyGivenNames x)
      refine (fun (hx : Evolves s0 x) => ?_ : Evolves s0 x → _) ?_
      (on_goal 1 => clear_value x)
      (on_goal 2 => simp -zeta only [x])
    | with_reducible refine startNow_ev ?_
    | with_reducible refine rebindAll_ev ?_
    | with_reducible refine replaceInShares_ev ?_
    | with_reducible refine Evolves.foldl ?_ ?_
    | intro _

theorem skipTest_ev {s0 s : State} {c} (h : Evolves s0 s) :
    Evolves s0 (skipTest s c) := by
  unfold skipTest
  repeat' first
    | with_reducible assumption
    | fail_if_no_progress extract_lets -underBinder +onlyGivenNames _x
    | with_reducible refine setEvent_ev ?_
    | with_reducible refine putChan_ev ?_

theorem endTest_ev {s0 s : State} {c result step} (h : Evolves s0 s) :
    Evolves s0 (endTest s c result step) := by
  unfold endTest
  repeat' first
    | with_reducible assumption
    | (fail_if_no_progress extract_lets -underBinder +onlyGivenNames x)
      refine (fun (hx : Evolves s0 x) => ?_ : Evolves s0 x → _) ?_
      (on_goal 1 => clear_value x)
      (on_goal 2 => simp -zeta only [x])
    | fail_if_no_progress extract_lets -underBinder +onlyGivenNames _x
    | with_reducible refine Evolves.ite ?_ ?_
    | with_reducible refine putChan_ev ?_
    | with_reducible refine setEvent_ev ?_
    | with_reducible refine standUp_ev ?_
    | with_reducible refine channelFault_ev ?_
    | with_reducible refine skipTest_ev ?_
    | fail_if_no_progress with_reducible refine Evolves.upd ?_
    | split

theorem execFieldTestResult_ev {s0 s : State} {chan result step} (h : Evolves s0 s) :
    Keeps inOut s0 (execFieldTestResult chan result step s) := by
  unfold execFieldTestResult
  exact Keeps.next (endTest_ev h)

theorem correctedError_ev {s0 s : State} {p block row} (h : Evolves s0 s) :
    Evolves s0 (correctedError s p block row) := by
  unfold correctedError
  repeat' first
    | with_reducible assumption
    | (fail_if_no_progress extract_lets -underBinder +onlyGivenNames x)
      refine (fun (hx : Evolves s0 x) => ?_ : Evolves s0 x → _) ?_
      (on_goal 1 => clear_value x)
      (on_goal 2 => simp -zeta only [x])
    | fail_if_no_progress extract_lets -underBinder +onlyGivenNames _x
    | with_reducible refine Evolves.ite ?_ ?_
    | with_reducible refine charge_ev ?_
    | with_reducible refine rowRepair_ev ?_
    | fail_if_no_progress with_reducible refine Evolves.upd ?_

theorem execFieldTestStart_ev {s0 s : State} {chan} (h : Evolves s0 s) :
    Keeps inOut s0 (execFieldTestStart chan s) := by
  unfold execFieldTestStart
  exact Keeps.next (startTest_ev h)

theorem lockup_ev {s0 s : State} {p} (h : Evolves s0 s) :
    Evolves s0 (lockup s p) := by
  unfold lockup
  repeat' first
    | with_reducible assumption
    | (fail_if_no_progress extract_lets -underBinder +onlyGivenNames x)
      refine (fun (hx : Evolves s0 x) => ?_ : Evolves s0 x → _) ?_
      (on_goal 1 => clear_value x)
      (on_goal 2 => simp -zeta only [x])
    | fail_if_no_progress extract_lets -underBinder +onlyGivenNames _x
    | with_reducible refine Evolves.ite ?_ ?_
    | with_reducible refine failJob_ev ?_
    | with_reducible refine tryStart_ev ?_
    | with_reducible refine setUState_ev ?_

theorem execSramCorrectedError_ev {s0 s : State} {page block row} (h : Evolves s0 s) :
    Keeps inOut s0 (execSramCorrectedError page block row s) := by
  unfold execSramCorrectedError
  exact Keeps.next (Evolves.ite h (correctedError_ev h))

theorem takeFault_ev {s0 s : State} {p cause n} (h : Evolves s0 s) :
    Evolves s0 (takeFault s p cause n) := by
  unfold takeFault
  repeat' first
    | with_reducible assumption
    | (fail_if_no_progress extract_lets -underBinder +onlyGivenNames x)
      refine (fun (hx : Evolves s0 x) => ?_ : Evolves s0 x → _) ?_
      (on_goal 1 => clear_value x)
      (on_goal 2 => simp -zeta only [x])
    | with_reducible refine Evolves.ite ?_ ?_
    | with_reducible refine charge_ev ?_
    | with_reducible refine redoStripes_ev ?_
    | with_reducible refine faultJob_ev ?_
    | with_reducible refine loseEval_ev ?_

theorem fieldTestFire_ev {s0 s : State} {c} (h : Evolves s0 s) :
    Evolves s0 (fieldTestFire s c) := by
  unfold fieldTestFire
  repeat' first
    | with_reducible assumption
    | fail_if_no_progress extract_lets -underBinder +onlyGivenNames _x
    | with_reducible refine Evolves.ite ?_ ?_
    | with_reducible refine putChan_ev ?_
    | with_reducible refine beginTest_ev ?_
    | with_reducible refine skipTest_ev ?_
    | with_reducible refine Evolves.foldl ?_ ?_
    | intro _

theorem execSramUncorrectedError_ev {s0 s : State} {page block row} (h : Evolves s0 s) :
    Keeps inOut s0 (execSramUncorrectedError page block row s) := by
  unfold execSramUncorrectedError
  exact Keeps.next (uncorrectedError_ev h)

theorem requestRetire_ev {s0 s : State} {p} (h : Evolves s0 s) :
    Evolves s0 (requestRetire s p) := by
  unfold requestRetire
  repeat' first
    | with_reducible assumption
    | (fail_if_no_progress extract_lets -underBinder +onlyGivenNames x)
      refine (fun (hx : Evolves s0 x) => ?_ : Evolves s0 x → _) ?_
      (on_goal 1 => clear_value x)
      (on_goal 2 => simp -zeta only [x])
    | fail_if_no_progress extract_lets -underBinder +onlyGivenNames _x
    | with_reducible refine Evolves.ite ?_ ?_
    | with_reducible refine writeRetire_ev ?_
    | with_reducible refine putChan_ev ?_
    | with_reducible refine chooseStandIn_ev ?_
    | split

theorem execNetworkParityError_ev {s0 s : State} {page job times} (h : Evolves s0 s) :
    Keeps inOut s0 (execNetworkParityError page job times s) := by
  unfold execNetworkParityError
  exact Keeps.next (Evolves.ite h (Evolves.ite (charge_ev h) (takeFault_ev h)))

theorem drkGenerate_ev {s0 s : State} (h : Evolves s0 s) :
    Evolves s0 (drkGenerate s) := by
  unfold drkGenerate
  repeat' first
    | (fail_if_success (with_reducible refine Evolves.upd ?_)); with_reducible refine Evolves.burn ?_ ?_
    | ((with_reducible refine BurnedStays.mk ?_ ?_ ?_ ?_ ?_ ?_ ?_ ?_ ?_) <;> simp +zetaDelta [← BitVec.or_assoc])
    | with_reducible assumption
    | (fail_if_no_progress extract_lets -underBinder +onlyGivenNames x)
      refine (fun (hx : Evolves s0 x) => ?_ : Evolves s0 x → _) ?_
      (on_goal 1 => clear_value x)
      (on_goal 2 => simp -zeta only [x])
    | fail_if_no_progress extract_lets -underBinder +onlyGivenNames _x
    | with_reducible refine Evolves.ite ?_ ?_
    | with_reducible refine storeErase_ev ?_
    | with_reducible refine Keeps.snd (freeBytes_ev ?_)
    | with_reducible refine devAppend_ev ?_
    | with_reducible refine otpBurned_ev ?_
    | fail_if_no_progress with_reducible refine Evolves.upd ?_

theorem execDrkGenerate_ev {s0 s : State} (h : Evolves s0 s) :
    Keeps inOut s0 (execDrkGenerate s) := by
  unfold execDrkGenerate
  exact Keeps.next (drkGenerate_ev h)

theorem putKeys_ev {s0 s : State} {i k} (h : Evolves s0 s) :
    Evolves s0 (putKeys s i k) := by
  unfold putKeys
  repeat' first
    | with_reducible assumption
    | fail_if_no_progress extract_lets -underBinder +onlyGivenNames _x
    | fail_if_no_progress with_reducible refine Evolves.upd ?_

theorem releaseGen_ev {s0 s : State} {i g key} (h : Evolves s0 s) :
    Evolves s0 (releaseGen s i g key) := by
  unfold releaseGen
  repeat' first
    | with_reducible assumption
    | (fail_if_no_progress extract_lets -underBinder +onlyGivenNames x)
      refine (fun (hx : Evolves s0 x) => ?_ : Evolves s0 x → _) ?_
      (on_goal 1 => clear_value x)
      (on_goal 2 => simp -zeta only [x])
    | fail_if_no_progress extract_lets -underBinder +onlyGivenNames _x
    | with_reducible refine putKeys_ev ?_
    | with_reducible refine dropLingering_ev ?_
    | with_reducible refine invalidate_ev ?_

theorem keyChange_ev {s0 s : State} (h : Evolves s0 s) :
    Evolves s0 (keyChange s) := by
  unfold keyChange
  exact setEvent_ev h

theorem putSlot_ev {s0 s : State} {k x} (h : Evolves s0 s) :
    Evolves s0 (putSlot s k x) := by
  unfold putSlot
  repeat' first
    | with_reducible assumption
    | (fail_if_no_progress extract_lets -underBinder +onlyGivenNames x)
      refine (fun (hx : Evolves s0 x) => ?_ : Evolves s0 x → _) ?_
      (on_goal 1 => clear_value x)
      (on_goal 2 => simp -zeta only [x])
    | fail_if_no_progress extract_lets -underBinder +onlyGivenNames _x
    | with_reducible refine Evolves.ite ?_ ?_
    | with_reducible refine keyChange_ev ?_
    | fail_if_no_progress with_reducible refine Evolves.upd ?_

theorem stageSlot_ev {s0 s : State} {k key} (h : Evolves s0 s) :
    Evolves s0 (stageSlot s k key) := by
  unfold stageSlot
  repeat' first
    | with_reducible assumption
    | (fail_if_no_progress extract_lets -underBinder +onlyGivenNames x)
      refine (fun (hx : Evolves s0 x) => ?_ : Evolves s0 x → _) ?_
      (on_goal 1 => clear_value x)
      (on_goal 2 => simp -zeta only [x])
    | fail_if_no_progress extract_lets -underBinder +onlyGivenNames _x
    | with_reducible refine storePut_ev ?_
    | with_reducible refine putSlot_ev ?_

theorem splitRead_ev {s0 s : State} {r} (h : Evolves s0 s) :
    Evolves s0 (splitRead s r) := by
  unfold splitRead
  repeat' first
    | with_reducible assumption
    | (fail_if_no_progress extract_lets -underBinder +onlyGivenNames x)
      refine (fun (hx : Evolves s0 x) => ?_ : Evolves s0 x → _) ?_
      (on_goal 1 => clear_value x)
      (on_goal 2 => simp -zeta only [x])
    | fail_if_no_progress extract_lets -underBinder +onlyGivenNames _x
    | with_reducible refine Evolves.ite ?_ ?_
    | with_reducible refine putSlot_ev ?_
    | with_reducible refine stageSlot_ev ?_
    | split

theorem persistKeys_ev {s0 s : State} {i} (h : Evolves s0 s) :
    Evolves s0 (persistKeys s i) := by
  unfold persistKeys
  repeat' first
    | with_reducible assumption
    | (fail_if_no_progress extract_lets -underBinder +onlyGivenNames x)
      refine (fun (hx : Evolves s0 x) => ?_ : Evolves s0 x → _) ?_
      (on_goal 1 => clear_value x)
      (on_goal 2 => simp -zeta only [x])
    | fail_if_no_progress extract_lets -underBinder +onlyGivenNames _x
    | with_reducible refine Evolves.ite ?_ ?_
    | with_reducible refine storeDrop_ev ?_
    | with_reducible refine storePut_ev ?_
    | split

theorem dropPrev_ev {s0 s : State} {i} (h : Evolves s0 s) :
    Evolves s0 (dropPrev s i) := by
  unfold dropPrev
  repeat' first
    | with_reducible assumption
    | (fail_if_no_progress extract_lets -underBinder +onlyGivenNames x)
      refine (fun (hx : Evolves s0 x) => ?_ : Evolves s0 x → _) ?_
      (on_goal 1 => clear_value x)
      (on_goal 2 => simp -zeta only [x])
    | fail_if_no_progress extract_lets -underBinder +onlyGivenNames _x
    | with_reducible refine releaseGen_ev ?_
    | with_reducible refine putKeys_ev ?_
    | with_reducible refine keyChange_ev ?_
    | with_reducible refine persistKeys_ev ?_
    | split

theorem wantDrk_ev {s0 s : State} {state} (h : Evolves s0 s) :
    Evolves s0 (wantDrk s state) := by
  unfold wantDrk
  repeat' first
    | with_reducible assumption
    | fail_if_no_progress extract_lets -underBinder +onlyGivenNames _x
    | with_reducible refine postSeed_ev ?_
    | fail_if_no_progress with_reducible refine Evolves.upd ?_

theorem putEvt_ev {s0 s : State} {n e} (h : Evolves s0 s) :
    Evolves s0 (putEvt s n e) := by
  unfold putEvt
  repeat' first
    | with_reducible assumption
    | intro h
      first | exact h | exact tset_wf h _ _ | exact tdel_wf h _ | exact filter_wf h _ | exact tmap_wf h _
            | exact rising_tput h _ (by simp) | exact rising_foldl_tput h _ _ _ | exact rising_tdel h _
            | exact rising_map h _ fun e => by split <;> rfl
    | (fail_if_success (with_reducible refine Evolves.upd ?_))
      with_reducible refine Evolves.updTabs ?_ ?_ ?_ ?_ ?_ ?_ ?_ ?_ ?_ ?_ ?_ ?_ ?_ ?_

theorem armLowest_ev {s0 s : State} {e} (h : Evolves s0 s) :
    Evolves s0 (armLowest s e) := by
  unfold armLowest
  repeat' first
    | with_reducible assumption
    | with_reducible refine putEvt_ev ?_
    | split

theorem splitWrote_ev {s0 s : State} (h : Evolves s0 s) :
    Evolves s0 (splitWrote s) := by
  unfold splitWrote
  repeat' first
    | with_reducible assumption
    | fail_if_no_progress extract_lets -underBinder +onlyGivenNames _x
    | with_reducible refine putSlot_ev ?_
    | split

theorem emptySlot_ev {s0 s : State} {k} (h : Evolves s0 s) :
    Evolves s0 (emptySlot s k) := by
  unfold emptySlot
  repeat' first
    | with_reducible assumption
    | (fail_if_no_progress extract_lets -underBinder +onlyGivenNames x)
      refine (fun (hx : Evolves s0 x) => ?_ : Evolves s0 x → _) ?_
      (on_goal 1 => clear_value x)
      (on_goal 2 => simp -zeta only [x])
    | fail_if_no_progress extract_lets -underBinder +onlyGivenNames _x
    | with_reducible refine Evolves.ite ?_ ?_
    | with_reducible refine storeDrop_ev ?_
    | with_reducible refine putSlot_ev ?_

theorem clearEvts_ev {s0 s : State} {p} (h : Evolves s0 s) :
    Evolves s0 (clearEvts s p) := by
  unfold clearEvts
  repeat' first
    | with_reducible assumption
    | intro h
      first | exact h | exact tset_wf h _ _ | exact tdel_wf h _ | exact filter_wf h _ | exact tmap_wf h _
            | exact rising_tput h _ (by simp) | exact rising_foldl_tput h _ _ _ | exact rising_tdel h _
            | exact rising_map h _ fun e => by split <;> rfl
    | (fail_if_success (with_reducible refine Evolves.upd ?_))
      with_reducible refine Evolves.updTabs ?_ ?_ ?_ ?_ ?_ ?_ ?_ ?_ ?_ ?_ ?_ ?_ ?_ ?_

theorem activateKey_ev {s0 s : State} {i k pos} (h : Evolves s0 s) :
    Evolves s0 (activateKey s i k pos) := by
  unfold activateKey
  repeat' first
    | with_reducible assumption
    | (fail_if_no_progress extract_lets -underBinder +onlyGivenNames x)
      refine (fun (hx : Evolves s0 x) => ?_ : Evolves s0 x → _) ?_
      (on_goal 1 => clear_value x)
      (on_goal 2 => simp -zeta only [x])
    | fail_if_no_progress extract_lets -underBinder +onlyGivenNames _x
    | with_reducible refine Evolves.ite ?_ ?_
    | with_reducible refine clearEvts_ev ?_
    | with_reducible refine dropPrev_ev ?_
    | with_reducible refine putKeys_ev ?_
    | with_reducible refine releaseGen_ev ?_
    | with_reducible refine armLowest_ev ?_
    | with_reducible refine persistKeys_ev ?_
    | with_reducible refine emptySlot_ev ?_
    | with_reducible refine beginKeyRec_ev ?_
    | with_reducible refine dpEvent_ev ?_
    | with_reducible refine keyChange_ev ?_

theorem failSlot_ev {s0 s : State} {k i cause} (h : Evolves s0 s) :
    Evolves s0 (failSlot s k i cause) := by
  unfold failSlot
  repeat' first
    | with_reducible assumption
    | fail_if_no_progress extract_lets -underBinder +onlyGivenNames _x
    | with_reducible refine putSlot_ev ?_

theorem takeShare_ev {s0 s : State} {k i r} (h : Evolves s0 s) :
    Evolves s0 (takeShare s k i r) := by
  unfold takeShare
  repeat' first
    | with_reducible assumption
    | fail_if_no_progress extract_lets -underBinder +onlyGivenNames _x
    | with_reducible refine Evolves.ite ?_ ?_
    | with_reducible refine failSlot_ev ?_
    | with_reducible refine putSlot_ev ?_
    | with_reducible refine stageSlot_ev ?_
    | fail_if_no_progress with_reducible refine Evolves.upd ?_

theorem beginSplit_ev {s0 s : State} {k i m n gen} (h : Evolves s0 s) :
    Evolves s0 (beginSplit s k i m n gen) := by
  unfold beginSplit
  repeat' first
    | with_reducible assumption
    | with_reducible refine Keeps.snd (keelDraw_ev ?_)
    | with_reducible refine putSlot_ev ?_

theorem enableChannels_ev {s0 s : State} (h : Evolves s0 s) :
    Evolves s0 (enableChannels s) := by
  unfold enableChannels
  repeat' first
    | with_reducible assumption
    | (fail_if_no_progress extract_lets -underBinder +onlyGivenNames x)
      refine (fun (hx : Evolves s0 x) => ?_ : Evolves s0 x → _) ?_
      (on_goal 1 => clear_value x)
      (on_goal 2 => simp -zeta only [x])
    | fail_if_no_progress extract_lets -underBinder +onlyGivenNames _x
    | with_reducible refine Evolves.ite ?_ ?_
    | with_reducible refine startNow_ev ?_
    | with_reducible refine modUnit_ev ?_
    | with_reducible refine setUState_ev ?_
    | with_reducible refine rebindAll_ev ?_
    | with_reducible refine Evolves.foldl ?_ ?_
    | intro _

theorem leaveStandby_ev {s0 s : State} (h : Evolves s0 s) :
    Evolves s0 (leaveStandby s) := by
  unfold leaveStandby
  repeat' first
    | with_reducible assumption
    | (fail_if_no_progress extract_lets -underBinder +onlyGivenNames x)
      refine (fun (hx : Evolves s0 x) => ?_ : Evolves s0 x → _) ?_
      (on_goal 1 => clear_value x)
      (on_goal 2 => simp -zeta only [x])
    | fail_if_no_progress extract_lets -underBinder +onlyGivenNames _x
    | with_reducible refine Evolves.ite ?_ ?_
    | with_reducible refine enableChannels_ev ?_
    | with_reducible refine setEvent_ev ?_
    | fail_if_no_progress with_reducible refine Evolves.upd ?_

theorem wakeUp_ev {s0 s : State} (h : Evolves s0 s) :
    Evolves s0 (wakeUp s) := by
  unfold wakeUp
  exact leaveStandby_ev (wakeIdle_ev h)

end Sys2Proof.Machine
end

