-- ==== Sys2Proof/Laws/EvolvesDevice.lean ====
section
/-! SUPPORT. `Evolves`: one lemma for each operation of frames, events, the card and tag, tamper, flash and start-up. Each
says that what `Evolves` keeps up to the state the operation begins with, it keeps up to the state the operation leaves. -/

namespace Sys2Proof.Machine

theorem putLine_ev {s0 s : State} {m l} (h : Evolves s0 s) :
    Evolves s0 (putLine s m l) := by
  unfold putLine
  repeat' first
    | with_reducible assumption
    | fail_if_no_progress extract_lets -underBinder +onlyGivenNames _x
    | fail_if_no_progress with_reducible refine Evolves.upd ?_

theorem putFrame_ev {s0 s : State} {m f} (h : Evolves s0 s) :
    Evolves s0 (putFrame s m f) := by
  unfold putFrame
  repeat' first
    | with_reducible assumption
    | (fail_if_no_progress extract_lets -underBinder +onlyGivenNames x)
      refine (fun (hx : Evolves s0 x) => ?_ : Evolves s0 x → _) ?_
      (on_goal 1 => clear_value x)
      (on_goal 2 => simp -zeta only [x])
    | fail_if_no_progress extract_lets -underBinder +onlyGivenNames _x
    | with_reducible refine Evolves.ite ?_ ?_
    | with_reducible refine putLine_ev ?_
    | with_reducible refine emit_ev ?_

theorem sendOn_ev {s0 s : State} {m f} (h : Evolves s0 s) :
    Evolves s0 (sendOn s m f) := by
  unfold sendOn
  repeat' first
    | with_reducible assumption
    | fail_if_no_progress extract_lets -underBinder +onlyGivenNames _x
    | with_reducible refine Evolves.ite ?_ ?_
    | with_reducible refine putLine_ev ?_
    | with_reducible refine putFrame_ev ?_

theorem flood_ev {s0 s : State} {except f} (h : Evolves s0 s) :
    Evolves s0 (flood s except f) := by
  unfold flood
  repeat' first
    | with_reducible assumption
    | with_reducible refine sendOn_ev ?_
    | with_reducible refine Evolves.foldl ?_ ?_
    | intro _

theorem sendMarks_ev {s0 s : State} {except second delay} (h : Evolves s0 s) :
    Evolves s0 (sendMarks s except second delay) := by
  unfold sendMarks
  exact flood_ev h

theorem crcFailed_ev {s0 s : State} {m} (h : Evolves s0 s) :
    Evolves s0 (crcFailed s m) := by
  unfold crcFailed
  repeat' first
    | with_reducible assumption
    | (fail_if_no_progress extract_lets -underBinder +onlyGivenNames x)
      refine (fun (hx : Evolves s0 x) => ?_ : Evolves s0 x → _) ?_
      (on_goal 1 => clear_value x)
      (on_goal 2 => simp -zeta only [x])
    | fail_if_no_progress extract_lets -underBinder +onlyGivenNames _x
    | with_reducible refine Evolves.ite ?_ ?_
    | with_reducible refine putLine_ev ?_
    | with_reducible refine emit_ev ?_

theorem received_ev {s0 s : State} {m flits} (h : Evolves s0 s) :
    Evolves s0 (received s m flits) := by
  unfold received
  repeat' first
    | with_reducible assumption
    | (fail_if_no_progress extract_lets -underBinder +onlyGivenNames x)
      refine (fun (hx : Evolves s0 x) => ?_ : Evolves s0 x → _) ?_
      (on_goal 1 => clear_value x)
      (on_goal 2 => simp -zeta only [x])
    | fail_if_no_progress extract_lets -underBinder +onlyGivenNames _x
    | with_reducible refine putLine_ev ?_
    | with_reducible refine emit_ev ?_

theorem drainWaiting_ev {s0 x0 : State} {x1 x2} (hs0 : Evolves s0 x0) :
    Evolves s0 (drainWaiting x0 x1 x2) := by
  induction x2 generalizing x0 with
  | zero => exact hs0
  | succ n ih =>
    unfold drainWaiting
    repeat' first
      | with_reducible refine ih ?_
      | with_reducible assumption
      | fail_if_no_progress extract_lets -underBinder +onlyGivenNames _x
      | with_reducible refine Evolves.ite ?_ ?_
      | with_reducible refine putFrame_ev ?_
      | with_reducible refine putLine_ev ?_
      | split

theorem sendTo_ev {s0 s : State} {n f} (h : Evolves s0 s) :
    Evolves s0 (sendTo s n f) := by
  unfold sendTo
  repeat' first
    | with_reducible assumption
    | with_reducible refine sendOn_ev ?_
    | split

theorem firePeriodic_ev {s0 s : State} {i} (h : Evolves s0 s) :
    Evolves s0 (firePeriodic s i) := by
  unfold firePeriodic
  repeat' first
    | with_reducible assumption
    | (fail_if_no_progress extract_lets -underBinder +onlyGivenNames x)
      refine (fun (hx : Evolves s0 x) => ?_ : Evolves s0 x → _) ?_
      (on_goal 1 => clear_value x)
      (on_goal 2 => simp -zeta only [x])
    | fail_if_no_progress extract_lets -underBinder +onlyGivenNames _x
    | with_reducible refine Evolves.ite ?_ ?_
    | with_reducible refine makeSeal_ev ?_
    | with_reducible refine wakeIdle_ev ?_
    | with_reducible refine putLog_ev ?_
    | split

theorem rotateLog_ev {s0 s : State} {i pos} (h : Evolves s0 s) :
    Evolves s0 (rotateLog s i pos) := by
  unfold rotateLog
  exact beginKeyRec_ev (drawAuditKey_ev (makeSeal_ev h))

theorem reseedFire_ev {s0 s : State} {c} (h : Evolves s0 s) :
    Evolves s0 (reseedFire s c) := by
  unfold reseedFire
  repeat' first
    | with_reducible assumption
    | with_reducible refine Evolves.ite ?_ ?_
    | with_reducible refine demandReseed_ev ?_
    | with_reducible refine Evolves.foldl ?_ ?_
    | intro _

theorem fireAction_ev {s0 s : State} {e pos} (h : Evolves s0 s) :
    Keeps inOpt s0 (fireAction s e pos) := by
  unfold fireAction
  repeat' first
    | with_reducible assumption
    | fail_if_no_progress extract_lets -underBinder +onlyGivenNames _x
    | with_reducible refine Evolves.ite ?_ ?_
    | with_reducible refine Keeps.ite ?_ ?_
    | with_reducible refine makeSeal_ev ?_
    | with_reducible refine dropPrev_ev ?_
    | with_reducible refine activateKey_ev ?_
    | with_reducible refine rotateLog_ev ?_
    | with_reducible refine reseedFire_ev ?_
    | with_reducible refine skipTest_ev ?_
    | with_reducible refine fieldTestFire_ev ?_
    | with_reducible refine wakeUp_ev ?_
    | with_reducible refine setEvent_ev ?_
    | with_reducible refine Keeps.mkSome ?_
    | with_reducible refine Keeps.mkNone
    | split

theorem stepSeals_ev {s0 s : State} {m} (h : Evolves s0 s) :
    Evolves s0 (stepSeals s m) := by
  unfold stepSeals
  repeat' first
    | with_reducible assumption
    | with_reducible refine Evolves.ite ?_ ?_
    | with_reducible refine makeSeal_ev ?_
    | with_reducible refine Evolves.foldl ?_ ?_
    | intro _

theorem armOwn_ev {s0 s : State} (h : Evolves s0 s) :
    Evolves s0 (armOwn s) := by
  unfold armOwn
  repeat' first
    | with_reducible assumption
    | (fail_if_no_progress extract_lets -underBinder +onlyGivenNames x)
      refine (fun (hx : Evolves s0 x) => ?_ : Evolves s0 x → _) ?_
      (on_goal 1 => clear_value x)
      (on_goal 2 => simp -zeta only [x])
    | fail_if_no_progress extract_lets -underBinder +onlyGivenNames _x
    | with_reducible refine putEvt_ev ?_

theorem firedEvent_ev {s0 s : State} (h : Evolves s0 s) :
    Evolves s0 (firedEvent s) := by
  unfold firedEvent
  exact setEvent_ev h

theorem fireEntry_ev {s0 s : State} {n} (h : Evolves s0 s) :
    Evolves s0 (fireEntry s n) := by
  unfold fireEntry
  repeat' first
    | with_reducible assumption
    | (fail_if_no_progress extract_lets -underBinder +onlyGivenNames x)
      refine (fun (hx : Evolves s0 x) => ?_ : Evolves s0 x → _) ?_
      (on_goal 1 => clear_value x)
      (on_goal 2 => simp -zeta only [x])
    | fail_if_no_progress extract_lets -underBinder +onlyGivenNames _x
    | with_reducible refine Evolves.ite ?_ ?_
    | with_reducible refine wakeIdle_ev ?_
    | with_reducible refine fireAction_ev ?_
    | with_reducible refine firedEvent_ev ?_
    | with_reducible refine putEvt_ev ?_
    | with_reducible refine Keeps.ofSome (by assumption) ?_
    | split

theorem catchOne_ev {s0 s : State} {x} (h : Evolves s0 s) :
    Evolves s0 (catchOne s x) := by
  unfold catchOne
  repeat' first
    | with_reducible assumption
    | with_reducible refine Evolves.ite ?_ ?_
    | with_reducible refine armLowest_ev ?_
    | with_reducible refine fireEntry_ev ?_
    | with_reducible refine putEvt_ev ?_
    | with_reducible refine fireAction_ev ?_
    | with_reducible refine Keeps.ofSome (by assumption) ?_
    | split

theorem firstPulse_ev {s0 s : State} (h : Evolves s0 s) :
    Evolves s0 (firstPulse s) := by
  unfold firstPulse
  repeat' first
    | with_reducible assumption
    | (fail_if_no_progress extract_lets -underBinder +onlyGivenNames x)
      refine (fun (hx : Evolves s0 x) => ?_ : Evolves s0 x → _) ?_
      (on_goal 1 => clear_value x)
      (on_goal 2 => simp -zeta only [x])
    | with_reducible refine armOwn_ev ?_
    | with_reducible refine catchOne_ev ?_
    | with_reducible refine Evolves.foldl ?_ ?_
    | intro _

theorem acceptPulse_ev {s0 s : State} {num} (h : Evolves s0 s) :
    Evolves s0 (acceptPulse s num) := by
  unfold acceptPulse
  repeat' first
    | with_reducible assumption
    | fail_if_no_progress extract_lets -underBinder +onlyGivenNames _x
    | with_reducible refine Evolves.ite ?_ ?_
    | with_reducible refine stepSeals_ev ?_
    | with_reducible refine setEvent_ev ?_
    | with_reducible refine writeAnchor_ev ?_
    | with_reducible refine firstPulse_ev ?_
    | with_reducible refine sendMarks_ev ?_
    | fail_if_no_progress with_reducible refine Evolves.upd ?_

theorem pulse_ev {s0 s : State} {own} (h : Evolves s0 s) :
    Evolves s0 (pulse s own) := by
  unfold pulse
  repeat' first
    | with_reducible assumption
    | (fail_if_no_progress extract_lets -underBinder +onlyGivenNames x)
      refine (fun (hx : Evolves s0 x) => ?_ : Evolves s0 x → _) ?_
      (on_goal 1 => clear_value x)
      (on_goal 2 => simp -zeta only [x])
    | fail_if_no_progress extract_lets -underBinder +onlyGivenNames _x
    | with_reducible refine Evolves.ite ?_ ?_
    | with_reducible refine enterAdrift_ev ?_
    | with_reducible refine glitch_ev ?_
    | with_reducible refine todError_ev ?_
    | with_reducible refine acceptPulse_ev ?_
    | fail_if_no_progress with_reducible refine Evolves.upd ?_

theorem execTetherStrobe_ev {s0 s : State} {acc a1} (h : Evolves s0 s) :
    Keeps inOut s0 (execTetherStrobe acc a1 s) := by
  unfold execTetherStrobe
  exact Keeps.next (Evolves.ite (pulse_ev h) h)

theorem evtResult_ev {s0 s : State} {acc r} (h : Evolves s0 s) :
    Evolves s0 (evtResult s acc r) := by
  unfold evtResult
  repeat' first
    | with_reducible assumption
    | intro h
      first | exact h | exact tset_wf h _ _ | exact tdel_wf h _ | exact filter_wf h _ | exact tmap_wf h _
            | exact rising_tput h _ (by simp) | exact rising_foldl_tput h _ _ _ | exact rising_tdel h _
            | exact rising_map h _ fun e => by split <;> rfl
    | (fail_if_success (with_reducible refine Evolves.upd ?_))
      with_reducible refine Evolves.updTabs ?_ ?_ ?_ ?_ ?_ ?_ ?_ ?_ ?_ ?_ ?_ ?_ ?_ ?_

theorem execTetherAdrift_ev {s0 s : State} (h : Evolves s0 s) :
    Keeps inOut s0 (execTetherAdrift s) := by
  unfold execTetherAdrift
  exact Keeps.next (Evolves.ite (enterAdrift_ev h) h)

theorem clearEntry_ev {s0 s : State} {acc} (h : Evolves s0 s) :
    Evolves s0 (clearEntry s acc) := by
  unfold clearEntry
  repeat' first
    | with_reducible assumption
    | fail_if_no_progress extract_lets -underBinder +onlyGivenNames _x
    | with_reducible refine Evolves.ite ?_ ?_
    | with_reducible refine evtResult_ev ?_
    | with_reducible refine putEvt_ev ?_

theorem execEventClear_ev {s0 s : State} {acc} (h : Evolves s0 s) :
    Keeps inOut s0 (execEventClear acc s) := by
  unfold execEventClear
  exact Keeps.next (Evolves.ite (clearEntry_ev h) h)

theorem endCatchup_ev {s0 s : State} (h : Evolves s0 s) :
    Evolves s0 (endCatchup s) := by
  unfold endCatchup
  repeat' first
    | with_reducible assumption
    | fail_if_no_progress extract_lets -underBinder +onlyGivenNames _x
    | with_reducible refine Evolves.ite ?_ ?_
    | fail_if_no_progress with_reducible refine Evolves.upd ?_

theorem execCatchupEnd_ev {s0 s : State} (h : Evolves s0 s) :
    Keeps inOut s0 (execCatchupEnd s) := by
  unfold execCatchupEnd
  exact Keeps.next (endCatchup_ev h)

theorem writeNextSec_ev {s0 s : State} {v} (h : Evolves s0 s) :
    Evolves s0 (writeNextSec s v) := by
  unfold writeNextSec
  repeat' first
    | with_reducible assumption
    | fail_if_no_progress extract_lets -underBinder +onlyGivenNames _x
    | with_reducible refine Evolves.ite ?_ ?_
    | with_reducible refine setNumber_ev ?_
    | fail_if_no_progress with_reducible refine Evolves.upd ?_

theorem disarmEntry_ev {s0 s : State} {acc} (h : Evolves s0 s) :
    Evolves s0 (disarmEntry s acc) := by
  unfold disarmEntry
  repeat' first
    | with_reducible assumption
    | fail_if_no_progress extract_lets -underBinder +onlyGivenNames _x
    | with_reducible refine Evolves.ite ?_ ?_
    | with_reducible refine evtResult_ev ?_
    | with_reducible refine putEvt_ev ?_

theorem todFrame_ev {s0 s : State} {chars bad} (h : Evolves s0 s) :
    Evolves s0 (todFrame s chars bad) := by
  unfold todFrame
  repeat' first
    | with_reducible assumption
    | (fail_if_no_progress extract_lets -underBinder +onlyGivenNames x)
      refine (fun (hx : Evolves s0 x) => ?_ : Evolves s0 x → _) ?_
      (on_goal 1 => clear_value x)
      (on_goal 2 => simp -zeta only [x])
    | fail_if_no_progress extract_lets -underBinder +onlyGivenNames _x
    | with_reducible refine Evolves.ite ?_ ?_
    | with_reducible refine todError_ev ?_
    | with_reducible refine setNumber_ev ?_
    | fail_if_no_progress with_reducible refine Evolves.upd ?_

theorem execTetherNextSec_ev {s0 s : State} {acc value} (h : Evolves s0 s) :
    Keeps inOut s0 (execTetherNextSec acc value s) := by
  unfold execTetherNextSec
  exact Keeps.next (Evolves.ite (writeNextSec_ev h) h)

theorem armEntry_ev {s0 s : State} {acc} (h : Evolves s0 s) :
    Evolves s0 (armEntry s acc) := by
  unfold armEntry
  repeat' first
    | with_reducible assumption
    | fail_if_no_progress extract_lets -underBinder +onlyGivenNames _x
    | with_reducible refine Evolves.ite ?_ ?_
    | with_reducible refine evtResult_ev ?_
    | with_reducible refine putEvt_ev ?_

theorem execPeriodicSealFire_ev {s0 s : State} {inst} (h : Evolves s0 s) :
    Keeps inOut s0 (execPeriodicSealFire inst s) := by
  unfold execPeriodicSealFire
  exact Keeps.next (firePeriodic_ev h)

theorem todIdle_ev {s0 s : State} (h : Evolves s0 s) :
    Evolves s0 (todIdle s) := by
  unfold todIdle
  repeat' first
    | with_reducible assumption
    | fail_if_no_progress extract_lets -underBinder +onlyGivenNames _x
    | with_reducible refine Evolves.ite ?_ ?_
    | with_reducible refine todError_ev ?_
    | fail_if_no_progress with_reducible refine Evolves.upd ?_

theorem execEventFire_ev {s0 s : State} {index} (h : Evolves s0 s) :
    Keeps inOut s0 (execEventFire index s) := by
  unfold execEventFire
  exact Keeps.next (Evolves.ite (fireEntry_ev h) h)

theorem ppsPulse_ev {s0 s : State} {rising held} (h : Evolves s0 s) :
    Evolves s0 (ppsPulse s rising held) := by
  unfold ppsPulse
  exact Evolves.ite h (Evolves.ite (glitch_ev h) (pulse_ev h))

theorem execTetherPpsPulse_ev {s0 s : State} {rising held} (h : Evolves s0 s) :
    Keeps inOut s0 (execTetherPpsPulse rising held s) := by
  unfold execTetherPpsPulse
  exact Keeps.next (ppsPulse_ev h)

theorem execDisarm_ev {s0 s : State} {acc} (h : Evolves s0 s) :
    Keeps inOut s0 (execDisarm acc s) := by
  unfold execDisarm
  exact Keeps.next (Evolves.ite (disarmEntry_ev h) h)

theorem execTodIdleExpiry_ev {s0 s : State} (h : Evolves s0 s) :
    Keeps inOut s0 (execTodIdleExpiry s) := by
  unfold execTodIdleExpiry
  exact Keeps.next (todIdle_ev h)

theorem mark_ev {s0 s : State} {m second delay} (h : Evolves s0 s) :
    Evolves s0 (mark s m second delay) := by
  unfold mark
  repeat' first
    | with_reducible assumption
    | (fail_if_no_progress extract_lets -underBinder +onlyGivenNames x)
      refine (fun (hx : Evolves s0 x) => ?_ : Evolves s0 x → _) ?_
      (on_goal 1 => clear_value x)
      (on_goal 2 => simp -zeta only [x])
    | fail_if_no_progress extract_lets -underBinder +onlyGivenNames _x
    | with_reducible refine Evolves.ite ?_ ?_
    | with_reducible refine received_ev ?_
    | with_reducible refine pulse_ev ?_
    | with_reducible refine sendMarks_ev ?_
    | fail_if_no_progress with_reducible refine Evolves.upd ?_

theorem execTetherMark_ev {s0 s : State} {line second delay} (h : Evolves s0 s) :
    Keeps inOut s0 (execTetherMark line second delay s) := by
  unfold execTetherMark
  exact Keeps.next (mark_ev h)

theorem execTetherTodFrame_ev {s0 s : State} {chars bad} (h : Evolves s0 s) :
    Keeps inOut s0 (execTetherTodFrame chars bad s) := by
  unfold execTetherTodFrame
  exact Keeps.next (todFrame_ev h)

theorem writeEvtCtrl_ev {s0 s : State} {acc v} (h : Evolves s0 s) :
    Evolves s0 (writeEvtCtrl s acc v) := by
  unfold writeEvtCtrl
  repeat' first
    | with_reducible assumption
    | with_reducible refine armEntry_ev ?_
    | with_reducible refine disarmEntry_ev ?_
    | with_reducible refine clearEntry_ev ?_
    | split

theorem execArm_ev {s0 s : State} {acc} (h : Evolves s0 s) :
    Keeps inOut s0 (execArm acc s) := by
  unfold execArm
  exact Keeps.next (Evolves.ite (armEntry_ev h) h)

theorem putTxn_ev {s0 s : State} {t} (h : Evolves s0 s) :
    Evolves s0 (putTxn s t) := by
  unfold putTxn
  repeat' first
    | with_reducible assumption
    | fail_if_no_progress extract_lets -underBinder +onlyGivenNames _x
    | fail_if_no_progress with_reducible refine Evolves.upd ?_

theorem sendRequest_ev {s0 s : State} {t} (h : Evolves s0 s) :
    Evolves s0 (sendRequest s t) := by
  unfold sendRequest
  exact emit_ev (putTxn_ev h)

theorem bringStep_ev {s0 s : State} {k op arg} (h : Evolves s0 s) :
    Evolves s0 (bringStep s k op arg) := by
  unfold bringStep
  exact sendRequest_ev h

theorem putCardSlot_ev {s0 s : State} {k x} (h : Evolves s0 s) :
    Evolves s0 (putCardSlot s k x) := by
  unfold putCardSlot
  repeat' first
    | with_reducible assumption
    | fail_if_no_progress extract_lets -underBinder +onlyGivenNames _x
    | fail_if_no_progress with_reducible refine Evolves.upd ?_

theorem beginCard_ev {s0 s : State} {a op slot record} (h : Evolves s0 s) :
    Evolves s0 (beginCard s a op slot record) := by
  unfold beginCard
  repeat' first
    | with_reducible assumption
    | (fail_if_no_progress extract_lets -underBinder +onlyGivenNames x)
      refine (fun (hx : Evolves s0 x) => ?_ : Evolves s0 x → _) ?_
      (on_goal 1 => clear_value x)
      (on_goal 2 => simp -zeta only [x])
    | fail_if_no_progress extract_lets -underBinder +onlyGivenNames _x
    | with_reducible refine Evolves.ite ?_ ?_
    | with_reducible refine sendRequest_ev ?_
    | fail_if_no_progress with_reducible refine Evolves.upd ?_
    | split

theorem cardNext_ev {s0 s : State} (h : Evolves s0 s) :
    Evolves s0 (cardNext s) := by
  unfold cardNext
  repeat' first
    | with_reducible assumption
    | fail_if_no_progress extract_lets -underBinder +onlyGivenNames _x
    | with_reducible refine Evolves.ite ?_ ?_
    | with_reducible refine bringStep_ev ?_
    | with_reducible refine putCardSlot_ev ?_
    | with_reducible refine beginCard_ev ?_
    | split

theorem finishBringUp_ev {s0 s : State} (h : Evolves s0 s) :
    Evolves s0 (finishBringUp s) := by
  unfold finishBringUp
  repeat' first
    | with_reducible assumption
    | fail_if_no_progress extract_lets -underBinder +onlyGivenNames _x
    | with_reducible refine cardNext_ev ?_
    | fail_if_no_progress with_reducible refine Evolves.upd ?_

theorem parkCard_ev {s0 s : State} {k} (h : Evolves s0 s) :
    Evolves s0 (parkCard s k) := by
  unfold parkCard
  repeat' first
    | with_reducible assumption
    | (fail_if_no_progress extract_lets -underBinder +onlyGivenNames x)
      refine (fun (hx : Evolves s0 x) => ?_ : Evolves s0 x → _) ?_
      (on_goal 1 => clear_value x)
      (on_goal 2 => simp -zeta only [x])
    | fail_if_no_progress extract_lets -underBinder +onlyGivenNames _x
    | with_reducible refine emit_ev ?_
    | with_reducible refine setEvent_ev ?_
    | with_reducible refine putTxn_ev ?_
    | with_reducible refine putCardSlot_ev ?_

theorem putCardAcc_ev {s0 s : State} {a x} (h : Evolves s0 s) :
    Evolves s0 (putCardAcc s a x) := by
  unfold putCardAcc
  repeat' first
    | with_reducible assumption
    | fail_if_no_progress extract_lets -underBinder +onlyGivenNames _x
    | fail_if_no_progress with_reducible refine Evolves.upd ?_

theorem endCard_ev {s0 s : State} {a op slot code} (h : Evolves s0 s) :
    Evolves s0 (endCard s a op slot code) := by
  unfold endCard
  repeat' first
    | with_reducible assumption
    | (fail_if_no_progress extract_lets -underBinder +onlyGivenNames x)
      refine (fun (hx : Evolves s0 x) => ?_ : Evolves s0 x → _) ?_
      (on_goal 1 => clear_value x)
      (on_goal 2 => simp -zeta only [x])
    | fail_if_no_progress extract_lets -underBinder +onlyGivenNames _x
    | with_reducible refine Evolves.ite ?_ ?_
    | with_reducible refine putCardAcc_ev ?_
    | with_reducible refine setEvent_ev ?_
    | fail_if_no_progress with_reducible refine Evolves.upd ?_

theorem finishCard_ev {s0 s : State} {code} (h : Evolves s0 s) :
    Evolves s0 (finishCard s code) := by
  unfold finishCard
  repeat' first
    | with_reducible assumption
    | fail_if_no_progress extract_lets -underBinder +onlyGivenNames _x
    | with_reducible refine putTxn_ev ?_
    | with_reducible refine cardNext_ev ?_
    | with_reducible refine endCard_ev ?_
    | fail_if_no_progress with_reducible refine Evolves.upd ?_
    | split

theorem cardFails_ev {s0 s : State} {t code} (h : Evolves s0 s) :
    Evolves s0 (cardFails s t code) := by
  unfold cardFails
  repeat' first
    | with_reducible assumption
    | with_reducible refine finishBringUp_ev ?_
    | with_reducible refine parkCard_ev ?_
    | with_reducible refine finishCard_ev ?_
    | split

theorem writeCardCmd_ev {s0 s : State} {acc v} (h : Evolves s0 s) :
    Evolves s0 (writeCardCmd s acc v) := by
  unfold writeCardCmd
  repeat' first
    | with_reducible assumption
    | (fail_if_no_progress extract_lets -underBinder +onlyGivenNames x)
      refine (fun (hx : Evolves s0 x) => ?_ : Evolves s0 x → _) ?_
      (on_goal 1 => clear_value x)
      (on_goal 2 => simp -zeta only [x])
    | fail_if_no_progress extract_lets -underBinder +onlyGivenNames _x
    | with_reducible refine Evolves.ite ?_ ?_
    | with_reducible refine putCardAcc_ev ?_
    | with_reducible refine endCard_ev ?_
    | with_reducible refine wakeIdle_ev ?_
    | with_reducible refine cardNext_ev ?_
    | fail_if_no_progress with_reducible refine Evolves.upd ?_

theorem cardGo_ev {s0 s : State} {acc op slot record} (h : Evolves s0 s) :
    Evolves s0 (cardGo s acc op slot record) := by
  unfold cardGo
  exact Evolves.ite (writeCardCmd_ev h) h

theorem execUnlock_ev {s0 s : State} {acc slot} (h : Evolves s0 s) :
    Keeps inOut s0 (execUnlock acc slot s) := by
  unfold execUnlock
  exact Keeps.next (cardGo_ev h)

theorem powerDown_ev {s0 s : State} {k} (h : Evolves s0 s) :
    Evolves s0 (powerDown s k) := by
  unfold powerDown
  repeat' first
    | with_reducible assumption
    | fail_if_no_progress extract_lets -underBinder +onlyGivenNames _x
    | with_reducible refine putCardSlot_ev ?_

theorem endWaiting_ev {s0 s : State} {code p} (h : Evolves s0 s) :
    Evolves s0 (endWaiting s code p) := by
  unfold endWaiting
  repeat' first
    | with_reducible assumption
    | fail_if_no_progress extract_lets -underBinder +onlyGivenNames _x
    | with_reducible refine endCard_ev ?_
    | with_reducible refine Evolves.foldl ?_ ?_
    | fail_if_no_progress with_reducible refine Evolves.upd ?_
    | intro _

theorem removeSlots_ev {s0 s : State} {ks} (h : Evolves s0 s) :
    Evolves s0 (removeSlots s ks) := by
  unfold removeSlots
  repeat' first
    | with_reducible assumption
    | (fail_if_no_progress extract_lets -underBinder +onlyGivenNames x)
      refine (fun (hx : Evolves s0 x) => ?_ : Evolves s0 x → _) ?_
      (on_goal 1 => clear_value x)
      (on_goal 2 => simp -zeta only [x])
    | fail_if_no_progress extract_lets -underBinder +onlyGivenNames _x
    | with_reducible refine Evolves.ite ?_ ?_
    | with_reducible refine powerDown_ev ?_
    | with_reducible refine sendRequest_ev ?_
    | with_reducible refine putTxn_ev ?_
    | with_reducible refine endCard_ev ?_
    | with_reducible refine cardNext_ev ?_
    | with_reducible refine setEvent_ev ?_
    | with_reducible refine endWaiting_ev ?_
    | with_reducible refine Evolves.foldl ?_ ?_
    | fail_if_no_progress with_reducible refine Evolves.upd ?_
    | intro _
    | split

theorem slotRemoval_ev {s0 s : State} {ks} (h : Evolves s0 s) :
    Evolves s0 (slotRemoval s ks) := by
  unfold slotRemoval
  repeat' first
    | with_reducible assumption
    | fail_if_no_progress extract_lets -underBinder +onlyGivenNames _x
    | with_reducible refine Evolves.ite ?_ ?_
    | with_reducible refine removeSlots_ev ?_
    | with_reducible refine putCardSlot_ev ?_
    | with_reducible refine Evolves.foldl ?_ ?_
    | intro _

theorem execSlotRemoval_ev {s0 s : State} {slots} (h : Evolves s0 s) :
    Keeps inOut s0 (execSlotRemoval slots s) := by
  unfold execSlotRemoval
  exact Keeps.next (slotRemoval_ev h)

theorem slotPresent_ev {s0 s : State} {k} (h : Evolves s0 s) :
    Evolves s0 (slotPresent s k) := by
  unfold slotPresent
  repeat' first
    | with_reducible assumption
    | (fail_if_no_progress extract_lets -underBinder +onlyGivenNames x)
      refine (fun (hx : Evolves s0 x) => ?_ : Evolves s0 x → _) ?_
      (on_goal 1 => clear_value x)
      (on_goal 2 => simp -zeta only [x])
    | fail_if_no_progress extract_lets -underBinder +onlyGivenNames _x
    | with_reducible refine Evolves.ite ?_ ?_
    | with_reducible refine putCardSlot_ev ?_
    | with_reducible refine cardNext_ev ?_
    | fail_if_no_progress with_reducible refine Evolves.upd ?_

theorem execSlotPresent_ev {s0 s : State} {slot} (h : Evolves s0 s) :
    Keeps inOut s0 (execSlotPresent slot s) := by
  unfold execSlotPresent
  exact Keeps.next (slotPresent_ev h)

theorem cardBusyEnd_ev {s0 s : State} (h : Evolves s0 s) :
    Evolves s0 (cardBusyEnd s) := by
  unfold cardBusyEnd
  repeat' first
    | with_reducible assumption
    | (fail_if_no_progress extract_lets -underBinder +onlyGivenNames x)
      refine (fun (hx : Evolves s0 x) => ?_ : Evolves s0 x → _) ?_
      (on_goal 1 => clear_value x)
      (on_goal 2 => simp -zeta only [x])
    | fail_if_no_progress extract_lets -underBinder +onlyGivenNames _x
    | with_reducible refine Evolves.ite ?_ ?_
    | with_reducible refine putCardAcc_ev ?_
    | with_reducible refine finishCard_ev ?_
    | with_reducible refine splitWrote_ev ?_
    | with_reducible refine putCardSlot_ev ?_
    | split

theorem execStatus_ev {s0 s : State} {acc slot} (h : Evolves s0 s) :
    Keeps inOut s0 (execStatus acc slot s) := by
  unfold execStatus
  exact Keeps.next (cardGo_ev h)

theorem execLock_ev {s0 s : State} {acc slot} (h : Evolves s0 s) :
    Keeps inOut s0 (execLock acc slot s) := by
  unfold execLock
  exact Keeps.next (cardGo_ev h)

theorem recordRead_ev {s0 s : State} {t a b} (h : Evolves s0 s) :
    Evolves s0 (recordRead s t a b) := by
  unfold recordRead
  repeat' first
    | with_reducible assumption
    | (fail_if_no_progress extract_lets -underBinder +onlyGivenNames x)
      refine (fun (hx : Evolves s0 x) => ?_ : Evolves s0 x → _) ?_
      (on_goal 1 => clear_value x)
      (on_goal 2 => simp -zeta only [x])
    | fail_if_no_progress extract_lets -underBinder +onlyGivenNames _x
    | with_reducible refine Evolves.ite ?_ ?_
    | with_reducible refine putCardAcc_ev ?_
    | with_reducible refine takeShare_ev ?_
    | with_reducible refine splitRead_ev ?_
    | fail_if_no_progress with_reducible refine Evolves.upd ?_
    | split

theorem ripcordCards_ev {s0 s : State} (h : Evolves s0 s) :
    Evolves s0 (ripcordCards s) := by
  unfold ripcordCards
  repeat' first
    | with_reducible assumption
    | (fail_if_no_progress extract_lets -underBinder +onlyGivenNames x)
      refine (fun (hx : Evolves s0 x) => ?_ : Evolves s0 x → _) ?_
      (on_goal 1 => clear_value x)
      (on_goal 2 => simp -zeta only [x])
    | fail_if_no_progress extract_lets -underBinder +onlyGivenNames _x
    | with_reducible refine Evolves.ite ?_ ?_
    | with_reducible refine endWaiting_ev ?_
    | with_reducible refine putTxn_ev ?_
    | with_reducible refine powerDown_ev ?_
    | with_reducible refine setEvent_ev ?_
    | with_reducible refine Evolves.foldl ?_ ?_
    | fail_if_no_progress with_reducible refine Evolves.upd ?_
    | intro _

theorem cardRetry_ev {s0 s : State} {t} (h : Evolves s0 s) :
    Evolves s0 (cardRetry s t) := by
  unfold cardRetry
  repeat' first
    | with_reducible assumption
    | (fail_if_no_progress extract_lets -underBinder +onlyGivenNames x)
      refine (fun (hx : Evolves s0 x) => ?_ : Evolves s0 x → _) ?_
      (on_goal 1 => clear_value x)
      (on_goal 2 => simp -zeta only [x])
    | with_reducible refine Evolves.ite ?_ ?_
    | with_reducible refine charge_ev ?_
    | with_reducible refine cardFails_ev ?_
    | with_reducible refine sendRequest_ev ?_

theorem cardBlock_ev {s0 s : State} {data crc} (h : Evolves s0 s) :
    Evolves s0 (cardBlock s data crc) := by
  unfold cardBlock
  repeat' first
    | with_reducible assumption
    | fail_if_no_progress extract_lets -underBinder +onlyGivenNames _x
    | with_reducible refine Evolves.ite ?_ ?_
    | with_reducible refine cardRetry_ev ?_
    | with_reducible refine bringStep_ev ?_
    | with_reducible refine putCardSlot_ev ?_
    | with_reducible refine finishCard_ev ?_
    | with_reducible refine recordRead_ev ?_
    | split

theorem overcurrent_ev {s0 s : State} {k} (h : Evolves s0 s) :
    Evolves s0 (overcurrent s k) := by
  unfold overcurrent
  repeat' first
    | with_reducible assumption
    | fail_if_no_progress extract_lets -underBinder +onlyGivenNames _x
    | with_reducible refine Evolves.ite ?_ ?_
    | with_reducible refine removeSlots_ev ?_
    | with_reducible refine putCardSlot_ev ?_

theorem cardRefuses_ev {s0 s : State} {t status} (h : Evolves s0 s) :
    Evolves s0 (cardRefuses s t status) := by
  unfold cardRefuses
  exact Evolves.ite (sendRequest_ev h) (cardFails_ev h)

theorem noteStatus_ev {s0 s : State} {k data} (h : Evolves s0 s) :
    Evolves s0 (noteStatus s k data) := by
  unfold noteStatus
  repeat' first
    | with_reducible assumption
    | fail_if_no_progress extract_lets -underBinder +onlyGivenNames _x
    | with_reducible refine putCardSlot_ev ?_

theorem bringReply_ev {s0 s : State} {t data} (h : Evolves s0 s) :
    Evolves s0 (bringReply s t data) := by
  unfold bringReply
  repeat' first
    | with_reducible assumption
    | (fail_if_no_progress extract_lets -underBinder +onlyGivenNames x)
      refine (fun (hx : Evolves s0 x) => ?_ : Evolves s0 x → _) ?_
      (on_goal 1 => clear_value x)
      (on_goal 2 => simp -zeta only [x])
    | fail_if_no_progress extract_lets -underBinder +onlyGivenNames _x
    | with_reducible refine bringStep_ev ?_
    | with_reducible refine putCardSlot_ev ?_
    | with_reducible refine putTxn_ev ?_
    | with_reducible refine finishBringUp_ev ?_
    | with_reducible refine setEvent_ev ?_
    | with_reducible refine noteStatus_ev ?_
    | fail_if_no_progress with_reducible refine Evolves.upd ?_
    | split

theorem commandReply_ev {s0 s : State} {t data} (h : Evolves s0 s) :
    Evolves s0 (commandReply s t data) := by
  unfold commandReply
  exact Evolves.ite (putTxn_ev h) (Evolves.ite (emit_ev (putTxn_ev h)) (finishCard_ev (noteStatus_ev h)))

theorem cardReply_ev {s0 s : State} {addr status data crcOk} (h : Evolves s0 s) :
    Evolves s0 (cardReply s addr status data crcOk) := by
  unfold cardReply
  repeat' first
    | with_reducible assumption
    | with_reducible refine Evolves.ite ?_ ?_
    | with_reducible refine cardRetry_ev ?_
    | with_reducible refine cardRefuses_ev ?_
    | with_reducible refine putTxn_ev ?_
    | with_reducible refine bringReply_ev ?_
    | with_reducible refine commandReply_ev ?_
    | split

theorem execCardReply_ev {s0 s : State} {addr status data crcOk} (h : Evolves s0 s) :
    Keeps inOut s0 (execCardReply addr status data crcOk s) := by
  unfold execCardReply
  exact Keeps.next (cardReply_ev h)

theorem execSetPwd_ev {s0 s : State} {acc slot} (h : Evolves s0 s) :
    Keeps inOut s0 (execSetPwd acc slot s) := by
  unfold execSetPwd
  exact Keeps.next (cardGo_ev h)

theorem cardAbort_ev {s0 s : State} {acc v} (h : Evolves s0 s) :
    Evolves s0 (cardAbort s acc v) := by
  unfold cardAbort
  repeat' first
    | with_reducible assumption
    | fail_if_no_progress extract_lets -underBinder +onlyGivenNames _x
    | with_reducible refine Evolves.ite ?_ ?_
    | with_reducible refine finishCard_ev ?_
    | with_reducible refine endWaiting_ev ?_

theorem execForceErase_ev {s0 s : State} {acc slot} (h : Evolves s0 s) :
    Keeps inOut s0 (execForceErase acc slot s) := by
  unfold execForceErase
  exact Keeps.next (cardGo_ev h)

theorem execCcbOvercurrent_ev {s0 s : State} {slot} (h : Evolves s0 s) :
    Keeps inOut s0 (execCcbOvercurrent slot s) := by
  unfold execCcbOvercurrent
  exact Keeps.next (overcurrent_ev h)

theorem execCcbAbort_ev {s0 s : State} {acc value} (h : Evolves s0 s) :
    Keeps inOut s0 (execCcbAbort acc value s) := by
  unfold execCcbAbort
  exact Keeps.next (Evolves.ite (cardAbort_ev h) h)

theorem execCardBlock_ev {s0 s : State} {data crc} (h : Evolves s0 s) :
    Keeps inOut s0 (execCardBlock data crc s) := by
  unfold execCardBlock
  exact Keeps.next (cardBlock_ev h)

theorem execClrPwd_ev {s0 s : State} {acc slot} (h : Evolves s0 s) :
    Keeps inOut s0 (execClrPwd acc slot s) := by
  unfold execClrPwd
  exact Keeps.next (cardGo_ev h)

theorem execWriteRecord_ev {s0 s : State} {acc slot record} (h : Evolves s0 s) :
    Keeps inOut s0 (execWriteRecord acc slot record s) := by
  unfold execWriteRecord
  exact Keeps.next (cardGo_ev h)

theorem execCardBusyEnd_ev {s0 s : State} (h : Evolves s0 s) :
    Keeps inOut s0 (execCardBusyEnd s) := by
  unfold execCardBusyEnd
  exact Keeps.next (cardBusyEnd_ev h)

theorem execReadRecord_ev {s0 s : State} {acc slot record} (h : Evolves s0 s) :
    Keeps inOut s0 (execReadRecord acc slot record s) := by
  unfold execReadRecord
  exact Keeps.next (cardGo_ev h)

theorem putTag_ev {s0 s : State} {t} (h : Evolves s0 s) :
    Evolves s0 (putTag s t) := by
  unfold putTag
  exact Evolves.upd h

theorem otherFrame_ev {s0 s : State} (h : Evolves s0 s) :
    Evolves s0 (otherFrame s) := by
  unfold otherFrame
  repeat' first
    | with_reducible assumption
    | fail_if_no_progress extract_lets -underBinder +onlyGivenNames _x
    | with_reducible refine putTag_ev ?_
    | split

theorem hlta_ev {s0 s : State} (h : Evolves s0 s) :
    Evolves s0 (hlta s) := by
  unfold hlta
  repeat' first
    | with_reducible assumption
    | fail_if_no_progress extract_lets -underBinder +onlyGivenNames _x
    | with_reducible refine Evolves.ite ?_ ?_
    | with_reducible refine putTag_ev ?_
    | with_reducible refine otherFrame_ev ?_
    | split

theorem tagSeed_ev {s0 s : State} (h : Evolves s0 s) :
    Evolves s0 (tagSeed s) := by
  unfold tagSeed
  repeat' first
    | with_reducible assumption
    | with_reducible refine Keeps.snd (keelDraw_ev ?_)
    | with_reducible refine putTag_ev ?_

theorem tagEvent_ev {s0 s : State} {b} (h : Evolves s0 s) :
    Evolves s0 (tagEvent s b) := by
  unfold tagEvent
  exact Evolves.ite (setEvent_ev h) h

theorem abandonAppend_ev {s0 s : State} (h : Evolves s0 s) :
    Evolves s0 (abandonAppend s) := by
  unfold abandonAppend
  repeat' first
    | with_reducible assumption
    | (fail_if_no_progress extract_lets -underBinder +onlyGivenNames x)
      refine (fun (hx : Evolves s0 x) => ?_ : Evolves s0 x → _) ?_
      (on_goal 1 => clear_value x)
      (on_goal 2 => simp -zeta only [x])
    | fail_if_no_progress extract_lets -underBinder +onlyGivenNames _x
    | with_reducible refine Evolves.ite ?_ ?_
    | with_reducible refine putTag_ev ?_
    | with_reducible refine tagEvent_ev ?_
    | split

theorem tagVinLoss_ev {s0 s : State} (h : Evolves s0 s) :
    Evolves s0 (tagVinLoss s) := by
  unfold tagVinLoss
  repeat' first
    | with_reducible assumption
    | (fail_if_no_progress extract_lets -underBinder +onlyGivenNames x)
      refine (fun (hx : Evolves s0 x) => ?_ : Evolves s0 x → _) ?_
      (on_goal 1 => clear_value x)
      (on_goal 2 => simp -zeta only [x])
    | fail_if_no_progress extract_lets -underBinder +onlyGivenNames _x
    | with_reducible refine Evolves.ite ?_ ?_
    | with_reducible refine abandonAppend_ev ?_
    | with_reducible refine putTag_ev ?_
    | split

theorem rats_ev {s0 s : State} (h : Evolves s0 s) :
    Evolves s0 (rats s) := by
  unfold rats
  repeat' first
    | with_reducible assumption
    | fail_if_no_progress extract_lets -underBinder +onlyGivenNames _x
    | with_reducible refine Evolves.ite ?_ ?_
    | with_reducible refine emit_ev ?_
    | with_reducible refine putTag_ev ?_
    | with_reducible refine otherFrame_ev ?_
    | split

theorem execRats_ev {s0 s : State} {param crcOk} (h : Evolves s0 s) :
    Keeps inOut s0 (execRats param crcOk s) := by
  unfold execRats
  exact Keeps.next (Evolves.ite (rats_ev h) h)

theorem execFdWakeRelease_ev {s0 s : State} (h : Evolves s0 s) :
    Keeps inOut s0 (execFdWakeRelease s) := by
  unfold execFdWakeRelease
  repeat' first
    | with_reducible assumption
    | fail_if_no_progress extract_lets -underBinder +onlyGivenNames _x
    | with_reducible refine Evolves.ite ?_ ?_
    | with_reducible refine putTag_ev ?_
    | with_reducible refine Keeps.next ?_

theorem answer_ev {s0 s : State} {data sw} (h : Evolves s0 s) :
    Evolves s0 (answer s data sw) := by
  unfold answer
  exact emit_ev h

theorem answerMac_ev {s0 s : State} {data ctr} (h : Evolves s0 s) :
    Evolves s0 (answerMac s data ctr) := by
  unfold answerMac
  repeat' first
    | with_reducible assumption
    | with_reducible refine answer_ev ?_
    | split

theorem raiseCtr_ev {s0 s : State} (h : Evolves s0 s) :
    Evolves s0 (raiseCtr s) := by
  unfold raiseCtr
  repeat' first
    | with_reducible assumption
    | fail_if_no_progress extract_lets -underBinder +onlyGivenNames _x
    | with_reducible refine putTag_ev ?_

theorem endAppend_ev {s0 s : State} {a r} (h : Evolves s0 s) :
    Evolves s0 (endAppend s a r) := by
  unfold endAppend
  repeat' first
    | with_reducible assumption
    | (fail_if_no_progress extract_lets -underBinder +onlyGivenNames x)
      refine (fun (hx : Evolves s0 x) => ?_ : Evolves s0 x → _) ?_
      (on_goal 1 => clear_value x)
      (on_goal 2 => simp -zeta only [x])
    | fail_if_no_progress extract_lets -underBinder +onlyGivenNames _x
    | with_reducible refine Evolves.ite ?_ ?_
    | with_reducible refine putTag_ev ?_
    | with_reducible refine answer_ev ?_
    | with_reducible refine answerMac_ev ?_
    | with_reducible refine raiseCtr_ev ?_
    | split

theorem takeAppend_ev {s0 s : State} (h : Evolves s0 s) :
    Evolves s0 (takeAppend s) := by
  unfold takeAppend
  repeat' first
    | with_reducible assumption
    | (fail_if_no_progress extract_lets -underBinder +onlyGivenNames x)
      refine (fun (hx : Evolves s0 x) => ?_ : Evolves s0 x → _) ?_
      (on_goal 1 => clear_value x)
      (on_goal 2 => simp -zeta only [x])
    | fail_if_no_progress extract_lets -underBinder +onlyGivenNames _x
    | with_reducible refine Evolves.ite ?_ ?_
    | with_reducible refine putTag_ev ?_
    | with_reducible refine endAppend_ev ?_
    | split

theorem fieldOff_ev {s0 s : State} (h : Evolves s0 s) :
    Evolves s0 (fieldOff s) := by
  unfold fieldOff
  repeat' first
    | with_reducible assumption
    | (fail_if_no_progress extract_lets -underBinder +onlyGivenNames x)
      refine (fun (hx : Evolves s0 x) => ?_ : Evolves s0 x → _) ?_
      (on_goal 1 => clear_value x)
      (on_goal 2 => simp -zeta only [x])
    | fail_if_no_progress extract_lets -underBinder +onlyGivenNames _x
    | with_reducible refine Evolves.ite ?_ ?_
    | with_reducible refine abandonAppend_ev ?_
    | with_reducible refine putTag_ev ?_
    | with_reducible refine takeAppend_ev ?_
    | with_reducible refine tagEvent_ev ?_

theorem execFieldOff_ev {s0 s : State} (h : Evolves s0 s) :
    Keeps inOut s0 (execFieldOff s) := by
  unfold execFieldOff
  exact Keeps.next (fieldOff_ev h)

theorem anticollision_ev {s0 s : State} {nvb b full} (h : Evolves s0 s) :
    Evolves s0 (anticollision s nvb b full) := by
  unfold anticollision
  repeat' first
    | with_reducible assumption
    | fail_if_no_progress extract_lets -underBinder +onlyGivenNames _x
    | with_reducible refine Evolves.ite ?_ ?_
    | with_reducible refine otherFrame_ev ?_
    | with_reducible refine emit_ev ?_
    | with_reducible refine putTag_ev ?_
    | split

theorem execAnticollision_ev {s0 s : State} {nvb bits} (h : Evolves s0 s) :
    Keeps inOut s0 (execAnticollision nvb bits s) := by
  unfold execAnticollision
  exact Keeps.next (anticollision_ev h)

theorem requestAppend_ev {s0 s : State} {a} (h : Evolves s0 s) :
    Evolves s0 (requestAppend s a) := by
  unfold requestAppend
  repeat' first
    | with_reducible assumption
    | fail_if_no_progress extract_lets -underBinder +onlyGivenNames _x
    | with_reducible refine takeAppend_ev ?_
    | with_reducible refine putTag_ev ?_

theorem apdu_ev {s0 s : State} {a select pOk len body} (h : Evolves s0 s) (hf0 : ∀ a, Evolves s0 a → Evolves s0 (body a)) :
    Evolves s0 (apdu s a select pOk len body) := by
  unfold apdu
  repeat' first
    | with_reducible assumption
    | with_reducible refine Evolves.ite ?_ ?_
    | with_reducible refine otherFrame_ev ?_
    | with_reducible refine answer_ev ?_
    | with_reducible refine hf0 _ ?_

theorem sessionCheck_ev {s0 s : State} {a need} (h : Evolves s0 s) :
    Keeps inSnd s0 (sessionCheck s a need) := by
  unfold sessionCheck
  repeat' first
    | with_reducible assumption
    | fail_if_no_progress extract_lets -underBinder +onlyGivenNames _x
    | with_reducible refine answer_ev ?_
    | with_reducible refine putTag_ev ?_
    | with_reducible refine Keeps.mkSnd ?_
    | split

theorem readerAppend_ev {s0 s : State} {a} (h : Evolves s0 s) :
    Evolves s0 (readerAppend s a) := by
  unfold readerAppend
  repeat' first
    | with_reducible assumption
    | with_reducible refine Evolves.ite ?_ ?_
    | with_reducible refine apdu_ev ?_ ?_
    | with_reducible refine Keeps.snd (sessionCheck_ev ?_)
    | with_reducible refine requestAppend_ev ?_
    | intro _

theorem execAppend_ev {s0 s : State} {cla p1 p2 data} (h : Evolves s0 s) :
    Keeps inOut s0 (execAppend cla p1 p2 data s) := by
  unfold execAppend
  exact Keeps.next (readerAppend_ev h)

theorem deselect_ev {s0 s : State} (h : Evolves s0 s) :
    Evolves s0 (deselect s) := by
  unfold deselect
  repeat' first
    | with_reducible assumption
    | fail_if_no_progress extract_lets -underBinder +onlyGivenNames _x
    | with_reducible refine Evolves.ite ?_ ?_
    | with_reducible refine emit_ev ?_
    | with_reducible refine putTag_ev ?_
    | with_reducible refine otherFrame_ev ?_
    | split

theorem execSDeselect_ev {s0 s : State} {crcOk} (h : Evolves s0 s) :
    Keeps inOut s0 (execSDeselect crcOk s) := by
  unfold execSDeselect
  exact Keeps.next (Evolves.ite (deselect_ev h) h)

theorem fieldOn_ev {s0 s : State} (h : Evolves s0 s) :
    Evolves s0 (fieldOn s) := by
  unfold fieldOn
  repeat' first
    | with_reducible assumption
    | (fail_if_no_progress extract_lets -underBinder +onlyGivenNames x)
      refine (fun (hx : Evolves s0 x) => ?_ : Evolves s0 x → _) ?_
      (on_goal 1 => clear_value x)
      (on_goal 2 => simp -zeta only [x])
    | fail_if_no_progress extract_lets -underBinder +onlyGivenNames _x
    | with_reducible refine Evolves.ite ?_ ?_
    | with_reducible refine putTag_ev ?_
    | with_reducible refine tagEvent_ev ?_

theorem execFieldOn_ev {s0 s : State} (h : Evolves s0 s) :
    Keeps inOut s0 (execFieldOn s) := by
  unfold execFieldOn
  exact Keeps.next (fieldOn_ev h)

theorem execGetEvidence_ev {s0 s : State} {cla p1 p2 data} (h : Evolves s0 s) :
    Keeps inOut s0 (execGetEvidence cla p1 p2 data s) := by
  unfold execGetEvidence
  repeat' first
    | with_reducible assumption
    | with_reducible refine apdu_ev ?_ ?_
    | with_reducible refine answer_ev ?_
    | with_reducible refine Keeps.next ?_
    | intro _

theorem execSelect_ev {s0 s : State} {nvb bits crcOk} (h : Evolves s0 s) :
    Keeps inOut s0 (execSelect nvb bits crcOk s) := by
  unfold execSelect
  exact Keeps.next (Evolves.ite (anticollision_ev h) h)

theorem reqa_ev {s0 s : State} {wake} (h : Evolves s0 s) :
    Evolves s0 (reqa s wake) := by
  unfold reqa
  repeat' first
    | with_reducible assumption
    | fail_if_no_progress extract_lets -underBinder +onlyGivenNames _x
    | with_reducible refine Evolves.ite ?_ ?_
    | with_reducible refine emit_ev ?_
    | with_reducible refine putTag_ev ?_
    | with_reducible refine otherFrame_ev ?_
    | split

theorem execReqa_ev {s0 s : State} (h : Evolves s0 s) :
    Keeps inOut s0 (execReqa s) := by
  unfold execReqa
  exact Keeps.next (reqa_ev h)

theorem authEnd_ev {s0 s : State} {a} (h : Evolves s0 s) :
    Evolves s0 (authEnd s a) := by
  unfold authEnd
  repeat' first
    | with_reducible assumption
    | (fail_if_no_progress extract_lets -underBinder +onlyGivenNames x)
      refine (fun (hx : Evolves s0 x) => ?_ : Evolves s0 x → _) ?_
      (on_goal 1 => clear_value x)
      (on_goal 2 => simp -zeta only [x])
    | fail_if_no_progress extract_lets -underBinder +onlyGivenNames _x
    | with_reducible refine Evolves.ite ?_ ?_
    | with_reducible refine apdu_ev ?_ ?_
    | with_reducible refine putTag_ev ?_
    | with_reducible refine answer_ev ?_
    | with_reducible refine tagEvent_ev ?_
    | intro _
    | split
    | dsimp -zeta +zetaDelta only

theorem execAuthEnd_ev {s0 s : State} {cla p1 p2 data} (h : Evolves s0 s) :
    Keeps inOut s0 (execAuthEnd cla p1 p2 data s) := by
  unfold execAuthEnd
  exact Keeps.next (authEnd_ev h)

theorem clearJournal_ev {s0 s : State} {v} (h : Evolves s0 s) :
    Evolves s0 (clearJournal s v) := by
  unfold clearJournal
  repeat' first
    | with_reducible assumption
    | fail_if_no_progress extract_lets -underBinder +onlyGivenNames _x
    | with_reducible refine Evolves.ite ?_ ?_
    | with_reducible refine putTag_ev ?_

theorem execTagJrnlClr_ev {s0 s : State} {acc value} (h : Evolves s0 s) :
    Keeps inOut s0 (execTagJrnlClr acc value s) := by
  unfold execTagJrnlClr
  exact Keeps.next (Evolves.ite (clearJournal_ev h) h)

theorem ripcordTag_ev {s0 s : State} (h : Evolves s0 s) :
    Evolves s0 (ripcordTag s) := by
  unfold ripcordTag
  repeat' first
    | with_reducible assumption
    | fail_if_no_progress extract_lets -underBinder +onlyGivenNames _x
    | with_reducible refine putTag_ev ?_

theorem writeTagKey_ev {s0 s : State} {v} (h : Evolves s0 s) :
    Evolves s0 (writeTagKey s v) := by
  unfold writeTagKey
  repeat' first
    | with_reducible assumption
    | (fail_if_no_progress extract_lets -underBinder +onlyGivenNames x)
      refine (fun (hx : Evolves s0 x) => ?_ : Evolves s0 x → _) ?_
      (on_goal 1 => clear_value x)
      (on_goal 2 => simp -zeta only [x])
    | fail_if_no_progress extract_lets -underBinder +onlyGivenNames _x
    | with_reducible refine Evolves.ite ?_ ?_
    | with_reducible refine putTag_ev ?_
    | split

theorem execTagKeyWrite_ev {s0 s : State} {acc value} (h : Evolves s0 s) :
    Keeps inOut s0 (execTagKeyWrite acc value s) := by
  unfold execTagKeyWrite
  exact Keeps.next (Evolves.ite (writeTagKey_ev h) h)

theorem programLast_ev {s0 s : State} {off b} (h : Evolves s0 s) :
    Evolves s0 (programLast s off b) := by
  unfold programLast
  repeat' first
    | with_reducible assumption
    | fail_if_no_progress extract_lets -underBinder +onlyGivenNames _x
    | with_reducible refine putTag_ev ?_

theorem appendStep_ev {s0 s : State} (h : Evolves s0 s) :
    Evolves s0 (appendStep s) := by
  unfold appendStep
  repeat' first
    | with_reducible assumption
    | (fail_if_no_progress extract_lets -underBinder +onlyGivenNames x)
      refine (fun (hx : Evolves s0 x) => ?_ : Evolves s0 x → _) ?_
      (on_goal 1 => clear_value x)
      (on_goal 2 => simp -zeta only [x])
    | fail_if_no_progress extract_lets -underBinder +onlyGivenNames _x
    | with_reducible refine Evolves.ite ?_ ?_
    | with_reducible refine takeAppend_ev ?_
    | with_reducible refine endAppend_ev ?_
    | with_reducible refine putTag_ev ?_
    | with_reducible refine programLast_ev ?_
    | with_reducible refine tagEvent_ev ?_
    | split

theorem execAppendResume_ev {s0 s : State} {strong} (h : Evolves s0 s) :
    Keeps inOut s0 (execAppendResume strong s) := by
  unfold execAppendResume
  repeat' first
    | with_reducible assumption
    | (fail_if_no_progress extract_lets -underBinder +onlyGivenNames x)
      refine (fun (hx : Evolves s0 x) => ?_ : Evolves s0 x → _) ?_
      (on_goal 1 => clear_value x)
      (on_goal 2 => simp -zeta only [x])
    | fail_if_no_progress extract_lets -underBinder +onlyGivenNames _x
    | with_reducible refine Evolves.ite ?_ ?_
    | with_reducible refine putTag_ev ?_
    | with_reducible refine appendStep_ev ?_
    | with_reducible refine Keeps.next ?_

theorem execReadJournal_ev {s0 s : State} {cla p1 p2 data} (h : Evolves s0 s) :
    Keeps inOut s0 (execReadJournal cla p1 p2 data s) := by
  unfold execReadJournal
  repeat' first
    | with_reducible assumption
    | with_reducible refine apdu_ev ?_ ?_
    | with_reducible refine answer_ev ?_
    | with_reducible refine Keeps.next ?_
    | intro _
    | split

theorem execHlta_ev {s0 s : State} {crcOk} (h : Evolves s0 s) :
    Keeps inOut s0 (execHlta crcOk s) := by
  unfold execHlta
  exact Keeps.next (Evolves.ite (hlta_ev h) h)

theorem tagDraw_ev {s0 s : State} (h : Evolves s0 s) :
    Keeps inSnd s0 (tagDraw s) := by
  unfold tagDraw
  repeat' first
    | with_reducible assumption
    | fail_if_no_progress extract_lets -underBinder +onlyGivenNames _x
    | with_reducible refine putTag_ev ?_
    | with_reducible refine Keeps.mkSnd ?_

theorem execWupa_ev {s0 s : State} (h : Evolves s0 s) :
    Keeps inOut s0 (execWupa s) := by
  unfold execWupa
  exact Keeps.next (reqa_ev h)

theorem selectAid_ev {s0 s : State} {a} (h : Evolves s0 s) :
    Evolves s0 (selectAid s a) := by
  unfold selectAid
  repeat' first
    | with_reducible assumption
    | fail_if_no_progress extract_lets -underBinder +onlyGivenNames _x
    | with_reducible refine Evolves.ite ?_ ?_
    | with_reducible refine apdu_ev ?_ ?_
    | with_reducible refine answer_ev ?_
    | with_reducible refine putTag_ev ?_
    | intro _

theorem deviceAppend_ev {s0 s : State} {v} (h : Evolves s0 s) :
    Evolves s0 (deviceAppend s v) := by
  unfold deviceAppend
  repeat' first
    | with_reducible assumption
    | (fail_if_no_progress extract_lets -underBinder +onlyGivenNames x)
      refine (fun (hx : Evolves s0 x) => ?_ : Evolves s0 x → _) ?_
      (on_goal 1 => clear_value x)
      (on_goal 2 => simp -zeta only [x])
    | fail_if_no_progress extract_lets -underBinder +onlyGivenNames _x
    | with_reducible refine Evolves.ite ?_ ?_
    | with_reducible refine putTag_ev ?_
    | with_reducible refine requestAppend_ev ?_

theorem execDeviceAppend_ev {s0 s : State} {acc value} (h : Evolves s0 s) :
    Keeps inOut s0 (execDeviceAppend acc value s) := by
  unfold execDeviceAppend
  exact Keeps.next (Evolves.ite (deviceAppend_ev h) h)

theorem readMoorLog_ev {s0 s : State} {a} (h : Evolves s0 s) :
    Evolves s0 (readMoorLog s a) := by
  unfold readMoorLog
  repeat' first
    | with_reducible assumption
    | with_reducible refine Evolves.ite ?_ ?_
    | with_reducible refine apdu_ev ?_ ?_
    | with_reducible refine Keeps.snd (sessionCheck_ev ?_)
    | with_reducible refine raiseCtr_ev ?_
    | with_reducible refine answer_ev ?_
    | with_reducible refine answerMac_ev ?_
    | intro _
    | split

theorem execReadMoorLog_ev {s0 s : State} {cla p1 p2 data} (h : Evolves s0 s) :
    Keeps inOut s0 (execReadMoorLog cla p1 p2 data s) := by
  unfold execReadMoorLog
  exact Keeps.next (readMoorLog_ev h)

theorem authBegin_ev {s0 s : State} {a} (h : Evolves s0 s) :
    Evolves s0 (authBegin s a) := by
  unfold authBegin
  repeat' first
    | with_reducible assumption
    | fail_if_no_progress extract_lets -underBinder +onlyGivenNames _x
    | with_reducible refine Evolves.ite ?_ ?_
    | with_reducible refine apdu_ev ?_ ?_
    | with_reducible refine answer_ev ?_
    | with_reducible refine Keeps.snd (tagDraw_ev ?_)
    | with_reducible refine putTag_ev ?_
    | intro _

theorem execAuthBegin_ev {s0 s : State} {cla p1 p2 data} (h : Evolves s0 s) :
    Keeps inOut s0 (execAuthBegin cla p1 p2 data s) := by
  unfold execAuthBegin
  exact Keeps.next (authBegin_ev h)

theorem readIdentity_ev {s0 s : State} {a} (h : Evolves s0 s) :
    Evolves s0 (readIdentity s a) := by
  unfold readIdentity
  repeat' first
    | with_reducible assumption
    | with_reducible refine Evolves.ite ?_ ?_
    | with_reducible refine apdu_ev ?_ ?_
    | with_reducible refine Keeps.snd (sessionCheck_ev ?_)
    | with_reducible refine raiseCtr_ev ?_
    | with_reducible refine answerMac_ev ?_
    | intro _

theorem execReadIdentity_ev {s0 s : State} {cla p1 p2 data} (h : Evolves s0 s) :
    Keeps inOut s0 (execReadIdentity cla p1 p2 data s) := by
  unfold execReadIdentity
  exact Keeps.next (readIdentity_ev h)

theorem execSelectAid_ev {s0 s : State} {cla p1 p2 data} (h : Evolves s0 s) :
    Keeps inOut s0 (execSelectAid cla p1 p2 data s) := by
  unfold execSelectAid
  exact Keeps.next (selectAid_ev h)

theorem ripcordSails_ev {s0 s : State} (h : Evolves s0 s) :
    Evolves s0 (ripcordSails s) := by
  unfold ripcordSails
  repeat' first
    | with_reducible assumption
    | fail_if_no_progress extract_lets -underBinder +onlyGivenNames _x
    | with_reducible refine Evolves.ite ?_ ?_
    | with_reducible refine putSail_ev ?_
    | with_reducible refine abortEngine_ev ?_
    | with_reducible refine Evolves.foldl ?_ ?_
    | intro _

theorem ripcordJob_ev {s0 s : State} {n} (h : Evolves s0 s) :
    Evolves s0 (ripcordJob s n) := by
  unfold ripcordJob
  exact failJob_ev (dropHeld_ev h)

theorem ripcordBridle_ev {s0 s : State} (h : Evolves s0 s) :
    Evolves s0 (ripcordBridle s) := by
  unfold ripcordBridle
  repeat' first
    | with_reducible assumption
    | (fail_if_no_progress extract_lets -underBinder +onlyGivenNames x)
      refine (fun (hx : Evolves s0 x) => ?_ : Evolves s0 x → _) ?_
      (on_goal 1 => clear_value x)
      (on_goal 2 => simp -zeta only [x])
    | fail_if_no_progress extract_lets -underBinder +onlyGivenNames _x
    | with_reducible refine flood_ev ?_
    | with_reducible refine Evolves.foldl ?_ ?_
    | fail_if_no_progress with_reducible refine Evolves.upd ?_
    | intro _
    | split

theorem ripcordSlots_ev {s0 s : State} (h : Evolves s0 s) :
    Evolves s0 (ripcordSlots s) := by
  unfold ripcordSlots
  repeat' first
    | with_reducible assumption
    | fail_if_no_progress extract_lets -underBinder +onlyGivenNames _x
    | with_reducible refine Evolves.ite ?_ ?_
    | with_reducible refine failSlot_ev ?_
    | with_reducible refine putSlot_ev ?_
    | with_reducible refine Evolves.foldl ?_ ?_
    | intro _
    | split

theorem ripcordKeys_ev {s0 s : State} (h : Evolves s0 s) :
    Evolves s0 (ripcordKeys s) := by
  unfold ripcordKeys
  repeat' first
    | with_reducible assumption
    | (fail_if_no_progress extract_lets -underBinder +onlyGivenNames x)
      refine (fun (hx : Evolves s0 x) => ?_ : Evolves s0 x → _) ?_
      (on_goal 1 => clear_value x)
      (on_goal 2 => simp -zeta only [x])
    | fail_if_no_progress extract_lets -underBinder +onlyGivenNames _x
    | with_reducible refine Evolves.ite ?_ ?_
    | with_reducible refine dpEvent_ev ?_
    | with_reducible refine keyChange_ev ?_
    | with_reducible refine Evolves.foldl ?_ ?_
    | fail_if_no_progress with_reducible refine Evolves.upd ?_
    | intro _

theorem ripcordCores_ev {s0 s : State} (h : Evolves s0 s) :
    Evolves s0 (ripcordCores s) := by
  unfold ripcordCores
  repeat' first
    | with_reducible assumption
    | intro h
      first | exact h | exact tset_wf h _ _ | exact tdel_wf h _ | exact filter_wf h _ | exact tmap_wf h _
            | exact rising_tput h _ (by simp) | exact rising_foldl_tput h _ _ _ | exact rising_tdel h _
            | exact rising_map h _ fun e => by split <;> rfl
    | fail_if_no_progress extract_lets -underBinder +onlyGivenNames _x
    | with_reducible refine Evolves.ite ?_ ?_
    | with_reducible refine Evolves.foldl ?_ ?_
    | (fail_if_success (with_reducible refine Evolves.upd ?_))
      with_reducible refine Evolves.updTabs ?_ ?_ ?_ ?_ ?_ ?_ ?_ ?_ ?_ ?_ ?_ ?_ ?_ ?_
    | intro _

theorem ripcordRng_ev {s0 s : State} (h : Evolves s0 s) :
    Evolves s0 (ripcordRng s) := by
  unfold ripcordRng
  repeat' first
    | with_reducible assumption
    | (fail_if_no_progress extract_lets -underBinder +onlyGivenNames x)
      refine (fun (hx : Evolves s0 x) => ?_ : Evolves s0 x → _) ?_
      (on_goal 1 => clear_value x)
      (on_goal 2 => simp -zeta only [x])
    | fail_if_no_progress extract_lets -underBinder +onlyGivenNames _x
    | with_reducible refine Evolves.ite ?_ ?_
    | with_reducible refine unseed_ev ?_
    | with_reducible refine putDrbg_ev ?_
    | with_reducible refine postSeed_ev ?_
    | with_reducible refine Evolves.foldl ?_ ?_
    | fail_if_no_progress with_reducible refine Evolves.upd ?_
    | intro _

theorem ripcordLogs_ev {s0 s : State} (h : Evolves s0 s) :
    Evolves s0 (ripcordLogs s) := by
  unfold ripcordLogs
  repeat' first
    | with_reducible assumption
    | fail_if_no_progress extract_lets -underBinder +onlyGivenNames _x
    | fail_if_no_progress with_reducible refine Evolves.upd ?_

theorem closeGate_ev {s0 s : State} (h : Evolves s0 s) :
    Evolves s0 (closeGate s) := by
  unfold closeGate
  repeat' first
    | (fail_if_success (with_reducible refine Evolves.upd ?_)); with_reducible refine Evolves.gated ?_ ?_
    | exact fun _ => ⟨by simp, by simp, by simp⟩
    | with_reducible assumption

theorem ripcordTests_ev {s0 s : State} (h : Evolves s0 s) :
    Evolves s0 (ripcordTests s) := by
  unfold ripcordTests
  repeat' first
    | with_reducible assumption
    | fail_if_no_progress extract_lets -underBinder +onlyGivenNames _x
    | fail_if_no_progress with_reducible refine Evolves.upd ?_

theorem ripcord_ev {s0 s : State} (h : Evolves s0 s) :
    Evolves s0 (ripcord s) := by
  unfold ripcord
  repeat' first
    | with_reducible assumption
    | intro h
      first | exact h | exact tset_wf h _ _ | exact tdel_wf h _ | exact filter_wf h _ | exact tmap_wf h _
            | exact rising_tput h _ (by simp) | exact rising_foldl_tput h _ _ _ | exact rising_tdel h _
            | exact rising_map h _ fun e => by split <;> rfl
    | (fail_if_no_progress extract_lets -underBinder +onlyGivenNames x)
      refine (fun (hx : Evolves s0 x) => ?_ : Evolves s0 x → _) ?_
      (on_goal 1 => clear_value x)
      (on_goal 2 => simp -zeta only [x])
    | fail_if_no_progress extract_lets -underBinder +onlyGivenNames _x
    | with_reducible refine ripcordJob_ev ?_
    | with_reducible refine clearCache_ev ?_
    | with_reducible refine ripcordSlots_ev ?_
    | with_reducible refine ripcordKeys_ev ?_
    | with_reducible refine clearEvts_ev ?_
    | with_reducible refine ripcordCores_ev ?_
    | with_reducible refine ripcordRng_ev ?_
    | with_reducible refine ripcordSails_ev ?_
    | with_reducible refine ripcordLogs_ev ?_
    | with_reducible refine cardNext_ev ?_
    | with_reducible refine ripcordCards_ev ?_
    | with_reducible refine closeGate_ev ?_
    | with_reducible refine ripcordTests_ev ?_
    | with_reducible refine ripcordBridle_ev ?_
    | with_reducible refine ripcordTag_ev ?_
    | with_reducible refine Evolves.foldl ?_ ?_
    | fail_if_no_progress with_reducible refine Evolves.upd ?_
    | (fail_if_success (with_reducible refine Evolves.upd ?_))
      with_reducible refine Evolves.updTabs ?_ ?_ ?_ ?_ ?_ ?_ ?_ ?_ ?_ ?_ ?_ ?_ ?_ ?_
    | intro _

theorem putSrc_ev {s0 s : State} {n x} (h : Evolves s0 s) :
    Evolves s0 (putSrc s n x) := by
  unfold putSrc
  repeat' first
    | with_reducible assumption
    | fail_if_no_progress extract_lets -underBinder +onlyGivenNames _x
    | fail_if_no_progress with_reducible refine Evolves.upd ?_

theorem putSrcCfg_ev {s0 s : State} {n x} (h : Evolves s0 s) :
    Evolves s0 (putSrcCfg s n x) := by
  unfold putSrcCfg
  repeat' first
    | with_reducible assumption
    | fail_if_no_progress extract_lets -underBinder +onlyGivenNames _x
    | with_reducible refine putSrc_ev ?_
    | fail_if_no_progress with_reducible refine Evolves.upd ?_

theorem raiseFloors_ev {s0 s : State} (h : Evolves s0 s) :
    Evolves s0 (raiseFloors s) := by
  unfold raiseFloors
  repeat' first
    | with_reducible assumption
    | fail_if_no_progress extract_lets -underBinder +onlyGivenNames _x
    | with_reducible refine Evolves.ite ?_ ?_
    | with_reducible refine putSrcCfg_ev ?_
    | with_reducible refine Evolves.foldl ?_ ?_
    | intro _

theorem loadSrcCfg_ev {s0 s : State} (h : Evolves s0 s) :
    Evolves s0 (loadSrcCfg s) := by
  unfold loadSrcCfg
  repeat' first
    | with_reducible assumption
    | (fail_if_no_progress extract_lets -underBinder +onlyGivenNames x)
      refine (fun (hx : Evolves s0 x) => ?_ : Evolves s0 x → _) ?_
      (on_goal 1 => clear_value x)
      (on_goal 2 => simp -zeta only [x])
    | fail_if_no_progress extract_lets -underBinder +onlyGivenNames _x
    | with_reducible refine Evolves.ite ?_ ?_
    | with_reducible refine raiseFloors_ev ?_
    | fail_if_no_progress with_reducible refine Evolves.upd ?_

theorem mainLog_ev {s0 s : State} {src flags} (h : Evolves s0 s) :
    Evolves s0 (mainLog s src flags) := by
  unfold mainLog
  repeat' first
    | with_reducible assumption
    | fail_if_no_progress extract_lets -underBinder +onlyGivenNames _x
    | fail_if_no_progress with_reducible refine Evolves.upd ?_

theorem mooringLog_ev {s0 s : State} {src flags pos filter} (h : Evolves s0 s) :
    Evolves s0 (mooringLog s src flags pos filter) := by
  unfold mooringLog
  repeat' first
    | with_reducible assumption
    | fail_if_no_progress extract_lets -underBinder +onlyGivenNames _x
    | fail_if_no_progress with_reducible refine Evolves.upd ?_

theorem evidenceEvent_ev {s0 s : State} {old} (h : Evolves s0 s) :
    Evolves s0 (evidenceEvent old s) := by
  unfold evidenceEvent
  exact Evolves.ite h (setEvent_ev h)

theorem zeroiseLock_ev {s0 s : State} (h : Evolves s0 s) :
    Evolves s0 (zeroiseLock s) := by
  unfold zeroiseLock
  repeat' first
    | (fail_if_success (with_reducible refine Evolves.upd ?_)); with_reducible refine Evolves.burn ?_ ?_
    | ((with_reducible refine BurnedStays.mk ?_ ?_ ?_ ?_ ?_ ?_ ?_ ?_ ?_) <;> simp +zetaDelta [← BitVec.or_assoc])
    | with_reducible assumption
    | (fail_if_no_progress extract_lets -underBinder +onlyGivenNames x)
      refine (fun (hx : Evolves s0 x) => ?_ : Evolves s0 x → _) ?_
      (on_goal 1 => clear_value x)
      (on_goal 2 => simp -zeta only [x])
    | fail_if_no_progress extract_lets -underBinder +onlyGivenNames _x
    | with_reducible refine otpBurned_ev ?_
    | with_reducible refine lifecycleChanged_ev ?_
    | with_reducible refine closeGate_ev ?_

theorem rungActions_ev {s0 s : State} {old r} (h : Evolves s0 s) :
    Evolves s0 (rungActions s old r) := by
  unfold rungActions
  repeat' first
    | with_reducible assumption
    | (fail_if_no_progress extract_lets -underBinder +onlyGivenNames x)
      refine (fun (hx : Evolves s0 x) => ?_ : Evolves s0 x → _) ?_
      (on_goal 1 => clear_value x)
      (on_goal 2 => simp -zeta only [x])
    | fail_if_no_progress extract_lets -underBinder +onlyGivenNames _x
    | with_reducible refine Evolves.ite ?_ ?_
    | with_reducible refine ripcord_ev ?_
    | with_reducible refine writeQuiesce1_ev ?_
    | with_reducible refine zeroiseLock_ev ?_

theorem fireWith_ev {s0 s : State} {src r} (h : Evolves s0 s) :
    Keeps inFst s0 (fireWith s src r) := by
  unfold fireWith
  repeat' first
    | with_reducible assumption
    | fail_if_no_progress extract_lets -underBinder +onlyGivenNames _x
    | with_reducible refine Evolves.ite ?_ ?_
    | with_reducible refine mainLog_ev ?_
    | with_reducible refine mooringLog_ev ?_
    | with_reducible refine evidenceEvent_ev ?_
    | with_reducible refine setEvent_ev ?_
    | with_reducible refine wakeIdle_ev ?_
    | with_reducible refine rungActions_ev ?_
    | with_reducible refine Keeps.mkFst ?_
    | fail_if_no_progress with_reducible refine Evolves.upd ?_

theorem burnFuse_ev {s0 s : State} {v} (h : Evolves s0 s) :
    Evolves s0 (burnFuse s v) := by
  unfold burnFuse
  repeat' first
    | (fail_if_success (with_reducible refine Evolves.upd ?_)); with_reducible refine Evolves.burn ?_ ?_
    | ((with_reducible refine BurnedStays.mk ?_ ?_ ?_ ?_ ?_ ?_ ?_ ?_ ?_) <;> simp +zetaDelta [← BitVec.or_assoc])
    | with_reducible assumption
    | (fail_if_no_progress extract_lets -underBinder +onlyGivenNames x)
      refine (fun (hx : Evolves s0 x) => ?_ : Evolves s0 x → _) ?_
      (on_goal 1 => clear_value x)
      (on_goal 2 => simp -zeta only [x])
    | fail_if_no_progress extract_lets -underBinder +onlyGivenNames _x
    | with_reducible refine Evolves.ite ?_ ?_
    | with_reducible refine otpBurned_ev ?_
    | with_reducible refine putSrc_ev ?_
    | with_reducible refine Evolves.foldl ?_ ?_
    | intro _

theorem testDone_ev {s0 s : State} {pass} (h : Evolves s0 s) :
    Evolves s0 (testDone s pass) := by
  unfold testDone
  repeat' first
    | with_reducible assumption
    | (fail_if_no_progress extract_lets -underBinder +onlyGivenNames x)
      refine (fun (hx : Evolves s0 x) => ?_ : Evolves s0 x → _) ?_
      (on_goal 1 => clear_value x)
      (on_goal 2 => simp -zeta only [x])
    | fail_if_no_progress extract_lets -underBinder +onlyGivenNames _x
    | with_reducible refine Evolves.ite ?_ ?_
    | with_reducible refine mainLog_ev ?_
    | with_reducible refine mooringLog_ev ?_
    | with_reducible refine putSrc_ev ?_
    | with_reducible refine setEvent_ev ?_
    | fail_if_no_progress with_reducible refine Evolves.upd ?_

theorem writeTest_ev {s0 s : State} {v} (h : Evolves s0 s) :
    Evolves s0 (writeTest s v) := by
  unfold writeTest
  repeat' first
    | with_reducible assumption
    | fail_if_no_progress extract_lets -underBinder +onlyGivenNames _x
    | with_reducible refine Evolves.ite ?_ ?_
    | fail_if_no_progress with_reducible refine Evolves.upd ?_

theorem safeState_ev {s0 s : State} {machine unit} (h : Evolves s0 s) :
    Evolves s0 (safeState s machine unit) := by
  unfold safeState
  repeat' first
    | with_reducible assumption
    | fail_if_no_progress extract_lets -underBinder +onlyGivenNames _x
    | with_reducible refine Evolves.ite ?_ ?_
    | with_reducible refine closeGate_ev ?_
    | with_reducible refine failSlot_ev ?_
    | with_reducible refine unseed_ev ?_
    | with_reducible refine abortEngine_ev ?_
    | with_reducible refine lockup_ev ?_
    | with_reducible refine setEvent_ev ?_
    | with_reducible refine putEvt_ev ?_
    | split

theorem fireCore_ev {s0 s : State} {src} (h : Evolves s0 s) :
    Keeps inFst s0 (fireCore s src) := by
  unfold fireCore
  repeat' first
    | with_reducible assumption
    | (fail_if_no_progress extract_lets -underBinder +onlyGivenNames x)
      refine (fun (hx : Evolves s0 x) => ?_ : Evolves s0 x → _) ?_
      (on_goal 1 => clear_value x)
      (on_goal 2 => simp -zeta only [x])
    | fail_if_no_progress extract_lets -underBinder +onlyGivenNames _x
    | with_reducible refine Keeps.ite ?_ ?_
    | with_reducible refine putSrc_ev ?_
    | with_reducible refine fireWith_ev ?_
    | with_reducible refine Keeps.mkFst ?_

theorem fireFsm_ev {s0 s : State} {machine unit} (h : Evolves s0 s) :
    Keeps inFst s0 (fireFsm s machine unit) := by
  unfold fireFsm
  repeat' first
    | with_reducible assumption
    | (fail_if_no_progress extract_lets -underBinder +onlyGivenNames x)
      refine (fun (hx : Evolves s0 x) => ?_ : Evolves s0 x → _) ?_
      (on_goal 1 => clear_value x)
      (on_goal 2 => simp -zeta only [x])
    | fail_if_no_progress extract_lets -underBinder +onlyGivenNames _x
    | with_reducible refine Evolves.ite ?_ ?_
    | with_reducible refine Keeps.ite ?_ ?_
    | with_reducible refine safeState_ev ?_
    | with_reducible refine fireCore_ev ?_
    | with_reducible refine Keeps.fst (fireWith_ev ?_)
    | with_reducible refine ripcord_ev ?_
    | with_reducible refine Keeps.mkFst ?_

theorem burnEvidence_ev {s0 s : State} (h : Evolves s0 s) :
    Evolves s0 (burnEvidence s) := by
  unfold burnEvidence
  repeat' first
    | (fail_if_success (with_reducible refine Evolves.upd ?_)); with_reducible refine Evolves.burn ?_ ?_
    | ((with_reducible refine BurnedStays.mk ?_ ?_ ?_ ?_ ?_ ?_ ?_ ?_ ?_) <;> simp +zetaDelta [← BitVec.or_assoc])
    | with_reducible assumption
    | fail_if_no_progress extract_lets -underBinder +onlyGivenNames _x
    | with_reducible refine Evolves.ite ?_ ?_
    | with_reducible refine otpBurned_ev ?_

theorem bootMooring_ev {s0 s : State} (h : Evolves s0 s) :
    Evolves s0 (bootMooring s) := by
  unfold bootMooring
  repeat' first
    | with_reducible assumption
    | (fail_if_no_progress extract_lets -underBinder +onlyGivenNames x)
      refine (fun (hx : Evolves s0 x) => ?_ : Evolves s0 x → _) ?_
      (on_goal 1 => clear_value x)
      (on_goal 2 => simp -zeta only [x])
    | fail_if_no_progress extract_lets -underBinder +onlyGivenNames _x
    | with_reducible refine Evolves.ite ?_ ?_
    | with_reducible refine zeroiseLock_ev ?_
    | with_reducible refine burnEvidence_ev ?_
    | with_reducible refine Evolves.foldl ?_ ?_
    | fail_if_no_progress with_reducible refine Evolves.upd ?_
    | intro _

theorem cellEvents_ev {s0 s : State} (h : Evolves s0 s) :
    Evolves s0 (cellEvents s) := by
  unfold cellEvents
  repeat' first
    | with_reducible assumption
    | fail_if_no_progress extract_lets -underBinder +onlyGivenNames _x
    | with_reducible refine Evolves.ite ?_ ?_
    | with_reducible refine setEvent_ev ?_
    | fail_if_no_progress with_reducible refine Evolves.upd ?_

theorem closeEpisode_ev {s0 s : State} (h : Evolves s0 s) :
    Evolves s0 (closeEpisode s) := by
  unfold closeEpisode
  repeat' first
    | with_reducible assumption
    | fail_if_no_progress extract_lets -underBinder +onlyGivenNames _x
    | with_reducible refine Evolves.ite ?_ ?_
    | with_reducible refine setEvent_ev ?_
    | fail_if_no_progress with_reducible refine Evolves.upd ?_

theorem clearMooringLog_ev {s0 s : State} {v} (h : Evolves s0 s) :
    Evolves s0 (clearMooringLog s v) := by
  unfold clearMooringLog
  repeat' first
    | with_reducible assumption
    | fail_if_no_progress extract_lets -underBinder +onlyGivenNames _x
    | with_reducible refine Evolves.ite ?_ ?_
    | fail_if_no_progress with_reducible refine Evolves.upd ?_

theorem continueEpisode_ev {s0 s : State} (h : Evolves s0 s) :
    Evolves s0 (continueEpisode s) := by
  unfold continueEpisode
  repeat' first
    | with_reducible assumption
    | (fail_if_no_progress extract_lets -underBinder +onlyGivenNames x)
      refine (fun (hx : Evolves s0 x) => ?_ : Evolves s0 x → _) ?_
      (on_goal 1 => clear_value x)
      (on_goal 2 => simp -zeta only [x])
    | fail_if_no_progress extract_lets -underBinder +onlyGivenNames _x
    | with_reducible refine Evolves.ite ?_ ?_
    | with_reducible refine modUnit_ev ?_
    | fail_if_no_progress with_reducible refine Evolves.upd ?_

theorem writeFired_ev {s0 s : State} {hi mask} (h : Evolves s0 s) :
    Evolves s0 (writeFired s hi mask) := by
  unfold writeFired
  repeat' first
    | with_reducible assumption
    | fail_if_no_progress extract_lets -underBinder +onlyGivenNames _x
    | with_reducible refine closeEpisode_ev ?_
    | fail_if_no_progress with_reducible refine Evolves.upd ?_

theorem writeSrcCfg_ev {s0 s : State} {n v} (h : Evolves s0 s) :
    Evolves s0 (writeSrcCfg s n v) := by
  unfold writeSrcCfg
  repeat' first
    | with_reducible assumption
    | (fail_if_no_progress extract_lets -underBinder +onlyGivenNames x)
      refine (fun (hx : Evolves s0 x) => ?_ : Evolves s0 x → _) ?_
      (on_goal 1 => clear_value x)
      (on_goal 2 => simp -zeta only [x])
    | fail_if_no_progress extract_lets -underBinder +onlyGivenNames _x
    | with_reducible refine Evolves.ite ?_ ?_
    | with_reducible refine putSrcCfg_ev ?_
    | with_reducible refine refuseWrite_ev ?_

theorem fireCell_ev {s0 s : State} {src} (h : Evolves s0 s) :
    Evolves s0 (fireCell s src) := by
  unfold fireCell
  repeat' first
    | with_reducible assumption
    | (fail_if_no_progress extract_lets -underBinder +onlyGivenNames x)
      refine (fun (hx : Evolves s0 x) => ?_ : Evolves s0 x → _) ?_
      (on_goal 1 => clear_value x)
      (on_goal 2 => simp -zeta only [x])
    | fail_if_no_progress extract_lets -underBinder +onlyGivenNames _x
    | with_reducible refine Evolves.ite ?_ ?_
    | with_reducible refine putSrc_ev ?_
    | with_reducible refine mooringLog_ev ?_
    | fail_if_no_progress with_reducible refine Evolves.upd ?_

theorem putBank_ev {s0 s : State} {b x} (h : Evolves s0 s) :
    Evolves s0 (putBank s b x) := by
  unfold putBank
  repeat' first
    | with_reducible assumption
    | fail_if_no_progress extract_lets -underBinder +onlyGivenNames _x
    | fail_if_no_progress with_reducible refine Evolves.upd ?_

theorem flashFail_ev {s0 s : State} {b r} (h : Evolves s0 s) :
    Evolves s0 (flashFail s b r) := by
  unfold flashFail
  repeat' first
    | with_reducible assumption
    | fail_if_no_progress extract_lets -underBinder +onlyGivenNames _x
    | with_reducible refine putBank_ev ?_

theorem flashStart_ev {s0 s : State} {b r} (h : Evolves s0 s) :
    Evolves s0 (flashStart s b r) := by
  unfold flashStart
  repeat' first
    | with_reducible assumption
    | fail_if_no_progress extract_lets -underBinder +onlyGivenNames _x
    | with_reducible refine putBank_ev ?_

theorem eraseGo_ev {s0 s : State} {b a} (h : Evolves s0 s) :
    Evolves s0 (eraseGo s b a) := by
  unfold eraseGo
  exact Evolves.ite (flashFail_ev h) (Evolves.ite (flashFail_ev h) (Evolves.ite (flashFail_ev h) (flashStart_ev h)))

theorem tearGranules_ev {s0 s : State} {g n} (h : Evolves s0 s) :
    Evolves s0 (tearGranules s g n) := by
  unfold tearGranules
  repeat' first
    | with_reducible assumption
    | fail_if_no_progress extract_lets -underBinder +onlyGivenNames _x
    | with_reducible refine Evolves.ite ?_ ?_
    | fail_if_no_progress with_reducible refine Evolves.upd ?_

theorem suspendNow_ev {s0 s : State} {b} (h : Evolves s0 s) :
    Evolves s0 (suspendNow s b) := by
  unfold suspendNow
  repeat' first
    | with_reducible assumption
    | fail_if_no_progress extract_lets -underBinder +onlyGivenNames _x
    | with_reducible refine Evolves.ite ?_ ?_
    | with_reducible refine putBank_ev ?_
    | split

theorem endRun_ev {s0 s : State} {b r} (h : Evolves s0 s) :
    Evolves s0 (endRun s b r) := by
  unfold endRun
  repeat' first
    | with_reducible assumption
    | (fail_if_no_progress extract_lets -underBinder +onlyGivenNames x)
      refine (fun (hx : Evolves s0 x) => ?_ : Evolves s0 x → _) ?_
      (on_goal 1 => clear_value x)
      (on_goal 2 => simp -zeta only [x])
    | fail_if_no_progress extract_lets -underBinder +onlyGivenNames _x
    | with_reducible refine Evolves.ite ?_ ?_
    | with_reducible refine putBank_ev ?_
    | with_reducible refine setEvent_ev ?_

theorem eraseSector_ev {s0 s : State} {b k} (h : Evolves s0 s) :
    Evolves s0 (eraseSector s b k) := by
  unfold eraseSector
  repeat' first
    | with_reducible assumption
    | (fail_if_no_progress extract_lets -underBinder +onlyGivenNames x)
      refine (fun (hx : Evolves s0 x) => ?_ : Evolves s0 x → _) ?_
      (on_goal 1 => clear_value x)
      (on_goal 2 => simp -zeta only [x])
    | fail_if_no_progress extract_lets -underBinder +onlyGivenNames _x
    | with_reducible refine Evolves.ite ?_ ?_
    | fail_if_no_progress with_reducible refine Evolves.upd ?_
    | split

theorem noteVerify_ev {s0 s : State} {b k} (h : Evolves s0 s) :
    Evolves s0 (noteVerify s b k) := by
  unfold noteVerify
  repeat' first
    | with_reducible assumption
    | fail_if_no_progress extract_lets -underBinder +onlyGivenNames _x
    | with_reducible refine Evolves.ite ?_ ?_
    | with_reducible refine storeLow_ev ?_
    | fail_if_no_progress with_reducible refine Evolves.upd ?_

theorem tearRun_ev {s0 s : State} {b r k} (h : Evolves s0 s) :
    Evolves s0 (tearRun s b r k) := by
  unfold tearRun
  repeat' first
    | with_reducible assumption
    | with_reducible refine Evolves.ite ?_ ?_
    | with_reducible refine tearGranules_ev ?_
    | with_reducible refine eraseSector_ev ?_
    | split

theorem programGranules_ev {s0 s : State} {gs} (h : Evolves s0 s) :
    Evolves s0 (programGranules s gs) := by
  unfold programGranules
  repeat' first
    | with_reducible assumption
    | fail_if_no_progress extract_lets -underBinder +onlyGivenNames _x
    | with_reducible refine Evolves.foldl ?_ ?_
    | fail_if_no_progress with_reducible refine Evolves.upd ?_
    | intro _

theorem operationEnd_ev {s0 s : State} {b good} (h : Evolves s0 s) :
    Evolves s0 (operationEnd s b good) := by
  unfold operationEnd
  repeat' first
    | with_reducible assumption
    | fail_if_no_progress extract_lets -underBinder +onlyGivenNames _x
    | with_reducible refine Evolves.ite ?_ ?_
    | with_reducible refine endRun_ev ?_
    | with_reducible refine eraseSector_ev ?_
    | with_reducible refine noteVerify_ev ?_
    | with_reducible refine tearRun_ev ?_
    | with_reducible refine programGranules_ev ?_
    | split

theorem winAdvance_ev {s0 s : State} {i} (h : Evolves s0 s) :
    Evolves s0 (winAdvance s i) := by
  unfold winAdvance
  repeat' first
    | with_reducible assumption
    | fail_if_no_progress extract_lets -underBinder +onlyGivenNames _x
    | with_reducible refine Evolves.ite ?_ ?_
    | fail_if_no_progress with_reducible refine Evolves.upd ?_

theorem winRead_ev {s0 s : State} {acc ecc} (h : Evolves s0 s) :
    Keeps inFst s0 (winRead s acc ecc) := by
  unfold winRead
  repeat' first
    | with_reducible assumption
    | (fail_if_no_progress extract_lets -underBinder +onlyGivenNames x)
      refine (fun (hx : Evolves s0 x) => ?_ : Evolves s0 x → _) ?_
      (on_goal 1 => clear_value x)
      (on_goal 2 => simp -zeta only [x])
    | fail_if_no_progress extract_lets -underBinder +onlyGivenNames _x
    | with_reducible refine Evolves.ite ?_ ?_
    | with_reducible refine Keeps.ite ?_ ?_
    | with_reducible refine emit_ev ?_
    | with_reducible refine winAdvance_ev ?_
    | with_reducible refine setEvent_ev ?_
    | with_reducible refine Keeps.mkFst ?_
    | fail_if_no_progress with_reducible refine Evolves.upd ?_

theorem programGo_ev {s0 s : State} {b op a ws} (h : Evolves s0 s) :
    Evolves s0 (programGo s b op a ws) := by
  unfold programGo
  repeat' first
    | with_reducible assumption
    | fail_if_no_progress extract_lets -underBinder +onlyGivenNames _x
    | with_reducible refine Evolves.ite ?_ ?_
    | with_reducible refine flashFail_ev ?_
    | with_reducible refine flashStart_ev ?_

theorem programCycle_ev {s0 s : State} {b op n a addr ws d} (h : Evolves s0 s) :
    Evolves s0 (programCycle s b op n a addr ws d) := by
  unfold programCycle
  repeat' first
    | with_reducible assumption
    | fail_if_no_progress extract_lets -underBinder +onlyGivenNames _x
    | with_reducible refine Evolves.ite ?_ ?_
    | with_reducible refine flashFail_ev ?_
    | with_reducible refine programGo_ev ?_
    | with_reducible refine putBank_ev ?_

theorem idleCycle_ev {s0 s : State} {b addr d} (h : Evolves s0 s) :
    Evolves s0 (idleCycle s b addr d) := by
  unfold idleCycle
  repeat' first
    | with_reducible assumption
    | (fail_if_no_progress extract_lets -underBinder +onlyGivenNames x)
      refine (fun (hx : Evolves s0 x) => ?_ : Evolves s0 x → _) ?_
      (on_goal 1 => clear_value x)
      (on_goal 2 => simp -zeta only [x])
    | fail_if_no_progress extract_lets -underBinder +onlyGivenNames _x
    | with_reducible refine Evolves.ite ?_ ?_
    | with_reducible refine putBank_ev ?_
    | with_reducible refine flashFail_ev ?_
    | with_reducible refine eraseGo_ev ?_
    | with_reducible refine programCycle_ev ?_
    | split

theorem writeCycle_ev {s0 s : State} {addr d} (h : Evolves s0 s) :
    Evolves s0 (writeCycle s addr d) := by
  unfold writeCycle
  repeat' first
    | with_reducible assumption
    | fail_if_no_progress extract_lets -underBinder +onlyGivenNames _x
    | with_reducible refine Evolves.ite ?_ ?_
    | with_reducible refine idleCycle_ev ?_
    | with_reducible refine putBank_ev ?_
    | split
    | dsimp -zeta +zetaDelta only

theorem unlockAnd_ev {s0 s : State} {base code} (h : Evolves s0 s) :
    Evolves s0 (unlockAnd s base code) := by
  unfold unlockAnd
  exact writeCycle_ev (writeCycle_ev (writeCycle_ev h))

theorem brownoutBank_ev {s0 s : State} {b} (h : Evolves s0 s) :
    Evolves s0 (brownoutBank s b) := by
  unfold brownoutBank
  repeat' first
    | with_reducible assumption
    | with_reducible refine endRun_ev ?_
    | with_reducible refine tearRun_ev ?_
    | split

theorem brownoutAssert_ev {s0 s : State} (h : Evolves s0 s) :
    Evolves s0 (brownoutAssert s) := by
  unfold brownoutAssert
  repeat' first
    | with_reducible assumption
    | (fail_if_no_progress extract_lets -underBinder +onlyGivenNames x)
      refine (fun (hx : Evolves s0 x) => ?_ : Evolves s0 x → _) ?_
      (on_goal 1 => clear_value x)
      (on_goal 2 => simp -zeta only [x])
    | fail_if_no_progress extract_lets -underBinder +onlyGivenNames _x
    | with_reducible refine Evolves.ite ?_ ?_
    | with_reducible refine setEvent_ev ?_
    | with_reducible refine brownoutBank_ev ?_
    | fail_if_no_progress with_reducible refine Evolves.upd ?_

theorem compactStore_ev {s0 s : State} (h : Evolves s0 s) :
    Evolves s0 (compactStore s) := by
  unfold compactStore
  repeat' first
    | with_reducible assumption
    | (fail_if_no_progress extract_lets -underBinder +onlyGivenNames x)
      refine (fun (hx : Evolves s0 x) => ?_ : Evolves s0 x → _) ?_
      (on_goal 1 => clear_value x)
      (on_goal 2 => simp -zeta only [x])
    | fail_if_no_progress extract_lets -underBinder +onlyGivenNames _x
    | with_reducible refine Evolves.ite ?_ ?_
    | with_reducible refine eraseSector_ev ?_
    | fail_if_no_progress with_reducible refine Evolves.upd ?_

theorem writeWords_ev {s0 s : State} {a ws} (h : Evolves s0 s) :
    Evolves s0 (writeWords s a ws) := by
  unfold writeWords
  repeat' first
    | with_reducible assumption
    | with_reducible refine writeCycle_ev ?_
    | with_reducible refine Evolves.foldl ?_ ?_
    | intro _

theorem persistInst_ev {s0 s : State} {i} (h : Evolves s0 s) :
    Evolves s0 (persistInst s i) := by
  unfold persistInst
  exact storePut_ev h

theorem restoreInst_ev {s0 old s : State} {i gen st args} (h : Evolves s0 s) :
    Evolves s0 (restoreInst old s i gen st args) := by
  unfold restoreInst
  repeat' first
    | with_reducible assumption
    | (fail_if_no_progress extract_lets -underBinder +onlyGivenNames x)
      refine (fun (hx : Evolves s0 x) => ?_ : Evolves s0 x → _) ?_
      (on_goal 1 => clear_value x)
      (on_goal 2 => simp -zeta only [x])
    | fail_if_no_progress extract_lets -underBinder +onlyGivenNames _x
    | with_reducible refine Evolves.ite ?_ ?_
    | with_reducible refine putInst_ev ?_
    | with_reducible refine modUnit_ev ?_
    | with_reducible refine putRing_ev ?_
    | with_reducible refine beginLog_ev ?_
    | with_reducible refine putLog_ev ?_
    | with_reducible refine Evolves.foldl ?_ ?_
    | intro _
    | split

theorem restoreKbpk_ev {s0 s : State} {item key gen at_} (h : Evolves s0 s) :
    Evolves s0 (restoreKbpk s item key gen at_) := by
  unfold restoreKbpk
  repeat' first
    | with_reducible assumption
    | fail_if_no_progress extract_lets -underBinder +onlyGivenNames _x
    | with_reducible refine putKeys_ev ?_
    | fail_if_no_progress with_reducible refine Evolves.upd ?_
    | split

theorem restoreLine_ev {s0 s : State} {e} (h : Evolves s0 s) :
    Evolves s0 (restoreLine s e) := by
  unfold restoreLine
  repeat' first
    | with_reducible assumption
    | (fail_if_no_progress extract_lets -underBinder +onlyGivenNames x)
      refine (fun (hx : Evolves s0 x) => ?_ : Evolves s0 x → _) ?_
      (on_goal 1 => clear_value x)
      (on_goal 2 => simp -zeta only [x])
    | fail_if_no_progress extract_lets -underBinder +onlyGivenNames _x
    | with_reducible refine Evolves.ite ?_ ?_
    | with_reducible refine putLine_ev ?_
    | with_reducible refine modUnit_ev ?_

theorem restoreItem_ev {s0 old s : State} {e} (h : Evolves s0 s) :
    Evolves s0 (restoreItem old s e) := by
  unfold restoreItem
  repeat' first
    | with_reducible assumption
    | fail_if_no_progress extract_lets -underBinder +onlyGivenNames _x
    | with_reducible refine restoreInst_ev ?_
    | with_reducible refine restoreKbpk_ev ?_
    | with_reducible refine restoreLine_ev ?_
    | with_reducible refine Evolves.foldl ?_ ?_
    | fail_if_no_progress with_reducible refine Evolves.upd ?_
    | intro _
    | split

theorem restoreStore_ev {s0 old s : State} (h : Evolves s0 s) :
    Evolves s0 (restoreStore old s) := by
  unfold restoreStore
  repeat' first
    | with_reducible assumption
    | (fail_if_no_progress extract_lets -underBinder +onlyGivenNames x)
      refine (fun (hx : Evolves s0 x) => ?_ : Evolves s0 x → _) ?_
      (on_goal 1 => clear_value x)
      (on_goal 2 => simp -zeta only [x])
    | with_reducible refine restoreItem_ev ?_
    | with_reducible refine rebindAll_ev ?_
    | with_reducible refine Evolves.foldl ?_ ?_
    | intro _

theorem retiredAtStart_ev {s0 s : State} {p factory field_ ix} (h : Evolves s0 s) :
    Evolves s0 (retiredAtStart s p factory field_ ix) := by
  unfold retiredAtStart
  repeat' first
    | with_reducible assumption
    | fail_if_no_progress extract_lets -underBinder +onlyGivenNames _x
    | with_reducible refine modUnit_ev ?_
    | with_reducible refine Evolves.foldl ?_ ?_
    | intro _

theorem applyMap_ev {s0 s : State} (h : Evolves s0 s) :
    Evolves s0 (applyMap s) := by
  unfold applyMap
  repeat' first
    | with_reducible assumption
    | (fail_if_no_progress extract_lets -underBinder +onlyGivenNames x)
      refine (fun (hx : Evolves s0 x) => ?_ : Evolves s0 x → _) ?_
      (on_goal 1 => clear_value x)
      (on_goal 2 => simp -zeta only [x])
    | fail_if_no_progress extract_lets -underBinder +onlyGivenNames _x
    | with_reducible refine Evolves.ite ?_ ?_
    | with_reducible refine retiredAtStart_ev ?_
    | with_reducible refine putSource_ev ?_
    | with_reducible refine Evolves.foldl ?_ ?_
    | fail_if_no_progress with_reducible refine Evolves.upd ?_
    | intro _
    | split

theorem resetBase_ev {s0 x0 : State} (hs0 : Evolves s0 x0) :
    Evolves s0 (resetBase x0) := by
  unfold resetBase
  exact ⟨hs0.queue, hs0.burned, fun _ => Nat.two_pow_pos 24, fun _ => ⟨by simp [State.reset], by simp [State.reset], by simp
    [State.reset]⟩, fun h =>
    ⟨rfl, rfl, rfl, rfl, rfl, rfl, rfl, rfl, rfl, rfl, rfl, rfl, filterMap_wf (hs0.tables h).ports _ fun e r hr => by
      split at hr <;> cases hr; exact ⟨rfl, by simp⟩⟩⟩

theorem reburnMarginal_ev {s0 s : State} (h : Evolves s0 s) :
    Evolves s0 (reburnMarginal s) := by
  unfold reburnMarginal
  repeat' first
    | with_reducible assumption
    | fail_if_no_progress extract_lets -underBinder +onlyGivenNames _x
    | with_reducible refine Evolves.ite ?_ ?_
    | with_reducible refine Keeps.snd (freeNat_ev ?_)
    | with_reducible refine setEvent_ev ?_
    | with_reducible refine otpBurned_ev ?_
    | fail_if_no_progress with_reducible refine Evolves.upd ?_

theorem sampleStraps_ev {s0 s : State} {v} (h : Evolves s0 s) :
    Evolves s0 (sampleStraps s v) := by
  unfold sampleStraps
  repeat' first
    | with_reducible assumption
    | fail_if_no_progress extract_lets -underBinder +onlyGivenNames _x
    | fail_if_no_progress with_reducible refine Evolves.upd ?_

theorem putImageHalf_ev {s0 s : State} {n a2} (h : Evolves s0 s) :
    Evolves s0 (putImageHalf s n a2) := by
  unfold putImageHalf
  repeat' first
    | with_reducible assumption
    | fail_if_no_progress extract_lets -underBinder +onlyGivenNames _x
    | fail_if_no_progress with_reducible refine Evolves.upd ?_

theorem installStaged_ev {s0 s : State} (h : Evolves s0 s) :
    Evolves s0 (installStaged s) := by
  unfold installStaged
  repeat' first
    | with_reducible assumption
    | (fail_if_no_progress extract_lets -underBinder +onlyGivenNames x)
      refine (fun (hx : Evolves s0 x) => ?_ : Evolves s0 x → _) ?_
      (on_goal 1 => clear_value x)
      (on_goal 2 => simp -zeta only [x])
    | fail_if_no_progress extract_lets -underBinder +onlyGivenNames _x
    | with_reducible refine putImageHalf_ev ?_
    | fail_if_no_progress with_reducible refine Evolves.upd ?_
    | split

theorem raiseFloor_ev {s0 s : State} (h : Evolves s0 s) :
    Evolves s0 (raiseFloor s) := by
  unfold raiseFloor
  repeat' first
    | (fail_if_success (with_reducible refine Evolves.upd ?_)); with_reducible refine Evolves.burn ?_ ?_
    | ((with_reducible refine BurnedStays.mk ?_ ?_ ?_ ?_ ?_ ?_ ?_ ?_ ?_) <;> simp +zetaDelta [← BitVec.or_assoc])
    | with_reducible assumption
    | fail_if_no_progress extract_lets -underBinder +onlyGivenNames _x
    | with_reducible refine Evolves.ite ?_ ?_
    | with_reducible refine otpBurned_ev ?_

theorem chooseHalf_ev {s0 s : State} (h : Evolves s0 s) :
    Keeps inLast s0 (chooseHalf s) := by
  unfold chooseHalf
  repeat' first
    | with_reducible assumption
    | (fail_if_no_progress extract_lets -underBinder +onlyGivenNames x)
      refine (fun (hx : Evolves s0 x) => ?_ : Evolves s0 x → _) ?_
      (on_goal 1 => clear_value x)
      (on_goal 2 => simp -zeta only [x])
    | fail_if_no_progress extract_lets -underBinder +onlyGivenNames _x
    | with_reducible refine Keeps.ite ?_ ?_
    | with_reducible refine installStaged_ev ?_
    | with_reducible refine raiseFloor_ev ?_
    | with_reducible refine putImageHalf_ev ?_
    | with_reducible refine Keeps.mkLast ?_

theorem lostDrk_ev {s0 s : State} (h : Evolves s0 s) :
    Evolves s0 (lostDrk s) := by
  unfold lostDrk
  repeat' first
    | with_reducible assumption
    | (fail_if_no_progress extract_lets -underBinder +onlyGivenNames x)
      refine (fun (hx : Evolves s0 x) => ?_ : Evolves s0 x → _) ?_
      (on_goal 1 => clear_value x)
      (on_goal 2 => simp -zeta only [x])
    | fail_if_no_progress extract_lets -underBinder +onlyGivenNames _x
    | with_reducible refine Evolves.ite ?_ ?_
    | with_reducible refine devAppend_ev ?_
    | with_reducible refine evidenceEvent_ev ?_
    | with_reducible refine wantDrk_ev ?_
    | fail_if_no_progress with_reducible refine Evolves.upd ?_

theorem drkCheck_ev {s0 s : State} (h : Evolves s0 s) :
    Keeps inFst s0 (drkCheck s) := by
  unfold drkCheck
  repeat' first
    | with_reducible assumption
    | (fail_if_no_progress extract_lets -underBinder +onlyGivenNames x)
      refine (fun (hx : Evolves s0 x) => ?_ : Evolves s0 x → _) ?_
      (on_goal 1 => clear_value x)
      (on_goal 2 => simp -zeta only [x])
    | fail_if_no_progress extract_lets -underBinder +onlyGivenNames _x
    | with_reducible refine lostDrk_ev ?_
    | with_reducible refine wantDrk_ev ?_
    | with_reducible refine devAppend_ev ?_
    | with_reducible refine Keeps.mkFst ?_
    | fail_if_no_progress with_reducible refine Evolves.upd ?_
    | split
    | dsimp -zeta +zetaDelta only

theorem enableAtStart_ev {s0 s : State} (h : Evolves s0 s) :
    Evolves s0 (enableAtStart s) := by
  unfold enableAtStart
  repeat' first
    | with_reducible assumption
    | (fail_if_no_progress extract_lets -underBinder +onlyGivenNames x)
      refine (fun (hx : Evolves s0 x) => ?_ : Evolves s0 x → _) ?_
      (on_goal 1 => clear_value x)
      (on_goal 2 => simp -zeta only [x])
    | fail_if_no_progress extract_lets -underBinder +onlyGivenNames _x
    | with_reducible refine Evolves.ite ?_ ?_
    | with_reducible refine modUnit_ev ?_
    | with_reducible refine postSeed_ev ?_
    | with_reducible refine noteNoChannel_ev ?_
    | with_reducible refine Evolves.foldl ?_ ?_
    | intro _

theorem reconcile_ev {s0 s : State} (h : Evolves s0 s) :
    Evolves s0 (reconcile s) := by
  unfold reconcile
  repeat' first
    | (fail_if_success (with_reducible refine Evolves.upd ?_)); with_reducible refine Evolves.burn ?_ ?_
    | ((with_reducible refine BurnedStays.mk ?_ ?_ ?_ ?_ ?_ ?_ ?_ ?_ ?_) <;> simp +zetaDelta [← BitVec.or_assoc])
    | with_reducible assumption
    | (fail_if_no_progress extract_lets -underBinder +onlyGivenNames x)
      refine (fun (hx : Evolves s0 x) => ?_ : Evolves s0 x → _) ?_
      (on_goal 1 => clear_value x)
      (on_goal 2 => simp -zeta only [x])
    | fail_if_no_progress extract_lets -underBinder +onlyGivenNames _x
    | with_reducible refine Evolves.ite ?_ ?_
    | with_reducible refine otpBurned_ev ?_
    | with_reducible refine Evolves.foldl ?_ ?_
    | fail_if_no_progress with_reducible refine Evolves.upd ?_
    | intro _

theorem startTimes_ev {s0 s : State} (h : Evolves s0 s) :
    Evolves s0 (startTimes s) := by
  unfold startTimes
  repeat' first
    | with_reducible refine Evolves.foldlLast ?_ ?_
    | with_reducible assumption
    | (fail_if_no_progress extract_lets -underBinder +onlyGivenNames x)
      refine (fun (hx : Evolves s0 x) => ?_ : Evolves s0 x → _) ?_
      (on_goal 1 => clear_value x)
      (on_goal 2 => simp -zeta only [x])
    | fail_if_no_progress extract_lets -underBinder +onlyGivenNames _x
    | with_reducible refine freeNat_ev ?_
    | with_reducible refine Keeps.ofSnd (by assumption) ?_
    | fail_if_no_progress with_reducible refine Evolves.upd ?_
    | intro _
    | split

theorem finishStart_ev {s0 old s : State} (h : Evolves s0 s) :
    Evolves s0 (finishStart old s) := by
  unfold finishStart
  repeat' first
    | with_reducible assumption
    | (fail_if_no_progress extract_lets -underBinder +onlyGivenNames x)
      refine (fun (hx : Evolves s0 x) => ?_ : Evolves s0 x → _) ?_
      (on_goal 1 => clear_value x)
      (on_goal 2 => simp -zeta only [x])
    | fail_if_no_progress extract_lets -underBinder +onlyGivenNames _x
    | with_reducible refine Evolves.ite ?_ ?_
    | with_reducible refine enableAtStart_ev ?_
    | with_reducible refine applyMap_ev ?_
    | with_reducible refine reconcile_ev ?_
    | with_reducible refine restoreStore_ev ?_
    | with_reducible refine cellEvents_ev ?_
    | with_reducible refine continueEpisode_ev ?_
    | with_reducible refine loadSrcCfg_ev ?_
    | with_reducible refine tagSeed_ev ?_
    | with_reducible refine modUnit_ev ?_
    | with_reducible refine startTimes_ev ?_
    | with_reducible refine setEvent_ev ?_
    | with_reducible refine writeQuiesce1_ev ?_
    | fail_if_no_progress with_reducible refine Evolves.upd ?_

theorem startOnce_ev {s0 s : State} {cause straps} (h : Evolves s0 s) :
    Keeps inFst s0 (startOnce s cause straps) := by
  unfold startOnce
  repeat' first
    | with_reducible assumption
    | (fail_if_no_progress extract_lets -underBinder +onlyGivenNames x)
      refine (fun (hx : Evolves s0 x) => ?_ : Evolves s0 x → _) ?_
      (on_goal 1 => clear_value x)
      (on_goal 2 => simp -zeta only [x])
    | fail_if_no_progress extract_lets -underBinder +onlyGivenNames _x
    | with_reducible refine Keeps.ite ?_ ?_
    | with_reducible refine resetBase_ev ?_
    | with_reducible refine bootMooring_ev ?_
    | with_reducible refine reburnMarginal_ev ?_
    | with_reducible refine sampleStraps_ev ?_
    | with_reducible refine Keeps.last (chooseHalf_ev ?_)
    | with_reducible refine setUState_ev ?_
    | with_reducible refine loadSrcCfg_ev ?_
    | with_reducible refine fireCore_ev ?_
    | with_reducible refine drkCheck_ev ?_
    | with_reducible refine finishStart_ev ?_
    | with_reducible refine Keeps.ofFst (by assumption) ?_
    | with_reducible refine Keeps.mkFst ?_
    | fail_if_no_progress with_reducible refine Evolves.upd ?_
    | split

theorem deviceStart_ev {s0 x0 : State} {x1 x2} (hs0 : Evolves s0 x0) :
    Evolves s0 (deviceStart x0 x1 x2) := by
  unfold deviceStart
  have h1 : Evolves s0 (startOnce x0 x1 x2).1 := (startOnce_ev hs0).fst
  generalize startOnce x0 x1 x2 = p at h1 ⊢
  obtain ⟨t, r⟩ := p
  refine Evolves.ite ((startOnce_ev ?_).fst) h1
  exact ⟨h1.queue, h1.burned, h1.pointer, h1.gate, fun h =>
    let y := h1.tables h
    ⟨y.regs, y.units, (hs0.tables h).rings, y.jobs, y.intakes, y.msix, y.events, y.evtSel, y.evtRes, y.sails, y.lanes, y.cores,
      y.ports⟩⟩

theorem deviceReset_ev {s0 s : State} {cause} (h : Evolves s0 s) :
    Evolves s0 (deviceReset s cause) := by
  unfold deviceReset
  exact deviceStart_ev h

theorem fireTamper_ev {s0 s : State} {src} (h : Evolves s0 s) :
    Evolves s0 (fireTamper s src) := by
  unfold fireTamper
  repeat' first
    | with_reducible assumption
    | with_reducible refine Evolves.ite ?_ ?_
    | with_reducible refine Keeps.fst (fireCore_ev ?_)
    | with_reducible refine deviceReset_ev ?_

theorem execTmpFiredClear_ev {s0 s : State} {acc hi mask} (h : Evolves s0 s) :
    Keeps inOut s0 (execTmpFiredClear acc hi mask s) := by
  unfold execTmpFiredClear
  exact Keeps.next (Evolves.ite (writeFired_ev h) h)

theorem vbatCollapse_ev {s0 s : State} (h : Evolves s0 s) :
    Evolves s0 (vbatCollapse s) := by
  unfold vbatCollapse
  exact Evolves.ite h (Evolves.upd h)

theorem execVbatCollapse_ev {s0 s : State} (h : Evolves s0 s) :
    Keeps inOut s0 (execVbatCollapse s) := by
  unfold execVbatCollapse
  exact Keeps.next (vbatCollapse_ev h)

theorem execMooringLogClear_ev {s0 s : State} {acc value} (h : Evolves s0 s) :
    Keeps inOut s0 (execMooringLogClear acc value s) := by
  unfold execMooringLogClear
  exact Keeps.next (Evolves.ite (clearMooringLog_ev h) h)

theorem execCellTamperFire_ev {s0 s : State} {src} (h : Evolves s0 s) :
    Keeps inOut s0 (execCellTamperFire src s) := by
  unfold execCellTamperFire
  exact Keeps.next (fireCell_ev h)

theorem execTmpSrcCfgWrite_ev {s0 s : State} {acc src value} (h : Evolves s0 s) :
    Keeps inOut s0 (execTmpSrcCfgWrite acc src value s) := by
  unfold execTmpSrcCfgWrite
  exact Keeps.next (Evolves.ite (writeSrcCfg_ev h) h)

theorem sample_ev {s0 s : State} {src asserted} (h : Evolves s0 s) :
    Evolves s0 (sample s src asserted) := by
  unfold sample
  repeat' first
    | with_reducible assumption
    | fail_if_no_progress extract_lets -underBinder +onlyGivenNames _x
    | with_reducible refine Evolves.ite ?_ ?_
    | with_reducible refine closeEpisode_ev ?_
    | with_reducible refine putSrc_ev ?_
    | with_reducible refine fireTamper_ev ?_
    | with_reducible refine fireCell_ev ?_

theorem execTmpTest_ev {s0 s : State} {acc value} (h : Evolves s0 s) :
    Keeps inOut s0 (execTmpTest acc value s) := by
  unfold execTmpTest
  exact Keeps.next (Evolves.ite (writeTest_ev h) h)

theorem execTmpTestDone_ev {s0 s : State} {pass} (h : Evolves s0 s) :
    Keeps inOut s0 (execTmpTestDone pass s) := by
  unfold execTmpTestDone
  exact Keeps.next (testDone_ev h)

theorem vinLoss_ev {s0 x0 : State} (hs0 : Evolves s0 x0) :
    Evolves s0 (vinLoss x0) := by
  unfold vinLoss
  refine Evolves.ite hs0 ?_
  extract_lets tear s b
  have ht : ∀ a n, Evolves s0 a → Evolves s0 (tear a n) := fun a n h => by
    simp only [tear]; split
    · exact tearRun_ev h
    · exact h
  have h0 : Evolves s0 s := tagVinLoss_ev (ht _ _ (ht _ _ hs0))
  have h1 : Evolves s0 b := resetBase_ev h0
  clear_value b s
  exact ⟨h1.queue, h1.burned, h1.pointer, h1.gate, fun h =>
    let y := h1.tables h
    ⟨y.regs, y.units, filterMap_wf (h0.tables h).rings _ fun e r hr => by
      simp only [Option.map_eq_some_iff] at hr; obtain ⟨g, _, rfl⟩ := hr; exact ⟨rfl, by simp⟩,
      y.jobs, y.intakes, y.msix, y.events, y.evtSel, y.evtRes, y.sails, y.lanes, y.cores, y.ports⟩⟩

theorem execVinLoss_ev {s0 s : State} (h : Evolves s0 s) :
    Keeps inOut s0 (execVinLoss s) := by
  unfold execVinLoss
  exact Keeps.next (vinLoss_ev h)

theorem execTamperSample_ev {s0 s : State} {src asserted} (h : Evolves s0 s) :
    Keeps inOut s0 (execTamperSample src asserted s) := by
  unfold execTamperSample
  exact Keeps.next (sample_ev h)

theorem tamperFire_ev {s0 s : State} {src machine unit} (h : Evolves s0 s) :
    Evolves s0 (tamperFire s src machine unit) := by
  unfold tamperFire
  repeat' first
    | with_reducible assumption
    | with_reducible refine Evolves.ite ?_ ?_
    | with_reducible refine Keeps.fst (fireFsm_ev ?_)
    | with_reducible refine deviceReset_ev ?_
    | with_reducible refine fireTamper_ev ?_

theorem execTamperFire_ev {s0 s : State} {src machine unit} (h : Evolves s0 s) :
    Keeps inOut s0 (execTamperFire src machine unit s) := by
  unfold execTamperFire
  exact Keeps.next (tamperFire_ev h)

theorem execEvidenceBitBurn_ev {s0 s : State} (h : Evolves s0 s) :
    Keeps inOut s0 (execEvidenceBitBurn s) := by
  unfold execEvidenceBitBurn
  exact Keeps.next (burnEvidence_ev h)

theorem execTmpFuseBurn_ev {s0 s : State} {acc value} (h : Evolves s0 s) :
    Keeps inOut s0 (execTmpFuseBurn acc value s) := by
  unfold execTmpFuseBurn
  exact Keeps.next (Evolves.ite (burnFuse_ev h) h)

theorem flashRead_ev {s0 s : State} {acc ecc} (h : Evolves s0 s) :
    Evolves s0 (flashRead s acc ecc) := by
  unfold flashRead
  repeat' first
    | with_reducible assumption
    | with_reducible refine Evolves.ite ?_ ?_
    | with_reducible refine Keeps.fst (winRead_ev ?_)
    | with_reducible refine fireTamper_ev ?_

theorem execFlWinDataRead_ev {s0 s : State} {acc ecc} (h : Evolves s0 s) :
    Keeps inOut s0 (execFlWinDataRead acc ecc s) := by
  unfold execFlWinDataRead
  exact Keeps.next (flashRead_ev h)

theorem execEraseSuspended_ev {s0 s : State} {bank} (h : Evolves s0 s) :
    Keeps inOut s0 (execEraseSuspended bank s) := by
  unfold execEraseSuspended
  exact Keeps.next (suspendNow_ev h)

theorem fwCycles_ev {s0 s : State} {acc f} (h : Evolves s0 s) (hf0 : ∀ a, Evolves s0 a → Evolves s0 (f a)) :
    Evolves s0 (fwCycles acc s f) := by
  unfold fwCycles
  repeat' first
    | with_reducible assumption
    | with_reducible refine Evolves.ite ?_ ?_
    | with_reducible refine hf0 _ ?_

theorem execBrownout_ev {s0 s : State} (h : Evolves s0 s) :
    Keeps inOut s0 (execBrownout s) := by
  unfold execBrownout
  exact Keeps.next (brownoutAssert_ev h)

theorem execReadStatus_ev {s0 x2 : State} {x0 x1} (hs0 : Evolves s0 x2) :
    Keeps inOut s0 (execReadStatus x0 x1 x2) := by
  exact Keeps.next (fwCycles_ev hs0 fun _ h => unlockAnd_ev h)

theorem execFlashOperationEnd_ev {s0 s : State} {bank good} (h : Evolves s0 s) :
    Keeps inOut s0 (execFlashOperationEnd bank good s) := by
  unfold execFlashOperationEnd
  exact Keeps.next (operationEnd_ev h)

theorem execProgramGranule_ev {s0 s : State} {acc addr w0 w1 w2 w3} (h : Evolves s0 s) :
    Keeps inOut s0 (execProgramGranule acc addr w0 w1 w2 w3 s) := by
  unfold execProgramGranule
  repeat' first
    | with_reducible assumption
    | with_reducible refine fwCycles_ev ?_ ?_
    | with_reducible refine writeWords_ev ?_
    | with_reducible refine unlockAnd_ev ?_
    | with_reducible refine Keeps.next ?_
    | intro _

theorem execEraseSuspend_ev {s0 s : State} {acc bank} (h : Evolves s0 s) :
    Keeps inOut s0 (execEraseSuspend acc bank s) := by
  unfold execEraseSuspend
  repeat' first
    | with_reducible assumption
    | with_reducible refine fwCycles_ev ?_ ?_
    | with_reducible refine writeCycle_ev ?_
    | with_reducible refine Keeps.next ?_
    | intro _

theorem execEraseResume_ev {s0 s : State} {acc bank} (h : Evolves s0 s) :
    Keeps inOut s0 (execEraseResume acc bank s) := by
  unfold execEraseResume
  repeat' first
    | with_reducible assumption
    | with_reducible refine fwCycles_ev ?_ ?_
    | with_reducible refine writeCycle_ev ?_
    | with_reducible refine Keeps.next ?_
    | intro _

theorem execSectorErase_ev {s0 s : State} {acc addr} (h : Evolves s0 s) :
    Keeps inOut s0 (execSectorErase acc addr s) := by
  unfold execSectorErase
  repeat' first
    | with_reducible assumption
    | with_reducible refine fwCycles_ev ?_ ?_
    | with_reducible refine writeCycle_ev ?_
    | with_reducible refine unlockAnd_ev ?_
    | with_reducible refine Keeps.next ?_
    | intro _

theorem execStoreCompaction_ev {s0 s : State} (h : Evolves s0 s) :
    Keeps inOut s0 (execStoreCompaction s) := by
  unfold execStoreCompaction
  exact Keeps.next (compactStore_ev h)

theorem execBufferedProgram_ev {s0 s : State} {acc addr data} (h : Evolves s0 s) :
    Keeps inOut s0 (execBufferedProgram acc addr data s) := by
  unfold execBufferedProgram
  repeat' first
    | with_reducible assumption
    | with_reducible refine fwCycles_ev ?_ ?_
    | with_reducible refine writeWords_ev ?_
    | with_reducible refine writeCycle_ev ?_
    | with_reducible refine unlockAnd_ev ?_
    | with_reducible refine Keeps.next ?_
    | intro _

theorem execReturnToReadArray_ev {s0 s : State} {acc bank} (h : Evolves s0 s) :
    Keeps inOut s0 (execReturnToReadArray acc bank s) := by
  unfold execReturnToReadArray
  repeat' first
    | with_reducible assumption
    | with_reducible refine fwCycles_ev ?_ ?_
    | with_reducible refine writeCycle_ev ?_
    | with_reducible refine Keeps.next ?_
    | intro _

theorem execBrownoutDeassert_ev {s0 s : State} (h : Evolves s0 s) :
    Keeps inOut s0 (execBrownoutDeassert s) := by
  unfold execBrownoutDeassert
  repeat' first
    | with_reducible assumption
    | fail_if_no_progress extract_lets -underBinder +onlyGivenNames _x
    | with_reducible refine Keeps.next ?_
    | fail_if_no_progress with_reducible refine Evolves.upd ?_

theorem loadImage_ev {s0 s : State} {k b} (h : Evolves s0 s) :
    Evolves s0 (loadImage s k b) := by
  unfold loadImage
  repeat' first
    | with_reducible assumption
    | (fail_if_no_progress extract_lets -underBinder +onlyGivenNames x)
      refine (fun (hx : Evolves s0 x) => ?_ : Evolves s0 x → _) ?_
      (on_goal 1 => clear_value x)
      (on_goal 2 => simp -zeta only [x])
    | fail_if_no_progress extract_lets -underBinder +onlyGivenNames _x
    | with_reducible refine Evolves.ite ?_ ?_
    | with_reducible refine devAppend_ev ?_
    | with_reducible refine storePut_ev ?_
    | fail_if_no_progress with_reducible refine Evolves.upd ?_

end Sys2Proof.Machine
end

