-- ==== Sys2Proof/Laws/EvolvesInst.lean ====
section
/-! SUPPORT. `Evolves`: one lemma for each operation of instances, the bridle, the host ports, power and the registers. Each
says that what `Evolves` keeps up to the state the operation begins with, it keeps up to the state the operation leaves. -/

namespace Sys2Proof.Machine

theorem abortEarly_ev {s0 s : State} {i} (h : Evolves s0 s) :
    Evolves s0 (abortEarly s i) := by
  unfold abortEarly
  repeat' first
    | with_reducible assumption
    | with_reducible refine failJob_ev ?_
    | with_reducible refine Evolves.foldl ?_ ?_
    | intro _

theorem beginRemove_ev {s0 s : State} {i} (h : Evolves s0 s) :
    Evolves s0 (beginRemove s i) := by
  unfold beginRemove
  repeat' first
    | with_reducible assumption
    | (fail_if_no_progress extract_lets -underBinder +onlyGivenNames x)
      refine (fun (hx : Evolves s0 x) => ?_ : Evolves s0 x → _) ?_
      (on_goal 1 => clear_value x)
      (on_goal 2 => simp -zeta only [x])
    | fail_if_no_progress extract_lets -underBinder +onlyGivenNames _x
    | with_reducible refine putInst_ev ?_
    | with_reducible refine setUState_ev ?_
    | with_reducible refine modUnit_ev ?_
    | with_reducible refine dropTake_ev ?_
    | with_reducible refine putIntake_ev ?_
    | with_reducible refine abortEarly_ev ?_
    | with_reducible refine Evolves.foldl ?_ ?_
    | intro _

theorem writePending_ev {s0 s : State} {i} (h : Evolves s0 s) :
    Evolves s0 (writePending s i) := by
  unfold writePending
  repeat' first
    | with_reducible assumption
    | fail_if_no_progress extract_lets -underBinder +onlyGivenNames _x
    | with_reducible refine writeSeal_ev ?_
    | with_reducible refine writeKeyRec_ev ?_
    | with_reducible refine Evolves.foldl ?_ ?_
    | intro _

theorem beginFreeze_ev {s0 s : State} {i} (h : Evolves s0 s) :
    Evolves s0 (beginFreeze s i) := by
  unfold beginFreeze
  repeat' first
    | with_reducible assumption
    | (fail_if_no_progress extract_lets -underBinder +onlyGivenNames x)
      refine (fun (hx : Evolves s0 x) => ?_ : Evolves s0 x → _) ?_
      (on_goal 1 => clear_value x)
      (on_goal 2 => simp -zeta only [x])
    | fail_if_no_progress extract_lets -underBinder +onlyGivenNames _x
    | with_reducible refine putInst_ev ?_
    | with_reducible refine modUnit_ev ?_
    | with_reducible refine dropTake_ev ?_
    | with_reducible refine putIntake_ev ?_
    | with_reducible refine Evolves.foldl ?_ ?_
    | intro _

theorem putWin_ev {s0 s : State} {a w} (h : Evolves s0 s) :
    Evolves s0 (putWin s a w) := by
  unfold putWin
  repeat' first
    | with_reducible assumption
    | fail_if_no_progress extract_lets -underBinder +onlyGivenNames _x
    | fail_if_no_progress with_reducible refine Evolves.upd ?_

theorem sendSpan_ev {s0 s : State} {i kind n x} (h : Evolves s0 s) :
    Evolves s0 (sendSpan s i kind n x) := by
  unfold sendSpan
  repeat' first
    | with_reducible assumption
    | fail_if_no_progress extract_lets -underBinder +onlyGivenNames _x
    | with_reducible refine sendTo_ev ?_

theorem createOrReserve_ev {s0 s : State} {i span x go} (h : Evolves s0 s) (hf0 : ∀ a, Evolves s0 a → Evolves s0 (go a)) :
    Keeps inFst s0 (createOrReserve s i span x go) := by
  unfold createOrReserve
  repeat' first
    | with_reducible assumption
    | (fail_if_no_progress extract_lets -underBinder +onlyGivenNames x)
      refine (fun (hx : Evolves s0 x) => ?_ : Evolves s0 x → _) ?_
      (on_goal 1 => clear_value x)
      (on_goal 2 => simp -zeta only [x])
    | fail_if_no_progress extract_lets -underBinder +onlyGivenNames _x
    | with_reducible refine sendSpan_ev ?_
    | with_reducible refine Keeps.mkFst ?_
    | with_reducible refine hf0 _ ?_
    | with_reducible refine Evolves.foldl ?_ ?_
    | fail_if_no_progress with_reducible refine Evolves.upd ?_
    | intro _
    | split

theorem createNow_ev {s0 s : State} {i x log} (h : Evolves s0 s) (hf0 : ∀ a, Evolves s0 a → Evolves s0 (log a)) :
    Evolves s0 (createNow s i x log) := by
  unfold createNow
  repeat' first
    | with_reducible assumption
    | (fail_if_no_progress extract_lets -underBinder +onlyGivenNames x)
      refine (fun (hx : Evolves s0 x) => ?_ : Evolves s0 x → _) ?_
      (on_goal 1 => clear_value x)
      (on_goal 2 => simp -zeta only [x])
    | fail_if_no_progress extract_lets -underBinder +onlyGivenNames _x
    | with_reducible refine Evolves.ite ?_ ?_
    | with_reducible refine putInst_ev ?_
    | with_reducible refine putRing_ev ?_
    | with_reducible refine setUState_ev ?_
    | with_reducible refine modUnit_ev ?_
    | with_reducible refine rebind_ev ?_
    | with_reducible refine mendShare_ev ?_
    | with_reducible refine persistInst_ev ?_
    | with_reducible refine beginQuiesce_ev ?_
    | with_reducible refine hf0 _ ?_
    | with_reducible refine Evolves.foldl ?_ ?_
    | intro _

theorem createGo_ev {s0 s : State} {i w} (h : Evolves s0 s) :
    Evolves s0 (createGo s i w) := by
  unfold createGo
  repeat' first
    | with_reducible assumption
    | fail_if_no_progress extract_lets -underBinder +onlyGivenNames _x
    | with_reducible refine createNow_ev ?_ ?_
    | with_reducible refine beginLog_ev ?_
    | intro _

theorem resetRings_ev {s0 s : State} {i keep} (h : Evolves s0 s) :
    Evolves s0 (resetRings s i keep) := by
  unfold resetRings
  repeat' first
    | with_reducible assumption
    | (fail_if_no_progress extract_lets -underBinder +onlyGivenNames x)
      refine (fun (hx : Evolves s0 x) => ?_ : Evolves s0 x → _) ?_
      (on_goal 1 => clear_value x)
      (on_goal 2 => simp -zeta only [x])
    | fail_if_no_progress extract_lets -underBinder +onlyGivenNames _x
    | with_reducible refine dropTake_ev ?_
    | with_reducible refine putIntake_ev ?_
    | with_reducible refine putRing_ev ?_
    | with_reducible refine Evolves.foldl ?_ ?_
    | intro _

theorem resetInst_ev {s0 s : State} {i} (h : Evolves s0 s) :
    Evolves s0 (resetInst s i) := by
  unfold resetInst
  repeat' first
    | with_reducible assumption
    | (fail_if_no_progress extract_lets -underBinder +onlyGivenNames x)
      refine (fun (hx : Evolves s0 x) => ?_ : Evolves s0 x → _) ?_
      (on_goal 1 => clear_value x)
      (on_goal 2 => simp -zeta only [x])
    | fail_if_no_progress extract_lets -underBinder +onlyGivenNames _x
    | with_reducible refine putInst_ev ?_
    | with_reducible refine resetRings_ev ?_
    | with_reducible refine dpEvent_ev ?_
    | with_reducible refine persistInst_ev ?_
    | with_reducible refine abortEarly_ev ?_

theorem signedWhen_ev {s0 s : State} {a r} (h : Evolves s0 s) (hr : Keeps inFst s0 r) :
    Keeps inFst s0 (signedWhen s a r) := by
  unfold signedWhen
  exact Keeps.ite (Keeps.mkFst (putWin_ev h)) (Keeps.mkFst hr.fst)

theorem identitySigs_ev {s0 s : State} {body context} (h : Evolves s0 s) :
    Keeps inSnd s0 (identitySigs s body context) := by
  unfold identitySigs
  repeat' first
    | with_reducible assumption
    | with_reducible refine Keeps.snd (freeBytes_ev ?_)
    | with_reducible refine passKeel_ev ?_
    | with_reducible refine Keeps.mkSnd ?_

theorem doTicket_ev {s0 s : State} {a i w} (h : Evolves s0 s) :
    Keeps inFst s0 (doTicket s a i w) := by
  unfold doTicket
  repeat' first
    | with_reducible assumption
    | fail_if_no_progress extract_lets -underBinder +onlyGivenNames _x
    | with_reducible refine Keeps.ite ?_ ?_
    | with_reducible refine putWin_ev ?_
    | with_reducible refine Keeps.snd (keelDraw_ev ?_)
    | with_reducible refine Keeps.snd (identitySigs_ev ?_)
    | with_reducible refine emit_ev ?_
    | with_reducible refine Keeps.mkFst ?_
    | fail_if_no_progress with_reducible refine Evolves.upd ?_

theorem saveRecord_ev {s0 s : State} {i t} (h : Evolves s0 s) :
    Keeps inSnd s0 (saveRecord s i t) := by
  unfold saveRecord
  repeat' first
    | with_reducible assumption
    | with_reducible refine Keeps.snd (keelDraw_ev ?_)
    | with_reducible refine Keeps.snd (identitySigs_ev ?_)
    | with_reducible refine Keeps.mkSnd ?_

theorem doSave_ev {s0 s : State} {a i w} (h : Evolves s0 s) :
    Keeps inFst s0 (doSave s a i w) := by
  unfold doSave
  repeat' first
    | with_reducible assumption
    | (fail_if_no_progress extract_lets -underBinder +onlyGivenNames x)
      refine (fun (hx : Evolves s0 x) => ?_ : Evolves s0 x → _) ?_
      (on_goal 1 => clear_value x)
      (on_goal 2 => simp -zeta only [x])
    | fail_if_no_progress extract_lets -underBinder +onlyGivenNames _x
    | with_reducible refine Keeps.ite ?_ ?_
    | with_reducible refine Keeps.snd (saveRecord_ev ?_)
    | with_reducible refine putWin_ev ?_
    | with_reducible refine emit_ev ?_
    | with_reducible refine setEvent_ev ?_
    | with_reducible refine persistInst_ev ?_
    | with_reducible refine putInst_ev ?_
    | with_reducible refine Keeps.mkFst ?_

theorem restoreCheck_ev {s0 s : State} {i w} (h : Evolves s0 s) :
    Keeps inFst s0 (restoreCheck s i w) := by
  unfold restoreCheck
  repeat' first
    | with_reducible assumption
    | fail_if_no_progress extract_lets -underBinder +onlyGivenNames _x
    | with_reducible refine Keeps.mkFst ?_
    | fail_if_no_progress with_reducible refine Evolves.upd ?_
    | split

theorem restoreRings_ev {s0 s : State} {i n p} (h : Evolves s0 s) :
    Evolves s0 (restoreRings s i n p) := by
  unfold restoreRings
  repeat' first
    | with_reducible assumption
    | fail_if_no_progress extract_lets -underBinder +onlyGivenNames _x
    | with_reducible refine putRing_ev ?_
    | with_reducible refine Evolves.foldl ?_ ?_
    | intro _

theorem restoreNow_ev {s0 s : State} {i w p} (h : Evolves s0 s) :
    Evolves s0 (restoreNow s i w p) := by
  unfold restoreNow
  repeat' first
    | with_reducible assumption
    | (fail_if_no_progress extract_lets -underBinder +onlyGivenNames x)
      refine (fun (hx : Evolves s0 x) => ?_ : Evolves s0 x → _) ?_
      (on_goal 1 => clear_value x)
      (on_goal 2 => simp -zeta only [x])
    | fail_if_no_progress extract_lets -underBinder +onlyGivenNames _x
    | with_reducible refine Evolves.ite ?_ ?_
    | with_reducible refine putKeys_ev ?_
    | with_reducible refine putLog_ev ?_
    | with_reducible refine restoreRings_ev ?_
    | with_reducible refine continueLog_ev ?_
    | with_reducible refine createNow_ev ?_ ?_
    | with_reducible refine persistKeys_ev ?_
    | with_reducible refine dpEvent_ev ?_
    | with_reducible refine keyChange_ev ?_
    | with_reducible refine armLowest_ev ?_
    | with_reducible refine putEvt_ev ?_
    | with_reducible refine Evolves.foldl ?_ ?_
    | fail_if_no_progress with_reducible refine Evolves.upd ?_
    | intro _
    | split

theorem tellSpan_ev {s0 s : State} {i kind} (h : Evolves s0 s) :
    Evolves s0 (tellSpan s i kind) := by
  unfold tellSpan
  repeat' first
    | with_reducible assumption
    | fail_if_no_progress extract_lets -underBinder +onlyGivenNames _x
    | with_reducible refine sendSpan_ev ?_
    | with_reducible refine Evolves.foldl ?_ ?_
    | intro _

theorem armActivate_ev {s0 s : State} {k i pos} (h : Evolves s0 s) :
    Evolves s0 (armActivate s k i pos) := by
  unfold armActivate
  repeat' first
    | with_reducible assumption
    | (fail_if_no_progress extract_lets -underBinder +onlyGivenNames x)
      refine (fun (hx : Evolves s0 x) => ?_ : Evolves s0 x → _) ?_
      (on_goal 1 => clear_value x)
      (on_goal 2 => simp -zeta only [x])
    | fail_if_no_progress extract_lets -underBinder +onlyGivenNames _x
    | with_reducible refine armLowest_ev ?_
    | with_reducible refine storePut_ev ?_
    | fail_if_no_progress with_reducible refine Evolves.upd ?_

theorem sendKbpk_ev {s0 s : State} {n kind i k gen pos kcv key} (h : Evolves s0 s) :
    Evolves s0 (sendKbpk s n kind i k gen pos kcv key) := by
  unfold sendKbpk
  exact sendTo_ev h

theorem doCeremony_ev {s0 s : State} {op i w} (h : Evolves s0 s) :
    Keeps inFst s0 (doCeremony s op i w) := by
  unfold doCeremony
  repeat' first
    | with_reducible assumption
    | (fail_if_no_progress extract_lets -underBinder +onlyGivenNames x)
      refine (fun (hx : Evolves s0 x) => ?_ : Evolves s0 x → _) ?_
      (on_goal 1 => clear_value x)
      (on_goal 2 => simp -zeta only [x])
    | fail_if_no_progress extract_lets -underBinder +onlyGivenNames _x
    | with_reducible refine beginSplit_ev ?_
    | with_reducible refine emptySlot_ev ?_
    | with_reducible refine armActivate_ev ?_
    | with_reducible refine sendKbpk_ev ?_
    | with_reducible refine Keeps.mkFst ?_
    | with_reducible refine Evolves.foldl ?_ ?_
    | fail_if_no_progress with_reducible refine Evolves.upd ?_
    | intro _
    | split

theorem runRequest_ev {s0 x0 : State} {x1} (hs0 : Evolves s0 x0) :
    Keeps inFst s0 (runRequest x0 x1) := by
  unfold runRequest
  extract_lets -underBinder w i op x c
  clear_value op x
  refine Keeps.ite (Keeps.mkFst hs0) ?_
  split
  · exact Keeps.ite (Keeps.mkFst hs0) (Keeps.ite (Keeps.mkFst hs0) (createOrReserve_ev hs0 fun _ h => createGo_ev h))
  · exact Keeps.ite (Keeps.mkFst hs0) (Keeps.ite (Keeps.mkFst (putInst_ev hs0)) (Keeps.mkFst (resetInst_ev hs0)))
  · exact Keeps.mkFst (beginRemove_ev hs0)
  · exact Keeps.mkFst (beginFreeze_ev hs0)
  · exact Keeps.ite (Keeps.mkFst hs0) (Keeps.mkFst (persistInst_ev (tryRun_ev (modUnit_ev hs0))))
  · exact signedWhen_ev hs0 (doTicket_ev hs0)
  · exact signedWhen_ev hs0 (doSave_ev hs0)
  · split; rename_i e
    have h1 := Keeps.ofFst e (restoreCheck_ev hs0)
    exact Keeps.ite (Keeps.mkFst h1) (createOrReserve_ev h1 fun _ h => restoreNow_ev h)
  · exact Keeps.ite (Keeps.mkFst hs0) (Keeps.ite (Keeps.mkFst hs0)
      (Keeps.mkFst (tellSpan_ev (persistInst_ev (rebind_ev (mendShare_ev (putInst_ev hs0)))))))
  · exact Keeps.mkFst (tellSpan_ev (persistInst_ev (putInst_ev hs0)))
  · split
    · exact Keeps.ite (Keeps.mkFst (loadImage_ev hs0)) (Keeps.mkFst (storeDrop_ev (Evolves.upd hs0)))
    · exact Keeps.mkFst hs0
  · refine Keeps.ite (Keeps.mkFst (putWin_ev hs0)) (Keeps.ite (Keeps.mkFst hs0) ?_)
    split; rename_i e; exact Keeps.mkFst (Keeps.ofFst e (doCeremony_ev hs0))

theorem endRequest_ev {s0 s : State} {a code} (h : Evolves s0 s) :
    Evolves s0 (endRequest s a code) := by
  unfold endRequest
  repeat' first
    | with_reducible assumption
    | fail_if_no_progress extract_lets -underBinder +onlyGivenNames _x
    | with_reducible refine Evolves.ite ?_ ?_
    | with_reducible refine putWin_ev ?_
    | with_reducible refine setEvent_ev ?_

theorem tryRequest_ev {s0 s : State} {a} (h : Evolves s0 s) :
    Evolves s0 (tryRequest s a) := by
  unfold tryRequest
  repeat' first
    | with_reducible assumption
    | (fail_if_no_progress extract_lets -underBinder +onlyGivenNames x)
      refine (fun (hx : Evolves s0 x) => ?_ : Evolves s0 x → _) ?_
      (on_goal 1 => clear_value x)
      (on_goal 2 => simp -zeta only [x])
    | fail_if_no_progress extract_lets -underBinder +onlyGivenNames _x
    | with_reducible refine Evolves.ite ?_ ?_
    | with_reducible refine putWin_ev ?_
    | with_reducible refine runRequest_ev ?_
    | with_reducible refine endRequest_ev ?_
    | with_reducible refine Keeps.ofFst (by assumption) ?_
    | split

theorem zeroiseRestore_ev {s0 s : State} {a} (h : Evolves s0 s) :
    Evolves s0 (zeroiseRestore s a) := by
  unfold zeroiseRestore
  repeat' first
    | with_reducible assumption
    | fail_if_no_progress extract_lets -underBinder +onlyGivenNames _x
    | with_reducible refine Evolves.ite ?_ ?_
    | with_reducible refine endRequest_ev ?_
    | with_reducible refine sendSpan_ev ?_
    | with_reducible refine Evolves.foldl ?_ ?_
    | intro _

theorem pumpRequests_ev {s0 s : State} (h : Evolves s0 s) :
    Evolves s0 (pumpRequests s) := by
  unfold pumpRequests
  repeat' first
    | with_reducible assumption
    | with_reducible refine tryRequest_ev ?_
    | with_reducible refine zeroiseRestore_ev ?_
    | with_reducible refine Evolves.foldl ?_ ?_
    | intro _

theorem imGo_ev {s0 s : State} {acc op i data} (h : Evolves s0 s) :
    Evolves s0 (imGo s acc op i data) := by
  unfold imGo
  repeat' first
    | with_reducible assumption
    | (fail_if_no_progress extract_lets -underBinder +onlyGivenNames x)
      refine (fun (hx : Evolves s0 x) => ?_ : Evolves s0 x → _) ?_
      (on_goal 1 => clear_value x)
      (on_goal 2 => simp -zeta only [x])
    | fail_if_no_progress extract_lets -underBinder +onlyGivenNames _x
    | with_reducible refine Evolves.ite ?_ ?_
    | with_reducible refine putWin_ev ?_
    | with_reducible refine pumpRequests_ev ?_
    | with_reducible refine wakeUp_ev ?_
    | fail_if_no_progress with_reducible refine Evolves.upd ?_

theorem imRow_ev {s0 s : State} {acc op i data} (h : Evolves s0 s) :
    Evolves s0 (imRow s acc op i data) := by
  unfold imRow
  repeat' first
    | with_reducible assumption
    | fail_if_no_progress extract_lets -underBinder +onlyGivenNames _x
    | with_reducible refine Evolves.ite ?_ ?_
    | with_reducible refine pumpRequests_ev ?_
    | with_reducible refine putWin_ev ?_
    | with_reducible refine imGo_ev ?_

theorem execTicket_ev {s0 s : State} {acc inst} (h : Evolves s0 s) :
    Keeps inOut s0 (execTicket acc inst s) := by
  unfold execTicket
  exact Keeps.next (imRow_ev h)

theorem execCerSplit_ev {s0 s : State} {acc inst} (h : Evolves s0 s) :
    Keeps inOut s0 (execCerSplit acc inst s) := by
  unfold execCerSplit
  exact Keeps.next (imRow_ev h)

theorem execMcLoad_ev {s0 s : State} {acc inst ok data} (h : Evolves s0 s) :
    Keeps inOut s0 (execMcLoad acc inst ok data s) := by
  unfold execMcLoad
  exact Keeps.next (imRow_ev h)

theorem execRestore_ev {s0 s : State} {acc inst ok data} (h : Evolves s0 s) :
    Keeps inOut s0 (execRestore acc inst ok data s) := by
  unfold execRestore
  exact Keeps.next (imRow_ev h)

theorem execConfigure_ev {s0 s : State} {acc inst} (h : Evolves s0 s) :
    Keeps inOut s0 (execConfigure acc inst s) := by
  unfold execConfigure
  exact Keeps.next (imRow_ev h)

theorem execReset_ev {s0 s : State} {acc inst} (h : Evolves s0 s) :
    Keeps inOut s0 (execReset acc inst s) := by
  unfold execReset
  exact Keeps.next (imRow_ev h)

theorem dropInst_ev {s0 s : State} {i} (h : Evolves s0 s) :
    Evolves s0 (dropInst s i) := by
  unfold dropInst
  repeat' first
    | with_reducible assumption
    | (fail_if_no_progress extract_lets -underBinder +onlyGivenNames x)
      refine (fun (hx : Evolves s0 x) => ?_ : Evolves s0 x → _) ?_
      (on_goal 1 => clear_value x)
      (on_goal 2 => simp -zeta only [x])
    | fail_if_no_progress extract_lets -underBinder +onlyGivenNames _x
    | with_reducible refine Evolves.ite ?_ ?_
    | with_reducible refine invalidate_ev ?_
    | with_reducible refine clearEvts_ev ?_
    | with_reducible refine putKeys_ev ?_
    | with_reducible refine persistKeys_ev ?_
    | with_reducible refine dpEvent_ev ?_
    | with_reducible refine keyChange_ev ?_
    | with_reducible refine emptySlot_ev ?_
    | with_reducible refine Evolves.foldl ?_ ?_
    | fail_if_no_progress with_reducible refine Evolves.upd ?_
    | intro _

theorem endRequests_ev {s0 s : State} {op i code} (h : Evolves s0 s) :
    Evolves s0 (endRequests s op i code) := by
  unfold endRequests
  repeat' first
    | with_reducible assumption
    | fail_if_no_progress extract_lets -underBinder +onlyGivenNames _x
    | with_reducible refine Evolves.ite ?_ ?_
    | with_reducible refine endRequest_ev ?_
    | with_reducible refine Evolves.foldl ?_ ?_
    | intro _

theorem finishRemove_ev {s0 s : State} {i} (h : Evolves s0 s) :
    Evolves s0 (finishRemove s i) := by
  unfold finishRemove
  repeat' first
    | with_reducible assumption
    | (fail_if_no_progress extract_lets -underBinder +onlyGivenNames x)
      refine (fun (hx : Evolves s0 x) => ?_ : Evolves s0 x → _) ?_
      (on_goal 1 => clear_value x)
      (on_goal 2 => simp -zeta only [x])
    | fail_if_no_progress extract_lets -underBinder +onlyGivenNames _x
    | with_reducible refine Evolves.ite ?_ ?_
    | with_reducible refine endLog_ev ?_
    | with_reducible refine makeSeal_ev ?_
    | with_reducible refine tellSpan_ev ?_
    | with_reducible refine dropInst_ev ?_
    | with_reducible refine resetRings_ev ?_
    | with_reducible refine putInst_ev ?_
    | with_reducible refine modUnit_ev ?_
    | with_reducible refine closeGate_ev ?_
    | with_reducible refine persistInst_ev ?_
    | with_reducible refine setUState_ev ?_
    | with_reducible refine endRequests_ev ?_

theorem execFreeze_ev {s0 s : State} {acc inst} (h : Evolves s0 s) :
    Keeps inOut s0 (execFreeze acc inst s) := by
  unfold execFreeze
  exact Keeps.next (imRow_ev h)

theorem execCerActivate_ev {s0 s : State} {acc inst} (h : Evolves s0 s) :
    Keeps inOut s0 (execCerActivate acc inst s) := by
  unfold execCerActivate
  exact Keeps.next (imRow_ev h)

theorem vfConfigReset_ev {s0 s : State} {i} (h : Evolves s0 s) :
    Evolves s0 (vfConfigReset s i) := by
  unfold vfConfigReset
  repeat' first
    | with_reducible assumption
    | intro h
      first | exact h | exact tset_wf h _ _ | exact tdel_wf h _ | exact filter_wf h _ | exact tmap_wf h _
            | exact rising_tput h _ (by simp) | exact rising_foldl_tput h _ _ _ | exact rising_tdel h _
            | exact rising_map h _ fun e => by split <;> rfl
    | fail_if_no_progress extract_lets -underBinder +onlyGivenNames _x
    | with_reducible refine putInst_ev ?_
    | (fail_if_success (with_reducible refine Evolves.upd ?_))
      with_reducible refine Evolves.updTabs ?_ ?_ ?_ ?_ ?_ ?_ ?_ ?_ ?_ ?_ ?_ ?_ ?_ ?_

theorem resetOrWait_ev {s0 s : State} {i} (h : Evolves s0 s) :
    Evolves s0 (resetOrWait s i) := by
  unfold resetOrWait
  repeat' first
    | with_reducible assumption
    | fail_if_no_progress extract_lets -underBinder +onlyGivenNames _x
    | with_reducible refine Evolves.ite ?_ ?_
    | with_reducible refine putInst_ev ?_
    | with_reducible refine resetInst_ev ?_

theorem vfReset_ev {s0 s : State} {i} (h : Evolves s0 s) :
    Evolves s0 (vfReset s i) := by
  unfold vfReset
  repeat' first
    | with_reducible assumption
    | (fail_if_no_progress extract_lets -underBinder +onlyGivenNames x)
      refine (fun (hx : Evolves s0 x) => ?_ : Evolves s0 x → _) ?_
      (on_goal 1 => clear_value x)
      (on_goal 2 => simp -zeta only [x])
    | fail_if_no_progress extract_lets -underBinder +onlyGivenNames _x
    | with_reducible refine Evolves.ite ?_ ?_
    | with_reducible refine vfConfigReset_ev ?_
    | with_reducible refine resetOrWait_ev ?_

theorem execCerJoin_ev {s0 s : State} {acc inst} (h : Evolves s0 s) :
    Keeps inOut s0 (execCerJoin acc inst s) := by
  unfold execCerJoin
  exact Keeps.next (imRow_ev h)

theorem execSave_ev {s0 s : State} {acc inst ok data} (h : Evolves s0 s) :
    Keeps inOut s0 (execSave acc inst ok data s) := by
  unfold execSave
  exact Keeps.next (imRow_ev h)

theorem finishFreeze_ev {s0 s : State} {i} (h : Evolves s0 s) :
    Evolves s0 (finishFreeze s i) := by
  unfold finishFreeze
  repeat' first
    | with_reducible assumption
    | (fail_if_no_progress extract_lets -underBinder +onlyGivenNames x)
      refine (fun (hx : Evolves s0 x) => ?_ : Evolves s0 x → _) ?_
      (on_goal 1 => clear_value x)
      (on_goal 2 => simp -zeta only [x])
    | fail_if_no_progress extract_lets -underBinder +onlyGivenNames _x
    | with_reducible refine Evolves.ite ?_ ?_
    | with_reducible refine makeSeal_ev ?_
    | with_reducible refine putInst_ev ?_
    | with_reducible refine writePending_ev ?_
    | with_reducible refine endRequests_ev ?_
    | with_reducible refine persistInst_ev ?_
    | with_reducible refine setUState_ev ?_
    | split

theorem execRemoveComplete_ev {s0 s : State} {inst} (h : Evolves s0 s) :
    Keeps inOut s0 (execRemoveComplete inst s) := by
  unfold execRemoveComplete
  exact Keeps.next (pumpRequests_ev (finishRemove_ev h))

theorem wrapWaitEnd_ev {s0 s : State} {i} (h : Evolves s0 s) :
    Evolves s0 (wrapWaitEnd s i) := by
  unfold wrapWaitEnd
  repeat' first
    | with_reducible assumption
    | (fail_if_no_progress extract_lets -underBinder +onlyGivenNames x)
      refine (fun (hx : Evolves s0 x) => ?_ : Evolves s0 x → _) ?_
      (on_goal 1 => clear_value x)
      (on_goal 2 => simp -zeta only [x])
    | fail_if_no_progress extract_lets -underBinder +onlyGivenNames _x
    | with_reducible refine Evolves.ite ?_ ?_
    | with_reducible refine endRequests_ev ?_
    | with_reducible refine resetInst_ev ?_
    | with_reducible refine pumpRequests_ev ?_
    | with_reducible refine resetOrWait_ev ?_

theorem execCerAbandon_ev {s0 s : State} {acc inst} (h : Evolves s0 s) :
    Keeps inOut s0 (execCerAbandon acc inst s) := by
  unfold execCerAbandon
  exact Keeps.next (imRow_ev h)

theorem execThaw_ev {s0 s : State} {acc inst} (h : Evolves s0 s) :
    Keeps inOut s0 (execThaw acc inst s) := by
  unfold execThaw
  exact Keeps.next (imRow_ev h)

theorem execCreate_ev {s0 s : State} {acc inst} (h : Evolves s0 s) :
    Keeps inOut s0 (execCreate acc inst s) := by
  unfold execCreate
  exact Keeps.next (imRow_ev h)

theorem execFreezeComplete_ev {s0 s : State} {inst} (h : Evolves s0 s) :
    Keeps inOut s0 (execFreezeComplete inst s) := by
  unfold execFreezeComplete
  exact Keeps.next (pumpRequests_ev (finishFreeze_ev h))

theorem execRemove_ev {s0 s : State} {acc inst} (h : Evolves s0 s) :
    Keeps inOut s0 (execRemove acc inst s) := by
  unfold execRemove
  exact Keeps.next (imRow_ev h)

theorem execMcBind_ev {s0 s : State} {acc inst} (h : Evolves s0 s) :
    Keeps inOut s0 (execMcBind acc inst s) := by
  unfold execMcBind
  exact Keeps.next (imRow_ev h)

theorem spanEnd_ev {s0 s : State} {i code} (h : Evolves s0 s) :
    Evolves s0 (spanEnd s i code) := by
  unfold spanEnd
  repeat' first
    | with_reducible assumption
    | (fail_if_no_progress extract_lets -underBinder +onlyGivenNames x)
      refine (fun (hx : Evolves s0 x) => ?_ : Evolves s0 x → _) ?_
      (on_goal 1 => clear_value x)
      (on_goal 2 => simp -zeta only [x])
    | fail_if_no_progress extract_lets -underBinder +onlyGivenNames _x
    | with_reducible refine sendSpan_ev ?_
    | with_reducible refine endRequest_ev ?_
    | with_reducible refine Evolves.foldl ?_ ?_
    | intro _
    | split

theorem spanReady_ev {s0 s : State} {i} (h : Evolves s0 s) :
    Evolves s0 (spanReady s i) := by
  unfold spanReady
  repeat' first
    | with_reducible assumption
    | fail_if_no_progress extract_lets -underBinder +onlyGivenNames _x
    | with_reducible refine Evolves.ite ?_ ?_
    | with_reducible refine endRequest_ev ?_
    | with_reducible refine createGo_ev ?_
    | with_reducible refine Keeps.fst (restoreCheck_ev ?_)
    | with_reducible refine spanEnd_ev ?_
    | with_reducible refine restoreNow_ev ?_
    | split

theorem identitySig_ev {s0 s : State} {body} (h : Evolves s0 s) :
    Keeps inSnd s0 (identitySig s body) := by
  unfold identitySig
  repeat' first
    | with_reducible assumption
    | with_reducible refine Keeps.snd (freeBytes_ev ?_)
    | with_reducible refine passKeel_ev ?_
    | with_reducible refine Keeps.mkSnd ?_

theorem rejoinSpans_ev {s0 s : State} {n} (h : Evolves s0 s) :
    Evolves s0 (rejoinSpans s n) := by
  unfold rejoinSpans
  repeat' first
    | with_reducible assumption
    | fail_if_no_progress extract_lets -underBinder +onlyGivenNames _x
    | with_reducible refine Evolves.ite ?_ ?_
    | with_reducible refine sendKbpk_ev ?_
    | with_reducible refine Evolves.foldl ?_ ?_
    | intro _

theorem modBridle_ev {s0 s : State} {f} (h : Evolves s0 s) :
    Evolves s0 (modBridle s f) := by
  unfold modBridle
  exact Evolves.upd h

theorem rerunForward_ev {s0 s : State} {p n} (h : Evolves s0 s) :
    Evolves s0 (rerunForward p s n) := by
  unfold rerunForward
  exact modJob_ev h

theorem activateReady_ev {s0 s : State} {i} (h : Evolves s0 s) :
    Evolves s0 (activateReady s i) := by
  unfold activateReady
  repeat' first
    | with_reducible assumption
    | (fail_if_no_progress extract_lets -underBinder +onlyGivenNames x)
      refine (fun (hx : Evolves s0 x) => ?_ : Evolves s0 x → _) ?_
      (on_goal 1 => clear_value x)
      (on_goal 2 => simp -zeta only [x])
    | fail_if_no_progress extract_lets -underBinder +onlyGivenNames _x
    | with_reducible refine Evolves.ite ?_ ?_
    | with_reducible refine sendKbpk_ev ?_
    | with_reducible refine armActivate_ev ?_
    | with_reducible refine endRequest_ev ?_
    | with_reducible refine Evolves.foldl ?_ ?_
    | intro _
    | split

theorem spanRefused_ev {s0 s : State} {i} (h : Evolves s0 s) :
    Evolves s0 (spanRefused s i) := by
  unfold spanRefused
  exact spanEnd_ev h

theorem loseMember_ev {s0 s : State} {n} (h : Evolves s0 s) :
    Evolves s0 (loseMember s n) := by
  unfold loseMember
  repeat' first
    | with_reducible assumption
    | (fail_if_no_progress extract_lets -underBinder +onlyGivenNames x)
      refine (fun (hx : Evolves s0 x) => ?_ : Evolves s0 x → _) ?_
      (on_goal 1 => clear_value x)
      (on_goal 2 => simp -zeta only [x])
    | fail_if_no_progress extract_lets -underBinder +onlyGivenNames _x
    | with_reducible refine Evolves.ite ?_ ?_
    | with_reducible refine rerunForward_ev ?_
    | with_reducible refine modBridle_ev ?_
    | with_reducible refine activateReady_ev ?_
    | with_reducible refine spanRefused_ev ?_
    | with_reducible refine Evolves.foldl ?_ ?_
    | intro _

theorem viewEvents_ev {s0 old s : State} (h : Evolves s0 s) :
    Evolves s0 (viewEvents old s) := by
  unfold viewEvents
  repeat' first
    | with_reducible assumption
    | (fail_if_no_progress extract_lets -underBinder +onlyGivenNames x)
      refine (fun (hx : Evolves s0 x) => ?_ : Evolves s0 x → _) ?_
      (on_goal 1 => clear_value x)
      (on_goal 2 => simp -zeta only [x])
    | fail_if_no_progress extract_lets -underBinder +onlyGivenNames _x
    | with_reducible refine Evolves.ite ?_ ?_
    | with_reducible refine setEvent_ev ?_
    | with_reducible refine modBridle_ev ?_
    | with_reducible refine Evolves.foldl ?_ ?_
    | intro _

theorem certInForce_ev {s0 s : State} {g c} (h : Evolves s0 s) :
    Evolves s0 (certInForce s g c) := by
  unfold certInForce
  repeat' first
    | with_reducible assumption
    | (fail_if_no_progress extract_lets -underBinder +onlyGivenNames x)
      refine (fun (hx : Evolves s0 x) => ?_ : Evolves s0 x → _) ?_
      (on_goal 1 => clear_value x)
      (on_goal 2 => simp -zeta only [x])
    | with_reducible refine Evolves.ite ?_ ?_
    | with_reducible refine modBridle_ev ?_
    | with_reducible refine setEvent_ev ?_
    | with_reducible refine Evolves.foldl ?_ ?_
    | intro _

theorem tryIssue_ev {s0 s : State} {g} (h : Evolves s0 s) :
    Evolves s0 (tryIssue s g) := by
  unfold tryIssue
  repeat' first
    | with_reducible assumption
    | fail_if_no_progress extract_lets -underBinder +onlyGivenNames _x
    | with_reducible refine Evolves.ite ?_ ?_
    | with_reducible refine flood_ev ?_
    | with_reducible refine certInForce_ev ?_
    | split

theorem issueKeys_ev {s0 s : State} {g} (h : Evolves s0 s) :
    Evolves s0 (issueKeys s g) := by
  unfold issueKeys
  repeat' first
    | with_reducible assumption
    | fail_if_no_progress extract_lets -underBinder +onlyGivenNames _x
    | with_reducible refine Evolves.ite ?_ ?_
    | with_reducible refine Keeps.snd (keelDraw_ev ?_)
    | with_reducible refine Keeps.snd (identitySig_ev ?_)
    | with_reducible refine modBridle_ev ?_
    | with_reducible refine tryIssue_ev ?_
    | with_reducible refine sendTo_ev ?_
    | with_reducible refine Evolves.foldl ?_ ?_
    | intro _

theorem setRoot_ev {s0 s : State} {g n} (h : Evolves s0 s) :
    Evolves s0 (setRoot s g n) := by
  unfold setRoot
  repeat' first
    | with_reducible assumption
    | (fail_if_no_progress extract_lets -underBinder +onlyGivenNames x)
      refine (fun (hx : Evolves s0 x) => ?_ : Evolves s0 x → _) ?_
      (on_goal 1 => clear_value x)
      (on_goal 2 => simp -zeta only [x])
    | fail_if_no_progress extract_lets -underBinder +onlyGivenNames _x
    | with_reducible refine Evolves.ite ?_ ?_
    | with_reducible refine modBridle_ev ?_
    | with_reducible refine setEvent_ev ?_

theorem takeOffice_ev {s0 s : State} {g} (h : Evolves s0 s) :
    Evolves s0 (takeOffice s g) := by
  unfold takeOffice
  repeat' first
    | with_reducible assumption
    | fail_if_no_progress extract_lets -underBinder +onlyGivenNames _x
    | with_reducible refine issueKeys_ev ?_
    | with_reducible refine flood_ev ?_
    | with_reducible refine setRoot_ev ?_

theorem takeOffices_ev {s0 s : State} (h : Evolves s0 s) :
    Evolves s0 (takeOffices s) := by
  unfold takeOffices
  repeat' first
    | with_reducible assumption
    | fail_if_no_progress extract_lets -underBinder +onlyGivenNames _x
    | with_reducible refine Evolves.ite ?_ ?_
    | with_reducible refine issueKeys_ev ?_
    | with_reducible refine takeOffice_ev ?_
    | with_reducible refine Evolves.foldl ?_ ?_
    | intro _

theorem settle_ev {s0 x0 x1 : State} (hs0 : Evolves s0 x1) :
    Evolves s0 (settle x0 x1) := by
  unfold settle
  extract_lets now was gone new s1 s2 s3
  have h1 : Evolves s0 s1 := modBridle_ev hs0
  have h2 : Evolves s0 s2 := Evolves.ite h1 (Evolves.foldl (setEvent_ev h1) fun _ _ h => loseMember_ev h)
  have h3 : Evolves s0 s3 := Evolves.ite h2 (Evolves.foldl (setEvent_ev h2) fun _ _ h => rejoinSpans_ev h)
  exact viewEvents_ev (takeOffices_ev h3)

theorem linkChanged_ev {s0 old s : State} (h : Evolves s0 s) :
    Evolves s0 (linkChanged old s) := by
  unfold linkChanged
  repeat' first
    | with_reducible assumption
    | (fail_if_no_progress extract_lets -underBinder +onlyGivenNames x)
      refine (fun (hx : Evolves s0 x) => ?_ : Evolves s0 x → _) ?_
      (on_goal 1 => clear_value x)
      (on_goal 2 => simp -zeta only [x])
    | with_reducible refine Evolves.ite ?_ ?_
    | with_reducible refine modBridle_ev ?_
    | with_reducible refine settle_ev ?_
    | with_reducible refine flood_ev ?_

theorem modLine_ev {s0 s : State} {m f} (h : Evolves s0 s) :
    Evolves s0 (modLine s m f) := by
  unfold modLine
  exact putLine_ev h

theorem setLine_ev {s0 s : State} {m ls} (h : Evolves s0 s) :
    Evolves s0 (setLine s m ls) := by
  unfold setLine
  repeat' first
    | with_reducible assumption
    | (fail_if_no_progress extract_lets -underBinder +onlyGivenNames x)
      refine (fun (hx : Evolves s0 x) => ?_ : Evolves s0 x → _) ?_
      (on_goal 1 => clear_value x)
      (on_goal 2 => simp -zeta only [x])
    | fail_if_no_progress extract_lets -underBinder +onlyGivenNames _x
    | with_reducible refine Evolves.ite ?_ ?_
    | with_reducible refine setUState_ev ?_
    | with_reducible refine modLine_ev ?_
    | with_reducible refine setEvent_ev ?_
    | with_reducible refine linkChanged_ev ?_
    | split

theorem askResult_ev {s0 s : State} {id} (h : Evolves s0 s) :
    Evolves s0 (askResult s id) := by
  unfold askResult
  repeat' first
    | with_reducible assumption
    | (fail_if_no_progress extract_lets -underBinder +onlyGivenNames x)
      refine (fun (hx : Evolves s0 x) => ?_ : Evolves s0 x → _) ?_
      (on_goal 1 => clear_value x)
      (on_goal 2 => simp -zeta only [x])
    | fail_if_no_progress extract_lets -underBinder +onlyGivenNames _x
    | with_reducible refine Evolves.ite ?_ ?_
    | with_reducible refine rerunForward_ev ?_
    | with_reducible refine modJob_ev ?_
    | with_reducible refine sendTo_ev ?_
    | with_reducible refine Evolves.foldl ?_ ?_
    | intro _
    | split

theorem lostNotice_ev {s0 s : State} {id cls} (h : Evolves s0 s) :
    Evolves s0 (lostNotice s id cls) := by
  unfold lostNotice
  repeat' first
    | with_reducible assumption
    | (fail_if_no_progress extract_lets -underBinder +onlyGivenNames x)
      refine (fun (hx : Evolves s0 x) => ?_ : Evolves s0 x → _) ?_
      (on_goal 1 => clear_value x)
      (on_goal 2 => simp -zeta only [x])
    | with_reducible refine Evolves.ite ?_ ?_
    | with_reducible refine modBridle_ev ?_
    | with_reducible refine rerunForward_ev ?_
    | with_reducible refine askResult_ev ?_
    | with_reducible refine Evolves.foldl ?_ ?_
    | intro _

theorem dropFrame_ev {s0 s : State} {f} (h : Evolves s0 s) :
    Evolves s0 (dropFrame s f) := by
  unfold dropFrame
  repeat' first
    | with_reducible assumption
    | fail_if_no_progress extract_lets -underBinder +onlyGivenNames _x
    | with_reducible refine Evolves.ite ?_ ?_
    | with_reducible refine lostNotice_ev ?_
    | with_reducible refine sendTo_ev ?_

theorem dropFrames_ev {s0 s : State} {fs} (h : Evolves s0 s) :
    Evolves s0 (dropFrames s fs) := by
  unfold dropFrames
  repeat' first
    | with_reducible assumption
    | with_reducible refine dropFrame_ev ?_
    | with_reducible refine Evolves.foldl ?_ ?_
    | intro _

theorem linesAfter_ev {s0 old s : State} (h : Evolves s0 s) :
    Evolves s0 (linesAfter old s) := by
  unfold linesAfter
  repeat' first
    | with_reducible assumption
    | (fail_if_no_progress extract_lets -underBinder +onlyGivenNames x)
      refine (fun (hx : Evolves s0 x) => ?_ : Evolves s0 x → _) ?_
      (on_goal 1 => clear_value x)
      (on_goal 2 => simp -zeta only [x])
    | fail_if_no_progress extract_lets -underBinder +onlyGivenNames _x
    | with_reducible refine Evolves.ite ?_ ?_
    | with_reducible refine setEvent_ev ?_
    | with_reducible refine modLine_ev ?_
    | with_reducible refine dropFrames_ev ?_
    | with_reducible refine linkChanged_ev ?_
    | with_reducible refine Evolves.foldl ?_ ?_
    | intro _

theorem takeFrame_ev {s0 s : State} {m flits} (h : Evolves s0 s) :
    Evolves s0 (takeFrame s m flits) := by
  unfold takeFrame
  exact wakeIdle_ev (received_ev h)

theorem startKeying_ev {s0 s : State} {m} (h : Evolves s0 s) :
    Evolves s0 (startKeying s m) := by
  unfold startKeying
  repeat' first
    | with_reducible assumption
    | with_reducible refine Evolves.ite ?_ ?_
    | with_reducible refine Keeps.snd (keelDraw_ev ?_)
    | with_reducible refine modLine_ev ?_
    | with_reducible refine putFrame_ev ?_

theorem rekeyLine_ev {s0 s : State} {m} (h : Evolves s0 s) :
    Evolves s0 (rekeyLine s m) := by
  unfold rekeyLine
  exact startKeying_ev (setLine_ev h)

theorem reformAll_ev {s0 s : State} (h : Evolves s0 s) :
    Evolves s0 (reformAll s) := by
  unfold reformAll
  repeat' first
    | with_reducible assumption
    | fail_if_no_progress extract_lets -underBinder +onlyGivenNames _x
    | with_reducible refine Evolves.ite ?_ ?_
    | with_reducible refine rekeyLine_ev ?_
    | with_reducible refine Evolves.foldl ?_ ?_
    | intro _

theorem lineDown_ev {s0 s : State} {m} (h : Evolves s0 s) :
    Evolves s0 (lineDown s m) := by
  unfold lineDown
  repeat' first
    | with_reducible assumption
    | (fail_if_no_progress extract_lets -underBinder +onlyGivenNames x)
      refine (fun (hx : Evolves s0 x) => ?_ : Evolves s0 x → _) ?_
      (on_goal 1 => clear_value x)
      (on_goal 2 => simp -zeta only [x])
    | fail_if_no_progress extract_lets -underBinder +onlyGivenNames _x
    | with_reducible refine modLine_ev ?_
    | with_reducible refine dropFrames_ev ?_
    | with_reducible refine setLine_ev ?_

theorem sendKey_ev {s0 s : State} {m} (h : Evolves s0 s) :
    Evolves s0 (sendKey s m) := by
  unfold sendKey
  repeat' first
    | with_reducible assumption
    | fail_if_no_progress extract_lets -underBinder +onlyGivenNames _x
    | with_reducible refine putFrame_ev ?_

theorem lineMismatch_ev {s0 s : State} {m cause} (h : Evolves s0 s) :
    Evolves s0 (lineMismatch s m cause) := by
  unfold lineMismatch
  exact setLine_ev (modLine_ev h)

theorem hello_ev {s0 s : State} {m cert sysId serial digest peerLine nonce} (h : Evolves s0 s) :
    Evolves s0 (hello s m cert sysId serial digest peerLine nonce) := by
  unfold hello
  repeat' first
    | with_reducible assumption
    | (fail_if_no_progress extract_lets -underBinder +onlyGivenNames x)
      refine (fun (hx : Evolves s0 x) => ?_ : Evolves s0 x → _) ?_
      (on_goal 1 => clear_value x)
      (on_goal 2 => simp -zeta only [x])
    | fail_if_no_progress extract_lets -underBinder +onlyGivenNames _x
    | with_reducible refine Evolves.ite ?_ ?_
    | with_reducible refine takeFrame_ev ?_
    | with_reducible refine rekeyLine_ev ?_
    | with_reducible refine lineMismatch_ev ?_
    | with_reducible refine putFrame_ev ?_
    | with_reducible refine modLine_ev ?_
    | with_reducible refine sendKey_ev ?_
    | split

theorem expelMember_ev {s0 old s : State} {n} (h : Evolves s0 s) :
    Evolves s0 (expelMember old s n) := by
  unfold expelMember
  repeat' first
    | with_reducible assumption
    | (fail_if_no_progress extract_lets -underBinder +onlyGivenNames x)
      refine (fun (hx : Evolves s0 x) => ?_ : Evolves s0 x → _) ?_
      (on_goal 1 => clear_value x)
      (on_goal 2 => simp -zeta only [x])
    | fail_if_no_progress extract_lets -underBinder +onlyGivenNames _x
    | with_reducible refine Evolves.ite ?_ ?_
    | with_reducible refine modBridle_ev ?_
    | with_reducible refine lineMismatch_ev ?_
    | with_reducible refine settle_ev ?_
    | with_reducible refine Evolves.foldl ?_ ?_
    | intro _

theorem expelMessage_ev {s0 s : State} {m n} (h : Evolves s0 s) :
    Evolves s0 (expelMessage s m n) := by
  unfold expelMessage
  repeat' first
    | with_reducible assumption
    | (fail_if_no_progress extract_lets -underBinder +onlyGivenNames x)
      refine (fun (hx : Evolves s0 x) => ?_ : Evolves s0 x → _) ?_
      (on_goal 1 => clear_value x)
      (on_goal 2 => simp -zeta only [x])
    | with_reducible refine Evolves.ite ?_ ?_
    | with_reducible refine takeFrame_ev ?_
    | with_reducible refine expelMember_ev ?_
    | with_reducible refine flood_ev ?_

theorem execExpel_ev {s0 s : State} {line member} (h : Evolves s0 s) :
    Keeps inOut s0 (execExpel line member s) := by
  unfold execExpel
  exact Keeps.next (expelMessage_ev h)

theorem adoptRecord_ev {s0 s : State} {r} (h : Evolves s0 s) :
    Evolves s0 (adoptRecord s r) := by
  unfold adoptRecord
  repeat' first
    | with_reducible assumption
    | (fail_if_no_progress extract_lets -underBinder +onlyGivenNames x)
      refine (fun (hx : Evolves s0 x) => ?_ : Evolves s0 x → _) ?_
      (on_goal 1 => clear_value x)
      (on_goal 2 => simp -zeta only [x])
    | with_reducible refine modBridle_ev ?_
    | with_reducible refine viewEvents_ev ?_
    | with_reducible refine setEvent_ev ?_
    | with_reducible refine keepLines_ev ?_

theorem linkState_ev {s0 s : State} {m member version lines peers} (h : Evolves s0 s) :
    Evolves s0 (linkState s m member version lines peers) := by
  unfold linkState
  repeat' first
    | with_reducible assumption
    | (fail_if_no_progress extract_lets -underBinder +onlyGivenNames x)
      refine (fun (hx : Evolves s0 x) => ?_ : Evolves s0 x → _) ?_
      (on_goal 1 => clear_value x)
      (on_goal 2 => simp -zeta only [x])
    | fail_if_no_progress extract_lets -underBinder +onlyGivenNames _x
    | with_reducible refine Evolves.ite ?_ ?_
    | with_reducible refine takeFrame_ev ?_
    | with_reducible refine modBridle_ev ?_
    | with_reducible refine settle_ev ?_
    | with_reducible refine flood_ev ?_

theorem lossOfLock_ev {s0 s : State} {m lane} (h : Evolves s0 s) :
    Evolves s0 (lossOfLock s m lane) := by
  unfold lossOfLock
  repeat' first
    | with_reducible assumption
    | (fail_if_no_progress extract_lets -underBinder +onlyGivenNames x)
      refine (fun (hx : Evolves s0 x) => ?_ : Evolves s0 x → _) ?_
      (on_goal 1 => clear_value x)
      (on_goal 2 => simp -zeta only [x])
    | fail_if_no_progress extract_lets -underBinder +onlyGivenNames _x
    | with_reducible refine Evolves.ite ?_ ?_
    | with_reducible refine modLine_ev ?_
    | with_reducible refine lineDown_ev ?_
    | with_reducible refine setLine_ev ?_
    | split

theorem signReq_ev {s0 s : State} {m n g msg} (h : Evolves s0 s) :
    Evolves s0 (signReq s m n g msg) := by
  unfold signReq
  repeat' first
    | with_reducible assumption
    | (fail_if_no_progress extract_lets -underBinder +onlyGivenNames x)
      refine (fun (hx : Evolves s0 x) => ?_ : Evolves s0 x → _) ?_
      (on_goal 1 => clear_value x)
      (on_goal 2 => simp -zeta only [x])
    | with_reducible refine Evolves.ite ?_ ?_
    | with_reducible refine takeFrame_ev ?_
    | with_reducible refine Keeps.snd (freeBytes_ev ?_)
    | with_reducible refine passKeel_ev ?_
    | with_reducible refine sendTo_ev ?_
    | split

theorem execSignReq_ev {s0 s : State} {line from_ gondola msg} (h : Evolves s0 s) :
    Keeps inOut s0 (execSignReq line from_ gondola msg s) := by
  unfold execSignReq
  exact Keeps.next (signReq_ev h)

theorem endForm_ev {s0 s : State} {result} (h : Evolves s0 s) :
    Evolves s0 (endForm s result) := by
  unfold endForm
  exact setEvent_ev (modBridle_ev h)

theorem formJoin_ev {s0 s : State} (h : Evolves s0 s) :
    Evolves s0 (formJoin s) := by
  unfold formJoin
  exact Evolves.ite (endForm_ev h) (endForm_ev (reformAll_ev (modBridle_ev h)))

theorem dropRecord_ev {s0 s : State} (h : Evolves s0 s) :
    Evolves s0 (dropRecord s) := by
  unfold dropRecord
  repeat' first
    | with_reducible assumption
    | (fail_if_no_progress extract_lets -underBinder +onlyGivenNames x)
      refine (fun (hx : Evolves s0 x) => ?_ : Evolves s0 x → _) ?_
      (on_goal 1 => clear_value x)
      (on_goal 2 => simp -zeta only [x])
    | with_reducible refine modBridle_ev ?_
    | with_reducible refine storeDrop_ev ?_
    | with_reducible refine viewEvents_ev ?_

theorem tryLeave_ev {s0 s : State} (h : Evolves s0 s) :
    Evolves s0 (tryLeave s) := by
  unfold tryLeave
  repeat' first
    | with_reducible assumption
    | (fail_if_no_progress extract_lets -underBinder +onlyGivenNames x)
      refine (fun (hx : Evolves s0 x) => ?_ : Evolves s0 x → _) ?_
      (on_goal 1 => clear_value x)
      (on_goal 2 => simp -zeta only [x])
    | fail_if_no_progress extract_lets -underBinder +onlyGivenNames _x
    | with_reducible refine Evolves.ite ?_ ?_
    | with_reducible refine flood_ev ?_
    | with_reducible refine modBridle_ev ?_
    | with_reducible refine settle_ev ?_
    | with_reducible refine setEvent_ev ?_
    | with_reducible refine endForm_ev ?_
    | with_reducible refine dropRecord_ev ?_

theorem formLeave_ev {s0 s : State} {clear} (h : Evolves s0 s) :
    Evolves s0 (formLeave s clear) := by
  unfold formLeave
  repeat' first
    | with_reducible assumption
    | (fail_if_no_progress extract_lets -underBinder +onlyGivenNames x)
      refine (fun (hx : Evolves s0 x) => ?_ : Evolves s0 x → _) ?_
      (on_goal 1 => clear_value x)
      (on_goal 2 => simp -zeta only [x])
    | with_reducible refine Evolves.ite ?_ ?_
    | with_reducible refine modBridle_ev ?_
    | with_reducible refine tryLeave_ev ?_
    | with_reducible refine viewEvents_ev ?_
    | with_reducible refine endForm_ev ?_
    | with_reducible refine dropRecord_ev ?_

theorem formExpel_ev {s0 s : State} (h : Evolves s0 s) :
    Evolves s0 (formExpel s) := by
  unfold formExpel
  repeat' first
    | with_reducible assumption
    | fail_if_no_progress extract_lets -underBinder +onlyGivenNames _x
    | with_reducible refine Evolves.ite ?_ ?_
    | with_reducible refine endForm_ev ?_
    | with_reducible refine expelMember_ev ?_
    | with_reducible refine flood_ev ?_

theorem formCmd_ev {s0 s : State} {cmd} (h : Evolves s0 s) :
    Evolves s0 (formCmd s cmd) := by
  unfold formCmd
  repeat' first
    | with_reducible assumption
    | with_reducible refine Evolves.ite ?_ ?_
    | with_reducible refine modBridle_ev ?_
    | with_reducible refine formJoin_ev ?_
    | with_reducible refine formLeave_ev ?_
    | with_reducible refine formExpel_ev ?_
    | split

theorem execFormClear_ev {s0 s : State} {acc} (h : Evolves s0 s) :
    Keeps inOut s0 (execFormClear acc s) := by
  unfold execFormClear
  exact Keeps.next (Evolves.ite (formCmd_ev h) h)

theorem lseqRekey_ev {s0 s : State} {m} (h : Evolves s0 s) :
    Evolves s0 (lseqRekey s m) := by
  unfold lseqRekey
  repeat' first
    | with_reducible assumption
    | fail_if_no_progress extract_lets -underBinder +onlyGivenNames _x
    | with_reducible refine Evolves.ite ?_ ?_
    | with_reducible refine Keeps.snd (keelDraw_ev ?_)
    | with_reducible refine sendKey_ev ?_
    | with_reducible refine modLine_ev ?_

theorem execLseqRekey_ev {s0 s : State} {line} (h : Evolves s0 s) :
    Keeps inOut s0 (execLseqRekey line s) := by
  unfold execLseqRekey
  exact Keeps.next (lseqRekey_ev h)

theorem loadRecord_ev {s0 s : State} {r} (h : Evolves s0 s) :
    Evolves s0 (loadRecord s r) := by
  unfold loadRecord
  repeat' first
    | with_reducible assumption
    | (fail_if_no_progress extract_lets -underBinder +onlyGivenNames x)
      refine (fun (hx : Evolves s0 x) => ?_ : Evolves s0 x → _) ?_
      (on_goal 1 => clear_value x)
      (on_goal 2 => simp -zeta only [x])
    | with_reducible refine Evolves.ite ?_ ?_
    | with_reducible refine adoptRecord_ev ?_
    | with_reducible refine lineDown_ev ?_
    | with_reducible refine modLine_ev ?_
    | with_reducible refine Evolves.foldl ?_ ?_
    | intro _

theorem formLoad_ev {s0 s : State} {ok data} (h : Evolves s0 s) :
    Evolves s0 (formLoad s ok data) := by
  unfold formLoad
  repeat' first
    | with_reducible assumption
    | fail_if_no_progress extract_lets -underBinder +onlyGivenNames _x
    | with_reducible refine Evolves.ite ?_ ?_
    | with_reducible refine endForm_ev ?_
    | with_reducible refine loadRecord_ev ?_

theorem cosignReq_ev {s0 s : State} {m n g sysId serial digest ec pq pos} (h : Evolves s0 s) :
    Evolves s0 (cosignReq s m n g sysId serial digest ec pq pos) := by
  unfold cosignReq
  repeat' first
    | with_reducible assumption
    | (fail_if_no_progress extract_lets -underBinder +onlyGivenNames x)
      refine (fun (hx : Evolves s0 x) => ?_ : Evolves s0 x → _) ?_
      (on_goal 1 => clear_value x)
      (on_goal 2 => simp -zeta only [x])
    | fail_if_no_progress extract_lets -underBinder +onlyGivenNames _x
    | with_reducible refine Evolves.ite ?_ ?_
    | with_reducible refine takeFrame_ev ?_
    | with_reducible refine Keeps.snd (identitySig_ev ?_)
    | with_reducible refine sendTo_ev ?_

theorem execCosignReq_ev {s0 s : State} {line from_ gondola sysId serial digest ecPub pqPub pos} (h : Evolves s0 s) :
    Keeps inOut s0 (execCosignReq line from_ gondola sysId serial digest ecPub pqPub pos s) := by
  unfold execCosignReq
  exact Keeps.next (cosignReq_ev h)

theorem rootMessage_ev {s0 s : State} {m g n} (h : Evolves s0 s) :
    Evolves s0 (rootMessage s m g n) := by
  unfold rootMessage
  repeat' first
    | with_reducible assumption
    | (fail_if_no_progress extract_lets -underBinder +onlyGivenNames x)
      refine (fun (hx : Evolves s0 x) => ?_ : Evolves s0 x → _) ?_
      (on_goal 1 => clear_value x)
      (on_goal 2 => simp -zeta only [x])
    | with_reducible refine Evolves.ite ?_ ?_
    | with_reducible refine takeFrame_ev ?_
    | with_reducible refine settle_ev ?_
    | with_reducible refine takeOffice_ev ?_
    | with_reducible refine flood_ev ?_
    | with_reducible refine setRoot_ev ?_

theorem execRoot_ev {s0 s : State} {line gondola member} (h : Evolves s0 s) :
    Keeps inOut s0 (execRoot line gondola member s) := by
  unfold execRoot
  exact Keeps.next (rootMessage_ev h)

theorem leaveMessage_ev {s0 s : State} {m n} (h : Evolves s0 s) :
    Evolves s0 (leaveMessage s m n) := by
  unfold leaveMessage
  repeat' first
    | with_reducible assumption
    | (fail_if_no_progress extract_lets -underBinder +onlyGivenNames x)
      refine (fun (hx : Evolves s0 x) => ?_ : Evolves s0 x → _) ?_
      (on_goal 1 => clear_value x)
      (on_goal 2 => simp -zeta only [x])
    | fail_if_no_progress extract_lets -underBinder +onlyGivenNames _x
    | with_reducible refine Evolves.ite ?_ ?_
    | with_reducible refine takeFrame_ev ?_
    | with_reducible refine flood_ev ?_
    | with_reducible refine settle_ev ?_
    | with_reducible refine modBridle_ev ?_

theorem execLeave_ev {s0 s : State} {line member} (h : Evolves s0 s) :
    Keeps inOut s0 (execLeave line member s) := by
  unfold execLeave
  exact Keeps.next (leaveMessage_ev h)

theorem execFormLeave_ev {s0 s : State} {acc} (h : Evolves s0 s) :
    Keeps inOut s0 (execFormLeave acc s) := by
  unfold execFormLeave
  exact Keeps.next (Evolves.ite (formCmd_ev h) h)

theorem recordMessage_ev {s0 s : State} {m data} (h : Evolves s0 s) :
    Evolves s0 (recordMessage s m data) := by
  unfold recordMessage
  repeat' first
    | with_reducible assumption
    | (fail_if_no_progress extract_lets -underBinder +onlyGivenNames x)
      refine (fun (hx : Evolves s0 x) => ?_ : Evolves s0 x → _) ?_
      (on_goal 1 => clear_value x)
      (on_goal 2 => simp -zeta only [x])
    | fail_if_no_progress extract_lets -underBinder +onlyGivenNames _x
    | with_reducible refine Evolves.ite ?_ ?_
    | with_reducible refine takeFrame_ev ?_
    | with_reducible refine putFrame_ev ?_
    | with_reducible refine reformAll_ev ?_
    | with_reducible refine adoptRecord_ev ?_

theorem cosign_ev {s0 s : State} {m n g sig} (h : Evolves s0 s) :
    Evolves s0 (cosign s m n g sig) := by
  unfold cosign
  repeat' first
    | with_reducible assumption
    | (fail_if_no_progress extract_lets -underBinder +onlyGivenNames x)
      refine (fun (hx : Evolves s0 x) => ?_ : Evolves s0 x → _) ?_
      (on_goal 1 => clear_value x)
      (on_goal 2 => simp -zeta only [x])
    | with_reducible refine Evolves.ite ?_ ?_
    | with_reducible refine takeFrame_ev ?_
    | with_reducible refine modBridle_ev ?_
    | with_reducible refine settle_ev ?_
    | with_reducible refine tryIssue_ev ?_
    | split

theorem resendAll_ev {s0 s : State} {m} (h : Evolves s0 s) :
    Evolves s0 (resendAll s m) := by
  unfold resendAll
  repeat' first
    | with_reducible assumption
    | (fail_if_no_progress extract_lets -underBinder +onlyGivenNames x)
      refine (fun (hx : Evolves s0 x) => ?_ : Evolves s0 x → _) ?_
      (on_goal 1 => clear_value x)
      (on_goal 2 => simp -zeta only [x])
    | fail_if_no_progress extract_lets -underBinder +onlyGivenNames _x
    | with_reducible refine modLine_ev ?_
    | with_reducible refine emit_ev ?_
    | with_reducible refine Evolves.foldl ?_ ?_
    | intro _

theorem execRecord_ev {s0 s : State} {line data} (h : Evolves s0 s) :
    Keeps inOut s0 (execRecord line data s) := by
  unfold execRecord
  exact Keeps.next (recordMessage_ev h)

theorem dropSpan_ev {s0 s : State} {i n} (h : Evolves s0 s) :
    Evolves s0 (dropSpan s i n) := by
  unfold dropSpan
  repeat' first
    | with_reducible assumption
    | (fail_if_no_progress extract_lets -underBinder +onlyGivenNames x)
      refine (fun (hx : Evolves s0 x) => ?_ : Evolves s0 x → _) ?_
      (on_goal 1 => clear_value x)
      (on_goal 2 => simp -zeta only [x])
    | with_reducible refine Evolves.ite ?_ ?_
    | with_reducible refine modBridle_ev ?_
    | with_reducible refine dropInst_ev ?_

theorem spanMessage_ev {s0 s : State} {m n kind i kc ballast overlap mc} (h : Evolves s0 s) :
    Evolves s0 (spanMessage s m n kind i kc ballast overlap mc) := by
  unfold spanMessage
  repeat' first
    | with_reducible assumption
    | (fail_if_no_progress extract_lets -underBinder +onlyGivenNames x)
      refine (fun (hx : Evolves s0 x) => ?_ : Evolves s0 x → _) ?_
      (on_goal 1 => clear_value x)
      (on_goal 2 => simp -zeta only [x])
    | fail_if_no_progress extract_lets -underBinder +onlyGivenNames _x
    | with_reducible refine Evolves.ite ?_ ?_
    | with_reducible refine takeFrame_ev ?_
    | with_reducible refine sendSpan_ev ?_
    | with_reducible refine modBridle_ev ?_
    | with_reducible refine spanReady_ev ?_
    | with_reducible refine spanRefused_ev ?_
    | with_reducible refine dropSpan_ev ?_
    | split

theorem execSpan_ev {s0 s : State} {line from_ kind inst kc ballast overlap mc} (h : Evolves s0 s) :
    Keeps inOut s0 (execSpan line from_ kind inst kc ballast overlap mc s) := by
  unfold execSpan
  exact Keeps.next (pumpRequests_ev (spanMessage_ev h))

theorem retireLine_ev {s0 s : State} {m} (h : Evolves s0 s) :
    Evolves s0 (retireLine s m) := by
  unfold retireLine
  exact permanentFault_ev (lineDown_ev h)

theorem attemptFailed_ev {s0 s : State} {m cause} (h : Evolves s0 s) :
    Evolves s0 (attemptFailed s m cause) := by
  unfold attemptFailed
  repeat' first
    | with_reducible assumption
    | (fail_if_no_progress extract_lets -underBinder +onlyGivenNames x)
      refine (fun (hx : Evolves s0 x) => ?_ : Evolves s0 x → _) ?_
      (on_goal 1 => clear_value x)
      (on_goal 2 => simp -zeta only [x])
    | fail_if_no_progress extract_lets -underBinder +onlyGivenNames _x
    | with_reducible refine Evolves.ite ?_ ?_
    | with_reducible refine modLine_ev ?_
    | with_reducible refine retireLine_ev ?_
    | with_reducible refine setLine_ev ?_

theorem retireLane_ev {s0 s : State} {cause m lane} (h : Evolves s0 s) :
    Evolves s0 (retireLane cause m s lane) := by
  unfold retireLane
  repeat' first
    | with_reducible assumption
    | (fail_if_no_progress extract_lets -underBinder +onlyGivenNames x)
      refine (fun (hx : Evolves s0 x) => ?_ : Evolves s0 x → _) ?_
      (on_goal 1 => clear_value x)
      (on_goal 2 => simp -zeta only [x])
    | with_reducible refine Evolves.ite ?_ ?_
    | with_reducible refine modBridle_ev ?_
    | with_reducible refine mapAppend_ev ?_
    | with_reducible refine setEvent_ev ?_

theorem trainingEnds_ev {s0 s : State} {m good} (h : Evolves s0 s) :
    Evolves s0 (trainingEnds s m good) := by
  unfold trainingEnds
  repeat' first
    | with_reducible assumption
    | (fail_if_no_progress extract_lets -underBinder +onlyGivenNames x)
      refine (fun (hx : Evolves s0 x) => ?_ : Evolves s0 x → _) ?_
      (on_goal 1 => clear_value x)
      (on_goal 2 => simp -zeta only [x])
    | fail_if_no_progress extract_lets -underBinder +onlyGivenNames _x
    | with_reducible refine Evolves.ite ?_ ?_
    | with_reducible refine attemptFailed_ev ?_
    | with_reducible refine retireLane_ev ?_
    | with_reducible refine modBridle_ev ?_
    | with_reducible refine Keeps.snd (freeNat_ev ?_)
    | with_reducible refine modLine_ev ?_
    | with_reducible refine resendAll_ev ?_
    | with_reducible refine setLine_ev ?_
    | with_reducible refine rekeyLine_ev ?_
    | with_reducible refine Evolves.foldl ?_ ?_
    | intro _

theorem execFormLoad_ev {s0 s : State} {acc ok data} (h : Evolves s0 s) :
    Keeps inOut s0 (execFormLoad acc ok data s) := by
  unfold execFormLoad
  exact Keeps.next (Evolves.ite h (Evolves.ite (formLoad_ev h) (Evolves.ite h (formLoad_ev (formCmd_ev h)))))

theorem execCosign_ev {s0 s : State} {line member gondola sig} (h : Evolves s0 s) :
    Keeps inOut s0 (execCosign line member gondola sig s) := by
  unfold execCosign
  exact Keeps.next (cosign_ev h)

theorem laneError_ev {s0 s : State} {m pos} (h : Evolves s0 s) :
    Evolves s0 (laneError s m pos) := by
  unfold laneError
  repeat' first
    | with_reducible assumption
    | (fail_if_no_progress extract_lets -underBinder +onlyGivenNames x)
      refine (fun (hx : Evolves s0 x) => ?_ : Evolves s0 x → _) ?_
      (on_goal 1 => clear_value x)
      (on_goal 2 => simp -zeta only [x])
    | fail_if_no_progress extract_lets -underBinder +onlyGivenNames _x
    | with_reducible refine Evolves.ite ?_ ?_
    | with_reducible refine modLine_ev ?_
    | with_reducible refine retireLane_ev ?_
    | with_reducible refine retireLine_ev ?_
    | with_reducible refine setLine_ev ?_

theorem execHello_ev {s0 s : State} {line cert sysId serial digest peerLine nonce} (h : Evolves s0 s) :
    Keeps inOut s0 (execHello line cert sysId serial digest peerLine nonce s) := by
  unfold execHello
  exact Keeps.next (hello_ev h)

theorem signed_ev {s0 s : State} {m} (h : Evolves s0 s) :
    Evolves s0 (signed s m) := by
  unfold signed
  exact Evolves.ite (takeFrame_ev h) h

theorem greetPeer_ev {s0 s : State} {m} (h : Evolves s0 s) :
    Evolves s0 (greetPeer s m) := by
  unfold greetPeer
  repeat' first
    | with_reducible assumption
    | (fail_if_no_progress extract_lets -underBinder +onlyGivenNames x)
      refine (fun (hx : Evolves s0 x) => ?_ : Evolves s0 x → _) ?_
      (on_goal 1 => clear_value x)
      (on_goal 2 => simp -zeta only [x])
    | with_reducible refine sendOn_ev ?_
    | with_reducible refine Evolves.foldl ?_ ?_
    | intro _
    | split

theorem keyMessage_ev {s0 s : State} {m ecdh kem ct sigEc sigPq} (h : Evolves s0 s) :
    Evolves s0 (keyMessage s m ecdh kem ct sigEc sigPq) := by
  unfold keyMessage
  repeat' first
    | with_reducible assumption
    | (fail_if_no_progress extract_lets -underBinder +onlyGivenNames x)
      refine (fun (hx : Evolves s0 x) => ?_ : Evolves s0 x → _) ?_
      (on_goal 1 => clear_value x)
      (on_goal 2 => simp -zeta only [x])
    | fail_if_no_progress extract_lets -underBinder +onlyGivenNames _x
    | with_reducible refine Evolves.ite ?_ ?_
    | with_reducible refine takeFrame_ev ?_
    | with_reducible refine lineMismatch_ev ?_
    | with_reducible refine Keeps.snd (keelDraw_ev ?_)
    | with_reducible refine Keeps.snd (identitySigs_ev ?_)
    | with_reducible refine putFrame_ev ?_
    | with_reducible refine modLine_ev ?_
    | with_reducible refine modBridle_ev ?_
    | with_reducible refine setLine_ev ?_
    | with_reducible refine greetPeer_ev ?_
    | with_reducible refine drainWaiting_ev ?_
    | split
    | dsimp -zeta only

theorem signalDetect_ev {s0 s : State} {m} (h : Evolves s0 s) :
    Evolves s0 (signalDetect s m) := by
  unfold signalDetect
  exact Evolves.ite (setLine_ev h) h

theorem certMessage_ev {s0 s : State} {m g pos root pub cosigners data} (h : Evolves s0 s) :
    Evolves s0 (certMessage s m g pos root pub cosigners data) := by
  unfold certMessage
  repeat' first
    | with_reducible assumption
    | (fail_if_no_progress extract_lets -underBinder +onlyGivenNames x)
      refine (fun (hx : Evolves s0 x) => ?_ : Evolves s0 x → _) ?_
      (on_goal 1 => clear_value x)
      (on_goal 2 => simp -zeta only [x])
    | fail_if_no_progress extract_lets -underBinder +onlyGivenNames _x
    | with_reducible refine Evolves.ite ?_ ?_
    | with_reducible refine takeFrame_ev ?_
    | with_reducible refine settle_ev ?_
    | with_reducible refine flood_ev ?_
    | with_reducible refine certInForce_ev ?_

theorem execLinkState_ev {s0 s : State} {line member version lines peers} (h : Evolves s0 s) :
    Keeps inOut s0 (execLinkState line member version lines peers s) := by
  unfold execLinkState
  exact Keeps.next (linkState_ev h)

theorem kbpkMessage_ev {s0 s : State} {m n kind i k gen pos kcv key} (h : Evolves s0 s) :
    Evolves s0 (kbpkMessage s m n kind i k gen pos kcv key) := by
  unfold kbpkMessage
  repeat' first
    | with_reducible assumption
    | (fail_if_no_progress extract_lets -underBinder +onlyGivenNames x)
      refine (fun (hx : Evolves s0 x) => ?_ : Evolves s0 x → _) ?_
      (on_goal 1 => clear_value x)
      (on_goal 2 => simp -zeta only [x])
    | fail_if_no_progress extract_lets -underBinder +onlyGivenNames _x
    | with_reducible refine Evolves.ite ?_ ?_
    | with_reducible refine takeFrame_ev ?_
    | with_reducible refine putSlot_ev ?_
    | with_reducible refine failSlot_ev ?_
    | with_reducible refine stageSlot_ev ?_
    | with_reducible refine sendKbpk_ev ?_
    | with_reducible refine activateReady_ev ?_
    | with_reducible refine modBridle_ev ?_
    | with_reducible refine armActivate_ev ?_
    | with_reducible refine endRequest_ev ?_
    | with_reducible refine putKeys_ev ?_
    | with_reducible refine persistKeys_ev ?_
    | with_reducible refine dpEvent_ev ?_
    | with_reducible refine keyChange_ev ?_
    | split

theorem execKbpk_ev {s0 s : State} {line from_ kind inst slot gen pos kcv key} (h : Evolves s0 s) :
    Keeps inOut s0 (execKbpk line from_ kind inst slot gen pos kcv key s) := by
  unfold execKbpk
  exact Keeps.next (pumpRequests_ev (kbpkMessage_ev h))

theorem execSigned_ev {s0 s : State} {line a1 a2 a3} (h : Evolves s0 s) :
    Keeps inOut s0 (execSigned line a1 a2 a3 s) := by
  unfold execSigned
  exact Keeps.next (signed_ev h)

theorem execKey_ev {s0 s : State} {line ecdh kem ct sigEc sigPq} (h : Evolves s0 s) :
    Keeps inOut s0 (execKey line ecdh kem ct sigEc sigPq s) := by
  unfold execKey
  exact Keeps.next (keyMessage_ev h)

theorem execLineSignalDetect_ev {s0 s : State} {line} (h : Evolves s0 s) :
    Keeps inOut s0 (execLineSignalDetect line s) := by
  unfold execLineSignalDetect
  exact Keeps.next (signalDetect_ev h)

theorem execLaneLossOfLock_ev {s0 s : State} {line lane} (h : Evolves s0 s) :
    Keeps inOut s0 (execLaneLossOfLock line lane s) := by
  unfold execLaneLossOfLock
  exact Keeps.next (lossOfLock_ev h)

theorem execFormExpel_ev {s0 s : State} {acc} (h : Evolves s0 s) :
    Keeps inOut s0 (execFormExpel acc s) := by
  unfold execFormExpel
  exact Keeps.next (Evolves.ite (formCmd_ev h) h)

theorem execLineTrainingAttempt_ev {s0 s : State} {line good} (h : Evolves s0 s) :
    Keeps inOut s0 (execLineTrainingAttempt line good s) := by
  unfold execLineTrainingAttempt
  exact Keeps.next (trainingEnds_ev h)

theorem execCert_ev {s0 s : State} {line gondola pos root pub cosigners data} (h : Evolves s0 s) :
    Keeps inOut s0 (execCert line gondola pos root pub cosigners data s) := by
  unfold execCert
  exact Keeps.next (certMessage_ev h)

theorem execFormJoin_ev {s0 s : State} {acc} (h : Evolves s0 s) :
    Keeps inOut s0 (execFormJoin acc s) := by
  unfold execFormJoin
  exact Keeps.next (Evolves.ite (formCmd_ev h) h)

theorem ackIn_ev {s0 s : State} {m lseq} (h : Evolves s0 s) :
    Evolves s0 (ackIn s m lseq) := by
  unfold ackIn
  repeat' first
    | with_reducible assumption
    | fail_if_no_progress extract_lets -underBinder +onlyGivenNames _x
    | with_reducible refine Evolves.ite ?_ ?_
    | with_reducible refine wakeIdle_ev ?_
    | with_reducible refine modLine_ev ?_

theorem execAck_ev {s0 s : State} {line lseq} (h : Evolves s0 s) :
    Keeps inOut s0 (execAck line lseq s) := by
  unfold execAck
  exact Keeps.next (ackIn_ev h)

theorem grant_ev {s0 s : State} {m f} (h : Evolves s0 s) :
    Evolves s0 (grant s m f) := by
  unfold grant
  exact emit_ev h

theorem admitForward_ev {s0 s : State} {m f js} (h : Evolves s0 s) :
    Evolves s0 (admitForward s m f js) := by
  unfold admitForward
  repeat' first
    | with_reducible assumption
    | intro h
      first | exact h | exact tset_wf h _ _ | exact tdel_wf h _ | exact filter_wf h _ | exact tmap_wf h _
            | exact rising_tput h _ (by simp) | exact rising_foldl_tput h _ _ _ | exact rising_tdel h _
            | exact rising_map h _ fun e => by split <;> rfl
    | (fail_if_no_progress extract_lets -underBinder +onlyGivenNames x)
      refine (fun (hx : Evolves s0 x) => ?_ : Evolves s0 x → _) ?_
      (on_goal 1 => clear_value x)
      (on_goal 2 => simp -zeta only [x])
    | fail_if_no_progress extract_lets -underBinder +onlyGivenNames _x
    | with_reducible refine grant_ev ?_
    | with_reducible refine modBridle_ev ?_
    | with_reducible refine Evolves.foldl ?_ ?_
    | fail_if_no_progress with_reducible refine Evolves.upd ?_
    | (fail_if_success (with_reducible refine Evolves.upd ?_))
      with_reducible refine Evolves.updTabs ?_ ?_ ?_ ?_ ?_ ?_ ?_ ?_ ?_ ?_ ?_ ?_ ?_ ?_
    | intro _

theorem tryForward_ev {s0 s : State} {m f} (h : Evolves s0 s) :
    Keeps inOpt s0 (tryForward s m f) := by
  unfold tryForward
  repeat' first
    | with_reducible assumption
    | fail_if_no_progress extract_lets -underBinder +onlyGivenNames _x
    | with_reducible refine Keeps.ite ?_ ?_
    | with_reducible refine admitForward_ev ?_
    | with_reducible refine Keeps.mkSome ?_
    | with_reducible refine Keeps.mkNone

theorem fwdPump_ev {s0 s : State} (h : Evolves s0 s) :
    Evolves s0 (fwdPump s) := by
  unfold fwdPump
  repeat' first
    | with_reducible assumption
    | (fail_if_no_progress extract_lets -underBinder +onlyGivenNames x)
      refine (fun (hx : Evolves s0 x) => ?_ : Evolves s0 x → _) ?_
      (on_goal 1 => clear_value x)
      (on_goal 2 => simp -zeta only [x])
    | fail_if_no_progress extract_lets -underBinder +onlyGivenNames _x
    | with_reducible refine tryForward_ev ?_
    | with_reducible refine modBridle_ev ?_
    | with_reducible refine Keeps.ofSome (by assumption) ?_
    | with_reducible refine Evolves.foldl ?_ ?_
    | fail_if_no_progress with_reducible refine Evolves.upd ?_
    | intro _
    | split

theorem fwdAck_ev {s0 s : State} {m f} (h : Evolves s0 s) :
    Evolves s0 (fwdAck s m f) := by
  unfold fwdAck
  repeat' first
    | with_reducible assumption
    | (fail_if_no_progress extract_lets -underBinder +onlyGivenNames x)
      refine (fun (hx : Evolves s0 x) => ?_ : Evolves s0 x → _) ?_
      (on_goal 1 => clear_value x)
      (on_goal 2 => simp -zeta only [x])
    | fail_if_no_progress extract_lets -underBinder +onlyGivenNames _x
    | with_reducible refine Evolves.ite ?_ ?_
    | with_reducible refine takeFrame_ev ?_
    | with_reducible refine dropLingering_ev ?_
    | with_reducible refine retireJob_ev ?_
    | with_reducible refine tryLeave_ev ?_
    | with_reducible refine fwdPump_ev ?_
    | with_reducible refine Evolves.foldl ?_ ?_
    | intro _

theorem execFwdAck_ev {s0 s : State} {line frame} (h : Evolves s0 s) :
    Keeps inOut s0 (execFwdAck line frame s) := by
  unfold execFwdAck
  exact Keeps.next (fwdAck_ev h)

theorem execRetirementRecorded_ev {s0 s : State} {page} (h : Evolves s0 s) :
    Keeps inOut s0 (execRetirementRecorded page s) := by
  unfold execRetirementRecorded
  exact Keeps.next (linesAfter_ev (recordRetirement_ev h))

theorem relay_ev {s0 s : State} {m f ok} (h : Evolves s0 s) :
    Evolves s0 (relay s m f ok) := by
  unfold relay
  repeat' first
    | with_reducible assumption
    | (fail_if_no_progress extract_lets -underBinder +onlyGivenNames x)
      refine (fun (hx : Evolves s0 x) => ?_ : Evolves s0 x → _) ?_
      (on_goal 1 => clear_value x)
      (on_goal 2 => simp -zeta only [x])
    | fail_if_no_progress extract_lets -underBinder +onlyGivenNames _x
    | with_reducible refine Evolves.ite ?_ ?_
    | with_reducible refine dropFrame_ev ?_
    | with_reducible refine takeFrame_ev ?_
    | with_reducible refine crcFailed_ev ?_
    | with_reducible refine charge_ev ?_
    | with_reducible refine grant_ev ?_
    | with_reducible refine sendOn_ev ?_
    | with_reducible refine modLine_ev ?_
    | with_reducible refine emit_ev ?_
    | with_reducible refine putFrame_ev ?_
    | split

theorem execFrameRelay_ev {s0 s : State} {line frame ok} (h : Evolves s0 s) :
    Keeps inOut s0 (execFrameRelay line frame ok s) := by
  unfold execFrameRelay
  exact Keeps.next (relay_ev h)

theorem returnedIn_ev {s0 s : State} {m f} (h : Evolves s0 s) :
    Evolves s0 (returnedIn s m f) := by
  unfold returnedIn
  repeat' first
    | with_reducible assumption
    | (fail_if_no_progress extract_lets -underBinder +onlyGivenNames x)
      refine (fun (hx : Evolves s0 x) => ?_ : Evolves s0 x → _) ?_
      (on_goal 1 => clear_value x)
      (on_goal 2 => simp -zeta only [x])
    | fail_if_no_progress extract_lets -underBinder +onlyGivenNames _x
    | with_reducible refine Evolves.ite ?_ ?_
    | with_reducible refine takeFrame_ev ?_
    | with_reducible refine modBridle_ev ?_
    | with_reducible refine tryLeave_ev ?_
    | with_reducible refine modJob_ev ?_
    | with_reducible refine Evolves.foldl ?_ ?_
    | intro _

theorem sendForward_ev {s0 s : State} {n dest} (h : Evolves s0 s) :
    Evolves s0 (sendForward s n dest) := by
  unfold sendForward
  repeat' first
    | with_reducible assumption
    | (fail_if_no_progress extract_lets -underBinder +onlyGivenNames x)
      refine (fun (hx : Evolves s0 x) => ?_ : Evolves s0 x → _) ?_
      (on_goal 1 => clear_value x)
      (on_goal 2 => simp -zeta only [x])
    | fail_if_no_progress extract_lets -underBinder +onlyGivenNames _x
    | with_reducible refine Evolves.ite ?_ ?_
    | with_reducible refine beginStep4_ev ?_
    | with_reducible refine modJob_ev ?_
    | with_reducible refine sendTo_ev ?_
    | with_reducible refine modBridle_ev ?_
    | with_reducible refine Evolves.foldl ?_ ?_
    | intro _
    | split

theorem loadIn_ev {s0 s : State} {m n idle free} (h : Evolves s0 s) :
    Evolves s0 (loadIn s m n idle free) := by
  unfold loadIn
  repeat' first
    | with_reducible assumption
    | (fail_if_no_progress extract_lets -underBinder +onlyGivenNames x)
      refine (fun (hx : Evolves s0 x) => ?_ : Evolves s0 x → _) ?_
      (on_goal 1 => clear_value x)
      (on_goal 2 => simp -zeta only [x])
    | fail_if_no_progress extract_lets -underBinder +onlyGivenNames _x
    | with_reducible refine Evolves.ite ?_ ?_
    | with_reducible refine takeFrame_ev ?_
    | with_reducible refine modBridle_ev ?_
    | with_reducible refine flood_ev ?_

theorem execLoad_ev {s0 s : State} {line member idle free} (h : Evolves s0 s) :
    Keeps inOut s0 (execLoad line member idle free s) := by
  unfold execLoad
  exact Keeps.next (loadIn_ev h)

theorem noticeIn_ev {s0 s : State} {m f lost} (h : Evolves s0 s) :
    Evolves s0 (noticeIn s m f lost) := by
  unfold noticeIn
  repeat' first
    | with_reducible assumption
    | (fail_if_no_progress extract_lets -underBinder +onlyGivenNames x)
      refine (fun (hx : Evolves s0 x) => ?_ : Evolves s0 x → _) ?_
      (on_goal 1 => clear_value x)
      (on_goal 2 => simp -zeta only [x])
    | with_reducible refine Evolves.ite ?_ ?_
    | with_reducible refine takeFrame_ev ?_
    | with_reducible refine tryLeave_ev ?_
    | with_reducible refine lostNotice_ev ?_
    | with_reducible refine rerunForward_ev ?_
    | with_reducible refine Evolves.foldl ?_ ?_
    | intro _

theorem execLost_ev {s0 s : State} {line frame} (h : Evolves s0 s) :
    Keeps inOut s0 (execLost line frame s) := by
  unfold execLost
  exact Keeps.next (noticeIn_ev h)

theorem sendResult_ev {s0 s : State} {id origin} (h : Evolves s0 s) :
    Evolves s0 (sendResult s id origin) := by
  unfold sendResult
  repeat' first
    | with_reducible assumption
    | fail_if_no_progress extract_lets -underBinder +onlyGivenNames _x
    | with_reducible refine Evolves.ite ?_ ?_
    | with_reducible refine sendTo_ev ?_
    | with_reducible refine modJob_ev ?_
    | with_reducible refine Evolves.foldl ?_ ?_
    | intro _

theorem execResultFinal_ev {s0 s : State} {job} (h : Evolves s0 s) :
    Keeps inOut s0 (execResultFinal job s) := by
  unfold execResultFinal
  repeat' first
    | with_reducible assumption
    | (fail_if_no_progress extract_lets -underBinder +onlyGivenNames x)
      refine (fun (hx : Evolves s0 x) => ?_ : Evolves s0 x → _) ?_
      (on_goal 1 => clear_value x)
      (on_goal 2 => simp -zeta only [x])
    | with_reducible refine resultFinal_ev ?_
    | with_reducible refine sendResult_ev ?_
    | with_reducible refine Keeps.next ?_
    | split

theorem nakIn_ev {s0 s : State} {m lseq} (h : Evolves s0 s) :
    Evolves s0 (nakIn s m lseq) := by
  unfold nakIn
  repeat' first
    | with_reducible assumption
    | (fail_if_no_progress extract_lets -underBinder +onlyGivenNames x)
      refine (fun (hx : Evolves s0 x) => ?_ : Evolves s0 x → _) ?_
      (on_goal 1 => clear_value x)
      (on_goal 2 => simp -zeta only [x])
    | fail_if_no_progress extract_lets -underBinder +onlyGivenNames _x
    | with_reducible refine Evolves.ite ?_ ?_
    | with_reducible refine wakeIdle_ev ?_
    | with_reducible refine modLine_ev ?_
    | with_reducible refine setLine_ev ?_
    | with_reducible refine dropFrame_ev ?_
    | with_reducible refine emit_ev ?_
    | with_reducible refine Evolves.foldl ?_ ?_
    | intro _
    | split
    | dsimp -zeta +zetaDelta only

theorem takeResults_ev {s0 x0 : State} {x1 x2} (hs0 : Evolves s0 x0) :
    Evolves s0 (takeResults x0 x1 x2) := by
  induction x1 generalizing x0 x2 with
  | nil => exact hs0
  | cons n ns ih =>
    unfold takeResults
    repeat' first
      | with_reducible refine ih ?_
      | with_reducible assumption
      | with_reducible refine modJob_ev ?_
      | split

theorem ackForwards_ev {s0 s : State} (h : Evolves s0 s) :
    Evolves s0 (ackForwards s) := by
  unfold ackForwards
  repeat' first
    | with_reducible assumption
    | (fail_if_no_progress extract_lets -underBinder +onlyGivenNames x)
      refine (fun (hx : Evolves s0 x) => ?_ : Evolves s0 x → _) ?_
      (on_goal 1 => clear_value x)
      (on_goal 2 => simp -zeta only [x])
    | fail_if_no_progress extract_lets -underBinder +onlyGivenNames _x
    | with_reducible refine Evolves.ite ?_ ?_
    | with_reducible refine sendTo_ev ?_
    | with_reducible refine modJob_ev ?_
    | with_reducible refine Evolves.foldl ?_ ?_
    | intro _

theorem resultIn_ev {s0 s : State} {m f} (h : Evolves s0 s) :
    Evolves s0 (resultIn s m f) := by
  unfold resultIn
  repeat' first
    | with_reducible assumption
    | (fail_if_no_progress extract_lets -underBinder +onlyGivenNames x)
      refine (fun (hx : Evolves s0 x) => ?_ : Evolves s0 x → _) ?_
      (on_goal 1 => clear_value x)
      (on_goal 2 => simp -zeta only [x])
    | fail_if_no_progress extract_lets -underBinder +onlyGivenNames _x
    | with_reducible refine Evolves.ite ?_ ?_
    | with_reducible refine grant_ev ?_
    | with_reducible refine takeFrame_ev ?_
    | with_reducible refine askResult_ev ?_
    | with_reducible refine charge_ev ?_
    | with_reducible refine takeResults_ev ?_
    | with_reducible refine tryLeave_ev ?_
    | with_reducible refine ackForwards_ev ?_
    | with_reducible refine tryCommit_ev ?_
    | with_reducible refine Evolves.foldl ?_ ?_
    | intro _

theorem execResult_ev {s0 s : State} {line frame} (h : Evolves s0 s) :
    Keeps inOut s0 (execResult line frame s) := by
  unfold execResult
  exact Keeps.next (resultIn_ev h)

theorem nakRes_ev {s0 s : State} {m f} (h : Evolves s0 s) :
    Evolves s0 (nakRes s m f) := by
  unfold nakRes
  exact Evolves.ite h (sendResult_ev (takeFrame_ev h))

theorem execUnitDisable_ev {s0 s : State} {acc page} (h : Evolves s0 s) :
    Keeps inOut s0 (execUnitDisable acc page s) := by
  unfold execUnitDisable
  exact Keeps.next (Evolves.ite (linesAfter_ev (noteCtrl_ev (keepEnable_ev (rebindAll_ev (writeEnable0_ev h))))) h)

theorem execNakRes_ev {s0 s : State} {line frame} (h : Evolves s0 s) :
    Keeps inOut s0 (execNakRes line frame s) := by
  unfold execNakRes
  exact Keeps.next (nakRes_ev h)

theorem loadFlood_ev {s0 s : State} (h : Evolves s0 s) :
    Evolves s0 (loadFlood s) := by
  unfold loadFlood
  repeat' first
    | with_reducible assumption
    | fail_if_no_progress extract_lets -underBinder +onlyGivenNames _x
    | with_reducible refine Evolves.ite ?_ ?_
    | with_reducible refine flood_ev ?_
    | with_reducible refine modBridle_ev ?_

theorem execLeafCommit_ev {s0 s : State} {job} (h : Evolves s0 s) :
    Keeps inOut s0 (execLeafCommit job s) := by
  unfold execLeafCommit
  exact Keeps.next (ackForwards_ev (tryCommit_ev h))

theorem execLoadFlood_ev {s0 s : State} (h : Evolves s0 s) :
    Keeps inOut s0 (execLoadFlood s) := by
  unfold execLoadFlood
  exact Keeps.next (loadFlood_ev h)

theorem execUnitDrainComplete_ev {s0 s : State} {page} (h : Evolves s0 s) :
    Keeps inOut s0 (execUnitDrainComplete page s) := by
  unfold execUnitDrainComplete
  exact Keeps.next (linesAfter_ev (rebindAll_ev (drainComplete_ev h)))

theorem forwardIn_ev {s0 s : State} {m f} (h : Evolves s0 s) :
    Evolves s0 (forwardIn s m f) := by
  unfold forwardIn
  repeat' first
    | with_reducible assumption
    | (fail_if_no_progress extract_lets -underBinder +onlyGivenNames x)
      refine (fun (hx : Evolves s0 x) => ?_ : Evolves s0 x → _) ?_
      (on_goal 1 => clear_value x)
      (on_goal 2 => simp -zeta only [x])
    | fail_if_no_progress extract_lets -underBinder +onlyGivenNames _x
    | with_reducible refine Evolves.ite ?_ ?_
    | with_reducible refine takeFrame_ev ?_
    | with_reducible refine grant_ev ?_
    | with_reducible refine sendTo_ev ?_
    | with_reducible refine charge_ev ?_
    | with_reducible refine sendResult_ev ?_
    | with_reducible refine fwdPump_ev ?_
    | with_reducible refine modBridle_ev ?_

theorem execForward_ev {s0 s : State} {line frame} (h : Evolves s0 s) :
    Keeps inOut s0 (execForward line frame s) := by
  unfold execForward
  exact Keeps.next (forwardIn_ev h)

theorem creditIn_ev {s0 s : State} {m cls vlane flits} (h : Evolves s0 s) :
    Evolves s0 (creditIn s m cls vlane flits) := by
  unfold creditIn
  repeat' first
    | with_reducible assumption
    | (fail_if_no_progress extract_lets -underBinder +onlyGivenNames x)
      refine (fun (hx : Evolves s0 x) => ?_ : Evolves s0 x → _) ?_
      (on_goal 1 => clear_value x)
      (on_goal 2 => simp -zeta only [x])
    | fail_if_no_progress extract_lets -underBinder +onlyGivenNames _x
    | with_reducible refine Evolves.ite ?_ ?_
    | with_reducible refine modLine_ev ?_
    | with_reducible refine wakeIdle_ev ?_
    | with_reducible refine drainWaiting_ev ?_

theorem execCredit_ev {s0 s : State} {line cls vlane flits} (h : Evolves s0 s) :
    Keeps inOut s0 (execCredit line cls vlane flits s) := by
  unfold execCredit
  exact Keeps.next (creditIn_ev h)

theorem execTransientFault_ev {s0 s : State} {page cause job} (h : Evolves s0 s) :
    Keeps inOut s0 (execTransientFault page cause job s) := by
  unfold execTransientFault
  repeat' first
    | with_reducible assumption
    | (fail_if_no_progress extract_lets -underBinder +onlyGivenNames x)
      refine (fun (hx : Evolves s0 x) => ?_ : Evolves s0 x → _) ?_
      (on_goal 1 => clear_value x)
      (on_goal 2 => simp -zeta only [x])
    | fail_if_no_progress extract_lets -underBinder +onlyGivenNames _x
    | with_reducible refine Evolves.ite ?_ ?_
    | with_reducible refine crcFailed_ev ?_
    | with_reducible refine charge_ev ?_
    | with_reducible refine laneError_ev ?_
    | with_reducible refine takeFault_ev ?_
    | with_reducible refine Keeps.next ?_

theorem execNakFwd_ev {s0 s : State} {line frame} (h : Evolves s0 s) :
    Keeps inOut s0 (execNakFwd line frame s) := by
  unfold execNakFwd
  exact Keeps.next (noticeIn_ev h)

theorem execNak_ev {s0 s : State} {line lseq} (h : Evolves s0 s) :
    Keeps inOut s0 (execNak line lseq s) := by
  unfold execNak
  exact Keeps.next (nakIn_ev h)

theorem execForwardSend_ev {s0 s : State} {job member} (h : Evolves s0 s) :
    Keeps inOut s0 (execForwardSend job member s) := by
  unfold execForwardSend
  exact Keeps.next (sendForward_ev h)

theorem execReturned_ev {s0 s : State} {line frame} (h : Evolves s0 s) :
    Keeps inOut s0 (execReturned line frame s) := by
  unfold execReturned
  exact Keeps.next (returnedIn_ev h)

theorem execBallastWaitEnd_ev {s0 s : State} (h : Evolves s0 s) :
    Keeps inOut s0 (execBallastWaitEnd s) := by
  unfold execBallastWaitEnd
  exact Keeps.next (fwdPump_ev (noteStall_ev (ballastWaitEnd_ev h)))

theorem execRetireRequest_ev {s0 s : State} {acc page} (h : Evolves s0 s) :
    Keeps inOut s0 (execRetireRequest acc page s) := by
  unfold execRetireRequest
  exact Keeps.next (linesAfter_ev (rebindAll_ev (Evolves.ite (requestRetire_ev h) h)))

theorem putPortN_ev {s0 s : State} {n p} (h : Evolves s0 s) :
    Evolves s0 (putPortN s n p) := by
  unfold putPortN
  repeat' first
    | with_reducible assumption
    | intro h
      first | exact h | exact tset_wf h _ _ | exact tdel_wf h _ | exact filter_wf h _ | exact tmap_wf h _
            | exact rising_tput h _ (by simp) | exact rising_foldl_tput h _ _ _ | exact rising_tdel h _
            | exact rising_map h _ fun e => by split <;> rfl
    | (fail_if_success (with_reducible refine Evolves.upd ?_))
      with_reducible refine Evolves.updTabs ?_ ?_ ?_ ?_ ?_ ?_ ?_ ?_ ?_ ?_ ?_ ?_ ?_ ?_

theorem spdmAnswer_ev {s0 s : State} {n request code content} (h : Evolves s0 s) :
    Evolves s0 (spdmAnswer s n request code content) := by
  unfold spdmAnswer
  repeat' first
    | with_reducible assumption
    | fail_if_no_progress extract_lets -underBinder +onlyGivenNames _x
    | with_reducible refine emit_ev ?_
    | with_reducible refine putPortN_ev ?_

theorem noteRingWaits_ev {s0 s : State} (h : Evolves s0 s) :
    Evolves s0 (noteRingWaits s) := by
  unfold noteRingWaits
  repeat' first
    | with_reducible assumption
    | with_reducible refine noteRingWait_ev ?_
    | with_reducible refine Evolves.foldl ?_ ?_
    | intro _

theorem clearAccessor_ev {s0 x0 : State} {x1} (hs0 : Evolves s0 x0) :
    Evolves s0 (clearAccessor x0 x1) := by
  unfold clearAccessor
  extract_lets _ s
  have h1 : Evolves s0 s := putWin_ev hs0
  clear_value s
  exact ⟨h1.queue, h1.burned, h1.pointer, fun h => ⟨(h1.gate h).nonce, (h1.gate h).inst, (h1.gate h).range⟩, fun h =>
    let y := h1.tables h
    ⟨filter_wf y.regs _, y.units, y.rings, y.jobs, y.intakes, y.msix, y.events, tdel_wf y.evtSel _, tdel_wf y.evtRes _, y.sails,
      (by dsimp only; exact tmap_wf y.lanes _), (by dsimp only; exact tmap_wf y.cores _), y.ports⟩⟩

theorem clearVfs_ev {s0 s : State} {n} (h : Evolves s0 s) :
    Evolves s0 (clearVfs s n) := by
  unfold clearVfs
  repeat' first
    | with_reducible assumption
    | (fail_if_no_progress extract_lets -underBinder +onlyGivenNames x)
      refine (fun (hx : Evolves s0 x) => ?_ : Evolves s0 x → _) ?_
      (on_goal 1 => clear_value x)
      (on_goal 2 => simp -zeta only [x])
    | fail_if_no_progress extract_lets -underBinder +onlyGivenNames _x
    | with_reducible refine vfReset_ev ?_
    | with_reducible refine putPortN_ev ?_
    | with_reducible refine Evolves.foldl ?_ ?_
    | intro _

theorem configReset_ev {s0 s : State} {n} (h : Evolves s0 s) :
    Evolves s0 (configReset s n) := by
  unfold configReset
  repeat' first
    | with_reducible assumption
    | intro h
      first | exact h | exact tset_wf h _ _ | exact tdel_wf h _ | exact filter_wf h _ | exact tmap_wf h _
            | exact rising_tput h _ (by simp) | exact rising_foldl_tput h _ _ _ | exact rising_tdel h _
            | exact rising_map h _ fun e => by split <;> rfl
    | (fail_if_no_progress extract_lets -underBinder +onlyGivenNames x)
      refine (fun (hx : Evolves s0 x) => ?_ : Evolves s0 x → _) ?_
      (on_goal 1 => clear_value x)
      (on_goal 2 => simp -zeta only [x])
    | fail_if_no_progress extract_lets -underBinder +onlyGivenNames _x
    | with_reducible refine clearVfs_ev ?_
    | with_reducible refine putPortN_ev ?_
    | (fail_if_success (with_reducible refine Evolves.upd ?_))
      with_reducible refine Evolves.updTabs ?_ ?_ ?_ ?_ ?_ ?_ ?_ ?_ ?_ ?_ ?_ ?_ ?_ ?_

theorem pfReset_ev {s0 s : State} {n} (h : Evolves s0 s) :
    Evolves s0 (pfReset s n) := by
  unfold pfReset
  exact Evolves.ite h (noteRingWaits_ev (pumpRequests_ev (clearAccessor_ev (configReset_ev h))))

theorem execFunctionLevelResetPf_ev {s0 s : State} {port} (h : Evolves s0 s) :
    Keeps inOut s0 (execFunctionLevelResetPf port s) := by
  unfold execFunctionLevelResetPf
  exact Keeps.next (pfReset_ev h)

theorem spdmFail_ev {s0 s : State} {n code} (h : Evolves s0 s) :
    Evolves s0 (spdmFail s n code) := by
  unfold spdmFail
  exact emit_ev h

theorem spdmSign_ev {s0 s : State} {n request content} (h : Evolves s0 s) :
    Keeps inSnd s0 (spdmSign s n request content) := by
  unfold spdmSign
  exact identitySig_ev h

theorem spdmChallenge_ev {s0 s : State} {n b} (h : Evolves s0 s) :
    Evolves s0 (spdmChallenge s n b) := by
  unfold spdmChallenge
  repeat' first
    | with_reducible assumption
    | with_reducible refine Evolves.ite ?_ ?_
    | with_reducible refine spdmFail_ev ?_
    | with_reducible refine Keeps.snd (keelDraw_ev ?_)
    | with_reducible refine Keeps.snd (spdmSign_ev ?_)
    | with_reducible refine spdmAnswer_ev ?_

theorem vfSettle_ev {s0 s : State} {n} (h : Evolves s0 s) :
    Evolves s0 (vfSettle s n) := by
  unfold vfSettle
  repeat' first
    | with_reducible assumption
    | (fail_if_no_progress extract_lets -underBinder +onlyGivenNames x)
      refine (fun (hx : Evolves s0 x) => ?_ : Evolves s0 x → _) ?_
      (on_goal 1 => clear_value x)
      (on_goal 2 => simp -zeta only [x])
    | fail_if_no_progress extract_lets -underBinder +onlyGivenNames _x
    | with_reducible refine Evolves.ite ?_ ?_
    | with_reducible refine putPortN_ev ?_
    | with_reducible refine setEvent_ev ?_

theorem spdmMeasurements_ev {s0 s : State} {n b} (h : Evolves s0 s) :
    Evolves s0 (spdmMeasurements s n b) := by
  unfold spdmMeasurements
  repeat' first
    | with_reducible assumption
    | fail_if_no_progress extract_lets -underBinder +onlyGivenNames _x
    | with_reducible refine Evolves.ite ?_ ?_
    | with_reducible refine spdmFail_ev ?_
    | with_reducible refine Keeps.snd (spdmSign_ev ?_)
    | with_reducible refine spdmAnswer_ev ?_

theorem execGetMeasurements_ev {s0 s : State} {port data} (h : Evolves s0 s) :
    Keeps inOut s0 (execGetMeasurements port data s) := by
  unfold execGetMeasurements
  exact Keeps.next (spdmMeasurements_ev h)

theorem writeVfEnable_ev {s0 s : State} {n on numVf} (h : Evolves s0 s) :
    Evolves s0 (writeVfEnable s n on numVf) := by
  unfold writeVfEnable
  repeat' first
    | with_reducible assumption
    | fail_if_no_progress extract_lets -underBinder +onlyGivenNames _x
    | with_reducible refine Evolves.ite ?_ ?_
    | with_reducible refine putPortN_ev ?_
    | with_reducible refine clearVfs_ev ?_

theorem execVfEnableWrite_ev {s0 s : State} {port on numVf} (h : Evolves s0 s) :
    Keeps inOut s0 (execVfEnableWrite port on numVf s) := by
  unfold execVfEnableWrite
  exact Keeps.next (writeVfEnable_ev h)

theorem execSpdmChallenge_ev {s0 s : State} {port data} (h : Evolves s0 s) :
    Keeps inOut s0 (execSpdmChallenge port data s) := by
  unfold execSpdmChallenge
  exact Keeps.next (spdmChallenge_ev h)

theorem portReset_ev {s0 s : State} {n cause} (h : Evolves s0 s) :
    Evolves s0 (portReset s n cause) := by
  unfold portReset
  repeat' first
    | with_reducible assumption
    | (fail_if_no_progress extract_lets -underBinder +onlyGivenNames x)
      refine (fun (hx : Evolves s0 x) => ?_ : Evolves s0 x → _) ?_
      (on_goal 1 => clear_value x)
      (on_goal 2 => simp -zeta only [x])
    | fail_if_no_progress extract_lets -underBinder +onlyGivenNames _x
    | with_reducible refine Evolves.ite ?_ ?_
    | with_reducible refine configReset_ev ?_
    | with_reducible refine putPortN_ev ?_
    | with_reducible refine setEvent_ev ?_
    | with_reducible refine tryStart_ev ?_
    | with_reducible refine setUState_ev ?_
    | with_reducible refine noteRingWaits_ev ?_

theorem execPortReset_ev {s0 s : State} {port cause} (h : Evolves s0 s) :
    Keeps inOut s0 (execPortReset port cause s) := by
  unfold execPortReset
  exact Keeps.next (portReset_ev h)

theorem spdmAlgs_ev {s0 s : State} {n b} (h : Evolves s0 s) :
    Evolves s0 (spdmAlgs s n b) := by
  unfold spdmAlgs
  repeat' first
    | with_reducible assumption
    | fail_if_no_progress extract_lets -underBinder +onlyGivenNames _x
    | with_reducible refine Evolves.ite ?_ ?_
    | with_reducible refine spdmFail_ev ?_
    | with_reducible refine spdmAnswer_ev ?_
    | with_reducible refine putPortN_ev ?_

theorem execNegotiateAlgorithms_ev {s0 s : State} {port data} (h : Evolves s0 s) :
    Keeps inOut s0 (execNegotiateAlgorithms port data s) := by
  unfold execNegotiateAlgorithms
  exact Keeps.next (spdmAlgs_ev h)

theorem spdmKeyUpdate_ev {s0 s : State} {n id b} (h : Evolves s0 s) :
    Evolves s0 (spdmKeyUpdate s n id b) := by
  unfold spdmKeyUpdate
  repeat' first
    | with_reducible assumption
    | fail_if_no_progress extract_lets -underBinder +onlyGivenNames _x
    | with_reducible refine Evolves.ite ?_ ?_
    | with_reducible refine spdmFail_ev ?_
    | with_reducible refine spdmAnswer_ev ?_
    | with_reducible refine putPortN_ev ?_
    | split

theorem execKeyUpdate_ev {s0 s : State} {port session data} (h : Evolves s0 s) :
    Keeps inOut s0 (execKeyUpdate port session data s) := by
  unfold execKeyUpdate
  exact Keeps.next (spdmKeyUpdate_ev h)

theorem ideKm_ev {s0 s : State} {n id stream content f} (h : Evolves s0 s) :
    Evolves s0 (ideKm s n id stream content f) := by
  unfold ideKm
  repeat' first
    | with_reducible assumption
    | fail_if_no_progress extract_lets -underBinder +onlyGivenNames _x
    | with_reducible refine Evolves.ite ?_ ?_
    | with_reducible refine spdmFail_ev ?_
    | with_reducible refine spdmAnswer_ev ?_
    | with_reducible refine putPortN_ev ?_
    | split

theorem execKeyProg_ev {s0 s : State} {port session stream keySet tx key} (h : Evolves s0 s) :
    Keeps inOut s0 (execKeyProg port session stream keySet tx key s) := by
  unfold execKeyProg
  exact Keeps.next (ideKm_ev h)

theorem spdmFinish_ev {s0 s : State} {n b} (h : Evolves s0 s) :
    Evolves s0 (spdmFinish s n b) := by
  unfold spdmFinish
  repeat' first
    | with_reducible assumption
    | fail_if_no_progress extract_lets -underBinder +onlyGivenNames _x
    | with_reducible refine Evolves.ite ?_ ?_
    | with_reducible refine spdmFail_ev ?_
    | with_reducible refine spdmAnswer_ev ?_
    | with_reducible refine putPortN_ev ?_
    | split

theorem execFinish_ev {s0 s : State} {port data} (h : Evolves s0 s) :
    Keeps inOut s0 (execFinish port data s) := by
  unfold execFinish
  exact Keeps.next (spdmFinish_ev h)

theorem spdmEnd_ev {s0 s : State} {n id} (h : Evolves s0 s) :
    Evolves s0 (spdmEnd s n id) := by
  unfold spdmEnd
  repeat' first
    | with_reducible assumption
    | fail_if_no_progress extract_lets -underBinder +onlyGivenNames _x
    | with_reducible refine Evolves.ite ?_ ?_
    | with_reducible refine spdmFail_ev ?_
    | with_reducible refine spdmAnswer_ev ?_
    | with_reducible refine putPortN_ev ?_
    | split

theorem linkUp_ev {s0 s : State} {n speed width} (h : Evolves s0 s) :
    Evolves s0 (linkUp s n speed width) := by
  unfold linkUp
  repeat' first
    | with_reducible assumption
    | (fail_if_no_progress extract_lets -underBinder +onlyGivenNames x)
      refine (fun (hx : Evolves s0 x) => ?_ : Evolves s0 x → _) ?_
      (on_goal 1 => clear_value x)
      (on_goal 2 => simp -zeta only [x])
    | fail_if_no_progress extract_lets -underBinder +onlyGivenNames _x
    | with_reducible refine Evolves.ite ?_ ?_
    | with_reducible refine setEvent_ev ?_
    | with_reducible refine putPortN_ev ?_
    | with_reducible refine setUState_ev ?_
    | with_reducible refine wakeRing_ev ?_
    | with_reducible refine noteRingWaits_ev ?_
    | with_reducible refine Evolves.foldl ?_ ?_
    | intro _

theorem execEndSession_ev {s0 s : State} {port session} (h : Evolves s0 s) :
    Keeps inOut s0 (execEndSession port session s) := by
  unfold execEndSession
  exact Keeps.next (spdmEnd_ev h)

theorem spdmKeyExchange_ev {s0 s : State} {n b} (h : Evolves s0 s) :
    Evolves s0 (spdmKeyExchange s n b) := by
  unfold spdmKeyExchange
  repeat' first
    | with_reducible assumption
    | fail_if_no_progress extract_lets -underBinder +onlyGivenNames _x
    | with_reducible refine Evolves.ite ?_ ?_
    | with_reducible refine spdmFail_ev ?_
    | with_reducible refine Keeps.snd (keelDraw_ev ?_)
    | with_reducible refine Keeps.snd (spdmSign_ev ?_)
    | with_reducible refine putPortN_ev ?_
    | with_reducible refine spdmAnswer_ev ?_

theorem ideFail_ev {s0 s : State} {n i} (h : Evolves s0 s) :
    Evolves s0 (ideFail s n i) := by
  unfold ideFail
  repeat' first
    | with_reducible assumption
    | fail_if_no_progress extract_lets -underBinder +onlyGivenNames _x
    | with_reducible refine Evolves.ite ?_ ?_
    | with_reducible refine setEvent_ev ?_
    | with_reducible refine putPortN_ev ?_

theorem execIdeIntegrityFail_ev {s0 s : State} {port stream} (h : Evolves s0 s) :
    Keeps inOut s0 (execIdeIntegrityFail port stream s) := by
  unfold execIdeIntegrityFail
  exact Keeps.next (ideFail_ev h)

theorem execKSetStop_ev {s0 s : State} {port session stream keySet tx} (h : Evolves s0 s) :
    Keeps inOut s0 (execKSetStop port session stream keySet tx s) := by
  unfold execKSetStop
  exact Keeps.next (ideKm_ev h)

theorem spdmVersion_ev {s0 s : State} {n b} (h : Evolves s0 s) :
    Evolves s0 (spdmVersion s n b) := by
  unfold spdmVersion
  repeat' first
    | with_reducible assumption
    | fail_if_no_progress extract_lets -underBinder +onlyGivenNames _x
    | with_reducible refine Evolves.ite ?_ ?_
    | with_reducible refine spdmAnswer_ev ?_
    | with_reducible refine putPortN_ev ?_

theorem spdmCaps_ev {s0 s : State} {n b} (h : Evolves s0 s) :
    Evolves s0 (spdmCaps s n b) := by
  unfold spdmCaps
  repeat' first
    | with_reducible assumption
    | fail_if_no_progress extract_lets -underBinder +onlyGivenNames _x
    | with_reducible refine Evolves.ite ?_ ?_
    | with_reducible refine spdmFail_ev ?_
    | with_reducible refine spdmAnswer_ev ?_
    | with_reducible refine putPortN_ev ?_

theorem execGetCapabilities_ev {s0 s : State} {port data} (h : Evolves s0 s) :
    Keeps inOut s0 (execGetCapabilities port data s) := by
  unfold execGetCapabilities
  exact Keeps.next (spdmCaps_ev h)

theorem spdmCertificate_ev {s0 s : State} {n b} (h : Evolves s0 s) :
    Evolves s0 (spdmCertificate s n b) := by
  unfold spdmCertificate
  repeat' first
    | with_reducible assumption
    | fail_if_no_progress extract_lets -underBinder +onlyGivenNames _x
    | with_reducible refine Evolves.ite ?_ ?_
    | with_reducible refine spdmFail_ev ?_
    | with_reducible refine spdmAnswer_ev ?_

theorem spdmDigests_ev {s0 s : State} {n b} (h : Evolves s0 s) :
    Evolves s0 (spdmDigests s n b) := by
  unfold spdmDigests
  exact Evolves.ite h (Evolves.ite (spdmFail_ev h) (spdmAnswer_ev h))

theorem execGetDigests_ev {s0 s : State} {port data} (h : Evolves s0 s) :
    Keeps inOut s0 (execGetDigests port data s) := by
  unfold execGetDigests
  exact Keeps.next (spdmDigests_ev h)

theorem execLinkUp_ev {s0 s : State} {port speed width} (h : Evolves s0 s) :
    Keeps inOut s0 (execLinkUp port speed width s) := by
  unfold execLinkUp
  exact Keeps.next (linkUp_ev h)

theorem execKeyExchange_ev {s0 s : State} {port data} (h : Evolves s0 s) :
    Keeps inOut s0 (execKeyExchange port data s) := by
  unfold execKeyExchange
  exact Keeps.next (spdmKeyExchange_ev h)

theorem execCompletionTimeout_ev {s0 s : State} {job} (h : Evolves s0 s) :
    Keeps inOut s0 (execCompletionTimeout job s) := by
  unfold execCompletionTimeout
  repeat' first
    | with_reducible assumption
    | with_reducible refine Evolves.ite ?_ ?_
    | with_reducible refine hostRead_ev ?_
    | with_reducible refine Keeps.next ?_
    | split

theorem tlpReceive_ev {s0 s : State} {n exempt stream} (h : Evolves s0 s) :
    Evolves s0 (tlpReceive s n exempt stream) := by
  unfold tlpReceive
  repeat' first
    | with_reducible assumption
    | fail_if_no_progress extract_lets -underBinder +onlyGivenNames _x
    | with_reducible refine Evolves.ite ?_ ?_
    | with_reducible refine putPortN_ev ?_

theorem execTlpReceive_ev {s0 s : State} {port exempt stream} (h : Evolves s0 s) :
    Keeps inOut s0 (execTlpReceive port exempt stream s) := by
  unfold execTlpReceive
  exact Keeps.next (tlpReceive_ev h)

theorem writePfBme_ev {s0 s : State} {n on} (h : Evolves s0 s) :
    Evolves s0 (writePfBme s n on) := by
  unfold writePfBme
  repeat' first
    | with_reducible assumption
    | fail_if_no_progress extract_lets -underBinder +onlyGivenNames _x
    | with_reducible refine Evolves.ite ?_ ?_
    | with_reducible refine noteRingWaits_ev ?_
    | with_reducible refine putPortN_ev ?_

theorem execPhysicalFunctionBusMasterEnable_ev {s0 s : State} {port on} (h : Evolves s0 s) :
    Keeps inOut s0 (execPhysicalFunctionBusMasterEnable port on s) := by
  unfold execPhysicalFunctionBusMasterEnable
  exact Keeps.next (writePfBme_ev h)

theorem execPerstRelease_ev {s0 s : State} {port} (h : Evolves s0 s) :
    Keeps inOut s0 (execPerstRelease port s) := by
  unfold execPerstRelease
  repeat' first
    | with_reducible assumption
    | fail_if_no_progress extract_lets -underBinder +onlyGivenNames _x
    | with_reducible refine Evolves.ite ?_ ?_
    | with_reducible refine putPortN_ev ?_
    | with_reducible refine Keeps.next ?_

theorem execKSetGo_ev {s0 s : State} {port session stream keySet tx} (h : Evolves s0 s) :
    Keeps inOut s0 (execKSetGo port session stream keySet tx s) := by
  unfold execKSetGo
  exact Keeps.next (ideKm_ev h)

theorem execGenerationWrapWaitEnd_ev {s0 s : State} {inst} (h : Evolves s0 s) :
    Keeps inOut s0 (execGenerationWrapWaitEnd inst s) := by
  unfold execGenerationWrapWaitEnd
  exact Keeps.next (vfSettle_ev (vfSettle_ev (wrapWaitEnd_ev h)))

theorem execQuery_ev {s0 s : State} {port session stream} (h : Evolves s0 s) :
    Keeps inOut s0 (execQuery port session stream s) := by
  unfold execQuery
  exact Keeps.next (ideKm_ev h)

theorem execGetCertificate_ev {s0 s : State} {port data} (h : Evolves s0 s) :
    Keeps inOut s0 (execGetCertificate port data s) := by
  unfold execGetCertificate
  exact Keeps.next (spdmCertificate_ev h)

theorem execFunctionLevelResetVf_ev {s0 s : State} {inst} (h : Evolves s0 s) :
    Keeps inOut s0 (execFunctionLevelResetVf inst s) := by
  unfold execFunctionLevelResetVf
  exact Keeps.next (vfReset_ev h)

theorem execGetVersion_ev {s0 s : State} {port data} (h : Evolves s0 s) :
    Keeps inOut s0 (execGetVersion port data s) := by
  unfold execGetVersion
  exact Keeps.next (spdmVersion_ev h)

theorem channelOff_ev {s0 s : State} {c} (h : Evolves s0 s) :
    Evolves s0 (channelOff s c) := by
  unfold channelOff
  repeat' first
    | with_reducible assumption
    | intro h
      first | exact h | exact tset_wf h _ _ | exact tdel_wf h _ | exact filter_wf h _ | exact tmap_wf h _
            | exact rising_tput h _ (by simp) | exact rising_foldl_tput h _ _ _ | exact rising_tdel h _
            | exact rising_map h _ fun e => by split <;> rfl
    | (fail_if_no_progress extract_lets -underBinder +onlyGivenNames x)
      refine (fun (hx : Evolves s0 x) => ?_ : Evolves s0 x → _) ?_
      (on_goal 1 => clear_value x)
      (on_goal 2 => simp -zeta only [x])
    | fail_if_no_progress extract_lets -underBinder +onlyGivenNames _x
    | with_reducible refine Evolves.ite ?_ ?_
    | with_reducible refine modUnit_ev ?_
    | with_reducible refine setUState_ev ?_
    | with_reducible refine Evolves.foldl ?_ ?_
    | (fail_if_success (with_reducible refine Evolves.upd ?_))
      with_reducible refine Evolves.updTabs ?_ ?_ ?_ ?_ ?_ ?_ ?_ ?_ ?_ ?_ ?_ ?_ ?_ ?_
    | intro _

theorem zeroiseNow_ev {s0 s : State} (h : Evolves s0 s) :
    Evolves s0 (zeroiseNow s) := by
  unfold zeroiseNow
  exact zeroiseLock_ev (ripcord_ev h)

theorem lcChallenge_ev {s0 s : State} (h : Evolves s0 s) :
    Keeps inFst s0 (lcChallenge s) := by
  unfold lcChallenge
  repeat' first
    | with_reducible assumption
    | fail_if_no_progress extract_lets -underBinder +onlyGivenNames _x
    | with_reducible refine Keeps.snd (keelDraw_ev ?_)
    | with_reducible refine Keeps.mkFst ?_
    | fail_if_no_progress with_reducible refine Evolves.upd ?_

theorem ship_ev {s0 s : State} {ok b} (h : Evolves s0 s) :
    Keeps inFst s0 (ship s ok b) := by
  unfold ship
  repeat' first
    | with_reducible assumption
    | (fail_if_no_progress extract_lets -underBinder +onlyGivenNames x)
      refine (fun (hx : Evolves s0 x) => ?_ : Evolves s0 x → _) ?_
      (on_goal 1 => clear_value x)
      (on_goal 2 => simp -zeta only [x])
    | fail_if_no_progress extract_lets -underBinder +onlyGivenNames _x
    | with_reducible refine Keeps.ite ?_ ?_
    | with_reducible refine closeGate_ev ?_
    | with_reducible refine lifecycleChanged_ev ?_
    | with_reducible refine burnLifecycle_ev ?_
    | with_reducible refine Keeps.mkFst ?_
    | fail_if_no_progress with_reducible refine Evolves.upd ?_

theorem useNonce_ev {s0 s : State} {n} (h : Evolves s0 s) :
    Keeps inFst s0 (useNonce s n) := by
  unfold useNonce
  repeat' first
    | with_reducible assumption
    | fail_if_no_progress extract_lets -underBinder +onlyGivenNames _x
    | with_reducible refine Keeps.mkFst ?_
    | fail_if_no_progress with_reducible refine Evolves.upd ?_

theorem commission_ev {s0 s : State} {ok b len} (h : Evolves s0 s) :
    Keeps inFst s0 (commission s ok b len) := by
  unfold commission
  repeat' first
    | (fail_if_success (with_reducible refine Evolves.upd ?_)); with_reducible refine Evolves.burn ?_ ?_
    | ((with_reducible refine BurnedStays.mk ?_ ?_ ?_ ?_ ?_ ?_ ?_ ?_ ?_) <;> simp +zetaDelta [← BitVec.or_assoc])
    | with_reducible assumption
    | (fail_if_no_progress extract_lets -underBinder +onlyGivenNames x)
      refine (fun (hx : Evolves s0 x) => ?_ : Evolves s0 x → _) ?_
      (on_goal 1 => clear_value x)
      (on_goal 2 => simp -zeta only [x])
    | fail_if_no_progress extract_lets -underBinder +onlyGivenNames _x
    | with_reducible refine Keeps.ite ?_ ?_
    | with_reducible refine Keeps.fst (useNonce_ev ?_)
    | with_reducible refine otpBurned_ev ?_
    | with_reducible refine raiseFloors_ev ?_
    | with_reducible refine lifecycleChanged_ev ?_
    | with_reducible refine burnLifecycle_ev ?_
    | with_reducible refine closeGate_ev ?_
    | with_reducible refine writeLock_ev ?_
    | with_reducible refine Keeps.mkFst ?_

theorem ownerList_ev {s0 s : State} {ok b} (h : Evolves s0 s) :
    Keeps inFst s0 (ownerList s ok b) := by
  unfold ownerList
  repeat' first
    | with_reducible assumption
    | fail_if_no_progress extract_lets -underBinder +onlyGivenNames _x
    | with_reducible refine Keeps.ite ?_ ?_
    | with_reducible refine storePut_ev ?_
    | with_reducible refine Keeps.mkFst ?_
    | fail_if_no_progress with_reducible refine Evolves.upd ?_

theorem zeroise_ev {s0 s : State} {ok b len} (h : Evolves s0 s) :
    Keeps inFst s0 (zeroise s ok b len) := by
  unfold zeroise
  repeat' first
    | with_reducible assumption
    | with_reducible refine Keeps.ite ?_ ?_
    | with_reducible refine zeroiseNow_ev ?_
    | with_reducible refine Keeps.fst (useNonce_ev ?_)
    | with_reducible refine Keeps.mkFst ?_

theorem lcRun_ev {s0 s : State} {cmd ok data len} (h : Evolves s0 s) :
    Keeps inFst s0 (lcRun s cmd ok data len) := by
  unfold lcRun
  repeat' first
    | with_reducible assumption
    | fail_if_no_progress extract_lets -underBinder +onlyGivenNames _x
    | with_reducible refine Keeps.fst (lcChallenge_ev ?_)
    | with_reducible refine Keeps.fst (ship_ev ?_)
    | with_reducible refine Keeps.fst (commission_ev ?_)
    | with_reducible refine Keeps.fst (ownerList_ev ?_)
    | with_reducible refine Keeps.fst (zeroise_ev ?_)
    | with_reducible refine Keeps.mkFst ?_
    | split

theorem putLc_ev {s0 s : State} {a x} (h : Evolves s0 s) :
    Evolves s0 (putLc s a x) := by
  unfold putLc
  repeat' first
    | with_reducible assumption
    | fail_if_no_progress extract_lets -underBinder +onlyGivenNames _x
    | fail_if_no_progress with_reducible refine Evolves.upd ?_

theorem lcDone_ev {s0 s : State} {a ok data} (h : Evolves s0 s) :
    Evolves s0 (lcDone s a ok data) := by
  unfold lcDone
  repeat' first
    | with_reducible assumption
    | fail_if_no_progress extract_lets -underBinder +onlyGivenNames _x
    | with_reducible refine Keeps.fst (lcRun_ev ?_)
    | with_reducible refine setEvent_ev ?_
    | with_reducible refine putLc_ev ?_

theorem lcGo_ev {s0 s : State} {acc cmd} (h : Evolves s0 s) :
    Evolves s0 (lcGo s acc cmd) := by
  unfold lcGo
  repeat' first
    | with_reducible assumption
    | (fail_if_no_progress extract_lets -underBinder +onlyGivenNames x)
      refine (fun (hx : Evolves s0 x) => ?_ : Evolves s0 x → _) ?_
      (on_goal 1 => clear_value x)
      (on_goal 2 => simp -zeta only [x])
    | fail_if_no_progress extract_lets -underBinder +onlyGivenNames _x
    | with_reducible refine Evolves.ite ?_ ?_
    | with_reducible refine putLc_ev ?_
    | with_reducible refine lcDone_ev ?_

theorem lcRow_ev {s0 s : State} {acc cmd ok data} (h : Evolves s0 s) :
    Evolves s0 (lcRow s acc cmd ok data) := by
  unfold lcRow
  repeat' first
    | with_reducible assumption
    | (fail_if_no_progress extract_lets -underBinder +onlyGivenNames x)
      refine (fun (hx : Evolves s0 x) => ?_ : Evolves s0 x → _) ?_
      (on_goal 1 => clear_value x)
      (on_goal 2 => simp -zeta only [x])
    | fail_if_no_progress extract_lets -underBinder +onlyGivenNames _x
    | with_reducible refine Evolves.ite ?_ ?_
    | with_reducible refine lcDone_ev ?_
    | with_reducible refine lcGo_ev ?_

theorem execChallenge_ev {s0 s : State} {acc} (h : Evolves s0 s) :
    Keeps inOut s0 (execChallenge acc s) := by
  unfold execChallenge
  exact Keeps.next (lcRow_ev h)

theorem lineOff_ev {s0 s : State} {m} (h : Evolves s0 s) :
    Evolves s0 (lineOff s m) := by
  unfold lineOff
  exact Evolves.ite h (lineDown_ev h)

theorem setPower_ev {s0 s : State} {p} (h : Evolves s0 s) :
    Evolves s0 (setPower s p) := by
  unfold setPower
  repeat' first
    | with_reducible assumption
    | fail_if_no_progress extract_lets -underBinder +onlyGivenNames _x
    | with_reducible refine setEvent_ev ?_
    | fail_if_no_progress with_reducible refine Evolves.upd ?_

theorem standbyNow_ev {s0 s : State} (h : Evolves s0 s) :
    Evolves s0 (standbyNow s) := by
  unfold standbyNow
  repeat' first
    | with_reducible assumption
    | (fail_if_no_progress extract_lets -underBinder +onlyGivenNames x)
      refine (fun (hx : Evolves s0 x) => ?_ : Evolves s0 x → _) ?_
      (on_goal 1 => clear_value x)
      (on_goal 2 => simp -zeta only [x])
    | fail_if_no_progress extract_lets -underBinder +onlyGivenNames _x
    | with_reducible refine Evolves.ite ?_ ?_
    | with_reducible refine channelOff_ev ?_
    | with_reducible refine lineOff_ev ?_
    | with_reducible refine putPortN_ev ?_
    | with_reducible refine setPower_ev ?_
    | with_reducible refine Evolves.foldl ?_ ?_
    | fail_if_no_progress with_reducible refine Evolves.upd ?_
    | intro _

theorem execResetNLow_ev {s0 s : State} {tamper} (h : Evolves s0 s) :
    Keeps inOut s0 (execResetNLow tamper s) := by
  unfold execResetNLow
  exact Keeps.next (Evolves.ite h (deviceReset_ev h))

theorem execOwnerList_ev {s0 s : State} {acc ok data} (h : Evolves s0 s) :
    Keeps inOut s0 (execOwnerList acc ok data s) := by
  unfold execOwnerList
  exact Keeps.next (lcRow_ev h)

theorem enterIdle_ev {s0 s : State} (h : Evolves s0 s) :
    Evolves s0 (enterIdle s) := by
  unfold enterIdle
  exact Evolves.ite (setPower_ev h) h

theorem execIdleEntry_ev {s0 s : State} (h : Evolves s0 s) :
    Keeps inOut s0 (execIdleEntry s) := by
  unfold execIdleEntry
  exact Keeps.next (enterIdle_ev h)

theorem requestStandby_ev {s0 s : State} (h : Evolves s0 s) :
    Evolves s0 (requestStandby s) := by
  unfold requestStandby
  repeat' first
    | with_reducible assumption
    | (fail_if_no_progress extract_lets -underBinder +onlyGivenNames x)
      refine (fun (hx : Evolves s0 x) => ?_ : Evolves s0 x → _) ?_
      (on_goal 1 => clear_value x)
      (on_goal 2 => simp -zeta only [x])
    | fail_if_no_progress extract_lets -underBinder +onlyGivenNames _x
    | with_reducible refine Evolves.ite ?_ ?_
    | with_reducible refine standbyNow_ev ?_
    | fail_if_no_progress with_reducible refine Evolves.upd ?_

theorem stageFirmware_ev {s0 s : State} {ok data} (h : Evolves s0 s) :
    Evolves s0 (stageFirmware s ok data) := by
  unfold stageFirmware
  repeat' first
    | with_reducible assumption
    | fail_if_no_progress extract_lets -underBinder +onlyGivenNames _x
    | with_reducible refine setEvent_ev ?_
    | fail_if_no_progress with_reducible refine Evolves.upd ?_

theorem fwGo_ev {s0 s : State} (h : Evolves s0 s) :
    Evolves s0 (fwGo s) := by
  unfold fwGo
  repeat' first
    | with_reducible assumption
    | fail_if_no_progress extract_lets -underBinder +onlyGivenNames _x
    | with_reducible refine Evolves.ite ?_ ?_
    | fail_if_no_progress with_reducible refine Evolves.upd ?_

theorem execFwStage_ev {s0 s : State} {acc ok data} (h : Evolves s0 s) :
    Keeps inOut s0 (execFwStage acc ok data s) := by
  unfold execFwStage
  exact Keeps.next (Evolves.ite (stageFirmware_ev (fwGo_ev h)) h)

theorem execWake_ev {s0 s : State} {acc} (h : Evolves s0 s) :
    Keeps inOut s0 (execWake acc s) := by
  unfold execWake
  exact Keeps.next (Evolves.ite (leaveStandby_ev h) h)

theorem execVinValid_ev {s0 s : State} {straps} (h : Evolves s0 s) :
    Keeps inOut s0 (execVinValid straps s) := by
  unfold execVinValid
  exact Keeps.next (Evolves.ite (deviceStart_ev h) h)

theorem execShip_ev {s0 s : State} {acc ok data} (h : Evolves s0 s) :
    Keeps inOut s0 (execShip acc ok data s) := by
  unfold execShip
  exact Keeps.next (lcRow_ev h)

theorem execCommission_ev {s0 s : State} {acc ok data} (h : Evolves s0 s) :
    Keeps inOut s0 (execCommission acc ok data s) := by
  unfold execCommission
  exact Keeps.next (lcRow_ev h)

theorem execStandby_ev {s0 s : State} {acc} (h : Evolves s0 s) :
    Keeps inOut s0 (execStandby acc s) := by
  unfold execStandby
  exact Keeps.next (Evolves.ite (requestStandby_ev h) h)

theorem execZeroise_ev {s0 s : State} {acc ok data} (h : Evolves s0 s) :
    Keeps inOut s0 (execZeroise acc ok data s) := by
  unfold execZeroise
  exact Keeps.next (lcRow_ev h)

theorem putCore_ev {s0 s : State} {p c} (h : Evolves s0 s) :
    Evolves s0 (putCore s p c) := by
  unfold putCore
  repeat' first
    | with_reducible assumption
    | intro h
      first | exact h | exact tset_wf h _ _ | exact tdel_wf h _ | exact filter_wf h _ | exact tmap_wf h _
            | exact rising_tput h _ (by simp) | exact rising_foldl_tput h _ _ _ | exact rising_tdel h _
            | exact rising_map h _ fun e => by split <;> rfl
    | (fail_if_success (with_reducible refine Evolves.upd ?_))
      with_reducible refine Evolves.updTabs ?_ ?_ ?_ ?_ ?_ ?_ ?_ ?_ ?_ ?_ ?_ ?_ ?_ ?_

theorem snapKeep_ev {s0 s : State} {a p off v} (h : Evolves s0 s) :
    Evolves s0 (snapKeep s a p off v) := by
  unfold snapKeep
  repeat' first
    | (fail_if_success (with_reducible refine Evolves.upd ?_)); with_reducible refine Evolves.gated ?_ ?_
    | exact fun h => ⟨h.nonce, h.inst, h.range⟩
    | with_reducible assumption
    | fail_if_no_progress extract_lets -underBinder +onlyGivenNames _x
    | with_reducible refine Evolves.ite ?_ ?_
    | with_reducible refine putLane_ev ?_
    | with_reducible refine putCore_ev ?_
    | with_reducible refine putChan_ev ?_
    | with_reducible refine modBridle_ev ?_
    | with_reducible refine modLine_ev ?_
    | fail_if_no_progress with_reducible refine Evolves.upd ?_
    | split

theorem readFrom_ev {s0 s : State} {acc p off} (h : Evolves s0 s) :
    Keeps inSnd s0 (readFrom s acc p off) := by
  unfold readFrom
  repeat' first
    | with_reducible assumption
    | with_reducible refine Keeps.ite ?_ ?_
    | with_reducible refine snapKeep_ev ?_
    | with_reducible refine Keeps.snd (windowRead_ev ?_)
    | with_reducible refine Keeps.mkSnd ?_
    | split

theorem regRead_ev {s0 s : State} {acc p off} (h : Evolves s0 s) :
    Keeps inSnd s0 (regRead s acc p off) := by
  unfold regRead
  repeat' first
    | with_reducible assumption
    | fail_if_no_progress extract_lets -underBinder +onlyGivenNames _x
    | with_reducible refine Keeps.ite ?_ ?_
    | with_reducible refine Keeps.snd (readFrom_ev ?_)
    | with_reducible refine Keeps.mkSnd ?_

theorem lockedWrite_ev {s0 s : State} {p changes f} (h : Evolves s0 s) (hf0 : ∀ a, Evolves s0 a → Evolves s0 (f a)) :
    Evolves s0 (lockedWrite s p changes f) := by
  unfold lockedWrite
  repeat' first
    | with_reducible assumption
    | with_reducible refine Evolves.ite ?_ ?_
    | with_reducible refine refuseWrite_ev ?_
    | with_reducible refine hf0 _ ?_

theorem brlWrite_ev {s0 s : State} {a off v} (h : Evolves s0 s) :
    Evolves s0 (brlWrite s a off v) := by
  unfold brlWrite
  repeat' first
    | with_reducible assumption
    | fail_if_no_progress extract_lets -underBinder +onlyGivenNames _x
    | with_reducible refine modBridle_ev ?_
    | with_reducible refine formCmd_ev ?_
    | with_reducible refine lockedWrite_ev ?_ ?_
    | intro _
    | split

theorem sailWrite_ev {s0 s : State} {p off v} (h : Evolves s0 s) :
    Evolves s0 (sailWrite s p off v) := by
  unfold sailWrite
  repeat' first
    | with_reducible assumption
    | fail_if_no_progress extract_lets -underBinder +onlyGivenNames _x
    | with_reducible refine Evolves.ite ?_ ?_
    | with_reducible refine writeSailCmd_ev ?_
    | with_reducible refine putSail_ev ?_
    | with_reducible refine windowWrite_ev ?_
    | with_reducible refine abortEngine_ev ?_
    | split

theorem flashRegWrite_ev {s0 s : State} {acc off v} (h : Evolves s0 s) :
    Evolves s0 (flashRegWrite s acc off v) := by
  unfold flashRegWrite
  repeat' first
    | with_reducible assumption
    | fail_if_no_progress extract_lets -underBinder +onlyGivenNames _x
    | with_reducible refine Evolves.ite ?_ ?_
    | with_reducible refine winAdvance_ev ?_
    | with_reducible refine writeCycle_ev ?_
    | fail_if_no_progress with_reducible refine Evolves.upd ?_
    | split

theorem tagWrite_ev {s0 s : State} {a off v} (h : Evolves s0 s) :
    Evolves s0 (tagWrite s a off v) := by
  unfold tagWrite
  repeat' first
    | with_reducible assumption
    | fail_if_no_progress extract_lets -underBinder +onlyGivenNames _x
    | with_reducible refine Evolves.ite ?_ ?_
    | with_reducible refine putTag_ev ?_
    | with_reducible refine deviceAppend_ev ?_
    | with_reducible refine writeTagKey_ev ?_
    | with_reducible refine clearJournal_ev ?_
    | split

theorem rootWrite_ev {s0 s : State} {acc off v} (h : Evolves s0 s) :
    Evolves s0 (rootWrite s acc off v) := by
  unfold rootWrite
  repeat' first
    | with_reducible assumption
    | (fail_if_no_progress extract_lets -underBinder +onlyGivenNames x)
      refine (fun (hx : Evolves s0 x) => ?_ : Evolves s0 x → _) ?_
      (on_goal 1 => clear_value x)
      (on_goal 2 => simp -zeta only [x])
    | fail_if_no_progress extract_lets -underBinder +onlyGivenNames _x
    | with_reducible refine Evolves.ite ?_ ?_
    | with_reducible refine requestStandby_ev ?_
    | with_reducible refine leaveStandby_ev ?_
    | with_reducible refine fwGo_ev ?_
    | with_reducible refine lockedWrite_ev ?_ ?_
    | fail_if_no_progress with_reducible refine Evolves.upd ?_
    | intro _
    | split

theorem writeCtrl_ev {s0 s : State} {p v} (h : Evolves s0 s) :
    Evolves s0 (writeCtrl s p v) := by
  unfold writeCtrl
  repeat' first
    | with_reducible assumption
    | (fail_if_no_progress extract_lets -underBinder +onlyGivenNames x)
      refine (fun (hx : Evolves s0 x) => ?_ : Evolves s0 x → _) ?_
      (on_goal 1 => clear_value x)
      (on_goal 2 => simp -zeta only [x])
    | with_reducible refine Evolves.ite ?_ ?_
    | with_reducible refine writeLevel_ev ?_
    | with_reducible refine writeQuiesce1_ev ?_
    | with_reducible refine writeQuiesce0_ev ?_
    | with_reducible refine writeEnable1_ev ?_
    | with_reducible refine writeEnable0_ev ?_
    | with_reducible refine keepEnable_ev ?_
    | with_reducible refine linesAfter_ev ?_
    | with_reducible refine rebindAll_ev ?_
    | with_reducible refine noteCtrl_ev ?_

theorem headerPut_ev {s0 s : State} {acc p off v} (h : Evolves s0 s) :
    Evolves s0 (headerPut s acc p off v) := by
  unfold headerPut
  repeat' first
    | with_reducible assumption
    | with_reducible refine Evolves.ite ?_ ?_
    | with_reducible refine writeCtrl_ev ?_
    | with_reducible refine writeFaultClear_ev ?_
    | with_reducible refine linesAfter_ev ?_
    | with_reducible refine rebindAll_ev ?_
    | with_reducible refine requestRetire_ev ?_
    | with_reducible refine writeEvent_ev ?_
    | with_reducible refine writeEventEn_ev ?_
    | with_reducible refine writeLock_ev ?_
    | split

theorem ringWriteReg_ev {s0 s : State} {i r off v} (h : Evolves s0 s) :
    Evolves s0 (ringWriteReg s i r off v) := by
  unfold ringWriteReg
  repeat' first
    | with_reducible assumption
    | fail_if_no_progress extract_lets -underBinder +onlyGivenNames _x
    | with_reducible refine Evolves.ite ?_ ?_
    | with_reducible refine wakeRing_ev ?_
    | with_reducible refine wakeIdle_ev ?_
    | with_reducible refine enableRingPage_ev ?_
    | with_reducible refine disableRingPage_ev ?_
    | with_reducible refine putRing_ev ?_
    | with_reducible refine writeRingConfig_ev ?_
    | split

theorem lcWrite_ev {s0 s : State} {acc off v} (h : Evolves s0 s) :
    Evolves s0 (lcWrite s acc off v) := by
  unfold lcWrite
  repeat' first
    | with_reducible assumption
    | fail_if_no_progress extract_lets -underBinder +onlyGivenNames _x
    | with_reducible refine Evolves.ite ?_ ?_
    | with_reducible refine putLc_ev ?_
    | with_reducible refine lcGo_ev ?_
    | split

theorem tamperWrite_ev {s0 s : State} {a off v} (h : Evolves s0 s) :
    Evolves s0 (tamperWrite s a off v) := by
  unfold tamperWrite
  repeat' first
    | with_reducible assumption
    | fail_if_no_progress extract_lets -underBinder +onlyGivenNames _x
    | with_reducible refine Evolves.ite ?_ ?_
    | with_reducible refine writeFired_ev ?_
    | with_reducible refine burnFuse_ev ?_
    | with_reducible refine writeTest_ev ?_
    | with_reducible refine writeSrcCfg_ev ?_
    | fail_if_no_progress with_reducible refine Evolves.upd ?_
    | split

theorem writeEvtField_ev {s0 s : State} {acc f} (h : Evolves s0 s) :
    Evolves s0 (writeEvtField s acc f) := by
  unfold writeEvtField
  repeat' first
    | with_reducible assumption
    | fail_if_no_progress extract_lets -underBinder +onlyGivenNames _x
    | with_reducible refine Evolves.ite ?_ ?_
    | with_reducible refine putEvt_ev ?_

theorem viewWrite_ev {s0 s : State} {a k off v} (h : Evolves s0 s) :
    Evolves s0 (viewWrite s a k off v) := by
  unfold viewWrite
  repeat' first
    | with_reducible assumption
    | fail_if_no_progress extract_lets -underBinder +onlyGivenNames _x
    | with_reducible refine Evolves.ite ?_ ?_
    | with_reducible refine writeEvent_ev ?_
    | with_reducible refine writeEventEn_ev ?_
    | with_reducible refine writeLock_ev ?_
    | with_reducible refine modBridle_ev ?_
    | split

theorem execSnapshotRead_ev {s0 s : State} {acc page offset} (h : Evolves s0 s) :
    Keeps inOut s0 (execSnapshotRead acc page offset s) := by
  unfold execSnapshotRead
  repeat' first
    | with_reducible assumption
    | with_reducible refine Keeps.ite ?_ ?_
    | with_reducible refine stay_ev ?_
    | with_reducible refine flashRead_ev ?_
    | with_reducible refine regRead_ev ?_
    | with_reducible refine emit_ev ?_
    | with_reducible refine Keeps.ofSnd (by assumption) ?_
    | with_reducible refine Keeps.next ?_
    | split

theorem tetherWrite_ev {s0 s : State} {acc off v} (h : Evolves s0 s) :
    Evolves s0 (tetherWrite s acc off v) := by
  unfold tetherWrite
  repeat' first
    | with_reducible assumption
    | intro h
      first | exact h | exact tset_wf h _ _ | exact tdel_wf h _ | exact filter_wf h _ | exact tmap_wf h _
            | exact rising_tput h _ (by simp) | exact rising_foldl_tput h _ _ _ | exact rising_tdel h _
            | exact rising_map h _ fun e => by split <;> rfl
    | fail_if_no_progress extract_lets -underBinder +onlyGivenNames _x
    | with_reducible refine Evolves.ite ?_ ?_
    | with_reducible refine lockedWrite_ev ?_ ?_
    | with_reducible refine writeNextSec_ev ?_
    | with_reducible refine pulse_ev ?_
    | with_reducible refine writeEvtField_ev ?_
    | with_reducible refine writeEvtCtrl_ev ?_
    | fail_if_no_progress with_reducible refine Evolves.upd ?_
    | (fail_if_success (with_reducible refine Evolves.upd ?_))
      with_reducible refine Evolves.updTabs ?_ ?_ ?_ ?_ ?_ ?_ ?_ ?_ ?_ ?_ ?_ ?_ ?_ ?_
    | intro _
    | split

theorem ccbWrite_ev {s0 s : State} {acc off v} (h : Evolves s0 s) :
    Evolves s0 (ccbWrite s acc off v) := by
  unfold ccbWrite
  repeat' first
    | with_reducible assumption
    | fail_if_no_progress extract_lets -underBinder +onlyGivenNames _x
    | with_reducible refine Evolves.ite ?_ ?_
    | with_reducible refine putCardAcc_ev ?_
    | with_reducible refine writeCardCmd_ev ?_
    | with_reducible refine cardAbort_ev ?_
    | split

theorem hostPortWrite_ev {s0 s : State} {n off v} (h : Evolves s0 s) :
    Evolves s0 (hostPortWrite s n off v) := by
  unfold hostPortWrite
  repeat' first
    | with_reducible assumption
    | fail_if_no_progress extract_lets -underBinder +onlyGivenNames _x
    | with_reducible refine lockedWrite_ev ?_ ?_
    | with_reducible refine putPortN_ev ?_
    | intro _
    | split

theorem audWrite_ev {s0 s : State} {acc off v} (h : Evolves s0 s) :
    Evolves s0 (audWrite s acc off v) := by
  unfold audWrite
  repeat' first
    | with_reducible assumption
    | fail_if_no_progress extract_lets -underBinder +onlyGivenNames _x
    | with_reducible refine writeAudCfg_ev ?_
    | with_reducible refine writeRingRd_ev ?_
    | with_reducible refine writeAudConfig_ev ?_
    | fail_if_no_progress with_reducible refine Evolves.upd ?_
    | split

theorem mooringWrite_ev {s0 s : State} {a off v} (h : Evolves s0 s) :
    Evolves s0 (mooringWrite s a off v) := by
  unfold mooringWrite
  repeat' first
    | with_reducible assumption
    | fail_if_no_progress extract_lets -underBinder +onlyGivenNames _x
    | with_reducible refine clearMooringLog_ev ?_
    | fail_if_no_progress with_reducible refine Evolves.upd ?_
    | split

theorem otpWrite_ev {s0 s : State} {a off v} (h : Evolves s0 s) :
    Evolves s0 (otpWrite s a off v) := by
  unfold otpWrite
  repeat' first
    | with_reducible assumption
    | fail_if_no_progress extract_lets -underBinder +onlyGivenNames _x
    | fail_if_no_progress with_reducible refine Evolves.upd ?_
    | split

theorem msixWrite_ev {s0 s : State} {func n off v} (h : Evolves s0 s) :
    Evolves s0 (msixWrite s func n off v) := by
  unfold msixWrite
  repeat' first
    | with_reducible assumption
    | intro h
      first | exact h | exact tset_wf h _ _ | exact tdel_wf h _ | exact filter_wf h _ | exact tmap_wf h _
            | exact rising_tput h _ (by simp) | exact rising_foldl_tput h _ _ _ | exact rising_tdel h _
            | exact rising_map h _ fun e => by split <;> rfl
    | fail_if_no_progress extract_lets -underBinder +onlyGivenNames _x
    | with_reducible refine Evolves.ite ?_ ?_
    | with_reducible refine unmask_ev ?_
    | (fail_if_success (with_reducible refine Evolves.upd ?_))
      with_reducible refine Evolves.updTabs ?_ ?_ ?_ ?_ ?_ ?_ ?_ ?_ ?_ ?_ ?_ ?_ ?_ ?_
    | split

theorem intakeWrite_ev {s0 s : State} {a p off v} (h : Evolves s0 s) :
    Evolves s0 (intakeWrite s a p off v) := by
  unfold intakeWrite
  repeat' first
    | with_reducible assumption
    | intro h
      first | exact h | exact tset_wf h _ _ | exact tdel_wf h _ | exact filter_wf h _ | exact tmap_wf h _
            | exact rising_tput h _ (by simp) | exact rising_foldl_tput h _ _ _ | exact rising_tdel h _
            | exact rising_map h _ fun e => by split <;> rfl
    | (fail_if_success (with_reducible refine Evolves.upd ?_))
      with_reducible refine Evolves.updTabs ?_ ?_ ?_ ?_ ?_ ?_ ?_ ?_ ?_ ?_ ?_ ?_ ?_ ?_
    | split

theorem writeDpEvent_ev {s0 s : State} {i f} (h : Evolves s0 s) :
    Evolves s0 (writeDpEvent s i f) := by
  unfold writeDpEvent
  repeat' first
    | with_reducible assumption
    | (fail_if_no_progress extract_lets -underBinder +onlyGivenNames x)
      refine (fun (hx : Evolves s0 x) => ?_ : Evolves s0 x → _) ?_
      (on_goal 1 => clear_value x)
      (on_goal 2 => simp -zeta only [x])
    | fail_if_no_progress extract_lets -underBinder +onlyGivenNames _x
    | with_reducible refine Evolves.ite ?_ ?_
    | with_reducible refine putInst_ev ?_
    | with_reducible refine sendMsix_ev ?_

theorem bar2Write_ev {s0 s : State} {i g off v} (h : Evolves s0 s) :
    Evolves s0 (bar2Write s i g off v) := by
  unfold bar2Write
  repeat' first
    | with_reducible assumption
    | with_reducible refine Evolves.ite ?_ ?_
    | with_reducible refine writeDpEvent_ev ?_
    | with_reducible refine msixWrite_ev ?_
    | with_reducible refine ringWriteReg_ev ?_
    | split

theorem bulkWrite_ev {s0 s : State} {c off v} (h : Evolves s0 s) :
    Evolves s0 (bulkWrite s c off v) := by
  unfold bulkWrite
  repeat' first
    | with_reducible assumption
    | fail_if_no_progress extract_lets -underBinder +onlyGivenNames _x
    | with_reducible refine writeBulkCmd_ev ?_
    | with_reducible refine writeFeed_ev ?_
    | with_reducible refine putLane_ev ?_
    | split

theorem drbgWrite_ev {s0 s : State} {c off v} (h : Evolves s0 s) :
    Evolves s0 (drbgWrite s c off v) := by
  unfold drbgWrite
  repeat' first
    | with_reducible assumption
    | with_reducible refine Evolves.ite ?_ ?_
    | with_reducible refine demandReseed_ev ?_
    | split

theorem kcWrite_ev {s0 s : State} {off v} (h : Evolves s0 s) :
    Evolves s0 (kcWrite s off v) := by
  unfold kcWrite
  repeat' first
    | with_reducible assumption
    | fail_if_no_progress extract_lets -underBinder +onlyGivenNames _x
    | with_reducible refine writeFlush_ev ?_
    | fail_if_no_progress with_reducible refine Evolves.upd ?_
    | split

theorem lineWrite_ev {s0 s : State} {m off v} (h : Evolves s0 s) :
    Evolves s0 (lineWrite s m off v) := by
  unfold lineWrite
  repeat' first
    | with_reducible assumption
    | fail_if_no_progress extract_lets -underBinder +onlyGivenNames _x
    | with_reducible refine lockedWrite_ev ?_ ?_
    | with_reducible refine keepLines_ev ?_
    | with_reducible refine modLine_ev ?_
    | intro _
    | split

theorem imWrite_ev {s0 s : State} {acc off v} (h : Evolves s0 s) :
    Evolves s0 (imWrite s acc off v) := by
  unfold imWrite
  repeat' first
    | with_reducible assumption
    | fail_if_no_progress extract_lets -underBinder +onlyGivenNames _x
    | with_reducible refine Evolves.ite ?_ ?_
    | with_reducible refine imGo_ev ?_
    | with_reducible refine putWin_ev ?_
    | fail_if_no_progress with_reducible refine Evolves.upd ?_
    | split

theorem bodyWrite_ev {s0 s : State} {acc p off v} (h : Evolves s0 s) :
    Evolves s0 (bodyWrite s acc p off v) := by
  unfold bodyWrite
  repeat' first
    | with_reducible assumption
    | fail_if_no_progress extract_lets -underBinder +onlyGivenNames _x
    | with_reducible refine Evolves.ite ?_ ?_
    | with_reducible refine rootWrite_ev ?_
    | with_reducible refine sailWrite_ev ?_
    | with_reducible refine bulkWrite_ev ?_
    | with_reducible refine audWrite_ev ?_
    | with_reducible refine drbgWrite_ev ?_
    | with_reducible refine kcWrite_ev ?_
    | with_reducible refine tetherWrite_ev ?_
    | with_reducible refine tamperWrite_ev ?_
    | with_reducible refine flashRegWrite_ev ?_
    | with_reducible refine ccbWrite_ev ?_
    | with_reducible refine tagWrite_ev ?_
    | with_reducible refine brlWrite_ev ?_
    | with_reducible refine lineWrite_ev ?_
    | with_reducible refine hostPortWrite_ev ?_
    | with_reducible refine intakeWrite_ev ?_
    | with_reducible refine mooringWrite_ev ?_
    | with_reducible refine otpWrite_ev ?_
    | with_reducible refine lcWrite_ev ?_
    | with_reducible refine imWrite_ev ?_
    | split

theorem pageWrite_ev {s0 s : State} {acc p off v} (h : Evolves s0 s) :
    Evolves s0 (pageWrite s acc p off v) := by
  unfold pageWrite
  exact Evolves.ite (Evolves.ite (viewWrite_ev h) h) (Evolves.ite h (Evolves.ite (headerPut_ev h) (Evolves.ite h
    (bodyWrite_ev h))))

theorem regWrite_ev {s0 s : State} {acc p off v} (h : Evolves s0 s) :
    Evolves s0 (regWrite s acc p off v) := by
  unfold regWrite
  repeat' first
    | with_reducible assumption
    | fail_if_no_progress extract_lets -underBinder +onlyGivenNames _x
    | with_reducible refine Evolves.ite ?_ ?_
    | with_reducible refine bar2Write_ev ?_
    | with_reducible refine msixWrite_ev ?_
    | with_reducible refine pageWrite_ev ?_

theorem execRegisterWrite_ev {s0 s : State} {acc page offset value} (h : Evolves s0 s) :
    Keeps inOut s0 (execRegisterWrite acc page offset value s) := by
  unfold execRegisterWrite
  exact Keeps.next (regWrite_ev h)

end Sys2Proof.Machine
end

