-- ==== Sys2Proof/Laws/EvolvesCarit.lean ====
section
/-! SUPPORT. `Evolves`: one lemma for each operation of the Carit cores, the debug gate, the management port and the step. Each
says that what `Evolves` keeps up to the state the operation begins with, it keeps up to the state the operation leaves. -/

namespace Sys2Proof.Machine

theorem memPut_ev {s0 s : State} {q off bs} (h : Evolves s0 s) :
    Evolves s0 (memPut s q off bs) := by
  unfold memPut
  repeat' first
    | with_reducible assumption
    | fail_if_no_progress extract_lets -underBinder +onlyGivenNames _x
    | with_reducible refine putCore_ev ?_

theorem writeBack_ev {s0 s : State} {p e} (h : Evolves s0 s) :
    Evolves s0 (writeBack s p e) := by
  unfold writeBack
  exact Evolves.ite (memPut_ev h) h

theorem cacheClean_ev {s0 s : State} {p v} (h : Evolves s0 s) :
    Evolves s0 (cacheClean s p v) := by
  unfold cacheClean
  repeat' first
    | with_reducible assumption
    | (fail_if_no_progress extract_lets -underBinder +onlyGivenNames x)
      refine (fun (hx : Evolves s0 x) => ?_ : Evolves s0 x → _) ?_
      (on_goal 1 => clear_value x)
      (on_goal 2 => simp -zeta only [x])
    | fail_if_no_progress extract_lets -underBinder +onlyGivenNames _x
    | with_reducible refine writeBack_ev ?_
    | with_reducible refine putCore_ev ?_
    | with_reducible refine Evolves.foldl ?_ ?_
    | intro _

theorem cacheSet_ev {s0 s : State} {p ln f} (h : Evolves s0 s) :
    Evolves s0 (cacheSet s p ln f) := by
  unfold cacheSet
  repeat' first
    | with_reducible assumption
    | fail_if_no_progress extract_lets -underBinder +onlyGivenNames _x
    | with_reducible refine putCore_ev ?_

theorem cacheFill_ev {s0 s : State} {p ln} (h : Evolves s0 s) :
    Evolves s0 (cacheFill s p ln) := by
  unfold cacheFill
  repeat' first
    | with_reducible assumption
    | (fail_if_no_progress extract_lets -underBinder +onlyGivenNames x)
      refine (fun (hx : Evolves s0 x) => ?_ : Evolves s0 x → _) ?_
      (on_goal 1 => clear_value x)
      (on_goal 2 => simp -zeta only [x])
    | fail_if_no_progress extract_lets -underBinder +onlyGivenNames _x
    | with_reducible refine Evolves.ite ?_ ?_
    | with_reducible refine writeBack_ev ?_
    | with_reducible refine putCore_ev ?_
    | split

theorem winWrite1_ev {s0 s : State} {p a q off b} (h : Evolves s0 s) :
    Evolves s0 (winWrite1 s p a q off b) := by
  unfold winWrite1
  repeat' first
    | with_reducible assumption
    | (fail_if_no_progress extract_lets -underBinder +onlyGivenNames x)
      refine (fun (hx : Evolves s0 x) => ?_ : Evolves s0 x → _) ?_
      (on_goal 1 => clear_value x)
      (on_goal 2 => simp -zeta only [x])
    | fail_if_no_progress extract_lets -underBinder +onlyGivenNames _x
    | with_reducible refine Evolves.ite ?_ ?_
    | with_reducible refine memPut_ev ?_
    | with_reducible refine cacheSet_ev ?_
    | with_reducible refine cacheFill_ev ?_
    | split

theorem storeFrom_ev {s0 x4 : State} {x0 x1 x2 x3} (hs0 : Evolves s0 x4) :
    Evolves s0 (storeFrom x0 x1 x2 x3 x4) := by
  induction x3 generalizing x2 x4 with
  | nil => exact hs0
  | cons n ns ih =>
    unfold storeFrom
    repeat' first
      | with_reducible refine ih ?_
      | with_reducible assumption
      | with_reducible refine Evolves.ite ?_ ?_
      | with_reducible refine memPut_ev ?_
      | with_reducible refine winWrite1_ev ?_
      | with_reducible refine regWrite_ev ?_
      | split

theorem memPutTagged_ev {s0 s : State} {q off bs tag} (h : Evolves s0 s) :
    Evolves s0 (memPutTagged s q off bs tag) := by
  unfold memPutTagged
  repeat' first
    | with_reducible assumption
    | (fail_if_no_progress extract_lets -underBinder +onlyGivenNames x)
      refine (fun (hx : Evolves s0 x) => ?_ : Evolves s0 x → _) ?_
      (on_goal 1 => clear_value x)
      (on_goal 2 => simp -zeta only [x])
    | fail_if_no_progress extract_lets -underBinder +onlyGivenNames _x
    | with_reducible refine memPut_ev ?_
    | with_reducible refine putCore_ev ?_

theorem putGranule_ev {s0 s : State} {p addr bs tag} (h : Evolves s0 s) :
    Evolves s0 (putGranule s p addr bs tag) := by
  unfold putGranule
  repeat' first
    | with_reducible assumption
    | with_reducible refine memPutTagged_ev ?_
    | with_reducible refine cacheSet_ev ?_
    | split

theorem storeRaw_ev {s0 s : State} {p ring addr bs} (h : Evolves s0 s) :
    Evolves s0 (storeRaw s p ring addr bs) := by
  unfold storeRaw
  exact Evolves.ite (memPut_ev h) (storeFrom_ev h)

theorem store_ev {s0 s : State} {p plain addr bs} (h : Evolves s0 s) :
    Keeps inExc s0 (store s p plain addr bs) := by
  unfold store
  repeat' first
    | with_reducible assumption
    | fail_if_no_progress extract_lets -underBinder +onlyGivenNames _x
    | with_reducible refine storeRaw_ev ?_
    | with_reducible refine Keeps.ok ?_
    | with_reducible refine Keeps.err
    | split

theorem objPut_ev {s0 s : State} {object off bs} (h : Evolves s0 s) :
    Evolves s0 (objPut s object off bs) := by
  unfold objPut
  exact Evolves.ite (modJob_ev h) h

theorem capStore_ev {s0 s : State} {p k off bs} (h : Evolves s0 s) :
    Keeps inExc s0 (capStore s p k off bs) := by
  unfold capStore
  repeat' first
    | with_reducible assumption
    | fail_if_no_progress extract_lets -underBinder +onlyGivenNames _x
    | with_reducible refine objPut_ev ?_
    | with_reducible refine Keeps.ok ?_
    | with_reducible refine Keeps.err
    | split

theorem objBytes_ev {s0 s : State} {object off n} (h : Evolves s0 s) :
    Keeps inSnd s0 (objBytes s object off n) := by
  unfold objBytes
  repeat' first
    | with_reducible assumption
    | fail_if_no_progress extract_lets -underBinder +onlyGivenNames _x
    | with_reducible refine Keeps.ite ?_ ?_
    | with_reducible refine freeBytes_ev ?_
    | with_reducible refine Keeps.ofSnd (by assumption) ?_
    | with_reducible refine Keeps.mkSnd ?_
    | split

theorem winRead1_ev {s0 s : State} {p a q off} (h : Evolves s0 s) :
    Keeps inSnd s0 (winRead1 s p a q off) := by
  unfold winRead1
  repeat' first
    | with_reducible assumption
    | (fail_if_no_progress extract_lets -underBinder +onlyGivenNames x)
      refine (fun (hx : Evolves s0 x) => ?_ : Evolves s0 x → _) ?_
      (on_goal 1 => clear_value x)
      (on_goal 2 => simp -zeta only [x])
    | with_reducible refine Evolves.ite ?_ ?_
    | with_reducible refine Keeps.ite ?_ ?_
    | with_reducible refine cacheFill_ev ?_
    | with_reducible refine Keeps.mkSnd ?_

theorem registerRead_ev {s0 s : State} {acc page off} (h : Evolves s0 s) :
    Keeps inSnd s0 (registerRead s acc page off) := by
  unfold registerRead
  repeat' first
    | with_reducible assumption
    | (fail_if_no_progress extract_lets -underBinder +onlyGivenNames x)
      refine (fun (hx : Evolves s0 x) => ?_ : Evolves s0 x → _) ?_
      (on_goal 1 => clear_value x)
      (on_goal 2 => simp -zeta only [x])
    | fail_if_no_progress extract_lets -underBinder +onlyGivenNames _x
    | with_reducible refine Keeps.ite ?_ ?_
    | with_reducible refine flashRead_ev ?_
    | with_reducible refine regRead_ev ?_
    | with_reducible refine Keeps.mkSnd ?_
    | fail_if_no_progress with_reducible refine Evolves.upd ?_

theorem loadUnit_ev {s0 s : State} {p ring a} (h : Evolves s0 s) :
    Keeps inSnd s0 (loadUnit s p ring a) := by
  unfold loadUnit
  repeat' first
    | with_reducible assumption
    | with_reducible refine winRead1_ev ?_
    | with_reducible refine registerRead_ev ?_
    | with_reducible refine Keeps.ofSnd (by assumption) ?_
    | with_reducible refine Keeps.mkSnd ?_
    | split

theorem loadFrom_ev {s0 x4 : State} {x0 x1 x2 x3} (hs0 : Evolves s0 x4) :
    Keeps inSnd s0 (loadFrom x0 x1 x2 x3 x4) := by
  induction x2 generalizing x3 x4 with
  | zero => exact Keeps.mkSnd hs0
  | succ n ih =>
    unfold loadFrom
    repeat' first
      | with_reducible refine ih ?_
      | with_reducible assumption
      | with_reducible refine loadUnit_ev ?_
      | with_reducible refine Keeps.ofSnd (by assumption) ?_
      | with_reducible refine Keeps.mkSnd ?_
      | split

theorem loadRaw_ev {s0 s : State} {p ring addr n} (h : Evolves s0 s) :
    Keeps inSnd s0 (loadRaw s p ring addr n) := by
  unfold loadRaw
  exact Keeps.ite (Keeps.mkSnd h) (loadFrom_ev h)

theorem capLoad_ev {s0 s : State} {p k perms off n} (h : Evolves s0 s) :
    Keeps inExcSnd s0 (capLoad s p k perms off n) := by
  unfold capLoad
  repeat' first
    | with_reducible assumption
    | fail_if_no_progress extract_lets -underBinder +onlyGivenNames _x
    | with_reducible refine Keeps.snd (objBytes_ev ?_)
    | with_reducible refine Keeps.okSnd ?_
    | with_reducible refine Keeps.errSnd
    | split

theorem load_ev {s0 s : State} {p plain addr n} (h : Evolves s0 s) :
    Keeps inExcSnd s0 (load s p plain addr n) := by
  unfold load
  repeat' first
    | with_reducible assumption
    | fail_if_no_progress extract_lets -underBinder +onlyGivenNames _x
    | with_reducible refine loadRaw_ev ?_
    | with_reducible refine Keeps.ofSnd (by assumption) ?_
    | with_reducible refine Keeps.okSnd ?_
    | with_reducible refine Keeps.errSnd
    | split

theorem objPutTagged_ev {s0 s : State} {object off bs tag} (h : Evolves s0 s) :
    Evolves s0 (objPutTagged s object off bs tag) := by
  unfold objPutTagged
  repeat' first
    | with_reducible assumption
    | (fail_if_no_progress extract_lets -underBinder +onlyGivenNames x)
      refine (fun (hx : Evolves s0 x) => ?_ : Evolves s0 x → _) ?_
      (on_goal 1 => clear_value x)
      (on_goal 2 => simp -zeta only [x])
    | with_reducible refine Evolves.ite ?_ ?_
    | with_reducible refine objPut_ev ?_
    | with_reducible refine modJob_ev ?_

theorem waitIns_ev {s0 s : State} {p on} (h : Evolves s0 s) :
    Evolves s0 (waitIns s p on) := by
  unfold waitIns
  repeat' first
    | with_reducible assumption
    | fail_if_no_progress extract_lets -underBinder +onlyGivenNames _x
    | with_reducible refine putCore_ev ?_

theorem fillPair_ev {s0 s : State} {p} (h : Evolves s0 s) :
    Evolves s0 (fillPair s p) := by
  unfold fillPair
  repeat' first
    | with_reducible assumption
    | fail_if_no_progress extract_lets -underBinder +onlyGivenNames _x
    | with_reducible refine Keeps.snd (loadRaw_ev ?_)
    | with_reducible refine putCore_ev ?_

theorem granulePut_ev {s0 s : State} {p a bs tag} (h : Evolves s0 s) :
    Evolves s0 (granulePut s p a bs tag) := by
  unfold granulePut
  repeat' first
    | with_reducible assumption
    | with_reducible refine Evolves.ite ?_ ?_
    | with_reducible refine putGranule_ev ?_
    | with_reducible refine storeRaw_ev ?_
    | split

theorem spillPair_ev {s0 s : State} {p lo hi} (h : Evolves s0 s) :
    Evolves s0 (spillPair s p lo hi) := by
  unfold spillPair
  repeat' first
    | with_reducible assumption
    | (fail_if_no_progress extract_lets -underBinder +onlyGivenNames x)
      refine (fun (hx : Evolves s0 x) => ?_ : Evolves s0 x → _) ?_
      (on_goal 1 => clear_value x)
      (on_goal 2 => simp -zeta only [x])
    | fail_if_no_progress extract_lets -underBinder +onlyGivenNames _x
    | with_reducible refine granulePut_ev ?_
    | with_reducible refine putCore_ev ?_

theorem spillList_ev {s0 x2 : State} {x0 x1} (hs0 : Evolves s0 x2) :
    Evolves s0 (spillList x0 x1 x2) := by
  fun_induction spillList x0 x1 x2 with
  | case1 s => exact hs0
  | case2 x s => exact spillPair_ev hs0
  | case3 x y r s ih => exact ih (spillPair_ev hs0)

theorem spillAll_ev {s0 s : State} {p} (h : Evolves s0 s) :
    Evolves s0 (spillAll s p) := by
  unfold spillAll
  repeat' first
    | with_reducible assumption
    | (fail_if_no_progress extract_lets -underBinder +onlyGivenNames x)
      refine (fun (hx : Evolves s0 x) => ?_ : Evolves s0 x → _) ?_
      (on_goal 1 => clear_value x)
      (on_goal 2 => simp -zeta only [x])
    | fail_if_no_progress extract_lets -underBinder +onlyGivenNames _x
    | with_reducible refine Evolves.ite ?_ ?_
    | with_reducible refine fillPair_ev ?_
    | with_reducible refine spillList_ev ?_
    | with_reducible refine putCore_ev ?_

theorem frameWrite_ev {s0 s : State} {p a c b} (h : Evolves s0 s) :
    Evolves s0 (frameWrite s p a c b) := by
  unfold frameWrite
  repeat' first
    | with_reducible assumption
    | with_reducible refine granulePut_ev ?_
    | with_reducible refine storeRaw_ev ?_
    | with_reducible refine Evolves.foldl ?_ ?_
    | intro _

theorem enterTry_ev {s0 s : State} {p vec detail faddr pc member a7 keep} (h : Evolves s0 s) :
    Keeps inOpt s0 (enterTry s p vec detail faddr pc member a7 keep) := by
  unfold enterTry
  repeat' first
    | with_reducible assumption
    | (fail_if_no_progress extract_lets -underBinder +onlyGivenNames x)
      refine (fun (hx : Evolves s0 x) => ?_ : Evolves s0 x → _) ?_
      (on_goal 1 => clear_value x)
      (on_goal 2 => simp -zeta only [x])
    | fail_if_no_progress extract_lets -underBinder +onlyGivenNames _x
    | with_reducible refine Keeps.ite ?_ ?_
    | with_reducible refine spillAll_ev ?_
    | with_reducible refine frameWrite_ev ?_
    | with_reducible refine putCore_ev ?_
    | with_reducible refine Keeps.mkSome ?_
    | with_reducible refine Keeps.mkNone
    | split

theorem double_ev {s0 s : State} {p vec pc member} (h : Evolves s0 s) :
    Evolves s0 (double s p vec pc member) := by
  unfold double
  repeat' first
    | with_reducible assumption
    | (fail_if_no_progress extract_lets -underBinder +onlyGivenNames x)
      refine (fun (hx : Evolves s0 x) => ?_ : Evolves s0 x → _) ?_
      (on_goal 1 => clear_value x)
      (on_goal 2 => simp -zeta only [x])
    | fail_if_no_progress extract_lets -underBinder +onlyGivenNames _x
    | with_reducible refine Evolves.ite ?_ ?_
    | with_reducible refine lockup_ev ?_
    | with_reducible refine spillAll_ev ?_
    | with_reducible refine frameWrite_ev ?_
    | with_reducible refine putCore_ev ?_

theorem enterVector_ev {s0 s : State} {p vec detail faddr pc member a7 keep} (h : Evolves s0 s) :
    Evolves s0 (enterVector s p vec detail faddr pc member a7 keep) := by
  unfold enterVector
  repeat' first
    | with_reducible assumption
    | with_reducible refine enterTry_ev ?_
    | with_reducible refine double_ev ?_
    | with_reducible refine Keeps.ofSome (by assumption) ?_
    | split

theorem fillTo_ev {s0 x3 : State} {x0 x1 x2} (hs0 : Evolves s0 x3) :
    Keeps inExcSnd s0 (fillTo x0 x1 x2 x3) := by
  induction x2 generalizing x3 with
  | zero => exact Keeps.okSnd hs0
  | succ n ih =>
    unfold fillTo
    repeat' first
      | with_reducible refine ih ?_
      | with_reducible refine Keeps.ofOkSnd (by assumption) ?_
      | with_reducible assumption
      | fail_if_no_progress extract_lets -underBinder +onlyGivenNames _x
      | with_reducible refine Keeps.ite ?_ ?_
      | with_reducible refine fillPair_ev ?_
      | with_reducible refine Keeps.okSnd ?_
      | with_reducible refine Keeps.errSnd
      | split

theorem ready_ev {s0 s : State} {p ps} (h : Evolves s0 s) :
    Keeps inExcLast s0 (ready s p ps) := by
  unfold ready
  repeat' first
    | with_reducible assumption
    | fail_if_no_progress extract_lets -underBinder +onlyGivenNames _x
    | with_reducible refine Keeps.ite ?_ ?_
    | with_reducible refine fillTo_ev ?_
    | with_reducible refine Keeps.ofOkSnd (by assumption) ?_
    | with_reducible refine Keeps.okLast ?_
    | with_reducible refine Keeps.errLast
    | split

theorem excEvent_ev {s0 s : State} {p vec} (h : Evolves s0 s) :
    Evolves s0 (excEvent s p vec) := by
  unfold excEvent
  exact Evolves.ite (setEvent_ev h) (Evolves.ite (setEvent_ev h) h)

theorem takeException_ev {s0 s : State} {p e pc member} (h : Evolves s0 s) :
    Evolves s0 (takeException s p e pc member) := by
  unfold takeException
  repeat' first
    | with_reducible assumption
    | (fail_if_no_progress extract_lets -underBinder +onlyGivenNames x)
      refine (fun (hx : Evolves s0 x) => ?_ : Evolves s0 x → _) ?_
      (on_goal 1 => clear_value x)
      (on_goal 2 => simp -zeta only [x])
    | fail_if_no_progress extract_lets -underBinder +onlyGivenNames _x
    | with_reducible refine Evolves.ite ?_ ?_
    | with_reducible refine excEvent_ev ?_
    | with_reducible refine putCore_ev ?_
    | with_reducible refine lockup_ev ?_
    | with_reducible refine enterVector_ev ?_
    | with_reducible refine fireTamper_ev ?_

theorem spillDown_ev {s0 x2 : State} {x0 x1} (hs0 : Evolves s0 x2) :
    Evolves s0 (spillDown x0 x1 x2) := by
  induction x1 generalizing x2 with
  | zero => exact hs0
  | succ n ih =>
    unfold spillDown
    repeat' first
      | with_reducible refine ih ?_
      | with_reducible assumption
      | with_reducible refine spillPair_ev ?_
      | with_reducible refine putCore_ev ?_

theorem completeIns_ev {s0 s : State} {p jump cycles spills} (h : Evolves s0 s) :
    Evolves s0 (completeIns s p jump cycles spills) := by
  unfold completeIns
  repeat' first
    | with_reducible assumption
    | (fail_if_no_progress extract_lets -underBinder +onlyGivenNames x)
      refine (fun (hx : Evolves s0 x) => ?_ : Evolves s0 x → _) ?_
      (on_goal 1 => clear_value x)
      (on_goal 2 => simp -zeta only [x])
    | fail_if_no_progress extract_lets -underBinder +onlyGivenNames _x
    | with_reducible refine spillDown_ev ?_
    | with_reducible refine putCore_ev ?_

theorem runIns_ev {s0 s : State} {p illegal ringBad pairBad loopFull ps body} (h : Evolves s0 s) (hf0 : ∀ a, Evolves s0 a →
    Keeps inRes s0 (body a)) :
    Evolves s0 (runIns p illegal ringBad pairBad loopFull ps body s) := by
  unfold runIns
  repeat' first
    | with_reducible assumption
    | fail_if_no_progress extract_lets -underBinder +onlyGivenNames _x
    | with_reducible refine Evolves.ite ?_ ?_
    | with_reducible refine takeException_ev ?_
    | with_reducible refine ready_ev ?_
    | with_reducible refine completeIns_ev ?_
    | with_reducible refine waitIns_ev ?_
    | with_reducible refine putCore_ev ?_
    | with_reducible refine Keeps.ofOkLast (by assumption) ?_
    | with_reducible refine Keeps.ofDone (by assumption) ?_
    | with_reducible refine Keeps.ofTrapAt (by assumption) ?_
    | with_reducible refine Keeps.ofWait (by assumption) ?_
    | with_reducible refine Keeps.ofAgain (by assumption) ?_
    | with_reducible refine hf0 _ ?_
    | split

theorem runPlain_ev {s0 s : State} {p pops pushes body} (h : Evolves s0 s) (hf0 : ∀ a, Evolves s0 a → Keeps inRes s0 (body a)) :
    Evolves s0 (runPlain p pops pushes body s) := by
  unfold runPlain
  repeat' first
    | with_reducible assumption
    | with_reducible refine runIns_ev ?_ ?_

theorem coreWork_ev {s0 s : State} {p cycles f} (h : Evolves s0 s) :
    Keeps inRes s0 (coreWork p cycles f s) := by
  unfold coreWork
  exact Keeps.done (putCore_ev h)

theorem accessCycles_ev {s0 s : State} {p addr} (h : Evolves s0 s) :
    Keeps inSnd s0 (accessCycles s p addr) := by
  unfold accessCycles
  repeat' first
    | with_reducible assumption
    | with_reducible refine Keeps.snd (freeNat_ev ?_)
    | with_reducible refine Keeps.mkSnd ?_
    | split

theorem granuleWrite_ev {s0 s : State} {p via j off b tag} (h : Evolves s0 s) :
    Keeps inExc s0 (granuleWrite s p via j off b tag) := by
  unfold granuleWrite
  repeat' first
    | with_reducible assumption
    | fail_if_no_progress extract_lets -underBinder +onlyGivenNames _x
    | with_reducible refine Keeps.ite ?_ ?_
    | with_reducible refine objPutTagged_ev ?_
    | with_reducible refine store_ev ?_
    | with_reducible refine putGranule_ev ?_
    | with_reducible refine Keeps.ofOk (by assumption) ?_
    | with_reducible refine Keeps.ok ?_
    | with_reducible refine Keeps.err
    | split

theorem shortFlow_ev {s0 s : State} {p v} (h : Evolves s0 s) :
    Keeps inExcFst s0 (shortFlow p v s) := by
  unfold shortFlow
  repeat' first
    | with_reducible assumption
    | fail_if_no_progress extract_lets -underBinder +onlyGivenNames _x
    | with_reducible refine putCore_ev ?_
    | with_reducible refine load_ev ?_
    | with_reducible refine Keeps.ofOkSnd (by assumption) ?_
    | with_reducible refine Keeps.okFst ?_
    | with_reducible refine Keeps.errFst
    | split

theorem condWork_ev {s0 s : State} {p off taken} (h : Evolves s0 s) :
    Keeps inRes s0 (condWork p off taken s) := by
  unfold condWork
  repeat' first
    | with_reducible assumption
    | (fail_if_no_progress extract_lets -underBinder +onlyGivenNames x)
      refine (fun (hx : Evolves s0 x) => ?_ : Evolves s0 x → _) ?_
      (on_goal 1 => clear_value x)
      (on_goal 2 => simp -zeta only [x])
    | fail_if_no_progress extract_lets -underBinder +onlyGivenNames _x
    | with_reducible refine Keeps.ite ?_ ?_
    | with_reducible refine putCore_ev ?_
    | with_reducible refine Keeps.done ?_

theorem execBnzl_ev {s0 s : State} {core off} (h : Evolves s0 s) :
    Keeps inOut s0 (execBnzl core off s) := by
  unfold execBnzl
  repeat' first
    | with_reducible assumption
    | with_reducible refine runPlain_ev ?_ ?_
    | with_reducible refine condWork_ev ?_
    | with_reducible refine Keeps.next ?_
    | intro _

theorem execCtest_ev {s0 s : State} {core k} (h : Evolves s0 s) :
    Keeps inOut s0 (execCtest core k s) := by
  unfold execCtest
  repeat' first
    | with_reducible assumption
    | with_reducible refine runPlain_ev ?_ ?_
    | with_reducible refine coreWork_ev ?_
    | with_reducible refine Keeps.next ?_
    | intro _

theorem execCnarrow_ev {s0 s : State} {core k} (h : Evolves s0 s) :
    Keeps inOut s0 (execCnarrow core k s) := by
  unfold execCnarrow
  repeat' first
    | with_reducible assumption
    | with_reducible refine runPlain_ev ?_ ?_
    | with_reducible refine coreWork_ev ?_
    | with_reducible refine Keeps.next ?_
    | intro _

theorem loopWork_ev {s0 s : State} {p pops span count} (h : Evolves s0 s) :
    Keeps inRes s0 (loopWork p pops span count s) := by
  unfold loopWork
  repeat' first
    | with_reducible assumption
    | fail_if_no_progress extract_lets -underBinder +onlyGivenNames _x
    | with_reducible refine Keeps.ite ?_ ?_
    | with_reducible refine putCore_ev ?_
    | with_reducible refine Keeps.done ?_

theorem execLoopi_ev {s0 s : State} {core count span} (h : Evolves s0 s) :
    Keeps inOut s0 (execLoopi core count span s) := by
  unfold execLoopi
  repeat' first
    | with_reducible assumption
    | with_reducible refine runIns_ev ?_ ?_
    | with_reducible refine loopWork_ev ?_
    | with_reducible refine Keeps.next ?_
    | intro _

theorem granuleRead_ev {s0 s : State} {p via j off} (h : Evolves s0 s) :
    Keeps inExcLast s0 (granuleRead s p via j off) := by
  unfold granuleRead
  repeat' first
    | with_reducible assumption
    | fail_if_no_progress extract_lets -underBinder +onlyGivenNames _x
    | with_reducible refine Keeps.ite ?_ ?_
    | with_reducible refine Keeps.snd (objBytes_ev ?_)
    | with_reducible refine load_ev ?_
    | with_reducible refine Keeps.ofOkSnd (by assumption) ?_
    | with_reducible refine Keeps.okLast ?_
    | with_reducible refine Keeps.errLast
    | split

theorem execCld_ev {s0 s : State} {core k via j} (h : Evolves s0 s) :
    Keeps inOut s0 (execCld core k via j s) := by
  unfold execCld
  repeat' first
    | with_reducible assumption
    | with_reducible refine runPlain_ev ?_ ?_
    | with_reducible refine granuleRead_ev ?_
    | with_reducible refine putCore_ev ?_
    | with_reducible refine Keeps.ofOkLast (by assumption) ?_
    | with_reducible refine Keeps.next ?_
    | with_reducible refine Keeps.done ?_
    | with_reducible refine Keeps.trap
    | intro _
    | split

theorem execLithi_ev {s0 s : State} {core imm} (h : Evolves s0 s) :
    Keeps inOut s0 (execLithi core imm s) := by
  unfold execLithi
  repeat' first
    | with_reducible assumption
    | with_reducible refine runPlain_ev ?_ ?_
    | with_reducible refine coreWork_ev ?_
    | with_reducible refine Keeps.next ?_
    | intro _

theorem execSt_ev {s0 s : State} {core size disp} (h : Evolves s0 s) :
    Keeps inOut s0 (execSt core size disp s) := by
  unfold execSt
  repeat' first
    | with_reducible assumption
    | fail_if_no_progress extract_lets -underBinder +onlyGivenNames _x
    | with_reducible refine runPlain_ev ?_ ?_
    | with_reducible refine accessCycles_ev ?_
    | with_reducible refine store_ev ?_
    | with_reducible refine putCore_ev ?_
    | with_reducible refine Keeps.ofOk (by assumption) ?_
    | with_reducible refine Keeps.ofSnd (by assumption) ?_
    | with_reducible refine Keeps.next ?_
    | with_reducible refine Keeps.done ?_
    | with_reducible refine Keeps.trap
    | intro _
    | split

theorem execCnull_ev {s0 s : State} {core k} (h : Evolves s0 s) :
    Keeps inOut s0 (execCnull core k s) := by
  unfold execCnull
  repeat' first
    | with_reducible assumption
    | with_reducible refine runPlain_ev ?_ ?_
    | with_reducible refine coreWork_ev ?_
    | with_reducible refine Keeps.next ?_
    | intro _

theorem execCpush_ev {s0 s : State} {core k} (h : Evolves s0 s) :
    Keeps inOut s0 (execCpush core k s) := by
  unfold execCpush
  repeat' first
    | with_reducible assumption
    | fail_if_no_progress extract_lets -underBinder +onlyGivenNames _x
    | with_reducible refine runPlain_ev ?_ ?_
    | with_reducible refine coreWork_ev ?_
    | with_reducible refine Keeps.next ?_
    | intro _

theorem callWork_ev {s0 s : State} {p pops target} (h : Evolves s0 s) :
    Keeps inRes s0 (callWork p pops target s) := by
  unfold callWork
  repeat' first
    | with_reducible assumption
    | fail_if_no_progress extract_lets -underBinder +onlyGivenNames _x
    | with_reducible refine Keeps.ite ?_ ?_
    | with_reducible refine store_ev ?_
    | with_reducible refine putCore_ev ?_
    | with_reducible refine Keeps.ofOk (by assumption) ?_
    | with_reducible refine Keeps.done ?_
    | with_reducible refine Keeps.trap
    | split

theorem execCpop_ev {s0 s : State} {core k} (h : Evolves s0 s) :
    Keeps inOut s0 (execCpop core k s) := by
  unfold execCpop
  repeat' first
    | with_reducible assumption
    | with_reducible refine runPlain_ev ?_ ?_
    | with_reducible refine coreWork_ev ?_
    | with_reducible refine Keeps.next ?_
    | intro _

theorem execCall_ev {s0 s : State} {core off} (h : Evolves s0 s) :
    Keeps inOut s0 (execCall core off s) := by
  unfold execCall
  repeat' first
    | with_reducible assumption
    | with_reducible refine runPlain_ev ?_ ?_
    | with_reducible refine callWork_ev ?_
    | with_reducible refine Keeps.next ?_
    | intro _

theorem execLoop_ev {s0 s : State} {core span} (h : Evolves s0 s) :
    Keeps inOut s0 (execLoop core span s) := by
  unfold execLoop
  repeat' first
    | with_reducible assumption
    | with_reducible refine runIns_ev ?_ ?_
    | with_reducible refine loopWork_ev ?_
    | with_reducible refine Keeps.next ?_
    | intro _

theorem execLit24_ev {s0 s : State} {core imm} (h : Evolves s0 s) :
    Keeps inOut s0 (execLit24 core imm s) := by
  unfold execLit24
  repeat' first
    | with_reducible assumption
    | with_reducible refine runPlain_ev ?_ ?_
    | with_reducible refine coreWork_ev ?_
    | with_reducible refine Keeps.next ?_
    | intro _

theorem shortAccess_ev {s0 s : State} {p v} (h : Evolves s0 s) :
    Keeps inExcFst s0 (shortAccess p v s) := by
  unfold shortAccess
  repeat' first
    | with_reducible assumption
    | fail_if_no_progress extract_lets -underBinder +onlyGivenNames _x
    | with_reducible refine accessCycles_ev ?_
    | with_reducible refine load_ev ?_
    | with_reducible refine putCore_ev ?_
    | with_reducible refine store_ev ?_
    | with_reducible refine Keeps.ofOk (by assumption) ?_
    | with_reducible refine Keeps.ofOkSnd (by assumption) ?_
    | with_reducible refine Keeps.ofSnd (by assumption) ?_
    | with_reducible refine Keeps.okFst ?_
    | with_reducible refine Keeps.errFst
    | split

theorem shortExec_ev {s0 s : State} {p v} (h : Evolves s0 s) :
    Keeps inExcFst s0 (shortExec p v s) := by
  unfold shortExec
  exact Keeps.ite (shortAccess_ev h) (Keeps.ite (shortFlow_ev h) (Keeps.okFst (putCore_ev h)))

theorem pairWork_ev {s0 s : State} {p a b} (h : Evolves s0 s) :
    Keeps inRes s0 (pairWork p a b s) := by
  unfold pairWork
  repeat' first
    | with_reducible assumption
    | with_reducible refine shortExec_ev ?_
    | with_reducible refine Keeps.ofOkFst (by assumption) ?_
    | with_reducible refine Keeps.done ?_
    | with_reducible refine Keeps.trap
    | split

theorem execCalli_ev {s0 s : State} {core} (h : Evolves s0 s) :
    Keeps inOut s0 (execCalli core s) := by
  unfold execCalli
  repeat' first
    | with_reducible assumption
    | with_reducible refine runPlain_ev ?_ ?_
    | with_reducible refine callWork_ev ?_
    | with_reducible refine Keeps.next ?_
    | intro _

theorem execJmpi_ev {s0 s : State} {core} (h : Evolves s0 s) :
    Keeps inOut s0 (execJmpi core s) := by
  unfold execJmpi
  repeat' first
    | with_reducible assumption
    | fail_if_no_progress extract_lets -underBinder +onlyGivenNames _x
    | with_reducible refine runPlain_ev ?_ ?_
    | with_reducible refine putCore_ev ?_
    | with_reducible refine Keeps.next ?_
    | with_reducible refine Keeps.done ?_
    | intro _

theorem execBzl_ev {s0 s : State} {core off} (h : Evolves s0 s) :
    Keeps inOut s0 (execBzl core off s) := by
  unfold execBzl
  repeat' first
    | with_reducible assumption
    | with_reducible refine runPlain_ev ?_ ?_
    | with_reducible refine condWork_ev ?_
    | with_reducible refine Keeps.next ?_
    | intro _

theorem execCfield_ev {s0 s : State} {core k field} (h : Evolves s0 s) :
    Keeps inOut s0 (execCfield core k field s) := by
  unfold execCfield
  repeat' first
    | with_reducible assumption
    | with_reducible refine runIns_ev ?_ ?_
    | with_reducible refine coreWork_ev ?_
    | with_reducible refine Keeps.next ?_
    | intro _

theorem execPairInstruction_ev {s0 s : State} {core a b} (h : Evolves s0 s) :
    Keeps inOut s0 (execPairInstruction core a b s) := by
  unfold execPairInstruction
  repeat' first
    | with_reducible assumption
    | fail_if_no_progress extract_lets -underBinder +onlyGivenNames _x
    | with_reducible refine runIns_ev ?_ ?_
    | with_reducible refine pairWork_ev ?_
    | with_reducible refine Keeps.next ?_
    | intro _

theorem execLd_ev {s0 s : State} {core size signed disp} (h : Evolves s0 s) :
    Keeps inOut s0 (execLd core size signed disp s) := by
  unfold execLd
  repeat' first
    | with_reducible assumption
    | fail_if_no_progress extract_lets -underBinder +onlyGivenNames _x
    | with_reducible refine runPlain_ev ?_ ?_
    | with_reducible refine accessCycles_ev ?_
    | with_reducible refine load_ev ?_
    | with_reducible refine putCore_ev ?_
    | with_reducible refine Keeps.ofOkSnd (by assumption) ?_
    | with_reducible refine Keeps.ofSnd (by assumption) ?_
    | with_reducible refine Keeps.next ?_
    | with_reducible refine Keeps.done ?_
    | with_reducible refine Keeps.trap
    | intro _
    | split

theorem execJmp_ev {s0 s : State} {core off} (h : Evolves s0 s) :
    Keeps inOut s0 (execJmp core off s) := by
  unfold execJmp
  repeat' first
    | with_reducible assumption
    | with_reducible refine runPlain_ev ?_ ?_
    | with_reducible refine Keeps.next ?_
    | with_reducible refine Keeps.done ?_
    | intro _

theorem execLdc_ev {s0 s : State} {core k size signed disp} (h : Evolves s0 s) :
    Keeps inOut s0 (execLdc core k size signed disp s) := by
  unfold execLdc
  repeat' first
    | with_reducible assumption
    | fail_if_no_progress extract_lets -underBinder +onlyGivenNames _x
    | with_reducible refine runPlain_ev ?_ ?_
    | with_reducible refine capLoad_ev ?_
    | with_reducible refine putCore_ev ?_
    | with_reducible refine Keeps.ofOkSnd (by assumption) ?_
    | with_reducible refine Keeps.next ?_
    | with_reducible refine Keeps.done ?_
    | with_reducible refine Keeps.trap
    | intro _
    | split

theorem execStc_ev {s0 s : State} {core k size disp} (h : Evolves s0 s) :
    Keeps inOut s0 (execStc core k size disp s) := by
  unfold execStc
  repeat' first
    | with_reducible assumption
    | fail_if_no_progress extract_lets -underBinder +onlyGivenNames _x
    | with_reducible refine runPlain_ev ?_ ?_
    | with_reducible refine capStore_ev ?_
    | with_reducible refine putCore_ev ?_
    | with_reducible refine Keeps.ofOk (by assumption) ?_
    | with_reducible refine Keeps.next ?_
    | with_reducible refine Keeps.done ?_
    | with_reducible refine Keeps.trap
    | intro _
    | split

theorem execCst_ev {s0 s : State} {core k via j} (h : Evolves s0 s) :
    Keeps inOut s0 (execCst core k via j s) := by
  unfold execCst
  repeat' first
    | with_reducible assumption
    | fail_if_no_progress extract_lets -underBinder +onlyGivenNames _x
    | with_reducible refine runPlain_ev ?_ ?_
    | with_reducible refine granuleWrite_ev ?_
    | with_reducible refine putCore_ev ?_
    | with_reducible refine Keeps.ofOk (by assumption) ?_
    | with_reducible refine Keeps.next ?_
    | with_reducible refine Keeps.done ?_
    | with_reducible refine Keeps.trap
    | intro _
    | split

theorem execHend_ev {s0 s : State} {core} (h : Evolves s0 s) :
    Keeps inOut s0 (execHend core s) := by
  unfold execHend
  repeat' first
    | with_reducible assumption
    | fail_if_no_progress extract_lets -underBinder +onlyGivenNames _x
    | with_reducible refine Keeps.ite ?_ ?_
    | with_reducible refine runPlain_ev ?_ ?_
    | with_reducible refine store_ev ?_
    | with_reducible refine Keeps.snd (freeNat_ev ?_)
    | with_reducible refine putCore_ev ?_
    | with_reducible refine Keeps.ofOk (by assumption) ?_
    | with_reducible refine Keeps.next ?_
    | with_reducible refine Keeps.done ?_
    | with_reducible refine Keeps.trap
    | with_reducible refine Keeps.ok ?_
    | intro _
    | split

theorem withdraw_ev {s0 s : State} {p} (h : Evolves s0 s) :
    Evolves s0 (withdraw s p) := by
  unfold withdraw
  repeat' first
    | with_reducible assumption
    | (fail_if_no_progress extract_lets -underBinder +onlyGivenNames x)
      refine (fun (hx : Evolves s0 x) => ?_ : Evolves s0 x → _) ?_
      (on_goal 1 => clear_value x)
      (on_goal 2 => simp -zeta only [x])
    | fail_if_no_progress extract_lets -underBinder +onlyGivenNames _x
    | with_reducible refine Evolves.ite ?_ ?_
    | with_reducible refine completeIns_ev ?_
    | with_reducible refine putDrbg_ev ?_
    | with_reducible refine putCore_ev ?_

theorem execInterruptTaken_ev {s0 s : State} {core} (h : Evolves s0 s) :
    Keeps inOut s0 (execInterruptTaken core s) := by
  unfold execInterruptTaken
  repeat' first
    | with_reducible assumption
    | (fail_if_no_progress extract_lets -underBinder +onlyGivenNames x)
      refine (fun (hx : Evolves s0 x) => ?_ : Evolves s0 x → _) ?_
      (on_goal 1 => clear_value x)
      (on_goal 2 => simp -zeta only [x])
    | fail_if_no_progress extract_lets -underBinder +onlyGivenNames _x
    | with_reducible refine Keeps.ite ?_ ?_
    | with_reducible refine stay_ev ?_
    | with_reducible refine withdraw_ev ?_
    | with_reducible refine putCore_ev ?_
    | with_reducible refine enterVector_ev ?_
    | with_reducible refine Keeps.next ?_
    | split

theorem execTetherRead_ev {s0 s : State} {core} (h : Evolves s0 s) :
    Keeps inOut s0 (execTetherRead core s) := by
  unfold execTetherRead
  repeat' first
    | with_reducible assumption
    | with_reducible refine runPlain_ev ?_ ?_
    | with_reducible refine coreWork_ev ?_
    | with_reducible refine Keeps.next ?_
    | intro _

theorem hashFeed_ev {s0 s : State} {p b} (h : Evolves s0 s) :
    Evolves s0 (hashFeed s p b) := by
  unfold hashFeed
  repeat' first
    | with_reducible assumption
    | fail_if_no_progress extract_lets -underBinder +onlyGivenNames _x
    | with_reducible refine putLane_ev ?_
    | with_reducible refine putCore_ev ?_
    | split

theorem hfStep_ev {s0 s : State} {p} (h : Evolves s0 s) :
    Keeps inRes s0 (hfStep p s) := by
  unfold hfStep
  repeat' first
    | with_reducible assumption
    | (fail_if_no_progress extract_lets -underBinder +onlyGivenNames x)
      refine (fun (hx : Evolves s0 x) => ?_ : Evolves s0 x → _) ?_
      (on_goal 1 => clear_value x)
      (on_goal 2 => simp -zeta only [x])
    | fail_if_no_progress extract_lets -underBinder +onlyGivenNames _x
    | with_reducible refine Keeps.ite ?_ ?_
    | with_reducible refine putCore_ev ?_
    | with_reducible refine capLoad_ev ?_
    | with_reducible refine load_ev ?_
    | with_reducible refine hashFeed_ev ?_
    | with_reducible refine Keeps.ofOkSnd (by assumption) ?_
    | with_reducible refine Keeps.done ?_
    | with_reducible refine Keeps.trapAt ?_
    | with_reducible refine Keeps.again ?_
    | split
    | dsimp -zeta +zetaDelta only

theorem execMpusync_ev {s0 s : State} {core} (h : Evolves s0 s) :
    Keeps inOut s0 (execMpusync core s) := by
  unfold execMpusync
  repeat' first
    | with_reducible assumption
    | with_reducible refine runIns_ev ?_ ?_
    | with_reducible refine coreWork_ev ?_
    | with_reducible refine Keeps.next ?_
    | intro _

theorem execJobNext_ev {s0 s : State} {core} (h : Evolves s0 s) :
    Keeps inOut s0 (execJobNext core s) := by
  unfold execJobNext
  repeat' first
    | with_reducible assumption
    | (fail_if_no_progress extract_lets -underBinder +onlyGivenNames x)
      refine (fun (hx : Evolves s0 x) => ?_ : Evolves s0 x → _) ?_
      (on_goal 1 => clear_value x)
      (on_goal 2 => simp -zeta only [x])
    | fail_if_no_progress extract_lets -underBinder +onlyGivenNames _x
    | with_reducible refine runIns_ev ?_ ?_
    | with_reducible refine modJob_ev ?_
    | with_reducible refine putCore_ev ?_
    | with_reducible refine Keeps.next ?_
    | with_reducible refine Keeps.done ?_
    | with_reducible refine Keeps.wait ?_
    | intro _
    | split

theorem execWaiti_ev {s0 s : State} {core} (h : Evolves s0 s) :
    Keeps inOut s0 (execWaiti core s) := by
  unfold execWaiti
  repeat' first
    | with_reducible assumption
    | with_reducible refine Keeps.ite ?_ ?_
    | with_reducible refine runIns_ev ?_ ?_
    | with_reducible refine Keeps.next ?_
    | with_reducible refine Keeps.done ?_
    | with_reducible refine Keeps.wait ?_
    | intro _

theorem execSgfm_ev {s0 s : State} {core sd k} (h : Evolves s0 s) :
    Keeps inOut s0 (execSgfm core sd k s) := by
  unfold execSgfm
  repeat' first
    | with_reducible assumption
    | with_reducible refine runIns_ev ?_ ?_
    | with_reducible refine coreWork_ev ?_
    | with_reducible refine Keeps.next ?_
    | intro _

theorem execSld_ev {s0 s : State} {core sd k disp} (h : Evolves s0 s) :
    Keeps inOut s0 (execSld core sd k disp s) := by
  unfold execSld
  repeat' first
    | with_reducible assumption
    | fail_if_no_progress extract_lets -underBinder +onlyGivenNames _x
    | with_reducible refine runIns_ev ?_ ?_
    | with_reducible refine capLoad_ev ?_
    | with_reducible refine putCore_ev ?_
    | with_reducible refine Keeps.ofOkSnd (by assumption) ?_
    | with_reducible refine Keeps.next ?_
    | with_reducible refine Keeps.done ?_
    | with_reducible refine Keeps.trap
    | intro _
    | split

theorem execSxor_ev {s0 s : State} {core sd ss} (h : Evolves s0 s) :
    Keeps inOut s0 (execSxor core sd ss s) := by
  unfold execSxor
  repeat' first
    | with_reducible assumption
    | with_reducible refine runIns_ev ?_ ?_
    | with_reducible refine coreWork_ev ?_
    | with_reducible refine Keeps.next ?_
    | intro _

theorem bmRead_ev {s0 s : State} {p ctl addr n} (h : Evolves s0 s) :
    Keeps inExcSnd s0 (bmRead s p ctl addr n) := by
  unfold bmRead
  repeat' first
    | with_reducible assumption
    | fail_if_no_progress extract_lets -underBinder +onlyGivenNames _x
    | with_reducible refine Keeps.ite ?_ ?_
    | with_reducible refine load_ev ?_
    | with_reducible refine capLoad_ev ?_
    | with_reducible refine Keeps.okSnd ?_
    | with_reducible refine Keeps.errSnd
    | split

theorem bmWrite_ev {s0 s : State} {p ctl addr b} (h : Evolves s0 s) :
    Keeps inExc s0 (bmWrite s p ctl addr b) := by
  unfold bmWrite
  repeat' first
    | with_reducible assumption
    | fail_if_no_progress extract_lets -underBinder +onlyGivenNames _x
    | with_reducible refine Keeps.ite ?_ ?_
    | with_reducible refine store_ev ?_
    | with_reducible refine capStore_ev ?_
    | with_reducible refine putSail_ev ?_
    | with_reducible refine Keeps.ok ?_
    | with_reducible refine Keeps.err
    | split

theorem bmStep_ev {s0 s : State} {p} (h : Evolves s0 s) :
    Keeps inRes s0 (bmStep p s) := by
  unfold bmStep
  repeat' first
    | with_reducible assumption
    | fail_if_no_progress extract_lets -underBinder +onlyGivenNames _x
    | with_reducible refine Keeps.ite ?_ ?_
    | with_reducible refine putCore_ev ?_
    | with_reducible refine bmRead_ev ?_
    | with_reducible refine bmWrite_ev ?_
    | with_reducible refine Keeps.ofOk (by assumption) ?_
    | with_reducible refine Keeps.ofOkSnd (by assumption) ?_
    | with_reducible refine Keeps.done ?_
    | with_reducible refine Keeps.trapAt ?_
    | with_reducible refine Keeps.wait ?_
    | with_reducible refine Keeps.again ?_
    | split

theorem execBmove_ev {s0 s : State} {core operand} (h : Evolves s0 s) :
    Keeps inOut s0 (execBmove core operand s) := by
  unfold execBmove
  repeat' first
    | with_reducible assumption
    | fail_if_no_progress extract_lets -underBinder +onlyGivenNames _x
    | with_reducible refine Keeps.ite ?_ ?_
    | with_reducible refine runIns_ev ?_ ?_
    | with_reducible refine bmStep_ev ?_
    | with_reducible refine putCore_ev ?_
    | with_reducible refine Keeps.next ?_
    | with_reducible refine Keeps.trap
    | intro _

theorem swStep_ev {s0 s : State} {p} (h : Evolves s0 s) :
    Keeps inRes s0 (swStep p s) := by
  unfold swStep
  repeat' first
    | with_reducible assumption
    | fail_if_no_progress extract_lets -underBinder +onlyGivenNames _x
    | with_reducible refine Keeps.ite ?_ ?_
    | with_reducible refine putCore_ev ?_
    | with_reducible refine Keeps.done ?_
    | with_reducible refine Keeps.wait ?_

theorem execSwait_ev {s0 s : State} {core mask} (h : Evolves s0 s) :
    Keeps inOut s0 (execSwait core mask s) := by
  unfold execSwait
  repeat' first
    | with_reducible assumption
    | fail_if_no_progress extract_lets -underBinder +onlyGivenNames _x
    | with_reducible refine Keeps.ite ?_ ?_
    | with_reducible refine runPlain_ev ?_ ?_
    | with_reducible refine swStep_ev ?_
    | with_reducible refine putCore_ev ?_
    | with_reducible refine Keeps.next ?_
    | intro _

theorem execSput_ev {s0 s : State} {core ss dest} (h : Evolves s0 s) :
    Keeps inOut s0 (execSput core ss dest s) := by
  unfold execSput
  repeat' first
    | with_reducible assumption
    | (fail_if_no_progress extract_lets -underBinder +onlyGivenNames x)
      refine (fun (hx : Evolves s0 x) => ?_ : Evolves s0 x → _) ?_
      (on_goal 1 => clear_value x)
      (on_goal 2 => simp -zeta only [x])
    | fail_if_no_progress extract_lets -underBinder +onlyGivenNames _x
    | with_reducible refine Keeps.ite ?_ ?_
    | with_reducible refine runIns_ev ?_ ?_
    | with_reducible refine putCore_ev ?_
    | with_reducible refine Keeps.next ?_
    | with_reducible refine Keeps.done ?_
    | fail_if_no_progress with_reducible refine Evolves.upd ?_
    | intro _

theorem retxWork_ev {s0 s : State} {p} (h : Evolves s0 s) :
    Keeps inRes s0 (retxWork p s) := by
  unfold retxWork
  repeat' first
    | with_reducible assumption
    | fail_if_no_progress extract_lets -underBinder +onlyGivenNames _x
    | with_reducible refine Keeps.ite ?_ ?_
    | with_reducible refine load_ev ?_
    | with_reducible refine putCore_ev ?_
    | with_reducible refine Keeps.ofOkSnd (by assumption) ?_
    | with_reducible refine Keeps.done ?_
    | with_reducible refine Keeps.trap
    | split

theorem execRetx_ev {s0 s : State} {core} (h : Evolves s0 s) :
    Keeps inOut s0 (execRetx core s) := by
  unfold execRetx
  repeat' first
    | with_reducible assumption
    | with_reducible refine runIns_ev ?_ ?_
    | with_reducible refine retxWork_ev ?_
    | with_reducible refine Keeps.next ?_
    | intro _

theorem engineFor_ev {s0 s : State} {q n} (h : Evolves s0 s) :
    Evolves s0 (engineFor s q n) := by
  unfold engineFor
  repeat' first
    | with_reducible assumption
    | (fail_if_no_progress extract_lets -underBinder +onlyGivenNames x)
      refine (fun (hx : Evolves s0 x) => ?_ : Evolves s0 x → _) ?_
      (on_goal 1 => clear_value x)
      (on_goal 2 => simp -zeta only [x])
    | fail_if_no_progress extract_lets -underBinder +onlyGivenNames _x
    | with_reducible refine Evolves.ite ?_ ?_
    | with_reducible refine putSail_ev ?_
    | with_reducible refine modJob_ev ?_
    | fail_if_no_progress with_reducible refine Evolves.upd ?_
    | split

theorem portIssue_ev {s0 s : State} {p e x} (h : Evolves s0 s) :
    Evolves s0 (portIssue s p e x) := by
  unfold portIssue
  repeat' first
    | with_reducible assumption
    | fail_if_no_progress extract_lets -underBinder +onlyGivenNames _x
    | with_reducible refine Evolves.ite ?_ ?_
    | with_reducible refine putSail_ev ?_
    | with_reducible refine issue_ev ?_
    | with_reducible refine engineFor_ev ?_

theorem execScmd_ev {s0 s : State} {core engine} (h : Evolves s0 s) :
    Keeps inOut s0 (execScmd core engine s) := by
  unfold execScmd
  repeat' first
    | with_reducible assumption
    | fail_if_no_progress extract_lets -underBinder +onlyGivenNames _x
    | with_reducible refine runIns_ev ?_ ?_
    | with_reducible refine portIssue_ev ?_
    | with_reducible refine putCore_ev ?_
    | with_reducible refine Keeps.next ?_
    | with_reducible refine Keeps.done ?_
    | intro _

theorem msrWrite_ev {s0 s : State} {p r v} (h : Evolves s0 s) :
    Evolves s0 (msrWrite s p r v) := by
  unfold msrWrite
  repeat' first
    | with_reducible assumption
    | fail_if_no_progress extract_lets -underBinder +onlyGivenNames _x
    | with_reducible refine Evolves.ite ?_ ?_
    | with_reducible refine cacheClean_ev ?_
    | with_reducible refine putCore_ev ?_

theorem execMts_ev {s0 s : State} {core reg} (h : Evolves s0 s) :
    Keeps inOut s0 (execMts core reg s) := by
  unfold execMts
  repeat' first
    | with_reducible assumption
    | fail_if_no_progress extract_lets -underBinder +onlyGivenNames _x
    | with_reducible refine runIns_ev ?_ ?_
    | with_reducible refine msrWrite_ev ?_
    | with_reducible refine putCore_ev ?_
    | with_reducible refine Keeps.next ?_
    | with_reducible refine Keeps.done ?_
    | intro _

theorem execSstat_ev {s0 s : State} {core engine} (h : Evolves s0 s) :
    Keeps inOut s0 (execSstat core engine s) := by
  unfold execSstat
  repeat' first
    | with_reducible assumption
    | with_reducible refine runIns_ev ?_ ?_
    | with_reducible refine coreWork_ev ?_
    | with_reducible refine Keeps.next ?_
    | intro _

theorem execFence_ev {s0 s : State} {core} (h : Evolves s0 s) :
    Keeps inOut s0 (execFence core s) := by
  unfold execFence
  repeat' first
    | with_reducible assumption
    | with_reducible refine runPlain_ev ?_ ?_
    | with_reducible refine coreWork_ev ?_
    | with_reducible refine Keeps.next ?_
    | intro _

theorem ballastOut_ev {s0 s : State} {j off n} (h : Evolves s0 s) :
    Keeps inSnd s0 (ballastOut s j off n) := by
  unfold ballastOut
  repeat' first
    | with_reducible assumption
    | fail_if_no_progress extract_lets -underBinder +onlyGivenNames _x
    | with_reducible refine Keeps.snd (freeBytes_ev ?_)
    | with_reducible refine Keeps.mkSnd ?_
    | split

theorem jobEnd_ev {s0 s : State} {p v} (h : Evolves s0 s) :
    Evolves s0 (jobEnd s p v) := by
  unfold jobEnd
  repeat' first
    | with_reducible assumption
    | (fail_if_no_progress extract_lets -underBinder +onlyGivenNames x)
      refine (fun (hx : Evolves s0 x) => ?_ : Evolves s0 x → _) ?_
      (on_goal 1 => clear_value x)
      (on_goal 2 => simp -zeta only [x])
    | fail_if_no_progress extract_lets -underBinder +onlyGivenNames _x
    | with_reducible refine Evolves.ite ?_ ?_
    | with_reducible refine setEvent_ev ?_
    | with_reducible refine Keeps.snd (ballastOut_ev ?_)
    | with_reducible refine endJob_ev ?_
    | with_reducible refine failJob_ev ?_
    | split
    | dsimp -zeta only

theorem trapWork_ev {s0 s : State} {p n} (h : Evolves s0 s) :
    Keeps inRes s0 (trapWork p n s) := by
  unfold trapWork
  repeat' first
    | with_reducible assumption
    | fail_if_no_progress extract_lets -underBinder +onlyGivenNames _x
    | with_reducible refine Keeps.ite ?_ ?_
    | with_reducible refine putCore_ev ?_
    | with_reducible refine enterVector_ev ?_
    | with_reducible refine Keeps.done ?_
    | with_reducible refine Keeps.trap

theorem execHfeed_ev {s0 s : State} {core cap k} (h : Evolves s0 s) :
    Keeps inOut s0 (execHfeed core cap k s) := by
  unfold execHfeed
  repeat' first
    | with_reducible assumption
    | with_reducible refine Keeps.ite ?_ ?_
    | with_reducible refine runPlain_ev ?_ ?_
    | with_reducible refine hfStep_ev ?_
    | with_reducible refine putCore_ev ?_
    | with_reducible refine Keeps.next ?_
    | intro _

theorem rngTake_ev {s0 s : State} {p use} (h : Evolves s0 s) (hf0 : ∀ a w, Evolves s0 a → Keeps inRes s0 (use a w)) :
    Keeps inRes s0 (rngTake p use s) := by
  unfold rngTake
  repeat' first
    | with_reducible assumption
    | (fail_if_no_progress extract_lets -underBinder +onlyGivenNames x)
      refine (fun (hx : Evolves s0 x) => ?_ : Evolves s0 x → _) ?_
      (on_goal 1 => clear_value x)
      (on_goal 2 => simp -zeta only [x])
    | fail_if_no_progress extract_lets -underBinder +onlyGivenNames _x
    | with_reducible refine Keeps.ite ?_ ?_
    | with_reducible refine putDrbg_ev ?_
    | with_reducible refine askRand_ev ?_
    | with_reducible refine Keeps.trapAt ?_
    | with_reducible refine Keeps.wait ?_
    | with_reducible refine Keeps.trap
    | with_reducible refine hf0 _ _ ?_

theorem execSrand_ev {s0 s : State} {core sd} (h : Evolves s0 s) :
    Keeps inOut s0 (execSrand core sd s) := by
  unfold execSrand
  repeat' first
    | with_reducible assumption
    | with_reducible refine runIns_ev ?_ ?_
    | with_reducible refine rngTake_ev ?_ ?_
    | with_reducible refine putCore_ev ?_
    | with_reducible refine Keeps.next ?_
    | with_reducible refine Keeps.done ?_
    | intro _

theorem execTrap_ev {s0 s : State} {core n} (h : Evolves s0 s) :
    Keeps inOut s0 (execTrap core n s) := by
  unfold execTrap
  repeat' first
    | with_reducible assumption
    | with_reducible refine runPlain_ev ?_ ?_
    | with_reducible refine trapWork_ev ?_
    | with_reducible refine Keeps.next ?_
    | intro _

theorem execMfs_ev {s0 s : State} {core reg} (h : Evolves s0 s) :
    Keeps inOut s0 (execMfs core reg s) := by
  unfold execMfs
  repeat' first
    | with_reducible assumption
    | fail_if_no_progress extract_lets -underBinder +onlyGivenNames _x
    | with_reducible refine runIns_ev ?_ ?_
    | with_reducible refine coreWork_ev ?_
    | with_reducible refine Keeps.next ?_
    | intro _

theorem execLeafSubmit_ev {s0 s : State} {core} (h : Evolves s0 s) :
    Keeps inOut s0 (execLeafSubmit core s) := by
  unfold execLeafSubmit
  repeat' first
    | with_reducible assumption
    | (fail_if_no_progress extract_lets -underBinder +onlyGivenNames x)
      refine (fun (hx : Evolves s0 x) => ?_ : Evolves s0 x → _) ?_
      (on_goal 1 => clear_value x)
      (on_goal 2 => simp -zeta only [x])
    | fail_if_no_progress extract_lets -underBinder +onlyGivenNames _x
    | with_reducible refine Evolves.ite ?_ ?_
    | with_reducible refine runIns_ev ?_ ?_
    | with_reducible refine load_ev ?_
    | with_reducible refine modJob_ev ?_
    | with_reducible refine resultFinal_ev ?_
    | with_reducible refine putCore_ev ?_
    | with_reducible refine Keeps.ofOkSnd (by assumption) ?_
    | with_reducible refine Keeps.next ?_
    | with_reducible refine Keeps.done ?_
    | with_reducible refine Keeps.trap
    | intro _
    | split

theorem execNointExpire_ev {s0 s : State} {core} (h : Evolves s0 s) :
    Keeps inOut s0 (execNointExpire core s) := by
  unfold execNointExpire
  repeat' first
    | with_reducible assumption
    | fail_if_no_progress extract_lets -underBinder +onlyGivenNames _x
    | with_reducible refine Keeps.ite ?_ ?_
    | with_reducible refine stay_ev ?_
    | with_reducible refine putCore_ev ?_
    | with_reducible refine Keeps.next ?_

theorem execJobSerial_ev {s0 s : State} {core} (h : Evolves s0 s) :
    Keeps inOut s0 (execJobSerial core s) := by
  unfold execJobSerial
  repeat' first
    | with_reducible assumption
    | with_reducible refine runPlain_ev ?_ ?_
    | with_reducible refine coreWork_ev ?_
    | with_reducible refine Keeps.next ?_
    | intro _

theorem execSkey_ev {s0 s : State} {core engine k} (h : Evolves s0 s) :
    Keeps inOut s0 (execSkey core engine k s) := by
  unfold execSkey
  repeat' first
    | with_reducible assumption
    | fail_if_no_progress extract_lets -underBinder +onlyGivenNames _x
    | with_reducible refine runIns_ev ?_ ?_
    | with_reducible refine portIssue_ev ?_
    | with_reducible refine putCore_ev ?_
    | with_reducible refine Keeps.next ?_
    | with_reducible refine Keeps.done ?_
    | with_reducible refine Keeps.trap
    | intro _
    | split

theorem execLeafWait_ev {s0 s : State} {core} (h : Evolves s0 s) :
    Keeps inOut s0 (execLeafWait core s) := by
  unfold execLeafWait
  repeat' first
    | with_reducible assumption
    | with_reducible refine runIns_ev ?_ ?_
    | with_reducible refine putCore_ev ?_
    | with_reducible refine Keeps.snd (freeNat_ev ?_)
    | with_reducible refine Keeps.next ?_
    | with_reducible refine Keeps.done ?_
    | with_reducible refine Keeps.wait ?_
    | intro _
    | split

theorem execHstart_ev {s0 s : State} {core alg keyed k} (h : Evolves s0 s) :
    Keeps inOut s0 (execHstart core alg keyed k s) := by
  unfold execHstart
  repeat' first
    | with_reducible assumption
    | fail_if_no_progress extract_lets -underBinder +onlyGivenNames _x
    | with_reducible refine Keeps.ite ?_ ?_
    | with_reducible refine runIns_ev ?_ ?_
    | with_reducible refine putCore_ev ?_
    | with_reducible refine Keeps.next ?_
    | with_reducible refine Keeps.done ?_
    | with_reducible refine Keeps.trap
    | intro _
    | split

theorem execCoreId_ev {s0 s : State} {core} (h : Evolves s0 s) :
    Keeps inOut s0 (execCoreId core s) := by
  unfold execCoreId
  repeat' first
    | with_reducible assumption
    | with_reducible refine runPlain_ev ?_ ?_
    | with_reducible refine coreWork_ev ?_
    | with_reducible refine Keeps.next ?_
    | intro _

theorem execRngDataRead_ev {s0 s : State} {core} (h : Evolves s0 s) :
    Keeps inOut s0 (execRngDataRead core s) := by
  unfold execRngDataRead
  repeat' first
    | with_reducible assumption
    | with_reducible refine runPlain_ev ?_ ?_
    | with_reducible refine rngTake_ev ?_ ?_
    | with_reducible refine putCore_ev ?_
    | with_reducible refine Keeps.next ?_
    | with_reducible refine Keeps.done ?_
    | intro _

theorem execSclr_ev {s0 s : State} {core sd all} (h : Evolves s0 s) :
    Keeps inOut s0 (execSclr core sd all s) := by
  unfold execSclr
  repeat' first
    | with_reducible assumption
    | with_reducible refine runIns_ev ?_ ?_
    | with_reducible refine coreWork_ev ?_
    | with_reducible refine Keeps.next ?_
    | intro _

theorem execJobEnd_ev {s0 s : State} {core} (h : Evolves s0 s) :
    Keeps inOut s0 (execJobEnd core s) := by
  unfold execJobEnd
  repeat' first
    | with_reducible assumption
    | (fail_if_no_progress extract_lets -underBinder +onlyGivenNames x)
      refine (fun (hx : Evolves s0 x) => ?_ : Evolves s0 x → _) ?_
      (on_goal 1 => clear_value x)
      (on_goal 2 => simp -zeta only [x])
    | fail_if_no_progress extract_lets -underBinder +onlyGivenNames _x
    | with_reducible refine runIns_ev ?_ ?_
    | with_reducible refine jobEnd_ev ?_
    | with_reducible refine putCore_ev ?_
    | with_reducible refine Keeps.next ?_
    | with_reducible refine Keeps.done ?_
    | intro _

theorem refuseDebug_ev {s0 s : State} (h : Evolves s0 s) :
    Evolves s0 (refuseDebug s) := by
  unfold refuseDebug
  repeat' first
    | (fail_if_success (with_reducible refine Evolves.upd ?_)); with_reducible refine Evolves.gated ?_ ?_
    | exact fun h => ⟨h.nonce, h.inst, h.range⟩
    | with_reducible assumption
    | (fail_if_no_progress extract_lets -underBinder +onlyGivenNames x)
      refine (fun (hx : Evolves s0 x) => ?_ : Evolves s0 x → _) ?_
      (on_goal 1 => clear_value x)
      (on_goal 2 => simp -zeta only [x])
    | fail_if_no_progress extract_lets -underBinder +onlyGivenNames _x
    | with_reducible refine Evolves.ite ?_ ?_
    | with_reducible refine setEvent_ev ?_
    | with_reducible refine emit_ev ?_
    | with_reducible refine closeGate_ev ?_
    | with_reducible refine fireTamper_ev ?_

theorem execDebugChallenge_ev {s0 s : State} (h : Evolves s0 s) :
    Keeps inOut s0 (execDebugChallenge s) := by
  unfold execDebugChallenge
  repeat' first
    | (fail_if_success (with_reducible refine Evolves.upd ?_)); with_reducible refine Evolves.gated ?_ ?_
    | exact fun _ => ⟨by simp, by simp, by simp⟩
    | with_reducible assumption
    | fail_if_no_progress extract_lets -underBinder +onlyGivenNames _x
    | with_reducible refine Keeps.ite ?_ ?_
    | with_reducible refine stay_ev ?_
    | with_reducible refine refuseDebug_ev ?_
    | with_reducible refine Keeps.snd (keelDraw_ev ?_)
    | with_reducible refine emit_ev ?_
    | with_reducible refine Keeps.next ?_

theorem execDebugClose_ev {s0 s : State} (h : Evolves s0 s) :
    Keeps inOut s0 (execDebugClose s) := by
  unfold execDebugClose
  exact Keeps.next (Evolves.ite (closeGate_ev h) h)

theorem execDebugAccess_ev {s0 s : State} {core write addr value} (h : Evolves s0 s) :
    Keeps inOut s0 (execDebugAccess core write addr value s) := by
  unfold execDebugAccess
  exact Keeps.ite (stay_ev h) (Keeps.ite (Keeps.next (refuseDebug_ev h)) (Keeps.ite (Keeps.next (memPut_ev h)) (Keeps.next
    (emit_ev h))))

theorem execDebugResponse_ev {s0 x3 : State} {x0 x1 x2} (hs0 : Evolves s0 x3) :
    Keeps inOut s0 (execDebugResponse x0 x1 x2 x3) := by
  unfold execDebugResponse
  refine Keeps.ite (stay_ev hs0) ?_
  split
  · extract_lets i _ t
    have ht : Evolves s0 t := Evolves.gated hs0 fun h => ⟨by simp, h.inst, h.range⟩
    split
    · rename_i hc
      refine Keeps.next (setEvent_ev (Evolves.gated ht fun _ => ⟨fun h => absurd (show t.dbg.nonce = none from rfl) h, by simp, ?_⟩))
      simp only [Bool.and_eq_true, decide_eq_true_eq] at hc
      exact hc.1.1
    · exact Keeps.next (refuseDebug_ev ht)
  · exact Keeps.next (refuseDebug_ev hs0)

theorem execAlertResponse_ev {s0 s : State} (h : Evolves s0 s) :
    Keeps inOut s0 (execAlertResponse s) := by
  unfold execAlertResponse
  exact Keeps.next (Evolves.ite (emit_ev h) h)

theorem execSmbusRead_ev {s0 s : State} (h : Evolves s0 s) :
    Keeps inOut s0 (execSmbusRead s) := by
  unfold execSmbusRead
  repeat' first
    | with_reducible assumption
    | with_reducible refine Keeps.ite ?_ ?_
    | with_reducible refine stay_ev ?_
    | with_reducible refine registerRead_ev ?_
    | with_reducible refine emit_ev ?_
    | with_reducible refine Keeps.ofSnd (by assumption) ?_
    | with_reducible refine Keeps.next ?_
    | split

theorem execSmbusSetPointer_ev {s0 x2 : State} {x0 x1} (hs0 : Evolves s0 x2) :
    Keeps inOut s0 (execSmbusSetPointer x0 x1 x2) := by
  unfold execSmbusSetPointer
  refine Keeps.next (Evolves.ite ?_ hs0)
  exact ⟨hs0.queue, hs0.burned, fun _ => Nat.mod_lt _ (by decide), hs0.gate, fun h =>
    let y := hs0.tables h
    ⟨y.regs, y.units, y.rings, y.jobs, y.intakes, y.msix, y.events, y.evtSel, y.evtRes, y.sails, y.lanes, y.cores, y.ports⟩⟩

theorem execSmbusWrite_ev {s0 s : State} {ptr value pecOk} (h : Evolves s0 s) :
    Keeps inOut s0 (execSmbusWrite ptr value pecOk s) := by
  unfold execSmbusWrite
  exact Keeps.next (Evolves.ite (regWrite_ev h) h)

theorem noteQuiet_ev {s0 s : State} (h : Evolves s0 s) :
    Evolves s0 (noteQuiet s) := by
  unfold noteQuiet
  repeat' first
    | with_reducible assumption
    | fail_if_no_progress extract_lets -underBinder +onlyGivenNames _x
    | with_reducible refine Evolves.ite ?_ ?_
    | fail_if_no_progress with_reducible refine Evolves.upd ?_

theorem ownWork_ev {s0 s : State} (h : Evolves s0 s) :
    Evolves s0 (ownWork s) := by
  unfold ownWork
  exact tryLeave_ev (fwdPump_ev (pumpRequests_ev (cardNext_ev (noteQuiet_ev h))))

theorem idleStep_ev {s0 s : State} (h : Evolves s0 s) :
    Evolves s0 (idleStep s) := by
  unfold idleStep
  repeat' first
    | with_reducible assumption
    | (fail_if_no_progress extract_lets -underBinder +onlyGivenNames x)
      refine (fun (hx : Evolves s0 x) => ?_ : Evolves s0 x → _) ?_
      (on_goal 1 => clear_value x)
      (on_goal 2 => simp -zeta only [x])
    | with_reducible refine Evolves.ite ?_ ?_
    | with_reducible refine appendStep_ev ?_
    | with_reducible refine tick_ev ?_
    | with_reducible refine ownWork_ev ?_

end Sys2Proof.Machine
end

