-- ==== Sys2Proof/Laws/Memory.lean ====
section
/-! SUPPORT. The canonical form of the memories: every operation that writes the local memory of a core, its granule tags or the
operand memory of a Sail engine keeps it, and the state after reset has it. -/

namespace Sys2Proof.Laws.Memory

open Sys2Proof.Machine

theorem putBytes_wf {m : Tab Byte} (h : Memory.wf m = true) (a : Nat) (bs : Bytes) : Memory.wf (putBytes m a bs) = true := by
  induction bs generalizing m a with
  | nil => exact h
  | cons b bs ih => exact ih (tset_wf (d := fun _ => 0) h a b) (a + 1)

theorem foldl_tset_wf {t : Tab Bool} (h : Tab.wf (fun _ => false) t = true) (k : Nat) (l : List Nat) :
    Tab.wf (fun _ => false) (l.foldl (fun t i => tset false t (k + i) false) t) = true := by
  induction l generalizing t with
  | nil => exact h
  | cons i l ih => exact ih (tset_wf (d := fun _ => false) h _ _)

theorem clearTags_wf {t : Tab Bool} (h : Tab.wf (fun _ => false) t = true) (a n : Nat) :
    Tab.wf (fun _ => false) (clearTags t a n) = true := by
  unfold clearTags
  split
  · exact h
  · exact foldl_tset_wf h _ _

theorem tget_tdel_same {α : Type} [DecidableEq α] {d : α} {lo : Option Nat} {t : Tab α}
    (h : tabWfFrom (fun _ => d) lo t = true) (k : Nat) : tget d (tdel t k) k = d := by
  induction t generalizing lo with
  | nil => rfl
  | cons e t ih =>
    rw [wf_head] at h
    simp only [tdel]; split
    · rename_i he; exact tget_below (he ▸ h.2.2) (Nat.le_refl _) _
    · rename_i he; simp only [tget, if_neg he]; exact ih h.2.2

theorem tget_tset_same {α : Type} [DecidableEq α] {d : α} {t : Tab α} (h : Tab.wf (fun _ => d) t = true) (k : Nat) (v : α) :
    tget d (tset d t k v) k = v := by
  unfold tset
  split
  · rename_i hv; rw [hv]; exact tget_tdel_same h k
  · exact tget_tput_same _ _ _ _

/-- A core reads back as it was put, in a state whose table of cores is canonical. -/
theorem coreAt_putCore {s : State} (hs : Tab.wf (fun _ => {}) s.cores = true) (p : Nat) (c : Core) :
    coreAt (putCore s p c) p = c := tget_tset_same hs p c

theorem putCore_cores_wf {s : State} (hs : Tab.wf (fun _ => {}) s.cores = true) (p : Nat) (c : Core) :
    Tab.wf (fun _ => {}) (putCore s p c).cores = true := tset_wf (d := fun _ => {}) hs p c

theorem memPut_wf {s : State} {p : Nat} (hs : Tab.wf (fun _ => {}) s.cores = true) (h : Memory.wf (coreAt s p).mem = true)
    (ht : Tab.wf (fun _ => false) (coreAt s p).tags = true) (a : Nat) (bs : Bytes) :
    Memory.wf (coreAt (memPut s p a bs) p).mem = true ∧ Tab.wf (fun _ => false) (coreAt (memPut s p a bs) p).tags = true := by
  simp only [memPut, coreAt_putCore hs]
  exact ⟨putBytes_wf h a bs, clearTags_wf ht a _⟩

theorem memPutTagged_wf {s : State} {p : Nat} (hs : Tab.wf (fun _ => {}) s.cores = true) (h : Memory.wf (coreAt s p).mem = true)
    (ht : Tab.wf (fun _ => false) (coreAt s p).tags = true) (a : Nat) (bs : Bytes) (g : Bool) :
    Memory.wf (coreAt (memPutTagged s p a bs g) p).mem = true ∧
      Tab.wf (fun _ => false) (coreAt (memPutTagged s p a bs g) p).tags = true := by
  have hs' : Tab.wf (fun _ => {}) (memPut s p a bs).cores = true := putCore_cores_wf hs _ _
  simp only [memPutTagged, coreAt_putCore hs']
  exact ⟨(memPut_wf hs h ht a bs).1, tset_wf (d := fun _ => false) (memPut_wf hs h ht a bs).2 _ _⟩

/-- A word written to an engine whose unlisted words read 0. -/
theorem writeWord_wf {e : Sail} (hu : e.unspec = none) (h : Tab.wf (fun _ => 0) e.mem = true) (w : Nat × Nat × SailAttr) :
    Tab.wf (fun _ => 0) (writeWord e w).mem = true := by
  simp only [writeWord, hu, Option.isNone_none, if_true]
  exact tset_wf (d := fun _ => 0) h _ _

/-- A word written to an engine whose unlisted words are free. -/
theorem writeWord_rising {e : Sail} {n : Nat} (hu : e.unspec = some n) (h : risingFrom none e.mem = true) (w : Nat × Nat × SailAttr) :
    risingFrom none (writeWord e w).mem = true := by
  simp only [writeWord, hu]
  exact rising_tput h _ (by intro l hl; cases hl)

theorem reset_memories_wf (p : Nat) :
    Memory.wf (coreAt State.reset p).mem = true ∧ Tab.wf (fun _ => false) (coreAt State.reset p).tags = true ∧
      Tab.wf (fun _ => 0) (sailAt State.reset p).mem = true := ⟨rfl, rfl, rfl⟩

end Sys2Proof.Laws.Memory
end

