-- ==== Sys2Proof/Laws/State.lean ====
section
/-! SUPPORT. What each plain update of the state leaves as it was, field by field, and what a read finds after a write. -/

namespace Sys2Proof.Machine

/-! ### emit -/

section
variable (s : State) (o : Output)
@[simp] theorem emit_pending : (emit s o).pending = s.pending := rfl
@[simp] theorem emit_cycles : (emit s o).cycles = s.cycles := rfl
@[simp] theorem emit_fresh : (emit s o).fresh = s.fresh := rfl
@[simp] theorem emit_regs : (emit s o).regs = s.regs := rfl
@[simp] theorem emit_units : (emit s o).units = s.units := rfl
@[simp] theorem emit_rootSent : (emit s o).rootSent = s.rootSent := rfl
@[simp] theorem emit_rings : (emit s o).rings = s.rings := rfl
@[simp] theorem emit_jobs : (emit s o).jobs = s.jobs := rfl
@[simp] theorem emit_nextSerial : (emit s o).nextSerial = s.nextSerial := rfl
@[simp] theorem emit_intakes : (emit s o).intakes = s.intakes := rfl
@[simp] theorem emit_ballast : (emit s o).ballast = s.ballast := rfl
@[simp] theorem emit_msix : (emit s o).msix = s.msix := rfl
@[simp] theorem emit_kc : (emit s o).kc = s.kc := rfl
@[simp] theorem emit_tether : (emit s o).tether = s.tether := rfl
@[simp] theorem emit_events : (emit s o).events = s.events := rfl
@[simp] theorem emit_evtSel : (emit s o).evtSel = s.evtSel := rfl
@[simp] theorem emit_evtRes : (emit s o).evtRes = s.evtRes := rfl
@[simp] theorem emit_kh : (emit s o).kh = s.kh := rfl
@[simp] theorem emit_audit : (emit s o).audit = s.audit := rfl
@[simp] theorem emit_sails : (emit s o).sails = s.sails := rfl
@[simp] theorem emit_sig : (emit s o).sig = s.sig := rfl
@[simp] theorem emit_lanes : (emit s o).lanes = s.lanes := rfl
@[simp] theorem emit_rng : (emit s o).rng = s.rng := rfl
@[simp] theorem emit_cores : (emit s o).cores = s.cores := rfl
@[simp] theorem emit_mc : (emit s o).mc = s.mc := rfl
@[simp] theorem emit_debug : (emit s o).dbg = s.dbg := rfl
@[simp] theorem emit_im : (emit s o).im = s.im := rfl
@[simp] theorem emit_faults : (emit s o).faults = s.faults := rfl
@[simp] theorem emit_bridle : (emit s o).bridle = s.bridle := rfl
@[simp] theorem emit_tamper : (emit s o).tamper = s.tamper := rfl
@[simp] theorem emit_mooring : (emit s o).mooring = s.mooring := rfl
@[simp] theorem emit_flash : (emit s o).flash = s.flash := rfl
@[simp] theorem emit_ccb : (emit s o).ccb = s.ccb := rfl
@[simp] theorem emit_tag : (emit s o).tag = s.tag := rfl
@[simp] theorem emit_ports : (emit s o).ports = s.ports := rfl
@[simp] theorem emit_power : (emit s o).power = s.power := rfl
@[simp] theorem emit_lc : (emit s o).lc = s.lc := rfl
@[simp] theorem emit_otp : (emit s o).otp = s.otp := rfl
@[simp] theorem emit_otpRegs : (emit s o).otpRegs = s.otpRegs := rfl
@[simp] theorem emit_smbPtr : (emit s o).smbPtr = s.smbPtr := rfl
end

/-! ### putUnit -/

section
variable (s : State) (p : Nat) (u : UnitHdr)
@[simp] theorem putUnit_pending : (putUnit s p u).pending = s.pending := rfl
@[simp] theorem putUnit_cycles : (putUnit s p u).cycles = s.cycles := rfl
@[simp] theorem putUnit_fresh : (putUnit s p u).fresh = s.fresh := rfl
@[simp] theorem putUnit_out : (putUnit s p u).out = s.out := rfl
@[simp] theorem putUnit_regs : (putUnit s p u).regs = s.regs := rfl
@[simp] theorem putUnit_rootSent : (putUnit s p u).rootSent = s.rootSent := rfl
@[simp] theorem putUnit_rings : (putUnit s p u).rings = s.rings := rfl
@[simp] theorem putUnit_jobs : (putUnit s p u).jobs = s.jobs := rfl
@[simp] theorem putUnit_nextSerial : (putUnit s p u).nextSerial = s.nextSerial := rfl
@[simp] theorem putUnit_intakes : (putUnit s p u).intakes = s.intakes := rfl
@[simp] theorem putUnit_ballast : (putUnit s p u).ballast = s.ballast := rfl
@[simp] theorem putUnit_msix : (putUnit s p u).msix = s.msix := rfl
@[simp] theorem putUnit_kc : (putUnit s p u).kc = s.kc := rfl
@[simp] theorem putUnit_tether : (putUnit s p u).tether = s.tether := rfl
@[simp] theorem putUnit_events : (putUnit s p u).events = s.events := rfl
@[simp] theorem putUnit_evtSel : (putUnit s p u).evtSel = s.evtSel := rfl
@[simp] theorem putUnit_evtRes : (putUnit s p u).evtRes = s.evtRes := rfl
@[simp] theorem putUnit_kh : (putUnit s p u).kh = s.kh := rfl
@[simp] theorem putUnit_audit : (putUnit s p u).audit = s.audit := rfl
@[simp] theorem putUnit_sails : (putUnit s p u).sails = s.sails := rfl
@[simp] theorem putUnit_sig : (putUnit s p u).sig = s.sig := rfl
@[simp] theorem putUnit_lanes : (putUnit s p u).lanes = s.lanes := rfl
@[simp] theorem putUnit_rng : (putUnit s p u).rng = s.rng := rfl
@[simp] theorem putUnit_cores : (putUnit s p u).cores = s.cores := rfl
@[simp] theorem putUnit_mc : (putUnit s p u).mc = s.mc := rfl
@[simp] theorem putUnit_debug : (putUnit s p u).dbg = s.dbg := rfl
@[simp] theorem putUnit_im : (putUnit s p u).im = s.im := rfl
@[simp] theorem putUnit_faults : (putUnit s p u).faults = s.faults := rfl
@[simp] theorem putUnit_bridle : (putUnit s p u).bridle = s.bridle := rfl
@[simp] theorem putUnit_tamper : (putUnit s p u).tamper = s.tamper := rfl
@[simp] theorem putUnit_mooring : (putUnit s p u).mooring = s.mooring := rfl
@[simp] theorem putUnit_flash : (putUnit s p u).flash = s.flash := rfl
@[simp] theorem putUnit_ccb : (putUnit s p u).ccb = s.ccb := rfl
@[simp] theorem putUnit_tag : (putUnit s p u).tag = s.tag := rfl
@[simp] theorem putUnit_ports : (putUnit s p u).ports = s.ports := rfl
@[simp] theorem putUnit_power : (putUnit s p u).power = s.power := rfl
@[simp] theorem putUnit_lc : (putUnit s p u).lc = s.lc := rfl
@[simp] theorem putUnit_otp : (putUnit s p u).otp = s.otp := rfl
@[simp] theorem putUnit_otpRegs : (putUnit s p u).otpRegs = s.otpRegs := rfl
@[simp] theorem putUnit_smbPtr : (putUnit s p u).smbPtr = s.smbPtr := rfl
end

/-! ### modUnit -/

section
variable (s : State) (p : Nat) (f : UnitHdr → UnitHdr)
@[simp] theorem modUnit_pending : (modUnit s p f).pending = s.pending := rfl
@[simp] theorem modUnit_cycles : (modUnit s p f).cycles = s.cycles := rfl
@[simp] theorem modUnit_fresh : (modUnit s p f).fresh = s.fresh := rfl
@[simp] theorem modUnit_out : (modUnit s p f).out = s.out := rfl
@[simp] theorem modUnit_regs : (modUnit s p f).regs = s.regs := rfl
@[simp] theorem modUnit_rootSent : (modUnit s p f).rootSent = s.rootSent := rfl
@[simp] theorem modUnit_rings : (modUnit s p f).rings = s.rings := rfl
@[simp] theorem modUnit_jobs : (modUnit s p f).jobs = s.jobs := rfl
@[simp] theorem modUnit_nextSerial : (modUnit s p f).nextSerial = s.nextSerial := rfl
@[simp] theorem modUnit_intakes : (modUnit s p f).intakes = s.intakes := rfl
@[simp] theorem modUnit_ballast : (modUnit s p f).ballast = s.ballast := rfl
@[simp] theorem modUnit_msix : (modUnit s p f).msix = s.msix := rfl
@[simp] theorem modUnit_kc : (modUnit s p f).kc = s.kc := rfl
@[simp] theorem modUnit_tether : (modUnit s p f).tether = s.tether := rfl
@[simp] theorem modUnit_events : (modUnit s p f).events = s.events := rfl
@[simp] theorem modUnit_evtSel : (modUnit s p f).evtSel = s.evtSel := rfl
@[simp] theorem modUnit_evtRes : (modUnit s p f).evtRes = s.evtRes := rfl
@[simp] theorem modUnit_kh : (modUnit s p f).kh = s.kh := rfl
@[simp] theorem modUnit_audit : (modUnit s p f).audit = s.audit := rfl
@[simp] theorem modUnit_sails : (modUnit s p f).sails = s.sails := rfl
@[simp] theorem modUnit_sig : (modUnit s p f).sig = s.sig := rfl
@[simp] theorem modUnit_lanes : (modUnit s p f).lanes = s.lanes := rfl
@[simp] theorem modUnit_rng : (modUnit s p f).rng = s.rng := rfl
@[simp] theorem modUnit_cores : (modUnit s p f).cores = s.cores := rfl
@[simp] theorem modUnit_mc : (modUnit s p f).mc = s.mc := rfl
@[simp] theorem modUnit_debug : (modUnit s p f).dbg = s.dbg := rfl
@[simp] theorem modUnit_im : (modUnit s p f).im = s.im := rfl
@[simp] theorem modUnit_faults : (modUnit s p f).faults = s.faults := rfl
@[simp] theorem modUnit_bridle : (modUnit s p f).bridle = s.bridle := rfl
@[simp] theorem modUnit_tamper : (modUnit s p f).tamper = s.tamper := rfl
@[simp] theorem modUnit_mooring : (modUnit s p f).mooring = s.mooring := rfl
@[simp] theorem modUnit_flash : (modUnit s p f).flash = s.flash := rfl
@[simp] theorem modUnit_ccb : (modUnit s p f).ccb = s.ccb := rfl
@[simp] theorem modUnit_tag : (modUnit s p f).tag = s.tag := rfl
@[simp] theorem modUnit_ports : (modUnit s p f).ports = s.ports := rfl
@[simp] theorem modUnit_power : (modUnit s p f).power = s.power := rfl
@[simp] theorem modUnit_lc : (modUnit s p f).lc = s.lc := rfl
@[simp] theorem modUnit_otp : (modUnit s p f).otp = s.otp := rfl
@[simp] theorem modUnit_otpRegs : (modUnit s p f).otpRegs = s.otpRegs := rfl
@[simp] theorem modUnit_smbPtr : (modUnit s p f).smbPtr = s.smbPtr := rfl
end

/-! ### putRing -/

section
variable (s : State) (k : Nat) (r : Ring)
@[simp] theorem putRing_pending : (putRing s k r).pending = s.pending := rfl
@[simp] theorem putRing_cycles : (putRing s k r).cycles = s.cycles := rfl
@[simp] theorem putRing_fresh : (putRing s k r).fresh = s.fresh := rfl
@[simp] theorem putRing_out : (putRing s k r).out = s.out := rfl
@[simp] theorem putRing_regs : (putRing s k r).regs = s.regs := rfl
@[simp] theorem putRing_units : (putRing s k r).units = s.units := rfl
@[simp] theorem putRing_rootSent : (putRing s k r).rootSent = s.rootSent := rfl
@[simp] theorem putRing_jobs : (putRing s k r).jobs = s.jobs := rfl
@[simp] theorem putRing_nextSerial : (putRing s k r).nextSerial = s.nextSerial := rfl
@[simp] theorem putRing_intakes : (putRing s k r).intakes = s.intakes := rfl
@[simp] theorem putRing_ballast : (putRing s k r).ballast = s.ballast := rfl
@[simp] theorem putRing_msix : (putRing s k r).msix = s.msix := rfl
@[simp] theorem putRing_kc : (putRing s k r).kc = s.kc := rfl
@[simp] theorem putRing_tether : (putRing s k r).tether = s.tether := rfl
@[simp] theorem putRing_events : (putRing s k r).events = s.events := rfl
@[simp] theorem putRing_evtSel : (putRing s k r).evtSel = s.evtSel := rfl
@[simp] theorem putRing_evtRes : (putRing s k r).evtRes = s.evtRes := rfl
@[simp] theorem putRing_kh : (putRing s k r).kh = s.kh := rfl
@[simp] theorem putRing_audit : (putRing s k r).audit = s.audit := rfl
@[simp] theorem putRing_sails : (putRing s k r).sails = s.sails := rfl
@[simp] theorem putRing_sig : (putRing s k r).sig = s.sig := rfl
@[simp] theorem putRing_lanes : (putRing s k r).lanes = s.lanes := rfl
@[simp] theorem putRing_rng : (putRing s k r).rng = s.rng := rfl
@[simp] theorem putRing_cores : (putRing s k r).cores = s.cores := rfl
@[simp] theorem putRing_mc : (putRing s k r).mc = s.mc := rfl
@[simp] theorem putRing_debug : (putRing s k r).dbg = s.dbg := rfl
@[simp] theorem putRing_im : (putRing s k r).im = s.im := rfl
@[simp] theorem putRing_faults : (putRing s k r).faults = s.faults := rfl
@[simp] theorem putRing_bridle : (putRing s k r).bridle = s.bridle := rfl
@[simp] theorem putRing_tamper : (putRing s k r).tamper = s.tamper := rfl
@[simp] theorem putRing_mooring : (putRing s k r).mooring = s.mooring := rfl
@[simp] theorem putRing_flash : (putRing s k r).flash = s.flash := rfl
@[simp] theorem putRing_ccb : (putRing s k r).ccb = s.ccb := rfl
@[simp] theorem putRing_tag : (putRing s k r).tag = s.tag := rfl
@[simp] theorem putRing_ports : (putRing s k r).ports = s.ports := rfl
@[simp] theorem putRing_power : (putRing s k r).power = s.power := rfl
@[simp] theorem putRing_lc : (putRing s k r).lc = s.lc := rfl
@[simp] theorem putRing_otp : (putRing s k r).otp = s.otp := rfl
@[simp] theorem putRing_otpRegs : (putRing s k r).otpRegs = s.otpRegs := rfl
@[simp] theorem putRing_smbPtr : (putRing s k r).smbPtr = s.smbPtr := rfl
end

/-! ### putIntake -/

section
variable (s : State) (c : Nat) (x : Intake)
@[simp] theorem putIntake_pending : (putIntake s c x).pending = s.pending := rfl
@[simp] theorem putIntake_cycles : (putIntake s c x).cycles = s.cycles := rfl
@[simp] theorem putIntake_fresh : (putIntake s c x).fresh = s.fresh := rfl
@[simp] theorem putIntake_out : (putIntake s c x).out = s.out := rfl
@[simp] theorem putIntake_regs : (putIntake s c x).regs = s.regs := rfl
@[simp] theorem putIntake_units : (putIntake s c x).units = s.units := rfl
@[simp] theorem putIntake_rootSent : (putIntake s c x).rootSent = s.rootSent := rfl
@[simp] theorem putIntake_rings : (putIntake s c x).rings = s.rings := rfl
@[simp] theorem putIntake_jobs : (putIntake s c x).jobs = s.jobs := rfl
@[simp] theorem putIntake_nextSerial : (putIntake s c x).nextSerial = s.nextSerial := rfl
@[simp] theorem putIntake_ballast : (putIntake s c x).ballast = s.ballast := rfl
@[simp] theorem putIntake_msix : (putIntake s c x).msix = s.msix := rfl
@[simp] theorem putIntake_kc : (putIntake s c x).kc = s.kc := rfl
@[simp] theorem putIntake_tether : (putIntake s c x).tether = s.tether := rfl
@[simp] theorem putIntake_events : (putIntake s c x).events = s.events := rfl
@[simp] theorem putIntake_evtSel : (putIntake s c x).evtSel = s.evtSel := rfl
@[simp] theorem putIntake_evtRes : (putIntake s c x).evtRes = s.evtRes := rfl
@[simp] theorem putIntake_kh : (putIntake s c x).kh = s.kh := rfl
@[simp] theorem putIntake_audit : (putIntake s c x).audit = s.audit := rfl
@[simp] theorem putIntake_sails : (putIntake s c x).sails = s.sails := rfl
@[simp] theorem putIntake_sig : (putIntake s c x).sig = s.sig := rfl
@[simp] theorem putIntake_lanes : (putIntake s c x).lanes = s.lanes := rfl
@[simp] theorem putIntake_rng : (putIntake s c x).rng = s.rng := rfl
@[simp] theorem putIntake_cores : (putIntake s c x).cores = s.cores := rfl
@[simp] theorem putIntake_mc : (putIntake s c x).mc = s.mc := rfl
@[simp] theorem putIntake_debug : (putIntake s c x).dbg = s.dbg := rfl
@[simp] theorem putIntake_im : (putIntake s c x).im = s.im := rfl
@[simp] theorem putIntake_faults : (putIntake s c x).faults = s.faults := rfl
@[simp] theorem putIntake_bridle : (putIntake s c x).bridle = s.bridle := rfl
@[simp] theorem putIntake_tamper : (putIntake s c x).tamper = s.tamper := rfl
@[simp] theorem putIntake_mooring : (putIntake s c x).mooring = s.mooring := rfl
@[simp] theorem putIntake_flash : (putIntake s c x).flash = s.flash := rfl
@[simp] theorem putIntake_ccb : (putIntake s c x).ccb = s.ccb := rfl
@[simp] theorem putIntake_tag : (putIntake s c x).tag = s.tag := rfl
@[simp] theorem putIntake_ports : (putIntake s c x).ports = s.ports := rfl
@[simp] theorem putIntake_power : (putIntake s c x).power = s.power := rfl
@[simp] theorem putIntake_lc : (putIntake s c x).lc = s.lc := rfl
@[simp] theorem putIntake_otp : (putIntake s c x).otp = s.otp := rfl
@[simp] theorem putIntake_otpRegs : (putIntake s c x).otpRegs = s.otpRegs := rfl
@[simp] theorem putIntake_smbPtr : (putIntake s c x).smbPtr = s.smbPtr := rfl
end

/-! ### putInst -/

section
variable (s : State) (i : Nat) (x : Inst)
@[simp] theorem putInst_pending : (putInst s i x).pending = s.pending := rfl
@[simp] theorem putInst_cycles : (putInst s i x).cycles = s.cycles := rfl
@[simp] theorem putInst_fresh : (putInst s i x).fresh = s.fresh := rfl
@[simp] theorem putInst_out : (putInst s i x).out = s.out := rfl
@[simp] theorem putInst_regs : (putInst s i x).regs = s.regs := rfl
@[simp] theorem putInst_units : (putInst s i x).units = s.units := rfl
@[simp] theorem putInst_rootSent : (putInst s i x).rootSent = s.rootSent := rfl
@[simp] theorem putInst_rings : (putInst s i x).rings = s.rings := rfl
@[simp] theorem putInst_jobs : (putInst s i x).jobs = s.jobs := rfl
@[simp] theorem putInst_nextSerial : (putInst s i x).nextSerial = s.nextSerial := rfl
@[simp] theorem putInst_intakes : (putInst s i x).intakes = s.intakes := rfl
@[simp] theorem putInst_ballast : (putInst s i x).ballast = s.ballast := rfl
@[simp] theorem putInst_msix : (putInst s i x).msix = s.msix := rfl
@[simp] theorem putInst_kc : (putInst s i x).kc = s.kc := rfl
@[simp] theorem putInst_tether : (putInst s i x).tether = s.tether := rfl
@[simp] theorem putInst_events : (putInst s i x).events = s.events := rfl
@[simp] theorem putInst_evtSel : (putInst s i x).evtSel = s.evtSel := rfl
@[simp] theorem putInst_evtRes : (putInst s i x).evtRes = s.evtRes := rfl
@[simp] theorem putInst_kh : (putInst s i x).kh = s.kh := rfl
@[simp] theorem putInst_audit : (putInst s i x).audit = s.audit := rfl
@[simp] theorem putInst_sails : (putInst s i x).sails = s.sails := rfl
@[simp] theorem putInst_sig : (putInst s i x).sig = s.sig := rfl
@[simp] theorem putInst_lanes : (putInst s i x).lanes = s.lanes := rfl
@[simp] theorem putInst_rng : (putInst s i x).rng = s.rng := rfl
@[simp] theorem putInst_cores : (putInst s i x).cores = s.cores := rfl
@[simp] theorem putInst_mc : (putInst s i x).mc = s.mc := rfl
@[simp] theorem putInst_debug : (putInst s i x).dbg = s.dbg := rfl
@[simp] theorem putInst_faults : (putInst s i x).faults = s.faults := rfl
@[simp] theorem putInst_bridle : (putInst s i x).bridle = s.bridle := rfl
@[simp] theorem putInst_tamper : (putInst s i x).tamper = s.tamper := rfl
@[simp] theorem putInst_mooring : (putInst s i x).mooring = s.mooring := rfl
@[simp] theorem putInst_flash : (putInst s i x).flash = s.flash := rfl
@[simp] theorem putInst_ccb : (putInst s i x).ccb = s.ccb := rfl
@[simp] theorem putInst_tag : (putInst s i x).tag = s.tag := rfl
@[simp] theorem putInst_ports : (putInst s i x).ports = s.ports := rfl
@[simp] theorem putInst_power : (putInst s i x).power = s.power := rfl
@[simp] theorem putInst_lc : (putInst s i x).lc = s.lc := rfl
@[simp] theorem putInst_otp : (putInst s i x).otp = s.otp := rfl
@[simp] theorem putInst_otpRegs : (putInst s i x).otpRegs = s.otpRegs := rfl
@[simp] theorem putInst_smbPtr : (putInst s i x).smbPtr = s.smbPtr := rfl
end

/-! ### putSource -/

section
variable (s : State) (i : Nat) (x : Source)
@[simp] theorem putSource_pending : (putSource s i x).pending = s.pending := rfl
@[simp] theorem putSource_cycles : (putSource s i x).cycles = s.cycles := rfl
@[simp] theorem putSource_fresh : (putSource s i x).fresh = s.fresh := rfl
@[simp] theorem putSource_out : (putSource s i x).out = s.out := rfl
@[simp] theorem putSource_regs : (putSource s i x).regs = s.regs := rfl
@[simp] theorem putSource_units : (putSource s i x).units = s.units := rfl
@[simp] theorem putSource_rootSent : (putSource s i x).rootSent = s.rootSent := rfl
@[simp] theorem putSource_rings : (putSource s i x).rings = s.rings := rfl
@[simp] theorem putSource_jobs : (putSource s i x).jobs = s.jobs := rfl
@[simp] theorem putSource_nextSerial : (putSource s i x).nextSerial = s.nextSerial := rfl
@[simp] theorem putSource_intakes : (putSource s i x).intakes = s.intakes := rfl
@[simp] theorem putSource_ballast : (putSource s i x).ballast = s.ballast := rfl
@[simp] theorem putSource_msix : (putSource s i x).msix = s.msix := rfl
@[simp] theorem putSource_kc : (putSource s i x).kc = s.kc := rfl
@[simp] theorem putSource_tether : (putSource s i x).tether = s.tether := rfl
@[simp] theorem putSource_events : (putSource s i x).events = s.events := rfl
@[simp] theorem putSource_evtSel : (putSource s i x).evtSel = s.evtSel := rfl
@[simp] theorem putSource_evtRes : (putSource s i x).evtRes = s.evtRes := rfl
@[simp] theorem putSource_kh : (putSource s i x).kh = s.kh := rfl
@[simp] theorem putSource_audit : (putSource s i x).audit = s.audit := rfl
@[simp] theorem putSource_sails : (putSource s i x).sails = s.sails := rfl
@[simp] theorem putSource_sig : (putSource s i x).sig = s.sig := rfl
@[simp] theorem putSource_lanes : (putSource s i x).lanes = s.lanes := rfl
@[simp] theorem putSource_cores : (putSource s i x).cores = s.cores := rfl
@[simp] theorem putSource_mc : (putSource s i x).mc = s.mc := rfl
@[simp] theorem putSource_debug : (putSource s i x).dbg = s.dbg := rfl
@[simp] theorem putSource_im : (putSource s i x).im = s.im := rfl
@[simp] theorem putSource_faults : (putSource s i x).faults = s.faults := rfl
@[simp] theorem putSource_bridle : (putSource s i x).bridle = s.bridle := rfl
@[simp] theorem putSource_tamper : (putSource s i x).tamper = s.tamper := rfl
@[simp] theorem putSource_mooring : (putSource s i x).mooring = s.mooring := rfl
@[simp] theorem putSource_flash : (putSource s i x).flash = s.flash := rfl
@[simp] theorem putSource_ccb : (putSource s i x).ccb = s.ccb := rfl
@[simp] theorem putSource_tag : (putSource s i x).tag = s.tag := rfl
@[simp] theorem putSource_ports : (putSource s i x).ports = s.ports := rfl
@[simp] theorem putSource_power : (putSource s i x).power = s.power := rfl
@[simp] theorem putSource_lc : (putSource s i x).lc = s.lc := rfl
@[simp] theorem putSource_otp : (putSource s i x).otp = s.otp := rfl
@[simp] theorem putSource_otpRegs : (putSource s i x).otpRegs = s.otpRegs := rfl
@[simp] theorem putSource_smbPtr : (putSource s i x).smbPtr = s.smbPtr := rfl
end

/-! ### putDrbg -/

section
variable (s : State) (d : Nat) (x : Drbg)
@[simp] theorem putDrbg_pending : (putDrbg s d x).pending = s.pending := rfl
@[simp] theorem putDrbg_cycles : (putDrbg s d x).cycles = s.cycles := rfl
@[simp] theorem putDrbg_fresh : (putDrbg s d x).fresh = s.fresh := rfl
@[simp] theorem putDrbg_out : (putDrbg s d x).out = s.out := rfl
@[simp] theorem putDrbg_regs : (putDrbg s d x).regs = s.regs := rfl
@[simp] theorem putDrbg_units : (putDrbg s d x).units = s.units := rfl
@[simp] theorem putDrbg_rootSent : (putDrbg s d x).rootSent = s.rootSent := rfl
@[simp] theorem putDrbg_rings : (putDrbg s d x).rings = s.rings := rfl
@[simp] theorem putDrbg_jobs : (putDrbg s d x).jobs = s.jobs := rfl
@[simp] theorem putDrbg_nextSerial : (putDrbg s d x).nextSerial = s.nextSerial := rfl
@[simp] theorem putDrbg_intakes : (putDrbg s d x).intakes = s.intakes := rfl
@[simp] theorem putDrbg_ballast : (putDrbg s d x).ballast = s.ballast := rfl
@[simp] theorem putDrbg_msix : (putDrbg s d x).msix = s.msix := rfl
@[simp] theorem putDrbg_kc : (putDrbg s d x).kc = s.kc := rfl
@[simp] theorem putDrbg_tether : (putDrbg s d x).tether = s.tether := rfl
@[simp] theorem putDrbg_events : (putDrbg s d x).events = s.events := rfl
@[simp] theorem putDrbg_evtSel : (putDrbg s d x).evtSel = s.evtSel := rfl
@[simp] theorem putDrbg_evtRes : (putDrbg s d x).evtRes = s.evtRes := rfl
@[simp] theorem putDrbg_kh : (putDrbg s d x).kh = s.kh := rfl
@[simp] theorem putDrbg_audit : (putDrbg s d x).audit = s.audit := rfl
@[simp] theorem putDrbg_sails : (putDrbg s d x).sails = s.sails := rfl
@[simp] theorem putDrbg_sig : (putDrbg s d x).sig = s.sig := rfl
@[simp] theorem putDrbg_lanes : (putDrbg s d x).lanes = s.lanes := rfl
@[simp] theorem putDrbg_cores : (putDrbg s d x).cores = s.cores := rfl
@[simp] theorem putDrbg_mc : (putDrbg s d x).mc = s.mc := rfl
@[simp] theorem putDrbg_debug : (putDrbg s d x).dbg = s.dbg := rfl
@[simp] theorem putDrbg_im : (putDrbg s d x).im = s.im := rfl
@[simp] theorem putDrbg_faults : (putDrbg s d x).faults = s.faults := rfl
@[simp] theorem putDrbg_bridle : (putDrbg s d x).bridle = s.bridle := rfl
@[simp] theorem putDrbg_tamper : (putDrbg s d x).tamper = s.tamper := rfl
@[simp] theorem putDrbg_mooring : (putDrbg s d x).mooring = s.mooring := rfl
@[simp] theorem putDrbg_flash : (putDrbg s d x).flash = s.flash := rfl
@[simp] theorem putDrbg_ccb : (putDrbg s d x).ccb = s.ccb := rfl
@[simp] theorem putDrbg_tag : (putDrbg s d x).tag = s.tag := rfl
@[simp] theorem putDrbg_ports : (putDrbg s d x).ports = s.ports := rfl
@[simp] theorem putDrbg_power : (putDrbg s d x).power = s.power := rfl
@[simp] theorem putDrbg_lc : (putDrbg s d x).lc = s.lc := rfl
@[simp] theorem putDrbg_otp : (putDrbg s d x).otp = s.otp := rfl
@[simp] theorem putDrbg_otpRegs : (putDrbg s d x).otpRegs = s.otpRegs := rfl
@[simp] theorem putDrbg_smbPtr : (putDrbg s d x).smbPtr = s.smbPtr := rfl
end

/-! ### putLog -/

section
variable (s : State) (i : Nat) (l : Log)
@[simp] theorem putLog_pending : (putLog s i l).pending = s.pending := rfl
@[simp] theorem putLog_cycles : (putLog s i l).cycles = s.cycles := rfl
@[simp] theorem putLog_fresh : (putLog s i l).fresh = s.fresh := rfl
@[simp] theorem putLog_out : (putLog s i l).out = s.out := rfl
@[simp] theorem putLog_regs : (putLog s i l).regs = s.regs := rfl
@[simp] theorem putLog_units : (putLog s i l).units = s.units := rfl
@[simp] theorem putLog_rootSent : (putLog s i l).rootSent = s.rootSent := rfl
@[simp] theorem putLog_rings : (putLog s i l).rings = s.rings := rfl
@[simp] theorem putLog_jobs : (putLog s i l).jobs = s.jobs := rfl
@[simp] theorem putLog_nextSerial : (putLog s i l).nextSerial = s.nextSerial := rfl
@[simp] theorem putLog_intakes : (putLog s i l).intakes = s.intakes := rfl
@[simp] theorem putLog_ballast : (putLog s i l).ballast = s.ballast := rfl
@[simp] theorem putLog_msix : (putLog s i l).msix = s.msix := rfl
@[simp] theorem putLog_kc : (putLog s i l).kc = s.kc := rfl
@[simp] theorem putLog_tether : (putLog s i l).tether = s.tether := rfl
@[simp] theorem putLog_events : (putLog s i l).events = s.events := rfl
@[simp] theorem putLog_evtSel : (putLog s i l).evtSel = s.evtSel := rfl
@[simp] theorem putLog_evtRes : (putLog s i l).evtRes = s.evtRes := rfl
@[simp] theorem putLog_kh : (putLog s i l).kh = s.kh := rfl
@[simp] theorem putLog_sails : (putLog s i l).sails = s.sails := rfl
@[simp] theorem putLog_sig : (putLog s i l).sig = s.sig := rfl
@[simp] theorem putLog_lanes : (putLog s i l).lanes = s.lanes := rfl
@[simp] theorem putLog_rng : (putLog s i l).rng = s.rng := rfl
@[simp] theorem putLog_cores : (putLog s i l).cores = s.cores := rfl
@[simp] theorem putLog_mc : (putLog s i l).mc = s.mc := rfl
@[simp] theorem putLog_debug : (putLog s i l).dbg = s.dbg := rfl
@[simp] theorem putLog_im : (putLog s i l).im = s.im := rfl
@[simp] theorem putLog_faults : (putLog s i l).faults = s.faults := rfl
@[simp] theorem putLog_bridle : (putLog s i l).bridle = s.bridle := rfl
@[simp] theorem putLog_tamper : (putLog s i l).tamper = s.tamper := rfl
@[simp] theorem putLog_mooring : (putLog s i l).mooring = s.mooring := rfl
@[simp] theorem putLog_flash : (putLog s i l).flash = s.flash := rfl
@[simp] theorem putLog_ccb : (putLog s i l).ccb = s.ccb := rfl
@[simp] theorem putLog_tag : (putLog s i l).tag = s.tag := rfl
@[simp] theorem putLog_ports : (putLog s i l).ports = s.ports := rfl
@[simp] theorem putLog_power : (putLog s i l).power = s.power := rfl
@[simp] theorem putLog_lc : (putLog s i l).lc = s.lc := rfl
@[simp] theorem putLog_otp : (putLog s i l).otp = s.otp := rfl
@[simp] theorem putLog_otpRegs : (putLog s i l).otpRegs = s.otpRegs := rfl
@[simp] theorem putLog_smbPtr : (putLog s i l).smbPtr = s.smbPtr := rfl
end

/-! ### putPort -/

section
variable (s : State) (c : Nat) (p : AuditPort)
@[simp] theorem putPort_pending : (putPort s c p).pending = s.pending := rfl
@[simp] theorem putPort_cycles : (putPort s c p).cycles = s.cycles := rfl
@[simp] theorem putPort_fresh : (putPort s c p).fresh = s.fresh := rfl
@[simp] theorem putPort_out : (putPort s c p).out = s.out := rfl
@[simp] theorem putPort_regs : (putPort s c p).regs = s.regs := rfl
@[simp] theorem putPort_units : (putPort s c p).units = s.units := rfl
@[simp] theorem putPort_rootSent : (putPort s c p).rootSent = s.rootSent := rfl
@[simp] theorem putPort_rings : (putPort s c p).rings = s.rings := rfl
@[simp] theorem putPort_jobs : (putPort s c p).jobs = s.jobs := rfl
@[simp] theorem putPort_nextSerial : (putPort s c p).nextSerial = s.nextSerial := rfl
@[simp] theorem putPort_intakes : (putPort s c p).intakes = s.intakes := rfl
@[simp] theorem putPort_ballast : (putPort s c p).ballast = s.ballast := rfl
@[simp] theorem putPort_msix : (putPort s c p).msix = s.msix := rfl
@[simp] theorem putPort_kc : (putPort s c p).kc = s.kc := rfl
@[simp] theorem putPort_tether : (putPort s c p).tether = s.tether := rfl
@[simp] theorem putPort_events : (putPort s c p).events = s.events := rfl
@[simp] theorem putPort_evtSel : (putPort s c p).evtSel = s.evtSel := rfl
@[simp] theorem putPort_evtRes : (putPort s c p).evtRes = s.evtRes := rfl
@[simp] theorem putPort_kh : (putPort s c p).kh = s.kh := rfl
@[simp] theorem putPort_sails : (putPort s c p).sails = s.sails := rfl
@[simp] theorem putPort_sig : (putPort s c p).sig = s.sig := rfl
@[simp] theorem putPort_lanes : (putPort s c p).lanes = s.lanes := rfl
@[simp] theorem putPort_rng : (putPort s c p).rng = s.rng := rfl
@[simp] theorem putPort_cores : (putPort s c p).cores = s.cores := rfl
@[simp] theorem putPort_mc : (putPort s c p).mc = s.mc := rfl
@[simp] theorem putPort_debug : (putPort s c p).dbg = s.dbg := rfl
@[simp] theorem putPort_im : (putPort s c p).im = s.im := rfl
@[simp] theorem putPort_faults : (putPort s c p).faults = s.faults := rfl
@[simp] theorem putPort_bridle : (putPort s c p).bridle = s.bridle := rfl
@[simp] theorem putPort_tamper : (putPort s c p).tamper = s.tamper := rfl
@[simp] theorem putPort_mooring : (putPort s c p).mooring = s.mooring := rfl
@[simp] theorem putPort_flash : (putPort s c p).flash = s.flash := rfl
@[simp] theorem putPort_ccb : (putPort s c p).ccb = s.ccb := rfl
@[simp] theorem putPort_tag : (putPort s c p).tag = s.tag := rfl
@[simp] theorem putPort_ports : (putPort s c p).ports = s.ports := rfl
@[simp] theorem putPort_power : (putPort s c p).power = s.power := rfl
@[simp] theorem putPort_lc : (putPort s c p).lc = s.lc := rfl
@[simp] theorem putPort_otp : (putPort s c p).otp = s.otp := rfl
@[simp] theorem putPort_otpRegs : (putPort s c p).otpRegs = s.otpRegs := rfl
@[simp] theorem putPort_smbPtr : (putPort s c p).smbPtr = s.smbPtr := rfl
end

/-! ### putSail -/

section
variable (s : State) (p : Nat) (e : Sail)
@[simp] theorem putSail_pending : (putSail s p e).pending = s.pending := rfl
@[simp] theorem putSail_cycles : (putSail s p e).cycles = s.cycles := rfl
@[simp] theorem putSail_fresh : (putSail s p e).fresh = s.fresh := rfl
@[simp] theorem putSail_out : (putSail s p e).out = s.out := rfl
@[simp] theorem putSail_regs : (putSail s p e).regs = s.regs := rfl
@[simp] theorem putSail_units : (putSail s p e).units = s.units := rfl
@[simp] theorem putSail_rootSent : (putSail s p e).rootSent = s.rootSent := rfl
@[simp] theorem putSail_rings : (putSail s p e).rings = s.rings := rfl
@[simp] theorem putSail_jobs : (putSail s p e).jobs = s.jobs := rfl
@[simp] theorem putSail_nextSerial : (putSail s p e).nextSerial = s.nextSerial := rfl
@[simp] theorem putSail_intakes : (putSail s p e).intakes = s.intakes := rfl
@[simp] theorem putSail_ballast : (putSail s p e).ballast = s.ballast := rfl
@[simp] theorem putSail_msix : (putSail s p e).msix = s.msix := rfl
@[simp] theorem putSail_kc : (putSail s p e).kc = s.kc := rfl
@[simp] theorem putSail_tether : (putSail s p e).tether = s.tether := rfl
@[simp] theorem putSail_events : (putSail s p e).events = s.events := rfl
@[simp] theorem putSail_evtSel : (putSail s p e).evtSel = s.evtSel := rfl
@[simp] theorem putSail_evtRes : (putSail s p e).evtRes = s.evtRes := rfl
@[simp] theorem putSail_kh : (putSail s p e).kh = s.kh := rfl
@[simp] theorem putSail_audit : (putSail s p e).audit = s.audit := rfl
@[simp] theorem putSail_sig : (putSail s p e).sig = s.sig := rfl
@[simp] theorem putSail_lanes : (putSail s p e).lanes = s.lanes := rfl
@[simp] theorem putSail_rng : (putSail s p e).rng = s.rng := rfl
@[simp] theorem putSail_cores : (putSail s p e).cores = s.cores := rfl
@[simp] theorem putSail_mc : (putSail s p e).mc = s.mc := rfl
@[simp] theorem putSail_debug : (putSail s p e).dbg = s.dbg := rfl
@[simp] theorem putSail_im : (putSail s p e).im = s.im := rfl
@[simp] theorem putSail_faults : (putSail s p e).faults = s.faults := rfl
@[simp] theorem putSail_bridle : (putSail s p e).bridle = s.bridle := rfl
@[simp] theorem putSail_tamper : (putSail s p e).tamper = s.tamper := rfl
@[simp] theorem putSail_mooring : (putSail s p e).mooring = s.mooring := rfl
@[simp] theorem putSail_flash : (putSail s p e).flash = s.flash := rfl
@[simp] theorem putSail_ccb : (putSail s p e).ccb = s.ccb := rfl
@[simp] theorem putSail_tag : (putSail s p e).tag = s.tag := rfl
@[simp] theorem putSail_ports : (putSail s p e).ports = s.ports := rfl
@[simp] theorem putSail_power : (putSail s p e).power = s.power := rfl
@[simp] theorem putSail_lc : (putSail s p e).lc = s.lc := rfl
@[simp] theorem putSail_otp : (putSail s p e).otp = s.otp := rfl
@[simp] theorem putSail_otpRegs : (putSail s p e).otpRegs = s.otpRegs := rfl
@[simp] theorem putSail_smbPtr : (putSail s p e).smbPtr = s.smbPtr := rfl
end

/-! ### putChan -/

section
variable (s : State) (c : Nat) (x : Chan)
@[simp] theorem putChan_pending : (putChan s c x).pending = s.pending := rfl
@[simp] theorem putChan_cycles : (putChan s c x).cycles = s.cycles := rfl
@[simp] theorem putChan_fresh : (putChan s c x).fresh = s.fresh := rfl
@[simp] theorem putChan_out : (putChan s c x).out = s.out := rfl
@[simp] theorem putChan_regs : (putChan s c x).regs = s.regs := rfl
@[simp] theorem putChan_units : (putChan s c x).units = s.units := rfl
@[simp] theorem putChan_rootSent : (putChan s c x).rootSent = s.rootSent := rfl
@[simp] theorem putChan_rings : (putChan s c x).rings = s.rings := rfl
@[simp] theorem putChan_jobs : (putChan s c x).jobs = s.jobs := rfl
@[simp] theorem putChan_nextSerial : (putChan s c x).nextSerial = s.nextSerial := rfl
@[simp] theorem putChan_intakes : (putChan s c x).intakes = s.intakes := rfl
@[simp] theorem putChan_ballast : (putChan s c x).ballast = s.ballast := rfl
@[simp] theorem putChan_msix : (putChan s c x).msix = s.msix := rfl
@[simp] theorem putChan_kc : (putChan s c x).kc = s.kc := rfl
@[simp] theorem putChan_tether : (putChan s c x).tether = s.tether := rfl
@[simp] theorem putChan_events : (putChan s c x).events = s.events := rfl
@[simp] theorem putChan_evtSel : (putChan s c x).evtSel = s.evtSel := rfl
@[simp] theorem putChan_evtRes : (putChan s c x).evtRes = s.evtRes := rfl
@[simp] theorem putChan_kh : (putChan s c x).kh = s.kh := rfl
@[simp] theorem putChan_audit : (putChan s c x).audit = s.audit := rfl
@[simp] theorem putChan_sails : (putChan s c x).sails = s.sails := rfl
@[simp] theorem putChan_sig : (putChan s c x).sig = s.sig := rfl
@[simp] theorem putChan_lanes : (putChan s c x).lanes = s.lanes := rfl
@[simp] theorem putChan_rng : (putChan s c x).rng = s.rng := rfl
@[simp] theorem putChan_cores : (putChan s c x).cores = s.cores := rfl
@[simp] theorem putChan_mc : (putChan s c x).mc = s.mc := rfl
@[simp] theorem putChan_debug : (putChan s c x).dbg = s.dbg := rfl
@[simp] theorem putChan_im : (putChan s c x).im = s.im := rfl
@[simp] theorem putChan_bridle : (putChan s c x).bridle = s.bridle := rfl
@[simp] theorem putChan_tamper : (putChan s c x).tamper = s.tamper := rfl
@[simp] theorem putChan_mooring : (putChan s c x).mooring = s.mooring := rfl
@[simp] theorem putChan_flash : (putChan s c x).flash = s.flash := rfl
@[simp] theorem putChan_ccb : (putChan s c x).ccb = s.ccb := rfl
@[simp] theorem putChan_tag : (putChan s c x).tag = s.tag := rfl
@[simp] theorem putChan_ports : (putChan s c x).ports = s.ports := rfl
@[simp] theorem putChan_power : (putChan s c x).power = s.power := rfl
@[simp] theorem putChan_lc : (putChan s c x).lc = s.lc := rfl
@[simp] theorem putChan_otp : (putChan s c x).otp = s.otp := rfl
@[simp] theorem putChan_otpRegs : (putChan s c x).otpRegs = s.otpRegs := rfl
@[simp] theorem putChan_smbPtr : (putChan s c x).smbPtr = s.smbPtr := rfl
end

/-! ### putOwn -/

section
variable (s : State) (k : Nat) (o : OwnSig)
@[simp] theorem putOwn_pending : (putOwn s k o).pending = s.pending := rfl
@[simp] theorem putOwn_cycles : (putOwn s k o).cycles = s.cycles := rfl
@[simp] theorem putOwn_fresh : (putOwn s k o).fresh = s.fresh := rfl
@[simp] theorem putOwn_out : (putOwn s k o).out = s.out := rfl
@[simp] theorem putOwn_regs : (putOwn s k o).regs = s.regs := rfl
@[simp] theorem putOwn_units : (putOwn s k o).units = s.units := rfl
@[simp] theorem putOwn_rootSent : (putOwn s k o).rootSent = s.rootSent := rfl
@[simp] theorem putOwn_rings : (putOwn s k o).rings = s.rings := rfl
@[simp] theorem putOwn_jobs : (putOwn s k o).jobs = s.jobs := rfl
@[simp] theorem putOwn_nextSerial : (putOwn s k o).nextSerial = s.nextSerial := rfl
@[simp] theorem putOwn_intakes : (putOwn s k o).intakes = s.intakes := rfl
@[simp] theorem putOwn_ballast : (putOwn s k o).ballast = s.ballast := rfl
@[simp] theorem putOwn_msix : (putOwn s k o).msix = s.msix := rfl
@[simp] theorem putOwn_kc : (putOwn s k o).kc = s.kc := rfl
@[simp] theorem putOwn_tether : (putOwn s k o).tether = s.tether := rfl
@[simp] theorem putOwn_events : (putOwn s k o).events = s.events := rfl
@[simp] theorem putOwn_evtSel : (putOwn s k o).evtSel = s.evtSel := rfl
@[simp] theorem putOwn_evtRes : (putOwn s k o).evtRes = s.evtRes := rfl
@[simp] theorem putOwn_kh : (putOwn s k o).kh = s.kh := rfl
@[simp] theorem putOwn_audit : (putOwn s k o).audit = s.audit := rfl
@[simp] theorem putOwn_sails : (putOwn s k o).sails = s.sails := rfl
@[simp] theorem putOwn_lanes : (putOwn s k o).lanes = s.lanes := rfl
@[simp] theorem putOwn_rng : (putOwn s k o).rng = s.rng := rfl
@[simp] theorem putOwn_cores : (putOwn s k o).cores = s.cores := rfl
@[simp] theorem putOwn_mc : (putOwn s k o).mc = s.mc := rfl
@[simp] theorem putOwn_debug : (putOwn s k o).dbg = s.dbg := rfl
@[simp] theorem putOwn_im : (putOwn s k o).im = s.im := rfl
@[simp] theorem putOwn_faults : (putOwn s k o).faults = s.faults := rfl
@[simp] theorem putOwn_bridle : (putOwn s k o).bridle = s.bridle := rfl
@[simp] theorem putOwn_tamper : (putOwn s k o).tamper = s.tamper := rfl
@[simp] theorem putOwn_mooring : (putOwn s k o).mooring = s.mooring := rfl
@[simp] theorem putOwn_flash : (putOwn s k o).flash = s.flash := rfl
@[simp] theorem putOwn_ccb : (putOwn s k o).ccb = s.ccb := rfl
@[simp] theorem putOwn_tag : (putOwn s k o).tag = s.tag := rfl
@[simp] theorem putOwn_ports : (putOwn s k o).ports = s.ports := rfl
@[simp] theorem putOwn_power : (putOwn s k o).power = s.power := rfl
@[simp] theorem putOwn_lc : (putOwn s k o).lc = s.lc := rfl
@[simp] theorem putOwn_otp : (putOwn s k o).otp = s.otp := rfl
@[simp] theorem putOwn_otpRegs : (putOwn s k o).otpRegs = s.otpRegs := rfl
@[simp] theorem putOwn_smbPtr : (putOwn s k o).smbPtr = s.smbPtr := rfl
end

/-! ### putHalf -/

section
variable (s : State) (h : Nat) (r : HalfRegs)
@[simp] theorem putHalf_pending : (putHalf s h r).pending = s.pending := rfl
@[simp] theorem putHalf_cycles : (putHalf s h r).cycles = s.cycles := rfl
@[simp] theorem putHalf_fresh : (putHalf s h r).fresh = s.fresh := rfl
@[simp] theorem putHalf_out : (putHalf s h r).out = s.out := rfl
@[simp] theorem putHalf_regs : (putHalf s h r).regs = s.regs := rfl
@[simp] theorem putHalf_units : (putHalf s h r).units = s.units := rfl
@[simp] theorem putHalf_rootSent : (putHalf s h r).rootSent = s.rootSent := rfl
@[simp] theorem putHalf_rings : (putHalf s h r).rings = s.rings := rfl
@[simp] theorem putHalf_jobs : (putHalf s h r).jobs = s.jobs := rfl
@[simp] theorem putHalf_nextSerial : (putHalf s h r).nextSerial = s.nextSerial := rfl
@[simp] theorem putHalf_intakes : (putHalf s h r).intakes = s.intakes := rfl
@[simp] theorem putHalf_ballast : (putHalf s h r).ballast = s.ballast := rfl
@[simp] theorem putHalf_msix : (putHalf s h r).msix = s.msix := rfl
@[simp] theorem putHalf_kc : (putHalf s h r).kc = s.kc := rfl
@[simp] theorem putHalf_tether : (putHalf s h r).tether = s.tether := rfl
@[simp] theorem putHalf_events : (putHalf s h r).events = s.events := rfl
@[simp] theorem putHalf_evtSel : (putHalf s h r).evtSel = s.evtSel := rfl
@[simp] theorem putHalf_evtRes : (putHalf s h r).evtRes = s.evtRes := rfl
@[simp] theorem putHalf_kh : (putHalf s h r).kh = s.kh := rfl
@[simp] theorem putHalf_audit : (putHalf s h r).audit = s.audit := rfl
@[simp] theorem putHalf_sails : (putHalf s h r).sails = s.sails := rfl
@[simp] theorem putHalf_lanes : (putHalf s h r).lanes = s.lanes := rfl
@[simp] theorem putHalf_rng : (putHalf s h r).rng = s.rng := rfl
@[simp] theorem putHalf_cores : (putHalf s h r).cores = s.cores := rfl
@[simp] theorem putHalf_mc : (putHalf s h r).mc = s.mc := rfl
@[simp] theorem putHalf_debug : (putHalf s h r).dbg = s.dbg := rfl
@[simp] theorem putHalf_im : (putHalf s h r).im = s.im := rfl
@[simp] theorem putHalf_faults : (putHalf s h r).faults = s.faults := rfl
@[simp] theorem putHalf_bridle : (putHalf s h r).bridle = s.bridle := rfl
@[simp] theorem putHalf_tamper : (putHalf s h r).tamper = s.tamper := rfl
@[simp] theorem putHalf_mooring : (putHalf s h r).mooring = s.mooring := rfl
@[simp] theorem putHalf_flash : (putHalf s h r).flash = s.flash := rfl
@[simp] theorem putHalf_ccb : (putHalf s h r).ccb = s.ccb := rfl
@[simp] theorem putHalf_tag : (putHalf s h r).tag = s.tag := rfl
@[simp] theorem putHalf_ports : (putHalf s h r).ports = s.ports := rfl
@[simp] theorem putHalf_power : (putHalf s h r).power = s.power := rfl
@[simp] theorem putHalf_lc : (putHalf s h r).lc = s.lc := rfl
@[simp] theorem putHalf_otp : (putHalf s h r).otp = s.otp := rfl
@[simp] theorem putHalf_otpRegs : (putHalf s h r).otpRegs = s.otpRegs := rfl
@[simp] theorem putHalf_smbPtr : (putHalf s h r).smbPtr = s.smbPtr := rfl
end

/-! ### putLane -/

section
variable (s : State) (c : Nat) (l : Lane)
@[simp] theorem putLane_pending : (putLane s c l).pending = s.pending := rfl
@[simp] theorem putLane_cycles : (putLane s c l).cycles = s.cycles := rfl
@[simp] theorem putLane_fresh : (putLane s c l).fresh = s.fresh := rfl
@[simp] theorem putLane_out : (putLane s c l).out = s.out := rfl
@[simp] theorem putLane_regs : (putLane s c l).regs = s.regs := rfl
@[simp] theorem putLane_units : (putLane s c l).units = s.units := rfl
@[simp] theorem putLane_rootSent : (putLane s c l).rootSent = s.rootSent := rfl
@[simp] theorem putLane_rings : (putLane s c l).rings = s.rings := rfl
@[simp] theorem putLane_jobs : (putLane s c l).jobs = s.jobs := rfl
@[simp] theorem putLane_nextSerial : (putLane s c l).nextSerial = s.nextSerial := rfl
@[simp] theorem putLane_intakes : (putLane s c l).intakes = s.intakes := rfl
@[simp] theorem putLane_ballast : (putLane s c l).ballast = s.ballast := rfl
@[simp] theorem putLane_msix : (putLane s c l).msix = s.msix := rfl
@[simp] theorem putLane_kc : (putLane s c l).kc = s.kc := rfl
@[simp] theorem putLane_tether : (putLane s c l).tether = s.tether := rfl
@[simp] theorem putLane_events : (putLane s c l).events = s.events := rfl
@[simp] theorem putLane_evtSel : (putLane s c l).evtSel = s.evtSel := rfl
@[simp] theorem putLane_evtRes : (putLane s c l).evtRes = s.evtRes := rfl
@[simp] theorem putLane_kh : (putLane s c l).kh = s.kh := rfl
@[simp] theorem putLane_audit : (putLane s c l).audit = s.audit := rfl
@[simp] theorem putLane_sails : (putLane s c l).sails = s.sails := rfl
@[simp] theorem putLane_sig : (putLane s c l).sig = s.sig := rfl
@[simp] theorem putLane_rng : (putLane s c l).rng = s.rng := rfl
@[simp] theorem putLane_cores : (putLane s c l).cores = s.cores := rfl
@[simp] theorem putLane_mc : (putLane s c l).mc = s.mc := rfl
@[simp] theorem putLane_debug : (putLane s c l).dbg = s.dbg := rfl
@[simp] theorem putLane_im : (putLane s c l).im = s.im := rfl
@[simp] theorem putLane_faults : (putLane s c l).faults = s.faults := rfl
@[simp] theorem putLane_bridle : (putLane s c l).bridle = s.bridle := rfl
@[simp] theorem putLane_tamper : (putLane s c l).tamper = s.tamper := rfl
@[simp] theorem putLane_mooring : (putLane s c l).mooring = s.mooring := rfl
@[simp] theorem putLane_flash : (putLane s c l).flash = s.flash := rfl
@[simp] theorem putLane_ccb : (putLane s c l).ccb = s.ccb := rfl
@[simp] theorem putLane_tag : (putLane s c l).tag = s.tag := rfl
@[simp] theorem putLane_ports : (putLane s c l).ports = s.ports := rfl
@[simp] theorem putLane_power : (putLane s c l).power = s.power := rfl
@[simp] theorem putLane_lc : (putLane s c l).lc = s.lc := rfl
@[simp] theorem putLane_otp : (putLane s c l).otp = s.otp := rfl
@[simp] theorem putLane_otpRegs : (putLane s c l).otpRegs = s.otpRegs := rfl
@[simp] theorem putLane_smbPtr : (putLane s c l).smbPtr = s.smbPtr := rfl
end

/-! ### putKeys -/

section
variable (s : State) (i : Nat) (k : InstKeys)
@[simp] theorem putKeys_pending : (putKeys s i k).pending = s.pending := rfl
@[simp] theorem putKeys_cycles : (putKeys s i k).cycles = s.cycles := rfl
@[simp] theorem putKeys_fresh : (putKeys s i k).fresh = s.fresh := rfl
@[simp] theorem putKeys_out : (putKeys s i k).out = s.out := rfl
@[simp] theorem putKeys_regs : (putKeys s i k).regs = s.regs := rfl
@[simp] theorem putKeys_units : (putKeys s i k).units = s.units := rfl
@[simp] theorem putKeys_rootSent : (putKeys s i k).rootSent = s.rootSent := rfl
@[simp] theorem putKeys_rings : (putKeys s i k).rings = s.rings := rfl
@[simp] theorem putKeys_jobs : (putKeys s i k).jobs = s.jobs := rfl
@[simp] theorem putKeys_nextSerial : (putKeys s i k).nextSerial = s.nextSerial := rfl
@[simp] theorem putKeys_intakes : (putKeys s i k).intakes = s.intakes := rfl
@[simp] theorem putKeys_ballast : (putKeys s i k).ballast = s.ballast := rfl
@[simp] theorem putKeys_msix : (putKeys s i k).msix = s.msix := rfl
@[simp] theorem putKeys_kc : (putKeys s i k).kc = s.kc := rfl
@[simp] theorem putKeys_tether : (putKeys s i k).tether = s.tether := rfl
@[simp] theorem putKeys_events : (putKeys s i k).events = s.events := rfl
@[simp] theorem putKeys_evtSel : (putKeys s i k).evtSel = s.evtSel := rfl
@[simp] theorem putKeys_evtRes : (putKeys s i k).evtRes = s.evtRes := rfl
@[simp] theorem putKeys_audit : (putKeys s i k).audit = s.audit := rfl
@[simp] theorem putKeys_sails : (putKeys s i k).sails = s.sails := rfl
@[simp] theorem putKeys_sig : (putKeys s i k).sig = s.sig := rfl
@[simp] theorem putKeys_lanes : (putKeys s i k).lanes = s.lanes := rfl
@[simp] theorem putKeys_rng : (putKeys s i k).rng = s.rng := rfl
@[simp] theorem putKeys_cores : (putKeys s i k).cores = s.cores := rfl
@[simp] theorem putKeys_mc : (putKeys s i k).mc = s.mc := rfl
@[simp] theorem putKeys_debug : (putKeys s i k).dbg = s.dbg := rfl
@[simp] theorem putKeys_im : (putKeys s i k).im = s.im := rfl
@[simp] theorem putKeys_faults : (putKeys s i k).faults = s.faults := rfl
@[simp] theorem putKeys_bridle : (putKeys s i k).bridle = s.bridle := rfl
@[simp] theorem putKeys_tamper : (putKeys s i k).tamper = s.tamper := rfl
@[simp] theorem putKeys_mooring : (putKeys s i k).mooring = s.mooring := rfl
@[simp] theorem putKeys_flash : (putKeys s i k).flash = s.flash := rfl
@[simp] theorem putKeys_ccb : (putKeys s i k).ccb = s.ccb := rfl
@[simp] theorem putKeys_tag : (putKeys s i k).tag = s.tag := rfl
@[simp] theorem putKeys_ports : (putKeys s i k).ports = s.ports := rfl
@[simp] theorem putKeys_power : (putKeys s i k).power = s.power := rfl
@[simp] theorem putKeys_lc : (putKeys s i k).lc = s.lc := rfl
@[simp] theorem putKeys_otp : (putKeys s i k).otp = s.otp := rfl
@[simp] theorem putKeys_otpRegs : (putKeys s i k).otpRegs = s.otpRegs := rfl
@[simp] theorem putKeys_smbPtr : (putKeys s i k).smbPtr = s.smbPtr := rfl
end

/-! ### putEvt -/

section
variable (s : State) (n : Nat) (e : EvEntry)
@[simp] theorem putEvt_pending : (putEvt s n e).pending = s.pending := rfl
@[simp] theorem putEvt_cycles : (putEvt s n e).cycles = s.cycles := rfl
@[simp] theorem putEvt_fresh : (putEvt s n e).fresh = s.fresh := rfl
@[simp] theorem putEvt_out : (putEvt s n e).out = s.out := rfl
@[simp] theorem putEvt_regs : (putEvt s n e).regs = s.regs := rfl
@[simp] theorem putEvt_units : (putEvt s n e).units = s.units := rfl
@[simp] theorem putEvt_rootSent : (putEvt s n e).rootSent = s.rootSent := rfl
@[simp] theorem putEvt_rings : (putEvt s n e).rings = s.rings := rfl
@[simp] theorem putEvt_jobs : (putEvt s n e).jobs = s.jobs := rfl
@[simp] theorem putEvt_nextSerial : (putEvt s n e).nextSerial = s.nextSerial := rfl
@[simp] theorem putEvt_intakes : (putEvt s n e).intakes = s.intakes := rfl
@[simp] theorem putEvt_ballast : (putEvt s n e).ballast = s.ballast := rfl
@[simp] theorem putEvt_msix : (putEvt s n e).msix = s.msix := rfl
@[simp] theorem putEvt_kc : (putEvt s n e).kc = s.kc := rfl
@[simp] theorem putEvt_tether : (putEvt s n e).tether = s.tether := rfl
@[simp] theorem putEvt_evtSel : (putEvt s n e).evtSel = s.evtSel := rfl
@[simp] theorem putEvt_evtRes : (putEvt s n e).evtRes = s.evtRes := rfl
@[simp] theorem putEvt_kh : (putEvt s n e).kh = s.kh := rfl
@[simp] theorem putEvt_audit : (putEvt s n e).audit = s.audit := rfl
@[simp] theorem putEvt_sails : (putEvt s n e).sails = s.sails := rfl
@[simp] theorem putEvt_sig : (putEvt s n e).sig = s.sig := rfl
@[simp] theorem putEvt_lanes : (putEvt s n e).lanes = s.lanes := rfl
@[simp] theorem putEvt_rng : (putEvt s n e).rng = s.rng := rfl
@[simp] theorem putEvt_cores : (putEvt s n e).cores = s.cores := rfl
@[simp] theorem putEvt_mc : (putEvt s n e).mc = s.mc := rfl
@[simp] theorem putEvt_debug : (putEvt s n e).dbg = s.dbg := rfl
@[simp] theorem putEvt_im : (putEvt s n e).im = s.im := rfl
@[simp] theorem putEvt_faults : (putEvt s n e).faults = s.faults := rfl
@[simp] theorem putEvt_bridle : (putEvt s n e).bridle = s.bridle := rfl
@[simp] theorem putEvt_tamper : (putEvt s n e).tamper = s.tamper := rfl
@[simp] theorem putEvt_mooring : (putEvt s n e).mooring = s.mooring := rfl
@[simp] theorem putEvt_flash : (putEvt s n e).flash = s.flash := rfl
@[simp] theorem putEvt_ccb : (putEvt s n e).ccb = s.ccb := rfl
@[simp] theorem putEvt_tag : (putEvt s n e).tag = s.tag := rfl
@[simp] theorem putEvt_ports : (putEvt s n e).ports = s.ports := rfl
@[simp] theorem putEvt_power : (putEvt s n e).power = s.power := rfl
@[simp] theorem putEvt_lc : (putEvt s n e).lc = s.lc := rfl
@[simp] theorem putEvt_otp : (putEvt s n e).otp = s.otp := rfl
@[simp] theorem putEvt_otpRegs : (putEvt s n e).otpRegs = s.otpRegs := rfl
@[simp] theorem putEvt_smbPtr : (putEvt s n e).smbPtr = s.smbPtr := rfl
end

/-! ### putLine -/

section
variable (s : State) (m : Nat) (l : Line)
@[simp] theorem putLine_pending : (putLine s m l).pending = s.pending := rfl
@[simp] theorem putLine_cycles : (putLine s m l).cycles = s.cycles := rfl
@[simp] theorem putLine_fresh : (putLine s m l).fresh = s.fresh := rfl
@[simp] theorem putLine_out : (putLine s m l).out = s.out := rfl
@[simp] theorem putLine_regs : (putLine s m l).regs = s.regs := rfl
@[simp] theorem putLine_units : (putLine s m l).units = s.units := rfl
@[simp] theorem putLine_rootSent : (putLine s m l).rootSent = s.rootSent := rfl
@[simp] theorem putLine_rings : (putLine s m l).rings = s.rings := rfl
@[simp] theorem putLine_jobs : (putLine s m l).jobs = s.jobs := rfl
@[simp] theorem putLine_nextSerial : (putLine s m l).nextSerial = s.nextSerial := rfl
@[simp] theorem putLine_intakes : (putLine s m l).intakes = s.intakes := rfl
@[simp] theorem putLine_ballast : (putLine s m l).ballast = s.ballast := rfl
@[simp] theorem putLine_msix : (putLine s m l).msix = s.msix := rfl
@[simp] theorem putLine_kc : (putLine s m l).kc = s.kc := rfl
@[simp] theorem putLine_tether : (putLine s m l).tether = s.tether := rfl
@[simp] theorem putLine_events : (putLine s m l).events = s.events := rfl
@[simp] theorem putLine_evtSel : (putLine s m l).evtSel = s.evtSel := rfl
@[simp] theorem putLine_evtRes : (putLine s m l).evtRes = s.evtRes := rfl
@[simp] theorem putLine_kh : (putLine s m l).kh = s.kh := rfl
@[simp] theorem putLine_audit : (putLine s m l).audit = s.audit := rfl
@[simp] theorem putLine_sails : (putLine s m l).sails = s.sails := rfl
@[simp] theorem putLine_sig : (putLine s m l).sig = s.sig := rfl
@[simp] theorem putLine_lanes : (putLine s m l).lanes = s.lanes := rfl
@[simp] theorem putLine_rng : (putLine s m l).rng = s.rng := rfl
@[simp] theorem putLine_cores : (putLine s m l).cores = s.cores := rfl
@[simp] theorem putLine_mc : (putLine s m l).mc = s.mc := rfl
@[simp] theorem putLine_debug : (putLine s m l).dbg = s.dbg := rfl
@[simp] theorem putLine_im : (putLine s m l).im = s.im := rfl
@[simp] theorem putLine_faults : (putLine s m l).faults = s.faults := rfl
@[simp] theorem putLine_tamper : (putLine s m l).tamper = s.tamper := rfl
@[simp] theorem putLine_mooring : (putLine s m l).mooring = s.mooring := rfl
@[simp] theorem putLine_flash : (putLine s m l).flash = s.flash := rfl
@[simp] theorem putLine_ccb : (putLine s m l).ccb = s.ccb := rfl
@[simp] theorem putLine_tag : (putLine s m l).tag = s.tag := rfl
@[simp] theorem putLine_ports : (putLine s m l).ports = s.ports := rfl
@[simp] theorem putLine_power : (putLine s m l).power = s.power := rfl
@[simp] theorem putLine_lc : (putLine s m l).lc = s.lc := rfl
@[simp] theorem putLine_otp : (putLine s m l).otp = s.otp := rfl
@[simp] theorem putLine_otpRegs : (putLine s m l).otpRegs = s.otpRegs := rfl
@[simp] theorem putLine_smbPtr : (putLine s m l).smbPtr = s.smbPtr := rfl
end

/-! ### putCardAcc -/

section
variable (s : State) (a : Nat) (x : CardAcc)
@[simp] theorem putCardAcc_pending : (putCardAcc s a x).pending = s.pending := rfl
@[simp] theorem putCardAcc_cycles : (putCardAcc s a x).cycles = s.cycles := rfl
@[simp] theorem putCardAcc_fresh : (putCardAcc s a x).fresh = s.fresh := rfl
@[simp] theorem putCardAcc_out : (putCardAcc s a x).out = s.out := rfl
@[simp] theorem putCardAcc_regs : (putCardAcc s a x).regs = s.regs := rfl
@[simp] theorem putCardAcc_units : (putCardAcc s a x).units = s.units := rfl
@[simp] theorem putCardAcc_rootSent : (putCardAcc s a x).rootSent = s.rootSent := rfl
@[simp] theorem putCardAcc_rings : (putCardAcc s a x).rings = s.rings := rfl
@[simp] theorem putCardAcc_jobs : (putCardAcc s a x).jobs = s.jobs := rfl
@[simp] theorem putCardAcc_nextSerial : (putCardAcc s a x).nextSerial = s.nextSerial := rfl
@[simp] theorem putCardAcc_intakes : (putCardAcc s a x).intakes = s.intakes := rfl
@[simp] theorem putCardAcc_ballast : (putCardAcc s a x).ballast = s.ballast := rfl
@[simp] theorem putCardAcc_msix : (putCardAcc s a x).msix = s.msix := rfl
@[simp] theorem putCardAcc_kc : (putCardAcc s a x).kc = s.kc := rfl
@[simp] theorem putCardAcc_tether : (putCardAcc s a x).tether = s.tether := rfl
@[simp] theorem putCardAcc_events : (putCardAcc s a x).events = s.events := rfl
@[simp] theorem putCardAcc_evtSel : (putCardAcc s a x).evtSel = s.evtSel := rfl
@[simp] theorem putCardAcc_evtRes : (putCardAcc s a x).evtRes = s.evtRes := rfl
@[simp] theorem putCardAcc_kh : (putCardAcc s a x).kh = s.kh := rfl
@[simp] theorem putCardAcc_audit : (putCardAcc s a x).audit = s.audit := rfl
@[simp] theorem putCardAcc_sails : (putCardAcc s a x).sails = s.sails := rfl
@[simp] theorem putCardAcc_sig : (putCardAcc s a x).sig = s.sig := rfl
@[simp] theorem putCardAcc_lanes : (putCardAcc s a x).lanes = s.lanes := rfl
@[simp] theorem putCardAcc_rng : (putCardAcc s a x).rng = s.rng := rfl
@[simp] theorem putCardAcc_cores : (putCardAcc s a x).cores = s.cores := rfl
@[simp] theorem putCardAcc_mc : (putCardAcc s a x).mc = s.mc := rfl
@[simp] theorem putCardAcc_debug : (putCardAcc s a x).dbg = s.dbg := rfl
@[simp] theorem putCardAcc_im : (putCardAcc s a x).im = s.im := rfl
@[simp] theorem putCardAcc_faults : (putCardAcc s a x).faults = s.faults := rfl
@[simp] theorem putCardAcc_bridle : (putCardAcc s a x).bridle = s.bridle := rfl
@[simp] theorem putCardAcc_tamper : (putCardAcc s a x).tamper = s.tamper := rfl
@[simp] theorem putCardAcc_mooring : (putCardAcc s a x).mooring = s.mooring := rfl
@[simp] theorem putCardAcc_flash : (putCardAcc s a x).flash = s.flash := rfl
@[simp] theorem putCardAcc_tag : (putCardAcc s a x).tag = s.tag := rfl
@[simp] theorem putCardAcc_ports : (putCardAcc s a x).ports = s.ports := rfl
@[simp] theorem putCardAcc_power : (putCardAcc s a x).power = s.power := rfl
@[simp] theorem putCardAcc_lc : (putCardAcc s a x).lc = s.lc := rfl
@[simp] theorem putCardAcc_otp : (putCardAcc s a x).otp = s.otp := rfl
@[simp] theorem putCardAcc_otpRegs : (putCardAcc s a x).otpRegs = s.otpRegs := rfl
@[simp] theorem putCardAcc_smbPtr : (putCardAcc s a x).smbPtr = s.smbPtr := rfl
end

/-! ### putTxn -/

section
variable (s : State) (t : Option CardTxn)
@[simp] theorem putTxn_pending : (putTxn s t).pending = s.pending := rfl
@[simp] theorem putTxn_cycles : (putTxn s t).cycles = s.cycles := rfl
@[simp] theorem putTxn_fresh : (putTxn s t).fresh = s.fresh := rfl
@[simp] theorem putTxn_out : (putTxn s t).out = s.out := rfl
@[simp] theorem putTxn_regs : (putTxn s t).regs = s.regs := rfl
@[simp] theorem putTxn_units : (putTxn s t).units = s.units := rfl
@[simp] theorem putTxn_rootSent : (putTxn s t).rootSent = s.rootSent := rfl
@[simp] theorem putTxn_rings : (putTxn s t).rings = s.rings := rfl
@[simp] theorem putTxn_jobs : (putTxn s t).jobs = s.jobs := rfl
@[simp] theorem putTxn_nextSerial : (putTxn s t).nextSerial = s.nextSerial := rfl
@[simp] theorem putTxn_intakes : (putTxn s t).intakes = s.intakes := rfl
@[simp] theorem putTxn_ballast : (putTxn s t).ballast = s.ballast := rfl
@[simp] theorem putTxn_msix : (putTxn s t).msix = s.msix := rfl
@[simp] theorem putTxn_kc : (putTxn s t).kc = s.kc := rfl
@[simp] theorem putTxn_tether : (putTxn s t).tether = s.tether := rfl
@[simp] theorem putTxn_events : (putTxn s t).events = s.events := rfl
@[simp] theorem putTxn_evtSel : (putTxn s t).evtSel = s.evtSel := rfl
@[simp] theorem putTxn_evtRes : (putTxn s t).evtRes = s.evtRes := rfl
@[simp] theorem putTxn_kh : (putTxn s t).kh = s.kh := rfl
@[simp] theorem putTxn_audit : (putTxn s t).audit = s.audit := rfl
@[simp] theorem putTxn_sails : (putTxn s t).sails = s.sails := rfl
@[simp] theorem putTxn_sig : (putTxn s t).sig = s.sig := rfl
@[simp] theorem putTxn_lanes : (putTxn s t).lanes = s.lanes := rfl
@[simp] theorem putTxn_rng : (putTxn s t).rng = s.rng := rfl
@[simp] theorem putTxn_cores : (putTxn s t).cores = s.cores := rfl
@[simp] theorem putTxn_mc : (putTxn s t).mc = s.mc := rfl
@[simp] theorem putTxn_debug : (putTxn s t).dbg = s.dbg := rfl
@[simp] theorem putTxn_im : (putTxn s t).im = s.im := rfl
@[simp] theorem putTxn_faults : (putTxn s t).faults = s.faults := rfl
@[simp] theorem putTxn_bridle : (putTxn s t).bridle = s.bridle := rfl
@[simp] theorem putTxn_tamper : (putTxn s t).tamper = s.tamper := rfl
@[simp] theorem putTxn_mooring : (putTxn s t).mooring = s.mooring := rfl
@[simp] theorem putTxn_flash : (putTxn s t).flash = s.flash := rfl
@[simp] theorem putTxn_tag : (putTxn s t).tag = s.tag := rfl
@[simp] theorem putTxn_ports : (putTxn s t).ports = s.ports := rfl
@[simp] theorem putTxn_power : (putTxn s t).power = s.power := rfl
@[simp] theorem putTxn_lc : (putTxn s t).lc = s.lc := rfl
@[simp] theorem putTxn_otp : (putTxn s t).otp = s.otp := rfl
@[simp] theorem putTxn_otpRegs : (putTxn s t).otpRegs = s.otpRegs := rfl
@[simp] theorem putTxn_smbPtr : (putTxn s t).smbPtr = s.smbPtr := rfl
end

/-! ### putCardSlot -/

section
variable (s : State) (k : Nat) (x : CardSlot)
@[simp] theorem putCardSlot_pending : (putCardSlot s k x).pending = s.pending := rfl
@[simp] theorem putCardSlot_cycles : (putCardSlot s k x).cycles = s.cycles := rfl
@[simp] theorem putCardSlot_fresh : (putCardSlot s k x).fresh = s.fresh := rfl
@[simp] theorem putCardSlot_out : (putCardSlot s k x).out = s.out := rfl
@[simp] theorem putCardSlot_regs : (putCardSlot s k x).regs = s.regs := rfl
@[simp] theorem putCardSlot_units : (putCardSlot s k x).units = s.units := rfl
@[simp] theorem putCardSlot_rootSent : (putCardSlot s k x).rootSent = s.rootSent := rfl
@[simp] theorem putCardSlot_rings : (putCardSlot s k x).rings = s.rings := rfl
@[simp] theorem putCardSlot_jobs : (putCardSlot s k x).jobs = s.jobs := rfl
@[simp] theorem putCardSlot_nextSerial : (putCardSlot s k x).nextSerial = s.nextSerial := rfl
@[simp] theorem putCardSlot_intakes : (putCardSlot s k x).intakes = s.intakes := rfl
@[simp] theorem putCardSlot_ballast : (putCardSlot s k x).ballast = s.ballast := rfl
@[simp] theorem putCardSlot_msix : (putCardSlot s k x).msix = s.msix := rfl
@[simp] theorem putCardSlot_kc : (putCardSlot s k x).kc = s.kc := rfl
@[simp] theorem putCardSlot_tether : (putCardSlot s k x).tether = s.tether := rfl
@[simp] theorem putCardSlot_events : (putCardSlot s k x).events = s.events := rfl
@[simp] theorem putCardSlot_evtSel : (putCardSlot s k x).evtSel = s.evtSel := rfl
@[simp] theorem putCardSlot_evtRes : (putCardSlot s k x).evtRes = s.evtRes := rfl
@[simp] theorem putCardSlot_kh : (putCardSlot s k x).kh = s.kh := rfl
@[simp] theorem putCardSlot_audit : (putCardSlot s k x).audit = s.audit := rfl
@[simp] theorem putCardSlot_sails : (putCardSlot s k x).sails = s.sails := rfl
@[simp] theorem putCardSlot_sig : (putCardSlot s k x).sig = s.sig := rfl
@[simp] theorem putCardSlot_lanes : (putCardSlot s k x).lanes = s.lanes := rfl
@[simp] theorem putCardSlot_rng : (putCardSlot s k x).rng = s.rng := rfl
@[simp] theorem putCardSlot_cores : (putCardSlot s k x).cores = s.cores := rfl
@[simp] theorem putCardSlot_mc : (putCardSlot s k x).mc = s.mc := rfl
@[simp] theorem putCardSlot_debug : (putCardSlot s k x).dbg = s.dbg := rfl
@[simp] theorem putCardSlot_im : (putCardSlot s k x).im = s.im := rfl
@[simp] theorem putCardSlot_faults : (putCardSlot s k x).faults = s.faults := rfl
@[simp] theorem putCardSlot_bridle : (putCardSlot s k x).bridle = s.bridle := rfl
@[simp] theorem putCardSlot_tamper : (putCardSlot s k x).tamper = s.tamper := rfl
@[simp] theorem putCardSlot_mooring : (putCardSlot s k x).mooring = s.mooring := rfl
@[simp] theorem putCardSlot_flash : (putCardSlot s k x).flash = s.flash := rfl
@[simp] theorem putCardSlot_tag : (putCardSlot s k x).tag = s.tag := rfl
@[simp] theorem putCardSlot_ports : (putCardSlot s k x).ports = s.ports := rfl
@[simp] theorem putCardSlot_power : (putCardSlot s k x).power = s.power := rfl
@[simp] theorem putCardSlot_lc : (putCardSlot s k x).lc = s.lc := rfl
@[simp] theorem putCardSlot_otp : (putCardSlot s k x).otp = s.otp := rfl
@[simp] theorem putCardSlot_otpRegs : (putCardSlot s k x).otpRegs = s.otpRegs := rfl
@[simp] theorem putCardSlot_smbPtr : (putCardSlot s k x).smbPtr = s.smbPtr := rfl
end

/-! ### putTag -/

section
variable (s : State) (t : Tag)
@[simp] theorem putTag_pending : (putTag s t).pending = s.pending := rfl
@[simp] theorem putTag_cycles : (putTag s t).cycles = s.cycles := rfl
@[simp] theorem putTag_fresh : (putTag s t).fresh = s.fresh := rfl
@[simp] theorem putTag_out : (putTag s t).out = s.out := rfl
@[simp] theorem putTag_regs : (putTag s t).regs = s.regs := rfl
@[simp] theorem putTag_units : (putTag s t).units = s.units := rfl
@[simp] theorem putTag_rootSent : (putTag s t).rootSent = s.rootSent := rfl
@[simp] theorem putTag_rings : (putTag s t).rings = s.rings := rfl
@[simp] theorem putTag_jobs : (putTag s t).jobs = s.jobs := rfl
@[simp] theorem putTag_nextSerial : (putTag s t).nextSerial = s.nextSerial := rfl
@[simp] theorem putTag_intakes : (putTag s t).intakes = s.intakes := rfl
@[simp] theorem putTag_ballast : (putTag s t).ballast = s.ballast := rfl
@[simp] theorem putTag_msix : (putTag s t).msix = s.msix := rfl
@[simp] theorem putTag_kc : (putTag s t).kc = s.kc := rfl
@[simp] theorem putTag_tether : (putTag s t).tether = s.tether := rfl
@[simp] theorem putTag_events : (putTag s t).events = s.events := rfl
@[simp] theorem putTag_evtSel : (putTag s t).evtSel = s.evtSel := rfl
@[simp] theorem putTag_evtRes : (putTag s t).evtRes = s.evtRes := rfl
@[simp] theorem putTag_kh : (putTag s t).kh = s.kh := rfl
@[simp] theorem putTag_audit : (putTag s t).audit = s.audit := rfl
@[simp] theorem putTag_sails : (putTag s t).sails = s.sails := rfl
@[simp] theorem putTag_sig : (putTag s t).sig = s.sig := rfl
@[simp] theorem putTag_lanes : (putTag s t).lanes = s.lanes := rfl
@[simp] theorem putTag_rng : (putTag s t).rng = s.rng := rfl
@[simp] theorem putTag_cores : (putTag s t).cores = s.cores := rfl
@[simp] theorem putTag_mc : (putTag s t).mc = s.mc := rfl
@[simp] theorem putTag_debug : (putTag s t).dbg = s.dbg := rfl
@[simp] theorem putTag_im : (putTag s t).im = s.im := rfl
@[simp] theorem putTag_faults : (putTag s t).faults = s.faults := rfl
@[simp] theorem putTag_bridle : (putTag s t).bridle = s.bridle := rfl
@[simp] theorem putTag_tamper : (putTag s t).tamper = s.tamper := rfl
@[simp] theorem putTag_mooring : (putTag s t).mooring = s.mooring := rfl
@[simp] theorem putTag_flash : (putTag s t).flash = s.flash := rfl
@[simp] theorem putTag_ccb : (putTag s t).ccb = s.ccb := rfl
@[simp] theorem putTag_ports : (putTag s t).ports = s.ports := rfl
@[simp] theorem putTag_power : (putTag s t).power = s.power := rfl
@[simp] theorem putTag_lc : (putTag s t).lc = s.lc := rfl
@[simp] theorem putTag_otp : (putTag s t).otp = s.otp := rfl
@[simp] theorem putTag_otpRegs : (putTag s t).otpRegs = s.otpRegs := rfl
@[simp] theorem putTag_smbPtr : (putTag s t).smbPtr = s.smbPtr := rfl
end

/-! ### putSrc -/

section
variable (s : State) (n : Nat) (x : TmpSrc)
@[simp] theorem putSrc_pending : (putSrc s n x).pending = s.pending := rfl
@[simp] theorem putSrc_cycles : (putSrc s n x).cycles = s.cycles := rfl
@[simp] theorem putSrc_fresh : (putSrc s n x).fresh = s.fresh := rfl
@[simp] theorem putSrc_out : (putSrc s n x).out = s.out := rfl
@[simp] theorem putSrc_regs : (putSrc s n x).regs = s.regs := rfl
@[simp] theorem putSrc_units : (putSrc s n x).units = s.units := rfl
@[simp] theorem putSrc_rootSent : (putSrc s n x).rootSent = s.rootSent := rfl
@[simp] theorem putSrc_rings : (putSrc s n x).rings = s.rings := rfl
@[simp] theorem putSrc_jobs : (putSrc s n x).jobs = s.jobs := rfl
@[simp] theorem putSrc_nextSerial : (putSrc s n x).nextSerial = s.nextSerial := rfl
@[simp] theorem putSrc_intakes : (putSrc s n x).intakes = s.intakes := rfl
@[simp] theorem putSrc_ballast : (putSrc s n x).ballast = s.ballast := rfl
@[simp] theorem putSrc_msix : (putSrc s n x).msix = s.msix := rfl
@[simp] theorem putSrc_kc : (putSrc s n x).kc = s.kc := rfl
@[simp] theorem putSrc_tether : (putSrc s n x).tether = s.tether := rfl
@[simp] theorem putSrc_events : (putSrc s n x).events = s.events := rfl
@[simp] theorem putSrc_evtSel : (putSrc s n x).evtSel = s.evtSel := rfl
@[simp] theorem putSrc_evtRes : (putSrc s n x).evtRes = s.evtRes := rfl
@[simp] theorem putSrc_kh : (putSrc s n x).kh = s.kh := rfl
@[simp] theorem putSrc_audit : (putSrc s n x).audit = s.audit := rfl
@[simp] theorem putSrc_sails : (putSrc s n x).sails = s.sails := rfl
@[simp] theorem putSrc_sig : (putSrc s n x).sig = s.sig := rfl
@[simp] theorem putSrc_lanes : (putSrc s n x).lanes = s.lanes := rfl
@[simp] theorem putSrc_rng : (putSrc s n x).rng = s.rng := rfl
@[simp] theorem putSrc_cores : (putSrc s n x).cores = s.cores := rfl
@[simp] theorem putSrc_mc : (putSrc s n x).mc = s.mc := rfl
@[simp] theorem putSrc_debug : (putSrc s n x).dbg = s.dbg := rfl
@[simp] theorem putSrc_im : (putSrc s n x).im = s.im := rfl
@[simp] theorem putSrc_faults : (putSrc s n x).faults = s.faults := rfl
@[simp] theorem putSrc_bridle : (putSrc s n x).bridle = s.bridle := rfl
@[simp] theorem putSrc_mooring : (putSrc s n x).mooring = s.mooring := rfl
@[simp] theorem putSrc_flash : (putSrc s n x).flash = s.flash := rfl
@[simp] theorem putSrc_ccb : (putSrc s n x).ccb = s.ccb := rfl
@[simp] theorem putSrc_tag : (putSrc s n x).tag = s.tag := rfl
@[simp] theorem putSrc_ports : (putSrc s n x).ports = s.ports := rfl
@[simp] theorem putSrc_power : (putSrc s n x).power = s.power := rfl
@[simp] theorem putSrc_lc : (putSrc s n x).lc = s.lc := rfl
@[simp] theorem putSrc_otp : (putSrc s n x).otp = s.otp := rfl
@[simp] theorem putSrc_otpRegs : (putSrc s n x).otpRegs = s.otpRegs := rfl
@[simp] theorem putSrc_smbPtr : (putSrc s n x).smbPtr = s.smbPtr := rfl
end

/-! ### putBank -/

section
variable (s : State) (b : Nat) (x : Bank)
@[simp] theorem putBank_pending : (putBank s b x).pending = s.pending := rfl
@[simp] theorem putBank_cycles : (putBank s b x).cycles = s.cycles := rfl
@[simp] theorem putBank_fresh : (putBank s b x).fresh = s.fresh := rfl
@[simp] theorem putBank_out : (putBank s b x).out = s.out := rfl
@[simp] theorem putBank_regs : (putBank s b x).regs = s.regs := rfl
@[simp] theorem putBank_units : (putBank s b x).units = s.units := rfl
@[simp] theorem putBank_rootSent : (putBank s b x).rootSent = s.rootSent := rfl
@[simp] theorem putBank_rings : (putBank s b x).rings = s.rings := rfl
@[simp] theorem putBank_jobs : (putBank s b x).jobs = s.jobs := rfl
@[simp] theorem putBank_nextSerial : (putBank s b x).nextSerial = s.nextSerial := rfl
@[simp] theorem putBank_intakes : (putBank s b x).intakes = s.intakes := rfl
@[simp] theorem putBank_ballast : (putBank s b x).ballast = s.ballast := rfl
@[simp] theorem putBank_msix : (putBank s b x).msix = s.msix := rfl
@[simp] theorem putBank_kc : (putBank s b x).kc = s.kc := rfl
@[simp] theorem putBank_tether : (putBank s b x).tether = s.tether := rfl
@[simp] theorem putBank_events : (putBank s b x).events = s.events := rfl
@[simp] theorem putBank_evtSel : (putBank s b x).evtSel = s.evtSel := rfl
@[simp] theorem putBank_evtRes : (putBank s b x).evtRes = s.evtRes := rfl
@[simp] theorem putBank_kh : (putBank s b x).kh = s.kh := rfl
@[simp] theorem putBank_audit : (putBank s b x).audit = s.audit := rfl
@[simp] theorem putBank_sails : (putBank s b x).sails = s.sails := rfl
@[simp] theorem putBank_sig : (putBank s b x).sig = s.sig := rfl
@[simp] theorem putBank_lanes : (putBank s b x).lanes = s.lanes := rfl
@[simp] theorem putBank_rng : (putBank s b x).rng = s.rng := rfl
@[simp] theorem putBank_cores : (putBank s b x).cores = s.cores := rfl
@[simp] theorem putBank_mc : (putBank s b x).mc = s.mc := rfl
@[simp] theorem putBank_debug : (putBank s b x).dbg = s.dbg := rfl
@[simp] theorem putBank_im : (putBank s b x).im = s.im := rfl
@[simp] theorem putBank_faults : (putBank s b x).faults = s.faults := rfl
@[simp] theorem putBank_bridle : (putBank s b x).bridle = s.bridle := rfl
@[simp] theorem putBank_tamper : (putBank s b x).tamper = s.tamper := rfl
@[simp] theorem putBank_mooring : (putBank s b x).mooring = s.mooring := rfl
@[simp] theorem putBank_ccb : (putBank s b x).ccb = s.ccb := rfl
@[simp] theorem putBank_tag : (putBank s b x).tag = s.tag := rfl
@[simp] theorem putBank_ports : (putBank s b x).ports = s.ports := rfl
@[simp] theorem putBank_power : (putBank s b x).power = s.power := rfl
@[simp] theorem putBank_lc : (putBank s b x).lc = s.lc := rfl
@[simp] theorem putBank_otp : (putBank s b x).otp = s.otp := rfl
@[simp] theorem putBank_otpRegs : (putBank s b x).otpRegs = s.otpRegs := rfl
@[simp] theorem putBank_smbPtr : (putBank s b x).smbPtr = s.smbPtr := rfl
end

/-! ### putWin -/

section
variable (s : State) (a : Nat) (w : ImWindow)
@[simp] theorem putWin_pending : (putWin s a w).pending = s.pending := rfl
@[simp] theorem putWin_cycles : (putWin s a w).cycles = s.cycles := rfl
@[simp] theorem putWin_fresh : (putWin s a w).fresh = s.fresh := rfl
@[simp] theorem putWin_out : (putWin s a w).out = s.out := rfl
@[simp] theorem putWin_regs : (putWin s a w).regs = s.regs := rfl
@[simp] theorem putWin_units : (putWin s a w).units = s.units := rfl
@[simp] theorem putWin_rootSent : (putWin s a w).rootSent = s.rootSent := rfl
@[simp] theorem putWin_rings : (putWin s a w).rings = s.rings := rfl
@[simp] theorem putWin_jobs : (putWin s a w).jobs = s.jobs := rfl
@[simp] theorem putWin_nextSerial : (putWin s a w).nextSerial = s.nextSerial := rfl
@[simp] theorem putWin_intakes : (putWin s a w).intakes = s.intakes := rfl
@[simp] theorem putWin_ballast : (putWin s a w).ballast = s.ballast := rfl
@[simp] theorem putWin_msix : (putWin s a w).msix = s.msix := rfl
@[simp] theorem putWin_kc : (putWin s a w).kc = s.kc := rfl
@[simp] theorem putWin_tether : (putWin s a w).tether = s.tether := rfl
@[simp] theorem putWin_events : (putWin s a w).events = s.events := rfl
@[simp] theorem putWin_evtSel : (putWin s a w).evtSel = s.evtSel := rfl
@[simp] theorem putWin_evtRes : (putWin s a w).evtRes = s.evtRes := rfl
@[simp] theorem putWin_kh : (putWin s a w).kh = s.kh := rfl
@[simp] theorem putWin_audit : (putWin s a w).audit = s.audit := rfl
@[simp] theorem putWin_sails : (putWin s a w).sails = s.sails := rfl
@[simp] theorem putWin_sig : (putWin s a w).sig = s.sig := rfl
@[simp] theorem putWin_lanes : (putWin s a w).lanes = s.lanes := rfl
@[simp] theorem putWin_rng : (putWin s a w).rng = s.rng := rfl
@[simp] theorem putWin_cores : (putWin s a w).cores = s.cores := rfl
@[simp] theorem putWin_mc : (putWin s a w).mc = s.mc := rfl
@[simp] theorem putWin_debug : (putWin s a w).dbg = s.dbg := rfl
@[simp] theorem putWin_faults : (putWin s a w).faults = s.faults := rfl
@[simp] theorem putWin_bridle : (putWin s a w).bridle = s.bridle := rfl
@[simp] theorem putWin_tamper : (putWin s a w).tamper = s.tamper := rfl
@[simp] theorem putWin_mooring : (putWin s a w).mooring = s.mooring := rfl
@[simp] theorem putWin_flash : (putWin s a w).flash = s.flash := rfl
@[simp] theorem putWin_ccb : (putWin s a w).ccb = s.ccb := rfl
@[simp] theorem putWin_tag : (putWin s a w).tag = s.tag := rfl
@[simp] theorem putWin_ports : (putWin s a w).ports = s.ports := rfl
@[simp] theorem putWin_power : (putWin s a w).power = s.power := rfl
@[simp] theorem putWin_lc : (putWin s a w).lc = s.lc := rfl
@[simp] theorem putWin_otp : (putWin s a w).otp = s.otp := rfl
@[simp] theorem putWin_otpRegs : (putWin s a w).otpRegs = s.otpRegs := rfl
@[simp] theorem putWin_smbPtr : (putWin s a w).smbPtr = s.smbPtr := rfl
end

/-! ### putPortN -/

section
variable (s : State) (n : Nat) (p : Port)
@[simp] theorem putPortN_pending : (putPortN s n p).pending = s.pending := rfl
@[simp] theorem putPortN_cycles : (putPortN s n p).cycles = s.cycles := rfl
@[simp] theorem putPortN_fresh : (putPortN s n p).fresh = s.fresh := rfl
@[simp] theorem putPortN_out : (putPortN s n p).out = s.out := rfl
@[simp] theorem putPortN_regs : (putPortN s n p).regs = s.regs := rfl
@[simp] theorem putPortN_units : (putPortN s n p).units = s.units := rfl
@[simp] theorem putPortN_rootSent : (putPortN s n p).rootSent = s.rootSent := rfl
@[simp] theorem putPortN_rings : (putPortN s n p).rings = s.rings := rfl
@[simp] theorem putPortN_jobs : (putPortN s n p).jobs = s.jobs := rfl
@[simp] theorem putPortN_nextSerial : (putPortN s n p).nextSerial = s.nextSerial := rfl
@[simp] theorem putPortN_intakes : (putPortN s n p).intakes = s.intakes := rfl
@[simp] theorem putPortN_ballast : (putPortN s n p).ballast = s.ballast := rfl
@[simp] theorem putPortN_msix : (putPortN s n p).msix = s.msix := rfl
@[simp] theorem putPortN_kc : (putPortN s n p).kc = s.kc := rfl
@[simp] theorem putPortN_tether : (putPortN s n p).tether = s.tether := rfl
@[simp] theorem putPortN_events : (putPortN s n p).events = s.events := rfl
@[simp] theorem putPortN_evtSel : (putPortN s n p).evtSel = s.evtSel := rfl
@[simp] theorem putPortN_evtRes : (putPortN s n p).evtRes = s.evtRes := rfl
@[simp] theorem putPortN_kh : (putPortN s n p).kh = s.kh := rfl
@[simp] theorem putPortN_audit : (putPortN s n p).audit = s.audit := rfl
@[simp] theorem putPortN_sails : (putPortN s n p).sails = s.sails := rfl
@[simp] theorem putPortN_sig : (putPortN s n p).sig = s.sig := rfl
@[simp] theorem putPortN_lanes : (putPortN s n p).lanes = s.lanes := rfl
@[simp] theorem putPortN_rng : (putPortN s n p).rng = s.rng := rfl
@[simp] theorem putPortN_cores : (putPortN s n p).cores = s.cores := rfl
@[simp] theorem putPortN_mc : (putPortN s n p).mc = s.mc := rfl
@[simp] theorem putPortN_debug : (putPortN s n p).dbg = s.dbg := rfl
@[simp] theorem putPortN_im : (putPortN s n p).im = s.im := rfl
@[simp] theorem putPortN_faults : (putPortN s n p).faults = s.faults := rfl
@[simp] theorem putPortN_bridle : (putPortN s n p).bridle = s.bridle := rfl
@[simp] theorem putPortN_tamper : (putPortN s n p).tamper = s.tamper := rfl
@[simp] theorem putPortN_mooring : (putPortN s n p).mooring = s.mooring := rfl
@[simp] theorem putPortN_flash : (putPortN s n p).flash = s.flash := rfl
@[simp] theorem putPortN_ccb : (putPortN s n p).ccb = s.ccb := rfl
@[simp] theorem putPortN_tag : (putPortN s n p).tag = s.tag := rfl
@[simp] theorem putPortN_power : (putPortN s n p).power = s.power := rfl
@[simp] theorem putPortN_lc : (putPortN s n p).lc = s.lc := rfl
@[simp] theorem putPortN_otp : (putPortN s n p).otp = s.otp := rfl
@[simp] theorem putPortN_otpRegs : (putPortN s n p).otpRegs = s.otpRegs := rfl
@[simp] theorem putPortN_smbPtr : (putPortN s n p).smbPtr = s.smbPtr := rfl
end

/-! ### putLc -/

section
variable (s : State) (a : Nat) (x : LcAcc)
@[simp] theorem putLc_pending : (putLc s a x).pending = s.pending := rfl
@[simp] theorem putLc_cycles : (putLc s a x).cycles = s.cycles := rfl
@[simp] theorem putLc_fresh : (putLc s a x).fresh = s.fresh := rfl
@[simp] theorem putLc_out : (putLc s a x).out = s.out := rfl
@[simp] theorem putLc_regs : (putLc s a x).regs = s.regs := rfl
@[simp] theorem putLc_units : (putLc s a x).units = s.units := rfl
@[simp] theorem putLc_rootSent : (putLc s a x).rootSent = s.rootSent := rfl
@[simp] theorem putLc_rings : (putLc s a x).rings = s.rings := rfl
@[simp] theorem putLc_jobs : (putLc s a x).jobs = s.jobs := rfl
@[simp] theorem putLc_nextSerial : (putLc s a x).nextSerial = s.nextSerial := rfl
@[simp] theorem putLc_intakes : (putLc s a x).intakes = s.intakes := rfl
@[simp] theorem putLc_ballast : (putLc s a x).ballast = s.ballast := rfl
@[simp] theorem putLc_msix : (putLc s a x).msix = s.msix := rfl
@[simp] theorem putLc_kc : (putLc s a x).kc = s.kc := rfl
@[simp] theorem putLc_tether : (putLc s a x).tether = s.tether := rfl
@[simp] theorem putLc_events : (putLc s a x).events = s.events := rfl
@[simp] theorem putLc_evtSel : (putLc s a x).evtSel = s.evtSel := rfl
@[simp] theorem putLc_evtRes : (putLc s a x).evtRes = s.evtRes := rfl
@[simp] theorem putLc_kh : (putLc s a x).kh = s.kh := rfl
@[simp] theorem putLc_audit : (putLc s a x).audit = s.audit := rfl
@[simp] theorem putLc_sails : (putLc s a x).sails = s.sails := rfl
@[simp] theorem putLc_sig : (putLc s a x).sig = s.sig := rfl
@[simp] theorem putLc_lanes : (putLc s a x).lanes = s.lanes := rfl
@[simp] theorem putLc_rng : (putLc s a x).rng = s.rng := rfl
@[simp] theorem putLc_cores : (putLc s a x).cores = s.cores := rfl
@[simp] theorem putLc_mc : (putLc s a x).mc = s.mc := rfl
@[simp] theorem putLc_debug : (putLc s a x).dbg = s.dbg := rfl
@[simp] theorem putLc_im : (putLc s a x).im = s.im := rfl
@[simp] theorem putLc_faults : (putLc s a x).faults = s.faults := rfl
@[simp] theorem putLc_bridle : (putLc s a x).bridle = s.bridle := rfl
@[simp] theorem putLc_tamper : (putLc s a x).tamper = s.tamper := rfl
@[simp] theorem putLc_mooring : (putLc s a x).mooring = s.mooring := rfl
@[simp] theorem putLc_flash : (putLc s a x).flash = s.flash := rfl
@[simp] theorem putLc_ccb : (putLc s a x).ccb = s.ccb := rfl
@[simp] theorem putLc_tag : (putLc s a x).tag = s.tag := rfl
@[simp] theorem putLc_ports : (putLc s a x).ports = s.ports := rfl
@[simp] theorem putLc_power : (putLc s a x).power = s.power := rfl
@[simp] theorem putLc_otp : (putLc s a x).otp = s.otp := rfl
@[simp] theorem putLc_otpRegs : (putLc s a x).otpRegs = s.otpRegs := rfl
@[simp] theorem putLc_smbPtr : (putLc s a x).smbPtr = s.smbPtr := rfl
end

/-! ### putCore -/

section
variable (s : State) (p : Nat) (c : Core)
@[simp] theorem putCore_pending : (putCore s p c).pending = s.pending := rfl
@[simp] theorem putCore_cycles : (putCore s p c).cycles = s.cycles := rfl
@[simp] theorem putCore_fresh : (putCore s p c).fresh = s.fresh := rfl
@[simp] theorem putCore_out : (putCore s p c).out = s.out := rfl
@[simp] theorem putCore_regs : (putCore s p c).regs = s.regs := rfl
@[simp] theorem putCore_units : (putCore s p c).units = s.units := rfl
@[simp] theorem putCore_rootSent : (putCore s p c).rootSent = s.rootSent := rfl
@[simp] theorem putCore_rings : (putCore s p c).rings = s.rings := rfl
@[simp] theorem putCore_jobs : (putCore s p c).jobs = s.jobs := rfl
@[simp] theorem putCore_nextSerial : (putCore s p c).nextSerial = s.nextSerial := rfl
@[simp] theorem putCore_intakes : (putCore s p c).intakes = s.intakes := rfl
@[simp] theorem putCore_ballast : (putCore s p c).ballast = s.ballast := rfl
@[simp] theorem putCore_msix : (putCore s p c).msix = s.msix := rfl
@[simp] theorem putCore_kc : (putCore s p c).kc = s.kc := rfl
@[simp] theorem putCore_tether : (putCore s p c).tether = s.tether := rfl
@[simp] theorem putCore_events : (putCore s p c).events = s.events := rfl
@[simp] theorem putCore_evtSel : (putCore s p c).evtSel = s.evtSel := rfl
@[simp] theorem putCore_evtRes : (putCore s p c).evtRes = s.evtRes := rfl
@[simp] theorem putCore_kh : (putCore s p c).kh = s.kh := rfl
@[simp] theorem putCore_audit : (putCore s p c).audit = s.audit := rfl
@[simp] theorem putCore_sails : (putCore s p c).sails = s.sails := rfl
@[simp] theorem putCore_sig : (putCore s p c).sig = s.sig := rfl
@[simp] theorem putCore_lanes : (putCore s p c).lanes = s.lanes := rfl
@[simp] theorem putCore_rng : (putCore s p c).rng = s.rng := rfl
@[simp] theorem putCore_mc : (putCore s p c).mc = s.mc := rfl
@[simp] theorem putCore_debug : (putCore s p c).dbg = s.dbg := rfl
@[simp] theorem putCore_im : (putCore s p c).im = s.im := rfl
@[simp] theorem putCore_faults : (putCore s p c).faults = s.faults := rfl
@[simp] theorem putCore_bridle : (putCore s p c).bridle = s.bridle := rfl
@[simp] theorem putCore_tamper : (putCore s p c).tamper = s.tamper := rfl
@[simp] theorem putCore_mooring : (putCore s p c).mooring = s.mooring := rfl
@[simp] theorem putCore_flash : (putCore s p c).flash = s.flash := rfl
@[simp] theorem putCore_ccb : (putCore s p c).ccb = s.ccb := rfl
@[simp] theorem putCore_tag : (putCore s p c).tag = s.tag := rfl
@[simp] theorem putCore_ports : (putCore s p c).ports = s.ports := rfl
@[simp] theorem putCore_power : (putCore s p c).power = s.power := rfl
@[simp] theorem putCore_lc : (putCore s p c).lc = s.lc := rfl
@[simp] theorem putCore_otp : (putCore s p c).otp = s.otp := rfl
@[simp] theorem putCore_otpRegs : (putCore s p c).otpRegs = s.otpRegs := rfl
@[simp] theorem putCore_smbPtr : (putCore s p c).smbPtr = s.smbPtr := rfl
end

/-! ### modBridle -/

section
variable (s : State) (f : Bridle → Bridle)
@[simp] theorem modBridle_pending : (modBridle s f).pending = s.pending := rfl
@[simp] theorem modBridle_cycles : (modBridle s f).cycles = s.cycles := rfl
@[simp] theorem modBridle_fresh : (modBridle s f).fresh = s.fresh := rfl
@[simp] theorem modBridle_out : (modBridle s f).out = s.out := rfl
@[simp] theorem modBridle_regs : (modBridle s f).regs = s.regs := rfl
@[simp] theorem modBridle_units : (modBridle s f).units = s.units := rfl
@[simp] theorem modBridle_rootSent : (modBridle s f).rootSent = s.rootSent := rfl
@[simp] theorem modBridle_rings : (modBridle s f).rings = s.rings := rfl
@[simp] theorem modBridle_jobs : (modBridle s f).jobs = s.jobs := rfl
@[simp] theorem modBridle_nextSerial : (modBridle s f).nextSerial = s.nextSerial := rfl
@[simp] theorem modBridle_intakes : (modBridle s f).intakes = s.intakes := rfl
@[simp] theorem modBridle_ballast : (modBridle s f).ballast = s.ballast := rfl
@[simp] theorem modBridle_msix : (modBridle s f).msix = s.msix := rfl
@[simp] theorem modBridle_kc : (modBridle s f).kc = s.kc := rfl
@[simp] theorem modBridle_tether : (modBridle s f).tether = s.tether := rfl
@[simp] theorem modBridle_events : (modBridle s f).events = s.events := rfl
@[simp] theorem modBridle_evtSel : (modBridle s f).evtSel = s.evtSel := rfl
@[simp] theorem modBridle_evtRes : (modBridle s f).evtRes = s.evtRes := rfl
@[simp] theorem modBridle_kh : (modBridle s f).kh = s.kh := rfl
@[simp] theorem modBridle_audit : (modBridle s f).audit = s.audit := rfl
@[simp] theorem modBridle_sails : (modBridle s f).sails = s.sails := rfl
@[simp] theorem modBridle_sig : (modBridle s f).sig = s.sig := rfl
@[simp] theorem modBridle_lanes : (modBridle s f).lanes = s.lanes := rfl
@[simp] theorem modBridle_rng : (modBridle s f).rng = s.rng := rfl
@[simp] theorem modBridle_cores : (modBridle s f).cores = s.cores := rfl
@[simp] theorem modBridle_mc : (modBridle s f).mc = s.mc := rfl
@[simp] theorem modBridle_debug : (modBridle s f).dbg = s.dbg := rfl
@[simp] theorem modBridle_im : (modBridle s f).im = s.im := rfl
@[simp] theorem modBridle_faults : (modBridle s f).faults = s.faults := rfl
@[simp] theorem modBridle_tamper : (modBridle s f).tamper = s.tamper := rfl
@[simp] theorem modBridle_mooring : (modBridle s f).mooring = s.mooring := rfl
@[simp] theorem modBridle_flash : (modBridle s f).flash = s.flash := rfl
@[simp] theorem modBridle_ccb : (modBridle s f).ccb = s.ccb := rfl
@[simp] theorem modBridle_tag : (modBridle s f).tag = s.tag := rfl
@[simp] theorem modBridle_ports : (modBridle s f).ports = s.ports := rfl
@[simp] theorem modBridle_power : (modBridle s f).power = s.power := rfl
@[simp] theorem modBridle_lc : (modBridle s f).lc = s.lc := rfl
@[simp] theorem modBridle_otp : (modBridle s f).otp = s.otp := rfl
@[simp] theorem modBridle_otpRegs : (modBridle s f).otpRegs = s.otpRegs := rfl
@[simp] theorem modBridle_smbPtr : (modBridle s f).smbPtr = s.smbPtr := rfl
end

/-! ### modLine -/

section
variable (s : State) (m : Nat) (f : Line → Line)
@[simp] theorem modLine_pending : (modLine s m f).pending = s.pending := rfl
@[simp] theorem modLine_cycles : (modLine s m f).cycles = s.cycles := rfl
@[simp] theorem modLine_fresh : (modLine s m f).fresh = s.fresh := rfl
@[simp] theorem modLine_out : (modLine s m f).out = s.out := rfl
@[simp] theorem modLine_regs : (modLine s m f).regs = s.regs := rfl
@[simp] theorem modLine_units : (modLine s m f).units = s.units := rfl
@[simp] theorem modLine_rootSent : (modLine s m f).rootSent = s.rootSent := rfl
@[simp] theorem modLine_rings : (modLine s m f).rings = s.rings := rfl
@[simp] theorem modLine_jobs : (modLine s m f).jobs = s.jobs := rfl
@[simp] theorem modLine_nextSerial : (modLine s m f).nextSerial = s.nextSerial := rfl
@[simp] theorem modLine_intakes : (modLine s m f).intakes = s.intakes := rfl
@[simp] theorem modLine_ballast : (modLine s m f).ballast = s.ballast := rfl
@[simp] theorem modLine_msix : (modLine s m f).msix = s.msix := rfl
@[simp] theorem modLine_kc : (modLine s m f).kc = s.kc := rfl
@[simp] theorem modLine_tether : (modLine s m f).tether = s.tether := rfl
@[simp] theorem modLine_events : (modLine s m f).events = s.events := rfl
@[simp] theorem modLine_evtSel : (modLine s m f).evtSel = s.evtSel := rfl
@[simp] theorem modLine_evtRes : (modLine s m f).evtRes = s.evtRes := rfl
@[simp] theorem modLine_kh : (modLine s m f).kh = s.kh := rfl
@[simp] theorem modLine_audit : (modLine s m f).audit = s.audit := rfl
@[simp] theorem modLine_sails : (modLine s m f).sails = s.sails := rfl
@[simp] theorem modLine_sig : (modLine s m f).sig = s.sig := rfl
@[simp] theorem modLine_lanes : (modLine s m f).lanes = s.lanes := rfl
@[simp] theorem modLine_rng : (modLine s m f).rng = s.rng := rfl
@[simp] theorem modLine_cores : (modLine s m f).cores = s.cores := rfl
@[simp] theorem modLine_mc : (modLine s m f).mc = s.mc := rfl
@[simp] theorem modLine_debug : (modLine s m f).dbg = s.dbg := rfl
@[simp] theorem modLine_im : (modLine s m f).im = s.im := rfl
@[simp] theorem modLine_faults : (modLine s m f).faults = s.faults := rfl
@[simp] theorem modLine_tamper : (modLine s m f).tamper = s.tamper := rfl
@[simp] theorem modLine_mooring : (modLine s m f).mooring = s.mooring := rfl
@[simp] theorem modLine_flash : (modLine s m f).flash = s.flash := rfl
@[simp] theorem modLine_ccb : (modLine s m f).ccb = s.ccb := rfl
@[simp] theorem modLine_tag : (modLine s m f).tag = s.tag := rfl
@[simp] theorem modLine_ports : (modLine s m f).ports = s.ports := rfl
@[simp] theorem modLine_power : (modLine s m f).power = s.power := rfl
@[simp] theorem modLine_lc : (modLine s m f).lc = s.lc := rfl
@[simp] theorem modLine_otp : (modLine s m f).otp = s.otp := rfl
@[simp] theorem modLine_otpRegs : (modLine s m f).otpRegs = s.otpRegs := rfl
@[simp] theorem modLine_smbPtr : (modLine s m f).smbPtr = s.smbPtr := rfl
end

/-! ### modJob -/

section
variable (s : State) (n : Nat) (f : Job → Job)
@[simp] theorem modJob_pending : (modJob s n f).pending = s.pending := by unfold modJob; split <;> rfl
@[simp] theorem modJob_cycles : (modJob s n f).cycles = s.cycles := by unfold modJob; split <;> rfl
@[simp] theorem modJob_fresh : (modJob s n f).fresh = s.fresh := by unfold modJob; split <;> rfl
@[simp] theorem modJob_out : (modJob s n f).out = s.out := by unfold modJob; split <;> rfl
@[simp] theorem modJob_regs : (modJob s n f).regs = s.regs := by unfold modJob; split <;> rfl
@[simp] theorem modJob_units : (modJob s n f).units = s.units := by unfold modJob; split <;> rfl
@[simp] theorem modJob_rootSent : (modJob s n f).rootSent = s.rootSent := by unfold modJob; split <;> rfl
@[simp] theorem modJob_rings : (modJob s n f).rings = s.rings := by unfold modJob; split <;> rfl
@[simp] theorem modJob_nextSerial : (modJob s n f).nextSerial = s.nextSerial := by unfold modJob; split <;> rfl
@[simp] theorem modJob_intakes : (modJob s n f).intakes = s.intakes := by unfold modJob; split <;> rfl
@[simp] theorem modJob_ballast : (modJob s n f).ballast = s.ballast := by unfold modJob; split <;> rfl
@[simp] theorem modJob_msix : (modJob s n f).msix = s.msix := by unfold modJob; split <;> rfl
@[simp] theorem modJob_kc : (modJob s n f).kc = s.kc := by unfold modJob; split <;> rfl
@[simp] theorem modJob_tether : (modJob s n f).tether = s.tether := by unfold modJob; split <;> rfl
@[simp] theorem modJob_events : (modJob s n f).events = s.events := by unfold modJob; split <;> rfl
@[simp] theorem modJob_evtSel : (modJob s n f).evtSel = s.evtSel := by unfold modJob; split <;> rfl
@[simp] theorem modJob_evtRes : (modJob s n f).evtRes = s.evtRes := by unfold modJob; split <;> rfl
@[simp] theorem modJob_kh : (modJob s n f).kh = s.kh := by unfold modJob; split <;> rfl
@[simp] theorem modJob_audit : (modJob s n f).audit = s.audit := by unfold modJob; split <;> rfl
@[simp] theorem modJob_sails : (modJob s n f).sails = s.sails := by unfold modJob; split <;> rfl
@[simp] theorem modJob_sig : (modJob s n f).sig = s.sig := by unfold modJob; split <;> rfl
@[simp] theorem modJob_lanes : (modJob s n f).lanes = s.lanes := by unfold modJob; split <;> rfl
@[simp] theorem modJob_rng : (modJob s n f).rng = s.rng := by unfold modJob; split <;> rfl
@[simp] theorem modJob_cores : (modJob s n f).cores = s.cores := by unfold modJob; split <;> rfl
@[simp] theorem modJob_mc : (modJob s n f).mc = s.mc := by unfold modJob; split <;> rfl
@[simp] theorem modJob_debug : (modJob s n f).dbg = s.dbg := by unfold modJob; split <;> rfl
@[simp] theorem modJob_im : (modJob s n f).im = s.im := by unfold modJob; split <;> rfl
@[simp] theorem modJob_faults : (modJob s n f).faults = s.faults := by unfold modJob; split <;> rfl
@[simp] theorem modJob_bridle : (modJob s n f).bridle = s.bridle := by unfold modJob; split <;> rfl
@[simp] theorem modJob_tamper : (modJob s n f).tamper = s.tamper := by unfold modJob; split <;> rfl
@[simp] theorem modJob_mooring : (modJob s n f).mooring = s.mooring := by unfold modJob; split <;> rfl
@[simp] theorem modJob_flash : (modJob s n f).flash = s.flash := by unfold modJob; split <;> rfl
@[simp] theorem modJob_ccb : (modJob s n f).ccb = s.ccb := by unfold modJob; split <;> rfl
@[simp] theorem modJob_tag : (modJob s n f).tag = s.tag := by unfold modJob; split <;> rfl
@[simp] theorem modJob_ports : (modJob s n f).ports = s.ports := by unfold modJob; split <;> rfl
@[simp] theorem modJob_power : (modJob s n f).power = s.power := by unfold modJob; split <;> rfl
@[simp] theorem modJob_lc : (modJob s n f).lc = s.lc := by unfold modJob; split <;> rfl
@[simp] theorem modJob_otp : (modJob s n f).otp = s.otp := by unfold modJob; split <;> rfl
@[simp] theorem modJob_otpRegs : (modJob s n f).otpRegs = s.otpRegs := by unfold modJob; split <;> rfl
@[simp] theorem modJob_smbPtr : (modJob s n f).smbPtr = s.smbPtr := by unfold modJob; split <;> rfl
end

/-! ### sendMsix -/

section
variable (s : State) (func : Nat) (entry : Nat)
@[simp] theorem sendMsix_pending : (sendMsix s func entry).pending = s.pending := by unfold sendMsix; extract_lets; split <;> rfl
@[simp] theorem sendMsix_cycles : (sendMsix s func entry).cycles = s.cycles := by unfold sendMsix; extract_lets; split <;> rfl
@[simp] theorem sendMsix_fresh : (sendMsix s func entry).fresh = s.fresh := by unfold sendMsix; extract_lets; split <;> rfl
@[simp] theorem sendMsix_regs : (sendMsix s func entry).regs = s.regs := by unfold sendMsix; extract_lets; split <;> rfl
@[simp] theorem sendMsix_units : (sendMsix s func entry).units = s.units := by unfold sendMsix; extract_lets; split <;> rfl
@[simp] theorem sendMsix_rootSent : (sendMsix s func entry).rootSent = s.rootSent := by unfold sendMsix; extract_lets; split <;> rfl
@[simp] theorem sendMsix_rings : (sendMsix s func entry).rings = s.rings := by unfold sendMsix; extract_lets; split <;> rfl
@[simp] theorem sendMsix_jobs : (sendMsix s func entry).jobs = s.jobs := by unfold sendMsix; extract_lets; split <;> rfl
@[simp] theorem sendMsix_nextSerial : (sendMsix s func entry).nextSerial = s.nextSerial := by unfold sendMsix; extract_lets; split <;> rfl
@[simp] theorem sendMsix_intakes : (sendMsix s func entry).intakes = s.intakes := by unfold sendMsix; extract_lets; split <;> rfl
@[simp] theorem sendMsix_ballast : (sendMsix s func entry).ballast = s.ballast := by unfold sendMsix; extract_lets; split <;> rfl
@[simp] theorem sendMsix_kc : (sendMsix s func entry).kc = s.kc := by unfold sendMsix; extract_lets; split <;> rfl
@[simp] theorem sendMsix_tether : (sendMsix s func entry).tether = s.tether := by unfold sendMsix; extract_lets; split <;> rfl
@[simp] theorem sendMsix_events : (sendMsix s func entry).events = s.events := by unfold sendMsix; extract_lets; split <;> rfl
@[simp] theorem sendMsix_evtSel : (sendMsix s func entry).evtSel = s.evtSel := by unfold sendMsix; extract_lets; split <;> rfl
@[simp] theorem sendMsix_evtRes : (sendMsix s func entry).evtRes = s.evtRes := by unfold sendMsix; extract_lets; split <;> rfl
@[simp] theorem sendMsix_kh : (sendMsix s func entry).kh = s.kh := by unfold sendMsix; extract_lets; split <;> rfl
@[simp] theorem sendMsix_audit : (sendMsix s func entry).audit = s.audit := by unfold sendMsix; extract_lets; split <;> rfl
@[simp] theorem sendMsix_sails : (sendMsix s func entry).sails = s.sails := by unfold sendMsix; extract_lets; split <;> rfl
@[simp] theorem sendMsix_sig : (sendMsix s func entry).sig = s.sig := by unfold sendMsix; extract_lets; split <;> rfl
@[simp] theorem sendMsix_lanes : (sendMsix s func entry).lanes = s.lanes := by unfold sendMsix; extract_lets; split <;> rfl
@[simp] theorem sendMsix_rng : (sendMsix s func entry).rng = s.rng := by unfold sendMsix; extract_lets; split <;> rfl
@[simp] theorem sendMsix_cores : (sendMsix s func entry).cores = s.cores := by unfold sendMsix; extract_lets; split <;> rfl
@[simp] theorem sendMsix_mc : (sendMsix s func entry).mc = s.mc := by unfold sendMsix; extract_lets; split <;> rfl
@[simp] theorem sendMsix_debug : (sendMsix s func entry).dbg = s.dbg := by unfold sendMsix; extract_lets; split <;> rfl
@[simp] theorem sendMsix_im : (sendMsix s func entry).im = s.im := by unfold sendMsix; extract_lets; split <;> rfl
@[simp] theorem sendMsix_faults : (sendMsix s func entry).faults = s.faults := by unfold sendMsix; extract_lets; split <;> rfl
@[simp] theorem sendMsix_bridle : (sendMsix s func entry).bridle = s.bridle := by unfold sendMsix; extract_lets; split <;> rfl
@[simp] theorem sendMsix_tamper : (sendMsix s func entry).tamper = s.tamper := by unfold sendMsix; extract_lets; split <;> rfl
@[simp] theorem sendMsix_mooring : (sendMsix s func entry).mooring = s.mooring := by unfold sendMsix; extract_lets; split <;> rfl
@[simp] theorem sendMsix_flash : (sendMsix s func entry).flash = s.flash := by unfold sendMsix; extract_lets; split <;> rfl
@[simp] theorem sendMsix_ccb : (sendMsix s func entry).ccb = s.ccb := by unfold sendMsix; extract_lets; split <;> rfl
@[simp] theorem sendMsix_tag : (sendMsix s func entry).tag = s.tag := by unfold sendMsix; extract_lets; split <;> rfl
@[simp] theorem sendMsix_ports : (sendMsix s func entry).ports = s.ports := by unfold sendMsix; extract_lets; split <;> rfl
@[simp] theorem sendMsix_power : (sendMsix s func entry).power = s.power := by unfold sendMsix; extract_lets; split <;> rfl
@[simp] theorem sendMsix_lc : (sendMsix s func entry).lc = s.lc := by unfold sendMsix; extract_lets; split <;> rfl
@[simp] theorem sendMsix_otp : (sendMsix s func entry).otp = s.otp := by unfold sendMsix; extract_lets; split <;> rfl
@[simp] theorem sendMsix_otpRegs : (sendMsix s func entry).otpRegs = s.otpRegs := by unfold sendMsix; extract_lets; split <;> rfl
@[simp] theorem sendMsix_smbPtr : (sendMsix s func entry).smbPtr = s.smbPtr := by unfold sendMsix; extract_lets; split <;> rfl
end

/-! ### sendManagement -/

section
variable (s : State)
@[simp] theorem sendManagement_pending : (sendManagement s).pending = s.pending := by simp [sendManagement]
@[simp] theorem sendManagement_cycles : (sendManagement s).cycles = s.cycles := by simp [sendManagement]
@[simp] theorem sendManagement_fresh : (sendManagement s).fresh = s.fresh := by simp [sendManagement]
@[simp] theorem sendManagement_regs : (sendManagement s).regs = s.regs := by simp [sendManagement]
@[simp] theorem sendManagement_units : (sendManagement s).units = s.units := by simp [sendManagement]
@[simp] theorem sendManagement_rootSent : (sendManagement s).rootSent = s.rootSent := by simp [sendManagement]
@[simp] theorem sendManagement_rings : (sendManagement s).rings = s.rings := by simp [sendManagement]
@[simp] theorem sendManagement_jobs : (sendManagement s).jobs = s.jobs := by simp [sendManagement]
@[simp] theorem sendManagement_nextSerial : (sendManagement s).nextSerial = s.nextSerial := by simp [sendManagement]
@[simp] theorem sendManagement_intakes : (sendManagement s).intakes = s.intakes := by simp [sendManagement]
@[simp] theorem sendManagement_ballast : (sendManagement s).ballast = s.ballast := by simp [sendManagement]
@[simp] theorem sendManagement_kc : (sendManagement s).kc = s.kc := by simp [sendManagement]
@[simp] theorem sendManagement_tether : (sendManagement s).tether = s.tether := by simp [sendManagement]
@[simp] theorem sendManagement_events : (sendManagement s).events = s.events := by simp [sendManagement]
@[simp] theorem sendManagement_evtSel : (sendManagement s).evtSel = s.evtSel := by simp [sendManagement]
@[simp] theorem sendManagement_evtRes : (sendManagement s).evtRes = s.evtRes := by simp [sendManagement]
@[simp] theorem sendManagement_kh : (sendManagement s).kh = s.kh := by simp [sendManagement]
@[simp] theorem sendManagement_audit : (sendManagement s).audit = s.audit := by simp [sendManagement]
@[simp] theorem sendManagement_sails : (sendManagement s).sails = s.sails := by simp [sendManagement]
@[simp] theorem sendManagement_sig : (sendManagement s).sig = s.sig := by simp [sendManagement]
@[simp] theorem sendManagement_lanes : (sendManagement s).lanes = s.lanes := by simp [sendManagement]
@[simp] theorem sendManagement_rng : (sendManagement s).rng = s.rng := by simp [sendManagement]
@[simp] theorem sendManagement_cores : (sendManagement s).cores = s.cores := by simp [sendManagement]
@[simp] theorem sendManagement_mc : (sendManagement s).mc = s.mc := by simp [sendManagement]
@[simp] theorem sendManagement_debug : (sendManagement s).dbg = s.dbg := by simp [sendManagement]
@[simp] theorem sendManagement_im : (sendManagement s).im = s.im := by simp [sendManagement]
@[simp] theorem sendManagement_faults : (sendManagement s).faults = s.faults := by simp [sendManagement]
@[simp] theorem sendManagement_bridle : (sendManagement s).bridle = s.bridle := by simp [sendManagement]
@[simp] theorem sendManagement_tamper : (sendManagement s).tamper = s.tamper := by simp [sendManagement]
@[simp] theorem sendManagement_mooring : (sendManagement s).mooring = s.mooring := by simp [sendManagement]
@[simp] theorem sendManagement_flash : (sendManagement s).flash = s.flash := by simp [sendManagement]
@[simp] theorem sendManagement_ccb : (sendManagement s).ccb = s.ccb := by simp [sendManagement]
@[simp] theorem sendManagement_tag : (sendManagement s).tag = s.tag := by simp [sendManagement]
@[simp] theorem sendManagement_ports : (sendManagement s).ports = s.ports := by simp [sendManagement]
@[simp] theorem sendManagement_power : (sendManagement s).power = s.power := by simp [sendManagement]
@[simp] theorem sendManagement_lc : (sendManagement s).lc = s.lc := by simp [sendManagement]
@[simp] theorem sendManagement_otp : (sendManagement s).otp = s.otp := by simp [sendManagement]
@[simp] theorem sendManagement_otpRegs : (sendManagement s).otpRegs = s.otpRegs := by simp [sendManagement]
@[simp] theorem sendManagement_smbPtr : (sendManagement s).smbPtr = s.smbPtr := by simp [sendManagement]
end

/-! ### noteRoot -/

section
variable (s : State)
@[simp] theorem noteRoot_pending : (noteRoot s).pending = s.pending := by simp only [noteRoot]; split <;> simp
@[simp] theorem noteRoot_cycles : (noteRoot s).cycles = s.cycles := by simp only [noteRoot]; split <;> simp
@[simp] theorem noteRoot_fresh : (noteRoot s).fresh = s.fresh := by simp only [noteRoot]; split <;> simp
@[simp] theorem noteRoot_regs : (noteRoot s).regs = s.regs := by simp only [noteRoot]; split <;> simp
@[simp] theorem noteRoot_units : (noteRoot s).units = s.units := by simp only [noteRoot]; split <;> simp
@[simp] theorem noteRoot_rings : (noteRoot s).rings = s.rings := by simp only [noteRoot]; split <;> simp
@[simp] theorem noteRoot_jobs : (noteRoot s).jobs = s.jobs := by simp only [noteRoot]; split <;> simp
@[simp] theorem noteRoot_nextSerial : (noteRoot s).nextSerial = s.nextSerial := by simp only [noteRoot]; split <;> simp
@[simp] theorem noteRoot_intakes : (noteRoot s).intakes = s.intakes := by simp only [noteRoot]; split <;> simp
@[simp] theorem noteRoot_ballast : (noteRoot s).ballast = s.ballast := by simp only [noteRoot]; split <;> simp
@[simp] theorem noteRoot_kc : (noteRoot s).kc = s.kc := by simp only [noteRoot]; split <;> simp
@[simp] theorem noteRoot_tether : (noteRoot s).tether = s.tether := by simp only [noteRoot]; split <;> simp
@[simp] theorem noteRoot_events : (noteRoot s).events = s.events := by simp only [noteRoot]; split <;> simp
@[simp] theorem noteRoot_evtSel : (noteRoot s).evtSel = s.evtSel := by simp only [noteRoot]; split <;> simp
@[simp] theorem noteRoot_evtRes : (noteRoot s).evtRes = s.evtRes := by simp only [noteRoot]; split <;> simp
@[simp] theorem noteRoot_kh : (noteRoot s).kh = s.kh := by simp only [noteRoot]; split <;> simp
@[simp] theorem noteRoot_audit : (noteRoot s).audit = s.audit := by simp only [noteRoot]; split <;> simp
@[simp] theorem noteRoot_sails : (noteRoot s).sails = s.sails := by simp only [noteRoot]; split <;> simp
@[simp] theorem noteRoot_sig : (noteRoot s).sig = s.sig := by simp only [noteRoot]; split <;> simp
@[simp] theorem noteRoot_lanes : (noteRoot s).lanes = s.lanes := by simp only [noteRoot]; split <;> simp
@[simp] theorem noteRoot_rng : (noteRoot s).rng = s.rng := by simp only [noteRoot]; split <;> simp
@[simp] theorem noteRoot_cores : (noteRoot s).cores = s.cores := by simp only [noteRoot]; split <;> simp
@[simp] theorem noteRoot_mc : (noteRoot s).mc = s.mc := by simp only [noteRoot]; split <;> simp
@[simp] theorem noteRoot_debug : (noteRoot s).dbg = s.dbg := by simp only [noteRoot]; split <;> simp
@[simp] theorem noteRoot_im : (noteRoot s).im = s.im := by simp only [noteRoot]; split <;> simp
@[simp] theorem noteRoot_faults : (noteRoot s).faults = s.faults := by simp only [noteRoot]; split <;> simp
@[simp] theorem noteRoot_bridle : (noteRoot s).bridle = s.bridle := by simp only [noteRoot]; split <;> simp
@[simp] theorem noteRoot_tamper : (noteRoot s).tamper = s.tamper := by simp only [noteRoot]; split <;> simp
@[simp] theorem noteRoot_mooring : (noteRoot s).mooring = s.mooring := by simp only [noteRoot]; split <;> simp
@[simp] theorem noteRoot_flash : (noteRoot s).flash = s.flash := by simp only [noteRoot]; split <;> simp
@[simp] theorem noteRoot_ccb : (noteRoot s).ccb = s.ccb := by simp only [noteRoot]; split <;> simp
@[simp] theorem noteRoot_tag : (noteRoot s).tag = s.tag := by simp only [noteRoot]; split <;> simp
@[simp] theorem noteRoot_ports : (noteRoot s).ports = s.ports := by simp only [noteRoot]; split <;> simp
@[simp] theorem noteRoot_power : (noteRoot s).power = s.power := by simp only [noteRoot]; split <;> simp
@[simp] theorem noteRoot_lc : (noteRoot s).lc = s.lc := by simp only [noteRoot]; split <;> simp
@[simp] theorem noteRoot_otp : (noteRoot s).otp = s.otp := by simp only [noteRoot]; split <;> simp
@[simp] theorem noteRoot_otpRegs : (noteRoot s).otpRegs = s.otpRegs := by simp only [noteRoot]; split <;> simp
@[simp] theorem noteRoot_smbPtr : (noteRoot s).smbPtr = s.smbPtr := by simp only [noteRoot]; split <;> simp
end

/-! ### setEvent -/

section
variable (s : State) (p : Nat) (b : Nat)
@[simp] theorem setEvent_pending : (setEvent s p b).pending = s.pending := by simp [setEvent]
@[simp] theorem setEvent_cycles : (setEvent s p b).cycles = s.cycles := by simp [setEvent]
@[simp] theorem setEvent_fresh : (setEvent s p b).fresh = s.fresh := by simp [setEvent]
@[simp] theorem setEvent_regs : (setEvent s p b).regs = s.regs := by simp [setEvent]
@[simp] theorem setEvent_rings : (setEvent s p b).rings = s.rings := by simp [setEvent]
@[simp] theorem setEvent_jobs : (setEvent s p b).jobs = s.jobs := by simp [setEvent]
@[simp] theorem setEvent_nextSerial : (setEvent s p b).nextSerial = s.nextSerial := by simp [setEvent]
@[simp] theorem setEvent_intakes : (setEvent s p b).intakes = s.intakes := by simp [setEvent]
@[simp] theorem setEvent_ballast : (setEvent s p b).ballast = s.ballast := by simp [setEvent]
@[simp] theorem setEvent_kc : (setEvent s p b).kc = s.kc := by simp [setEvent]
@[simp] theorem setEvent_tether : (setEvent s p b).tether = s.tether := by simp [setEvent]
@[simp] theorem setEvent_events : (setEvent s p b).events = s.events := by simp [setEvent]
@[simp] theorem setEvent_evtSel : (setEvent s p b).evtSel = s.evtSel := by simp [setEvent]
@[simp] theorem setEvent_evtRes : (setEvent s p b).evtRes = s.evtRes := by simp [setEvent]
@[simp] theorem setEvent_kh : (setEvent s p b).kh = s.kh := by simp [setEvent]
@[simp] theorem setEvent_audit : (setEvent s p b).audit = s.audit := by simp [setEvent]
@[simp] theorem setEvent_sails : (setEvent s p b).sails = s.sails := by simp [setEvent]
@[simp] theorem setEvent_sig : (setEvent s p b).sig = s.sig := by simp [setEvent]
@[simp] theorem setEvent_lanes : (setEvent s p b).lanes = s.lanes := by simp [setEvent]
@[simp] theorem setEvent_rng : (setEvent s p b).rng = s.rng := by simp [setEvent]
@[simp] theorem setEvent_cores : (setEvent s p b).cores = s.cores := by simp [setEvent]
@[simp] theorem setEvent_mc : (setEvent s p b).mc = s.mc := by simp [setEvent]
@[simp] theorem setEvent_debug : (setEvent s p b).dbg = s.dbg := by simp [setEvent]
@[simp] theorem setEvent_im : (setEvent s p b).im = s.im := by simp [setEvent]
@[simp] theorem setEvent_faults : (setEvent s p b).faults = s.faults := by simp [setEvent]
@[simp] theorem setEvent_bridle : (setEvent s p b).bridle = s.bridle := by simp [setEvent]
@[simp] theorem setEvent_tamper : (setEvent s p b).tamper = s.tamper := by simp [setEvent]
@[simp] theorem setEvent_mooring : (setEvent s p b).mooring = s.mooring := by simp [setEvent]
@[simp] theorem setEvent_flash : (setEvent s p b).flash = s.flash := by simp [setEvent]
@[simp] theorem setEvent_ccb : (setEvent s p b).ccb = s.ccb := by simp [setEvent]
@[simp] theorem setEvent_tag : (setEvent s p b).tag = s.tag := by simp [setEvent]
@[simp] theorem setEvent_ports : (setEvent s p b).ports = s.ports := by simp [setEvent]
@[simp] theorem setEvent_power : (setEvent s p b).power = s.power := by simp [setEvent]
@[simp] theorem setEvent_lc : (setEvent s p b).lc = s.lc := by simp [setEvent]
@[simp] theorem setEvent_otp : (setEvent s p b).otp = s.otp := by simp [setEvent]
@[simp] theorem setEvent_otpRegs : (setEvent s p b).otpRegs = s.otpRegs := by simp [setEvent]
@[simp] theorem setEvent_smbPtr : (setEvent s p b).smbPtr = s.smbPtr := by simp [setEvent]
end

/-! ### A read after a write -/

theorem tget_tdel_same {α : Type} [DecidableEq α] {d : Nat → α} {t : Tab α} (h : Tab.wf d t = true) (k : Nat) (x : α) :
    tget x (tdel t k) k = x := by
  unfold Tab.wf at h
  generalize none = lo at h
  induction t generalizing lo with
  | nil => rfl
  | cons e t ih =>
    rw [wf_head] at h
    simp only [tdel]; split
    · rename_i he; exact tget_below h.2.2 (Nat.le_of_eq he.symm) x
    · rename_i he; simp only [tget]; rw [if_neg he]; exact ih _ h.2.2

/-- A read of the key just written, in a canonical table. -/
theorem tget_tset_same {α : Type} [DecidableEq α] {d : Nat → α} {t : Tab α} (h : Tab.wf d t = true) (k : Nat) (v : α) :
    tget (d k) (tset (d k) t k v) k = v := by
  unfold tset; split
  · rename_i hv; rw [tget_tdel_same h, hv]
  · exact tget_tput_same ..

/-- A read of the key just written, where what is written is not the default. -/
theorem tget_tset_new {α : Type} [DecidableEq α] (d : α) (t : Tab α) (k : Nat) {v : α} (h : v ≠ d) (x : α) :
    tget x (tset d t k v) k = v := by rw [tset, if_neg h]; exact tget_tput_same ..

/-- A read of another key. -/
theorem tget_tset_ne {α : Type} [DecidableEq α] (d x : α) (t : Tab α) {k j : Nat} (v : α) (h : j ≠ k) :
    tget x (tset d t k v) j = tget x t j := by
  unfold tset; split
  · exact tget_tdel_ne _ _ h
  · exact tget_tput_ne _ _ _ h

section
variable {s : State} (h : TablesCanonical s)
include h

theorem unitAt_putUnit (p : Nat) (u : UnitHdr) : unitAt (putUnit s p u) p = u := tget_tset_same h.units p u
theorem unitAt_modUnit (p : Nat) (f : UnitHdr → UnitHdr) : unitAt (modUnit s p f) p = f (unitAt s p) := unitAt_putUnit h ..
theorem ringAt_putRing (k : Nat) (r : Ring) : ringAt (putRing s k r) k = r := tget_tset_same h.rings k r
theorem intakeAt_putIntake (c : Nat) (x : Intake) : intakeAt (putIntake s c x) c = x := tget_tset_same h.intakes c x
theorem sailAt_putSail (p : Nat) (e : Sail) : sailAt (putSail s p e) p = e := tget_tset_same h.sails p e
theorem laneAt_putLane (c : Nat) (l : Lane) : laneAt (putLane s c l) c = l := tget_tset_same h.lanes c l
theorem coreAt_putCore (p : Nat) (c : Core) : coreAt (putCore s p c) p = c := tget_tset_same h.cores p c
theorem portAtN_putPortN (n : Nat) (p : Port) : portAtN (putPortN s n p) n = p := tget_tset_same h.ports n p
theorem evtAt_putEvt (n : Nat) (e : EvEntry) : evtAt (putEvt s n e) n = e := tget_tset_same h.events n e
end

section
variable (s : State)
theorem unitAt_putUnit_ne {p q : Nat} (u : UnitHdr) (h : q ≠ p) : unitAt (putUnit s p u) q = unitAt s q := tget_tset_ne _ _ _ _ h
theorem unitAt_modUnit_ne {p q : Nat} (f : UnitHdr → UnitHdr) (h : q ≠ p) : unitAt (modUnit s p f) q = unitAt s q :=
  unitAt_putUnit_ne _ _ h
theorem ringAt_putRing_ne {k j : Nat} (r : Ring) (h : j ≠ k) : ringAt (putRing s k r) j = ringAt s j := tget_tset_ne _ _ _ _ h
theorem coreAt_putCore_ne {p q : Nat} (c : Core) (h : q ≠ p) : coreAt (putCore s p c) q = coreAt s q := tget_tset_ne _ _ _ _ h
theorem jobAt_modJob (n : Nat) (f : Job → Job) : jobAt (modJob s n f) n = (jobAt s n).map f := by
  unfold modJob; split
  · rename_i e; simp [e]
  · rename_i j e; rw [e]; exact tfind_tput_same ..
theorem jobAt_modJob_ne {n m : Nat} (f : Job → Job) (h : m ≠ n) : jobAt (modJob s n f) m = jobAt s m := by
  unfold modJob; split
  · rfl
  · exact tfind_tput_ne _ _ h
end

/-- What an event leaves of units: only the event bits of its own unit change. -/
theorem unitAt_noteRoot (s : State) (p : Nat) : unitAt (noteRoot s) p = unitAt s p := by
  unfold unitAt noteRoot; extract_lets; split
  · show tget _ (sendManagement s).units p = _
    simp [sendManagement, sendMsix]
    split <;> split <;> rfl
  · rfl

theorem unitAt_setEvent {s : State} (h : TablesCanonical s) (p b : Nat) :
    unitAt (setEvent s p b) p = { unitAt s p with event := (unitAt s p).event ||| BitVec.ofNat 32 (2 ^ b) } := by
  rw [setEvent, unitAt_noteRoot, unitAt_modUnit h]

theorem unitAt_setEvent_ne (s : State) {p q : Nat} (b : Nat) (h : q ≠ p) : unitAt (setEvent s p b) q = unitAt s q := by
  rw [setEvent, unitAt_noteRoot, unitAt_modUnit_ne _ _ h]

end Sys2Proof.Machine
end

