-- ==== Sys2Proof/WellFormed.lean ====
section
/-! DEFINITION. Well-formed commands: every operand lies in the range its field or its numbering admits. -/

namespace Sys2Proof

/-- A number below a limit. -/
def below (limit v : Nat) : Bool := decide (v < limit)

/-- A unit page of BAR0 (R72 of 02). -/
def pageOk (page : Nat) : Bool := below 0x1000 page

/-- The page of a Carit core: offset 1 to 4 from a channel root (R33, R34 of 01). -/
def corePageOk (page : Nat) : Bool :=
  decide (0x100 ≤ page ∧ page < 0x320 ∧ 1 ≤ (page - 0x100) % 16 ∧ (page - 0x100) % 16 ≤ 4)

/-- END of a loop instruction: 1 to 4,095 (R551 of 13). -/
def spanOk (span : Nat) : Bool := decide (1 ≤ span) && below (2 ^ 12) span

/-- The command's operands lie in their ranges. -/
def Instr.wf : Instr → Bool
  | .ringDoorbell inst ring => below 1024 inst && below 16 ring
  | .entryReadComplete chan _ _ => below 34 chan
  | .ballastWaitEnd => true
  | .orderedRelease job => below (2 ^ 32) job
  | .jobHandoff job chan core => below (2 ^ 32) job && below 34 chan && pageOk core
  | .hostReadComplete job _ _ => below (2 ^ 32) job
  | .unwrapComplete job => below (2 ^ 32) job
  | .resultFinal job => below (2 ^ 32) job
  | .leafCommit job => below (2 ^ 32) job
  | .completionWrite job => below (2 ^ 32) job
  | .outputSegmentWrite job => below (2 ^ 32) job
  | .forward line _ => below 64 line
  | .forwardSend job _ => below (2 ^ 32) job
  | .result line _ => below 64 line
  | .unitEnable _ page => pageOk page
  | .unitDisable _ page => pageOk page
  | .unitQuiesce _ page => pageOk page
  | .unitUnquiesce _ page => pageOk page
  | .unitLevelChange _ page _ => pageOk page
  | .unitStartComplete page => pageOk page
  | .unitDrainComplete page => pageOk page
  | .faultClear _ page => pageOk page
  | .retireRequest _ page => pageOk page
  | .unitEventClear _ page _ => pageOk page
  | .unitEventEnWrite _ page _ => pageOk page
  | .unitLockSet _ page => pageOk page
  | .registerWrite _ page offset _ => pageOk page && below 4096 offset
  | .snapshotRead _ page offset => pageOk page && below 4096 offset
  | .ringConfigWrite inst ring offset _ => below 1024 inst && below 16 ring && below 4096 offset
  | .ringEnable inst ring => below 1024 inst && below 16 ring
  | .ringDisable inst ring => below 1024 inst && below 16 ring
  | .busMasterEnableChange inst _ => below 1024 inst
  | .msixUnmask _ _ => true
  | .sign job => below (2 ^ 32) job
  | .verify job => below (2 ^ 32) job
  | .verifyBatch job => below (2 ^ 32) job
  | .attestKey job => below (2 ^ 32) job
  | .translatePin job => below (2 ^ 32) job
  | .verifyPinOffset job => below (2 ^ 32) job
  | .generatePinOffset job => below (2 ^ 32) job
  | .dukptTranslatePinAes job => below (2 ^ 32) job
  | .dukptTranslatePinTdea job => below (2 ^ 32) job
  | .arqcVerify job => below (2 ^ 32) job
  | .arpcGenerate job => below (2 ^ 32) job
  | .arqcVerifyArpc job => below (2 ^ 32) job
  | .macGenerate job => below (2 ^ 32) job
  | .macVerify job => below (2 ^ 32) job
  | .generate job => below (2 ^ 32) job
  | .generatePair job => below (2 ^ 32) job
  | .importKey job => below (2 ^ 32) job
  | .translateKeyblock job => below (2 ^ 32) job
  | .exportUnderKek job => below (2 ^ 32) job
  | .kcv job => below (2 ^ 32) job
  | .importPublic job => below (2 ^ 32) job
  | .publicKey job => below (2 ^ 32) job
  | .encapsulate job => below (2 ^ 32) job
  | .decapsulate job => below (2 ^ 32) job
  | .encrypt job => below (2 ^ 32) job
  | .decrypt job => below (2 ^ 32) job
  | .tokenise job => below (2 ^ 32) job
  | .detokenise job => below (2 ^ 32) job
  | .hash job => below (2 ^ 32) job
  | .getRandom job => below (2 ^ 32) job
  | .auditProof job => below (2 ^ 32) job
  | .nopFence job => below (2 ^ 32) job
  | .kcFlush _ _ => true
  | .kcFlushDone => true
  | .tetherPpsPulse _ _ => true
  | .tetherTodFrame _ _ => true
  | .todIdleExpiry => true
  | .tetherNextSec _ _ => true
  | .tetherStrobe _ _ => true
  | .tetherAdrift => true
  | .catchupEnd => true
  | .tetherMark line _ _ => below 64 line
  | .eventFire _ => true
  | .periodicSealFire inst => below 1024 inst
  | .arm _ => true
  | .disarm _ => true
  | .eventClear _ => true
  | .drkGenerate => true
  | .sealWrite inst => below 1024 inst
  | .keyRecordWrite inst => below 1024 inst
  | .audRingRdWrite _ _ => true
  | .audRingConfigWrite _ offset _ => below 4096 offset
  | .audRingEnable _ => true
  | .audPsEnable _ => true
  | .sailModSet page _ => pageOk page
  | .sailToMont page _ => pageOk page
  | .sailFromMont page _ => pageOk page
  | .sailAdd page _ => pageOk page
  | .sailSub page _ => pageOk page
  | .sailMul page _ => pageOk page
  | .sailSqr page _ => pageOk page
  | .sailInv page _ => pageOk page
  | .sailExp page _ => pageOk page
  | .sailReduce page _ => pageOk page
  | .sailRand page _ => pageOk page
  | .sailKeyLoad page _ => pageOk page
  | .sailClear page _ => pageOk page
  | .sailCopy page _ => pageOk page
  | .sailEq page _ => pageOk page
  | .sailCurveSet page _ => pageOk page
  | .sailPoc page _ => pageOk page
  | .sailPload page _ => pageOk page
  | .sailPstore page _ => pageOk page
  | .sailPdbl page _ => pageOk page
  | .sailPadd page _ => pageOk page
  | .sailPmul page _ => pageOk page
  | .sailPdecomp page _ => pageOk page
  | .sailLaneSet page _ => pageOk page
  | .sailNtt page _ => pageOk page
  | .sailIntt page _ => pageOk page
  | .sailPwmul page _ => pageOk page
  | .sailPwadd page _ => pageOk page
  | .sailPwsub page _ => pageOk page
  | .sailSign page _ => pageOk page
  | .sailVerify page _ => pageOk page
  | .sailBatchVerify page _ => pageOk page
  | .sailKeygen page _ => pageOk page
  | .sailEncaps page _ => pageOk page
  | .sailDecaps page _ => pageOk page
  | .sailCommandEnd page => pageOk page
  | .sailAbort _ page _ => pageOk page
  | .wipeComplete page _ => pageOk page
  | .sailMemRead _ page _ => pageOk page
  | .sailMemWrite _ page _ _ => pageOk page
  | .checkForm page => pageOk page
  | .verifyGather page => pageOk page
  | .evaluationComplete page _ => pageOk page
  | .arbitrationComplete page _ => pageOk page
  | .stripeComplete chan _ => below 34 chan
  | .hashStart _ chan alg => below 34 chan && below 256 alg
  | .bulkFeed _ chan _ => below 34 chan
  | .hashEnd _ chan => below 34 chan
  | .selftest _ chan _ => below 34 chan
  | .selftestAll _ chan => below 34 chan
  | .bulkCmdDone chan _ => below 34 chan
  | .sourceHealthFailure src _ => below 4 src
  | .sourceTestPass src => below 4 src
  | .failRunReset src => below 4 src
  | .seedBlockRelease src => below 4 src
  | .seedRequestServe => true
  | .drbgCallDeliver drbg => below 35 drbg
  | .reseed _ drbg => below 35 drbg
  | .pairInstruction core a b => corePageOk core && below (2 ^ 15) a && below (2 ^ 15) b
  | .lit24 core imm => corePageOk core && below (2 ^ 24) imm
  | .lithi core imm => corePageOk core && below (2 ^ 24) imm
  | .call core off => corePageOk core && below (2 ^ 24) off
  | .calli core => corePageOk core
  | .jmp core off => corePageOk core && below (2 ^ 24) off
  | .jmpi core => corePageOk core
  | .bzl core off => corePageOk core && below (2 ^ 24) off
  | .bnzl core off => corePageOk core && below (2 ^ 24) off
  | .loop core last => corePageOk core && spanOk last
  | .loopi core count last => corePageOk core && below (2 ^ 12) count && spanOk last
  | .ld core size _ disp => corePageOk core && below 4 size && below (2 ^ 20) disp
  | .st core size disp => corePageOk core && below 4 size && below (2 ^ 20) disp
  | .ldc core k size _ disp => corePageOk core && below 4 k && below 4 size && below (2 ^ 16) disp
  | .stc core k size disp => corePageOk core && below 4 k && below 4 size && below (2 ^ 16) disp
  | .cld core k _ j => corePageOk core && below 4 k && below 4 j
  | .cst core k _ j => corePageOk core && below 4 k && below 4 j
  | .cpush core k => corePageOk core && below 4 k
  | .cpop core k => corePageOk core && below 4 k
  | .cnarrow core k => corePageOk core && below 4 k
  | .ctest core k => corePageOk core && below 4 k
  | .cfield core k field => corePageOk core && below 4 k && below 6 field
  | .cnull core k => corePageOk core && below 4 k
  | .bmove core operand => corePageOk core && below (2 ^ 12) operand
  | .hstart core alg _ k => corePageOk core && below 256 alg && below 4 k
  | .hfeed core _ k => corePageOk core && below 4 k
  | .hend core => corePageOk core
  | .scmd core engine => corePageOk core && below 3 engine
  | .skey core engine k => corePageOk core && below 3 engine && below 4 k
  | .swait core mask => corePageOk core && below 8 mask
  | .sstat core engine => corePageOk core && below 3 engine
  | .rngDataRead core => corePageOk core
  | .jobNext core => corePageOk core
  | .leafWait core => corePageOk core
  | .coreId core => corePageOk core
  | .tetherRead core => corePageOk core
  | .jobSerial core => corePageOk core
  | .jobEnd core => corePageOk core
  | .leafSubmit core => corePageOk core
  | .trap core n => corePageOk core && below 256 n
  | .retx core => corePageOk core
  | .mfs core reg => corePageOk core && below (2 ^ 9) reg
  | .mts core reg => corePageOk core && below (2 ^ 9) reg
  | .mpusync core => corePageOk core
  | .fence core => corePageOk core
  | .waiti core => corePageOk core
  | .sld core sd k disp => corePageOk core && below 16 sd && below 4 k && below (2 ^ 16) disp
  | .sxor core sd ss => corePageOk core && below 16 sd && below 16 ss
  | .sgfm core sd k => corePageOk core && below 16 sd && below 256 k
  | .sclr core sd _ => corePageOk core && below 16 sd
  | .sput core ss dest => corePageOk core && below 16 ss && below 2 dest
  | .srand core sd => corePageOk core && below 16 sd
  | .interruptTaken core => corePageOk core
  | .nointExpire core => corePageOk core
  | .debugChallenge => true
  | .debugResponse _ inst _ => below 1024 inst
  | .debugAccess core _ _ _ => corePageOk core
  | .debugClose => true
  | .create _ inst => below 1024 inst
  | .reset _ inst => below 1024 inst
  | .remove _ inst => below 1024 inst
  | .removeComplete inst => below 1024 inst
  | .freeze _ inst => below 1024 inst
  | .freezeComplete inst => below 1024 inst
  | .thaw _ inst => below 1024 inst
  | .ticket _ inst => below 1024 inst
  | .save _ inst _ _ => below 1024 inst
  | .restore _ inst _ _ => below 1024 inst
  | .configure _ inst => below 1024 inst
  | .mcBind _ inst => below 1024 inst
  | .cerJoin _ inst => below 1024 inst
  | .cerSplit _ inst => below 1024 inst
  | .cerAbandon _ inst => below 1024 inst
  | .cerActivate _ inst => below 1024 inst
  | .mcLoad _ inst _ _ => below 1024 inst
  | .generationWrapWaitEnd inst => below 1024 inst
  | .functionLevelResetVf inst => below 1024 inst
  | .transientFault page _ job => pageOk page && below (2 ^ 32) job
  | .sramCorrectedError page _ _ => pageOk page
  | .sramUncorrectedError page _ _ => pageOk page
  | .networkParityError page job _ => pageOk page && below (2 ^ 32) job
  | .retirementRecorded page => pageOk page
  | .fieldTestStart chan => below 34 chan
  | .fieldTestResult chan _ _ => below 34 chan
  | .lineSignalDetect line => below 64 line
  | .lineTrainingAttempt line _ => below 64 line
  | .laneLossOfLock line _ => below 64 line
  | .frameRelay line _ _ => below 64 line
  | .lseqRekey line => below 64 line
  | .hello line _ _ _ _ _ _ => below 64 line
  | .key line _ _ _ _ _ => below 64 line
  | .record line _ => below 64 line
  | .linkState line _ _ _ _ => below 64 line
  | .root line _ _ => below 64 line
  | .cosignReq line _ _ _ _ _ _ _ _ => below 64 line
  | .cosign line _ _ _ => below 64 line
  | .cert line _ _ _ _ _ _ => below 64 line
  | .kbpk line _ _ inst _ _ _ _ _ => below 64 line && below 1024 inst
  | .span line _ _ inst _ _ _ _ => below 64 line && below 1024 inst
  | .signReq line _ _ _ => below 64 line
  | .signed line _ _ _ => below 64 line
  | .leave line _ => below 64 line
  | .expel line _ => below 64 line
  | .ack line _ => below 64 line
  | .nak line _ => below 64 line
  | .credit line _ _ _ => below 64 line
  | .fwdAck line _ => below 64 line
  | .nakFwd line _ => below 64 line
  | .nakRes line _ => below 64 line
  | .lost line _ => below 64 line
  | .returned line _ => below 64 line
  | .load line _ _ _ => below 64 line
  | .formLoad _ _ _ => true
  | .formJoin _ => true
  | .formLeave _ => true
  | .formExpel _ => true
  | .formClear _ => true
  | .tamperFire src _ _ => below 42 src
  | .tmpFiredClear _ _ _ => true
  | .evidenceBitBurn => true
  | .tmpTest _ _ => true
  | .tmpTestDone _ => true
  | .tmpFuseBurn _ _ => true
  | .tmpSrcCfgWrite _ src _ => below 42 src
  | .vinLoss => true
  | .cellTamperFire src => below 42 src
  | .vbatCollapse => true
  | .mooringLogClear _ _ => true
  | .flWinDataRead _ _ => true
  | .programGranule _ _ _ _ _ _ => true
  | .bufferedProgram _ _ _ => true
  | .sectorErase _ _ => true
  | .eraseSuspend _ bank => below 2 bank
  | .eraseSuspended bank => below 2 bank
  | .eraseResume _ bank => below 2 bank
  | .readStatus _ bank => below 2 bank
  | .returnToReadArray _ bank => below 2 bank
  | .flashOperationEnd bank _ => below 2 bank
  | .brownout => true
  | .storeCompaction => true
  | .slotPresent _ => true
  | .slotRemoval _ => true
  | .ccbOvercurrent _ => true
  | .cardReply _ _ _ _ => true
  | .cardBlock _ _ => true
  | .cardBusyEnd => true
  | .readRecord _ _ _ => true
  | .writeRecord _ _ _ => true
  | .status _ _ => true
  | .setPwd _ _ => true
  | .clrPwd _ _ => true
  | .lock _ _ => true
  | .unlock _ _ => true
  | .forceErase _ _ => true
  | .ccbAbort _ _ => true
  | .fieldOn => true
  | .fieldOff => true
  | .fdWakeRelease => true
  | .reqa => true
  | .wupa => true
  | .anticollision _ _ => true
  | .select _ _ _ => true
  | .hlta _ => true
  | .rats _ _ => true
  | .sDeselect _ => true
  | .selectAid _ _ _ _ => true
  | .getEvidence _ _ _ _ => true
  | .readJournal _ _ _ _ => true
  | .authBegin _ _ _ _ => true
  | .authEnd _ _ _ _ => true
  | .readIdentity _ _ _ _ => true
  | .readMoorLog _ _ _ _ => true
  | .append _ _ _ _ => true
  | .appendResume _ => true
  | .deviceAppend _ _ => true
  | .tagKeyWrite _ _ => true
  | .tagJrnlClr _ _ => true
  | .vfEnableWrite port _ _ => below 2 port
  | .functionLevelResetPf port => below 2 port
  | .portReset port _ => below 2 port
  | .linkUp port _ _ => below 2 port
  | .completionTimeout job => below (2 ^ 32) job
  | .tlpReceive port _ _ => below 2 port
  | .ideIntegrityFail port _ => below 2 port
  | .getVersion port _ => below 2 port
  | .getCapabilities port _ => below 2 port
  | .negotiateAlgorithms port _ => below 2 port
  | .getDigests port _ => below 2 port
  | .getCertificate port _ => below 2 port
  | .spdmChallenge port _ => below 2 port
  | .getMeasurements port _ => below 2 port
  | .keyExchange port _ => below 2 port
  | .finish port _ => below 2 port
  | .keyUpdate port _ _ => below 2 port
  | .endSession port _ => below 2 port
  | .query port _ _ => below 2 port
  | .keyProg port _ _ _ _ _ => below 2 port
  | .kSetGo port _ _ _ _ => below 2 port
  | .kSetStop port _ _ _ _ => below 2 port
  | .idleEntry => true
  | .standby _ => true
  | .wake _ => true
  | .vinValid _ => true
  | .resetNLow _ => true
  | .fwStage _ _ _ => true
  | .challenge _ => true
  | .ship _ _ _ => true
  | .commission _ _ _ => true
  | .ownerList _ _ _ => true
  | .zeroise _ _ _ => true
  | .smbusSetPointer ptr _ => below (2 ^ 24) ptr
  | .smbusWrite ptr _ _ => below (2 ^ 24) ptr
  | .smbusRead => true
  | .alertResponse => true
  | .tamperSample src _ => below 42 src
  | .loadFlood => true
  | .portHashComplete page => pageOk page
  | .brownoutDeassert => true
  | .physicalFunctionBusMasterEnable port _ => below 2 port
  | .perstRelease port => below 2 port

end Sys2Proof
end

