-- ==== Sys2Proof/Tests/Slice0.lean ====
section
/-! SUPPORT. Small tests: ill-formed commands that the check refuses, worked examples of the spec, and, for every statement with
hypotheses, states and operands that meet them, clause by clause. -/

namespace Sys2Proof.Tests

open Sys2Proof.Machine

/-! ### Small states -/

/-- The state after reset with start-up done. -/
def up : State := { State.reset with power := { State.reset.power with ready := true } }
/-- `s` with the unit on page `p` as given. -/
def withUnit (s : State) (p : Nat) (u : UnitHdr) : State := { s with units := tset (unitDflt p) s.units p u }
/-- `s` with instance `i` as given, its unit RUNNING. -/
def withInst (s : State) (i : Nat) (x : Inst) : State := withUnit (putInst s i x) (instPage i) {}
/-- Instance 1 of port 0 with rings, ballast and Bus Master Enable, ring 0 of it enabled at address 0x10000 with 64 entries. -/
def ringed : State :=
  { withInst up 1 { created := true, rings := 2, ballast := 8, bme := true, weight := 1 } with
    ports := [(0, { up := true, bme := true })]
    units := [(1, {}), (0x401, {})]
    rings := [(16, { pool := some 0, baseLo := 0x10000, log2 := 6, enable := true })] }
/-- A 64-byte entry (R136): CTRL, opcode, IN_LEN, OUT_CAP and the PARAM bytes; pointers 0x20000 and 0x30000 where used. -/
def entry (ctrl op inLen outCap : Nat) (par : Bytes) : Bytes :=
  [BitVec.ofNat 8 ctrl, 0#8] ++ le 2 op ++ zeros 12 ++ le 8 (if inLen = 0 then 0 else 0x20000) ++ le 4 inLen ++ le 4 outCap ++
    le 8 (if outCap = 0 then 0 else 0x30000) ++ pad 24 par
/-- `s` with job `n` as given. -/
def withJob (s : State) (n : Nat) (j : Job) : State := { s with jobs := tput s.jobs n j }

/-- The checks of `Legal` that a Bool decides. -/
def legalChecks (s : State) : Bool :=
  decide (s.smbPtr < 2 ^ 24) && decide (s.dbg.nonce ≠ none → s.dbg.state = .challenged) &&
  decide (s.dbg.state ≠ .opened → s.dbg.inst = 0) && decide (s.dbg.inst < 1024) &&
  Tab.wf (fun _ => 0) s.regs && Tab.wf unitDflt s.units && Tab.wf (fun _ => {}) s.rings && risingFrom none s.jobs &&
  Tab.wf (fun _ => {}) s.intakes && Tab.wf (fun _ => {}) s.msix && Tab.wf (fun _ => {}) s.events && Tab.wf (fun _ => 0) s.evtSel &&
  Tab.wf (fun _ => 0) s.evtRes && Tab.wf (fun _ => {}) s.sails && Tab.wf (fun _ => {}) s.lanes && Tab.wf (fun _ => {}) s.cores &&
  Tab.wf (fun _ => {}) s.ports

theorem legal_of_checks {s : State} (h : legalChecks s = true) : Legal s := by
  simp only [legalChecks, Bool.and_eq_true, decide_eq_true_eq] at h
  exact ⟨⟨h.1.1.1.1.1.1.1.1.1.1.1.1.1.1.1.2, h.1.1.1.1.1.1.1.1.1.1.1.1.1.1.2, h.1.1.1.1.1.1.1.1.1.1.1.1.1.2⟩,
    h.1.1.1.1.1.1.1.1.1.1.1.1.1.1.1.1,
    ⟨h.1.1.1.1.1.1.1.1.1.1.1.1.2, h.1.1.1.1.1.1.1.1.1.1.1.2, h.1.1.1.1.1.1.1.1.1.1.2, h.1.1.1.1.1.1.1.1.1.2, h.1.1.1.1.1.1.1.1.2, h.1.1.1.1.1.1.1.2, h.1.1.1.1.1.1.2, h.1.1.1.1.1.2, h.1.1.1.1.2, h.1.1.1.2, h.1.1.2, h.1.2, h.2⟩⟩

/-! ### Ill-formed commands, refused by name of the operand; the same commands with operands in range pass -/

/-- Refused: the operand `inst` at its limit 1024. -/
theorem test_wf_inst_1024 :
    ([
     .ringDoorbell 1024 0, .ringConfigWrite 1024 0 0 0, .ringEnable 1024 0, .ringDisable 1024 0, .busMasterEnableChange
     1024 false, .periodicSealFire 1024, .sealWrite 1024, .keyRecordWrite 1024, .debugResponse [] 1024 [], .create .fw0
     1024, .reset .fw0 1024, .remove .fw0 1024, .removeComplete 1024, .freeze .fw0 1024, .freezeComplete 1024, .thaw
     .fw0 1024, .ticket .fw0 1024, .save .fw0 1024 false [], .restore .fw0 1024 false [], .configure .fw0 1024, .mcBind
     .fw0 1024, .cerJoin .fw0 1024, .cerSplit .fw0 1024, .cerAbandon .fw0 1024, .cerActivate .fw0 1024, .mcLoad .fw0
     1024 false [], .generationWrapWaitEnd 1024, .functionLevelResetVf 1024, .kbpk 0 0 0 1024 0 0 0 [] [], .span 0 0 0
     1024 0 0 0 []] : List Instr).all (fun i => !i.wf) = true := by decide
/-- Refused: the operand `ring` at its limit 16. -/
theorem test_wf_ring_16 :
    ([
     .ringDoorbell 0 16, .ringConfigWrite 0 16 0 0, .ringEnable 0 16, .ringDisable 0 16] : List Instr).all (fun i => !i.wf) = true := by decide
/-- Refused: the operand `chan` at its limit 34. -/
theorem test_wf_chan_34 :
    ([
     .entryReadComplete 34 false [], .jobHandoff 0 34 0, .stripeComplete 34 0, .hashStart .fw0 34 0, .bulkFeed .fw0 34
     0, .hashEnd .fw0 34, .selftest .fw0 34 0, .selftestAll .fw0 34, .bulkCmdDone 34 0, .fieldTestStart 34,
     .fieldTestResult 34 0 0] : List Instr).all (fun i => !i.wf) = true := by decide
/-- Refused: the operand `job` at its limit 2 ^ 32. -/
theorem test_wf_job_2_32 :
    ([
     .orderedRelease (2 ^ 32), .jobHandoff (2 ^ 32) 0 0, .hostReadComplete (2 ^ 32) false [], .unwrapComplete (2 ^ 32),
     .resultFinal (2 ^ 32), .leafCommit (2 ^ 32), .completionWrite (2 ^ 32), .outputSegmentWrite (2 ^ 32), .forwardSend
     (2 ^ 32) 0, .sign (2 ^ 32), .verify (2 ^ 32), .verifyBatch (2 ^ 32), .attestKey (2 ^ 32), .translatePin (2 ^ 32),
     .verifyPinOffset (2 ^ 32), .generatePinOffset (2 ^ 32), .dukptTranslatePinAes (2 ^ 32), .dukptTranslatePinTdea (2 ^
     32), .arqcVerify (2 ^ 32), .arpcGenerate (2 ^ 32), .arqcVerifyArpc (2 ^ 32), .macGenerate (2 ^ 32), .macVerify (2 ^
     32), .generate (2 ^ 32), .generatePair (2 ^ 32), .importKey (2 ^ 32), .translateKeyblock (2 ^ 32), .exportUnderKek
     (2 ^ 32), .kcv (2 ^ 32), .importPublic (2 ^ 32), .publicKey (2 ^ 32), .encapsulate (2 ^ 32), .decapsulate (2 ^ 32),
     .encrypt (2 ^ 32), .decrypt (2 ^ 32), .tokenise (2 ^ 32), .detokenise (2 ^ 32), .hash (2 ^ 32), .getRandom (2 ^
     32), .auditProof (2 ^ 32), .nopFence (2 ^ 32), .transientFault 0 0 (2 ^ 32), .networkParityError 0 (2 ^ 32) 0,
     .completionTimeout (2 ^ 32)] : List Instr).all (fun i => !i.wf) = true := by decide
/-- Refused: a page past BAR0's 4,096 pages. -/
theorem test_wf_page :
    ([
     .jobHandoff 0 0 0x1000, .unitEnable .fw0 0x1000, .unitDisable .fw0 0x1000, .unitQuiesce .fw0 0x1000, .unitUnquiesce
     .fw0 0x1000, .unitLevelChange .fw0 0x1000 false, .unitStartComplete 0x1000, .unitDrainComplete 0x1000, .faultClear
     .fw0 0x1000, .retireRequest .fw0 0x1000, .unitEventClear .fw0 0x1000 0, .unitEventEnWrite .fw0 0x1000 0,
     .unitLockSet .fw0 0x1000, .registerWrite .fw0 0x1000 0 0, .snapshotRead .fw0 0x1000 0, .sailModSet 0x1000 0,
     .sailToMont 0x1000 0, .sailFromMont 0x1000 0, .sailAdd 0x1000 0, .sailSub 0x1000 0, .sailMul 0x1000 0, .sailSqr
     0x1000 0, .sailInv 0x1000 0, .sailExp 0x1000 0, .sailReduce 0x1000 0, .sailRand 0x1000 0, .sailKeyLoad 0x1000 0,
     .sailClear 0x1000 0, .sailCopy 0x1000 0, .sailEq 0x1000 0, .sailCurveSet 0x1000 0, .sailPoc 0x1000 0, .sailPload
     0x1000 0, .sailPstore 0x1000 0, .sailPdbl 0x1000 0, .sailPadd 0x1000 0, .sailPmul 0x1000 0, .sailPdecomp 0x1000 0,
     .sailLaneSet 0x1000 0, .sailNtt 0x1000 0, .sailIntt 0x1000 0, .sailPwmul 0x1000 0, .sailPwadd 0x1000 0, .sailPwsub
     0x1000 0, .sailSign 0x1000 0, .sailVerify 0x1000 0, .sailBatchVerify 0x1000 0, .sailKeygen 0x1000 0, .sailEncaps
     0x1000 0, .sailDecaps 0x1000 0, .sailCommandEnd 0x1000, .sailAbort .fw0 0x1000 0, .wipeComplete 0x1000 false,
     .sailMemRead .fw0 0x1000 false, .sailMemWrite .fw0 0x1000 false 0, .checkForm 0x1000, .verifyGather 0x1000,
     .evaluationComplete 0x1000 false, .arbitrationComplete 0x1000 false, .transientFault 0x1000 0 0,
     .sramCorrectedError 0x1000 0 0, .sramUncorrectedError 0x1000 0 0, .networkParityError 0x1000 0 0,
     .retirementRecorded 0x1000, .portHashComplete 0x1000] : List Instr).all (fun i => !i.wf) = true := by decide
/-- Refused: the operand `line` at its limit 64. -/
theorem test_wf_line_64 :
    ([
     .forward 64 {}, .result 64 {}, .tetherMark 64 0 0, .lineSignalDetect 64, .lineTrainingAttempt 64 [],
     .laneLossOfLock 64 0, .frameRelay 64 {} false, .lseqRekey 64, .hello 64 [] 0 0 [] 0 [], .key 64 [] [] [] [] [],
     .record 64 [], .linkState 64 0 0 [] [], .root 64 0 0, .cosignReq 64 0 0 0 0 [] [] [] 0, .cosign 64 0 0 [], .cert 64
     0 0 0 [] [] [], .kbpk 64 0 0 0 0 0 0 [] [], .span 64 0 0 0 0 0 0 [], .signReq 64 0 0 [], .signed 64 0 [] [], .leave
     64 0, .expel 64 0, .ack 64 0, .nak 64 0, .credit 64 0 0 0, .fwdAck 64 {}, .nakFwd 64 {}, .nakRes 64 {}, .lost 64
     {}, .returned 64 {}, .load 64 0 0 0] : List Instr).all (fun i => !i.wf) = true := by decide
/-- Refused: the operand `offset` at its limit 4096. -/
theorem test_wf_offset_4096 :
    ([
     .registerWrite .fw0 0 4096 0, .snapshotRead .fw0 0 4096, .ringConfigWrite 0 0 4096 0, .audRingConfigWrite .fw0 4096
     0] : List Instr).all (fun i => !i.wf) = true := by decide
/-- Refused: the operand `alg` at its limit 256. -/
theorem test_wf_alg_256 :
    ([
     .hashStart .fw0 0 256, .hstart 0x101 256 false 0] : List Instr).all (fun i => !i.wf) = true := by decide
/-- Refused: the operand `src` at its limit 4. -/
theorem test_wf_src_4 :
    ([
     .sourceHealthFailure 4 false, .sourceTestPass 4, .failRunReset 4, .seedBlockRelease 4] : List Instr).all (fun i => !i.wf) = true := by decide
/-- Refused: the operand `drbg` at its limit 35. -/
theorem test_wf_drbg_35 :
    ([
     .drbgCallDeliver 35, .reseed .fw0 35] : List Instr).all (fun i => !i.wf) = true := by decide
/-- Refused: a page that is no core page. -/
theorem test_wf_core_page :
    ([
     .pairInstruction 0x105 0 0, .lit24 0x105 0, .lithi 0x105 0, .call 0x105 0, .calli 0x105, .jmp 0x105 0, .jmpi 0x105,
     .bzl 0x105 0, .bnzl 0x105 0, .loop 0x105 1, .loopi 0x105 0 1, .ld 0x105 0 false 0, .st 0x105 0 0, .ldc 0x105 0 0
     false 0, .stc 0x105 0 0 0, .cld 0x105 0 false 0, .cst 0x105 0 false 0, .cpush 0x105 0, .cpop 0x105 0, .cnarrow
     0x105 0, .ctest 0x105 0, .cfield 0x105 0 0, .cnull 0x105 0, .bmove 0x105 0, .hstart 0x105 0 false 0, .hfeed 0x105
     false 0, .hend 0x105, .scmd 0x105 0, .skey 0x105 0 0, .swait 0x105 0, .sstat 0x105 0, .rngDataRead 0x105, .jobNext
     0x105, .leafWait 0x105, .coreId 0x105, .tetherRead 0x105, .jobSerial 0x105, .jobEnd 0x105, .leafSubmit 0x105, .trap
     0x105 0, .retx 0x105, .mfs 0x105 0, .mts 0x105 0, .mpusync 0x105, .fence 0x105, .waiti 0x105, .sld 0x105 0 0 0,
     .sxor 0x105 0 0, .sgfm 0x105 0 0, .sclr 0x105 0 false, .sput 0x105 0 0, .srand 0x105 0, .interruptTaken 0x105,
     .nointExpire 0x105, .debugAccess 0x105 false 0 0] : List Instr).all (fun i => !i.wf) = true := by decide
/-- Refused: the operand `a` at its limit 2 ^ 15. -/
theorem test_wf_a_2_15 :
    ([
     .pairInstruction 0x101 (2 ^ 15) 0] : List Instr).all (fun i => !i.wf) = true := by decide
/-- Refused: the operand `b` at its limit 2 ^ 15. -/
theorem test_wf_b_2_15 :
    ([
     .pairInstruction 0x101 0 (2 ^ 15)] : List Instr).all (fun i => !i.wf) = true := by decide
/-- Refused: the operand `imm` at its limit 2 ^ 24. -/
theorem test_wf_imm_2_24 :
    ([
     .lit24 0x101 (2 ^ 24), .lithi 0x101 (2 ^ 24)] : List Instr).all (fun i => !i.wf) = true := by decide
/-- Refused: the operand `off` at its limit 2 ^ 24. -/
theorem test_wf_off_2_24 :
    ([
     .call 0x101 (2 ^ 24), .jmp 0x101 (2 ^ 24), .bzl 0x101 (2 ^ 24), .bnzl 0x101 (2 ^ 24)] : List Instr).all (fun i => !i.wf) = true := by decide
/-- Refused: an END of 0 or of 4,096. -/
theorem test_wf_loop_end :
    ([
     .loop 0x101 0, .loop 0x101 0x1000, .loopi 0x101 0 0, .loopi 0x101 0 0x1000] : List Instr).all (fun i => !i.wf) = true := by decide
/-- Refused: the operand `count` at its limit 2 ^ 12. -/
theorem test_wf_count_2_12 :
    ([
     .loopi 0x101 (2 ^ 12) 1] : List Instr).all (fun i => !i.wf) = true := by decide
/-- Refused: the operand `size` at its limit 4. -/
theorem test_wf_size_4 :
    ([
     .ld 0x101 4 false 0, .st 0x101 4 0, .ldc 0x101 0 4 false 0, .stc 0x101 0 4 0] : List Instr).all (fun i => !i.wf) = true := by decide
/-- Refused: the operand `disp` at its limit 2 ^ 20. -/
theorem test_wf_disp_2_20 :
    ([
     .ld 0x101 0 false (2 ^ 20), .st 0x101 0 (2 ^ 20)] : List Instr).all (fun i => !i.wf) = true := by decide
/-- Refused: the operand `k` at its limit 4. -/
theorem test_wf_k_4 :
    ([
     .ldc 0x101 4 0 false 0, .stc 0x101 4 0 0, .cld 0x101 4 false 0, .cst 0x101 4 false 0, .cpush 0x101 4, .cpop 0x101
     4, .cnarrow 0x101 4, .ctest 0x101 4, .cfield 0x101 4 0, .cnull 0x101 4, .hstart 0x101 0 false 4, .hfeed 0x101 false
     4, .skey 0x101 0 4, .sld 0x101 0 4 0] : List Instr).all (fun i => !i.wf) = true := by decide
/-- Refused: the operand `disp` at its limit 2 ^ 16. -/
theorem test_wf_disp_2_16 :
    ([
     .ldc 0x101 0 0 false (2 ^ 16), .stc 0x101 0 0 (2 ^ 16), .sld 0x101 0 0 (2 ^ 16)] : List Instr).all (fun i => !i.wf) = true := by decide
/-- Refused: the operand `j` at its limit 4. -/
theorem test_wf_j_4 :
    ([
     .cld 0x101 0 false 4, .cst 0x101 0 false 4] : List Instr).all (fun i => !i.wf) = true := by decide
/-- Refused: the operand `field` at its limit 6. -/
theorem test_wf_field_6 :
    ([
     .cfield 0x101 0 6] : List Instr).all (fun i => !i.wf) = true := by decide
/-- Refused: the operand `operand` at its limit 2 ^ 12. -/
theorem test_wf_operand_2_12 :
    ([
     .bmove 0x101 (2 ^ 12)] : List Instr).all (fun i => !i.wf) = true := by decide
/-- Refused: the operand `engine` at its limit 3. -/
theorem test_wf_engine_3 :
    ([
     .scmd 0x101 3, .skey 0x101 3 0, .sstat 0x101 3] : List Instr).all (fun i => !i.wf) = true := by decide
/-- Refused: the operand `mask` at its limit 8. -/
theorem test_wf_mask_8 :
    ([
     .swait 0x101 8] : List Instr).all (fun i => !i.wf) = true := by decide
/-- Refused: the operand `n` at its limit 256. -/
theorem test_wf_n_256 :
    ([
     .trap 0x101 256] : List Instr).all (fun i => !i.wf) = true := by decide
/-- Refused: the operand `reg` at its limit 2 ^ 9. -/
theorem test_wf_reg_2_9 :
    ([
     .mfs 0x101 (2 ^ 9), .mts 0x101 (2 ^ 9)] : List Instr).all (fun i => !i.wf) = true := by decide
/-- Refused: the operand `sd` at its limit 16. -/
theorem test_wf_sd_16 :
    ([
     .sld 0x101 16 0 0, .sxor 0x101 16 0, .sgfm 0x101 16 0, .sclr 0x101 16 false, .srand 0x101 16] : List Instr).all (fun i => !i.wf) = true := by decide
/-- Refused: the operand `ss` at its limit 16. -/
theorem test_wf_ss_16 :
    ([
     .sxor 0x101 0 16, .sput 0x101 16 0] : List Instr).all (fun i => !i.wf) = true := by decide
/-- Refused: the operand `k` at its limit 256. -/
theorem test_wf_k_256 :
    ([
     .sgfm 0x101 0 256] : List Instr).all (fun i => !i.wf) = true := by decide
/-- Refused: the operand `dest` at its limit 2. -/
theorem test_wf_dest_2 :
    ([
     .sput 0x101 0 2] : List Instr).all (fun i => !i.wf) = true := by decide
/-- Refused: the operand `src` at its limit 42. -/
theorem test_wf_src_42 :
    ([
     .tamperFire 42 0 0, .tmpSrcCfgWrite .fw0 42 0, .cellTamperFire 42, .tamperSample 42 false] : List Instr).all (fun i => !i.wf) = true := by decide
/-- Refused: the operand `bank` at its limit 2. -/
theorem test_wf_bank_2 :
    ([
     .eraseSuspend .fw0 2, .eraseSuspended 2, .eraseResume .fw0 2, .readStatus .fw0 2, .returnToReadArray .fw0 2,
     .flashOperationEnd 2 0] : List Instr).all (fun i => !i.wf) = true := by decide
/-- Refused: the operand `port` at its limit 2. -/
theorem test_wf_port_2 :
    ([
     .vfEnableWrite 2 false 0, .functionLevelResetPf 2, .portReset 2 0, .linkUp 2 0 0, .tlpReceive 2 false 0,
     .ideIntegrityFail 2 0, .getVersion 2 [], .getCapabilities 2 [], .negotiateAlgorithms 2 [], .getDigests 2 [],
     .getCertificate 2 [], .spdmChallenge 2 [], .getMeasurements 2 [], .keyExchange 2 [], .finish 2 [], .keyUpdate 2 0
     [], .endSession 2 0, .query 2 0 0, .keyProg 2 0 0 0 false [], .kSetGo 2 0 0 0 false, .kSetStop 2 0 0 0 false,
     .physicalFunctionBusMasterEnable 2 false, .perstRelease 2] : List Instr).all (fun i => !i.wf) = true := by decide
/-- Refused: the operand `ptr` at its limit 2 ^ 24. -/
theorem test_wf_ptr_2_24 :
    ([
     .smbusSetPointer (2 ^ 24) false, .smbusWrite (2 ^ 24) 0 false] : List Instr).all (fun i => !i.wf) = true := by decide
/-- In range, the same checks pass. -/
theorem test_wf_accepts : ([.ringDoorbell 1023 15, .jobHandoff (2 ^ 32 - 1) 33 0x102, .registerWrite .fw0 0xFFF 0xFFC 0,
    .loopi 0x314 4095 4095, .ldc 0x101 3 3 true 0xFFFF, .cfield 0x104 3 5, .lit24 0x101 0xFFFFFF, .sgfm 0x101 15 255] : List Instr).all Instr.wf = true := by decide

/-! ### Worked examples of the spec -/

/-- The state a command answers. -/
def after (i : Instr) (s : State) : State := match exec i s with
  | .next t => t
  | _ => s

/-- 01, stand-ins: UNIT_STATE of a retired channel, of a running one and of a spare. -/
theorem test_unit_state : headerRead (withUnit up 0x150 { state := .retired }) 0x150 0x008 = 6 ∧ headerRead up 0x140 0x008 = 2 ∧
    headerRead up 0x310 0x008 = 0 := by
  decide

/-- 02: channel 7 stopped with a job in flight reads STOPPING; enabled again it also reads ENABLE_PENDING. -/
theorem test_enable_pending :
    let s := after (.unitDisable .pf0 0x170) (withJob up 1 { chan := some 7, phase := .run })
    headerRead s 0x170 0x008 = 3 ∧ headerRead (after (.unitEnable .pf0 0x170) s) 0x170 0x008 = 0x80000003 := by decide

/-- 03: RING_STATUS after a failed entry read with jobs done, after ENABLE is cleared, and of an active idle ring. -/
theorem test_ring_status :
    let r : Ring := { pool := some 0, baseLo := 0x10000, log2 := 6, enable := true, error := true, cause := 1, faultIndex := 0x15 }
    ringRead { ringed with rings := [(16, r)] } 1 0 0x014 = 0x0015001D ∧
    ringRead { ringed with rings := [(16, { r with enable := false })] } 1 0 0x014 = 0x0015001C ∧ ringRead ringed 1 0 0x014 = 7 := by
  decide

/-- 03: the completion of chain member 0xFE. -/
theorem test_completion :
    completion { entry := [0xD0#8, 0, 0x02, 0x06, 0x01, 0x01, 0, 0], gen := 3, seq := 0x12A40, outLen := 0x20, result := zeros 44 } =
      [0x40, 0x03, 0, 0, 0x01, 0x01, 0, 0, 0x40, 0x2A, 0x01, 0, 0, 0, 0, 0, 0x20, 0, 0, 0] ++ zeros 44 := by decide

/-- 04: the PAN fields of formats 4 and 0, the decrypted format 4 field, and the clear format 0 block. -/
theorem test_pin_fields :
    let pan := [5, 4, 1, 2, 7, 5, 1, 2, 3, 4, 1, 2, 3, 4, 5, 2]
    panField4 pan = [0x45, 0x41, 0x27, 0x51, 0x23, 0x41, 0x23, 0x45, 0x20, 0, 0, 0, 0, 0, 0, 0] ∧
    panField pan = [0, 0, 0x27, 0x51, 0x23, 0x41, 0x23, 0x45] ∧
    pinOf 4 [0x44, 0x48, 0x21, 0xAA, 0xAA, 0xAA, 0xAA, 0xAA, 0x3F, 0x91, 0x0C, 0x57, 0xE2, 0x68, 0xB4, 0x1D] = some [4, 8, 2, 1] ∧
    xorBytes (ofNibbles ([0, 4] ++ [4, 8, 2, 1] ++ List.replicate 10 15)) (panField pan) =
      [0x04, 0x48, 0x06, 0xAE, 0xDC, 0xBE, 0xDC, 0xBA] := by decide

/-- 05: the capability words of the filled record, and narrowed to 32 bytes. -/
theorem test_capability :
    let c : Cap := { tag := true, object := keyObject 0x3D61D 0x1F5, perms := 0x48, inst := 0x5A, gen := 7, offset := 0, length := 96 }
    capBits c = 0x0048_1000_07D7_D61D + 2 ^ 64 * 0x0000_C000_0000_1C5A ∧
    capBits (narrow c 0 32 0x48) = 0x0048_1000_07D7_D61D + 2 ^ 64 * 0x0000_4000_0000_1C5A ∧ (narrow c 0 32 0x48).tag = true := by
  decide

/-- 06: EVT_CTRL and EVT_FIRED of entry 0x13. -/
theorem test_event_done :
    let s : State := { up with events := [(0x13, { state := .done, fired := 0x0006A2F1C4200000 })], evtSel := [(0, 0x13)] }
    tetherRead s .pf0 0x094 = 0x20 ∧ tetherRead s .pf0 0x098 = 0xC4200000 ∧ tetherRead s .pf0 0x09C = 0x0006A2F1 := by decide

set_option maxRecDepth 8192 in
/-- 07 (R342): x · 0x8D = 1 for x = 2. -/
theorem test_gf : gfMul 2 0x8D = 1 ∧ gfMul 3 0x8D = 0x8C ∧ gfMul (gfInv 2) 2 = 1 := ⟨by decide, by decide, by decide +kernel⟩

/-- 08: order numbers of the sibling nodes of leaf 967, and the seal's height. -/
theorem test_node_order :
    nodeOrder 0 966 = 1926 ∧ nodeOrder 1 482 = 1925 ∧ nodeOrder 2 240 = 1922 ∧ nodeOrder 3 121 = 1945 ∧ nodeOrder 6 14 = 1915 ∧
    nodeOrder 7 6 = 1788 ∧ nodeOrder 8 2 = 1533 ∧ nodeOrder 9 0 = 1022 ∧ sealHeight 970 = 10 ∧ allPadding 970 4 61 = true ∧
    allPadding 970 3 121 = false := by decide

/-- 09: P-256's base point lies on the curve, and with y + 1 it does not; the other named base points lie on theirs. -/
theorem test_on_curve :
    let slot (c : NamedCurve) : CurveSlot := { edwards := c.edwards, p := c.p, a := c.a, b := c.b, order := c.order, n := c.n }
    onCurve (slot p256) (some (p256.x, p256.y)) = true ∧ onCurve (slot p256) (some (p256.x, p256.y + 1)) = false ∧
    onCurve (slot p384) (some (p384.x, p384.y)) = true ∧ onCurve (slot ed25519) (some (ed25519.x, ed25519.y)) = true ∧
    onCurve (slot ed448) (some (ed448.x, ed448.y)) = true := by decide

/-- 09: the words of the base point as the example writes them. -/
theorem test_base_point_words :
    (List.range 4).map (fun k => bits p256.x (64 * k) 64) =
      [0xF4A13945D898C296, 0x77037D812DEB33A0, 0xF8BCE6E563A440F2, 0x6B17D1F2E12C4247] ∧ bits p256.y 0 64 = 0xCBB6406837BF51F5 := by
  decide

/-- 09: cycles of CURVE_SET, POC and the blinded PMUL of the example. -/
theorem test_sail_cycles :
    let e : Sail := { mods := [], curves := [(0, { p := p256.p, a := p256.a, b := p256.b, order := p256.order, n := 4 })] }
    commandCycles 0x135 e { word := 0x00010020 } 0 = 228 ∧ commandCycles 0x135 e { word := 0x21, arg1 := 0x00040000 } 0 = 15 ∧
    commandCycles 0x135 e { word := 0x1026, arg0 := 0x00040020, arg1 := 0x00040010, arg2 := 0x00040000 } 0 = 16512 := by decide

/-- 10: cycles of evaluations of 64, 32 and 1 Ed25519 members on a narrow engine. -/
theorem test_batch_cycles :
    costSeq false 0x42 3 64 = some 512600 ∧ costSeq false 0x42 3 32 = some 263000 ∧ costSeq false 0x42 3 1 = some 21200 := by decide

/-- 12: RNG_COND and RNG_SRC2. -/
theorem test_rng :
    let src : Source := { state := .healthy }
    let bad : Source := { state := .retest, failRun := 1, lastApt := true, aptFails := 1 }
    let rng : Rng := { gathered := true, pool := List.replicate 10 (0, 0), sources := [(0, src), (1, src), (2, bad), (3, src)] }
    rngRead { up with rng := rng } 0 0x050 = 0xAB ∧
    rngRead { up with rng := { rng with sources := [(2, { bad with state := .healthy })] } } 0 0x048 = 0x00010029 := by decide

/-- 13: the pairs [LIT 0][LDA 1] and [ADD][LDA 1] are independent, [LDA 1][ADD] is dependent. -/
theorem test_pairs :
    pairDependent 0x0200 0x4201 = false ∧ pairDependent 0x1200 0x4201 = false ∧ pairDependent 0x1200 0x0000 = false ∧
    pairDependent 0x4201 0x1200 = true := by decide

/-- 14: CTX, and the store at 0x1BFFC of ring 3, whose first half fails with DETAIL 5. -/
theorem test_straddle :
    let c : Core := { ctxInst := 0x5A, ctxGen := 7, inJob := true,
                      mpu := [(0x068, 0x00018027), (0x069, 0x0001BF00), (0x06A, 0x0001C037), (0x06B, 0x0001FF10)] }
    ctxWord c = 0x00041C5A ∧ accessCheck 0x131 c 3 .write true 0x1BFFC 8 = some ⟨8, 5, 0x1BFFC⟩ ∧
    accessCheck 0x131 c 3 .write true 0x1C000 4 = none := by decide

/-- 15: INST_GEN and DP_INFO of the reset instance. -/
theorem test_inst_regs :
    let s := withUnit (putInst up 0xC3 { created := true, gen := 0x42 }) (instPage 0xC3) { quiesce := false }
    instRead s 0xC3 0x058 = 0x42 ∧ dpRead s 0xC3 0x040 = 0x000108C3 := by decide

/-- 16: UNIT_FAULT and UNIT_RETIRE of channel 12, UNIT_FAULT of page 0x1C5. -/
theorem test_fault_regs :
    let u : UnitHdr := { state := .retired, permanent := true, permCause := 0x0C, lastCause := 0x0C, field := true, mapIndex := 0 }
    let e : UnitHdr := { permanent := true, permCause := 4, lastCause := 4, transient := 2 }
    headerRead (withUnit up 0x1C0 u) 0x1C0 0x010 = 0x800C0C00 ∧ headerRead (withUnit up 0x1C0 u) 0x1C0 0x014 = 0x00020000 ∧
    headerRead (withUnit up 0x1C5 e) 0x1C5 0x010 = 0x80040402 := by decide

/-- 17: LINE_CFG of a line of 24 lanes from lane 144. -/
theorem test_line_cfg : lineCfgRead { first := 144, count := 24 } = 0x3090 := by decide

/-- 18: the two estimated positions, and entry 0's bytes 7 to 15. -/
theorem test_estimate :
    let a : Anchor := { rtc := 0x02000000, pos := 0x0006A2F000000000 }
    let b : Anchor := { rtc := 0x0231FFC0, pos := 0x0006A2F006400000 }
    estimate (some a) b 0x02190000 = (1, 0x0006A2F000000000 + 52429824) ∧
    estimate (some a) b 0x02190106 = (1, 0x0006A2F000000000 + 52438208) ∧
    slice (estimateEntry (some a) b ([0, 0, 0x19, 2, 0, 0, 0x12, 0x08] ++ zeros 8 ++ [7, 0, 2] ++ zeros 13)) 7 9 =
      [0x48, 0, 0x04, 0x20, 0x03, 0xF0, 0xA2, 0x06, 0] := by decide

/-- 18: MOOR_STATUS, MOOR_CORR, TMP_EPISODE and TMP_FIRED_LO after the breach. -/
theorem test_breach_regs :
    let s : State := { withUnit up 0 { quiesce := true } with
      mooring := { log := [[], []], evidTarget := 4, corr := 1, corrCount := 2, epRung := 4, epOpen := true, epNumber := 7 }
      tamper := { fired := 0x40001 } }
    mooringRead s 0 0x040 = 0x00040002 ∧ tetherRead s .pf0 0x0E0 = 9 ∧ tamperRead s 0 0x054 = 0x0007001C ∧
    tamperRead s 0 0x044 = 0x00040001 := by decide

/-- 19: the sector of 0x8E0100, and the status words while erasing, suspended, and while the store write runs. -/
theorem test_flash_status :
    let st (b : Bank) : State := { up with flash := { up.flash with banks := [(0, b)] } }
    sectorOf 0x8E0100 = 78 ∧ bankStatus (st { run := some { op := 3, sector := 78 }, op := 3 }) 0 = 0x004E000D ∧
    bankStatus (st { suspended := some 78, op := 3 }) 0 = 0x004E000E ∧
    bankStatus (st { suspended := some 78, run := some { op := 2 }, op := 2 }) 0 = 0x004E000B ∧
    bankStatus (st { suspended := some 78, op := 1 }) 0 = 0x004E0006 := by decide

/-- 20: CCB_SLOT2 and CCB_RESULT of the example. -/
theorem test_card_regs :
    let s : State := { up with ccb := { up.ccb with
      slots := [(2, { state := .ready, present := true, power := true, addr := 5, mode := 2 })]
      accs := [(0, { state := 2, code := 8 }), (2, { state := 2, code := 0, rstate := true })] } }
    ccbRead s 0 0x04C = 0x000004BB ∧ ccbRead s 0 0x088 = 0x00000802 ∧ ccbRead s 2 0x088 = 0x00010002 := by decide

/-- 21: the BCCs of both packages; A answers the anticollision frame of 32 bits with C3, B stays silent; after SELECT and HLTA
device A reads 0x17, and B selected reads 0x15. -/
theorem test_two_packages :
    let pkg (u : Byte) : State := { up with tag := { up.tag with field := true, state := .ready, uid := [0x08, 0x5C, 0x31, u] } }
    let sel (u : Byte) : Instr := .select 0x70 [0x08, 0x5C, 0x31, u, 0x08 ^^^ 0x5C ^^^ 0x31 ^^^ u] true
    uidBcc (pkg 0xA6).tag = [0x08, 0x5C, 0x31, 0xA6, 0xC3] ∧ uidBcc (pkg 0x26).tag = [0x08, 0x5C, 0x31, 0x26, 0x43] ∧
    (after (.anticollision 0x60 [0x08, 0x5C, 0x31, 0xA6]) (pkg 0xA6)).out = [.tagBits (sentBits [0xC3])] ∧
    (after (.anticollision 0x60 [0x08, 0x5C, 0x31, 0xA6]) (pkg 0x26)).out = [] ∧
    tagRead (after (.hlta true) (after (sel 0xA6) (pkg 0xA6))) 0 0x040 = 0x17 ∧
    tagRead (after (sel 0x26) (pkg 0x26)) 0 0x040 = 0x15 ∧ tagRead (pkg 0xA6) 0 0x044 = 0xA6315C08 := by decide

/-- 22: HP_LINK at 32 GT/s x16. -/
theorem test_hp_link : portRead { up with ports := [(1, { speed := 5, width := 16, up := true })] } 1 0x040 = 0x185 := by decide

/-- No word spells a command: the table gives no bits. -/
theorem test_decode_none : decodeTableWord 32 0x12345678 = none := by decide

/-! ### Worked examples, one command each -/

/-- Core 0x101 in ring 0 as given. -/
def loopCore (c : Core) : State := { up with cores := [(0x101, c)] }
/-- Values on a stack, top first. -/
def vals (l : List Nat) : List Ent := l.map fun v => { v := BitVec.ofNat 64 v }

/-- 13: [LIT 0][LDA 1] at 0x100 pushes 0 and the word at A, and advances A by 8. -/
theorem test_lit_lda :
    let c := coreAt (after (.pairInstruction 0x101 0x0200 0x4201)
      (loopCore { pc := 0x100, a := 0x1A000, rsp := 0x8000, mem := [(0x1A000, 1)] })) 0x101
    c.stack.map (·.v) = [1, 0] ∧ c.a = 0x1A008 ∧ c.pc = 0x104 ∧ c.cycles = 2 := by decide

/-- 13: LOOPI END 1, COUNT 7 at 0x104: LS = LE = 0x108. -/
theorem test_loopi :
    let c := coreAt (after (.loopi 0x101 7 1) (loopCore { pc := 0x104, stack := vals [1, 0], depth := 2, rsp := 0x8000 })) 0x101
    tget 0 c.ls 0 = 0x108 ∧ tget 0 c.le 0 = 0x108 ∧ tget 0 c.lc 0 = 7 ∧ c.ldepth = 1 ∧ c.cycles = 1 := by decide

/-- 13: the body [ADD][LDA 1] goes back to 0x108 while the count lasts, and leaves the loop after the last time. -/
theorem test_loop_body :
    let c (n : Nat) := coreAt (after (.pairInstruction 0x101 0x1200 0x4201) (loopCore
      { pc := 0x108, stack := vals [1, 0], depth := 2, a := 0x1A008, rsp := 0x8000, mem := [(0x1A008, 2)],
        ls := [(0, 0x108)], le := [(0, 0x108)], lc := [(0, BitVec.ofNat 64 n)], ldepth := 1 })) 0x101
    (c 7).stack.map (·.v) = [2, 1] ∧ (c 7).pc = 0x108 ∧ tget 0 (c 7).lc 0 = 6 ∧ (c 7).ldepth = 1 ∧
    (c 1).pc = 0x10C ∧ (c 1).ldepth = 0 ∧ (c 1).c = false := by decide

/-- 19: an erase of sector 78 that was asked to suspend: the status word once it is suspended. -/
theorem test_erase_suspended :
    let s : State := { up with flash := { up.flash with banks := [(0, { op := 3, run := some { op := 3, sector := 78 }, suspendAsked := true })] } }
    bankStatus (after (.eraseSuspended 0) s) 0 = 0x004E000E := by decide

/-- 06: with the second's number announced, an accepted pulse 1 s after the last one makes the position that second. -/
theorem test_pulse :
    let t : Tether := { source := 1, state := .locked, pos := 0x0006A2F1C4000000, lastSec := 0x6A2F1C40, everPulsed := true,
                        number := some (1, 0x6A2F1C41), interval := 25000000 }
    let s : State := { up with tether := t, cycles := 25000000 }
    (after (.tetherPpsPulse true 25000000) s).tether.lastSec = 0x6A2F1C41 := by decide

/-! ### Witnesses: the machine, rings (statements on rings, intakes, ballast) -/

theorem legal_ringed : Legal ringed := legal_of_checks (by decide)

/-- StepRunsFrontCommand: a command in front. -/
theorem witness_StepRunsFrontCommand : ({ up with pending := [.alertResponse] } : State).pending = .alertResponse :: [] := rfl

/-- MooredClockCounts: MOORED, no append in hand. -/
theorem witness_MooredClockCounts :
    ∃ s : State, s.pending = [] ∧ s.power.state = .moored ∧ s.tag.run = none ∧ s.tag.waiting = [] ∧ s.mooring.rtcFrac < 25000000 ∧
      s.mooring.rtc < 2 ^ 48 := ⟨{ up with power := { up.power with state := .moored } }, by decide⟩

/-- EveryStepKeepsLegal, BurnedOtpBitStaysBurned: a legal state with a step. -/
theorem witness_EveryStepKeepsLegal : Legal up ∧ ∃ t, step up = .next t := ⟨legal_of_checks (by decide), _, rfl⟩

/-- RingScanAndDoorbell: a ring that its intake does not scan, one that it scans, one that is not ACTIVE, one not allocated. -/
theorem witness_RingScanAndDoorbell :
    ringThere ringed 1 0 = true ∧ ringActive ringed 16 = true ∧ (intakeAt ringed 0).scan.contains 16 = false ∧
    (intakeAt { ringed with intakes := [(0, { scan := [16] })] } 0).scan.contains 16 = true ∧
    ringActive { ringed with intakes := [(0, { scan := [16] })] } 16 = true ∧
    ringActive ringed 17 = false ∧ ringThere ringed 1 15 = false ∧ ringThere ringed 1 16 = false := by decide

/-- RingConfigWrite: a disabled, idle ring; an enabled one. -/
theorem witness_RingConfigWrite :
    (let s := { ringed with rings := [(16, { pool := some 0 })] }
     ringThere s 1 0 = true ∧ (ringAt s (ringKey 1 0)).enable = false ∧ ringIdle s (ringKey 1 0) = true) ∧
    ringThere ringed 1 0 = true ∧ (ringAt ringed (ringKey 1 0)).enable = true := by decide

/-- RingEnableBusMasterAndMsix: sizes at both bounds, a ring that ends at the top of the address space, one beyond it, and an
enabled one. -/
theorem witness_RingEnable :
    (let s (n : Nat) (hi : Word32) := { ringed with rings := [(16, { pool := some 0, log2 := n, baseLo := 0xFFFFF000, baseHi := hi })] }
     Legal (s 6 0) ∧ ringThere (s 6 0) 1 0 = true ∧ (ringAt (s 6 0) (ringKey 1 0)).enable = false ∧
      ringBase (ringAt (s 6 0xFFFFFFFF) (ringKey 1 0)) + 64 * 2 ^ 6 ≤ 2 ^ 64 ∧
      ringBase (ringAt (s 16 0) (ringKey 1 0)) + 64 * 2 ^ 16 ≤ 2 ^ 64 ∧
      2 ^ 64 < ringBase (ringAt (s 7 0xFFFFFFFF) (ringKey 1 0)) + 64 * 2 ^ 7 ∧
      (ringAt (s 5 0) (ringKey 1 0)).log2 < 6 ∧ 16 < (ringAt (s 17 0) (ringKey 1 0)).log2) ∧
    Legal ringed ∧ (ringAt ringed (ringKey 1 0)).enable = true :=
  ⟨⟨legal_of_checks (by decide), by decide⟩, legal_ringed, by decide⟩

theorem witness_BusMasterAndMsix :
    (instAt (putInst ringed 1023 { created := true }) 1023).bme = false ∧
    ((msixAt { up with msix := [(32, { pending := true })] } 1 0).masked = true ∧
      (msixAt { up with msix := [(32, { pending := true })] } 1 0).pending = true) ∧
    (msixAt up 1 0).masked = true ∧ (msixAt up 1 0).pending = false := by decide

/-- EntryReadTakesStopsOrFaults: the ring in front, an entry that is not owned, and one that is. -/
theorem witness_EntryRead :
    (let s := { ringed with intakes := [(0, { scan := [16] })], audit := { ringed.audit with logs := [(1, { everEnabled := true })] } }
     let e := entry 0xE0 0x0603 0 0 []
     Legal s ∧ (intakeAt s 0).scan = [16] ∧ intakeTakes s 0 = true ∧ (ringAt s 16).waitBallast = false ∧
      ringActive s 16 = true ∧ takesWork s (instPage (16 / 16)) = true ∧
      takesWork s (1 + (instAt s 1).port) = true ∧ (logAt s (16 / 16)).everEnabled = true ∧ eOwn (pad 64 []) = false ∧ (ringAt s 16).rescan = false ∧
      (ringAt s 16).readSoFar = [] ∧ owned s 16 ((ringAt s 16).head % 2 ^ (ringAt s 16).log2) (pad 64 e) = true ∧
      eFirst (pad 64 e) = true ∧ eLast (pad 64 e) = true ∧ badEntry (pad 64 e) = false ∧
      (instAt s 1).ballast ≥ instHeld s 1 + bufNeed (pad 64 e) ∧ freeGeneral s ≥ bufNeed (pad 64 e) ∧
      (s.intakes.any fun x => x.2.waitBallast && decide (x.1 ≠ 0)) = false) :=
  ⟨legal_of_checks (by decide), by decide⟩

/-- OrderedReleaseAndBallastWait: an ORDERED job that waits, one that need not, a bad entry, an unknown opcode, a good entry, and
an entry that waits for ballast that has come free. -/
theorem witness_OrderedRelease :
    (let j : Job := { inst := 1, first := 2, phase := .taken, entry := entry 0x68 0x0603 0 0 [] }
     let e : Job := { inst := 1, first := 1, phase := .run }
     let s := withJob (withJob ringed 1 e) 2 j
     jobAt s 2 = some j ∧ eOrdered j.entry = true ∧ earlierWaits s 2 j = true) ∧
    (let j : Job := { inst := 1, first := 1, phase := .taken, entry := entry 0x68 0x0603 0 0 [] }
     eOrdered j.entry = true ∧ earlierWaits (withJob ringed 1 j) 1 j = false ∧ badEntry j.entry = false ∧ entryStatus j.entry = 0) ∧
    badEntry (entry 0x61 0x0603 0 0 []) = true ∧ badEntry (entry 0x60 0x0777 0 0 []) = false ∧
    entryStatus (entry 0x60 0x0777 0 0 []) ≠ 0 := by decide

theorem witness_BallastWait :
    (let e := entry 0xE0 0x0603 0 0 []
     let s := { ringed with
       intakes := [(33, { scan := [16], waitBallast := true })]
       rings := [(16, { pool := some 0, enable := true, log2 := 6, intake := 33, waitBallast := true, readSoFar := [e] })]
       units := [(1, {}), (0x310, {}), (0x31B, {}), (0x401, {})] }
     Legal s ∧ s.bridle.fwdWaiting = [] ∧ intakeTakes s 33 = true ∧ (intakeAt s 33).waitBallast = true ∧ (intakeAt s 32).waitBallast = false ∧
      (intakeAt s 33).scan = [16] ∧ (ringAt s 16).pool.isSome = true ∧ (ringAt s 16).waitBallast = true ∧ (ringAt s 16).readSoFar = [e] ∧
      eFirst e = true ∧ eLast e = true ∧ badEntry e = false ∧ (instAt s 1).ballast ≥ instHeld s 1 + bufNeed e ∧
      freeGeneral s ≥ bufNeed e) :=
  ⟨legal_of_checks (by decide), by decide⟩

/-! ### Witnesses: the unit tree and register accesses -/

theorem legal_up : Legal up := legal_of_checks (by decide)

/-- UnitEnableAndDisable: an OFF unit under a RUNNING parent, one under an OFF parent, one of each other state; no line is UP. -/
theorem witness_UnitEnableAndDisable :
    (let s (u : UState) := withUnit up 0x105 { state := u, enable := false }
     Legal (s .off) ∧ ctrlWrite (s .off) .pf0 0x105 = true ∧ parentUp (s .off) 0x105 = true ∧ (unitAt (s .off) 0x105).permanent = false ∧
      parentUp (withUnit (s .off) 0x100 { state := .off }) 0x105 = false ∧ (unitAt (s .stopping) 0x105).state = .stopping ∧
      (unitAt (s .starting) 0x105).state = .starting ∧ (unitAt (s .retired) 0x105).state = .retired) ∧
    (unitAt up 0x100).state = .running ∧ (0x105 ∈ descendants 0x100) :=
  ⟨⟨legal_of_checks (by decide), by decide⟩, by decide⟩

theorem witness_NoLineUp : ∀ m, (lineAt up m).lstate ≠ .up := fun _ h => by cases h

/-- UnitQuiesceAndLevel: a unit without and with work, a QUIESCED one; LEVEL of an OFF unit, of an engine, of a locked page, of a
RUNNING unit. -/
theorem witness_UnitQuiesceAndLevel :
    ctrlWrite up .pf1 0x105 = true ∧ (unitAt up 0x105).state = .running ∧ workInFlight up 0x105 = false ∧
    workInFlight { up with sails := [(0x105, { estate := .busy, run := some {} })] } 0x105 = true ∧
    (let s := withUnit up 0x105 { state := .quiesced, quiesce := true }
     (unitAt s 0x105).state = .quiesced ∧ parentOf 0x105 = some 0x100 ∧ isRunning s 0x100 = true) ∧
    (let s := withUnit up 0x108 { state := .off }
     (unitAt s 0x108).level ≠ true ∧ (unitAt s 0x108).lock = false ∧ (unitAt s 0x108).state = .off ∧ kindOf 0x108 ≠ 0x05 ∧
      kindOf 0x108 ≠ 0x06) ∧ (kindOf 0x105 = 0x05) ∧ (kindOf 0x107 = 0x06) ∧
    (unitAt (withUnit up 0x105 { lock := true }) 0x105).lock = true ∧ episodeHold up = false := by decide

/-- UnitStartAndDrainComplete: a STARTING child; a childless unit that stops, one that drains. -/
theorem witness_UnitStartAndDrainComplete :
    (let s := withUnit up 0x105 { state := .starting }
     Legal s ∧ (unitAt s 0x105).state = .starting ∧ parentOf 0x105 = some 0x100 ∧ kindOf 0x105 ≠ 0x10 ∧ kindOf 0x105 ≠ 0x11 ∧
      (tget {} s.sails 0x105).estate ≠ .wiping) ∧
    (let s := withUnit up 0x105 { state := .stopping, enable := false }
     childrenOf 0x105 = [] ∧ workInFlight s 0x105 = false ∧ kindOf 0x105 ≠ 0x12 ∧ (unitAt s 0x105).retiring = false ∧
      (unitAt s 0x105).enable = false) ∧
    (unitAt (withUnit up 0x105 { draining := true, quiesce := true }) 0x105).draining = true :=
  ⟨⟨legal_of_checks (by decide), by decide⟩, by decide⟩

/-- UnitFaultEventAndLockWrites: a page reached, one that is not; a unit whose fault touches no job. -/
theorem witness_UnitFaultEventAndLockWrites :
    headerWrite up .pf0 0x7FF = true ∧ headerWrite up .pf0 0x083 = false ∧ headerWrite up .fw1 0x004 = false ∧
    headerWrite up .vf 0x000 = false ∧ kindOf 0x008 ≠ 0 := by decide

/-- ManagementMessageAndRetirement: the root raised and not; the entries unmasked and masked; a line that may be retired, and one
that waits for its record. -/
theorem witness_ManagementMessageAndRetirement :
    (let s := withUnit up 0 { event := 1, eventEn := 1 }
     rootRaised s = true ∧ s.rootSent = false) ∧ rootRaised up = false ∧
    (let s := { up with msix := [(32768, { masked := false }), (32800, { masked := false })] }
     (msixAt s 1024 0).masked = false ∧ (msixAt s 1025 0).masked = false) ∧ (msixAt up 1024 0).masked = true ∧
    headerWrite up .pf0 (linePage 63) = true ∧ (unitAt up (linePage 63)).lock = false ∧ (unitAt up (linePage 63)).state = .off ∧
    (let s := withUnit up (linePage 0) { state := .stopping, retiring := true, enable := false }
     (unitAt s (linePage 0)).state = .stopping ∧ (unitAt s (linePage 0)).retiring = true ∧
      (unitAt s (linePage 0)).permanent = false ∧ s.faults.map.length < 255) := by decide

/-- RegisterWritesDroppedOrReadBack: a page not reached, a page without a unit, and the pages of each register named. -/
theorem witness_RegisterWrites :
    (Acc.pf0 ≠ .vf ∧ bar4Page .pf0 ≠ some 0x1000 ∧ reaches up .pf0 0x1000 = false) ∧
    (bar4Page .pf0 ≠ some 0x083 ∧ kindOf 0x083 = 0 ∧ (0x083 < 0x010 ∨ 0x018 < 0x083)) ∧
    reaches up .pf0 0x000 = true ∧ reaches up .pf1 0x006 = true ∧ reaches up .fw0 0x020 = true ∧
    (let s := withUnit up 0x105 { level := true }
     reaches s .pf0 0x105 = true ∧ kindOf 0x105 = 0x05 ∧ (unitAt s 0x105).level = true) := by decide

/-- ExpertRegistersClosedAtBasicLevel: both ends of the range. -/
theorem witness_ExpertRegisters :
    Acc.pf0 ≠ .vf ∧ kindOf 0x105 ≠ 0 ∧ (unitAt up 0x105).level = false ∧ 0xFFC % 4 = 0 ∧ reaches up .pf0 0x105 = true := by decide

/-- LockedFieldWriteRefused: page 0x000 locked and not. -/
theorem witness_LockedField :
    reaches (withUnit up 0 { lock := true }) .pf0 0x000 = true ∧ (unitAt (withUnit up 0 { lock := true }) 0).lock = true ∧
    (0x11 : Word32).toNat % 256 ≠ up.faults.testAt ∧ (unitAt up 0).lock = false := by decide

/-- PositionSnapshotPerAccessor, SmbusPort. -/
theorem witness_PositionAndSmbus :
    reaches up .pf0 0x006 = true ∧ position up < 2 ^ 64 ∧ Tab.wf (fun _ => 0) up.tether.posSnap = true ∧ up.power.state ≠ .moored ∧
    rootRaised (withUnit up 0 { event := 1, eventEn := 1 }) = true ∧ rootRaised up = false := by decide

theorem witness_SmbusRead : ∃ n t, registerRead up .pf0 (up.smbPtr % 2 ^ 24 / 0x1000) (up.smbPtr % 0x1000) = (some n, t) :=
  ⟨_, _, rfl⟩

/-! ### Witnesses: jobs -/

/-- A job of instance 1, ring 0, on channel 0, in step 6, all its input read. -/
def jobOf (op inLen outCap : Nat) (par : Bytes) : Job :=
  { inst := 1, first := 1, phase := .run, chan := some 0, genCur := 1, genSet := true, entry := entry 0x60 op inLen outCap par
    input := zeros inLen, rand := [7] }
/-- Instance 1 with a current KBPK and one job. -/
def keyed (j : Job) : State :=
  withJob { ringed with kh := { ringed.kh with insts := [(1, { cur := 1, curKey := 5 })] } } 1 j
/-- A key with these descriptor fields. -/
def aKey (record : Bool) (alg mode usage : Nat) (m : Bytes) : Option Key :=
  some { desc := { isRecord := record, alg := alg, mode := mode, usage := usage }, material := m }

theorem ready_of {op : Nat} {j : Job} (h : decide (j.phase = .run ∧ eOp j.entry = op ∧ j.image = none ∧ j.waitRand = false ∧
    eInLen j.entry ≤ j.input.length) = true) : OpReady op (keyed j) 1 j := by
  have := of_decide_eq_true h
  exact ⟨tfind_tput_same _ _ _, this.1, this.2.1, this.2.2.1, this.2.2.2.1, this.2.2.2.2⟩

/-- JobResultBecomesFinal: output that fits OUT_CAP to the byte, output one byte longer, an undecided and a decided job. -/
theorem witness_JobResultBecomesFinal :
    (let j := jobOf 0x0601 0 4 []
     jobAt (keyed j) 1 = some j ∧ ({ out := [1, 2, 3, 4] } : JobEnd).out.length ≤ eOutCap j.entry ∧
      eOutCap j.entry < ({ out := [1, 2, 3, 4, 5] } : JobEnd).out.length ∧ undecided j = true ∧
      undecided { j with phase := .final } = false) := by decide

/-- JobHandoff: a job on its ring's own channel, on another one, with a core that waits in JOB_NEXT, and one that no channel takes. -/
theorem witness_JobHandoff :
    (let j := { jobOf 0x0603 0 0 [] with phase := .handoff, chan := none }
     let s := { keyed j with im := { ringed.im with insts := [(1, { created := true, chans := 3, bme := true })] } }
     Legal s ∧ jobAt s 1 = some j ∧ mayTake s 1 j 0 = true ∧ mayTake s 1 j 1 = true ∧ chainBefore s 1 j = false ∧ j.origin = none ∧
      (ringAt s (ringKey j.inst j.ring)).intake = 0 ∧ (tget {} s.cores 0x101).stall ≠ .jobNext ∧ mayTake s 1 j 2 = false ∧
      (tget {} ({ s with cores := [(0x101, { stall := .jobNext })] } : State).cores 0x101).stall = .jobNext ∧
      isRunning s 0x101 = true ∧ chanPage 0 < 0x101 ∧ 0x101 ≤ chanPage 0 + 4) :=
  ⟨legal_of_checks (by decide), by decide⟩

/-- KeyLookup: a ripcorded device, a job without a KBPK, and a record blob that no cache entry and no fill holds. -/
theorem witness_KeyLookup :
    (let j := { jobOf 0x0402 0 0 [] with genCur := 0 }
     (chooseGen (keyed j) j []).1 ≠ 0) ∧
    (let b := [0x4C#8] ++ zeros 7 ++ [1#8]
     let j := { jobOf 0x0101 0 0 [] with blob1 := b, entry := zeros 8 ++ [0, 0, 4] ++ zeros 53 }
     (chooseGen (keyed j) j b).1 = 0 ∧ (chooseGen (keyed j) j b).2 = [1] ∧
      ((chooseGen (keyed j) j b).2.filterMap fun g => cacheHit (keyed j) j.inst g (sha256 b)) = [] ∧
      fillMarked (keyed j) j.inst (sha256 b) = none) ∧ blobCount (jobOf 0x0603 0 0 []).entry = 0 := by decide

/-- KeyLookup: the blob is cached, and another's unwrap of it is under way. -/
theorem witness_KeyLookupHit (b : Bytes) :
    cacheHit { up with kc := { keys := [(0, { digest := (sha256 b).toNat, inst := 1, gen := 1 })] } } 1 1 (sha256 b) ≠ none ∧
    (fillMarked { up with kc := { fills := [(1, { digest := (sha256 b).toNat, inst := 1 })] } } 1 (sha256 b)).isSome = true := by
  simp [cacheHit, fillMarked]

/-- HostReadAndUnwrapComplete: the shortest record length that R251 accepts, one below it, and each kind of read. -/
theorem witness_HostRead :
    (statedLen (pad 32 ([0x4C#8] ++ zeros 11 ++ le 4 48))).isSome = true ∧ statedLen (pad 32 ([0x4C#8] ++ zeros 11 ++ le 4 47)) = none ∧
    (statedLen (pad 32 ([0x4C#8] ++ zeros 11 ++ le 4 8160))).isSome = true ∧ statedLen (pad 32 ([0x4C#8] ++ zeros 11 ++ le 4 8161)) = none ∧
    (jobAt (keyed { jobOf 0x0101 8 0 [] with phase := .readHead 0 }) 1).map (·.phase) = some (.readHead 0) := by decide

/-- HostReadAndUnwrapComplete: a job in UNWRAP whose KBPK is gone. -/
theorem witness_Unwrap :
    (let b := [0x4C#8] ++ zeros 7 ++ [1#8]
     let j := { jobOf 0x0101 0 0 [] with blob1 := b, phase := .unwrap 0 }
     let s := { withJob ringed 1 j with lanes := [(0, { unwrap := some 1 })] }
     jobAt s 1 = some j ∧ (tget {} s.lanes (j.chan.getD 0)).unwrap = some 1 ∧ (chooseGen s j j.blob1).1 = 0 ∧
      unwrapBlob s j j.blob1 (chooseGen s j j.blob1).2 = .status 0x2003) := by decide

/-- ResultFinal: a DONE job alone in its chain, and a failed one before a member that is not final. -/
theorem witness_ResultFinal :
    (let j := { jobOf 0x0603 0 0 [] with phase := .final }
     Legal (keyed j) ∧ jobAt (keyed j) 1 = some j ∧ j.origin = none ∧ j.fwdId = none ∧ j.status = 0 ∧ nextMember (keyed j) 1 j = none) ∧
    (let j := { jobOf 0x0603 0 0 [] with phase := .final, status := 0x1001 }
     let k := { jobOf 0x0603 0 0 [] with phase := .taken }
     jobAt (withJob (keyed j) 2 k) 2 = some k ∧ k.first = j.first ∧ undecided k = true) :=
  ⟨⟨legal_of_checks (by decide), by decide⟩, by decide⟩

/-- CompletionAndSegmentWrites: a committed job of its ring's generation, one of an earlier one, one of an instance that may not
write, a streamed job with output to write. -/
theorem witness_CompletionWrite :
    (let j := { jobOf 0x0601 0 4 [] with phase := .committed, out := [1, 2, 3, 4] }
     let s := keyed j
     Legal s ∧ jobAt s 1 = some j ∧ kcDraining s.kc = false ∧ chainOf s j = [(1, j)] ∧ bmeNow s j.inst = true ∧ j.genFailed = false ∧
      j.gen = (instAt s j.inst).gen ∧ eIrq j.entry = false ∧ (ringAt s (ringKey j.inst j.ring)).every = false ∧ j.engines = [] ∧
      j.streamed = 0 ∧ j.out ≠ [] ∧ (instAt (putInst s 1 { instAt s 1 with gen := 1 }) 1).gen ≠ j.gen ∧
      bmeNow (putInst s 1 { instAt s 1 with bme := false }) 1 = false) ∧
    (let j := { jobOf 0x0501 65536 65536 [] with phase := .nextSegment, out := [1], streamed := 0 }
     streams j = true ∧ j.streamed < j.out.length) ∧ streams (jobOf 0x0501 32768 32768 []) = false :=
  ⟨⟨legal_of_checks (by decide), by decide⟩, by decide⟩

/-! ### Witnesses: step 6 -/

/-- PARAM of a template: AES-256, usage D0, mode B, version 00, export E. -/
def aTemplate : Bytes := [0x44, 0x30, 0x41, 0x42, 0x30, 0x30, 0x45, 0, 0, 1]

/-- KeyServiceAndEngineJobs: each opcode in step 6. -/
theorem witness_KeyServiceReady :
    OpReady 0x0401 (keyed (jobOf 0x0401 0 200 aTemplate)) 1 (jobOf 0x0401 0 200 aTemplate) ∧
    OpReady 0x0403 (keyed (jobOf 0x0403 112 200 [])) 1 (jobOf 0x0403 112 200 []) ∧
    OpReady 0x0404 (keyed (jobOf 0x0404 0 200 [])) 1 (jobOf 0x0404 0 200 []) ∧
    OpReady 0x0405 (keyed (jobOf 0x0405 0 200 [])) 1 (jobOf 0x0405 0 200 []) ∧
    OpReady 0x0406 (keyed (jobOf 0x0406 0 0 [])) 1 (jobOf 0x0406 0 0 []) ∧
    OpReady 0x0505 (keyed (jobOf 0x0505 8 0 [2])) 1 (jobOf 0x0505 8 0 [2]) ∧
    OpReady 0x0601 (keyed (jobOf 0x0601 0 16 [])) 1 (jobOf 0x0601 0 16 []) ∧
    OpReady 0x0602 (keyed (jobOf 0x0602 0 512 [])) 1 (jobOf 0x0602 0 512 []) ∧
    OpReady 0x0603 (keyed (jobOf 0x0603 0 0 [])) 1 (jobOf 0x0603 0 0 []) :=
  ⟨ready_of (by decide), ready_of (by decide), ready_of (by decide), ready_of (by decide), ready_of (by decide), ready_of (by decide),
    ready_of (by decide), ready_of (by decide), ready_of (by decide)⟩

theorem witness_KeyService :
    noWriteKey (keyed (jobOf 0x0401 0 200 aTemplate)) (jobOf 0x0401 0 200 aTemplate) = 0 ∧ (jobOf 0x0401 0 200 aTemplate).rand ≠ [] ∧
    noWriteKey (withJob ringed 1 (jobOf 0x0401 0 200 aTemplate)) (jobOf 0x0401 0 200 aTemplate) ≠ 0 ∧
    subjectAlgBad (jobOf 0x0403 112 200 []) = false ∧ (key1Of (jobOf 0x0404 0 200 [])).desc.isRecord = false ∧
    (key1Of { jobOf 0x0404 0 200 [] with key1 := aKey true 2 1 0 [] }).desc.isRecord = true ∧
    hashOut (jobOf 0x0505 8 0 [2]).entry ≤ 44 ∧ 44 < hashOut (jobOf 0x0505 8 48 [3]).entry ∧
    proofPre (keyed (jobOf 0x0602 0 512 [])) (jobOf 0x0602 0 512 []) ≠ 0 ∧
    (let j := jobOf 0x0602 0 512 []
     let s := { keyed j with audit := { logs := [(1, { live := true, seqNext := 4, covered := 4, psEn := true, psLog2 := 16 })] } }
     proofPre s j = 0) ∧ (jobOf 0x0602 0 512 []).proof = [] := by decide

set_option maxRecDepth 8192 in
/-- KeyServiceAndEngineJobs: a free engine, a point of P-256, one that is not on the curve, the length of an ML-KEM-768 ciphertext. -/
theorem witness_EngineKeyJobs :
    (let j := jobOf 0x0402 0 400 [1]
     j.chan = some 0 ∧ engineFree (keyed j) j (chanPage 0 + 5) = true ∧ noWriteKey (keyed j) j = 0) ∧
    pubValid 1 ([4#8] ++ be 32 p256.x ++ be 32 p256.y) = true ∧ pubValid 1 ([4#8] ++ be 32 p256.x ++ be 32 (p256.y + 1)) = false ∧
    (let j := { jobOf 0x040A 1088 200 aTemplate with key1 := aKey true 0x0C 1 0 [] }
     j.input.length = kemLen (key1Of j).desc.alg) ∧
    (let j := { jobOf 0x040A 1087 200 aTemplate with key1 := aKey true 0x0C 1 0 [] }
     j.input.length ≠ kemLen (key1Of j).desc.alg) := by decide

/-- PaymentJobs: a PAN that is not decimal, cards and MACs whose checks pass, decimal and other token input, a Luhn number. -/
theorem witness_PaymentJobs :
    pinPre (jobOf 0x0201 20 0 [0, 0, 0, 0, 0, 0, 0, 0, 0, 0, 12]) (fun _ => true) false {} 0 ≠ 0 ∧
    cardPre { jobOf 0x0301 12 0 [0, 0, 0, 0, 0, 0, 0, 0, 0, 0, 12, 0, 1] with input := List.replicate 12 0x30, key1 := aKey false 0x54 0 0 [] } = 0 ∧
    macPre { jobOf 0x0304 8 0 [4, 1, 0] with key1 := aKey false 0x54 0x43 (code2 "M1") (zeros 16) } = 0 ∧
    macPre { jobOf 0x0304 8 0 [9, 1, 0] with key1 := aKey false 0x54 0x43 (code2 "M1") (zeros 16) } ≠ 0 ∧
    ({ jobOf 0x0503 12 0 [] with input := List.replicate 12 0x35 } : Job).input.all isDec = true ∧
    (jobOf 0x0503 12 0 []).input.all isDec = false ∧ luhn (digitsOf (ascii "4111111111111111")) = true ∧
    luhn (digitsOf (ascii "4111111111111112")) = false := by decide

theorem witness_PaymentReady :
    OpReady 0x0201 (keyed (jobOf 0x0201 20 0 [])) 1 (jobOf 0x0201 20 0 []) ∧ OpReady 0x0202 (keyed (jobOf 0x0202 40 0 [])) 1 (jobOf 0x0202 40 0 []) ∧
    OpReady 0x0203 (keyed (jobOf 0x0203 36 0 [])) 1 (jobOf 0x0203 36 0 []) ∧ OpReady 0x0204 (keyed (jobOf 0x0204 28 0 [])) 1 (jobOf 0x0204 28 0 []) ∧
    OpReady 0x0205 (keyed (jobOf 0x0205 20 0 [])) 1 (jobOf 0x0205 20 0 []) ∧ OpReady 0x0301 (keyed (jobOf 0x0301 12 0 [])) 1 (jobOf 0x0301 12 0 []) ∧
    OpReady 0x0302 (keyed (jobOf 0x0302 12 0 [])) 1 (jobOf 0x0302 12 0 []) ∧ OpReady 0x0303 (keyed (jobOf 0x0303 12 0 [])) 1 (jobOf 0x0303 12 0 []) ∧
    OpReady 0x0304 (keyed (jobOf 0x0304 8 0 [])) 1 (jobOf 0x0304 8 0 []) ∧ OpReady 0x0305 (keyed (jobOf 0x0305 8 0 [])) 1 (jobOf 0x0305 8 0 []) ∧
    OpReady 0x0503 (keyed (jobOf 0x0503 12 0 [])) 1 (jobOf 0x0503 12 0 []) ∧ OpReady 0x0504 (keyed (jobOf 0x0504 12 0 [])) 1 (jobOf 0x0504 12 0 []) :=
  ⟨ready_of (by decide), ready_of (by decide), ready_of (by decide), ready_of (by decide), ready_of (by decide), ready_of (by decide),
    ready_of (by decide), ready_of (by decide), ready_of (by decide), ready_of (by decide), ready_of (by decide), ready_of (by decide)⟩

/-- SignatureJobsAndPipeline: signature jobs whose checks pass and fail, lifecycles, the other half running and not. -/
theorem witness_SignatureJobs :
    (let j := { jobOf 0x0101 32 64 [0, 0, 2] with key1 := aKey true 1 1 1 [], entry := zeros 2 ++ le 2 0x0101 ++ zeros 4 ++ le 8 0x1000 ++ le 8 0x20000 ++ le 4 32 ++ le 4 64 ++ le 8 0x30000 ++ zeros 24 }
     OpReady 0x0101 (keyed j) 1 j ∧ signPre j = 0 ∧ sigLen (sigAlg j) ≤ eOutCap j.entry ∧ ePar j.entry 48 = 0 ∧
      halfRuns (keyed j) (1 - halfOf 0) = true ∧ engineFree (keyed j) j (chanPage 0 + 5) = true ∧
      signPre { j with entry := j.entry.take 40 ++ [0, 0, 0, 1] ++ zeros 20 } ≠ 0) ∧
    88 + (recordPub { desc := { isRecord := true, mode := 2 } }).length + 4723 ≤ eOutCap (jobOf 0x0104 0 8000 []).entry ∧
    lifecycle up = 0 ∧ lifecycle { up with otp := { up.otp with lifecycle := 1 } } ≠ 0 ∧ keelHalf up = some 0 :=
  ⟨⟨ready_of (by decide), by decide⟩, by decide⟩

/-! ### Witnesses: signature pipeline and bulk lanes -/

/-- Channel 0 and its engine on page 0x105 RUNNING, its DRBG seeded. -/
def sigUp : State := { keyed (jobOf 0x0101 32 64 [0, 0, 2]) with rng := { ringed.rng with drbgs := [(0, { state := .seeded })] } }

/-- SignaturePipeline: an own signature that waits, a verification job that waits, and an engine that may not check. -/
theorem witness_CheckForm :
    (let s := { sigUp with sig := { ringed.sig with own := [(0, { owner := .job 1, alg := 2, signer := 0x115 })], nextOwn := 1 } }
     Legal s ∧ checksNow s 0x105 = true ∧ drbgReady s (chanOf 0x105) = true ∧ (waitingOwn s (halfOf (chanOf 0x105)) 0x105).length = 1) ∧
    (let j := { jobOf 0x0102 96 0 [1, 0, 0, 0, 0] with phase := .verify }
     let s := withJob sigUp 1 j
     Legal s ∧ checksNow s 0x105 = true ∧ isWide 0x105 = false ∧
      (verifyJobs s (chanOf 0x105)).filter (needsGather s) = [(1, j)] ∧ jobAt s 1 = some j ∧ j.excluded.contains 0x105 = false ∧
      eOp j.entry = 0x0102 ∧ gatherable j = false ∧ deadClaim (verifyClaim j) = true) ∧
    Legal up ∧ checksNow up 0x083 = false :=
  ⟨⟨legal_of_checks (by decide), by decide⟩, ⟨legal_of_checks (by decide), by decide⟩, legal_of_checks (by decide), by decide⟩

set_option maxRecDepth 8192 in
/-- SignaturePipeline: a received ML-DSA-44 signature whose key has the right length. -/
theorem witness_GatherLive :
    (let j := jobOf 0x0102 1312 0 ([8] ++ zeros 11 ++ le 2 1312)
     gatherable j = false ∧ deadClaim (verifyClaim j) = false) := by decide

theorem witness_EvaluationComplete :
    (let j := { jobOf 0x0102 96 0 [] with phase := .verify }
     let s := { withJob sigUp 1 j with sig := { ringed.sig with evals := [(0x105, { groups := [[.verify 1]], single := true })] } }
     tfind s.sig.evals 0x105 = some { groups := [[.verify 1]], single := true } ∧ jobAt s 1 = some j) ∧
    (let j := { jobOf 0x0101 32 64 [] with phase := .crossCheck }
     let o : OwnSig := { owner := .job 1, alg := 2, signer := 0x115 }
     let s := { withJob sigUp 1 j with sig := { ringed.sig with
       own := [(0, o)], evals := [(0x105, { groups := [[.own 0]], single := true })] } }
     tfind s.sig.evals 0x105 = some { groups := [[.own 0]], single := true } ∧ tfind s.sig.own 0 = some o ∧ o.owner = .job 1 ∧
      jobAt s 1 = some j) ∧
    (let o : OwnSig := { owner := .job 1, alg := 2, signer := 0x115, foundBy := some 0x106 }
     let s := { sigUp with sig := { ringed.sig with own := [(0, o)] } }
     s.sig.own.find? (fun e => mayArbitrate s e.2 0x105 || noArbiter s e.2) = some (0, o) ∧ noArbiter s o = false ∧
      o.foundBy = some 0x106) := by decide

/-- A key of algorithm AES whose descriptor names the letter A, for ECB of one block. -/
def bulkJob (op inLen outCap : Nat) (par : Bytes) : Job := { jobOf op inLen outCap par with key1 := aKey false 0x41 0 0 (zeros 32) }

/-- BulkCipherJobs: one block, no room, a length that is no multiple, the shortest text that splits, a lane with two stripes. -/
theorem witness_BulkCipher :
    (let j := bulkJob 0x0501 16 16 []
     OpReady 0x0501 (keyed j) 1 j ∧ (laneAt (keyed j) 0).job = none ∧ cryptPre j = 0 ∧ dataLen j + tagBytes j ≤ eOutCap j.entry ∧
      splits false j = false) ∧
    (let j := bulkJob 0x0502 16 16 []
     OpReady 0x0502 (keyed j) 1 j ∧ cryptPre j = 0 ∧ dataLen j ≤ eOutCap j.entry ∧ splits true j = false) ∧
    (let j := bulkJob 0x0501 17 17 []
     OpReady 0x0501 (keyed j) 1 j ∧ cryptPre j ≠ 0) ∧
    (let j := bulkJob 0x0501 16 15 []
     OpReady 0x0501 (keyed j) 1 j ∧ cryptPre j = 0 ∧ eOutCap j.entry < dataLen j + tagBytes j) ∧
    splits false { bulkJob 0x0501 0 0 [1] with entry := entry 0x60 0x0501 16384 16384 [1] } = true ∧
    splits false { bulkJob 0x0501 0 0 [1] with entry := entry 0x60 0x0501 16368 16384 [1] } = false ∧
    (let j := bulkJob 0x0501 16 16 []
     let s := { keyed j with lanes := [(0, { split := some { job := 1, left := [(0, 0), (1, 1)] } })] }
     (laneAt s 0).split = some { job := 1, left := [(0, 0)] ++ [(1, 1)] } ∧ (laneAt s 0).job = none) :=
  ⟨⟨ready_of (by decide), by decide⟩, ⟨ready_of (by decide), by decide⟩, ⟨ready_of (by decide), by decide⟩,
    ⟨ready_of (by decide), by decide⟩, by decide⟩

/-- BulkCipherJobs, LaneExpertCommands: the lane of channel 33 at the expert level, not BUSY, BUSY, fed up to XLEN, a self-test. -/
theorem witness_LaneExpert :
    (let s (l : Lane) := { withUnit up (lanePage 33) { level := true } with lanes := [(33, l)] }
     laneExpert (s {}) .pf0 33 = true ∧ (laneAt (s {}) 33).busy = false ∧ (laneAt (s { busy := true }) 33).busy = true ∧
      (laneAt (s { hashing := true, xlen := 4 }) 33).fed.length + 4 ≤ (laneAt (s { hashing := true, xlen := 4 }) 33).xlen.toNat ∧
      (laneAt (s { hashing := true, xlen := 4, fed := [1, 2, 3, 4] }) 33).xlen.toNat ≤
        (laneAt (s { hashing := true, xlen := 4, fed := [1, 2, 3, 4] }) 33).fed.length ∧
      (laneAt (s { busy := true, op := 0x10, param := 9 }) 33).param < 10 ∧ bit 0x200 9 = true ∧
      (laneAt (s { busy := true, op := 0x11 }) 33).op = 0x11) ∧
    laneExpert up .pf0 33 = false ∧ laneExpert up .pf0 34 = false := by decide

/-! ### Witnesses: audit, random numbers, tether, event table, key cache, debug gate, tests -/

/-- `s` with the log of instance 1 as given. -/
def withLog (s : State) (l : Log) : State := { s with audit := { s.audit with logs := [(1, l)] } }

/-- AuditUnit: a built leaf that may be committed, one behind an earlier chain member, a full ring, a seal and a key record. -/
theorem witness_AuditWrites :
    (let j := { jobOf 0x0603 0 0 [] with phase := .leafBuilt, leaf := zeros 64 }
     let l : Log := { live := true, ringEn := true, ringLog2 := 8, sealLog2 := 20 }
     let s := withLog (keyed j) l
     jobAt s 1 = some j ∧ j.inst = 1 ∧ chainWaits s 1 j = false ∧ firingsDue s 1 = false ∧ commitWaits s 1 = false ∧
      (logAt s 1).seqNext + 1 < 2 ^ 48 ∧ commitWaits (withLog s { l with wr := 256 }) 1 = true ∧
      ringTakes (withLog s { l with wr := 252 }) { l with wr := 252 } 4 = true ∧
      ringTakes (withLog s { l with wr := 253 }) { l with wr := 253 } 4 = false ∧ sealXchk s = some 0 ∧
      (halfRuns s 0 = true ∨ halfRuns s 1 = true) ∧ ringTakes s l 80 = true ∧
      (logAt (withLog s { l with seals := [{}] }) 1).seals = {} :: [] ∧ (logAt (withLog s { l with keyRecs := [{}] }) 1).keyRecs = {} :: [] ∧
      chainWaits (withJob s 2 j) 2 j = true) ∧
    sealXchk { up with units := tset (unitDflt 0) [] 0 { state := .faulted } } = some 2 := by decide

/-- AuditUnit: configuration; RD at WR and one beyond; ring and store sizes at their bounds. -/
theorem witness_AuditConfig :
    (let s := { withLog up { wr := 5, rd := 3 } with audit := { logs := [(1, { wr := 5, rd := 3 })], sel := [(0, 1)] } }
     reaches s .pf0 auditPage = true ∧ audSel s .pf0 = 1 ∧ (logAt s (audSel s .pf0)).ringEn = false ∧
      ((5 : Word32).toNat + 2 ^ 32 - (logAt s (audSel s .pf0)).rd) % 2 ^ 32 ≤
        ((logAt s (audSel s .pf0)).wr + 2 ^ 32 - (logAt s (audSel s .pf0)).rd) % 2 ^ 32 ∧
      ((logAt s (audSel s .pf0)).wr + 2 ^ 32 - (logAt s (audSel s .pf0)).rd) % 2 ^ 32 <
        ((6 : Word32).toNat + 2 ^ 32 - (logAt s (audSel s .pf0)).rd) % 2 ^ 32) ∧
    (let l : Log := { ringLog2 := 24, ringBase := 2 ^ 64 - 64 * 2 ^ 24, psLog2 := 16 }
     (logAt (withLog up l) 1).ringEn = false ∧ 8 ≤ l.ringLog2 ∧ l.ringLog2 ≤ 24 ∧ l.ringBase + 64 * 2 ^ l.ringLog2 ≤ 2 ^ 64 ∧
      l.psEn = false ∧ 16 ≤ l.psLog2 ∧ l.psLog2 ≤ 32 ∧ l.psBase + psSize l.psLog2 ≤ 2 ^ 64) ∧
    ({ ringLog2 := 7, psLog2 := 33 } : Log).ringLog2 < 8 ∧ 32 < ({ ringLog2 := 7, psLog2 := 33 } : Log).psLog2 ∧
    reaches { up with power := { up.power with state := .moored } } .pf0 auditPage = false := by decide

/-- RandomNumbers: each state of a source, a pool with 15 blocks, a DRBG with one request. -/
theorem witness_RandomNumbers :
    (let h (st : SrcState) := { up with rng := { up.rng with sources := [(0, { state := st }), (1, { state := .healthy }), (2, { state := .healthy }), (3, { state := .healthy })] } }
     Legal (h .startup) ∧ (sourceAt (h .startup) 0).state = .startup ∧ (sourceAt (h .retest) 0).state = .retest ∧
      (sourceAt (h .healthy) 0).state = .healthy ∧ healthySources (h .healthy) = 4 ∧ (h .healthy).rng.pool = [] ∧
      (sourceAt (h .healthy) 0).failRun = 0 ∧ (sourceAt (h .retired) 0).state = .retired ∧ 2 ≤ healthySources (h .healthy)) ∧
    (let s := { up with rng := { up.rng with gathered := true, pool := [(0, 0), (1, 0)], requests := [.reseed 2 false, .instantiate 33] } }
     firstRequest s.rng.requests = some (.instantiate 33) ∧ s.rng.gathered = true ∧ 2 ≤ s.rng.pool.length ∧ s.rng.pool.length < 16) ∧
    (let s := { keyed (jobOf 0x0601 0 16 []) with rng := { up.rng with drbgs := [(0, { state := .seeded, queue := [{ for_ := .job 1, len := 16 }] })] } }
     (drbgAt s 0).state = .seeded ∧ (drbgAt s 0).atLimit = false ∧ (drbgAt s 0).queue = { for_ := .job 1, len := 16 } :: [] ∧
      jobAt s 1 = some (jobOf 0x0601 0 16 []) ∧ reaches s .pf0 (drbgPage 0) = true ∧ (drbgAt s 0).pending = false) ∧
    (drbgAt up 0).queue = [] ∧ (drbgAt up 0).state ≠ .seeded :=
  ⟨⟨legal_of_checks (by decide), by decide⟩, by decide⟩

theorem witness_SourceUnaffected : ∀ k, affectedBy { up with rng := { up.rng with
    sources := [(0, { state := .healthy }), (1, { state := .healthy }), (2, { state := .healthy }), (3, { state := .healthy })] } } 0 k = false :=
  fun _ => rfl

set_option maxRecDepth 8192 in
/-- TetherPulses: a pulse of 99 ns and of 100 ns, an early one and one at the earliest instant, each other clause. -/
theorem witness_TetherPulses :
    (let s (c : Nat) := { up with cycles := c, tether := { up.tether with state := .locked, everPulsed := true, lastSec := 1, pos := 2 ^ 20 } }
     Legal (s 0) ∧ true ≠ (s 0).tether.ppsEdge ∧ tetherSource (s 0).tether ≠ 2 ∧ followsBridle (s 0) = false ∧ slackUsed (s 23749999) = false ∧
      (s 0).tether.state = .locked ∧ 23749999 < (s 0).tether.lastPulse + earlyCycles ∧ slackUsed (s 23750000) = false ∧
      (s 0).tether.lastPulse + earlyCycles ≤ 23750000 ∧ (s 0).tether.number = none ∧ (s 0).audit.logs = [] ∧ isTetherRoot (s 0) = false ∧
      slackUsed (s 26250000) = true ∧ catchupNow { s 0 with tether := { (s 0).tether with catchup := true } } = false) ∧
    (let f : Bytes := [0x54, 1, 0, 0, 0, 0, 0, 0, 0]
     let g := f ++ [crc8 (slice f 1 8)]
     tetherSource up.tether = 0 ∧ g.length = 10 ∧ g.getD 0 0 = 0x54#8 ∧ g.getD 9 0 = crc8 (slice g 1 8)) ∧
    reaches up .pf1 0x006 = true ∧ tetherSource { up.tether with source := 2 } = 2 ∧ slackUsed up = false :=
  ⟨⟨legal_of_checks (by decide), by decide⟩, by decide⟩

/-- TetherPulses: a mark on a member that follows marks, over a line that is UP. -/
theorem witness_TetherMark :
    (let s := { up with bridle := { up.bridle with state := .member, lines := [(0, { lstate := .up })] } }
     lineUp s 0 = true ∧ followsBridle s = true ∧ s.tether.lastMark ≠ some 5) ∧ lineUp up 0 = false := by decide

/-- EventTable: an armed entry of a host accessor, an entry of firmware's, entries that fire with and without a period. -/
theorem witness_EventTable :
    (let e : EvEntry := { state := .armed, pos := 3 * 2 ^ 16, action := 7, period := 16 }
     let s (e : EvEntry) := { up with tether := { up.tether with state := .adrift, pos := 4 * 2 ^ 16 }, events := [(2, e)], evtSel := [(0, 2)] }
     Legal (s e) ∧ reaches (s e) .pf0 0x006 = true ∧ fwOwned .pf0 (evtSel (s e) .pf0) (evtAt (s e) (evtSel (s e) .pf0)) = false ∧
      (evtAt (s e) (evtSel (s e) .pf0)).state = .armed ∧ (evtAt (s { e with state := .done }) 2).state ≠ .armed ∧
      fwOwned .pf0 2 { e with fw := true } = true ∧ fwOwned .pf0 254 {} = true ∧ fwOwned .pf0 253 {} = false ∧ fwOwned .fw0 254 {} = false ∧
      fires (s e) 2 = true ∧ (s e).power.state = .run ∧ (evtAt (s e) 2).action = 7 ∧ position (s e) + 2 ^ (evtAt (s e) 2).period < 2 ^ 64 ∧
      fires (s { e with period := 0 }) 2 = true ∧ fires (s { e with pos := 4 * 2 ^ 16 + 1 }) 2 = false ∧
      fireAction (s { e with action := 1 }) { e with action := 1 } (position (s e)) = none) ∧
    (let s := { withLog up { live := true, sealLog2 := 20 } with tether := { up.tether with state := .adrift, pos := 2 ^ 20 } }
     periodicDue s 1 = some (2 ^ 20) ∧ s.events = [] ∧ periodicDue { s with tether := { up.tether with state := .adrift, pos := 2 ^ 20 - 1 } } 1 = none) :=
  ⟨⟨legal_of_checks (by decide), by decide⟩, by decide⟩

/-- CacheFlushRootKeyAndDebugGate: a flush that walks, a demanded generation, a gate in each state, the top word of local
memory. -/
theorem witness_FlushAndGate :
    (let s := { up with kc := { up.kc with busy := true, walkInst := 1, keys := [(0, { inst := 1 }), (8, { inst := 2 })] } }
     Legal s ∧ reaches s .pf0 0x081 = true ∧ s.kc.busy = true ∧ up.kc.busy = false ∧ bit (0x80000000 : Word32).toNat 31 = true ∧
      bit (0x7FFFFFFF : Word32).toNat 31 = false ∧ flushSelects s 1 0 = true ∧ flushSelects s 2 0 = false) ∧
    (let s := { up with kh := { up.kh with pendingGen := true }, rng := { up.rng with gathered := true, pool := [(0, 0)] } }
     s.kh.pendingGen = true ∧ s.rng.gathered = true ∧ s.rng.pool ≠ []) ∧
    (let s := { up with dbg := { up.dbg with state := .opened, inst := 1 } }
     gateTakes s = true ∧ lifecycle s ≠ 3 ∧ accessRefused s 0x101 0x1FFFC = false ∧ accessRefused s 0x101 0x20000 = true ∧
      accessRefused s 0x101 2 = true ∧ accessRefused up 0x101 0 = true) ∧
    gateTakes (withUnit up gatePage { state := .off }) = false :=
  ⟨⟨legal_of_checks (by decide), by decide⟩, by decide⟩

/-- CacheFlushRootKeyAndDebugGate: the checks of a response are opaque; whichever they answer, one of the two clauses is met. -/
theorem witness_DebugResponse (chain sg : Bytes) :
    let s := { up with dbg := { up.dbg with state := .challenged, nonce := some (zeros 32) } }
    gateTakes s = true ∧ s.dbg.state = .challenged ∧ s.dbg.nonce = some (zeros 32) ∧ lifecycle s ≠ 3 ∧
      (responseGood s (zeros 32) chain 1 sg = true ∨ responseGood s (zeros 32) chain (1 % 2 ^ 16) sg = false) := by
  refine ⟨by decide, rfl, rfl, by decide, ?_⟩
  cases responseGood _ (zeros 32) chain 1 sg <;> simp

/-- FaultsAndFieldTests: pages of each kind named, a waiting test on the last channel, a running one. -/
theorem witness_FaultsAndFieldTests :
    Legal up ∧ kindOf 0x083 = 0 ∧ (kindOf 0x006 ≠ 0 ∧ kindOf 0x006 ≠ 0x0A ∧ kindOf 0x006 ≠ 0x18 ∧ kindOf 0x006 ≠ 0x04 ∧ kindOf 0x006 ≠ 0x05 ∧
      kindOf 0x006 ≠ 0x06) ∧ up.faults.corrected = [] ∧ helps up 0x108 = false ∧
    (let s (t : TestState) := { withUnit up (chanPage 33) {} with faults := { up.faults with chans := [(33, { test := t })] } }
     (chanAt (s .waiting) 33).test = .waiting ∧ (chanAt (s .waiting) 33).standInFor = none ∧ chanIdle (s .waiting) 33 = true ∧
      (chanAt (s .running) 33).test = .running ∧ isRunning (s .running) (chanPage 33) = true) ∧ (chanAt up 33).test ≠ .running :=
  ⟨legal_of_checks (by decide), by decide⟩

/-! ### Witnesses: Sail engines -/

/-- The engine on page 0x105 at the expert level, its memory and slots as given. -/
def engine (e : Sail) : State := { withUnit up 0x105 { level := true } with sails := tset {} [] 0x105 e }

/-- SailCommandsIssue: first and last command of the table, an engine that is busy, one at LEVEL 0. -/
theorem witness_SailCommandsIssue :
    kindOf 0x105 = 0x05 ∧ kindOf 0x107 = 0x06 ∧ cmdOp (0x01 : Word32).toNat = 0x01 ∧ cmdOp (0x65 : Word32).toNat = 0x65 ∧
    (unitAt (engine {}) 0x105).level = true ∧ (sailAt (engine {}) 0x105).estate = .idle ∧ takesWork (engine {}) 0x105 = true ∧
    (sailAt (engine { estate := .busy }) 0x105).estate ≠ .idle ∧ (unitAt up 0x105).level = false := by decide

/-- SailCommandRunsAndEnds: an operation code that is none, CLEAR of 4 words, RAND without and SIGN with a draw, MLKEM's hash. -/
theorem witness_SailCommandRuns :
    Legal (engine {}) ∧ preCheck (engine {}) 0x105 {} { word := 0x10 } ≠ 0 ∧
    preCheck (engine {}) 0x105 {} { word := 0x0D, arg0 := 4 * 2 ^ 16 } = 0 ∧ drawLen {} { word := 0x0D, arg0 := 4 * 2 ^ 16 } = 0 ∧
    needsHash { word := 0x0D, arg0 := 4 * 2 ^ 16 } = false ∧ drawLen {} { word := 0x0B, arg0 := 4 * 2 ^ 16 } ≠ 0 ∧
    (let e : Sail := { estate := .busy, run := some { word := 0x10, fin := { result := 1, cycles := 4 } }, mem := [(7, 9)] }
     (sailAt (engine e) 0x105).run = some { word := 0x10, fin := { result := 1, cycles := 4 } } ∧ (sailAt (engine e) 0x105).expert = false) ∧
    (let x : SailRun := { word := 0x0D, arg0 := 4 * 2 ^ 16 }
     let e : Sail := { estate := .busy, run := some x, mem := [(3, 9)] }
     (sailAt (engine e) 0x105).run = some x ∧ x.fin.result = 0 ∧ x.core = none ∧ cmdOp x.word < 0x20 ∧
      (primEnd (engine e) (sailAt (engine e) 0x105) x).result = 0) ∧ (sailAt (engine {}) 0x105).run = none :=
  ⟨legal_of_checks (by decide), by decide⟩

/-- SailCommandRunsAndEnds: VERIFY of ML-DSA-65 (PARAM 9) hashes and draws nothing. -/
theorem witness_SailHashes :
    (let x : SailRun := { word := 0x41 + 9 * 2 ^ 16 }
     drawLen {} { x with hashed := !needsHash x } = 0 ∧ drawLen {} x = 0 ∧ needsHash x = true ∧ preCheck (engine {}) 0x107 {} x ≠ 0) := by decide

/-- SailArithmetic: modulus slot 2 is filled. -/
theorem witness_SailArithmetic : tfind ({ mods := [(2, { m := 97, n := 1 })] } : Sail).mods (cmdMs (0x04 + 2 * 2 ^ 8)) = some { m := 97, n := 1 } := by
  decide

/-- SailEngineCommands: an engine in each state, the last word of a 2,048-word memory and one beyond, a SECRET word. -/
theorem witness_SailEngineCommands :
    expertReach (engine {}) .pf0 0x105 = true ∧ expertReach up .pf0 0x105 = false ∧ windowShut (sailAt (engine {}) 0x105) = false ∧
    (sailAt (engine { estate := .wiping }) 0x105).levelAfterWipe = none ∧
    windowShut (sailAt (engine { estate := .wiping }) 0x105) = true ∧
    (let e : Sail := { memAddr := 0x7FF, attr := [(0x7FF, { secret := true })] }
     bit (sailAt (engine e) 0x105).memAddr.toNat 16 = false ∧ bits (sailAt (engine e) 0x105).memAddr.toNat 0 13 < memWords 0x105 ∧
      (attrAt (sailAt (engine e) 0x105) (bits (sailAt (engine e) 0x105).memAddr.toNat 0 13)).secret = true) ∧
    (let e : Sail := { estate := .waitLane, run := some { word := 0x41 } }
     (sailAt (engine e) 0x105).run = some { word := 0x41 } ∧ (tget {} (engine e).lanes (chanOf 0x105)).port ≠ some 0x105) := by decide

/-! ### Witnesses: Carit cores -/

/-- A core in ring `r` with these values on its data stack, a return stack, and region 0 open to ring 3. -/
def coreOf (r : Nat) (st : List Nat) : Core :=
  { pc := 0x100, stack := st.map fun n => { v := BitVec.ofNat 64 n }, depth := st.length, ring := r
    rsp := 0x8000, rsl := 0x7000, rsb := 0x8000, dsb := 0xA000, dsp := 0xA000, dsl := 0x9000
    mpu := [(0x060, 0x3F), (0x061, 0x1FF00)] }
/-- `s` with that core on page 0x101. -/
def withCore (s : State) (c : Core) : State := { s with cores := [(0x101, c)] }

/-- `CanRun` as a Bool. -/
def canRunB (s : State) (ps : List Part) : Bool :=
  coreRuns s 0x101 && decide (fetchCheck 0x101 (coreAt s 0x101) = none) && decide ((coreAt s 0x101).pc.toNat % 4 = 0) &&
    decide (underflow (coreAt s 0x101) ps = none) && decide (needOf ps ≤ (coreAt s 0x101).stack.length) &&
    decide (leftOf (coreAt s 0x101).stack.length ps ≤ coreEntries) &&
    decide ((coreAt s 0x101).ldepth = 0 ∨ tget 0 (coreAt s 0x101).le ((coreAt s 0x101).ldepth - 1) ≠ (coreAt s 0x101).pc)

theorem canRun_of {s : State} {ps : List Part} (h : canRunB s ps = true) : CanRun s 0x101 ps := by
  simp only [canRunB, Bool.and_eq_true, decide_eq_true_eq] at h
  exact ⟨h.1.1.1.1.1.1, h.1.1.1.1.1.2, h.1.1.1.1.2, h.1.1.1.2, h.1.1.2, h.1.2, h.2⟩

/-- LocalMemoryReadAfterWrite: the top bytes of local memory, tags in canonical form. -/
theorem witness_LocalMemory :
    Legal (withCore up { coreOf 1 [] with mem := [(0x1FFFF, 5)], tags := [(0x1FFF, true)] }) ∧
    Tab.wf (fun _ => 0) (coreAt (withCore up { coreOf 1 [] with mem := [(0x1FFFF, 5)] }) 0x101).mem = true ∧
    Tab.wf (fun _ => false) (coreAt (withCore up { coreOf 1 [] with tags := [(0x1FFF, true)] }) 0x101).tags = true :=
  ⟨legal_of_checks (by decide), by decide⟩

set_option maxRecDepth 8192 in
/-- CaritValuesControlAndMemory: a core in each ring that can run instructions of each shape; a full stack in the core with room
for none. -/
theorem witness_CanRun :
    (∀ r ∈ [0, 1, 2, 3], CanRun (withCore up (coreOf r [1, 2, 3, 4, 5, 6])) 0x101 [(6, 6, 0)]) ∧
    CanRun (withCore up (coreOf 3 [])) 0x101 [(0, 0, 1)] ∧ CanRun (withCore up (coreOf 2 [7])) 0x101 [(1, 1, 1)] ∧
    CanRun (withCore up (coreOf 3 (List.range 15))) 0x101 [(0, 0, 1)] ∧
    leftOf (coreOf 3 (List.range 16)).stack.length [(0, 0, 1)] > coreEntries :=
  ⟨fun r h => canRun_of (by revert r; decide), canRun_of (by decide), canRun_of (by decide), canRun_of (by decide), by decide⟩

set_option maxRecDepth 8192 in
/-- CaritValuesControlAndMemory: a pair, both branches, the lowest return-stack slot, loops at their bounds, accesses that end at the
top of local memory. -/
theorem witness_CaritValues :
    (let c := coreOf 1 [7, 8]
     CanRun (withCore up c) 0x101 [shortPart c 0, shortPart c (0x01 * 512)] ∧ pairIllegal c 0 (0x01 * 512) = none ∧
      pairDependent 0 (0x01 * 512) = false ∧ shortMem 0 = false ∧ shortControl (0x01 * 512) = false) ∧
    (let c := { coreOf 3 [0] with rsp := 0x7008 }
     topOf c 0 = 0 ∧ c.rsl.toNat + 8 ≤ c.rsp.toNat ∧ accessCheck 0x101 c c.ring .write false (c.rsp - 8).toNat 8 = none) ∧
    (let c := { coreOf 3 [5] with ldepth := 3 }
     topOf c 0 ≠ 0 ∧ c.ldepth < 4 ∧ CanRun (withCore up c) 0x101 [(1, 1, 0)] ∧ CanRun (withCore up { c with ldepth := 4 }) 0x101 [(1, 1, 0)]) ∧
    (let c := coreOf 3 [0x1FFF7, 9]
     let a := (topOf c 0 + signed64 20 1).toNat
     a + sizeBytes 3 ≤ 0x20000 ∧ accessCheck 0x101 c c.ring .read true a (sizeBytes 3) = none ∧
      accessCheck 0x101 c c.ring .write true a (sizeBytes 3) = none) ∧
    (let c := coreOf 3 [0x1FFF0]
     (topOf c 0).toNat % 16 = 0 ∧ (topOf c 0).toNat + 16 ≤ 0x20000 ∧ accessCheck 0x101 c c.ring .read true (topOf c 0).toNat 16 = none ∧
      accessCheck 0x101 c c.ring .write true (topOf c 0).toNat 16 = none) ∧
    (let c := coreOf 3 [0xFFFF, 0x7FFFFF, 0x7FFFFF]
     (topOf c 0).toNat < 2 ^ 16 ∧ (topOf c 1).toNat < 2 ^ 23 ∧ (topOf c 2).toNat < 2 ^ 23) :=
  ⟨⟨canRun_of (by decide), by decide⟩, by decide, ⟨by decide, by decide, canRun_of (by decide), canRun_of (by decide)⟩, by decide⟩

/-- A job with ballast, and a core in it with a capability to a cached key (K0) and one to the ballast (K1). -/
def capJob : Job := { jobOf 0x0601 8 64 [] with bufs := [0], core := some 0x101 }
def withCaps (c : Core) : State :=
  { withCore (keyed capJob) { c with ctxInst := 1, inJob := true, job := 1
                                     k := [(0, { tag := true, object := 2 ^ 44, perms := 0xFFFF, inst := 1, length := 32 }),
                                       (1, { tag := true, object := 2 * 2 ^ 44 + 2 ^ 10, perms := 0xFFFF, inst := 1, length := 64 })] } with
    kc := { up.kc with keys := [(0, { inst := 1, entries := [0], key := { material := zeros 32 } })] } }

/-- CaritValuesControlAndMemory, CaritSystemOperations: capability loads and stores at the end of an object, SKEY, SLD, and a job
that JOB_END ends with an allowed status and all of OUT_CAP. -/
theorem witness_CaritCaps :
    (let s := withCaps (coreOf 2 [24, 9])
     let c := coreAt s 0x101
     CanRun s 0x101 [(1, 1, 1)] ∧ CanRun s 0x101 [(2, 2, 0)] ∧ namesBallast c 0 = false ∧ namesBallast c 1 = true ∧
      capUse s c 0 (2 ^ permLoad) (topOf c 0 + signed64 16 0).toNat 8 = none ∧
      capUse s c 0 (2 ^ permLoad) (topOf c 0 + signed64 16 1).toNat 8 ≠ none ∧
      capUse s c 1 (2 ^ permStore) (topOf c 0 + signed64 16 0).toNat 8 = none ∧
      capUse s c 0 (2 ^ permEngine) 0 (capReg c 0).length = none ∧ capUse s c 0 (2 ^ permLoadSecret) (topOf c 0 + signed64 16 0).toNat 8 = none) ∧
    (let s := withCaps (coreOf 2 [0x1002 + 64 * 2 ^ 32])
     let c := coreAt s 0x101
     jobAt s c.job = some capJob ∧ capJob.core = some 0x101 ∧ capJob.image = none ∧
      statusAllowed (eOp capJob.entry) ((topOf c 0).toNat % 2 ^ 16) = true ∧ (topOf c 0).toNat / 2 ^ 32 ≤ eOutCap capJob.entry ∧
      (topOf c 0).toNat % 2 ^ 16 ≠ 0 ∧ (topOf c 0).toNat % 2 ^ 16 ≠ 0x3001) :=
  ⟨⟨canRun_of (by decide), canRun_of (by decide), by decide⟩, by decide⟩

set_option maxRecDepth 8192 in
/-- CaritSystemOperations: block moves and hashes at their bounds, engines, special registers, each ring named. -/
theorem witness_CaritSystem :
    (let c := coreOf 2 [16, 0x1FFF0, 0x1000]
     CanRun (withCore up c) 0x101 [(3, 3, 0)] ∧ c.bmCtl.getLsbD 0 = false ∧ bmIllegal 0 = false ∧
      bmUnaligned 0 c = false ∧ accessCheck 0x101 c c.ring .read true 0x1000 16 = none ∧ accessCheck 0x101 c c.ring .write true 0x1FFF0 16 = none) ∧
    (hashLen 2).isSome = true ∧
    (let c := { coreOf 2 [64, 0x1FFC0] with hash := some (2, none, []) }
     c.hfCtl.getLsbD 0 = false ∧ accessCheck 0x101 c c.ring .read true 0x1FFC0 64 = none ∧ (hashDigest c).isSome = true) ∧
    (let s := withCore up (coreOf 2 [0x0D, 0, 0, 0, 0, 0])
     serves s (enginePage 0x101 0) = true ∧ (unitAt s (enginePage 0x101 0)).level = false ∧
      (sailAt s (enginePage 0x101 0)).estate = .idle ∧ kindOf 0x101 = 0x04 ∧ jobAt s (coreOf 2 []).job = none ∧
      (sailAt { s with sails := [(0x105, { estate := .busy })] } (enginePage 0x101 0)).estate ≠ .idle ∧ (sailAt s (enginePage 0x101 2)).run = none) ∧
    (let s := { withCore up { coreOf 1 [] with ctxInst := 1 } with rng := { up.rng with drbgs := [(0, { buf := zeros 8, bufInst := 1 })] } }
     let c := coreAt s 0x101
     c.entropy = false ∧ 8 ≤ (drbgAt s (chanOf 0x101)).buf.length ∧ (drbgAt s (chanOf 0x101)).bufInst = (ctxOf s c).1 ∧
      (drbgAt s (chanOf 0x101)).bufGen = (ctxOf s c).2) ∧
    nextJob (withCore (keyed { capJob with core := none }) (coreOf 2 [])) 0x101 = some (1, { capJob with core := none }) ∧
    nextJob (withCore up (coreOf 2 [])) 0x101 = none ∧ msrAssigned 0x07F = true ∧ msrAssigned 0x080 = false ∧
    pendingOf (withCore up { coreOf 2 [] with ipend := 1 }) 0x101 ≠ 0 ∧ coreRuns (withCore up { coreOf 1 [] with noint := 256 }) 0x101 = true :=
  ⟨⟨canRun_of (by decide), by decide⟩, by decide⟩

/-- CaritExceptions: no fetch, an empty stack, a register that the ring may not write, a pending interrupt, LEVEL 1. -/
theorem witness_CaritExceptions :
    (let c := { coreOf 2 [] with pc := 0x20000 }
     coreRuns (withCore up c) 0x101 = true ∧ (fetchCheck 0x101 c).isSome = true) ∧
    (let c := coreOf 2 []
     fetchCheck 0x101 c = none ∧ c.pc.toNat % 4 = 0 ∧ c.depth = 0 ∧ msrAssigned 0x040 = true ∧ mtsAllowed c 0x040 = false ∧ c.dfBusy = false) ∧
    (let s := withCore up { coreOf 2 [] with ipend := 4, rc := [(0x48, 0x1000), (0x4F, 0x3F)] }
     nextInterrupt s 0x101 = some 0x22 ∧ (coreAt s 0x101).stall = .none ∧ (drbgAt s (chanOf 0x101)).queue = []) ∧
    coreRuns (withUnit up 0x101 { level := true }) 0x101 = false := by decide

set_option maxRecDepth 8192 in
/-- CaritExceptions: a vector table and a frame pointer for ring 1, entered by TRAP 3 of ring 2 and by an exception; then RETX. -/
theorem witness_CaritEntry :
    (let s := withCore up { coreOf 2 [] with rc := [(0x48, 0x1000), (0x49, 0x6800), (0x4A, 0x5800)], mem := [(0x121D, 0x30), (0x1219, 0x30), (0x121C, 1)] }
     let c := coreAt s 0x101
     rcOf c (0x040 + 8 * (c.ring - 1)) ≠ 0 ∧
      (vectorEntry (putCore s 0x101 { c with ring := c.ring - 1 }) 0x101 (c.ring - 1) (0x40 + 3)).isSome = true ∧
      (enterTry (putCore s 0x101 c) 0x101 (0x40 + 3) 0 0 (c.pc + 4) 0 (c.ring - 1) false).isSome = true) ∧
    (let s := withCore up { coreOf 1 [] with rc := [(0x49, 0x6800)], mem := [(0x6800, 0x10), (0x6805, 2)] }
     let c := coreAt s 0x101
     let b := memGet s 0x101 (rcOf c (0x041 + 8 * c.ring)).toNat 256
     CanRun s 0x101 [(0, 0, 0)] ∧ (rcOf c (0x041 + 8 * c.ring)).toNat + 256 ≤ 0x20000 ∧
      accessCheck 0x101 c c.ring .read false (rcOf c (0x041 + 8 * c.ring)).toNat 256 = none ∧ c.ring ≤ bits (field b 5 1) 0 2) ∧
    (let s := withCore up { coreOf 1 [] with rc := [(0x49, 0x6800)], mem := [(0x6800, 0x10)] }
     let c := coreAt s 0x101
     bits (field (memGet s 0x101 (rcOf c (0x041 + 8 * c.ring)).toNat 256) 5 1) 0 2 < c.ring) :=
  ⟨by decide, ⟨canRun_of (by decide), by decide⟩, by decide⟩

/-! ### Witnesses: instances, host ports, SPDM -/

/-- The owned device (lifecycle OPERATIONAL), port 0 with two virtual functions, instance 1 as given. -/
def owned (x : Inst) : State :=
  { withInst up 1 x with otp := { up.otp with lifecycle := 3 }, ports := [(0, { enabled := true, numVf := 2 })] }
/-- `s` whose physical function 0 has written the arguments `as_` of a request. -/
def asked (s : State) (as_ : List Word32) : State :=
  { s with im := { s.im with windows := [(0, { args := (List.range as_.length).map fun k => (k, as_.getD k 0) })] } }
/-- The window and the device of `ImRun`. -/
def goWin (s : State) (op i : Nat) (d : Option (Bool × Bytes)) : ImWindow :=
  { winAt s 0 with
    op := op, inst := i, state := .busy, code := 0, order := s.im.nextOrder, waits := false, data := d, discard := false, out0 := 0
    held := (List.range 8).map fun k => (tget 0 (winAt s 0).args k).toNat }
def goDev (s : State) (w : ImWindow) : State :=
  { s with im := { s.im with
    windows := tset {} (tset {} s.im.windows 0 { w with waits := true }) 0 w, nextOrder := s.im.nextOrder + 1 } }

theorem imRun_of {s : State} {as_ : List Word32} {op i : Nat} (d : Option (Bool × Bytes))
    (h : (reaches (asked s as_) .pf0 imPage && decide (s.power.state = .run ∧ op < 256 ∧ i < 1024)) = true) :
    ImRun (asked s as_) .pf0 op i d (goWin (asked s as_) op i d) (goDev (asked s as_) (goWin (asked s as_) op i d)) := by
  simp only [Bool.and_eq_true, decide_eq_true_eq] at h
  refine ⟨h.1, fun b => ?_, h.2.1, h.2.2, rfl, rfl⟩
  simp only [winAt, asked, tget, tfind]
  by_cases e : (0 : Nat) = b
  · subst e; rfl
  · simp [e, winBusy]

/-- Arguments of CREATE and CONFIGURE: port 0, 2 rings, weight 1, 8 buffers, channel 0. -/
def cfgArgs : List Word32 := [0x10004, 8, 0, 1]
/-- The instance those arguments configure. -/
def cfgInst : Inst := { created := true, rings := 2, weight := 1, ballast := 8, chans := 1 }

/-- InstanceRequestChecks: a request that a check refuses for each opcode, a BUSY window, a window of no function. -/
theorem witness_InstanceRequestChecks :
    ImRun (asked up []) .pf0 0x01 1 none (goWin (asked up []) 0x01 1 none) (goDev (asked up []) (goWin (asked up []) 0x01 1 none)) ∧
    (∀ op ∈ [0x01, 0x02, 0x03, 0x04, 0x05, 0x06, 0x09, 0x0A, 0x10, 0x11, 0x12, 0x13],
      generalCheck (goDev (asked up []) (goWin (asked up []) op 1 none)) op 1 (goWin (asked up []) op 1 none) ≠ 0) ∧
    (∀ op ∈ [0x07, 0x08, 0x14],
      generalCheck (goDev (asked up []) (goWin (asked up []) op 1 (some (true, [])))) op 1 (goWin (asked up []) op 1 (some (true, []))) ≠ 0) ∧
    winBusy (winAt { up with im := { up.im with windows := [(0, { state := .busy })] } } 0) = true ∧
    winBusy (winAt up 0) = false ∧ reaches up .vf imPage = false :=
  ⟨imRun_of none (by decide), by decide⟩

set_option maxRecDepth 8192 in
/-- InstanceRequestsTakeEffect: CREATE on a free number, RESET that takes effect and one that waits, REMOVE, FREEZE, CONFIGURE, MC_BIND. -/
theorem witness_InstanceRequests :
    (let s := asked (owned {}) cfgArgs
     let w := goWin s 0x01 1 none
     ImRun s .pf0 0x01 1 none w (goDev s w) ∧ generalCheck (goDev s w) 0x01 1 w = 0 ∧ poolCheck (goDev s w) (argInst w).rings (argInst w).kcShare 0 = 0 ∧
      (argInst w).mcSlot = none ∧ (argInst w).span = 0) ∧
    (let s := asked (owned cfgInst) []
     let w := goWin s 0x02 1 none
     ImRun s .pf0 0x02 1 none w (goDev s w) ∧ generalCheck (goDev s w) 0x02 1 w = 0 ∧ (instAt (goDev s w) 1).removing = false ∧
      wrapBlocked (goDev s w) 1 = false ∧ wrapBlocked (withJob (goDev s w) 1 { jobOf 0 0 0 [] with gen := 1 }) 1 = true ∧
      generalCheck (goDev s (goWin s 0x03 1 none)) 0x03 1 (goWin s 0x03 1 none) = 0 ∧
      generalCheck (goDev s (goWin s 0x04 1 none)) 0x04 1 (goWin s 0x04 1 none) = 0) ∧
    (let s := asked (owned cfgInst) cfgArgs
     let w := goWin s 0x09 1 none
     ImRun s .pf0 0x09 1 none w (goDev s w) ∧ generalCheck (goDev s w) 0x09 1 w = 0 ∧
      kcShared (goDev s w) (some 1) + (argInst w).kcShare ≤ 262144) ∧
    (let s := asked (owned cfgInst) [4]
     let w := goWin s 0x0A 1 none
     ImRun s .pf0 0x0A 1 none w (goDev s w) ∧ generalCheck (goDev s w) 0x0A 1 w = 0) :=
  ⟨⟨imRun_of none (by decide), by decide⟩, ⟨imRun_of none (by decide), by decide⟩, ⟨imRun_of none (by decide), by decide⟩,
    imRun_of none (by decide), by decide⟩

set_option maxRecDepth 8192 in
/-- InstanceRequestsTakeEffect: a frozen instance (THAW, SAVE, a second SAVE), TICKET with room to the byte and one byte short. -/
theorem witness_FrozenRequests :
    (let q (x : Inst) : State := let s := owned x; { s with units := tset (unitDflt (instPage 1)) s.units (instPage 1) { state := .quiesced, quiesce := true } }
     let s := asked (q cfgInst) []
     let w := goWin s 0x05 1 none
     let v := goWin s 0x07 1 (some (true, []))
     ImRun s .pf0 0x05 1 none w (goDev s w) ∧ generalCheck (goDev s w) 0x05 1 w = 0 ∧ (instAt (goDev s w) 1).saved = false ∧
      keelChecks (goDev s v) = true ∧
      ImRun s .pf0 0x07 1 (some (true, [])) v (goDev s v) ∧ generalCheck (goDev s v) 0x07 1 v = 0 ∧
      (instAt (asked (q { cfgInst with saved := true }) []) 1).saved = true) ∧
    (let s := asked (owned {}) [0, 0, 6475]
     let w := goWin s 0x06 1 none
     ImRun s .pf0 0x06 1 none w (goDev s w) ∧ generalCheck (goDev s w) 0x06 1 w = 0 ∧ (goDev s w).im.tickets.length < 16 ∧ keelChecks (goDev s w) = true ∧
      6475 + (certOf (goDev s w)).length ≤ argOf w 2 ∧ argOf (goWin (asked (owned {}) [0, 0, 6474]) 0x06 1 none) 2 < 6475 + (certOf (goDev s w)).length) :=
  ⟨⟨imRun_of none (by decide), by decide, by decide, by decide, imRun_of _ (by decide), by decide, by decide⟩, imRun_of none (by decide),
    by decide⟩

set_option maxRecDepth 8192 in
/-- InstanceRequestsTakeEffect: ceremony requests whose checks pass and fail, RESTORE without a ticket, MC_LOAD of no image. -/
theorem witness_CeremonyRequests :
    (let s0 (x : StageSlot) : State := { owned cfgInst with kh := { up.kh with slots := tset {} [] 0 x }, ccb := { up.ccb with slots := [(0, { state := .ready })] } }
     let s := asked (s0 {}) [0]
     let w := goWin s 0x10 1 none
     let s' := asked (s0 {}) [0x13200]
     let w' := goWin s' 0x11 1 none
     let st := asked (s0 { state := .staged, inst := 1 }) [0, 100, 0]
     let x := goWin st 0x13 1 none
     let y := goWin st 0x12 1 none
     ImRun s .pf0 0x10 1 none w (goDev s w) ∧ generalCheck (goDev s w) 0x10 1 w = 0 ∧ (goDev s w).kh.pendingGen = false ∧
      ceremonyCheck (goDev s w) 0x10 1 w = 0 ∧
      generalCheck (goDev s' w') 0x11 1 w' = 0 ∧ ceremonyCheck (goDev s' w') 0x11 1 w' = 0 ∧
      generalCheck (goDev st y) 0x12 1 y = 0 ∧ ceremonyCheck (goDev st y) 0x12 1 y = 0 ∧ ceremonyCheck (goDev s y) 0x12 1 y ≠ 0 ∧
      generalCheck (goDev st x) 0x13 1 x = 0 ∧ ceremonyCheck (goDev st x) 0x13 1 x = 0 ∧ (instAt (goDev st x) 1).span = 0) ∧
    (let s := asked (owned {}) [0x10000, 8]
     let w := goWin s 0x08 1 (some (true, []))
     ImRun s .pf0 0x08 1 (some (true, [])) w (goDev s w) ∧ generalCheck (goDev s w) 0x08 1 w = 0 ∧
      (restoreCheck (goDev s w) 1 w).2.1 ≠ 0) ∧
    (let s := asked (owned {}) [3]
     let w := goWin s 0x14 0 (some (true, []))
     ImRun s .pf0 0x14 0 (some (true, [])) w (goDev s w) ∧ generalCheck (goDev s w) 0x14 0 w = 0 ∧
      imageCause (goDev s w) (argOf w 0 % 4) [] (argOf w 3) = 1 ∧ generalCheck (goDev s w) 0x14 1 w ≠ 0) :=
  ⟨⟨imRun_of none (by decide), by decide⟩, ⟨imRun_of _ (by decide), by decide⟩, imRun_of _ (by decide), by decide⟩

/-- InstanceCompletions: a removal, a freeze, a reset that waits; no window BUSY. -/
theorem witness_InstanceCompletions :
    (instAt (owned { cfgInst with removing := true }) 1).removing = true ∧ instIdle (owned cfgInst) 1 = true ∧
    instIdle (keyed (jobOf 0 0 0 [])) 1 = false ∧ (instAt (owned { cfgInst with freezing := true }) 1).freezing = true ∧
    (instAt (owned { cfgInst with waitWrap := true }) 1).waitWrap = true ∧ wrapBlocked (owned cfgInst) 1 = false ∧
    wrapBlocked (withJob (owned cfgInst) 1 { jobOf 0 0 0 [] with gen := 1 }) 1 = true ∧ (instAt up 1).created = false := by decide
theorem witness_NoBusyWindow : ∀ a, winBusy (winAt (owned cfgInst) a) = true → (winAt (owned cfgInst) a).waits = false ∧
    ((winAt (owned cfgInst) a).op = 0x08 → (owned cfgInst).kh.ripcorded = false) :=
  fun _ h => by cases h
/-- InstanceCompletions: a RESET request that waits for its reset, beside a Function Level Reset that does. -/
theorem witness_ResetAsked :
    (let s := { owned { cfgInst with waitWrap := true, resetWaits := true } with
       im := { (owned { cfgInst with waitWrap := true, resetWaits := true }).im with windows := [(0, { state := .busy, op := 2, inst := 1 })] } }
     resetAsked s 1 = true ∧ (instAt s 1).resetWaits = true ∧ wrapBlocked s 1 = false ∧ resetAsked (owned cfgInst) 1 = false) := by decide

/-- HostPortEvents: a port in each state named; NUMVF 1,024 and 1,025; a link that may come up; streams 2 and 3. -/
theorem witness_HostPortEvents :
    Legal up ∧ (portAtN up 1).enabled = false ∧ (portAtN up 1).resetting = [] ∧ 1024 ≤ 1024 ∧ 1024 < 1025 ∧
    (portAtN { up with ports := [(1, { resetting := [5] })] } 1).resetting ≠ [] ∧ (portAtN { up with ports := [(1, { enabled := true })] } 1).enabled = true ∧
    (portAtN up 1).pending = false ∧
    (let s := withUnit up (portPage 1) { state := .starting }
     (portAtN s 1).perst = false ∧ (portAtN s 1).up = false ∧ (unitAt s (portPage 1)).state = .starting ∧
      (unitAt s (portPage 1)).quiesce = false ∧ (unitAt s 0).state ≠ .quiesced ∧ portInsts s 1 = []) ∧
    (let j := { jobOf 0x0101 8 0 [] with phase := .readHead 0 }
     jobAt (keyed j) 1 = some j ∧ (portAtN { keyed j with ports := [(0, { ctoDisable := false })] } (instAt (keyed j) j.inst).port).ctoDisable = false ∧
      (portAtN (keyed j) (instAt (keyed j) j.inst).port).ctoDisable = true) ∧
    (let s := { up with ports := [(1, { up := true, require := true, streams := [(2, { rx := some 0, tx := some 1 })] })] }
     (portAtN s 1).require = true ∧ streamSecure (portAtN s 1) 2 = true ∧ streamSecure (portAtN s 1) 1 = false) ∧
    (portAtN up 1).require = false ∧ (portAtN { up with ports := [(1, { up := true })] } 1).up = true :=
  ⟨legal_of_checks (by decide), by decide⟩

/-- SpdmAndIdeKeys: a mailbox that takes nothing, one that does, a connection at each stage, four sessions, an established one. -/
theorem witness_Spdm :
    doeOpen up 0 = false ∧ doeOpen ringed 0 = true ∧ (portAtN ringed 0).spdmVersion = false ∧ spdmReady (portAtN ringed 0) = false ∧
    (let p : Port := { up := true, spdmVersion := true, spdmCaps := true, spdmAlgs := true }
     let s (p : Port) := { owned {} with ports := [(0, p)] }
     doeOpen (s p) 0 = true ∧ spdmReady (portAtN (s p) 0) = true ∧ identityUsable (s p) = true ∧ identityUsable up = false ∧
      (portAtN (s p) 0).sessions.length < 4 ∧ 4 ≤ (portAtN (s { p with sessions := [{}, {}, {}, {}] }) 0).sessions.length ∧
      (portAtN (s { p with sessions := [{ id := 7 }] }) 0).sessions.find? (fun x => !x.established) = some { id := 7 } ∧
      sessionOf (s p) 0 7 = none ∧
      sessionOf (s { p with sessions := [{ id := 7, established := true }] }) 0 7 = some { id := 7, established := true }) ∧
    field [0#8, 0, 0, 9] 3 1 = 9 ∧ bit (field [0#8, 0, 0, 9] 2 1) 0 = false ∧ field [0#8, 0, 2] 2 1 = 2 ∧
    (tfind ({ keys := [(2, 5)] } : IdeStream).keys (2 * (3 % 2))).isSome = true ∧ tfind ({} : IdeStream).keys (2 * (3 % 2)) = none ∧
    ({ rx := some 1 } : IdeStream).rx = some (3 % 2) := by decide

/-! ### Witnesses: bridle -/

/-- A formation record of two members in one gondola: member 0 is this device, member 1 the
device whose certificate is the empty string; one link between lines 0 of both. -/
def pairRecord : Bytes :=
  [0x45, 0x5A, 0x47, 0x31, 1, 1] ++ le 2 1 ++ le 2 2 ++ le 2 1 ++ zeros 4 ++ le 8 7 ++ le 8 3 ++ zeros 32 ++
    (le 2 0xFFFF ++ le 2 1 ++ le 2 2 ++ [0, 0]) ++ (deviceFp ++ le 2 0 ++ zeros 6) ++ (Config.out .deviceFp [[]] 24 ++ le 2 0 ++ [1] ++ zeros 5) ++
    (le 2 0 ++ [0] ++ le 2 1 ++ [0, 1, 0])

theorem pairRecord_self : recIndexOf pairRecord deviceFp = some 0 := by
  have h : recFp pairRecord 0 = deviceFp := by rfl
  have r : recMembers pairRecord = [0, 1] := by decide
  simp [recIndexOf, r, h]

theorem pairRecord_peer (h : deviceFp ≠ Config.out .deviceFp [[]] 24) : recIndexOf pairRecord (Config.out .deviceFp [[]] 24) = some 1 := by
  have a : recFp pairRecord 0 = deviceFp := by rfl
  have b : recFp pairRecord 1 = Config.out .deviceFp [[]] 24 := by rfl
  have r : recMembers pairRecord = [0, 1] := by decide
  simp [recIndexOf, r, a, b, h]

/-- This device as member 0, line 0 UP to member 1 whose link state is known, a certificate in force; `f` changes the rest. -/
def member (f : Bridle → Bridle) : State :=
  { withUnit up (linePage 0) {} with
    otp := { up.otp with lifecycle := 3 }
    bridle := f { up.bridle with
      record := some pairRecord, state := .member, lines := [(0, { lstate := .up, count := 1, positions := [0], peer := some 1 })]
      links := [(1, { version := 1, links := [(0, 0)] })], certs := [(0, {})], loads := [(1, (5, 5))] } }

theorem selfMember_of {s : State} (h : s.bridle.record = some pairRecord) : selfMember s = 0 := by
  simp [selfMember, heldRecord, h, pairRecord_self]

theorem member_routes : routes (member id) = [{ member := 1, hops := 1, next := 1, line := 0 }] := by
  have e : selfMember (member id) = 0 := selfMember_of rfl
  simp only [routes, routes1, extendRoutes, joined, linksOf, e]
  decide
theorem member_present : presentSet (member id) = [0, 1] := by
  have e : selfMember (member id) = 0 := selfMember_of rfl
  simp only [presentSet, member_routes, e]; rfl

/-- BridleLines: a line DOWN with signal, one in TRAINING whose positions are free, one that reaches beyond lane 479, an attempt before
the third, a lane of an UP line and the last one, LSEQ at 2^47. -/
theorem witness_BridleLines :
    (let s (l : Line) : State := { withUnit up (linePage 63) {} with bridle := { up.bridle with lines := tset {} [] 63 l } }
     lineEnabled (s {}) 63 = true ∧ (lineAt (s {}) 63).lstate = .down ∧ lineEnabled (withUnit up (linePage 63) { state := .off }) 63 = false ∧
      lineConfigBad (s { lstate := .training, first := 448, count := 32 }) 63 = false ∧ forms (s {}) = false ∧
      (∀ p, p < 32 → p ∈ List.range 32 ∧ (s {}).bridle.lanesRetired.contains (448 + p) = false) ∧
      lineConfigBad (s { lstate := .training, first := 449, count := 32 }) 63 = true ∧
      noLaneLeft (s { lstate := .training, first := 448, count := 32 }) 63 = false ∧
      [0, 1].filter (fun p => decide (448 + p ≠ 449)) = [0] ∧ [0].filter (fun p => decide (448 + p ≠ 448)) = [] ∧
      [0].filter (fun p => decide (448 + p ≠ 479)) = [0]) ∧
    (let l : Line := { lstate := .up, lseqOut := 2 ^ 47 }
     l.ephemeral = 0 ∧ 2 ^ 47 ≤ l.lseqOut ∧ ({ lstate := .up, lseqOut := 2 ^ 47 - 1 } : Line).lseqOut < 2 ^ 47) := by decide

/-- BridleLines: a replay buffer whose front is NAKed, with tries left and without, CREDIT, a frame for another member that has a route,
one that made seven hops, one without a route. -/
theorem witness_LineFrames :
    (let f : Frame := { lseq := 4, cls := 3 }
     let g : Frame := { lseq := 5 }
     let l : Line := { lstate := .up, replay := [f, g], tries := 2 }
     l.replay.filter (fun x => decide (4 ≤ x.lseq)) = f :: [g] ∧ l.replay.head? = some f ∧ l.tries < 3 ∧ 3 ≤ ({ l with tries := 3 } : Line).tries ∧
      l.waiting = [] ∧ up.power.state = .run) ∧
    (0 : Nat) ≠ 0xFFFF ∧ (1 : Nat) ≠ 0xFFFF ∧ (6 : Nat) < 7 ∧ selfMember (member id) = 0 ∧
    routeTo (member id) 1 = some { member := 1, hops := 1, next := 1, line := 0 } ∧ routeTo up 5 = none ∧ selfMember up = 0 := by
  refine ⟨by decide, by decide, by decide, by decide, selfMember_of rfl, ?_, by decide, by decide⟩
  simp only [routeTo, member_routes]; rfl

/-- FormationMessages: lines that carry no frame and KEYING and UP ones; HELLO of another system, of a later record, of the same. -/
theorem witness_FormationHello :
    lineLive up 0 = false ∧ lineUp up 0 = false ∧
    (let k : Bridle → Bridle := fun b => { b with lines := [(0, { lstate := .keying, peer := some 1, peerHello := [1] })] }
     let u := takeFrame (member k) 0 2
     lineLive (member k) 0 = true ∧ lineUp u 0 = false ∧ forms u = true ∧ forms (takeFrame (withUnit up 0 {}) 0 2) = false ∧
      recSystem (heldRecord u) = 7 ∧ recSerial (heldRecord u) = 3 ∧ linkListed (heldRecord u) 0 0 1 0 = true ∧
      (lineAt (member k) 0).peer = some 1 ∧ (lineAt (member k) 0).peerHello ≠ [] ∧ (lineAt (member k) 0).lstate = .keying ∧
      recCounts (heldRecord u) = (1, 2, 1) ∧ recordCheck u [1] ≠ 0) ∧ (lineAt (member id) 0).lstate = .up ∧
    recIndexOf [] (Config.out .deviceFp [[]] 24) = none := by decide

/-- FormationMessages: a link state that is new and one that is not, roots that the record agrees with and not, a quorum of both. -/
theorem witness_FormationState :
    (let u := takeFrame (member fun b => { b with links := [], roots := [(0, some 0)], keys := [(0, {})] }) 0 3
     lineUp (member id) 0 = true ∧ forms u = true ∧ tfind u.bridle.links 1 = none ∧ (tfind (takeFrame (member id) 0 2).bridle.links 1).isSome = true ∧
      rootInOffice u 0 = some 0 ∧ cosignQuorum u 0 [0, 1] = true ∧ cosignQuorum u 0 [1] = false ∧ 1 ∈ devicesIn (heldRecord u) 0 ∧
      (tfind u.bridle.keys 0).isSome = true ∧ tfind u.bridle.certs 0 ≠ some { pos := 1 } ∧ u.bridle.left.contains 1 = false ∧
      u.bridle.expelled.contains 1 = false ∧ u.bridle.noOffice = false) := by decide
theorem witness_FormationRoot :
    agreesRoot (member fun b => { b with roots := [(0, some 0)] }) 0 0 1 = true ∧
    rootInOffice (member fun b => { b with roots := [(0, some 0)] }) 0 ≠ some 1 ∧
    agreesRoot (member id) 0 0 0 = true ∧ rootInOffice (member id) 0 ≠ some 0 ∧ agreesRoot (member id) 0 0 1 = false := by
  have e : selfMember (member fun b => { b with roots := [(0, some 0)] }) = 0 := selfMember_of rfl
  have e' : selfMember (member id) = 0 := selfMember_of rfl
  refine ⟨?_, by decide, ?_, by decide, ?_⟩
  · simp only [agreesRoot, computedRoot, presentSet, routes, routes1, extendRoutes, joined, linksOf, e]; decide
  · simp only [agreesRoot, computedRoot, member_present, joined, linksOf, e']; decide
  · simp only [agreesRoot, computedRoot, member_present, joined, linksOf, e']; decide

/-- FormationMessages: KBPK and SPAN of an instance held for member 1 and of one that is not. -/
theorem witness_SpanMessages :
    (let u := takeFrame (member fun b => { b with spanHeld := [{ inst := 1, home := 1 }] }) 0 4
     let h : SpanHeld := { inst := 1, home := 1 }
     h ∈ u.bridle.spanHeld ∧ h.inst = 1 ∧ h.home = 1 ∧ (∀ h ∈ u.bridle.spanHeld, h.inst = 2 → h.home ≠ 1) ∧
      u.kh.ripcorded = false ∧ (slotAt u 31).state = .empty ∧ (∀ h ∈ u.bridle.spanHeld, h.inst ≠ 2) ∧ (instAt u 2).created = false ∧
      kcShared u none + 262144 ≤ 262144 ∧ 262144 < kcShared u none + 262145) ∧
    (slotAt { up with kh := { up.kh with slots := [(5, { state := .staged, inst := 1 })] } } 5).state = .staged := by decide

/-- FormationCommands: each state of BRL_FORM_STATUS named, a failing check of a record, the root. -/
theorem witness_FormationCommands :
    reaches up .pf0 0x020 = true ∧ reaches up .pf0 0x020 = true ∧ reaches up .vf 0x020 = false ∧ up.bridle.busy = false ∧
    recordCheck (modBridle up fun b => { b with busy := true }) (slice [] 0 up.bridle.recLen.toNat) ≠ 0 ∧ up.bridle.state = .none ∧
    (member fun b => { b with state := .isolated }).bridle.state = .isolated ∧ forms (member id) = true ∧
    rootInOffice (member fun b => { b with roots := [(0, some 0)] }) (recOutermost pairRecord) = some 0 ∧ rootInOffice up 0 = none ∧
    (member fun b => { b with busy := true }).bridle.busy = true := by decide

/-- A job of instance 1, whose span is 1, in the hand-off. -/
def spanJob : Job := { jobOf 0x0603 0 0 [] with phase := .handoff, chan := none, entry := entry 0x60 0x0101 0 0 [] }
def spanState : State := withJob { member id with im := { up.im with insts := [(1, { created := true, span := 1 })] } } 1 spanJob

/-- ForwardedWork: a chain that R725 gives to member 1. -/
theorem witness_ForwardSend :
    jobAt spanState 1 = some spanJob ∧ spanJob.phase = .handoff ∧ spanJob.first = 1 ∧ spanJob.origin = none ∧
    chainOf spanState spanJob = [(1, spanJob)] ∧ fwdTarget spanState spanJob = some 1 ∧
    mayForward spanState (chainOf spanState spanJob) spanJob = true ∧ mayForward ringed [] spanJob = false := by
  have e : selfMember spanState = 0 := selfMember_of rfl
  have p : presentSet spanState = [0, 1] := by
    simp only [presentSet, routes, routes1, extendRoutes, joined, linksOf, e]; decide
  refine ⟨by decide, by decide, by decide, by decide, by decide, ?_, ?_, by decide⟩
  · simp only [fwdTarget, spanMembers, viewGondola, betterTarget, p, e]; decide
  · simp only [mayForward, viewStateAt, viewGondola, viewState, gondolaUp, p, e]; decide

/-- ForwardedWork: a forward that is taken, one of an instance not held here, a kept and a forwarded job, LOAD. -/
theorem witness_Forward :
    (let f : Frame := { cls := 3, dst := 0, fwdId := 1 + 512 * 1, cdata := pad 40 [1, 1], body := zeros 16 }
     let s := { member fun b => { b with spanHeld := [{ inst := 1, home := 1 }] } with kh := { up.kh with insts := [(1, { cur := 1 })] } }
     let u := takeFrame s 0 (frameFlits f)
     f.fwdId % 512 = 1 ∧ lineUp s 0 = true ∧ selfMember s = 0 ∧ u.bridle.state = .member ∧ receivedJobs u f.fwdId 1 = [] ∧
      u.bridle.fwdWaiting = [] ∧ takesWork u 0 = true ∧ takesWork u 0x020 = true ∧ executes u (bits f.fwdId 9 10) 1 = true ∧ executes u 2 1 = false ∧
      (instKeys u (bits f.fwdId 9 10)).cur = field f.cdata 0 1 ∧ (instKeys u (bits f.fwdId 9 10)).cur ≠ 0 ∧
      holdsImage u (slice f.cdata 4 12) = true ∧ field f.cdata 1 1 = 1 ∧ 1 ≤ freeReserve u + freeGeneral u) := by
  refine ⟨by decide, by decide, selfMember_of rfl, by decide, by decide, by decide, by decide, by decide, ?_, by decide, by decide, by decide, by decide, by decide, by decide⟩
  have key : ∀ s : State, s.bridle = (takeFrame (member fun b => { b with spanHeld := [{ inst := 1, home := 1 }] }) 0 3).bridle →
      executes s 1 1 = true := by
    intro s hb
    have e : selfMember s = 0 := selfMember_of (by rw [hb]; rfl)
    have v : viewGondola s = fun k => viewGondola.climb pairRecord k (recHome pairRecord 0) := by
      funext k; simp only [viewGondola, hb, e]; rfl
    simp only [executes, ownGondolas, v, gondolaUp, presentSet, routes, routes1, extendRoutes, joined, linksOf, e, forms,
      heldRecord, ownLinks, gone, hb]
    decide
  exact key _ rfl

theorem witness_ForwardedJobs :
    (let j := { spanJob with phase := .forwarded, fwdId := some 9, execMember := some 1, reruns := 2 }
     let u := grant (takeFrame (withJob (member id) 1 j) 0 2) 0 { cls := 4, fwdId := 9 }
     forwardsOf u 9 = [1] ∧ forwardsOf u 8 = [] ∧ jobAt (withJob (member id) 1 j) 1 = some j ∧ j.phase = .forwarded ∧ j.reruns < 3 ∧
      3 ≤ ({ j with reruns := 3 } : Job).reruns) ∧
    (let j := { spanJob with phase := .kept, fwdId := some 513, origin := some 1 }
     receivedJobs (takeFrame (withJob (member id) 1 j) 0 2) 513 (513 % 512) = [(1, j)]) ∧
    tfind (takeFrame (member id) 0 2).bridle.loads 1 ≠ some (4, 4) ∧ field [0#8, 3] 1 1 = 3 ∧
    up.bridle.lastLoad + 4 ≤ idleChannels up ∧ forms up = false := by decide

/-! ### Witnesses: tamper and flash -/

/-- `up` without VIN, its mooring state held. -/
def moored : State := { up with power := { up.power with state := .moored } }

/-- TamperCommands: a firing that resets and one that does not, an enabled source, one whose fuse is burned, the last one. -/
theorem witness_TamperFire :
    vinPresent up = true ∧ vinPresent moored = false ∧
    (let s (r : Nat) : State := { up with tamper := { up.tamper with srcs := tset (srcDflt 41) [] 41 { srcAt up 41 with response := r } }
                                          mooring := { up.mooring with epOpen := true } }
     (fireCore (s 0) 41).2 = false ∧ (fireCore (s 3) 41).2 = true ∧ (srcAt (s 0) 41).response = 0 ∧ srcDisabled (s 0) 41 = false) ∧
    srcDisabled { up with otp := { up.otp with fuse := 1 } } 2 = true ∧
    (let s : State := { up with tamper := { up.tamper with testBusy := true, testSrc := 2 } }
     s.tamper.testBusy = true ∧ s.tamper.testSrc = 2 ∧ 2 ≤ s.tamper.testSrc) := by decide

set_option maxRecDepth 16384 in
/-- TamperCommands: registers; evidence to burn and burned to its target; tests; the fuse key and one bit off; RESPONSE 5 and a FILTER
at its top; the lock. -/
theorem witness_TamperRegisters :
    reaches up .pf0 0x004 = true ∧ evidenceCount { up.otp with evidence := 1 } = 1 ∧
    evidenceCount up.otp < ({ up.mooring with evidTarget := 1 } : Mooring).evidTarget ∧ up.mooring.evidTarget ≤ evidenceCount up.otp ∧
    (let v : Word32 := 0x40 + 41
     v.getLsbD 6 = true ∧ v.toNat % 64 < 42 ∧ srcDisabled up (v.toNat % 64) = false ∧ up.tamper.testBusy = false) ∧
    (0xF5000001 : Word32).toNat / 2 ^ 24 = 0xF5 ∧ (0xF4FFFFFF : Word32).toNat / 2 ^ 24 ≠ 0xF5 ∧ lifecycle up < 2 ∧
    (unitAt up 0x004).lock = false ∧
    (let v : Word32 := 0xFF05
     bits v.toNat 0 3 < 6 ∧ lifecycle up ≠ 2 ∧ 1 ≤ bits v.toNat 8 8 ∧ bits v.toNat 8 8 ≤ (srcRow 2).top) ∧
    (unitAt (withUnit up 0x004 { lock := true }) 0x004).lock = true ∧ bits (5 : Word32).toNat 0 3 ≠ (srcAt up 2).response ∧
    reaches up .pf0 0x00A = true ∧ (0xC1EA : Word32).toNat % 2 ^ 16 = 0xC1EA ∧ (unitAt up 0x00A).lock = false ∧ up.mooring.epOpen = false := by
  decide

/-- TamperCommands: the cell, VIN and VBAT; a filter about to fill and full. -/
theorem witness_TamperCell :
    up.power.state ≠ .moored ∧ moored.power.state = .moored ∧ moored.mooring.held = true ∧ (srcRow 2).cell = true ∧ (srcRow 24).cell = false ∧
    srcDisabled moored 2 = false ∧ moored.mooring.epOpen = false ∧ srcWatched up 2 = true ∧ srcWatched up 38 = false ∧ srcWatched moored 2 = true ∧
    (srcAt { moored with tamper := { moored.tamper with srcs := [(2, { srcAt up 2 with response := 4 })] } } 2).response = 4 ∧
    (let s (n : Nat) : State := { up with tamper := { up.tamper with srcs := [(2, { srcAt up 2 with filter := 4, count := n })] } }
     (srcAt (s 2) 2).count + 1 < (srcAt (s 2) 2).filter ∧ (srcAt (s 3) 2).filter ≤ (srcAt (s 3) 2).count + 1) := by decide

/-- A device whose FL_WIN_ADDR of physical function 0 is `a`, and bank 1 as given. -/
def withBank (a : Word32) (x : Bank) : State := { up with flash := { up.flash with winAddr := [(0, a)], banks := tset {} [] 1 x } }

/-- FlashCommands: window reads at both ends of bank 1, beyond the array, in a suspended sector; a bank that runs. -/
theorem witness_FlashWindow :
    reaches up .pf0 0x007 = true ∧ bankOf 0x1000000 = some 1 ∧ bankOf 0x1FFFFFC = some 1 ∧ bankOf 0x0FFFFFC = some 0 ∧
    winAddr (withBank 0x1FFFFFC {}) (accIdx .pf0) % 2 ^ 26 = 0x1FFFFFC ∧ (bankAt (withBank 0 {}) 1).run = none ∧
    (bankAt (withBank 0 { run := some { op := 3 } }) 1).run ≠ none ∧ bankOf 0x2000800 = none ∧ isCalRow 0x2000800 = false ∧
    (bankAt (withBank 0 { suspended := some 127 }) 1).suspended = some (sectorOf 0x1FFFFFC) := by decide

/-- FlashCommands: the last granule, one that is programmed, the last sector, suspends and resumes, a store about to compact. -/
theorem witness_FlashSequences :
    (let s : State := withBank 0 {}
     reaches s .fw0 0x007 = true ∧ (bankAt s 1).cycles = [] ∧ (bankAt s 1).run = none ∧ s.flash.brownout = false ∧
      flashProtected s 0x1FFFFF0 false = false ∧ 0x1FFFFF0 % 16 = 0 ∧ s.flash.fetch ≠ 1 ∧ (bankAt s 1).suspended ≠ some (sectorOf 0x1FFFFF0) ∧
      flashProtected s 0x1FE0000 true = false ∧ 0x1FE0000 = sectorBase 1 (sectorOf 0x1FE0000) ∧
      granuleErased { s with flash := { s.flash with data := [(0x1FFFFFF, 5)] } } 0x1FFFFFF0 = false) ∧
    (let r : FlashRun := { op := 3, sector := 4 }
     (bankAt (withBank 0 { run := some r, suspendAsked := true }) 1).resumedAt = none ∧
      up.cycles < up.cycles + usCycles 200 ∧ (bankAt (withBank 0 { suspended := some 4 }) 1).suspended = some 4 ∧
      (bankAt (withBank 0 { run := some { op := 1, granules := [(7, 5)] } }) 1).run = some { op := 1, granules := [(7, 5)] }) ∧
    (let f : Flash := { up.flash with epoch := some (zeros 8), head := 61, tail := 0 }
     f.epoch ≠ none ∧ freeSectors f < 3 ∧ f.tail ≠ f.head) ∧ up.flash.epoch = none ∧ (bankAt up 0).run = none := by decide

/-- FlashCommands: the last granule of the staging area of a part with nothing staged is erased. -/
theorem witness_GranuleErased : granuleErased up 0x81FFF0 = true ∧ bankOf 0x81FFF0 = some 0 ∧ flashProtected up 0x81FFF0 false = false ∧
    up.flash.fetch ≠ 0 ∧ (bankAt up 0).suspended ≠ some (sectorOf 0x81FFF0) ∧ 0x81FFF0 % 256 + 16 ≤ 256 := by decide
/-! ### Witnesses: card bus and tag -/

/-- A card bus with slot 3 as given and the transaction `x`. -/
def bus (c : CardSlot) (x : Option CardTxn) : State := { up with ccb := { up.ccb with slots := tset {} [] 3 c, txn := x } }

/-- CardBus: an empty slot, a present one with power, transactions in each phase, retries at the limit. -/
theorem witness_CardSlots :
    (cardSlotAt up 3).present = false ∧ up.ccb.txn = none ∧ up.ccb.bringUp = [] ∧ takesWork up 0x008 = true ∧
    (cardSlotAt (bus { present := true, power := true } none) 3).present = true ∧ (cardSlotAt (bus { power := true } none) 3).power = true ∧
    (∀ q ∈ [0, 1, 2, 3], (cardSlotAt up q).present = false) ∧ (cardSlotAt up 3).power = false ∧
    (∀ op ∈ [0x10, 0x11, 0x12, 0x06],
      (bus {} (some { acc := some 2, slot := 3, op := op })).ccb.txn = some { acc := some 2, slot := 3, op := op }) ∧
    ({ acc := some 2 } : CardTxn).acc ≠ none ∧ ({ op := 1 } : CardTxn).acc = none ∧ ({ op := 2, arg := 5 } : CardTxn).phase = .reply ∧
    (4 : Nat) ≠ replyAddr { op := 2, arg := 5 } ∧ ({ failures := 2 } : CardTxn).failures < 3 ∧ 3 ≤ ({ failures := 3 } : CardTxn).failures ∧
    (bus {} (some { phase := .ack })).ccb.txn = some { phase := .ack } := by decide

set_option maxRecDepth 16384 in
/-- CardBus: a block of the right length and check, one byte short, a command sent and one that queues, each refusal, ABORT. -/
theorem witness_CardCommands :
    ((zeros 72).length = cardBlockLen 0x10 ∧ (zeros 71).length ≠ cardBlockLen 0x10 ∧ (zeros 16).length = cardBlockLen 0x03) ∧
    (bus {} (some { acc := some 0, op := 0x11, phase := .busy })).ccb.txn = some { acc := some 0, op := 0x11, phase := .busy } ∧
    reaches up .fw0 0x008 = true ∧ up.power.state = .run ∧ (cardAccAt up 2).state ≠ 1 ∧ accIdx .fw0 = 2 ∧
    (cardSlotAt (bus { state := .ready } none) 3).state = .ready ∧ (cardSlotAt (bus { state := .locked } none) 3).state = .locked ∧
    (bus { state := .ready } (some {})).ccb.txn ≠ none ∧ (bus { state := .ready } none).ccb.queue = [] ∧ takesWork (bus { state := .ready } none) 0x008 = true ∧
    (cardSlotAt up 3).state ≠ .ready ∧ (cardSlotAt up 3).state ≠ .locked ∧ accIdx .pf0 ≠ 2 ∧ reaches up .vf 0x008 = false ∧
    (0xAB07 : Word32).toNat % 2 ^ 16 = 0xAB07 ∧ (bus {} (some { acc := some 0 })).ccb.txn = some { acc := some 0 } := by decide
theorem witness_CardBlockCrc (data : Bytes) : ∃ crc, crc = (crc32c data).toNat := ⟨_, rfl⟩

/-- `up` with the tag in the field. -/
def tagUp (f : Tag → Tag) : State := { up with tag := f { up.tag with field := true } }

set_option maxRecDepth 16384 in
/-- TagFramesApdusAndJournal: each state of the tag, NVB 20 and 67, the UID and another one. -/
theorem witness_TagFrames :
    up.tag.field = false ∧ (tagUp id).tag.run = none ∧ (∀ a ∈ (tagUp id).tag.waiting, a.reader = true) ∧ tagListens (tagUp id) = true ∧
    tagListens (tagUp fun t => { t with run := some { reader := true } }) = false ∧ (tagUp id).tag.state = .idle ∧
    (∀ st ∈ [TagState.ready, .halt, .active, .protocol], (tagUp fun t => { t with state := st }).tag.state = st) ∧
    (0x67 : Nat) < 0x70 ∧ 0x67 % 16 < 8 ∧
    (let t : Tag := { uid := [0x08, 1, 2, 3] }
     (sentBits (pad 5 [])).take (nvbBits 0x20) = (sentBits (uidBcc t)).take (nvbBits 0x20) ∧
      (sentBits (pad 5 [0x08, 1, 2, 3, 0x48])).take (nvbBits 0x67) ≠ (sentBits (uidBcc t)).take (nvbBits 0x67) ∧
      uidBcc t = [0x08, 1, 2, 3, 0x08] ∧ sentBits [0x08, 1, 2, 3, 9] ≠ sentBits (uidBcc t) ∧ t.uid.length = 4) := by decide

set_option maxRecDepth 16384 in
/-- TagFramesApdusAndJournal: selected and not, blocked, a challenge, sessions of both keys, an append at step 1. -/
theorem witness_TagApdus :
    (tagUp id).tag.selected = false ∧ (tagUp fun t => { t with selected := true }).tag.selected = true ∧
    (journal (tagUp id))[256 * 0 + 0]? = none ∧
    (tagUp id).tag.blocked = false ∧ (tagUp fun t => { t with blocked := true }).tag.blocked = true ∧
    tagKey (tagUp fun t => { t with kRead := some 5 }) 1 = some 5 ∧
    (tagUp fun t => { t with session := some (1, 5, 0) }).tag.session = some (1, 5, 0) ∧ (tagUp id).tag.stale = false ∧
    ({ tagUp id with mooring := { up.mooring with log := List.replicate 16 [] } }).mooring.log[15]? = some [] ∧
    field (zeros 37) 0 4 = (journal (tagUp id)).length ∧ journalFull (tagUp id) = false ∧ mayProgram (tagUp id) = true ∧
    mayProgram { moored with tag := { up.tag with field := true } } = false ∧
    (tagUp fun t => { t with run := some { step := 1 } }).tag.run = some { step := 1 } ∧
    (let v : Word32 := 0x80000001
     reaches up .pf0 0x009 = true ∧ v.getLsbD 31 = true ∧ v.getLsbD 2 = false ∧ up.tag.appState ≠ 1 ∧ takesWork up 0x009 = true ∧
      vinPresent up = true ∧ v.toNat % 256 ≠ 0 ∧ up.tag.appExpect.toNat = (journal up).length ∧ (unitAt up 0x009).lock = false ∧
      lifecycle up ≠ 3 ∧ v.toNat % 4 = 1) ∧
    (unitAt (withUnit up 0x009 { lock := true }) 0x009).lock = true ∧ (0xC1E7 : Word32).toNat % 2 ^ 16 = 0xC1E7 ∧ lifecycle up < 2 ∧
    2 ≤ lifecycle (owned {}) := by decide

/-- TagFramesApdusAndJournal: data that carries the right cryptogram or C-MAC, and data that does not, for any key and state. -/
theorem witness_TagMac (key : BitVec 128) (ctr : Nat) :
    (tagCmac key (be 2 ctr ++ [0x80#8, 0x40#8, 0#8, 0#8]) 8).length = 8 := by simp [tagCmac, Config.out]

/-! ### Witnesses: power, start-up, lifecycle -/

set_option maxRecDepth 16384 in
/-- PowerAndStartUp: a quiet device one tick before and at the idle delay, each refusal of STANDBY, states for each start. -/
theorem witness_PowerStates :
    up.power.state = .run ∧ up.power.idleEn = true ∧ quiet up = true ∧ quiet (keyed (jobOf 0 0 0 [])) = false ∧
    up.power.quietSince + usCycles (idleMicros up) ≤ ({ up with cycles := 250 } : State).cycles ∧ reaches up .pf0 0 = true ∧
    standbyCheck up = 0 ∧ standbyCheck ringed = 1 ∧ standbyCheck { up with bridle := { up.bridle with state := .member } } = 2 ∧
    standbyCheck { up with power := { up.power with fwState := 1 } } = 3 ∧
    ({ up with power := { up.power with state := .standby } } : State).power.state = .standby ∧
    reaches { up with power := { up.power with state := .standby } } .pf0 0 = true ∧ State.reset.power.ready = false ∧ up.power.ready = true ∧
    up.power.state ≠ .moored := by decide
theorem witness_StartUp (straps : Nat) : ∃ u b, startOnce State.reset 1 straps = (u, b) := ⟨(startOnce State.reset 1 straps).1, (startOnce State.reset 1 straps).2, by simp only⟩

/-- A bit that reads marginal at a start-up was burned again, or none was. -/
theorem reburnMarginal_cases (s : State) : reburnMarginal s = { s with fresh := s.fresh + 1 } ∨
    reburnMarginal s = setEvent (otpBurned { s with fresh := s.fresh + 1, otpRegs := { s.otpRegs with marginal := true } }) 0x00B 17 := by
  unfold reburnMarginal freeNat
  dsimp only
  split
  · exact .inl rfl
  · exact .inr rfl

/-- A part whose image halves are both absent, its straps sampled. -/
def noHalf (straps : Nat) : State :=
  let s := { State.reset with power := { State.reset.power with h0 := {}, h1 := {} } }
  sampleStraps { resetBase s with power := { (resetBase s).power with cause := 1 } } straps

set_option maxRecDepth 16384 in
/-- PowerAndStartUp: a part whose image halves are both absent starts with no half; STRAP_TEST 0 and 1. -/
theorem witness_NoHalf :
    (chooseHalf (bootMooring (reburnMarginal (noHalf 0)))).1 = none ∧
    (chooseHalf (bootMooring (reburnMarginal (noHalf 0)))).2.2.power.strapTest = false ∧
    (chooseHalf (bootMooring (reburnMarginal (noHalf 64)))).2.2.power.strapTest = true := by
  rcases reburnMarginal_cases (noHalf 0) with h | h <;> rcases reburnMarginal_cases (noHalf 64) with e | e <;> rw [h, e] <;> decide

set_option maxRecDepth 16384 in
/-- LifecycleCommands: each lifecycle state; a command BUSY; bundles of the least length with every field in place. -/
theorem witness_Lifecycle :
    reaches up .pf0 0x00D = true ∧ (∀ e ∈ up.lc.accs, e.2.state ≠ 1) ∧ (∃ e ∈ ({ up with lc := { up.lc with accs := [(1, { state := 1 })] } } : State).lc.accs, e.2.state = 1) ∧
    (lcAt up 0).state ≠ 1 ∧ lcReads up 2 = true ∧ lcReads up 1 = false ∧ lcReads (owned {}) 5 = true ∧ lifecycle up = 0 ∧
    lifecycle { up with otp := { up.otp with lifecycle := 1 } } = 1 ∧ lifecycle (owned {}) = 2 ∧
    lifecycle { up with otp := { up.otp with lifecycle := 7 } } = 3 ∧ up.otp.ownerFp = 0 ∧ up.lc.list = none ∧
    zeroiseFormat ([0x45, 0x5A, 0x5A, 0x31, 1] ++ zeros 59) 4787 = true ∧ slice ([0x45, 0x5A, 0x5A, 0x31, 1] ++ zeros 59) 8 32 = zeros 32 := by
  decide

/-- LifecycleCommands: the shortest owner list, of one fingerprint. -/
theorem witness_ListFormat : listFormat ([0x45, 0x5A, 0x4C, 0x31, 1] ++ zeros 11 ++ [1] ++ zeros 4778) = true := by
  have h : ([0x45, 0x5A, 0x4C, 0x31, 1] ++ zeros 11 ++ [1] ++ zeros 4778 : Bytes).length = 48 + 24 * 1 + 4723 := by
    simp only [List.length_append, zeros, List.length_replicate, List.length_cons, List.length_nil]
  have n : field ([0x45, 0x5A, 0x4C, 0x31, 1] ++ zeros 11 ++ [1] ++ zeros 4778) 16 2 = 1 := by decide
  simp only [listFormat, n, h]
  decide

end Sys2Proof.Tests
end

/-! PROOF. What decides an access to BAR0 before any register answers it (R72, R73, R107), and the statements on
register accesses that follow from it alone. -/

namespace Sys2Proof.Machine

/-! ### The two commands -/

theorem exec_registerWrite (acc : Acc) (p off : Nat) (v : Word32) (s : State) :
    exec (.registerWrite acc p off v) s = .next (regWrite s acc p off v) := rfl

theorem exec_snapshotRead (acc : Acc) (p off : Nat) (s : State) :
    exec (.snapshotRead acc p off) s = execSnapshotRead acc p off s := rfl

/-! ### Pages that an accessor reaches (R72, R118) -/

section
variable {s : State} {acc : Acc} {p : Nat}

theorem lt_of_reaches (h : reaches s acc p = true) : p < 0x1000 := by
  simp only [reaches, Bool.and_eq_true, decide_eq_true_eq] at h
  obtain ⟨⟨hp, -⟩, -⟩ := h
  exact hp

theorem pageAnswers_of_reaches (h : reaches s acc p = true) : pageAnswers s p = true := by
  simp only [reaches, Bool.and_eq_true] at h
  obtain ⟨⟨-, hanswers⟩, -⟩ := h
  exact hanswers

theorem not_moored_of_pageAnswers (h : pageAnswers s p = true) : s.power.state ≠ .moored := by
  simp only [pageAnswers, Bool.and_eq_true, decide_eq_true_eq] at h
  obtain ⟨⟨⟨hpower, -⟩, -⟩, -⟩ := h
  exact hpower

/-- BAR4 lies above every page of BAR0 (R118). -/
theorem le_of_bar4Page {q : Nat} (h : bar4Page acc = some q) : 0x1000 ≤ q := by
  cases acc <;> simp only [bar4Page, bar4Base, Option.some.injEq, reduceCtorEq] at h <;> omega

theorem bar4Page_ne_of_reaches (h : reaches s acc p = true) : bar4Page acc ≠ some p := fun hbar4 => by
  have hlow := le_of_bar4Page hbar4
  have hhigh := lt_of_reaches h
  omega

theorem bar4Page_succ_ne_of_reaches (h : reaches s acc p = true) : (bar4Page acc).map (· + 1) ≠ some p := fun hbar4 => by
  obtain ⟨q, hq, rfl⟩ := Option.map_eq_some_iff.mp hbar4
  have hlow := le_of_bar4Page hq
  have hhigh := lt_of_reaches h
  omega

/-- A page that answers is powered in STANDBY (R867 of 22). -/
theorem readsUnassigned_of_pageAnswers (h : pageAnswers s p = true) : readsUnassigned s p = false := by
  simp only [pageAnswers, Bool.and_eq_true] at h
  obtain ⟨⟨-, hstandby⟩, -⟩ := h
  by_cases hs : s.power.state = .standby
  · rw [if_pos hs, Bool.not_eq_true'] at hstandby
    rw [readsUnassigned, hstandby, Bool.and_false]
  · rw [readsUnassigned, decide_eq_false hs, Bool.false_and]

/-! ### Accesses to a page of BAR0 that is reached (R73) -/

/-- An aligned write to a page that is reached goes to the page. -/
theorem regWrite_of_reaches {off : Nat} (hacc : acc ≠ .vf) (hreach : reaches s acc p = true) (halign : off % 4 = 0)
    (hoff : off < 0x1000) (v : Word32) : regWrite s acc p off v = pageWrite s acc p off v := by
  have hin : ¬(off % 4 ≠ 0 ∨ 0x1000 ≤ off) := by omega
  rw [regWrite, if_neg hin, if_neg hacc, if_neg (bar4Page_ne_of_reaches hreach), if_pos hreach]

/-- An aligned read of a page that is reached goes to the page, FL_WIN_DATA left out. -/
theorem regRead_of_reaches {off : Nat} (hacc : acc ≠ .vf) (hreach : reaches s acc p = true) (halign : off % 4 = 0)
    (hoff : off < 0x1000) (hflash : ¬(p = flashPage ∧ off = 0x048)) :
    regRead s acc p off = (some ((readFrom s acc p off).1 % 2 ^ 32), (readFrom s acc p off).2) := by
  have hin : ¬(off % 4 ≠ 0 ∨ 0x1000 ≤ off) := by omega
  have hpow := readsUnassigned_of_pageAnswers (pageAnswers_of_reaches hreach)
  rw [regRead, if_neg hin, if_neg hacc, if_neg (bar4Page_ne_of_reaches hreach),
    if_neg (bar4Page_succ_ne_of_reaches hreach), hpow, hreach, if_neg Bool.false_ne_true, Bool.not_true,
    if_neg Bool.false_ne_true, if_neg hflash]

/-- SNAPSHOT_READ of a page that is reached answers with the value that the page gives. -/
theorem exec_snapshotRead_of_reaches {off : Nat} (hacc : acc ≠ .vf) (hreach : reaches s acc p = true)
    (halign : off % 4 = 0) (hoff : off < 0x1000) (hflash : ¬(p = flashPage ∧ off = 0x048)) :
    exec (.snapshotRead acc p off) s =
      .next (emit (readFrom s acc p off).2 (.readValue acc (w32 ((readFrom s acc p off).1 % 2 ^ 32)))) := by
  have hpow := not_moored_of_pageAnswers (pageAnswers_of_reaches hreach)
  rw [exec_snapshotRead, execSnapshotRead, if_neg hpow, if_neg fun h => hflash ⟨h.1, h.2.1⟩,
    regRead_of_reaches hacc hreach halign hoff hflash]

/-! ### Expert registers at the basic level (R107) -/

/-- No register of a gondola view that a write changes is an expert register (R728 of 17). -/
theorem viewWrite_expert (a k : Nat) {off : Nat} (hexpert : 0x800 ≤ off) (v : Word32) : viewWrite s a k off v = s := by
  unfold viewWrite
  split
  case h_5 => rfl
  all_goals omega

theorem pageWrite_expert_of_basic {off : Nat} (hlevel : (unitAt s p).level = false) (hexpert : 0x800 ≤ off) (v : Word32) :
    pageWrite s acc p off v = s := by
  have hbody : ¬ off < 0x040 := by omega
  have hclosed : 0x800 ≤ off ∧ (!(unitAt s p).level) = true := ⟨hexpert, by rw [hlevel]; rfl⟩
  simp only [pageWrite, viewWrite_expert _ _ hexpert, if_neg hbody, if_pos hclosed, ite_self]

theorem readFrom_expert_of_basic {off : Nat} (hlevel : (unitAt s p).level = false) (hexpert : 0x800 ≤ off) :
    readFrom s acc p off = (0, s) := by
  rw [readFrom, hlevel, if_pos ⟨hexpert, rfl⟩]

end

/-- Settles O19: an access to a page of BAR0 that is reached is decided by the page, and at LEVEL 0 the page drops a write
at 0x800 and above and answers a read there with 0. -/
theorem expertRegistersClosedAtBasicLevel : Obligations.ExpertRegistersClosedAtBasicLevel := by
  intro acc p off v s hacc _ hlevel hexpert hoff halign hreach
  have hflash : ¬(p = flashPage ∧ off = 0x048) := by omega
  constructor
  · rw [exec_registerWrite, regWrite_of_reaches hacc hreach halign hoff, pageWrite_expert_of_basic hlevel hexpert]
  · rw [exec_snapshotRead_of_reaches hacc hreach halign hoff hflash, readFrom_expert_of_basic hlevel hexpert]
    rfl

end Sys2Proof.Machine

/-! PROOF. The configuration registers of a ring's page (R121 to R123, R128 of 03): a write is taken while the ring is
disabled and idle, and is dropped otherwise. -/

namespace Sys2Proof.Machine

theorem exec_ringConfigWrite (i r offset : Nat) (v : Word32) (s : State) :
    exec (.ringConfigWrite i r offset v) s = execRingConfigWrite i r offset v s := rfl

theorem exec_ringConfigWrite_of_there {s : State} {i r : Nat} (hthere : ringThere s i r = true) (offset : Nat)
    (v : Word32) : exec (.ringConfigWrite i r offset v) s = .next (writeRingConfig s (ringKey i r) offset v) := by
  rw [exec_ringConfigWrite, execRingConfigWrite, if_pos hthere]

section
variable {s : State} {k : Nat}

/-- The guard of R128 closed: whatever the register, the write is dropped. -/
theorem writeRingConfig_of_enabled_or_busy (hclosed : (ringAt s k).enable = true ∨ ringIdle s k = false)
    (offset : Nat) (v : Word32) : writeRingConfig s k offset v = s := by
  have hguard : ((ringAt s k).enable || !ringIdle s k) = true := by
    rwa [Bool.or_eq_true, Bool.not_eq_true']
  exact if_pos hguard

/-! ### The guard of R128 open: one equation per register -/

/-- The guard of `writeRingConfig` as it evaluates for a ring that is disabled and idle. -/
theorem ringConfigGuard_open (hdisabled : (ringAt s k).enable = false) (hidle : ringIdle s k = true) :
    ¬ ((ringAt s k).enable || !ringIdle s k) = true := by
  rw [hdisabled, hidle]
  decide

theorem writeRingConfig_baseLo (hdisabled : (ringAt s k).enable = false) (hidle : ringIdle s k = true) (v : Word32) :
    writeRingConfig s k 0x000 v = putRing s k { ringAt s k with baseLo := v &&& 0xFFFFF000#32, head := 0 } := by
  rw [writeRingConfig, if_neg (ringConfigGuard_open hdisabled hidle)]

theorem writeRingConfig_baseHi (hdisabled : (ringAt s k).enable = false) (hidle : ringIdle s k = true) (v : Word32) :
    writeRingConfig s k 0x004 v = putRing s k { ringAt s k with baseHi := v, head := 0 } := by
  rw [writeRingConfig, if_neg (ringConfigGuard_open hdisabled hidle)]

theorem writeRingConfig_size (hdisabled : (ringAt s k).enable = false) (hidle : ringIdle s k = true) (v : Word32) :
    writeRingConfig s k 0x008 v = putRing s k { ringAt s k with log2 := v.toNat % 32, head := 0 } := by
  rw [writeRingConfig, if_neg (ringConfigGuard_open hdisabled hidle)]

end

/-- Settles O9: the command is a write of the ring's page, and the guard of R128 decides it: open, each register takes its
field and RING_HEAD returns to 0; closed, nothing changes. -/
theorem ringConfigWrite : Obligations.RingConfigWrite := by
  intro i r v s hthere
  simp only [exec_ringConfigWrite_of_there hthere]
  constructor
  · intro hdisabled hidle
    rw [writeRingConfig_baseLo hdisabled hidle, writeRingConfig_baseHi hdisabled hidle,
      writeRingConfig_size hdisabled hidle]
    exact ⟨rfl, rfl, rfl⟩
  · intro hclosed offset
    rw [writeRingConfig_of_enabled_or_busy hclosed]

end Sys2Proof.Machine

/-! PROOF. What a step is, and what every step keeps: each command answers a next state, and `Evolves` holds from the state
before a command, or before a cycle of the crystal, to the state after it. -/

namespace Sys2Proof.Machine

/-! ### Every command answers (log 3) -/

/-- An outcome that is a next state. -/
def Answers (x : Host.Outcome State Fault Refusal) : Prop := ∃ t, x = .next t

theorem Answers.next (t : State) : Answers (.next t) := ⟨t, rfl⟩

theorem Answers.stay (t : State) : Answers (stay t) := ⟨t, rfl⟩

theorem Answers.ite {a b : Host.Outcome State Fault Refusal} {c : Prop} [Decidable c] (ha : Answers a) (hb : Answers b) :
    Answers (if c then a else b) := by split <;> assumption

theorem sailRow_answers (op p : Nat) (word : Word32) (s : State) : Answers (sailRow op p word s) :=
  .ite (.next _) (.stay _)

theorem execSnapshotRead_answers (acc : Acc) (p off : Nat) (s : State) : Answers (execSnapshotRead acc p off s) := by
  unfold execSnapshotRead
  refine .ite (.stay _) (.ite (.next _) ?_)
  split <;> exact .next _

theorem execSmbusRead_answers (s : State) : Answers (execSmbusRead s) := by
  unfold execSmbusRead
  refine .ite (.stay _) ?_
  split <;> exact .next _

theorem execInterruptTaken_answers (p : Nat) (s : State) : Answers (execInterruptTaken p s) := by
  unfold execInterruptTaken
  refine .ite (.stay _) ?_
  split
  · exact .stay _
  · exact .next _

theorem execPortHashComplete_answers (p : Nat) (s : State) : Answers (execPortHashComplete p s) := by
  unfold execPortHashComplete
  extract_lets e
  split
  · exact .stay _
  · exact .ite (.next _) (.stay _)

theorem execDebugResponse_answers (chain : Bytes) (inst : Nat) (sig : Bytes) (s : State) :
    Answers (execDebugResponse chain inst sig s) := by
  unfold execDebugResponse
  refine .ite (.stay _) ?_
  split
  · exact .ite (.next _) (.next _)
  · exact .next _

/-- Most commands are a next state as they are written; the rest branch first. -/
theorem exec_answers (c : Instr) (s : State) : Answers (exec c s) := by
  cases c
  case sailModSet | sailToMont | sailFromMont | sailAdd | sailSub | sailMul | sailSqr | sailInv | sailExp | sailReduce |
    sailRand | sailKeyLoad | sailClear | sailCopy | sailEq | sailCurveSet | sailPoc | sailPload | sailPstore | sailPdbl
    | sailPadd | sailPmul | sailPdecomp | sailLaneSet | sailNtt | sailIntt | sailPwmul | sailPwadd | sailPwsub |
    sailSign | sailVerify | sailBatchVerify | sailKeygen | sailEncaps | sailDecaps =>
    exact sailRow_answers ..
  case snapshotRead => exact execSnapshotRead_answers ..
  case smbusRead => exact execSmbusRead_answers ..
  case interruptTaken => exact execInterruptTaken_answers ..
  case portHashComplete => exact execPortHashComplete_answers ..
  case debugResponse => exact execDebugResponse_answers ..
  case sailMemRead => exact .ite (.next _) (.stay _)
  case sourceTestPass => exact .ite (.next _) (.stay _)
  case failRunReset => exact .ite (.next _) (.stay _)
  case nointExpire => exact .ite (.stay _) (.next _)
  case bmove | hfeed | swait => exact .ite (.next _) (.next _)
  case debugChallenge => exact .ite (.stay _) (.ite (.next _) (.next _))
  case debugAccess => exact .ite (.stay _) (.ite (.next _) (.ite (.next _) (.next _)))
  all_goals exact .next _

/-! ### Every command evolves the state -/

theorem exec_evolves (c : Instr) (s : State) : Keeps inOut s (exec c s) := by
  have h := Evolves.refl s
  cases c with
  | ringDoorbell _ _ => exact execRingDoorbell_ev h
  | entryReadComplete _ _ _ => exact execEntryReadComplete_ev h
  | ballastWaitEnd => exact execBallastWaitEnd_ev h
  | orderedRelease _ => exact execOrderedRelease_ev h
  | jobHandoff _ _ _ => exact execJobHandoff_ev h
  | hostReadComplete _ _ _ => exact execHostReadComplete_ev h
  | unwrapComplete _ => exact execUnwrapComplete_ev h
  | resultFinal _ => exact execResultFinal_ev h
  | leafCommit _ => exact execLeafCommit_ev h
  | completionWrite _ => exact execCompletionWrite_ev h
  | outputSegmentWrite _ => exact execOutputSegmentWrite_ev h
  | forward _ _ => exact execForward_ev h
  | forwardSend _ _ => exact execForwardSend_ev h
  | result _ _ => exact execResult_ev h
  | unitEnable _ _ => exact execUnitEnable_ev h
  | unitDisable _ _ => exact execUnitDisable_ev h
  | unitQuiesce _ _ => exact execUnitQuiesce_ev h
  | unitUnquiesce _ _ => exact execUnitUnquiesce_ev h
  | unitLevelChange _ _ _ => exact execUnitLevelChange_ev h
  | unitStartComplete _ => exact execUnitStartComplete_ev h
  | unitDrainComplete _ => exact execUnitDrainComplete_ev h
  | faultClear _ _ => exact execFaultClear_ev h
  | retireRequest _ _ => exact execRetireRequest_ev h
  | unitEventClear _ _ _ => exact execUnitEventClear_ev h
  | unitEventEnWrite _ _ _ => exact execUnitEventEnWrite_ev h
  | unitLockSet _ _ => exact execUnitLockSet_ev h
  | registerWrite _ _ _ _ => exact execRegisterWrite_ev h
  | snapshotRead _ _ _ => exact execSnapshotRead_ev h
  | ringConfigWrite _ _ _ _ => exact execRingConfigWrite_ev h
  | ringEnable _ _ => exact execRingEnable_ev h
  | ringDisable _ _ => exact execRingDisable_ev h
  | busMasterEnableChange _ _ => exact execBusMasterEnableChange_ev h
  | msixUnmask _ _ => exact execMsixUnmask_ev h
  | sign _ => exact execSign_ev h
  | verify _ => exact execVerify_ev h
  | verifyBatch _ => exact execVerifyBatch_ev h
  | attestKey _ => exact execAttestKey_ev h
  | translatePin _ => exact execTranslatePin_ev h
  | verifyPinOffset _ => exact execVerifyPinOffset_ev h
  | generatePinOffset _ => exact execGeneratePinOffset_ev h
  | dukptTranslatePinAes _ => exact execDukptTranslatePinAes_ev h
  | dukptTranslatePinTdea _ => exact execDukptTranslatePinTdea_ev h
  | arqcVerify _ => exact execArqcVerify_ev h
  | arpcGenerate _ => exact execArpcGenerate_ev h
  | arqcVerifyArpc _ => exact execArqcVerifyArpc_ev h
  | macGenerate _ => exact execMacGenerate_ev h
  | macVerify _ => exact execMacVerify_ev h
  | generate _ => exact execGenerate_ev h
  | generatePair _ => exact execGeneratePair_ev h
  | importKey _ => exact execImport_ev h
  | translateKeyblock _ => exact execTranslateKeyblock_ev h
  | exportUnderKek _ => exact execExportUnderKek_ev h
  | kcv _ => exact execKcv_ev h
  | importPublic _ => exact execImportPublic_ev h
  | publicKey _ => exact execPublicKey_ev h
  | encapsulate _ => exact execEncapsulate_ev h
  | decapsulate _ => exact execDecapsulate_ev h
  | encrypt _ => exact execEncrypt_ev h
  | decrypt _ => exact execDecrypt_ev h
  | tokenise _ => exact execTokenise_ev h
  | detokenise _ => exact execDetokenise_ev h
  | hash _ => exact execHash_ev h
  | getRandom _ => exact execGetRandom_ev h
  | auditProof _ => exact execAuditProof_ev h
  | nopFence _ => exact execNopFence_ev h
  | kcFlush _ _ => exact execKcFlush_ev h
  | kcFlushDone => exact execKcFlushDone_ev h
  | tetherPpsPulse _ _ => exact execTetherPpsPulse_ev h
  | tetherTodFrame _ _ => exact execTetherTodFrame_ev h
  | todIdleExpiry => exact execTodIdleExpiry_ev h
  | tetherNextSec _ _ => exact execTetherNextSec_ev h
  | tetherStrobe _ value => exact execTetherStrobe_ev (a1 := value) h
  | tetherAdrift => exact execTetherAdrift_ev h
  | catchupEnd => exact execCatchupEnd_ev h
  | tetherMark _ _ _ => exact execTetherMark_ev h
  | eventFire _ => exact execEventFire_ev h
  | periodicSealFire _ => exact execPeriodicSealFire_ev h
  | arm _ => exact execArm_ev h
  | disarm _ => exact execDisarm_ev h
  | eventClear _ => exact execEventClear_ev h
  | drkGenerate => exact execDrkGenerate_ev h
  | sealWrite _ => exact execSealWrite_ev h
  | keyRecordWrite _ => exact execKeyRecordWrite_ev h
  | audRingRdWrite _ _ => exact execAudRingRdWrite_ev h
  | audRingConfigWrite _ _ _ => exact execAudRingConfigWrite_ev h
  | audRingEnable _ => exact execAudRingEnable_ev h
  | audPsEnable _ => exact execAudPsEnable_ev h
  | sailModSet _ _ => exact execSailModSet_ev h
  | sailToMont _ _ => exact execSailToMont_ev h
  | sailFromMont _ _ => exact execSailFromMont_ev h
  | sailAdd _ _ => exact execSailAdd_ev h
  | sailSub _ _ => exact execSailSub_ev h
  | sailMul _ _ => exact execSailMul_ev h
  | sailSqr _ _ => exact execSailSqr_ev h
  | sailInv _ _ => exact execSailInv_ev h
  | sailExp _ _ => exact execSailExp_ev h
  | sailReduce _ _ => exact execSailReduce_ev h
  | sailRand _ _ => exact execSailRand_ev h
  | sailKeyLoad _ _ => exact execSailKeyLoad_ev h
  | sailClear _ _ => exact execSailClear_ev h
  | sailCopy _ _ => exact execSailCopy_ev h
  | sailEq _ _ => exact execSailEq_ev h
  | sailCurveSet _ _ => exact execSailCurveSet_ev h
  | sailPoc _ _ => exact execSailPoc_ev h
  | sailPload _ _ => exact execSailPload_ev h
  | sailPstore _ _ => exact execSailPstore_ev h
  | sailPdbl _ _ => exact execSailPdbl_ev h
  | sailPadd _ _ => exact execSailPadd_ev h
  | sailPmul _ _ => exact execSailPmul_ev h
  | sailPdecomp _ _ => exact execSailPdecomp_ev h
  | sailLaneSet _ _ => exact execSailLaneSet_ev h
  | sailNtt _ _ => exact execSailNtt_ev h
  | sailIntt _ _ => exact execSailIntt_ev h
  | sailPwmul _ _ => exact execSailPwmul_ev h
  | sailPwadd _ _ => exact execSailPwadd_ev h
  | sailPwsub _ _ => exact execSailPwsub_ev h
  | sailSign _ _ => exact execSailSign_ev h
  | sailVerify _ _ => exact execSailVerify_ev h
  | sailBatchVerify _ _ => exact execSailBatchVerify_ev h
  | sailKeygen _ _ => exact execSailKeygen_ev h
  | sailEncaps _ _ => exact execSailEncaps_ev h
  | sailDecaps _ _ => exact execSailDecaps_ev h
  | sailCommandEnd _ => exact execSailCommandEnd_ev h
  | sailAbort _ _ _ => exact execSailAbort_ev h
  | wipeComplete _ _ => exact execWipeComplete_ev h
  | sailMemRead _ _ _ => exact execSailMemRead_ev h
  | sailMemWrite _ _ _ _ => exact execSailMemWrite_ev h
  | checkForm _ => exact execCheckForm_ev h
  | verifyGather _ => exact execVerifyGather_ev h
  | evaluationComplete _ _ => exact execEvaluationComplete_ev h
  | arbitrationComplete _ _ => exact execArbitrationComplete_ev h
  | stripeComplete _ _ => exact execStripeComplete_ev h
  | hashStart _ _ _ => exact execHashStart_ev h
  | bulkFeed _ _ _ => exact execBulkFeed_ev h
  | hashEnd _ _ => exact execHashEnd_ev h
  | selftest _ _ _ => exact execSelftest_ev h
  | selftestAll _ _ => exact execSelftestAll_ev h
  | bulkCmdDone _ _ => exact execBulkCmdDone_ev h
  | sourceHealthFailure _ _ => exact execSourceHealthFailure_ev h
  | sourceTestPass _ => exact execSourceTestPass_ev h
  | failRunReset _ => exact execFailRunReset_ev h
  | seedBlockRelease _ => exact execSeedBlockRelease_ev h
  | seedRequestServe => exact execSeedRequestServe_ev h
  | drbgCallDeliver _ => exact execDrbgCallDeliver_ev h
  | reseed _ _ => exact execReseed_ev h
  | pairInstruction _ _ _ => exact execPairInstruction_ev h
  | lit24 _ _ => exact execLit24_ev h
  | lithi _ _ => exact execLithi_ev h
  | call _ _ => exact execCall_ev h
  | calli _ => exact execCalli_ev h
  | jmp _ _ => exact execJmp_ev h
  | jmpi _ => exact execJmpi_ev h
  | bzl _ _ => exact execBzl_ev h
  | bnzl _ _ => exact execBnzl_ev h
  | loop _ _ => exact execLoop_ev h
  | loopi _ _ _ => exact execLoopi_ev h
  | ld _ _ _ _ => exact execLd_ev h
  | st _ _ _ => exact execSt_ev h
  | ldc _ _ _ _ _ => exact execLdc_ev h
  | stc _ _ _ _ => exact execStc_ev h
  | cld _ _ _ _ => exact execCld_ev h
  | cst _ _ _ _ => exact execCst_ev h
  | cpush _ _ => exact execCpush_ev h
  | cpop _ _ => exact execCpop_ev h
  | cnarrow _ _ => exact execCnarrow_ev h
  | ctest _ _ => exact execCtest_ev h
  | cfield _ _ _ => exact execCfield_ev h
  | cnull _ _ => exact execCnull_ev h
  | bmove _ _ => exact execBmove_ev h
  | hstart _ _ _ _ => exact execHstart_ev h
  | hfeed _ _ _ => exact execHfeed_ev h
  | hend _ => exact execHend_ev h
  | scmd _ _ => exact execScmd_ev h
  | skey _ _ _ => exact execSkey_ev h
  | swait _ _ => exact execSwait_ev h
  | sstat _ _ => exact execSstat_ev h
  | rngDataRead _ => exact execRngDataRead_ev h
  | jobNext _ => exact execJobNext_ev h
  | leafWait _ => exact execLeafWait_ev h
  | coreId _ => exact execCoreId_ev h
  | tetherRead _ => exact execTetherRead_ev h
  | jobSerial _ => exact execJobSerial_ev h
  | jobEnd _ => exact execJobEnd_ev h
  | leafSubmit _ => exact execLeafSubmit_ev h
  | trap _ _ => exact execTrap_ev h
  | retx _ => exact execRetx_ev h
  | mfs _ _ => exact execMfs_ev h
  | mts _ _ => exact execMts_ev h
  | mpusync _ => exact execMpusync_ev h
  | fence _ => exact execFence_ev h
  | waiti _ => exact execWaiti_ev h
  | sld _ _ _ _ => exact execSld_ev h
  | sxor _ _ _ => exact execSxor_ev h
  | sgfm _ _ _ => exact execSgfm_ev h
  | sclr _ _ _ => exact execSclr_ev h
  | sput _ _ _ => exact execSput_ev h
  | srand _ _ => exact execSrand_ev h
  | interruptTaken _ => exact execInterruptTaken_ev h
  | nointExpire _ => exact execNointExpire_ev h
  | debugChallenge => exact execDebugChallenge_ev h
  | debugResponse _ _ _ => exact execDebugResponse_ev h
  | debugAccess _ _ _ _ => exact execDebugAccess_ev h
  | debugClose => exact execDebugClose_ev h
  | create _ _ => exact execCreate_ev h
  | reset _ _ => exact execReset_ev h
  | remove _ _ => exact execRemove_ev h
  | removeComplete _ => exact execRemoveComplete_ev h
  | freeze _ _ => exact execFreeze_ev h
  | freezeComplete _ => exact execFreezeComplete_ev h
  | thaw _ _ => exact execThaw_ev h
  | ticket _ _ => exact execTicket_ev h
  | save _ _ _ _ => exact execSave_ev h
  | restore _ _ _ _ => exact execRestore_ev h
  | configure _ _ => exact execConfigure_ev h
  | mcBind _ _ => exact execMcBind_ev h
  | cerJoin _ _ => exact execCerJoin_ev h
  | cerSplit _ _ => exact execCerSplit_ev h
  | cerAbandon _ _ => exact execCerAbandon_ev h
  | cerActivate _ _ => exact execCerActivate_ev h
  | mcLoad _ _ _ _ => exact execMcLoad_ev h
  | generationWrapWaitEnd _ => exact execGenerationWrapWaitEnd_ev h
  | functionLevelResetVf _ => exact execFunctionLevelResetVf_ev h
  | transientFault _ _ _ => exact execTransientFault_ev h
  | sramCorrectedError _ _ _ => exact execSramCorrectedError_ev h
  | sramUncorrectedError _ _ _ => exact execSramUncorrectedError_ev h
  | networkParityError _ _ _ => exact execNetworkParityError_ev h
  | retirementRecorded _ => exact execRetirementRecorded_ev h
  | fieldTestStart _ => exact execFieldTestStart_ev h
  | fieldTestResult _ _ _ => exact execFieldTestResult_ev h
  | lineSignalDetect _ => exact execLineSignalDetect_ev h
  | lineTrainingAttempt _ _ => exact execLineTrainingAttempt_ev h
  | laneLossOfLock _ _ => exact execLaneLossOfLock_ev h
  | frameRelay _ _ _ => exact execFrameRelay_ev h
  | lseqRekey _ => exact execLseqRekey_ev h
  | hello _ _ _ _ _ _ _ => exact execHello_ev h
  | key _ _ _ _ _ _ => exact execKey_ev h
  | record _ _ => exact execRecord_ev h
  | linkState _ _ _ _ _ => exact execLinkState_ev h
  | root _ _ _ => exact execRoot_ev h
  | cosignReq _ _ _ _ _ _ _ _ _ => exact execCosignReq_ev h
  | cosign _ _ _ _ => exact execCosign_ev h
  | cert _ _ _ _ _ _ _ => exact execCert_ev h
  | kbpk _ _ _ _ _ _ _ _ _ => exact execKbpk_ev h
  | span _ _ _ _ _ _ _ _ => exact execSpan_ev h
  | signReq _ _ _ _ => exact execSignReq_ev h
  | signed _ sender ec pq => exact execSigned_ev (a1 := sender) (a2 := ec) (a3 := pq) h
  | leave _ _ => exact execLeave_ev h
  | expel _ _ => exact execExpel_ev h
  | ack _ _ => exact execAck_ev h
  | nak _ _ => exact execNak_ev h
  | credit _ _ _ _ => exact execCredit_ev h
  | fwdAck _ _ => exact execFwdAck_ev h
  | nakFwd _ _ => exact execNakFwd_ev h
  | nakRes _ _ => exact execNakRes_ev h
  | lost _ _ => exact execLost_ev h
  | returned _ _ => exact execReturned_ev h
  | load _ _ _ _ => exact execLoad_ev h
  | formLoad _ _ _ => exact execFormLoad_ev h
  | formJoin _ => exact execFormJoin_ev h
  | formLeave _ => exact execFormLeave_ev h
  | formExpel _ => exact execFormExpel_ev h
  | formClear _ => exact execFormClear_ev h
  | tamperFire _ _ _ => exact execTamperFire_ev h
  | tmpFiredClear _ _ _ => exact execTmpFiredClear_ev h
  | evidenceBitBurn => exact execEvidenceBitBurn_ev h
  | tmpTest _ _ => exact execTmpTest_ev h
  | tmpTestDone _ => exact execTmpTestDone_ev h
  | tmpFuseBurn _ _ => exact execTmpFuseBurn_ev h
  | tmpSrcCfgWrite _ _ _ => exact execTmpSrcCfgWrite_ev h
  | vinLoss => exact execVinLoss_ev h
  | cellTamperFire _ => exact execCellTamperFire_ev h
  | vbatCollapse => exact execVbatCollapse_ev h
  | mooringLogClear _ _ => exact execMooringLogClear_ev h
  | flWinDataRead _ _ => exact execFlWinDataRead_ev h
  | programGranule _ _ _ _ _ _ => exact execProgramGranule_ev h
  | bufferedProgram _ _ _ => exact execBufferedProgram_ev h
  | sectorErase _ _ => exact execSectorErase_ev h
  | eraseSuspend _ _ => exact execEraseSuspend_ev h
  | eraseSuspended _ => exact execEraseSuspended_ev h
  | eraseResume _ _ => exact execEraseResume_ev h
  | readStatus _ _ => exact execReadStatus_ev h
  | returnToReadArray _ _ => exact execReturnToReadArray_ev h
  | flashOperationEnd _ _ => exact execFlashOperationEnd_ev h
  | brownout => exact execBrownout_ev h
  | storeCompaction => exact execStoreCompaction_ev h
  | slotPresent _ => exact execSlotPresent_ev h
  | slotRemoval _ => exact execSlotRemoval_ev h
  | ccbOvercurrent _ => exact execCcbOvercurrent_ev h
  | cardReply _ _ _ _ => exact execCardReply_ev h
  | cardBlock _ _ => exact execCardBlock_ev h
  | cardBusyEnd => exact execCardBusyEnd_ev h
  | readRecord _ _ _ => exact execReadRecord_ev h
  | writeRecord _ _ _ => exact execWriteRecord_ev h
  | status _ _ => exact execStatus_ev h
  | setPwd _ _ => exact execSetPwd_ev h
  | clrPwd _ _ => exact execClrPwd_ev h
  | lock _ _ => exact execLock_ev h
  | unlock _ _ => exact execUnlock_ev h
  | forceErase _ _ => exact execForceErase_ev h
  | ccbAbort _ _ => exact execCcbAbort_ev h
  | fieldOn => exact execFieldOn_ev h
  | fieldOff => exact execFieldOff_ev h
  | fdWakeRelease => exact execFdWakeRelease_ev h
  | reqa => exact execReqa_ev h
  | wupa => exact execWupa_ev h
  | anticollision _ _ => exact execAnticollision_ev h
  | select _ _ _ => exact execSelect_ev h
  | hlta _ => exact execHlta_ev h
  | rats _ _ => exact execRats_ev h
  | sDeselect _ => exact execSDeselect_ev h
  | selectAid _ _ _ _ => exact execSelectAid_ev h
  | getEvidence _ _ _ _ => exact execGetEvidence_ev h
  | readJournal _ _ _ _ => exact execReadJournal_ev h
  | authBegin _ _ _ _ => exact execAuthBegin_ev h
  | authEnd _ _ _ _ => exact execAuthEnd_ev h
  | readIdentity _ _ _ _ => exact execReadIdentity_ev h
  | readMoorLog _ _ _ _ => exact execReadMoorLog_ev h
  | append _ _ _ _ => exact execAppend_ev h
  | appendResume _ => exact execAppendResume_ev h
  | deviceAppend _ _ => exact execDeviceAppend_ev h
  | tagKeyWrite _ _ => exact execTagKeyWrite_ev h
  | tagJrnlClr _ _ => exact execTagJrnlClr_ev h
  | vfEnableWrite _ _ _ => exact execVfEnableWrite_ev h
  | functionLevelResetPf _ => exact execFunctionLevelResetPf_ev h
  | portReset _ _ => exact execPortReset_ev h
  | linkUp _ _ _ => exact execLinkUp_ev h
  | completionTimeout _ => exact execCompletionTimeout_ev h
  | tlpReceive _ _ _ => exact execTlpReceive_ev h
  | ideIntegrityFail _ _ => exact execIdeIntegrityFail_ev h
  | getVersion _ _ => exact execGetVersion_ev h
  | getCapabilities _ _ => exact execGetCapabilities_ev h
  | negotiateAlgorithms _ _ => exact execNegotiateAlgorithms_ev h
  | getDigests _ _ => exact execGetDigests_ev h
  | getCertificate _ _ => exact execGetCertificate_ev h
  | spdmChallenge _ _ => exact execSpdmChallenge_ev h
  | getMeasurements _ _ => exact execGetMeasurements_ev h
  | keyExchange _ _ => exact execKeyExchange_ev h
  | finish _ _ => exact execFinish_ev h
  | keyUpdate _ _ _ => exact execKeyUpdate_ev h
  | endSession _ _ => exact execEndSession_ev h
  | query _ _ _ => exact execQuery_ev h
  | keyProg _ _ _ _ _ _ => exact execKeyProg_ev h
  | kSetGo _ _ _ _ _ => exact execKSetGo_ev h
  | kSetStop _ _ _ _ _ => exact execKSetStop_ev h
  | idleEntry => exact execIdleEntry_ev h
  | standby _ => exact execStandby_ev h
  | wake _ => exact execWake_ev h
  | vinValid _ => exact execVinValid_ev h
  | resetNLow _ => exact execResetNLow_ev h
  | fwStage _ _ _ => exact execFwStage_ev h
  | challenge _ => exact execChallenge_ev h
  | ship _ _ _ => exact execShip_ev h
  | commission _ _ _ => exact execCommission_ev h
  | ownerList _ _ _ => exact execOwnerList_ev h
  | zeroise _ _ _ => exact execZeroise_ev h
  | smbusSetPointer _ _ => exact execSmbusSetPointer_ev h
  | smbusWrite _ _ _ => exact execSmbusWrite_ev h
  | smbusRead => exact execSmbusRead_ev h
  | alertResponse => exact execAlertResponse_ev h
  | tamperSample _ _ => exact execTamperSample_ev h
  | loadFlood => exact execLoadFlood_ev h
  | portHashComplete _ => exact execPortHashComplete_ev h
  | brownoutDeassert => exact execBrownoutDeassert_ev h
  | physicalFunctionBusMasterEnable _ _ => exact execPhysicalFunctionBusMasterEnable_ev h
  | perstRelease _ => exact execPerstRelease_ev h

theorem evolves_of_exec {c : Instr} {s t : State} (h : exec c s = .next t) : Evolves s t :=
  (exec_evolves c s).found t (congrArg inOut h)

/-! ### Every step -/

theorem step_of_pending_cons {c : Instr} {rest : List Instr} {s : State} (h : s.pending = c :: rest) :
    step s = exec c { s with pending := rest } := by
  rw [step, h]

theorem step_of_pending_nil {s : State} (h : s.pending = []) : step s = .next (idleStep s) := by
  rw [step, h]

/-- A step evolves the state it starts from, the command at the front taken off the queue. -/
theorem evolves_of_step {s t : State} (h : step s = .next t) : ∃ rest, Evolves { s with pending := rest } t := by
  cases hq : s.pending with
  | nil =>
    rw [step_of_pending_nil hq, Host.Outcome.next.injEq] at h
    exact ⟨s.pending, h ▸ idleStep_ev (Evolves.refl s)⟩
  | cons c rest =>
    rw [step_of_pending_cons hq] at h
    exact ⟨rest, evolves_of_exec h⟩

theorem Legal.evolves {s t : State} (hs : Legal s) (h : Evolves s t) : Legal t :=
  ⟨h.gate hs.gate, h.pointer hs.pointer, h.tables hs.tables⟩

theorem Legal.withPending {s : State} (h : Legal s) (q : List Instr) : Legal { s with pending := q } :=
  ⟨h.gate, h.pointer, ⟨h.tables.regs, h.tables.units, h.tables.rings, h.tables.jobs, h.tables.intakes, h.tables.msix,
    h.tables.events, h.tables.evtSel, h.tables.evtRes, h.tables.sails, h.tables.lanes, h.tables.cores, h.tables.ports⟩⟩

/-- Settles O1: the step on a queue that is not empty. -/
theorem stepRunsFrontCommand : Obligations.StepRunsFrontCommand := fun _ _ _ h => step_of_pending_cons h

/-- Settles O3: every command answers, and `Evolves` keeps the queue. -/
theorem everyCommandAnswersAndKeepsQueue : Obligations.EveryCommandAnswersAndKeepsQueue := by
  intro c s
  obtain ⟨t, ht⟩ := exec_answers c s
  exact ⟨t, ht, (evolves_of_exec ht).queue⟩

/-- Settles O4: every table of the state after reset is empty or listed in order, and the debug gate is closed. -/
theorem resetIsLegal : Obligations.ResetIsLegal :=
  ⟨⟨by decide, by decide, by decide⟩, by decide, ⟨rfl, rfl, rfl, rfl, rfl, rfl, rfl, rfl, rfl, rfl, rfl, rfl, rfl⟩⟩

/-- Settles O5: a step evolves the state, the queue left out, and `Legal` does not speak of the queue. -/
theorem everyStepKeepsLegal : Obligations.EveryStepKeepsLegal := by
  intro s t hs h
  obtain ⟨rest, hrest⟩ := evolves_of_step h
  exact (hs.withPending rest).evolves hrest

/-- Settles O6: a step evolves the state, and `Evolves` keeps burned bits. -/
theorem burnedOtpBitStaysBurned : Obligations.BurnedOtpBitStaysBurned := by
  intro s t h
  obtain ⟨rest, hrest⟩ := evolves_of_step h
  exact hrest.burned

/-! ### The clock of a moored device (R329) -/

/-- The mooring RTC `n` cycles of the crystal later, in closed form. -/
def rtcAfter (m : Mooring) (n : Nat) : Mooring :=
  { m with
    rtc := (m.rtc + (m.rtcFrac + 32768 * n) / 25000000) % 2 ^ 48
    rtcFrac := (m.rtcFrac + 32768 * n) % 25000000 }

theorem rtcAfter_zero {m : Mooring} (hfrac : m.rtcFrac < 25000000) (hrtc : m.rtc < 2 ^ 48) : rtcAfter m 0 = m := by
  have hq : m.rtcFrac / 25000000 = 0 := by omega
  have hr : m.rtcFrac % 25000000 = m.rtcFrac := by omega
  simp only [rtcAfter, Nat.mul_zero, Nat.add_zero, hq, hr, Nat.mod_eq_of_lt hrtc]

theorem rtcTick_frac_lt {m : Mooring} (hfrac : m.rtcFrac < 25000000) : (rtcTick m).rtcFrac < 25000000 := by
  unfold rtcTick
  extract_lets f
  split
  · show m.rtcFrac + 32768 - 25000000 < 25000000
    omega
  · exact Nat.lt_of_not_le ‹_›

theorem rtcTick_rtc_lt {m : Mooring} (hrtc : m.rtc < 2 ^ 48) : (rtcTick m).rtc < 2 ^ 48 := by
  unfold rtcTick
  extract_lets f
  split
  · exact Nat.mod_lt _ (by decide)
  · exact hrtc

theorem rtcAfter_rtcTick {m : Mooring} (hfrac : m.rtcFrac < 25000000) (n : Nat) :
    rtcAfter (rtcTick m) n = rtcAfter m (n + 1) := by
  unfold rtcTick
  extract_lets f
  split
  · have hq : (m.rtcFrac + 32768 * (n + 1)) / 25000000 = (f - 25000000 + 32768 * n) / 25000000 + 1 := by omega
    have hr : (m.rtcFrac + 32768 * (n + 1)) % 25000000 = (f - 25000000 + 32768 * n) % 25000000 := by omega
    have hsum : ∀ q, ((m.rtc + 1) % 2 ^ 48 + q) % 2 ^ 48 = (m.rtc + (q + 1)) % 2 ^ 48 := by omega
    simp only [rtcAfter, hq, hr, hsum]
  · have hf : f + 32768 * n = m.rtcFrac + 32768 * (n + 1) := by omega
    simp only [rtcAfter, hf]

theorem tick_mooring (s : State) : (tick s).mooring = rtcTick s.mooring := by simp only [tick]

theorem step_of_moored_idle {s : State} (hqueue : s.pending = []) (hmoored : s.power.state = .moored)
    (hrun : s.tag.run = none) (hwait : s.tag.waiting = []) : step s = .next (tick s) := by
  have happend : appendStep (tick s) = tick s := by
    have hrun' : (tick s).tag.run = none := hrun
    have hwait' : (tick s).tag.waiting = [] := hwait
    simp only [appendStep, takeAppend, hrun', hwait']
  have hmoored' : (tick s).power.state = .moored := hmoored
  rw [step_of_pending_nil hqueue, idleStep, happend, if_pos hmoored']

theorem run_succ_of_step {M : Host.Core} {s t : M.State} (h : M.step s = .next t) (n : Nat) :
    M.run (n + 1) s = M.run n t := by
  rw [Host.Core.run, h]

/-- By induction on the number of steps: each is a tick, and ticks add up in `rtcAfter`. -/
theorem run_of_moored_idle (n : Nat) {s : State} (hqueue : s.pending = []) (hmoored : s.power.state = .moored)
    (hrun : s.tag.run = none) (hwait : s.tag.waiting = []) (hfrac : s.mooring.rtcFrac < 25000000)
    (hrtc : s.mooring.rtc < 2 ^ 48) :
    Sys2Proof.core.run n s = .next { s with cycles := s.cycles + n, mooring := rtcAfter s.mooring n } := by
  induction n generalizing s with
  | zero =>
    rw [rtcAfter_zero hfrac hrtc]
    rfl
  | succ n ih =>
    have hrest := ih (s := tick s) hqueue hmoored hrun hwait
      (by rw [tick_mooring]; exact rtcTick_frac_lt hfrac) (by rw [tick_mooring]; exact rtcTick_rtc_lt hrtc)
    have hcycles : s.cycles + 1 + n = s.cycles + (n + 1) := by omega
    rw [run_succ_of_step (M := Sys2Proof.core) (step_of_moored_idle hqueue hmoored hrun hwait), hrest]
    simp only [tick, rtcAfter_rtcTick hfrac, hcycles]

/-- Settles O2: `rtcAfter` is the clock of the statement. -/
theorem mooredClockCounts : Obligations.MooredClockCounts :=
  fun n _ hqueue hmoored hrun hwait hfrac hrtc => run_of_moored_idle n hqueue hmoored hrun hwait hfrac hrtc

end Sys2Proof.Machine

/-! PROOF. The local memory of a core (R294 of 05, R568): what a store of bytes leaves to be read, byte by byte and granule by
granule. -/

namespace Sys2Proof.Machine

open Sys2Proof.Laws.Memory (putBytes_wf)

/-! ### A store in the table of bytes -/

theorem tget_putBytes_outside (bs : Bytes) (m : Tab Byte) (off : Nat) {a : Nat} (h : a < off ∨ off + bs.length ≤ a) :
    tget 0 (putBytes m off bs) a = tget 0 m a := by
  induction bs generalizing m off with
  | nil => rfl
  | cons b bs ih =>
    rw [List.length_cons] at h
    rw [putBytes, ih _ _ (by omega), tget_tset_ne _ _ _ _ (by omega)]

theorem tget_putBytes_inside (bs : Bytes) {m : Tab Byte} (hm : Memory.wf m = true) (off : Nat) {i : Nat} (h : i < bs.length) :
    tget 0 (putBytes m off bs) (off + i) = bs[i] := by
  induction bs generalizing m off i with
  | nil => exact absurd h (Nat.not_lt_zero i)
  | cons b bs ih =>
    have hm' : Memory.wf (tset 0 m off b) = true := tset_wf (d := fun _ => (0 : Byte)) hm off b
    cases i with
    | zero => rw [putBytes, tget_putBytes_outside _ _ _ (by omega)]; exact tget_tset_same (d := fun _ => (0 : Byte)) hm off b
    | succ i =>
      rw [putBytes, ← Nat.add_assoc, Nat.add_right_comm, ih hm' _ (Nat.lt_of_succ_lt_succ h)]
      rfl

/-! ### The tags of the granules that a store touches -/

/-- Clearing granules one after the other, each of them reads clear. -/
theorem tget_foldl_tset_false {t : Tab Bool} (ht : Tab.wf (fun _ => false) t = true) (k : Nat) (l : List Nat) {g : Nat}
    (h : tget false t g = false ∨ ∃ i ∈ l, k + i = g) :
    tget false (l.foldl (fun t i => tset false t (k + i) false) t) g = false := by
  induction l generalizing t with
  | nil =>
    obtain h | ⟨i, hi, -⟩ := h
    · exact h
    · exact absurd hi List.not_mem_nil
  | cons j l ih =>
    have ht' : Tab.wf (fun _ => false) (tset false t (k + j) false) = true := tset_wf (d := fun _ => false) ht _ _
    refine ih ht' ?_
    by_cases hj : k + j = g
    · exact .inl (hj ▸ tget_tset_same (d := fun _ => false) ht _ _)
    · rw [tget_tset_ne _ _ _ _ (Ne.symm hj)]
      obtain h | ⟨i, hi, hg⟩ := h
      · exact .inl h
      · obtain rfl | hi := List.mem_cons.mp hi
        · exact absurd hg hj
        · exact .inr ⟨i, hi, hg⟩

theorem tget_clearTags {t : Tab Bool} (ht : Tab.wf (fun _ => false) t = true) {off n i : Nat} (h : i < n) :
    tget false (clearTags t off n) ((off + i) / 16) = false := by
  rw [clearTags, if_neg (by omega)]
  refine tget_foldl_tset_false ht _ _ (.inr ⟨(off + i) / 16 - off / 16, List.mem_range.mpr ?_, ?_⟩)
  · have hgranule : (off + i) / 16 ≤ (off + n - 1) / 16 := Nat.div_le_div_right (by omega)
    omega
  · have hgranule : off / 16 ≤ (off + i) / 16 := Nat.div_le_div_right (by omega)
    omega

/-! ### A store in the state -/

section
variable {s : State} {p : Nat}

theorem coreAt_memPut (hs : TablesCanonical s) (a : Nat) (bs : Bytes) :
    coreAt (memPut s p a bs) p =
      { coreAt s p with mem := putBytes (coreAt s p).mem a bs, tags := clearTags (coreAt s p).tags a bs.length } :=
  coreAt_putCore hs p _

theorem coreAt_memPut_ne (a : Nat) (bs : Bytes) {q : Nat} (h : q ≠ p) : coreAt (memPut s p a bs) q = coreAt s q :=
  coreAt_putCore_ne _ _ h

theorem memGet_one (q b : Nat) : memGet s q b 1 = [tget 0 (coreAt s q).mem b] := rfl

theorem memGet_memPut_same (hs : TablesCanonical s) (hm : Memory.wf (coreAt s p).mem = true) (a : Nat) (bs : Bytes) :
    memGet (memPut s p a bs) p a bs.length = bs := by
  refine List.ext_getElem (by simp [memGet]) fun i _ hi => ?_
  simp only [memGet, List.getElem_map, List.getElem_range, coreAt_memPut hs]
  exact tget_putBytes_inside bs hm a hi

end

/-- Settles O41: a store is `putBytes` and `clearTags` on one core, and each reads as its rule says. -/
theorem localMemoryReadAfterWrite : Obligations.LocalMemoryReadAfterWrite := by
  intro p a bs s hs hm
  refine ⟨memGet_memPut_same hs.tables hm a bs, fun b hb => ?_, fun q b n hq => ?_, fun ht i hi => ?_, ?_⟩
  · rw [memGet_one, memGet_one, coreAt_memPut hs.tables, tget_putBytes_outside bs _ a hb]
  · rw [memGet, coreAt_memPut_ne a bs hq]
    rfl
  · rw [memTag, coreAt_memPut hs.tables]
    exact tget_clearTags ht hi
  · rw [coreAt_memPut hs.tables]
    exact putBytes_wf hm a bs

end Sys2Proof.Machine

/-! PROOF. The flash (19_flash.md): write cycles and the sequences that they make up, reads of the window, and the end of
operations. -/

namespace Sys2Proof.Machine

/-! ### The commands -/

section
variable (acc : Acc) (s : State)

theorem exec_flWinDataRead (ecc : Nat) : exec (.flWinDataRead acc ecc) s = .next (flashRead s acc ecc) := rfl

theorem exec_programGranule (a : Nat) (w0 w1 w2 w3 : Word32) : exec (.programGranule acc a w0 w1 w2 w3) s =
    .next (fwCycles acc s fun s => writeWords (unlockAnd s (unlockBase a) 0x40) a [w0, w1, w2, w3]) := rfl

theorem exec_bufferedProgram (a : Nat) (data : Bytes) : exec (.bufferedProgram acc a data) s =
    .next (fwCycles acc s fun s => writeWords (writeCycle (unlockAnd s (unlockBase a) 0x41) a (w32 (data.length / 16 - 1))) a
      (dataWords data)) := rfl

theorem exec_sectorErase (a : Nat) : exec (.sectorErase acc a) s =
    .next (fwCycles acc s fun s => writeCycle (unlockAnd s (unlockBase a) 0x62) a 0x26) := rfl

theorem exec_eraseSuspend (b : Nat) : exec (.eraseSuspend acc b) s =
    .next (fwCycles acc s fun s => writeCycle s (bankBase b) 0x6B) := rfl

theorem exec_eraseSuspended (b : Nat) : exec (.eraseSuspended b) s = .next (suspendNow s b) := rfl

theorem exec_eraseResume (b : Nat) : exec (.eraseResume acc b) s =
    .next (fwCycles acc s fun s => writeCycle s (bankBase b) 0x6C) := rfl

theorem exec_readStatus (b : Nat) : exec (.readStatus acc b) s =
    .next (fwCycles acc s fun s => unlockAnd s (bankBase b) 0x90) := rfl

theorem exec_returnToReadArray (b : Nat) : exec (.returnToReadArray acc b) s =
    .next (fwCycles acc s fun s => writeCycle s (bankBase b) 0xF0) := rfl

theorem exec_flashOperationEnd (b good : Nat) : exec (.flashOperationEnd b good) s = .next (operationEnd s b good) := rfl

theorem exec_brownout : exec .brownout s = .next (brownoutAssert s) := rfl

theorem exec_brownoutDeassert : exec .brownoutDeassert s = .next { s with flash := { s.flash with brownout := false } } := rfl

theorem exec_storeCompaction : exec .storeCompaction s = .next (compactStore s) := rfl

theorem fwCycles_of_reaches {s : State} (h : reaches s .fw0 0x007 = true) (f : State → State) : fwCycles .fw0 s f = f s :=
  if_pos ⟨rfl, h⟩

theorem fwCycles_dropped {acc : Acc} {s : State} (h : acc ≠ .fw0 ∨ reaches s acc 0x007 = false) (f : State → State) :
    fwCycles acc s f = s := by
  refine if_neg fun ⟨hacc, hreach⟩ => ?_
  obtain h | h := h
  · exact h hacc
  · exact Bool.false_ne_true (h.symm.trans hreach)

end

/-! ### The map (R761) -/

theorem bankOf_lt {a b : Nat} (h : bankOf a = some b) : b < 2 := by
  unfold bankOf at h
  split at h
  · cases h; decide
  · split at h
    · cases h; decide
    · cases h

theorem bankOf_base_add {b o : Nat} (hb : b < 2) (ho : o < 0x1000000) : bankOf (0x1000000 * b + o) = some b := by
  unfold bankOf
  split
  · rw [Option.some.injEq]; omega
  · rw [if_pos (by omega), Option.some.injEq]; omega

/-- A page of 256 bytes lies in one bank. -/
theorem bankOf_add {a b d : Nat} (h : bankOf a = some b) (hd : a % 256 + d < 256) : bankOf (a + d) = some b := by
  unfold bankOf at h ⊢
  split at h
  · rwa [if_pos (by omega)]
  · split at h
    · rwa [if_neg (by omega), if_pos (by omega)]
    · cases h

theorem unlockBase_of_bankOf {a b : Nat} (h : bankOf a = some b) : unlockBase a = 0x1000000 * b := by
  have hb := bankOf_lt h
  rw [unlockBase, h]
  split
  · rename_i h1; cases h1; rfl
  · rename_i h1
    have h0 : b = 0 := by
      have hne : b ≠ 1 := fun e => h1 (e ▸ rfl)
      omega
    rw [h0]

theorem bankBase_of_lt {b : Nat} (hb : b < 2) : bankBase b = 0x1000000 * b := by
  rw [bankBase, Nat.mod_eq_of_lt hb]

/-! ### Banks -/

theorem tput_tput {α : Type} (t : Tab α) (k : Nat) (v w : α) : tput (tput t k v) k w = tput t k w := by
  induction t with
  | nil => simp [tput]
  | cons e t ih =>
    simp only [tput]
    split
    · simp [tput]
    · split
      · simp [tput]
      · rename_i hne hlt
        simp [tput, hne, hlt, ih]

section
variable {s : State} {b : Nat} {x y : Bank}

theorem bankAt_putBank (h : x ≠ {}) : bankAt (putBank s b x) b = x := tget_tset_new _ _ _ h _

theorem bankAt_putBank_ne {k : Nat} (h : k ≠ b) : bankAt (putBank s b x) k = bankAt s k := tget_tset_ne _ _ _ _ h

theorem putBank_putBank (hx : x ≠ {}) (hy : y ≠ {}) : putBank (putBank s b x) b y = putBank s b y := by
  have htab : tset {} (tset {} s.flash.banks b x) b y = tset {} s.flash.banks b y := by
    rw [tset, if_neg hy, tset, if_neg hx, tset, if_neg hy, tput_tput]
  simp only [putBank, htab]

@[simp] theorem putBank_flashData : (putBank s b x).flash.data = s.flash.data := rfl
@[simp] theorem putBank_brownout : (putBank s b x).flash.brownout = s.flash.brownout := rfl
@[simp] theorem flashProtected_putBank (a : Nat) (erase : Bool) :
    flashProtected (putBank s b x) a erase = flashProtected s a erase := rfl
@[simp] theorem granuleErased_putBank (a : Nat) : granuleErased (putBank s b x) a = granuleErased s a := rfl

theorem bank_ne_of_cycles (h : x.cycles ≠ []) : x ≠ {} := fun e => h (e ▸ rfl)
theorem bank_ne_of_run (h : x.run ≠ none) : x ≠ {} := fun e => h (e ▸ rfl)
theorem bank_ne_of_result (h : x.result ≠ 0) : x ≠ {} := fun e => h (e ▸ rfl)
theorem bank_ne_of_statusMode (h : x.statusMode = true) : x ≠ {} := fun e => by rw [e] at h; cases h

end

/-! ### Write cycles (R771, R773) -/

section
variable {s : State} {b : Nat}

/-- Bank `b` with these write cycles in hand. -/
def withCycles (s : State) (b : Nat) (cs : List (Nat × Word32)) : State := putBank s b { bankAt s b with cycles := cs }

theorem withCycles_self_cycles {cs : List (Nat × Word32)} (h : cs ≠ []) :
    bankAt (withCycles s b cs) b = { bankAt s b with cycles := cs } := bankAt_putBank (bank_ne_of_cycles h)

theorem putBank_withCycles {cs : List (Nat × Word32)} (h : cs ≠ []) {y : Bank} (hy : y ≠ {}) :
    putBank (withCycles s b cs) b y = putBank s b y := putBank_putBank (bank_ne_of_cycles h) hy

theorem withCycles_withCycles {cs ds : List (Nat × Word32)} (h : cs ≠ []) (hd : ds ≠ []) :
    putBank (withCycles s b cs) b { bankAt (withCycles s b cs) b with cycles := ds } = withCycles s b ds := by
  rw [withCycles_self_cycles h, putBank_withCycles h (bank_ne_of_cycles hd)]
  rfl

/-- A cycle to a bank that is not BUSY. -/
theorem writeCycle_of_idle {a : Nat} (ha : bankOf a = some b) (hrun : (bankAt s b).run = none) (d : Word32) :
    writeCycle s a d = idleCycle s b a d := by
  simp only [writeCycle, ha, hrun]

/-- A cycle of a sequence in progress. -/
theorem writeCycle_withCycles {a : Nat} (ha : bankOf a = some b) (hrun : (bankAt s b).run = none)
    {cs : List (Nat × Word32)} (h : cs ≠ []) (d : Word32) :
    writeCycle (withCycles s b cs) a d = idleCycle (withCycles s b cs) b a d :=
  writeCycle_of_idle ha (by rw [withCycles_self_cycles h]; exact hrun) d

/-- A cycle to a bank whose erase runs. -/
theorem writeCycle_of_busy {a : Nat} {r : FlashRun} (ha : bankOf a = some b) (hrun : (bankAt s b).run = some r)
    (herase : r.op = 3) : writeCycle s a 0x6B = putBank s b { bankAt s b with suspendAsked := true } := by
  simp only [writeCycle, ha, hrun, herase, and_self, if_true]

/-- The first two cycles of a sequence with unlock cycles. -/
def unlocked (b : Nat) : List (Nat × Word32) := [(0x1000000 * b + 0x5C4, 0xC5), (0x1000000 * b + 0xC48, 0x5C)]

theorem unlockAnd_eq (hb : b < 2) (hrun : (bankAt s b).run = none) (hcycles : (bankAt s b).cycles = []) (code : Word32) :
    unlockAnd s (0x1000000 * b) code = idleCycle (withCycles s b (unlocked b)) b (0x1000000 * b + 0x5C4) code := by
  have h1 : bankOf (0x1000000 * b + 0x5C4) = some b := bankOf_base_add hb (by decide)
  have h2 : bankOf (0x1000000 * b + 0xC48) = some b := bankOf_base_add hb (by decide)
  have first : writeCycle s (0x1000000 * b + 0x5C4) 0xC5 = withCycles s b [(0x1000000 * b + 0x5C4, 0xC5)] := by
    rw [writeCycle_of_idle h1 hrun]
    simp [idleCycle, hcycles, withCycles]
  have second : writeCycle (withCycles s b [(0x1000000 * b + 0x5C4, 0xC5)]) (0x1000000 * b + 0xC48) 0x5C =
      withCycles s b (unlocked b) := by
    rw [writeCycle_withCycles h2 hrun (by simp)]
    simp only [idleCycle, withCycles_self_cycles (List.cons_ne_nil _ _)]
    simp [withCycles, putBank_putBank, bank_ne_of_cycles, unlocked]
  rw [unlockAnd, first, second, writeCycle_withCycles h1 hrun (by simp [unlocked])]

/-- The cycle after the unlock cycles, by its data. -/
theorem idleCycle_unlocked (code : Word32) :
    idleCycle (withCycles s b (unlocked b)) b (0x1000000 * b + 0x5C4) code =
      if code = 0x90 then putBank s b { bankAt s b with cycles := [], statusMode := true }
      else if code = 0x40 ∨ code = 0x41 ∨ code = 0x62 then
        if code = 0x62 ∧ (bankAt s b).suspended.isSome then flashFail (withCycles s b (unlocked b)) b 3
        else if s.flash.fetch = b then flashFail (withCycles s b (unlocked b)) b 1
        else withCycles s b (unlocked b ++ [(0x1000000 * b + 0x5C4, code)])
      else flashFail (withCycles s b (unlocked b)) b 3 := by
  have hne : unlocked b ≠ [] := List.cons_ne_nil _ _
  have hoff : ¬ 0x1000000 * b + 0x5C4 - 0x1000000 * b ≠ 0x5C4 := by omega
  have hbank := withCycles_self_cycles (s := s) (b := b) hne
  have hstatus : putBank (withCycles s b (unlocked b)) b { bankAt s b with cycles := [], statusMode := true } =
      putBank s b { bankAt s b with cycles := [], statusMode := true } :=
    putBank_withCycles hne (bank_ne_of_statusMode rfl)
  have hnext : putBank (withCycles s b (unlocked b)) b
      { bankAt s b with cycles := unlocked b ++ [(0x1000000 * b + 0x5C4, code)] } =
      withCycles s b (unlocked b ++ [(0x1000000 * b + 0x5C4, code)]) :=
    putBank_withCycles hne (bank_ne_of_cycles (by simp))
  rw [idleCycle, hbank]
  simp only [hstatus, hnext, if_neg hoff]
  rfl

/-- Code 0x90: status mode. -/
theorem unlockAnd_readStatus (hb : b < 2) (hrun : (bankAt s b).run = none) (hcycles : (bankAt s b).cycles = []) :
    unlockAnd s (0x1000000 * b) 0x90 = putBank s b { bankAt s b with statusMode := true } := by
  rw [unlockAnd_eq hb hrun hcycles, idleCycle_unlocked, if_pos rfl, ← hcycles]

/-- The cycles of a sequence with its code. -/
def coded (b : Nat) (code : Word32) : List (Nat × Word32) := unlocked b ++ [(0x1000000 * b + 0x5C4, code)]

/-- A program's or an erase's code, on a bank that is not fetched from. -/
theorem unlockAnd_code (hb : b < 2) (hrun : (bankAt s b).run = none) (hcycles : (bankAt s b).cycles = [])
    (hfetch : s.flash.fetch ≠ b) {code : Word32}
    (hcode : code = 0x40 ∨ code = 0x41 ∨ code = 0x62 ∧ (bankAt s b).suspended = none) :
    unlockAnd s (0x1000000 * b) code = withCycles s b (coded b code) := by
  have hread : code ≠ 0x90 := by rcases hcode with rfl | rfl | ⟨rfl, -⟩ <;> decide
  have hlisted : code = 0x40 ∨ code = 0x41 ∨ code = 0x62 := hcode.imp id (Or.imp id And.left)
  have hfree : ¬(code = 0x62 ∧ (bankAt s b).suspended.isSome = true) := by
    rcases hcode with rfl | rfl | ⟨rfl, h⟩
    · exact fun h => absurd h.1 (by decide)
    · exact fun h => absurd h.1 (by decide)
    · rw [h]
      exact fun h => Bool.false_ne_true h.2
  rw [unlockAnd_eq hb hrun hcycles, idleCycle_unlocked, if_neg hread, if_pos hlisted, if_neg hfree, if_neg hfetch, coded]

end

/-! ### Programs (R771, R773) -/

/-- The cycles that write words from address `a` on. -/
def wordCycles (a : Nat) (ws : List Word32) : List (Nat × Word32) :=
  ((List.range ws.length).zip ws).map fun e => (a + 4 * e.1, e.2)

theorem zip_range_concat (ws : List Word32) (d : Word32) :
    (List.range (ws ++ [d]).length).zip (ws ++ [d]) = (List.range ws.length).zip ws ++ [(ws.length, d)] := by
  rw [List.length_append, List.length_singleton, List.range_succ, List.zip_append (by simp)]
  rfl

theorem wordCycles_concat (a : Nat) (ws : List Word32) (d : Word32) :
    wordCycles a (ws ++ [d]) = wordCycles a ws ++ [(a + 4 * ws.length, d)] := by
  rw [wordCycles, zip_range_concat, List.map_append]
  rfl

theorem wordCycles_data (a : Nat) (ws : List Word32) : (wordCycles a ws).map (·.2) = ws := by
  induction ws using List.reverseRecOn with
  | nil => rfl
  | append_singleton ws d ih => rw [wordCycles_concat, List.map_append, ih]; rfl

theorem writeWords_concat (s : State) (a : Nat) (ws : List Word32) (d : Word32) :
    writeWords s a (ws ++ [d]) = writeCycle (writeWords s a ws) (a + 4 * ws.length) d := by
  rw [writeWords, zip_range_concat, List.foldl_append]
  rfl

section
variable {s : State} {b a : Nat}

/-- After the cycles `hdr`, the words of program `op` follow: `n` of them, from address `a`. -/
def TakesWords (s : State) (b a : Nat) (hdr : List (Nat × Word32)) (op n : Nat) : Prop :=
  ∀ ws d, idleCycle (withCycles s b (hdr ++ wordCycles a ws)) b (a + 4 * ws.length) d =
    programCycle (withCycles s b (hdr ++ wordCycles a ws)) b op n a (a + 4 * ws.length) ws d

theorem takesWords_programGranule (s : State) (b a : Nat) : TakesWords s b a (coded b 0x40) 1 4 := by
  intro ws d
  have hbank := withCycles_self_cycles (s := s) (b := b) (cs := coded b 0x40 ++ wordCycles a ws) (by simp [coded])
  have hfirst : (match wordCycles a ws with
      | (x, _) :: _ => x
      | [] => a + 4 * ws.length) = a := by
    cases ws with
    | nil => rfl
    | cons w ws => simp [wordCycles, List.range_succ_eq_map]
  rw [idleCycle, hbank]
  simp only [coded, unlocked, List.cons_append, List.nil_append]
  rw [if_neg (by decide), if_pos trivial, wordCycles_data]
  exact congrArg (fun x => programCycle _ b 1 4 x _ ws d) hfirst

theorem takesWords_bufferedProgram (s : State) (b a : Nat) (n : Word32) :
    TakesWords s b a (coded b 0x41 ++ [(a, n)]) 2 (4 * (n.toNat + 1)) := by
  intro ws d
  have hbank := withCycles_self_cycles (s := s) (b := b) (cs := coded b 0x41 ++ [(a, n)] ++ wordCycles a ws) (by simp [coded])
  rw [idleCycle, hbank]
  simp only [coded, unlocked, List.cons_append, List.nil_append]
  rw [if_neg (by decide), if_neg (by decide), wordCycles_data]

/-- The words before the last are kept. -/
theorem writeWords_kept {hdr : List (Nat × Word32)} {op n : Nat} (hhdr : hdr ≠ []) (htakes : TakesWords s b a hdr op n)
    (hmap : ∀ i, i < n → bankOf (a + 4 * i) = some b) (hrun : (bankAt s b).run = none) {ws : List Word32} (h : ws.length < n) :
    writeWords (withCycles s b hdr) a ws = withCycles s b (hdr ++ wordCycles a ws) := by
  induction ws using List.reverseRecOn with
  | nil => simp [writeWords, wordCycles]
  | append_singleton ws d ih =>
    rw [List.length_append, List.length_singleton] at h
    have hne : hdr ++ wordCycles a ws ≠ [] := by simp [hhdr]
    rw [writeWords_concat, ih (by omega), writeCycle_withCycles (hmap _ (by omega)) hrun hne, htakes, programCycle,
      if_neg (by simp)]
    simp only [List.length_append, List.length_singleton]
    rw [if_neg (by omega), withCycles_self_cycles hne, putBank_withCycles hne (bank_ne_of_cycles (by simp)),
      wordCycles_concat, ← List.append_assoc]
    rfl

/-- The last word starts the checks. -/
theorem writeWords_full {hdr : List (Nat × Word32)} {op n : Nat} (hhdr : hdr ≠ []) (htakes : TakesWords s b a hdr op n)
    (hmap : ∀ i, i < n → bankOf (a + 4 * i) = some b) (hrun : (bankAt s b).run = none) {ws : List Word32} {d : Word32}
    (h : ws.length + 1 = n) : writeWords (withCycles s b hdr) a (ws ++ [d]) =
      programGo (withCycles s b (hdr ++ wordCycles a ws)) b op a (ws ++ [d]) := by
  have hne : hdr ++ wordCycles a ws ≠ [] := by simp [hhdr]
  rw [writeWords_concat, writeWords_kept hhdr htakes hmap hrun (by omega), writeCycle_withCycles (hmap _ (by omega)) hrun hne,
    htakes, programCycle, if_neg (by simp)]
  simp only [List.length_append, List.length_singleton]
  rw [if_pos h]

theorem flashStart_withCycles {cs : List (Nat × Word32)} (h : cs ≠ []) (r : FlashRun) :
    flashStart (withCycles s b cs) b r = flashStart s b r := by
  rw [flashStart, withCycles_self_cycles h]
  exact putBank_withCycles h (bank_ne_of_run (by simp))

theorem flashFail_withCycles {cs : List (Nat × Word32)} (h : cs ≠ []) {r : Nat} (hr : r ≠ 0) :
    flashFail (withCycles s b cs) b r = flashFail s b r := by
  rw [flashFail, withCycles_self_cycles h]
  exact putBank_withCycles h (bank_ne_of_result hr)

/-- What a program's address has to meet before its granules are looked at (R773). -/
structure Programmable (s : State) (b a op n : Nat) : Prop where
  power : s.flash.brownout = false
  unprotected : flashProtected s a false = false
  aligned : ¬(a % 16 ≠ 0 ∨ (op = 2 ∧ 256 < a % 256 + 16 * n))
  notSuspended : (bankAt s b).suspended ≠ some (sectorOf a)

theorem programGo_withCycles {cs : List (Nat × Word32)} (hcs : cs ≠ []) {op : Nat} {ws : List Word32}
    (h : Programmable s b a op (ws.length / 4)) :
    programGo (withCycles s b cs) b op a ws =
      if (List.range (ws.length / 4)).any fun i => !granuleErased s (a + 16 * i) then flashFail s b 6
      else flashStart s b { op := op, granules := granulesOf a ws } := by
  have hsusp : ¬(bankAt (withCycles s b cs) b).suspended = some (sectorOf a) := by
    rw [withCycles_self_cycles hcs]
    exact h.notSuspended
  have hpower : ¬(withCycles s b cs).flash.brownout = true := by
    rw [show (withCycles s b cs).flash.brownout = s.flash.brownout from rfl, h.power]
    decide
  have hprot : ¬flashProtected (withCycles s b cs) a false = true := by
    rw [show flashProtected (withCycles s b cs) a false = flashProtected s a false from rfl, h.unprotected]
    decide
  rw [programGo]
  simp only [if_neg hpower, if_neg hprot, if_neg h.aligned, if_neg hsusp, flashStart_withCycles hcs,
    flashFail_withCycles hcs (show 6 ≠ 0 by decide)]
  rfl

/-- A bank that ring 0 firmware can begin a sequence on, at an address of its own. -/
structure Ready (s : State) (b a : Nat) : Prop where
  reached : reaches s .fw0 0x007 = true
  bank : bankOf a = some b
  fresh : (bankAt s b).cycles = []
  idle : (bankAt s b).run = none
  notFetched : s.flash.fetch ≠ b

theorem Ready.unlock (h : Ready s b a) {code : Word32}
    (hcode : code = 0x40 ∨ code = 0x41 ∨ code = 0x62 ∧ (bankAt s b).suspended = none) :
    unlockAnd s (unlockBase a) code = withCycles s b (coded b code) := by
  rw [unlockBase_of_bankOf h.bank]
  exact unlockAnd_code (bankOf_lt h.bank) h.idle h.fresh h.notFetched hcode

/-- PROGRAM_GRANULE on an address that may be programmed. -/
theorem exec_programGranule_of_ready (h : Ready s b a) (hprog : Programmable s b a 1 1) (w0 w1 w2 w3 : Word32) :
    exec (.programGranule .fw0 a w0 w1 w2 w3) s = .next (if granuleErased s a then
      flashStart s b { op := 1, granules := granulesOf a [w0, w1, w2, w3] } else flashFail s b 6) := by
  have halign := hprog.aligned
  have hfull := writeWords_full (ws := [w0, w1, w2]) (d := w3) (by simp [coded]) (takesWords_programGranule s b a)
    (fun i hi => bankOf_add h.bank (by omega)) h.idle rfl
  rw [exec_programGranule, fwCycles_of_reaches h.reached, h.unlock (.inl rfl)]
  have hone : [w0, w1, w2, w3].length / 4 = 1 := by simp
  simp only [List.cons_append, List.nil_append] at hfull
  rw [hfull, programGo_withCycles (by simp [coded]) (by rwa [hone]), hone]
  cases he : granuleErased s a <;> simp [he]

/-- BUFFERED_PROGRAM of `n` granules on an address that may be programmed. -/
theorem exec_bufferedProgram_of_ready (h : Ready s b a) {data : Bytes} {n : Nat} (hn : 1 ≤ n) (hn16 : n ≤ 16)
    (hlen : data.length = 16 * n) (hprog : Programmable s b a 2 n)
    (herased : ∀ i, i < n → granuleErased s (a + 16 * i) = true) :
    exec (.bufferedProgram .fw0 a data) s =
      .next (flashStart s b { op := 2, granules := granulesOf a (dataWords data) }) := by
  have halign := hprog.aligned
  have hwords : (dataWords data).length = 4 * n := by simp only [dataWords, List.length_map, List.length_range, hlen]; omega
  have hcount : (w32 (data.length / 16 - 1)).toNat = n - 1 := by
    simp only [w32, BitVec.toNat_ofNat, hlen]
    omega
  have hwrite : writeCycle (withCycles s b (coded b 0x41)) a (w32 (data.length / 16 - 1)) =
      withCycles s b (coded b 0x41 ++ [(a, w32 (data.length / 16 - 1))]) := by
    have hne : coded b 0x41 ≠ [] := by simp [coded]
    rw [writeCycle_withCycles h.bank h.idle hne, idleCycle, withCycles_self_cycles hne]
    simp only [coded, unlocked, List.cons_append, List.nil_append]
    rw [if_neg (by decide), if_neg (by decide), if_pos (by rw [hcount]; omega)]
    exact putBank_withCycles (List.cons_ne_nil _ _) (bank_ne_of_cycles (List.cons_ne_nil _ _))
  have htakes := takesWords_bufferedProgram s b a (w32 (data.length / 16 - 1))
  rw [hcount, Nat.sub_add_cancel hn] at htakes
  obtain ⟨init, last, hsplit⟩ : ∃ init last, dataWords data = init ++ [last] :=
    ⟨_, _, (List.dropLast_concat_getLast (List.ne_nil_of_length_pos (by omega : 0 < (dataWords data).length))).symm⟩
  have hinit : init.length + 1 = 4 * n := by rw [← hwords, hsplit, List.length_append, List.length_singleton]
  have hquarter : (init ++ [last]).length / 4 = n := by rw [← hsplit, hwords]; omega
  rw [exec_bufferedProgram, fwCycles_of_reaches h.reached, h.unlock (.inr (.inl rfl)), hwrite, hsplit,
    writeWords_full (by simp) htakes (fun i hi => bankOf_add h.bank (by omega)) h.idle hinit,
    programGo_withCycles (by simp) (by rwa [hquarter]), hquarter, if_neg]
  simp only [List.any_eq_true, List.mem_range, not_exists, not_and, Bool.not_eq_true', Bool.not_eq_false]
  exact herased

/-- SECTOR_ERASE of a sector that may be erased. -/
theorem exec_sectorErase_of_ready (h : Ready s b a) (hpower : s.flash.brownout = false)
    (hprot : flashProtected s a true = false) (hbase : a = sectorBase b (sectorOf a)) (hsusp : (bankAt s b).suspended = none) :
    exec (.sectorErase .fw0 a) s = .next (flashStart s b { op := 3, sector := sectorOf a }) := by
  have hne : coded b 0x62 ≠ [] := by simp [coded]
  have hpower' : ¬(withCycles s b (coded b 0x62)).flash.brownout = true := by
    rw [show (withCycles s b (coded b 0x62)).flash.brownout = s.flash.brownout from rfl, hpower]
    decide
  have hprot' : ¬flashProtected (withCycles s b (coded b 0x62)) a true = true := by
    rw [show flashProtected (withCycles s b (coded b 0x62)) a true = flashProtected s a true from rfl, hprot]
    decide
  rw [exec_sectorErase, fwCycles_of_reaches h.reached, h.unlock (.inr (.inr ⟨rfl, hsusp⟩)), writeCycle_withCycles h.bank h.idle hne,
    idleCycle, withCycles_self_cycles hne]
  simp only [coded, unlocked, List.cons_append, List.nil_append]
  rw [if_pos trivial, if_pos trivial, ← flashStart_withCycles hne, eraseGo]
  rw [coded, unlocked] at hpower' hprot'
  exact congrArg _ ((if_neg hpower').trans ((if_neg hprot').trans (if_neg (not_not_intro hbase))))

/-! ### An operation that started, or failed a check -/

theorem bankAt_flashStart (r : FlashRun) : bankAt (flashStart s b r) b = { bankAt s b with
    cycles := [], run := some r, op := r.op, suspendAsked := false
    resumedAt := if r.op = 3 then none else (bankAt s b).resumedAt } := bankAt_putBank (bank_ne_of_run (by simp))

theorem bankAt_flashStart_ne (r : FlashRun) {k : Nat} (hk : k ≠ b) : bankAt (flashStart s b r) k = bankAt s k :=
  bankAt_putBank_ne hk

theorem bankAt_flashFail {r : Nat} (hr : r ≠ 0) : bankAt (flashFail s b r) b =
    { bankAt s b with cycles := [], result := r, statusMode := false } := bankAt_putBank (bank_ne_of_result hr)

end

/-! ### Commands without unlock cycles (R777) -/

section
variable {s : State} {b : Nat}

theorem bankOf_bankBase (hb : b < 2) : bankOf (bankBase b) = some b := by
  rw [bankBase_of_lt hb]
  exact bankOf_base_add (o := 0) hb (by decide)

theorem exec_eraseSuspend_of_erasing (hreach : reaches s .fw0 0x007 = true) (hb : b < 2) {r : FlashRun}
    (hrun : (bankAt s b).run = some r) (herase : r.op = 3) :
    exec (.eraseSuspend .fw0 b) s = .next (putBank s b { bankAt s b with suspendAsked := true }) := by
  rw [exec_eraseSuspend, fwCycles_of_reaches hreach, writeCycle_of_busy (bankOf_bankBase hb) hrun herase]

/-- A cycle that begins no sequence with unlock cycles, to a bank that is not BUSY. -/
theorem writeCycle_bankBase (hb : b < 2) (hrun : (bankAt s b).run = none) (hcycles : (bankAt s b).cycles = []) {d : Word32}
    (hd : d ≠ 0xC5) : writeCycle s (bankBase b) d =
      if d = 0x6B then s
      else if d = 0x6C then
        match (bankAt s b).suspended with
        | none => s
        | some k =>
          if s.flash.brownout then flashFail s b 8
          else putBank s b { bankAt s b with
            suspended := none, run := some { op := 3, sector := k }, op := 3, resumedAt := some s.cycles, suspendAsked := false }
      else if d = 0xF0 then putBank s b { bankAt s b with statusMode := false }
      else flashFail s b 3 := by
  rw [writeCycle_of_idle (bankOf_bankBase hb) hrun]
  simp only [idleCycle, hcycles, hd, false_and, if_false] <;> rfl

theorem exec_eraseSuspend_of_idle (hreach : reaches s .fw0 0x007 = true) (hb : b < 2) (hrun : (bankAt s b).run = none)
    (hcycles : (bankAt s b).cycles = []) : exec (.eraseSuspend .fw0 b) s = .next s := by
  rw [exec_eraseSuspend, fwCycles_of_reaches hreach, writeCycle_bankBase hb hrun hcycles (by decide), if_pos rfl]

theorem exec_eraseResume_of_suspended (hreach : reaches s .fw0 0x007 = true) (hb : b < 2) (hrun : (bankAt s b).run = none)
    (hcycles : (bankAt s b).cycles = []) {k : Nat} (hsusp : (bankAt s b).suspended = some k) (hpower : s.flash.brownout = false) :
    exec (.eraseResume .fw0 b) s = .next (putBank s b { bankAt s b with
      suspended := none, run := some { op := 3, sector := k }, op := 3, resumedAt := some s.cycles, suspendAsked := false }) := by
  rw [exec_eraseResume, fwCycles_of_reaches hreach, writeCycle_bankBase hb hrun hcycles (by decide), if_neg (by decide),
    if_pos rfl, hsusp]
  simp only [hpower, Bool.false_eq_true, if_false]

theorem exec_readStatus_of_idle (hreach : reaches s .fw0 0x007 = true) (hb : b < 2) (hrun : (bankAt s b).run = none)
    (hcycles : (bankAt s b).cycles = []) :
    exec (.readStatus .fw0 b) s = .next (putBank s b { bankAt s b with statusMode := true }) := by
  rw [exec_readStatus, fwCycles_of_reaches hreach, bankBase_of_lt hb, unlockAnd_readStatus hb hrun hcycles]

theorem exec_returnToReadArray_of_idle (hreach : reaches s .fw0 0x007 = true) (hb : b < 2) (hrun : (bankAt s b).run = none)
    (hcycles : (bankAt s b).cycles = []) :
    exec (.returnToReadArray .fw0 b) s = .next (putBank s b { bankAt s b with statusMode := false }) := by
  rw [exec_returnToReadArray, fwCycles_of_reaches hreach, writeCycle_bankBase hb hrun hcycles (by decide), if_neg (by decide),
    if_neg (by decide), if_pos rfl]

/-! ### The window (R766 to R770, R778) -/

section
variable {acc : Acc} {a ecc : Nat}

/-- A read that fires no tamper source. -/
theorem flashRead_of_winRead {t : State} (hreach : reaches s acc 0x007 = true) (h : winRead s acc ecc = (t, false)) :
    flashRead s acc ecc = t := by
  have hreach' : ¬(!reaches s acc flashPage) = true := by rw [flashPage, hreach]; decide
  rw [flashRead, if_neg hreach', h]
  rfl

theorem winRead_unmapped (ha : a = winAddr s (accIdx acc) % 2 ^ 26) (hbank : bankOf a = none) (hcal : isCalRow a = false) :
    winRead s acc ecc = (emit s (.readError acc), false) := by
  simp only [winRead, ← ha, hbank, hcal]
  rfl

theorem winRead_suspended (ha : a = winAddr s (accIdx acc) % 2 ^ 26) (hbank : bankOf a = some b)
    (hsusp : (bankAt s b).suspended = some (sectorOf a)) : winRead s acc ecc = (emit s (.readError acc), false) := by
  simp only [winRead, ← ha, hbank, Option.getD_some, hsusp, bankOf_lt hbank]
  rfl

theorem winRead_status (ha : a = winAddr s (accIdx acc) % 2 ^ 26) (hbank : bankOf a = some b)
    (hsusp : (bankAt s b).suspended ≠ some (sectorOf a)) (hbusy : (bankAt s b).run ≠ none ∨ (bankAt s b).statusMode = true) :
    winRead s acc ecc = (winAdvance (emit s (.readValue acc (bankStatus s b))) (accIdx acc), false) := by
  have hbusy' : (bankAt s b).run.isSome = true ∨ (bankAt s b).statusMode = true := hbusy.imp Option.isSome_iff_ne_none.mpr id
  simp only [winRead, ← ha, hbank, Option.getD_some, hsusp, bankOf_lt hbank, hbusy', and_false, and_self, if_false, if_true]
  rfl

theorem winRead_array (ha : a = winAddr s (accIdx acc) % 2 ^ 26) (hbank : bankOf a = some b)
    (hsusp : (bankAt s b).suspended ≠ some (sectorOf a)) (hrun : (bankAt s b).run = none)
    (hmode : (bankAt s b).statusMode = false) :
    winRead s acc 0 = (winAdvance (emit s (.readValue acc (arrayWord s a))) (accIdx acc), false) := by
  simp only [winRead, ← ha, hbank, Option.getD_some, hsusp, hrun, hmode, Option.isSome_none, Option.isSome_some,
    Bool.true_or, Bool.not_true, Bool.false_eq_true, or_self, and_false, if_false]
  rfl

end

/-! ### Ends of operations and compaction (R775, R776, R779, R782, R792) -/

theorem suspendNow_of_asked {r : FlashRun} (hrun : (bankAt s b).run = some r) (herase : r.op = 3)
    (hasked : (bankAt s b).suspendAsked = true) (hresumed : (bankAt s b).resumedAt = none) :
    suspendNow s b = putBank s b { bankAt s b with run := none, suspended := some r.sector, suspendAsked := false } := by
  simp [suspendNow, hrun, herase, hasked, hresumed]

theorem suspendNow_of_early {r : FlashRun} {at_ : Nat} (hrun : (bankAt s b).run = some r)
    (hresumed : (bankAt s b).resumedAt = some at_) (hearly : s.cycles < at_ + usCycles 200) : suspendNow s b = s := by
  simp [suspendNow, hrun, hresumed, hearly]

theorem suspendNow_of_idle (hrun : (bankAt s b).run = none) : suspendNow s b = s := by
  simp only [suspendNow, hrun]

theorem operationEnd_of_idle (hrun : (bankAt s b).run = none) (good : Nat) : operationEnd s b good = s := by
  simp only [operationEnd, hrun]

theorem sat_eq_min (m v : Nat) : sat m v = min m v := by
  unfold sat
  split <;> omega

theorem brownoutBank_of_idle (hrun : (bankAt s b).run = none) : brownoutBank s b = s := by
  simp only [brownoutBank, hrun]

theorem eraseSector_store {k : Nat} (h : 72 ≤ k) : ∀ e ∈ (eraseSector s 0 k).flash.store, e.2.sector ≠ k - 72 := by
  have hlow : ¬k = 0 ∧ ¬k = 1 ∧ ¬k = 4 ∧ ¬k = 2 ∧ ¬k = 5 := by omega
  obtain ⟨h0, h1, h4, h2, h5⟩ := hlow
  intro e he
  simp only [eraseSector, ne_eq, not_true, if_false, h0, h1, h4, h2, h5, false_and, or_self, h, if_true, List.mem_filter,
    decide_eq_true_eq] at he
  exact he.2

theorem eraseSector_jobs_otp (k : Nat) : (eraseSector s b k).jobs = s.jobs ∧ (eraseSector s b k).otp = s.otp := by
  unfold eraseSector
  extract_lets lo hi f f' s'
  have hs : s'.jobs = s.jobs ∧ s'.otp = s.otp := ⟨rfl, rfl⟩
  repeat' split
  all_goals exact hs

theorem compactStore_of_none (h : s.flash.epoch = none ∨ 3 ≤ freeSectors s.flash ∨ s.flash.tail = s.flash.head) :
    compactStore s = s := by
  have h' : s.flash.epoch.isNone = true ∨ 3 ≤ freeSectors s.flash ∨ s.flash.tail = s.flash.head :=
    h.imp Option.isNone_iff_eq_none.mpr id
  rw [compactStore, if_pos h']

/-- Whatever the copies of the tail's items are, the tail is erased behind them. -/
theorem compactStore_of_low (hepoch : s.flash.epoch ≠ none) (hfree : freeSectors s.flash < 3)
    (htail : s.flash.tail ≠ s.flash.head) : ∃ f : Flash, ∃ u, u = eraseSector { s with flash := f } 0 (72 + s.flash.tail) ∧
      compactStore s = { u with flash := { u.flash with tail := nextSector u.flash s.flash.tail, erasing := none } } := by
  have hlow : ¬(s.flash.epoch.isNone = true ∨ 3 ≤ freeSectors s.flash ∨ s.flash.tail = s.flash.head) := by
    rw [Option.isNone_iff_eq_none, not_or, not_or]
    exact ⟨hepoch, Nat.not_le.mpr hfree, htail⟩
  rw [compactStore, if_neg hlow]
  exact ⟨_, _, rfl, rfl⟩

end

/-- Settles O54, clause by clause from the lemmas above. -/
theorem flashCommands : Obligations.FlashCommands := by
  intro acc addr b x s hx
  subst hx
  refine ⟨?_, ?_, ?_, ?_, ?_, ?_, ?_, ?_, ?_, ?_, ?_, ?_, ?_, ?_, ?_, ?_, ?_, ?_, ?_, ?_⟩
  · intro a hreach ha hbank hsusp
    refine ⟨fun hrun hmode => ?_, fun hbusy ecc => ?_⟩
    · rw [exec_flWinDataRead, flashRead_of_winRead hreach (winRead_array ha hbank hsusp hrun hmode)]
    · rw [exec_flWinDataRead, flashRead_of_winRead hreach (winRead_status ha hbank hsusp hbusy)]
  · rintro a ecc hreach ha (⟨hbank, hcal⟩ | ⟨hbank, hsusp⟩)
    · rw [exec_flWinDataRead, flashRead_of_winRead hreach (winRead_unmapped ha hbank hcal)]
    · rw [exec_flWinDataRead, flashRead_of_winRead hreach (winRead_suspended ha hbank hsusp)]
  · intro ecc hreach
    rw [exec_flWinDataRead, flashRead, flashPage, hreach]
    rfl
  · intro w0 w1 w2 w3 data c hc hdrop
    simp only [List.mem_cons, List.not_mem_nil, or_false] at hc
    rcases hc with rfl | rfl | rfl | rfl | rfl | rfl | rfl <;> exact congrArg _ (fwCycles_dropped hdrop _)
  · intro hreach hbank hfresh hidle hpower hprot halign hfetch hsusp
    have hready : Ready s b addr := ⟨hreach, hbank, hfresh, hidle, hfetch⟩
    have hone : Programmable s b addr 1 1 := ⟨hpower, hprot, by omega, hsusp⟩
    refine ⟨fun w0 w1 w2 w3 herased => ?_, fun data n hn hn16 hlen hfit herased => ?_, fun w0 w1 w2 w3 herased => ?_⟩
    · refine ⟨_, exec_programGranule_of_ready hready hone w0 w1 w2 w3, ?_⟩
      rw [if_pos herased, bankAt_flashStart]
      exact ⟨rfl, rfl, fun k hk => bankAt_flashStart_ne _ hk, rfl, rfl⟩
    · refine ⟨_, exec_bufferedProgram_of_ready hready hn hn16 hlen ⟨hpower, hprot, by omega, hsusp⟩ herased, ?_⟩
      rw [bankAt_flashStart]
      exact ⟨rfl, rfl, fun k hk => bankAt_flashStart_ne _ hk, rfl, rfl⟩
    · refine ⟨_, exec_programGranule_of_ready hready hone w0 w1 w2 w3, ?_⟩
      rw [herased, if_neg Bool.false_ne_true, bankAt_flashFail (by decide)]
      exact ⟨hidle, rfl, rfl⟩
  · intro hreach hbank hfresh hidle hpower hprot hbase hfetch hsusp
    refine ⟨_, exec_sectorErase_of_ready ⟨hreach, hbank, hfresh, hidle, hfetch⟩ hpower hprot hbase hsusp, ?_⟩
    rw [bankAt_flashStart]
    exact ⟨rfl, rfl, fun k hk => bankAt_flashStart_ne _ hk, rfl, rfl⟩
  · exact fun hreach hb r hrun herase => exec_eraseSuspend_of_erasing hreach hb hrun herase
  · exact fun hreach hb hrun hcycles => exec_eraseSuspend_of_idle hreach hb hrun hcycles
  · exact fun r hrun herase hasked hresumed => congrArg _ (suspendNow_of_asked hrun herase hasked hresumed)
  · exact fun r at_ hrun hresumed hearly => congrArg _ (suspendNow_of_early hrun hresumed hearly)
  · exact fun hrun => congrArg _ (suspendNow_of_idle hrun)
  · exact fun k hreach hb hrun hcycles hsusp hpower => exec_eraseResume_of_suspended hreach hb hrun hcycles hsusp hpower
  · intro hreach hb hrun hcycles
    exact ⟨⟨_, exec_readStatus_of_idle hreach hb hrun hcycles, bankAt_putBank (bank_ne_of_statusMode rfl),
      fun k hk => bankAt_putBank_ne hk, rfl⟩, exec_returnToReadArray_of_idle hreach hb hrun hcycles⟩
  · intro r hrun
    rw [exec_flashOperationEnd]
    refine ⟨fun herase good hgood => ?_, fun hprog good hgood => ?_, fun herase => ?_⟩
    · simp only [exec_flashOperationEnd, operationEnd, hrun, herase, if_true, if_pos hgood]
    · simp only [exec_flashOperationEnd, operationEnd, hrun, hprog, if_false, if_pos hgood]
    · simp [operationEnd, hrun, herase]
  · exact fun good hrun => congrArg _ (operationEnd_of_idle hrun good)
  · intro hpower h0 h1
    refine ⟨_, exec_brownout s, ?_⟩
    rw [brownoutAssert, if_neg (by rw [hpower]; decide)]
    extract_lets _ u
    rw [brownoutBank_of_idle (s := u) h0, brownoutBank_of_idle (s := u) h1, setEvent_flash, setEvent_jobs, ← sat_eq_min]
    exact ⟨rfl, rfl⟩
  · intro hpower
    rw [exec_brownout, brownoutAssert, if_pos hpower]
  · exact exec_brownoutDeassert s
  · intro hepoch hfree htail
    obtain ⟨f, u, hu, hcompact⟩ := compactStore_of_low hepoch hfree htail
    obtain ⟨hjobs, hotp⟩ := eraseSector_jobs_otp (s := { s with flash := f }) (b := 0) (72 + s.flash.tail)
    refine ⟨_, (exec_storeCompaction s).trans (congrArg _ hcompact), fun k e he => ?_, rfl, hu ▸ hjobs, hu ▸ hotp⟩
    have hsector := eraseSector_store (s := { s with flash := f }) (Nat.le_add_right 72 _) (k, e) (hu ▸ he)
    rwa [Nat.add_sub_cancel_left] at hsector
  · exact fun h => congrArg _ (compactStore_of_none h)

end Sys2Proof.Machine

/-! PROOF. Rings that an intake scans, doorbells, the enable bit of a ring, Bus Master Enable and MSI-X entries
(03_rings.md). -/

namespace Sys2Proof.Machine

/-! ### The commands -/

section
variable (s : State)

theorem exec_ringDoorbell (i r : Nat) : exec (.ringDoorbell i r) s =
    .next (if ringThere s i r && ringActive s (ringKey i r) then wakeRing (wakeIdle s) (ringKey i r) else s) := rfl

theorem exec_ringEnable (i r : Nat) : exec (.ringEnable i r) s =
    .next (if ringThere s i r then enableRingPage s (ringKey i r) else s) := rfl

theorem exec_ringDisable (i r : Nat) : exec (.ringDisable i r) s =
    .next (if ringThere s i r then disableRingPage s (ringKey i r) else s) := rfl

theorem exec_busMasterEnableChange (i : Nat) (on : Bool) : exec (.busMasterEnableChange i on) s =
    .next (if i < 1024 then writeBme s i on else s) := rfl

theorem exec_msixUnmask (f e : Nat) : exec (.msixUnmask f e) s = .next (unmask s f e) := rfl

end

/-! ### Scanning a ring (R53, R54) -/

section
variable {s : State} {k : Nat}

theorem intakeAt_putIntake_new {c : Nat} {x : Intake} (h : x ≠ {}) : intakeAt (putIntake s c x) c = x :=
  tget_tset_new _ _ _ h _

theorem intakeAt_putIntake_ne {c d : Nat} (x : Intake) (h : d ≠ c) : intakeAt (putIntake s c x) d = intakeAt s d :=
  tget_tset_ne _ _ _ _ h

theorem ringAt_putRing_new {r : Ring} (h : r ≠ {}) : ringAt (putRing s k r) k = r := tget_tset_new _ _ _ h _

theorem wakeRing_of_inactive (h : ringActive s k = false) : wakeRing s k = s := by
  rw [wakeRing, h]
  rfl

theorem wakeRing_of_scanned (h : ringActive s k = true) (hscan : (intakeAt s (ringAt s k).intake).scan.contains k = true) :
    wakeRing s k = putRing s k { ringAt s k with rescan := true } := by
  simp only [wakeRing, h, Bool.not_true, Bool.false_eq_true, if_false, hscan, if_true]

theorem wakeRing_of_unscanned (h : ringActive s k = true)
    (hscan : (intakeAt s (ringAt s k).intake).scan.contains k = false) :
    wakeRing s k = putIntake s (ringAt s k).intake { intakeAt s (ringAt s k).intake with
      scan := (intakeAt s (ringAt s k).intake).scan ++ [k], scans := (intakeAt s (ringAt s k).intake).scans + 1 } := by
  simp only [wakeRing, h, Bool.not_true, Bool.false_eq_true, if_false, hscan]

/-- A ring that is to be scanned again is no default ring. -/
theorem rescan_ne (r : Ring) : { r with rescan := true } ≠ ({} : Ring) := fun e =>
  Bool.false_ne_true (congrArg Ring.rescan e).symm

/-- An intake that scans a ring is no default intake. -/
theorem scanning_ne (x : Intake) (l : List Nat) (n : Word32) :
    { x with scan := l ++ [k], scans := n } ≠ ({} : Intake) := fun e =>
  List.append_ne_nil_of_right_ne_nil l (List.cons_ne_nil k []) (congrArg Intake.scan e)

theorem wakeRing_frame (s : State) (k : Nat) :
    wakeRing s k = { s with rings := (wakeRing s k).rings, intakes := (wakeRing s k).intakes } := by
  unfold wakeRing
  extract_lets r t
  split
  · rfl
  · split <;> rfl

/-- Waking a ring changes at most `rescan` of it. -/
theorem ringAt_wakeRing (s : State) (k j : Nat) : ∃ b, ringAt (wakeRing s k) j = { ringAt s j with rescan := b } := by
  cases h : ringActive s k with
  | false => exact ⟨(ringAt s j).rescan, by rw [wakeRing_of_inactive h]⟩
  | true =>
    cases hscan : (intakeAt s (ringAt s k).intake).scan.contains k with
    | false => exact ⟨(ringAt s j).rescan, by rw [wakeRing_of_unscanned h hscan]; rfl⟩
    | true =>
      rw [wakeRing_of_scanned h hscan]
      by_cases hj : j = k
      · exact ⟨true, by rw [hj, ringAt_putRing_new (rescan_ne _)]⟩
      · exact ⟨(ringAt s j).rescan, by rw [ringAt_putRing_ne _ _ hj]⟩

theorem ringActive_wakeRing (s : State) (k j : Nat) : ringActive (wakeRing s k) j = ringActive s j := by
  obtain ⟨b, hb⟩ := ringAt_wakeRing s k j
  rw [wakeRing_frame] at hb ⊢
  simp only [ringActive, hb]
  rfl

theorem ringAt_wakeRing_intake (s : State) (k j : Nat) : (ringAt (wakeRing s k) j).intake = (ringAt s j).intake := by
  obtain ⟨b, hb⟩ := ringAt_wakeRing s k j
  rw [hb]

/-- What an intake scans, it scans after any ring is woken. -/
theorem scan_subset_wakeRing (s : State) (k c : Nat) {j : Nat} (h : j ∈ (intakeAt s c).scan) :
    j ∈ (intakeAt (wakeRing s k) c).scan := by
  cases hact : ringActive s k with
  | false => rwa [wakeRing_of_inactive hact]
  | true =>
    cases hscan : (intakeAt s (ringAt s k).intake).scan.contains k with
    | true => rw [wakeRing_of_scanned hact hscan]; exact h
    | false =>
      rw [wakeRing_of_unscanned hact hscan]
      by_cases hc : c = (ringAt s k).intake
      · subst hc
        rw [intakeAt_putIntake_new (scanning_ne _ _ _)]
        exact List.mem_append_left _ h
      · rwa [intakeAt_putIntake_ne _ hc]

/-- An ACTIVE ring that is woken is scanned. -/
theorem scanned_wakeRing (h : ringActive s k = true) :
    (intakeAt (wakeRing s k) (ringAt (wakeRing s k) k).intake).scan.contains k = true := by
  rw [ringAt_wakeRing_intake]
  cases hscan : (intakeAt s (ringAt s k).intake).scan.contains k with
  | true => rw [wakeRing_of_scanned h hscan]; exact hscan
  | false =>
    rw [wakeRing_of_unscanned h hscan, intakeAt_putIntake_new (scanning_ne _ _ _)]
    simp

/-! ### Waking every ring of a list -/

theorem ringActive_foldl_wakeRing (l : List Nat) (s : State) (j : Nat) :
    ringActive (l.foldl wakeRing s) j = ringActive s j := by
  induction l generalizing s with
  | nil => rfl
  | cons k l ih => rw [List.foldl_cons, ih, ringActive_wakeRing]

theorem ringAt_foldl_wakeRing_intake (l : List Nat) (s : State) (j : Nat) :
    (ringAt (l.foldl wakeRing s) j).intake = (ringAt s j).intake := by
  induction l generalizing s with
  | nil => rfl
  | cons k l ih => rw [List.foldl_cons, ih, ringAt_wakeRing_intake]

theorem scanFrame_trans {s t u : State} (h : t = { s with rings := t.rings, intakes := t.intakes })
    (h' : u = { t with rings := u.rings, intakes := u.intakes }) : u = { s with rings := u.rings, intakes := u.intakes } :=
  calc u = { t with rings := u.rings, intakes := u.intakes } := h'
    _ = { s with rings := u.rings, intakes := u.intakes } := by rw [h]

theorem foldl_wakeRing_frame (l : List Nat) (s : State) : l.foldl wakeRing s =
    { s with rings := (l.foldl wakeRing s).rings, intakes := (l.foldl wakeRing s).intakes } := by
  induction l generalizing s with
  | nil => rfl
  | cons k l ih => exact scanFrame_trans (wakeRing_frame s k) (ih (wakeRing s k))

theorem scan_subset_foldl_wakeRing (l : List Nat) (s : State) (c : Nat) {j : Nat} (h : j ∈ (intakeAt s c).scan) :
    j ∈ (intakeAt (l.foldl wakeRing s) c).scan := by
  induction l generalizing s with
  | nil => exact h
  | cons k l ih => exact ih _ (scan_subset_wakeRing s k c h)

theorem scanned_foldl_wakeRing {l : List Nat} (hk : k ∈ l) (h : ringActive s k = true) :
    k ∈ (intakeAt (l.foldl wakeRing s) (ringAt s k).intake).scan := by
  induction l generalizing s with
  | nil => exact absurd hk List.not_mem_nil
  | cons j l ih =>
    obtain rfl | hk := List.mem_cons.mp hk
    · have hscan := scanned_wakeRing h
      rw [ringAt_wakeRing_intake, List.contains_iff_mem] at hscan
      exact scan_subset_foldl_wakeRing l _ _ hscan
    · have hlater := ih (s := wakeRing s j) hk (by rwa [ringActive_wakeRing])
      rwa [ringAt_wakeRing_intake] at hlater

theorem mem_of_tget_ne {α : Type} {d : α} {t : Tab α} (h : tget d t k ≠ d) : ∃ v, (k, v) ∈ t := by
  induction t with
  | nil => exact absurd rfl h
  | cons e t ih =>
    rw [tget] at h
    split at h
    · rename_i he; exact ⟨e.2, by rw [← he]; exact List.mem_cons_self⟩
    · obtain ⟨v, hv⟩ := ih h
      exact ⟨v, List.mem_cons_of_mem _ hv⟩

/-- A ring that is ACTIVE is listed among its instance's rings. -/
theorem mem_ringsOf_of_active {i : Nat} (hi : k / 16 = i) (h : ringActive s k = true) : k ∈ ringsOf s i := by
  have hne : ringAt s k ≠ {} := fun e => by
    rw [ringActive, e] at h
    exact Bool.false_ne_true h
  obtain ⟨r, hr⟩ := mem_of_tget_ne hne
  exact List.mem_map.mpr ⟨(k, r), List.mem_filter.mpr ⟨hr, decide_eq_true hi⟩, rfl⟩

end

/-! ### Doorbells (R116, R130) -/

theorem unitAt_wakeIdle_instPage (s : State) (i : Nat) : unitAt (wakeIdle s) (instPage i) = unitAt s (instPage i) := by
  unfold wakeIdle
  split
  · rw [unitAt_setEvent_ne _ _ (by rw [instPage]; omega)]
    rfl
  · rfl

theorem unitAt_wakeIdle_port (s : State) (n : Nat) : unitAt (wakeIdle s) (1 + n) = unitAt s (1 + n) := by
  unfold wakeIdle
  split
  · rw [unitAt_setEvent_ne _ _ (by omega)]
    rfl
  · rfl

theorem wakeIdle_rings (s : State) : (wakeIdle s).rings = s.rings := by
  unfold wakeIdle
  split
  · exact setEvent_rings ..
  · rfl

theorem wakeIdle_im (s : State) : (wakeIdle s).im = s.im := by
  unfold wakeIdle
  split
  · exact setEvent_im ..
  · rfl

theorem ringActive_wakeIdle (s : State) (k : Nat) : ringActive (wakeIdle s) k = ringActive s k := by
  have hring : ringAt (wakeIdle s) k = ringAt s k := by rw [ringAt, wakeIdle_rings, ringAt]
  have hinst : ∀ i, instAt (wakeIdle s) i = instAt s i := fun i => by rw [instAt, wakeIdle_im, instAt]
  simp only [ringActive, bmeNow, hring, hinst, unitAt_wakeIdle_instPage, unitAt_wakeIdle_port]

/-- Settles O8: the cases of `wakeRing`, and the doorbell by its two conditions. -/
theorem ringScanAndDoorbell : Obligations.RingScanAndDoorbell := by
  refine ⟨fun k s => ⟨wakeRing_of_inactive, fun h hscan => ?_, fun h hscan => ?_, scanned_wakeRing, wakeRing_frame s k⟩,
    fun i r s => ⟨fun hthere hact => ⟨?_, ?_⟩, fun hclosed => ?_⟩⟩
  · rw [wakeRing_of_unscanned h hscan, intakeAt_putIntake_new (scanning_ne _ _ _)]
    exact ⟨rfl, rfl, fun c hc => intakeAt_putIntake_ne _ hc, rfl⟩
  · rw [wakeRing_of_scanned h hscan, ringAt_putRing_new (rescan_ne _)]
    exact ⟨rfl, fun j hj => ringAt_putRing_ne _ _ hj, rfl⟩
  · rw [exec_ringDoorbell, hthere, hact]
    rfl
  · rw [ringActive_wakeIdle, hact]
  · have hguard : (ringThere s i r && ringActive s (ringKey i r)) = false := by
      rwa [Bool.and_eq_false_iff]
    rw [exec_ringDoorbell, hguard]
    rfl

/-! ### A take that is dropped, a ring that stops (R131, R137) -/

section
variable {s : State} {k : Nat}

theorem ringAt_wakeRing_ne {j : Nat} (hj : j ≠ k) : ringAt (wakeRing s k) j = ringAt s j := by
  unfold wakeRing
  extract_lets r t
  split
  · rfl
  · split
    · exact ringAt_putRing_ne _ _ hj
    · rfl

theorem noteStall_rings (s : State) : (noteStall s).rings = s.rings := by
  unfold noteStall
  extract_lets w
  split
  · rfl
  · exact setEvent_rings ..

theorem noteStall_jobs (s : State) : (noteStall s).jobs = s.jobs := by
  unfold noteStall
  extract_lets w
  split
  · rfl
  · exact setEvent_jobs ..

theorem dropTake_rings (s : State) (k : Nat) : (dropTake s k).rings =
    tset {} s.rings k { ringAt s k with readSoFar := [], waitBallast := false } := by
  unfold dropTake
  extract_lets r s' t
  split
  · exact noteStall_rings _
  · rfl

theorem dropTake_jobs (s : State) (k : Nat) : (dropTake s k).jobs = s.jobs := by
  unfold dropTake
  extract_lets r s' t
  split
  · exact noteStall_jobs _
  · rfl

theorem ringAt_dropTake (hs : TablesCanonical s) (k : Nat) :
    ringAt (dropTake s k) k = { ringAt s k with readSoFar := [], waitBallast := false } := by
  rw [ringAt, dropTake_rings]
  exact tget_tset_same (d := fun _ => ({} : Ring)) hs.rings k _

theorem ringAt_dropTake_ne {j : Nat} (hj : j ≠ k) : ringAt (dropTake s k) j = ringAt s j := by
  rw [ringAt, dropTake_rings]
  exact tget_tset_ne _ _ _ _ hj

theorem TablesCanonical.dropTake (hs : TablesCanonical s) (k : Nat) : TablesCanonical (dropTake s k) :=
  (dropTake_ev (Evolves.refl s)).tables hs

theorem TablesCanonical.putRing (hs : TablesCanonical s) (k : Nat) (r : Ring) : TablesCanonical (putRing s k r) :=
  (putRing_ev (Evolves.refl s)).tables hs

theorem TablesCanonical.putIntake (hs : TablesCanonical s) (c : Nat) (x : Intake) : TablesCanonical (putIntake s c x) :=
  (putIntake_ev (Evolves.refl s)).tables hs

theorem dpEvent_rings (s : State) (i b : Nat) : (dpEvent s i b).rings = s.rings := by
  unfold dpEvent
  extract_lets x ev s'
  split
  · rfl
  · split
    · exact sendMsix_rings ..
    · rfl

theorem dpEvent_jobs (s : State) (i b : Nat) : (dpEvent s i b).jobs = s.jobs := by
  unfold dpEvent
  extract_lets x ev s'
  split
  · rfl
  · split
    · exact sendMsix_jobs ..
    · rfl

theorem ringError_rings (s : State) (k cause index : Nat) : (ringError s k cause index).rings =
    tset {} (dropTake s k).rings k
      { ringAt (dropTake s k) k with error := true, cause := cause, faultIndex := index, rescan := false } := by
  unfold ringError
  rw [dpEvent_rings, sendMsix_rings]
  rfl

theorem ringError_jobs (s : State) (k cause index : Nat) : (ringError s k cause index).jobs = s.jobs := by
  unfold ringError
  rw [dpEvent_jobs, sendMsix_jobs]
  exact dropTake_jobs s k

theorem ringAt_ringError (hs : TablesCanonical s) (cause index : Nat) : ringAt (ringError s k cause index) k =
    { ringAt s k with
      readSoFar := [], waitBallast := false, error := true, cause := cause, faultIndex := index, rescan := false } := by
  rw [ringAt, ringError_rings, ringAt_dropTake hs]
  exact tget_tset_same (d := fun _ => ({} : Ring)) (hs.dropTake k).rings k _

theorem ringAt_ringError_ne {j : Nat} (hj : j ≠ k) (cause index : Nat) :
    ringAt (ringError s k cause index) j = ringAt s j := by
  rw [ringAt, ringError_rings, ← ringAt_dropTake_ne hj]
  exact tget_tset_ne _ _ _ _ hj

/-! ### The enable bit (R129, R131) -/

/-- The ring as RING_STATUS.ENABLE = 1 leaves it, before its configuration is looked at. -/
def enabledRing (r : Ring) : Ring := { r with enable := true, error := false, cause := 0, faultIndex := 0 }

theorem enabledRing_ne (r : Ring) : enabledRing r ≠ {} := fun e => Bool.false_ne_true (congrArg Ring.enable e).symm

theorem enableRingPage_of_enabled (h : (ringAt s k).enable = true) : enableRingPage s k = s := by
  rw [enableRingPage, if_pos h]

theorem enableRingPage_of_good (h : (ringAt s k).enable = false) (hlow : 6 ≤ (ringAt s k).log2)
    (hhigh : (ringAt s k).log2 ≤ 16) (hfit : ringBase (ringAt s k) + 64 * 2 ^ (ringAt s k).log2 ≤ 2 ^ 64) :
    enableRingPage s k = wakeRing (putRing s k (enabledRing (ringAt s k))) k := by
  rw [enableRingPage, if_neg (by rw [h]; exact Bool.false_ne_true)]
  exact if_pos ⟨hlow, hhigh, hfit⟩

theorem enableRingPage_of_bad (h : (ringAt s k).enable = false) (hbad : (ringAt s k).log2 < 6 ∨ 16 < (ringAt s k).log2 ∨
    2 ^ 64 < ringBase (ringAt s k) + 64 * 2 ^ (ringAt s k).log2) :
    enableRingPage s k = ringError (putRing s k (enabledRing (ringAt s k))) k 2 0 := by
  rw [enableRingPage, if_neg (by rw [h]; exact Bool.false_ne_true)]
  refine if_neg fun ⟨hlow, hhigh, hfit⟩ => ?_
  obtain hbad | hbad | hbad := hbad
  · exact Nat.not_le_of_lt hbad hlow
  · exact Nat.not_le_of_lt hbad hhigh
  · exact Nat.not_le_of_lt hbad hfit

theorem disableRingPage_of_disabled (h : (ringAt s k).enable = false) : disableRingPage s k = s := by
  rw [disableRingPage, h]
  rfl

/-- The state in which a ring that is disabled no longer stands in its intake's round. -/
def unscanned (s : State) (k : Nat) : State :=
  putIntake (dropTake s k) (ringAt s k).intake { intakeAt (dropTake s k) (ringAt s k).intake with
    scan := (intakeAt (dropTake s k) (ringAt s k).intake).scan.filter (· ≠ k) }

theorem disableRingPage_of_enabled (hs : TablesCanonical s) (h : (ringAt s k).enable = true) :
    disableRingPage s k = putRing (unscanned s k) k
      { ringAt s k with readSoFar := [], waitBallast := false, enable := false, rescan := false } := by
  rw [disableRingPage, if_neg (by rw [h]; decide)]
  simp only [ringAt_dropTake hs]
  rfl

theorem not_contains_filter_ne (l : List Nat) (k : Nat) : (l.filter (· ≠ k)).contains k = false := by
  simp

end

/-! ### Bus Master Enable (R130, R133) -/

theorem writeBme_off (s : State) (i : Nat) : writeBme s i false = putInst s i { instAt s i with bme := false } := rfl

theorem writeBme_on_again {s : State} {i : Nat} (h : (instAt s i).bme = true) :
    writeBme s i true = putInst s i { instAt s i with bme := true } := by
  rw [writeBme, h]
  rfl

theorem writeBme_on {s : State} {i : Nat} (h : (instAt s i).bme = false) : writeBme s i true =
    (ringsOf s i).foldl wakeRing (putInst s i { instAt s i with bme := true }) := by
  rw [writeBme, h]
  rfl

theorem instAt_putInst_bme (s : State) (i : Nat) :
    instAt (putInst s i { instAt s i with bme := true }) i = { instAt s i with bme := true } :=
  tget_tset_new _ _ _ (fun e => Bool.false_ne_true (congrArg Inst.bme e).symm) _

theorem instAt_putInst_ne (s : State) {i m : Nat} (x : Inst) (h : m ≠ i) : instAt (putInst s i x) m = instAt s m :=
  tget_tset_ne _ _ _ _ h

theorem instAt_foldl_wakeRing (l : List Nat) (s : State) (m : Nat) : instAt (l.foldl wakeRing s) m = instAt s m := by
  rw [foldl_wakeRing_frame]
  rfl

/-- Settles O10: the ring's enable bit by the cases of its configuration, Bus Master Enable by the fold of `wakeRing`, and the
MSI-X entry by its pending bit. -/
theorem ringEnableBusMasterAndMsix : Obligations.RingEnableBusMasterAndMsix := by
  refine ⟨fun i r s hs hthere => ?_, fun i s hi => ⟨?_, ?_⟩, fun f e s hmasked => ⟨fun hpend => ?_, fun hpend => ?_⟩⟩
  · have hexecOn : exec (.ringEnable i r) s = .next (enableRingPage s (ringKey i r)) := by
      rw [exec_ringEnable, if_pos hthere]
    have hexecOff : exec (.ringDisable i r) s = .next (disableRingPage s (ringKey i r)) := by
      rw [exec_ringDisable, if_pos hthere]
    generalize ringKey i r = k at *
    have hring : ringAt (putRing s k (enabledRing (ringAt s k))) k = enabledRing (ringAt s k) :=
      ringAt_putRing_new (enabledRing_ne _)
    refine ⟨fun h hlow hhigh hfit => ?_, fun h hbad => ?_, fun h => ?_, fun h => ?_, fun h => ?_⟩
    · obtain ⟨b, hb⟩ := ringAt_wakeRing (putRing s k (enabledRing (ringAt s k))) k k
      refine ⟨_, hexecOn.trans (congrArg _ (enableRingPage_of_good h hlow hhigh hfit)), ?_⟩
      rw [hb, hring]
      exact ⟨rfl, rfl, rfl, rfl, scanFrame_trans (t := putRing s k (enabledRing (ringAt s k))) rfl (wakeRing_frame _ _),
        fun j hj => (ringAt_wakeRing_ne hj).trans (ringAt_putRing_ne _ _ hj)⟩
    · refine ⟨_, hexecOn.trans (congrArg _ (enableRingPage_of_bad h hbad)), ?_⟩
      rw [ringAt_ringError (hs.tables.putRing _ _), hring]
      exact ⟨rfl, rfl, rfl, fun j hj => (ringAt_ringError_ne hj _ _).trans (ringAt_putRing_ne _ _ hj)⟩
    · refine ⟨_, hexecOff.trans (congrArg _ (disableRingPage_of_enabled hs.tables h)), ?_⟩
      rw [ringAt_putRing (s := unscanned s k) ((hs.tables.dropTake k).putIntake _ _)]
      refine ⟨rfl, ?_, dropTake_jobs s k, fun j hj => (ringAt_putRing_ne _ _ hj).trans (ringAt_dropTake_ne hj)⟩
      show (intakeAt (unscanned s k) _).scan.contains k = false
      rw [unscanned, intakeAt_putIntake (hs.tables.dropTake k)]
      exact not_contains_filter_ne _ k
    · exact hexecOn.trans (congrArg _ (enableRingPage_of_enabled h))
    · exact hexecOff.trans (congrArg _ (disableRingPage_of_disabled h))
  · rw [exec_busMasterEnableChange, if_pos hi, writeBme_off]
  · refine ⟨_, (exec_busMasterEnableChange s i true).trans (congrArg _ (if_pos hi)), ?_⟩
    cases hbme : (instAt s i).bme with
    | true =>
      rw [writeBme_on_again hbme]
      exact ⟨instAt_putInst_bme s i, fun m hm => instAt_putInst_ne s _ hm, rfl, fun h => absurd h (by decide)⟩
    | false =>
      rw [writeBme_on hbme, instAt_foldl_wakeRing]
      refine ⟨instAt_putInst_bme s i, fun m hm => ?_, ?_, fun _ k hk hact => ?_⟩
      · rw [instAt_foldl_wakeRing, instAt_putInst_ne s _ hm]
      · conv => lhs; rw [foldl_wakeRing_frame]
        rw [foldl_wakeRing_frame]
        rfl
      · rw [ringActive_foldl_wakeRing] at hact
        rw [ringAt_foldl_wakeRing_intake, List.contains_iff_mem]
        exact scanned_foldl_wakeRing (mem_ringsOf_of_active (s := putInst s i { instAt s i with bme := true }) hk hact) hact
  · simp only [exec_msixUnmask, unmask, hmasked, hpend]
    rfl
  · simp only [exec_msixUnmask, unmask, hmasked, hpend]
    rfl

end Sys2Proof.Machine

/-! PROOF. Jobs: what a change of one job leaves as it was, how a result becomes final (R163, R164, R183), the take of an entry
(R137, R145 to R149) and the waiting intake (R48). -/

namespace Sys2Proof.Machine

/-! ### One job changes -/

section
variable {s : State} {n : Nat} {j : Job}

theorem modJob_frame (s : State) (n : Nat) (f : Job → Job) : modJob s n f = { s with jobs := (modJob s n f).jobs } := by
  unfold modJob
  split <;> rfl

theorem onlyJob_modJob (h : jobAt s n = some j) (f : Job → Job) : OnlyJob s (modJob s n f) n (f j) where
  job := by rw [jobAt_modJob, h]; rfl
  others := fun m hm => jobAt_modJob_ne s f hm
  frame := modJob_frame s n f

/-- Two changes that agree on the job agree. -/
theorem modJob_congr (h : jobAt s n = some j) {f g : Job → Job} (hfg : f j = g j) : modJob s n f = modJob s n g := by
  simp only [modJob, h, hfg]

/-- Settles O23: the branches of `finishJob`, and `failJob` by whether the job is decided. -/
theorem jobResultBecomesFinal : Obligations.JobResultBecomesFinal := by
  intro s n j h
  refine ⟨fun r hdone hfit => ?_, fun r hdone hlong => ?_, fun r hstatus => ?_, fun st hopen => ?_, fun st hclosed => ?_⟩
  · rw [finishJob, if_neg (not_not_intro hdone), if_neg (Nat.not_lt.mpr hfit)]
    exact onlyJob_modJob h _
  · rw [finishJob, if_neg (not_not_intro hdone), if_pos hlong]
    exact onlyJob_modJob h _
  · rw [finishJob, if_pos hstatus]
    exact onlyJob_modJob h _
  · have hjob := onlyJob_modJob h fun j => if undecided j then
      { j with phase := .final, status := st, result := [], out := j.out.take j.streamed, outLen := 0, waitRand := false }
      else j
    rwa [if_pos hopen] at hjob
  · have hjob := onlyJob_modJob h fun j => if undecided j then
      { j with phase := .final, status := st, result := [], out := j.out.take j.streamed, outLen := 0, waitRand := false }
      else j
    rwa [if_neg (by rw [hclosed]; exact Bool.false_ne_true)] at hjob

end

/-! ### Step 4 begins (R158, R185) -/

theorem exec_orderedRelease (n : Nat) (s : State) : exec (.orderedRelease n) s = .next (releaseFirst s n) := rfl

section
variable {s : State} {n : Nat} {j : Job}

theorem releaseFirst_of_taken (h : jobAt s n = some j) (hphase : j.phase = .taken) (hfirst : j.first = n) :
    releaseFirst s n = if eOrdered j.entry && earlierWaits s n j then s else beginStep4 s n := by
  simp only [releaseFirst, h, hphase, hfirst, ne_eq, not_true, or_self, if_false]

theorem beginStep4_of_own (h : jobAt s n = some j) (horigin : j.origin = none) :
    beginStep4 s n =
      if badEntry j.entry then failJob s n 0x1003
      else if entryStatus j.entry ≠ 0 then failJob s n (entryStatus j.entry)
      else modJob s n fun k => { k with phase :=
        (if blobCount j.entry ≠ 0 then Phase.readHead 0 else if eInLen j.entry ≠ 0 then .readInput else .handoff) } := by
  simp only [beginStep4, h, horigin, Option.isSome_none, Bool.false_eq_true, if_false]

/-- `j'` is the job taken as `j`: the same entry of the same ring, with the same buffers. -/
structure SameTake (j j' : Job) : Prop where
  entry : j'.entry = j.entry
  inst : j'.inst = j.inst
  ring : j'.ring = j.ring
  index : j'.index = j.index
  gen : j'.gen = j.gen
  bufs : j'.bufs = j.bufs

theorem sameTake_failed (j : Job) (st : Nat) : SameTake j (if undecided j then
    { j with phase := .final, status := st, result := [], out := j.out.take j.streamed, outLen := 0, waitRand := false }
    else j) := by
  split <;> exact ⟨rfl, rfl, rfl, rfl, rfl, rfl⟩

theorem onlyJob_failJob (h : jobAt s n = some j) (st : Nat) : ∃ j', OnlyJob s (failJob s n st) n j' ∧ SameTake j j' :=
  ⟨_, onlyJob_modJob h _, sameTake_failed j st⟩

/-- Releasing an entry that this device took decides the job's phase and status, and nothing else. -/
theorem onlyJob_releaseFirst (h : jobAt s n = some j) (horigin : j.origin = none) :
    ∃ j', OnlyJob s (releaseFirst s n) n j' ∧ SameTake j j' := by
  have hself : OnlyJob s s n j ∧ SameTake j j := ⟨⟨h, fun _ _ => rfl, rfl⟩, ⟨rfl, rfl, rfl, rfl, rfl, rfl⟩⟩
  unfold releaseFirst
  simp only [h]
  split
  · exact ⟨j, hself⟩
  · split
    · exact ⟨j, hself⟩
    · rw [beginStep4_of_own h horigin]
      split
      · exact onlyJob_failJob h _
      · split
        · exact onlyJob_failJob h _
        · exact ⟨_, onlyJob_modJob h _, ⟨rfl, rfl, rfl, rfl, rfl, rfl⟩⟩

end

/-! ### Taking one entry -/

section
variable {s : State} {c k : Nat} {e : Bytes}

/-- The job of a single entry that is taken and executed. -/
def takenJob (s : State) (k : Nat) (e : Bytes) : Job :=
  { inst := k / 16, ring := k % 16, index := (ringAt s k).head % 2 ^ (ringAt s k).log2, gen := (instAt s (k / 16)).gen
    first := s.nextSerial, members := 1, entry := e, bufs := pickBufs s (bufNeed e), status := 0, phase := .taken }

/-- The state in which the entry has been taken and waits for its release. -/
def takenState (s : State) (c k : Nat) (e : Bytes) : State :=
  { s with
    jobs := tput s.jobs s.nextSerial (takenJob s k e), nextSerial := s.nextSerial + 1
    ballast := { s.ballast with acquired := s.ballast.acquired + 1 }
    rings := tset {} s.rings k { ringAt s k with
      head := ((ringAt s k).head + 1) % 2 ^ (ringAt s k).log2, readSoFar := [], waitBallast := false }
    intakes := tset {} s.intakes c { intakeAt s c with
      scan := (intakeAt s c).scan.filter (· ≠ k) ++ [k], waitBallast := false, quotaSkip := false
      taken := (intakeAt s c).taken + 1 } }

theorem bufNeed_pos (e : Bytes) : 0 < bufNeed e := by
  unfold bufNeed
  split <;> decide

theorem pickBufs_length_le (s : State) (n : Nat) : (pickBufs s n).length ≤ n := List.length_take_le ..

theorem chainStatus_single (hfirst : eFirst e = true) (hlast : eLast e = true) : chainStatus [e] = 0 := by
  simp [chainStatus, hfirst, hlast]

theorem takeNeed_single (hfirst : eFirst e = true) (hlast : eLast e = true) (hgood : badEntry e = false) :
    takeNeed [e] = bufNeed e := by
  simp [takeNeed, chainStatus_single hfirst hlast, hgood]

theorem take_pickBufs (s : State) (e : Bytes) : (pickBufs s (bufNeed e)).take
    (if 0 ≠ 0 ∨ (pickBufs s (bufNeed e)).isEmpty = true then 0 else bufNeed e) = pickBufs s (bufNeed e) := by
  split
  · rename_i h
    have hnil : pickBufs s (bufNeed e) = [] := List.isEmpty_iff.mp (h.resolve_left (fun h => h rfl))
    rw [hnil]
    rfl
  · exact List.take_of_length_le (pickBufs_length_le _ _)

theorem takeNow_single (hfirst : eFirst e = true) (hlast : eLast e = true) (hgood : badEntry e = false) :
    takeNow s c k [e] 0 = releaseFirst (takenState s c k e) s.nextSerial := by
  have hneed := takeNeed_single hfirst hlast hgood
  have hpos : ¬ bufNeed e = 0 := Nat.ne_of_gt (bufNeed_pos e)
  simp only [takeNow, hneed, takeJobs, take_pickBufs, if_true, List.foldl_cons, List.foldl_nil,
    if_neg hpos, List.length_singleton, Nat.add_zero]
  rfl

theorem jobAt_takenState (s : State) (c k : Nat) (e : Bytes) :
    jobAt (takenState s c k e) s.nextSerial = some (takenJob s k e) := tfind_tput_same _ _ _

/-- What a take of one entry leaves: the job under the next serial, the ring one entry on, the intake free. -/
structure TakenOne (s t : State) (c k : Nat) (e : Bytes) : Prop where
  job : ∃ j, jobAt t s.nextSerial = some j ∧ SameTake (takenJob s k e) j
  ring : ringAt t k = { ringAt s k with
    head := ((ringAt s k).head + 1) % 2 ^ (ringAt s k).log2, readSoFar := [], waitBallast := false }
  intake : intakeAt t c = { intakeAt s c with
    scan := (intakeAt s c).scan.filter (· ≠ k) ++ [k], waitBallast := false, quotaSkip := false
    taken := (intakeAt s c).taken + 1 }
  intakes : ∀ d, d ≠ c → intakeAt t d = intakeAt s d
  serial : t.nextSerial = s.nextSerial + 1
  order : t.ballast.nextIntake = s.ballast.nextIntake
  bridle : t.bridle = s.bridle

theorem takenOne_takeNow (hs : TablesCanonical s) (hfirst : eFirst e = true) (hlast : eLast e = true)
    (hgood : badEntry e = false) : TakenOne s (takeNow s c k [e] 0) c k e := by
  rw [takeNow_single hfirst hlast hgood]
  obtain ⟨j, honly, hsame⟩ := onlyJob_releaseFirst (jobAt_takenState s c k e) rfl
  have hframe := honly.frame
  refine ⟨⟨j, honly.job, hsame⟩, ?_, ?_, fun d hd => ?_, ?_, ?_, ?_⟩
  · rw [hframe]; exact tget_tset_same (d := fun _ => ({} : Ring)) hs.rings k _
  · rw [hframe]; exact tget_tset_same (d := fun _ => ({} : Intake)) hs.intakes c _
  · rw [hframe]; exact tget_tset_ne _ _ _ _ hd
  all_goals rw [hframe]; rfl

theorem noteStall_frame (s : State) : (noteStall s).intakes = s.intakes ∧ (noteStall s).nextSerial = s.nextSerial ∧
    (noteStall s).ballast.nextIntake = s.ballast.nextIntake ∧ (noteStall s).bridle = s.bridle := by
  unfold noteStall
  extract_lets w
  split
  · exact ⟨rfl, rfl, rfl, rfl⟩
  · rw [setEvent_intakes, setEvent_nextSerial, setEvent_ballast, setEvent_bridle]
    exact ⟨rfl, rfl, rfl, rfl⟩

theorem TakenOne.noteStall {t : State} (h : TakenOne s t c k e) : TakenOne s (noteStall t) c k e := by
  obtain ⟨hintakes, hserial, horder, hbridle⟩ := noteStall_frame t
  have hjobs := noteStall_jobs t
  have hrings := noteStall_rings t
  exact ⟨by rw [jobAt, hjobs]; exact h.job, by rw [ringAt, hrings]; exact h.ring, by rw [intakeAt, hintakes]; exact h.intake,
    fun d hd => by rw [intakeAt, hintakes]; exact h.intakes d hd, hserial.trans h.serial, horder.trans h.order,
    hbridle.trans h.bridle⟩

/-- A single entry that the quota and the ballast allow is taken at once. -/
theorem takeOrWait_single (hfirst : eFirst e = true) (hlast : eLast e = true) (hgood : badEntry e = false)
    (hquota : (instAt s (k / 16)).ballast ≥ instHeld s (k / 16) + bufNeed e) (hfree : freeGeneral s ≥ bufNeed e)
    (hwait : (s.intakes.any fun x => x.2.waitBallast && decide (x.1 ≠ c)) = false) :
    takeOrWait s c k [e] = noteStall (takeNow s c k [e] 0) := by
  have hpos := bufNeed_pos e
  have hlow : ¬(instAt s (k / 16)).ballast < bufNeed e := by omega
  have hskip : ¬((instAt s (k / 16)).ballast ≤ instHeld s (k / 16) ∨
      (instAt s (k / 16)).ballast < instHeld s (k / 16) + bufNeed e) := by omega
  simp only [takeOrWait, takeNeed_single hfirst hlast hgood, chainStatus_single hfirst hlast, ne_eq, not_true, if_false,
    if_neg hlow, if_true, if_neg hskip, hwait, Nat.not_lt.mpr hfree, decide_false, Bool.or_self, Bool.false_eq_true]

end
end Sys2Proof.Machine

/-! PROOF. The read of an entry (R53, R137, R145, R172) and the intake that waits for ballast (R48). -/

namespace Sys2Proof.Machine

theorem exec_entryReadComplete (c : Nat) (ok : Bool) (data : Bytes) (s : State) :
    exec (.entryReadComplete c ok data) s = .next (entryRead s c ok data) := rfl

theorem exec_ballastWaitEnd (s : State) : exec .ballastWaitEnd s = .next (fwdPump (noteStall (ballastWaitEnd s))) := rfl

section
variable {s : State} {c k : Nat} {rest : List Nat}

/-- An intake that may read the entry at the front of its round. -/
structure MayRead (s : State) (c k : Nat) (rest : List Nat) : Prop where
  scan : (intakeAt s c).scan = k :: rest
  takes : intakeTakes s c = true
  free : (ringAt s k).waitBallast = false
  active : ringActive s k = true
  inst : takesWork s (instPage (k / 16)) = true
  port : takesWork s (1 + (instAt s (k / 16)).port) = true
  audit : (logAt s (k / 16)).everEnabled = true

theorem entryRead_of_mayRead (h : MayRead s c k rest) (ok : Bool) (data : Bytes) : entryRead s c ok data =
    if !ok then ringError s k 1 (((ringAt s k).head + (ringAt s k).readSoFar.length) % 2 ^ (ringAt s k).log2)
    else if !owned s k (((ringAt s k).head + (ringAt s k).readSoFar.length) % 2 ^ (ringAt s k).log2) (pad 64 data) then
      stopScan s c k
    else match (ringAt s k).readSoFar with
      | [] =>
        if eFirst (pad 64 data) && !eLast (pad 64 data) then putRing s k { ringAt s k with readSoFar := [pad 64 data] }
        else takeOrWait s c k [pad 64 data]
      | es =>
        if eFirst (pad 64 data) then takeOrWait s c k es
        else if eLast (pad 64 data) ∨ es.length = 63 then takeOrWait s c k (es ++ [pad 64 data])
        else putRing s k { ringAt s k with readSoFar := es ++ [pad 64 data] } := by
  simp only [entryRead, h.scan, h.takes, h.free, h.active, h.inst, h.port, h.audit, Bool.not_true, Bool.false_eq_true, or_self,
    if_false, Bool.or_self] <;> rfl

theorem entryRead_failed (h : MayRead s c k rest) (data : Bytes) : entryRead s c false data =
    ringError s k 1 (((ringAt s k).head + (ringAt s k).readSoFar.length) % 2 ^ (ringAt s k).log2) := by
  rw [entryRead_of_mayRead h, if_pos (by decide)]

theorem entryRead_unowned (h : MayRead s c k rest) {data : Bytes} (hown : eOwn (pad 64 data) = false) :
    entryRead s c true data = stopScan s c k := by
  rw [entryRead_of_mayRead h, if_neg (by decide), owned, hown, Bool.false_and]
  rfl

theorem entryRead_single (h : MayRead s c k rest) {data : Bytes} (hfront : (ringAt s k).readSoFar = [])
    (hown : owned s k ((ringAt s k).head % 2 ^ (ringAt s k).log2) (pad 64 data) = true) (hlast : eLast (pad 64 data) = true) :
    entryRead s c true data = takeOrWait s c k [pad 64 data] := by
  rw [entryRead_of_mayRead h, hfront, List.length_nil, Nat.add_zero, hown, hlast, if_neg (by decide), if_neg (by decide)]
  exact if_neg (by simp)

theorem dropTake_nextSerial (s : State) (k : Nat) : (dropTake s k).nextSerial = s.nextSerial := by
  unfold dropTake
  extract_lets r s' t
  split
  · obtain ⟨-, hserial, -⟩ := noteStall_frame (putIntake s' r.intake { t with waitBallast := false })
    exact hserial
  · rfl

theorem dropTake_intakes (h : (ringAt s k).waitBallast = false) : (dropTake s k).intakes = s.intakes := by
  rw [dropTake, if_neg (by rw [h]; decide)]
  rfl

/-- The scan of a ring that is not to be scanned again ends. -/
theorem stopScan_of_no_rescan (hs : TablesCanonical s) (h : (ringAt s k).rescan = false) : stopScan s c k =
    putIntake (dropTake s k) c { intakeAt (dropTake s k) c with scan := (intakeAt (dropTake s k) c).scan.filter (· ≠ k) } := by
  have hrescan : ¬(ringAt (dropTake s k) k).rescan = true := by
    rw [ringAt_dropTake hs, h]
    decide
  rw [stopScan, if_neg hrescan]

/-- Settles O11: the branches of `entryRead`, and what `ringError`, `stopScan` and a take of one entry leave. -/
theorem entryReadTakesStopsOrFaults : Obligations.EntryReadTakesStopsOrFaults := by
  intro c k rest data s hs hscan htakes hfree hactive hinst hport haudit
  have hread : MayRead s c k rest := ⟨hscan, htakes, hfree, hactive, hinst, hport, haudit⟩
  refine ⟨⟨_, (exec_entryReadComplete c false data s).trans (congrArg _ (entryRead_failed hread data)), ?_⟩,
    fun hown hrescan => ⟨_, (exec_entryReadComplete c true data s).trans (congrArg _ (entryRead_unowned hread hown)), ?_⟩,
    fun hfront hown hfirst hlast hgood hquota hroom hwait => ?_⟩
  · rw [ringAt_ringError hs.tables]
    exact ⟨rfl, rfl, rfl, ringError_jobs s k _ _⟩
  · have hround : (intakeAt (dropTake s k) c).scan.filter (· ≠ k) = rest.filter (· ≠ k) := by
      rw [intakeAt, dropTake_intakes hfree, ← intakeAt, hscan, List.filter_cons_of_neg (by simp)]
    rw [stopScan_of_no_rescan hs.tables hrescan, intakeAt_putIntake (hs.tables.dropTake k), hround]
    refine ⟨?_, dropTake_jobs s k, dropTake_nextSerial s k, fun _ => rfl⟩
    show (ringAt (dropTake s k) k).head = _
    rw [ringAt_dropTake hs.tables]
  · have htake := (takenOne_takeNow (c := c) (k := k) hs.tables hfirst hlast hgood).noteStall
    obtain ⟨j, hjob, hsame⟩ := htake.job
    refine ⟨_, j, (exec_entryReadComplete c true data s).trans (congrArg _ ?_), hjob, hsame.entry, hsame.inst, hsame.ring,
      hsame.index, hsame.gen, hsame.bufs, congrArg Ring.head htake.ring, htake.serial, congrArg Intake.taken htake.intake⟩
    rw [entryRead_single hread hfront hown hlast, takeOrWait_single hfirst hlast hgood hquota hroom hwait]

/-! ### A waiting intake (R48) -/

/-- The waiting intake tries again and takes the entry that it holds. -/
theorem retake_single {e : Bytes} (hscan : (intakeAt s c).scan = k :: rest) (htakes : intakeTakes s c = true)
    (hwait : (ringAt s k).waitBallast = true) (hheld : (ringAt s k).readSoFar = [e]) (hfirst : eFirst e = true)
    (hlast : eLast e = true) (hgood : badEntry e = false)
    (hquota : (instAt s (k / 16)).ballast ≥ instHeld s (k / 16) + bufNeed e) (hfree : freeGeneral s ≥ bufNeed e) :
    retake s c = takeNow { s with ballast := { s.ballast with nextIntake := (c + 1) % 34 } } c k [e] 0 := by
  simp only [retake, hscan, hwait, htakes, hheld, takeNeed_single hfirst hlast hgood, chainStatus_single hfirst hlast,
    Bool.not_true, Bool.false_eq_true, or_self, if_false, Nat.not_lt.mpr hquota, Nat.not_lt.mpr hfree]

/-- One round of R48: the state, and whether every intake so far could be served. -/
def serveRound (a : State × Bool) (c : Nat) : State × Bool :=
  if a.2 && (intakeAt a.1 c).waitBallast then (retake a.1 c, !(intakeAt (retake a.1 c) c).waitBallast) else a

theorem foldl_serveRound_none {l : List Nat} (h : ∀ d ∈ l, (intakeAt s d).waitBallast = false) :
    l.foldl serveRound (s, true) = (s, true) := by
  induction l with
  | nil => rfl
  | cons d l ih =>
    have hd : serveRound (s, true) d = (s, true) := by
      rw [serveRound, h d List.mem_cons_self]
      rfl
    rw [List.foldl_cons, hd]
    exact ih fun d hd => h d (List.mem_cons_of_mem _ hd)

/-- With one intake that waits and is served, the round is that intake's take. -/
theorem foldl_serveRound_one {l : List Nat} {t : State} (hl : c ∈ l) (hc : (intakeAt s c).waitBallast = true)
    (hothers : ∀ d, d ≠ c → (intakeAt s d).waitBallast = false) (ht : retake s c = t)
    (hserved : ∀ d, (intakeAt t d).waitBallast = false) : l.foldl serveRound (s, true) = (t, true) := by
  induction l with
  | nil => exact absurd hl List.not_mem_nil
  | cons d l ih =>
    rw [List.foldl_cons]
    by_cases hd : d = c
    · have hone : serveRound (s, true) d = (t, true) := by
        simp only [serveRound, hd, hc, Bool.and_self, if_true, ht, hserved c, Bool.not_false]
      rw [hone]
      exact foldl_serveRound_none fun d _ => hserved d
    · have hskip : serveRound (s, true) d = (s, true) := by
        rw [serveRound, hothers d hd]
        rfl
      rw [hskip]
      exact ih ((List.mem_cons.mp hl).resolve_left (Ne.symm hd))

theorem mem_ballastOrder (hc : c < 34) (n : Nat) : c ∈ (List.range 34).map fun i => (n + i) % 34 :=
  List.mem_map.mpr ⟨(c + 34 - n % 34) % 34, List.mem_range.mpr (Nat.mod_lt _ (by decide)), by omega⟩

theorem ballastWaitEnd_one {t : State} (hlow : c < 34) (hc : (intakeAt s c).waitBallast = true)
    (hothers : ∀ d, d ≠ c → (intakeAt s d).waitBallast = false) (ht : retake s c = t)
    (hserved : ∀ d, (intakeAt t d).waitBallast = false) : ballastWaitEnd s = t := by
  have hround := foldl_serveRound_one (mem_ballastOrder hlow s.ballast.nextIntake) hc hothers ht hserved
  exact congrArg Prod.fst hround

theorem fwdPump_of_none (h : s.bridle.fwdWaiting = []) :
    fwdPump s = { s with ballast := { s.ballast with creditHeld := false } } := by
  simp only [fwdPump, h, List.length_nil, List.range_zero, List.foldl_nil]
  rfl

end

/-- Settles O12: `releaseFirst` by R158's condition and the checks of step 4; the waiting intake by the round of R48, of which
it alone takes part. -/
theorem orderedReleaseAndBallastWait : Obligations.OrderedReleaseAndBallastWait := by
  refine ⟨fun n j s hjob hphase hfirst => ⟨fun hordered hearlier => ?_, fun hgo horigin => ?_⟩, ?_⟩
  · rw [exec_orderedRelease, releaseFirst_of_taken hjob hphase hfirst, hordered, hearlier]
    rfl
  · have hgo' : ¬(eOrdered j.entry && earlierWaits s n j) = true := by
      rw [Bool.not_eq_true, Bool.and_eq_false_iff]
      exact hgo
    rw [exec_orderedRelease, releaseFirst_of_taken hjob hphase hfirst, if_neg hgo', beginStep4_of_own hjob horigin]
    refine ⟨fun hbad => ?_, fun hgood hstatus => ?_, fun hgood hstatus => ?_⟩
    · rw [if_pos hbad]
    · rw [hgood, if_neg Bool.false_ne_true, if_pos hstatus]
    · rw [hgood, if_neg Bool.false_ne_true, if_neg (not_not_intro hstatus)]
      exact congrArg _ (modJob_congr hjob rfl)
  · intro c k rest e s hs hlow hbridle hc hothers htakes hscan _ hwait hheld hfirst hlast hgood hquota hfree
    have htables : TablesCanonical { s with ballast := { s.ballast with nextIntake := (c + 1) % 34 } } := by
      obtain ⟨h1, h2, h3, h4, h5, h6, h7, h8, h9, h10, h11, h12, h13⟩ := hs.tables
      exact ⟨h1, h2, h3, h4, h5, h6, h7, h8, h9, h10, h11, h12, h13⟩
    have hretake := retake_single hscan htakes hwait hheld hfirst hlast hgood hquota hfree
    have htake := takenOne_takeNow (c := c) (k := k) htables hfirst hlast hgood
    have hserved : ∀ d, (intakeAt (takeNow { s with ballast := { s.ballast with nextIntake := (c + 1) % 34 } } c k [e] 0)
        d).waitBallast = false := fun d => by
      by_cases hd : d = c
      · rw [hd, htake.intake]
      · rw [htake.intakes d hd]
        exact hothers d hd
    have hround := ballastWaitEnd_one hlow hc hothers hretake hserved
    have hstall := htake.noteStall
    obtain ⟨j, hjob, hsame⟩ := hstall.job
    have hpump := fwdPump_of_none ((congrArg Bridle.fwdWaiting hstall.bridle).trans hbridle)
    have hexec := exec_ballastWaitEnd s
    rw [hround, hpump] at hexec
    refine ⟨_, j, hexec, hjob, hsame.entry, hsame.inst, hsame.bufs, ?_, ?_, ?_, hstall.serial, hstall.order⟩
    · exact congrArg Intake.waitBallast hstall.intake
    · exact congrArg Ring.waitBallast hstall.ring
    · exact congrArg Ring.head hstall.ring

end Sys2Proof.Machine

/-! PROOF. A job's hand-off to a channel (R56, R58, R150), the ends of its reads (R140, R165) and of an unwrap (R279, R283). -/

namespace Sys2Proof.Machine

theorem exec_jobHandoff (n c core : Nat) (s : State) : exec (.jobHandoff n c core) s = .next (handoff s n c core) := rfl

theorem exec_hostReadComplete (n : Nat) (ok : Bool) (data : Bytes) (s : State) :
    exec (.hostReadComplete n ok data) s = .next (hostRead s n ok data) := rfl

theorem exec_unwrapComplete (n : Nat) (s : State) : exec (.unwrapComplete n) s = .next (unwrapDone s n) := rfl

section
variable {s : State} {n c core : Nat} {j : Job}

/-! ### Hand-off -/

theorem handoff_refused (hjob : jobAt s n = some j) (h : mayTake s n j c = false ∨ chainBefore s n j = true) :
    handoff s n c core = s := by
  have hguard : j.phase ≠ .handoff ∨ (!mayTake s n j c) = true ∨ chainBefore s n j = true :=
    .inr (h.imp (fun h => by rw [h]; rfl) id)
  simp only [handoff, hjob]
  rw [if_pos hguard]

/-- The job as it is handed to channel `c`. -/
def handed (c : Nat) (core : Option Nat) (j : Job) : Job := { j with chan := some c, core := core }

/-- No core of the channel waits for the job. -/
theorem handoff_no_core (hjob : jobAt s n = some j) (hphase : j.phase = .handoff) (htake : mayTake s n j c = true)
    (hbefore : chainBefore s n j = false) (horigin : j.origin = none) (hcore : (tget {} s.cores core).stall ≠ .jobNext) :
    handoff s n c core = beginStep5 (modJob
      (if (ringAt s (ringKey j.inst j.ring)).intake ≠ c then
        putIntake s (ringAt s (ringKey j.inst j.ring)).intake { intakeAt s (ringAt s (ringKey j.inst j.ring)).intake with
          handed := (intakeAt s (ringAt s (ringKey j.inst j.ring)).intake).handed + 1 }
      else s) n (handed c none)) n := by
  by_cases hown : (ringAt s (ringKey j.inst j.ring)).intake = c
  · simp only [handoff, hjob, hphase, htake, hbefore, hown, ne_eq, not_true, Bool.not_true, Bool.false_eq_true, or_self,
      if_false, and_false, hcore, decide_false, Bool.false_and]
    rfl
  · simp only [handoff, hjob, hphase, htake, hbefore, horigin, hown, ne_eq, not_true, Bool.not_true, Bool.false_eq_true,
      or_self, if_false, Option.isNone_none, not_false_iff, and_self, if_true, putIntake_cores, hcore, and_false,
      decide_false, Bool.false_and]
    rfl

/-- Core `core` of the channel waits in JOB_NEXT and receives the job (R563). -/
theorem handoff_to_core (hjob : jobAt s n = some j) (hphase : j.phase = .handoff) (htake : mayTake s n j c = true)
    (hbefore : chainBefore s n j = false) (hown : (ringAt s (ringKey j.inst j.ring)).intake = c)
    (hcore : (tget {} s.cores core).stall = .jobNext) (hrun : isRunning s core = true) (hlow : chanPage c < core)
    (hhigh : core ≤ chanPage c + 4) : handoff s n c core = beginStep5
      { modJob s n (handed c (some core)) with
        cores := tset {} s.cores core { tget {} s.cores core with stall := .none } } n := by
  simp only [handoff, hjob, hphase, htake, hbefore, hown, ne_eq, not_true, Bool.not_true, Bool.false_eq_true, or_self,
    if_false, and_false, hcore, hrun, hlow, hhigh, and_self, decide_true, Bool.and_self, if_true, modJob_cores]
  rfl

/-! ### Reads (R140, R165, R251) -/

theorem hostRead_failed (hjob : jobAt s n = some j) (data : Bytes)
    (h : (∃ k, j.phase = .readHead k ∨ j.phase = .readRest k) ∨ j.phase = .readInput ∨ j.phase = .nextSegment) :
    hostRead s n false data = failJob s n 0x1005 := by
  obtain ⟨k, h | h⟩ | h | h := h <;> simp only [hostRead, hjob, h, Bool.not_false, if_true]

theorem hostRead_head (hjob : jobAt s n = some j) {k : Nat} (h : j.phase = .readHead k) {data : Bytes}
    (hlen : (statedLen (pad 32 data)).isSome = true) : hostRead s n true data = modJob s n fun j =>
      if k = 0 then { j with blob1 := pad 32 data, phase := .readRest 0 }
      else { j with blob2 := pad 32 data, phase := .readRest 1 } := by
  obtain ⟨len, hlen⟩ := Option.isSome_iff_exists.mp hlen
  simp only [hostRead, hjob, h, hlen, Bool.not_true, Bool.false_eq_true, if_false]

theorem hostRead_head_unstated (hjob : jobAt s n = some j) {k : Nat} (h : j.phase = .readHead k) {data : Bytes}
    (hlen : statedLen (pad 32 data) = none) : hostRead s n true data = refuseBlob s n 0x2001 := by
  simp only [hostRead, hjob, h, hlen, Bool.not_true, Bool.false_eq_true, if_false]

theorem hostRead_rest (hjob : jobAt s n = some j) {k : Nat} (h : j.phase = .readRest k) (data : Bytes) :
    hostRead s n true data = modJob s n fun i =>
      if k = 0 then { i with
        blob1 := blobOf j k ++ pad ((statedLen (blobOf j k)).getD 32 - 32) data, blob1Done := true, phase := afterBlob i 0 }
      else { i with
        blob2 := blobOf j k ++ pad ((statedLen (blobOf j k)).getD 32 - 32) data, blob2Done := true, phase := afterBlob i 1 } := by
  simp only [hostRead, hjob, h, Bool.not_true, Bool.false_eq_true, if_false]

theorem hostRead_input (hjob : jobAt s n = some j) (h : j.phase = .readInput) (data : Bytes) :
    hostRead s n true data = modJob s n fun j => { j with input := pad (nextRead j 0) data, phase := .handoff } := by
  simp only [hostRead, hjob, h, Bool.not_true, Bool.false_eq_true, if_false]

theorem hostRead_segment (hjob : jobAt s n = some j) (h : j.phase = .nextSegment) (data : Bytes) :
    hostRead s n true data =
      modJob s n fun j => { j with input := j.input ++ pad (nextRead j j.input.length) data, phase := .run } := by
  simp only [hostRead, hjob, h, Bool.not_true, Bool.false_eq_true, if_false]

theorem hostRead_proof (hjob : jobAt s n = some j) (h : j.phase = .readProof) (data : Bytes) :
    hostRead s n true data = modJob s n fun j => { j with proof := j.proof ++ [data], phase := .run } := by
  simp only [hostRead, hjob, h, if_true]

/-! ### Unwraps (R279, R280, R283) -/

/-- The unwrap of the first blob of a job that its lane works on. -/
structure Unwraps (s : State) (n : Nat) (j : Job) : Prop where
  job : jobAt s n = some j
  phase : j.phase = .unwrap 0
  lane : (tget {} s.lanes (j.chan.getD 0)).unwrap = some n
  gens : (chooseGen s j j.blob1).1 = 0

theorem unwrapDone_status (h : Unwraps s n j) {st : Nat}
    (hst : unwrapBlob s j j.blob1 (chooseGen s j j.blob1).2 = .status st) :
    unwrapDone s n = laneUnwrap ((n :: (waiters s j.inst (sha256 j.blob1)).map (·.1)).foldl
      (fun s m => refuseBlob s m st) (dropFill s n)) (j.chan.getD 0) := by
  simp only [unwrapDone, h.job, h.phase, h.lane, blobOf, h.gens, hst, ne_eq, not_true, if_false, if_true]

/-- The fill of job `n` learns the generation of the key that came out. -/
def noteFillGen (s : State) (n gen : Nat) : State :=
  { s with kc := { s.kc with fills := s.kc.fills.map fun f => if f.1 = n then (f.1, { f.2 with gen := gen }) else f } }

theorem unwrapDone_key (h : Unwraps s n j) {key : Key}
    (hkey : unwrapBlob s j j.blob1 (chooseGen s j j.blob1).2 = .key key) (hwait : waiters s j.inst (sha256 j.blob1) = []) :
    unwrapDone s n = laneUnwrap (followFill (endFill (noteFillGen s n key.desc.kbpkGen) n key).1 key 0
      (endFill (noteFillGen s n key.desc.kbpkGen) n key).2 n) (j.chan.getD 0) := by
  simp only [unwrapDone, h.job, h.phase, h.lane, blobOf, h.gens, hkey, hwait, ne_eq, not_true, if_false, if_true,
    List.foldl_nil]
  rfl

/-- `t` is `s` but for the key cache. -/
structure OnlyCache (s t : State) : Prop where
  frame : t = { s with kc := t.kc }

theorem OnlyCache.trans {s t u : State} (h : OnlyCache s t) (h' : OnlyCache t u) : OnlyCache s u where
  frame :=
    calc u = { t with kc := u.kc } := h'.frame
      _ = { s with kc := u.kc } := by rw [h.frame]

theorem OnlyCache.jobs {s t : State} (h : OnlyCache s t) (n : Nat) : jobAt t n = jobAt s n := by
  rw [h.frame]
  rfl

theorem onlyCache_endFill (s : State) (n : Nat) (key : Key) : OnlyCache s (endFill s n key).2 := by
  unfold endFill
  split
  · exact ⟨rfl⟩
  · extract_lets kc
    split <;> exact ⟨rfl⟩

theorem onlyCache_pinKey (s : State) (head n : Nat) : OnlyCache s (pinKey s head n) := by
  unfold pinKey
  split <;> exact ⟨rfl⟩

theorem takeKey_good (hjob : jobAt s n = some j) {key : Key} (hkey : keyStatus j.entry 0 key = 0) (cap : Cap) :
    takeKey s n 0 key cap = (true, modJob s n fun j => { j with key1 := some key, cap1 := cap, phase := .run }) := by
  simp only [takeKey, hjob, hkey, ne_eq, not_true, if_false, if_true]

/-- A job of one blob takes its key, pinned or staged, and runs. -/
theorem followFill_one (hjob : jobAt s n = some j) {key : Key} (hkey : keyStatus j.entry 0 key = 0)
    (hone : blobCount j.entry = 1) (head : Option (Nat × Nat)) : ∃ t cap, OnlyCache s t ∧
      followFill head key 0 s n = modJob t n fun j => { j with key1 := some key, cap1 := cap, phase := .run } := by
  have hnot : ¬ blobCount j.entry = 2 := by omega
  cases head with
  | none =>
    have hstaged : OnlyCache s (stageKey s (freeStage s n) n key) := ⟨rfl⟩
    refine ⟨_, keyCap (stageObject (j.chan.getD 0) (freeStage s n) n) j.inst j.gen key, hstaged, ?_⟩
    simp only [followFill, hjob, takeKey_good ((hstaged.jobs n).trans hjob) hkey, hnot, decide_false, Bool.and_false,
      Bool.false_eq_true, if_false]
  | some p =>
    have hpinned := onlyCache_pinKey s p.1 n
    refine ⟨_, keyCap (keyObject p.1 p.2) j.inst j.gen key, hpinned, ?_⟩
    simp only [followFill, hjob, takeKey_good ((hpinned.jobs n).trans hjob) hkey, hnot, decide_false, Bool.and_false,
      Bool.false_eq_true, if_false]

end

/-- Settles O24: the guard of `handoff`, whether the intake counts the hand-off, and whether a core waits. -/
theorem jobHandoff : Obligations.JobHandoff := by
  intro n c core j s hs hjob hphase
  refine ⟨fun htake hbefore horigin hown hcore => ?_, fun htake hbefore horigin hother hcore => ?_,
    fun htake hbefore horigin hown hcore hrun hlow hhigh => ?_, fun hclosed => ?_⟩
  · rw [exec_jobHandoff, handoff_no_core hjob hphase htake hbefore horigin hcore, if_neg (not_not_intro hown)]
    rfl
  · rw [exec_jobHandoff, handoff_no_core hjob hphase htake hbefore horigin hcore, if_pos hother]
    rfl
  · have hcores := tget_tset_same (d := fun _ => ({} : Core)) hs.tables.cores core
      { tget {} s.cores core with stall := .none }
    have honly := onlyJob_modJob hjob (handed c (some core))
    refine ⟨_, (exec_jobHandoff n c core s).trans
      (congrArg _ (handoff_to_core hjob hphase htake hbefore hown hcore hrun hlow hhigh)), honly.job,
      congrArg Core.stall hcores, ?_⟩
    rw [honly.frame]
  · rw [exec_jobHandoff, handoff_refused hjob hclosed]

/-- Settles O26: `hostRead` by the phase of the job, `unwrapDone` by what the blob gives. -/
theorem hostReadAndUnwrapComplete : Obligations.HostReadAndUnwrapComplete := by
  refine ⟨fun n data j s hjob => ?_, fun n j s hjob hphase hlane hgens => ?_⟩
  · have hexec := fun ok => exec_hostReadComplete n ok data s
    refine ⟨fun h hlen => ?_, fun h hlen => ?_, fun h => ?_, fun h hlen => ?_, fun h => ?_, fun h => ?_, fun h => ?_,
      fun h => ?_, fun h => ?_⟩
    · exact ⟨_, (hexec true).trans (congrArg _ (hostRead_head hjob h hlen)), onlyJob_modJob hjob _⟩
    · rw [hexec, hostRead_head_unstated hjob h hlen]
    · exact ⟨_, (hexec true).trans (congrArg _ (hostRead_rest hjob h data)), onlyJob_modJob hjob _⟩
    · exact ⟨_, (hexec true).trans (congrArg _ (hostRead_head hjob h hlen)), onlyJob_modJob hjob _⟩
    · exact ⟨_, (hexec true).trans (congrArg _ (hostRead_rest hjob h data)), onlyJob_modJob hjob _⟩
    · exact ⟨_, (hexec true).trans (congrArg _ (hostRead_input hjob h data)), onlyJob_modJob hjob _⟩
    · exact ⟨_, (hexec true).trans (congrArg _ (hostRead_segment hjob h data)), onlyJob_modJob hjob _⟩
    · exact ⟨_, (hexec true).trans (congrArg _ (hostRead_proof hjob h data)), onlyJob_modJob hjob _⟩
    · rw [hexec, hostRead_failed hjob data h]
  · have hunwraps : Unwraps s n j := ⟨hjob, hphase, hlane, hgens⟩
    refine ⟨fun st hst => ?_, fun key hkey hwait hstatus hone => ?_⟩
    · rw [exec_unwrapComplete, unwrapDone_status hunwraps hst]
    · have hdone := unwrapDone_key hunwraps hkey hwait
      have hfill := onlyCache_endFill (noteFillGen s n key.desc.kbpkGen) n key
      generalize endFill (noteFillGen s n key.desc.kbpkGen) n key = p at hdone hfill
      have hcache : OnlyCache s p.2 := OnlyCache.trans (t := noteFillGen s n key.desc.kbpkGen) ⟨rfl⟩ hfill
      obtain ⟨t, cap, ht, hfollow⟩ := followFill_one ((hcache.jobs n).trans hjob) hstatus hone p.1
      have hst := hcache.trans ht
      have honly := onlyJob_modJob ((hst.jobs n).trans hjob) fun j => { j with key1 := some key, cap1 := cap, phase := .run }
      rw [hfollow] at hdone
      refine ⟨_, cap, (exec_unwrapComplete n s).trans (congrArg _ hdone), honly.job,
        fun m hm => (honly.others m hm).trans (hst.jobs m), ?_⟩
      rw [laneUnwrap, honly.frame, hst.frame]

end Sys2Proof.Machine

/-! PROOF. Three statements on single registers: the locked field of the device root (R108), the snapshot of the tether's
position (R317) and the management port (R906 to R908). -/

namespace Sys2Proof.Machine

/-! ### FLT_CFG.TEST_AT -/

section
variable {s : State} {acc : Acc}

theorem regWrite_testAt (hacc : acc ≠ .vf) (hreach : reaches s acc 0x000 = true) (v : Word32) :
    regWrite s acc 0x000 0x204 v = lockedWrite s 0 (decide (v.toNat % 256 ≠ s.faults.testAt)) fun s =>
      { s with faults := { s.faults with testAt := v.toNat % 256 } } := by
  rw [regWrite_of_reaches hacc hreach (by decide) (by decide)]
  rfl

theorem lockedWrite_of_locked {p : Nat} (hlock : (unitAt s p).lock = true) (f : State → State) :
    lockedWrite s p true f = refuseWrite s p := by
  rw [lockedWrite, hlock]
  rfl

theorem lockedWrite_of_unlocked {p : Nat} (hlock : (unitAt s p).lock = false) (f : State → State) :
    lockedWrite s p true f = f s := by
  rw [lockedWrite, hlock]
  rfl

/-- A refused write is counted on its unit, and sets event bit 3 (R108). -/
theorem unitAt_refuseWrite (hs : TablesCanonical s) (p : Nat) :
    unitAt (refuseWrite s p) p = { unitAt s p with
      refused := sat 255 ((unitAt s p).refused + 1), event := (unitAt s p).event ||| BitVec.ofNat 32 (2 ^ 3) } := by
  have hmod := modUnit_ev (p := p) (f := fun u => { u with refused := sat 255 (u.refused + 1) }) (Evolves.refl s)
  rw [refuseWrite, unitAt_setEvent (hmod.tables hs), unitAt_modUnit hs]

theorem unitAt_refuseWrite_ne {p q : Nat} (h : q ≠ p) : unitAt (refuseWrite s p) q = unitAt s q := by
  rw [refuseWrite, unitAt_setEvent_ne _ _ h, unitAt_modUnit_ne s _ h]

theorem getLsbD_or_two_pow_three (e : Word32) : (e ||| BitVec.ofNat 32 (2 ^ 3)).getLsbD 3 = true := by
  rw [BitVec.getLsbD_or, show (BitVec.ofNat 32 (2 ^ 3)).getLsbD 3 = true from by decide, Bool.or_true]

end

/-- Settles O20: the write comes to `lockedWrite`, which counts it on a locked page and carries it out on another. -/
theorem lockedFieldWriteRefused : Obligations.LockedFieldWriteRefused := by
  intro acc v s hs hacc hreach hchange
  rw [exec_registerWrite, regWrite_testAt hacc hreach, decide_eq_true hchange]
  constructor
  · intro hlock
    rw [lockedWrite_of_locked hlock]
    refine ⟨_, rfl, ?_, ?_, ?_, fun q hq => unitAt_refuseWrite_ne hq⟩
    · rw [refuseWrite, setEvent_faults, modUnit_faults]
    · rw [unitAt_refuseWrite hs.tables]
    · rw [unitAt_refuseWrite hs.tables]
      exact getLsbD_or_two_pow_three _
  · intro hlock
    rw [lockedWrite_of_unlocked hlock]

/-! ### TETHER_POS -/

section
variable {s : State} {acc : Acc}

/-- Reading TETHER_POS_LO gives the lower half and keeps the whole position for the accessor. -/
theorem readFrom_posLo : readFrom s acc 0x006 0x048 = (position s % 2 ^ 32,
    { s with tether := { s.tether with posSnap := tset 0 s.tether.posSnap (accIdx acc) (position s) } }) := rfl

theorem readFrom_posHi : readFrom s acc 0x006 0x04C =
    (tget 0 s.tether.posSnap (accIdx acc) / 2 ^ 32 % 2 ^ 32, s) := rfl

end

/-- Settles O21: LO stores the position under the accessor's index, and HI reads that entry. -/
theorem positionSnapshotPerAccessor : Obligations.PositionSnapshotPerAccessor := by
  intro acc s hacc hreach hpos hsnap
  have hflash : ∀ off, ¬((6 : Nat) = flashPage ∧ off = 0x048) := fun off h => absurd h.1 (by decide)
  have hlo := exec_snapshotRead_of_reaches (off := 0x048) hacc hreach (by decide) (by decide) (hflash _)
  rw [readFrom_posLo, Nat.mod_mod] at hlo
  refine ⟨_, hlo, rfl, rfl, rfl, ?_, fun a ha => tget_tset_ne _ _ _ _ ha⟩
  have hkept : tget 0 (tset 0 s.tether.posSnap (accIdx acc) (position s)) (accIdx acc) = position s :=
    tget_tset_same (d := fun _ => (0 : Nat)) hsnap _ _
  have hhalf : position s / 2 ^ 32 < 2 ^ 32 := Nat.div_lt_of_lt_mul (by rwa [← Nat.pow_add])
  refine (exec_snapshotRead_of_reaches (off := 0x04C) hacc ?_ (by decide) (by decide) (hflash _)).trans ?_
  · exact hreach
  rw [readFrom_posHi, emit_tether, hkept, Nat.mod_mod, Nat.mod_eq_of_lt hhalf]
  rfl

/-! ### The management port -/

theorem smbusUp_of_not_moored {s : State} (h : s.power.state ≠ .moored) : smbusUp s = true := decide_eq_true h

/-- Settles O22: with main power each command of the port is the access that it stands for, and one whose PEC is wrong is
dropped. -/
theorem smbusPort : Obligations.SmbusPort := by
  intro ptr v s hpower
  have hup := smbusUp_of_not_moored hpower
  refine ⟨?_, ?_, ?_, ?_, fun n t hread => ?_, fun hroot => ?_, fun hroot => ?_⟩
  · change execSmbusSetPointer ptr true s = _
    rw [execSmbusSetPointer, hup]
    rfl
  · change execSmbusSetPointer ptr false s = _
    rw [execSmbusSetPointer, Bool.and_false]
    rfl
  · change execSmbusWrite ptr v true s = _
    rw [execSmbusWrite, hup]
    rfl
  · change execSmbusWrite ptr v false s = _
    rw [execSmbusWrite, Bool.and_false]
    rfl
  · change execSmbusRead s = _
    rw [execSmbusRead, hup, smbusPage, smbusOffset, hread]
    rfl
  · change execAlertResponse s = _
    rw [execAlertResponse, hup, hroot]
    rfl
  · change execAlertResponse s = _
    rw [execAlertResponse, hroot, Bool.and_false]
    rfl

end Sys2Proof.Machine

/-! PROOF. The unit tree (R86 to R106): which unit headers an operation may change. `KeepsUnits X s t` says that `t` comes of
`s` by an operation that keeps the header of every page outside `X`, but for event bits, and the fault records. -/

namespace Sys2Proof.Machine

/-- Event bits have become 1; nothing else of the header has changed. -/
def MoreEvents (u v : UnitHdr) : Prop := ∃ b, v = { u with event := u.event ||| b }

section
variable {u v w : UnitHdr}

theorem MoreEvents.refl (u : UnitHdr) : MoreEvents u u := ⟨0#32, by rw [BitVec.or_zero]⟩

theorem MoreEvents.trans (h : MoreEvents u v) (k : MoreEvents v w) : MoreEvents u w := by
  obtain ⟨a, rfl⟩ := h
  obtain ⟨b, rfl⟩ := k
  exact ⟨a ||| b, by rw [BitVec.or_assoc]⟩

theorem MoreEvents.state (h : MoreEvents u v) : v.state = u.state := by obtain ⟨b, rfl⟩ := h; rfl
theorem MoreEvents.enable (h : MoreEvents u v) : v.enable = u.enable := by obtain ⟨b, rfl⟩ := h; rfl
theorem MoreEvents.isPending (h : MoreEvents u v) : v.pending = u.pending := by obtain ⟨b, rfl⟩ := h; rfl
theorem MoreEvents.draining (h : MoreEvents u v) : v.draining = u.draining := by obtain ⟨b, rfl⟩ := h; rfl
theorem MoreEvents.retiring (h : MoreEvents u v) : v.retiring = u.retiring := by obtain ⟨b, rfl⟩ := h; rfl

theorem MoreEvents.keepsBit {n : Nat} (h : MoreEvents u v) (hn : u.event.getLsbD n = true) : v.event.getLsbD n = true := by
  obtain ⟨b, rfl⟩ := h
  rw [BitVec.getLsbD_or, hn, Bool.true_or]

end

theorem moreEvents_setEvent {s : State} (hs : TablesCanonical s) (p b q : Nat) :
    MoreEvents (unitAt s q) (unitAt (setEvent s p b) q) := by
  by_cases hq : q = p
  · rw [hq, unitAt_setEvent hs]
    exact ⟨_, rfl⟩
  · rw [unitAt_setEvent_ne _ _ hq]
    exact .refl _

/-! ### The relation -/

structure KeepsUnits (X : Nat → Prop) (s t : State) : Prop where
  evolves : Evolves s t
  headers : TablesCanonical s → ∀ q, ¬X q → MoreEvents (unitAt s q) (unitAt t q)
  faults : t.faults = s.faults

/-- No page's header changes but for event bits. -/
abbrev KeepsAllUnits : State → State → Prop := KeepsUnits fun _ => False

section
variable {X Y : Nat → Prop} {s t u : State}

theorem KeepsUnits.tables (h : KeepsUnits X s t) (hs : TablesCanonical s) : TablesCanonical t := h.evolves.tables hs

theorem KeepsUnits.refl (X : Nat → Prop) (s : State) : KeepsUnits X s s := ⟨.refl s, fun _ _ _ => .refl _, rfl⟩

theorem KeepsUnits.trans (h : KeepsUnits X s t) (k : KeepsUnits X t u) : KeepsUnits X s u where
  evolves := h.evolves.trans k.evolves
  headers := fun hs q hq => (h.headers hs q hq).trans (k.headers (h.tables hs) q hq)
  faults := k.faults.trans h.faults

theorem KeepsUnits.mono (h : KeepsUnits X s t) (hX : ∀ q, X q → Y q) : KeepsUnits Y s t where
  evolves := h.evolves
  headers := fun hs q hq => h.headers hs q fun hx => hq (hX q hx)
  faults := h.faults

theorem KeepsUnits.of_all (h : KeepsAllUnits s t) : KeepsUnits X s t := h.mono fun _ => False.elim

/-- An operation that does not write the headers keeps them. -/
theorem KeepsUnits.of_units_eq (hev : Evolves s t) (hunits : t.units = s.units) (hfaults : t.faults = s.faults) :
    KeepsUnits X s t where
  evolves := hev
  headers := fun _ q _ => by
    rw [unitAt, unitAt, hunits]
    exact .refl _
  faults := hfaults

theorem KeepsUnits.ite {c : Prop} [Decidable c] {a b : State} (h : c → KeepsUnits X s a) (k : ¬c → KeepsUnits X s b) :
    KeepsUnits X s (if c then a else b) := by
  split
  · exact h ‹_›
  · exact k ‹_›

/-- A fold keeps what each of its steps keeps. -/
theorem KeepsUnits.foldl {α : Type} {f : State → α → State} {l : List α} (hf : ∀ s, ∀ a ∈ l, KeepsUnits X s (f s a)) (s : State) :
    KeepsUnits X s (l.foldl f s) := by
  induction l generalizing s with
  | nil => exact .refl X s
  | cons a l ih =>
    exact (hf s a (by simp)).trans (ih (fun s b hb => hf s b (List.mem_cons_of_mem a hb)) _)

theorem keepsUnits_setEvent (s : State) (p b : Nat) : KeepsUnits X s (setEvent s p b) where
  evolves := setEvent_ev (.refl s)
  headers := fun hs q _ => moreEvents_setEvent hs p b q
  faults := setEvent_faults s p b

theorem keepsUnits_modUnit (s : State) {p : Nat} (hp : X p) (f : UnitHdr → UnitHdr) : KeepsUnits X s (modUnit s p f) where
  evolves := modUnit_ev (.refl s)
  headers := fun _ q hq => by
    rw [unitAt_modUnit_ne s f fun (h : q = p) => hq (h ▸ hp)]
    exact .refl _
  faults := modUnit_faults s p f

theorem keepsUnits_modUnit_self (s : State) (p : Nat) (f : UnitHdr → UnitHdr) : KeepsUnits (· = p) s (modUnit s p f) :=
  keepsUnits_modUnit (X := (· = p)) s rfl f

/-! ### Operations below a change of state -/

theorem keepsUnits_sendMsix (s : State) (func entry : Nat) : KeepsUnits X s (sendMsix s func entry) :=
  .of_units_eq (sendMsix_ev (.refl s)) (sendMsix_units ..) (sendMsix_faults ..)

theorem keepsUnits_dpEvent (s : State) (i b : Nat) : KeepsUnits X s (dpEvent s i b) := by
  unfold dpEvent
  extract_lets x ev s'
  have hput : KeepsUnits X s s' := .of_units_eq (putInst_ev (.refl s)) rfl rfl
  exact .ite (fun _ => .refl X s) fun _ => .ite (fun _ => hput.trans (keepsUnits_sendMsix ..)) fun _ => hput

theorem keepsUnits_wakeRing (s : State) (k : Nat) : KeepsUnits X s (wakeRing s k) := by
  have hframe := wakeRing_frame s k
  exact .of_units_eq (wakeRing_ev (.refl s)) (by rw [hframe]) (by rw [hframe])

theorem keepsUnits_instFollow (s : State) (p : Nat) (old : UState) : KeepsUnits X s (instFollow s p old) := by
  unfold instFollow
  refine .ite (fun _ => ?_) fun _ => .refl X s
  split
  · exact keepsUnits_dpEvent ..
  · refine KeepsUnits.trans ?_ (.foldl (fun s k _ => keepsUnits_wakeRing s k) _)
    exact .ite (fun _ => keepsUnits_dpEvent ..) fun _ => .refl X s
  · exact .refl X s

theorem keepsUnits_sailFollow (s : State) (p : Nat) (st : UState) : KeepsUnits X s (sailFollow s p st) := by
  refine .of_units_eq (sailFollow_ev (.refl s)) ?_ ?_
  all_goals
    unfold sailFollow
    split
    · split <;> rfl
    · rfl

theorem keepsUnits_coreFollow (s : State) (p : Nat) (st : UState) : KeepsUnits X s (coreFollow s p st) := by
  refine .of_units_eq (coreFollow_ev (.refl s)) ?_ ?_
  all_goals
    unfold coreFollow
    split
    · split <;> rfl
    · rfl

theorem keepsUnits_onStarting (s : State) (p : Nat) : KeepsUnits X s (onStarting s p) := by
  refine .of_units_eq (onStarting_ev (.refl s)) ?_ ?_
  all_goals
    unfold onStarting
    split <;> rfl

/-- A channel's DRBG follows with the record `rng`; what it changes of a header is an event bit of the DRBG's own page
(R520). -/
theorem keepsUnits_drbgFollow (s : State) (p : Nat) (st : UState) : KeepsUnits X s (drbgFollow s p st) := by
  have hrng (r : Rng) : KeepsUnits X s { s with rng := r } := .of_units_eq (.upd (.refl s)) rfl rfl
  unfold drbgFollow
  refine .ite (fun _ => ?_) fun _ => .refl X s
  extract_lets c healthy x d
  split
  · exact .ite (fun _ => (hrng _).trans (keepsUnits_setEvent ..)) fun _ => hrng _
  · exact hrng _
  · exact hrng _
  · exact hrng _
  · exact .refl X s

/-! ### A change of state (R94, R102) -/

/-- The header of a unit whose state changes to `st`, its event bits left out. -/
def restated (st : UState) (u : UnitHdr) : UnitHdr :=
  { u with
    state := st
    draining := false
    pending := match st with
      | .starting | .faulted | .retired | .running | .quiesced => false
      | _ => u.pending
    enable := if st = .retired then false else u.enable }

theorem setUState_of_state_eq {p : Nat} {st : UState} (h : (unitAt s p).state = st) : setUState s p st = s := if_pos h

theorem setUState_of_state_ne {p : Nat} {st : UState} (h : (unitAt s p).state ≠ st) : setUState s p st =
    instFollow (setEvent (modUnit (coreFollow (sailFollow (drbgFollow s p st) p st) p st) p (restated st)) p 0) p
      (unitAt s p).state := if_neg h

/-- What follows a change of state before it takes effect. -/
theorem keepsUnits_follow (s : State) (p : Nat) (st : UState) :
    KeepsUnits X s (coreFollow (sailFollow (drbgFollow s p st) p st) p st) :=
  ((keepsUnits_drbgFollow s p st).trans (keepsUnits_sailFollow ..)).trans (keepsUnits_coreFollow ..)

theorem keepsUnits_setUState (s : State) {p : Nat} (hp : X p) (st : UState) : KeepsUnits X s (setUState s p st) := by
  by_cases h : (unitAt s p).state = st
  · rw [setUState_of_state_eq h]
    exact .refl X s
  · rw [setUState_of_state_ne h]
    exact (((keepsUnits_follow s p st).trans (keepsUnits_modUnit _ hp _)).trans (keepsUnits_setEvent ..)).trans
      (keepsUnits_instFollow ..)

theorem keepsUnits_setUState_self (s : State) (p : Nat) (st : UState) : KeepsUnits (· = p) s (setUState s p st) :=
  keepsUnits_setUState (X := (· = p)) s rfl st

theorem getLsbD_or_two_pow_zero (e : Word32) : (e ||| BitVec.ofNat 32 (2 ^ 0)).getLsbD 0 = true := by
  rw [BitVec.getLsbD_or, show (BitVec.ofNat 32 (2 ^ 0)).getLsbD 0 = true from by decide, Bool.or_true]

/-- The unit has the new state, with UNIT_EVENT.STATE. -/
theorem unitAt_setUState (hs : TablesCanonical s) {p : Nat} {st : UState} (h : (unitAt s p).state ≠ st) :
    MoreEvents (restated st (unitAt s p)) (unitAt (setUState s p st) p) ∧
      (unitAt (setUState s p st) p).event.getLsbD 0 = true := by
  rw [setUState_of_state_ne h]
  have hfollow := keepsUnits_follow (X := fun _ => False) s p st
  obtain ⟨b, hb⟩ := hfollow.headers hs p id
  generalize coreFollow (sailFollow (drbgFollow s p st) p st) p st = a at hfollow hb
  have hmod : KeepsUnits (· = p) s (modUnit a p (restated st)) := hfollow.of_all.trans (keepsUnits_modUnit_self ..)
  have hset : unitAt (setEvent (modUnit a p (restated st)) p 0) p = { restated st (unitAt a p) with
      event := (unitAt a p).event ||| BitVec.ofNat 32 (2 ^ 0) } := by
    rw [unitAt_setEvent (hmod.tables hs), unitAt_modUnit (hfollow.tables hs)]
    rfl
  have hinst := (keepsUnits_instFollow (X := fun _ => False) (setEvent (modUnit a p (restated st)) p 0) p
    (unitAt s p).state).headers ((hmod.trans (keepsUnits_setEvent ..)).tables hs) p id
  rw [hset] at hinst
  refine ⟨.trans ?_ hinst, hinst.keepsBit (getLsbD_or_two_pow_zero _)⟩
  rw [hb]
  exact ⟨b ||| BitVec.ofNat 32 (2 ^ 0), by rw [← BitVec.or_assoc]; rfl⟩

/-! ### Rings and shares -/

theorem keepsUnits_noteStall (s : State) : KeepsUnits X s (noteStall s) := by
  have hballast (b : Bool) : KeepsUnits X s { s with ballast := { s.ballast with stalled := b } } :=
    .of_units_eq (.upd (.refl s)) rfl rfl
  unfold noteStall
  exact .ite (fun _ => .refl X s) fun _ => (hballast _).trans (keepsUnits_setEvent ..)

theorem keepsUnits_putRing (s : State) (k : Nat) (r : Ring) : KeepsUnits X s (putRing s k r) :=
  .of_units_eq (putRing_ev (.refl s)) rfl rfl

theorem keepsUnits_putIntake (s : State) (c : Nat) (x : Intake) : KeepsUnits X s (putIntake s c x) :=
  .of_units_eq (putIntake_ev (.refl s)) rfl rfl

theorem keepsUnits_dropTake (s : State) (k : Nat) : KeepsUnits X s (dropTake s k) := by
  unfold dropTake
  extract_lets r s' t
  have hput : KeepsUnits X s s' := keepsUnits_putRing s k _
  exact .ite (fun _ => (hput.trans (keepsUnits_putIntake ..)).trans (keepsUnits_noteStall _)) fun _ => hput

theorem keepsUnits_moveRing (s : State) (k old new : Nat) : KeepsUnits X s (moveRing s k old new) := by
  unfold moveRing
  refine .ite (fun _ => .refl X s) fun _ => ?_
  exact ((((keepsUnits_dropTake s k).trans (keepsUnits_putIntake ..)).trans (keepsUnits_putIntake ..)).trans
    (keepsUnits_setEvent ..)).trans (keepsUnits_setEvent ..)

theorem keepsUnits_rebind (s : State) (i : Nat) : KeepsUnits X s (rebind s i) := by
  unfold rebind
  split
  · exact .refl X s
  · refine .foldl (fun s e _ => ?_) s
    split
    · exact .refl X s
    · exact (keepsUnits_moveRing ..).trans (keepsUnits_putRing ..)

theorem keepsUnits_putInst (s : State) (i : Nat) (x : Inst) : KeepsUnits X s (putInst s i x) :=
  .of_units_eq (putInst_ev (.refl s)) rfl rfl

theorem keepsUnits_mendShare (s : State) (i : Nat) : KeepsUnits X s (mendShare s i) := by
  unfold mendShare
  refine .ite (fun _ => ?_) fun _ => .refl X s
  split
  · exact .refl X s
  · exact (keepsUnits_putInst ..).trans (keepsUnits_setEvent ..)

theorem keepsUnits_rebindAll (s : State) : KeepsUnits X s (rebindAll s) :=
  .foldl (fun s i _ => (keepsUnits_mendShare s i).trans (keepsUnits_rebind _ i)) s

/-! ### The kept line settings, cores and lines -/

theorem keepsUnits_storePut (s : State) (type item : Nat) (x : StorePayload) : KeepsUnits X s (storePut s type item x) := by
  have hready : KeepsUnits X s (storeReady s) := by
    refine .of_units_eq (storeReady_ev (.refl s)) ?_ ?_
    all_goals
      unfold storeReady
      split <;> rfl
  unfold storePut
  refine .ite (fun _ => .refl X s) fun _ => ?_
  extract_lets s' f it
  have hflash (n : Nat) (g : Flash) : KeepsUnits X s' { s' with fresh := n, flash := g } :=
    .of_units_eq (.upd (.refl s')) rfl rfl
  exact (hready.trans (hflash _ _)).trans (.ite (fun _ => keepsUnits_setEvent ..) fun _ => .refl X _)

theorem keepsUnits_keepEnable (s : State) (p : Nat) : KeepsUnits X s (keepEnable s p) := by
  unfold keepEnable keepLines
  refine .ite (fun _ => ?_) fun _ => .refl X s
  split
  · exact .refl X s
  · exact keepsUnits_storePut ..

theorem keepsUnits_putCore (s : State) (p : Nat) (c : Core) : KeepsUnits X s (putCore s p c) :=
  .of_units_eq (putCore_ev (.refl s)) rfl rfl

theorem keepsUnits_noteCtrl (old : UnitHdr) (s : State) (p : Nat) : KeepsUnits X s (noteCtrl old s p) := by
  unfold noteCtrl
  exact .ite (fun _ => .refl X s) fun _ => .foldl (fun s q _ => keepsUnits_putCore s q _) s

theorem keepsUnits_putPortN (s : State) (n : Nat) (x : Port) : KeepsUnits X s (putPortN s n x) :=
  .of_units_eq (putPortN_ev (.refl s)) rfl rfl

theorem linesAfter_of_no_line_up (h : ∀ m, (lineAt s m).lstate ≠ .up) (t : State) : linesAfter s t = t := by
  have hlost : ((List.range 64).filter fun m => decide ((lineAt s m).lstate = .up ∧ (lineAt t m).lstate ≠ .up ∧
      (unitAt t (linePage m)).state ≠ .running)) = [] :=
    List.filter_eq_nil_iff.mpr fun m _ hm => h m (of_decide_eq_true hm).1
  rw [linesAfter, hlost]
  rfl

/-! ### The tree of pages -/

theorem lt_of_mem_childrenOf {p q : Nat} (h : q ∈ childrenOf p) : p < q := by
  unfold childrenOf at h
  split at h
  · rename_i hp
    rw [hp]
    exact (show ∀ q ∈ rootChildren, 0 < q by decide) q h
  · split at h
    · obtain ⟨j, -, rfl⟩ := List.mem_map.mp h
      simp only [chanPage]
      omega
    · split at h
      · obtain ⟨j, -, rfl⟩ := List.mem_map.mp h
        simp only [chanPage]
        omega
      · split at h
        · obtain ⟨j, -, rfl⟩ := List.mem_map.mp h
          omega
        · split at h
          · obtain ⟨j, -, rfl⟩ := List.mem_map.mp h
            simp only [linePage]
            omega
          · split at h
            · obtain ⟨j, -, rfl⟩ := List.mem_map.mp h
              simp only [instPage]
              omega
            · cases h

theorem lt_of_mem_descendants {p q : Nat} (h : q ∈ descendants p) : p < q := by
  obtain ⟨a, ha, hq⟩ := List.mem_flatMap.mp h
  have hpa := lt_of_mem_childrenOf ha
  rcases List.mem_cons.mp hq with rfl | hq
  · exact hpa
  obtain ⟨b, hb, hq⟩ := List.mem_flatMap.mp hq
  have hab := lt_of_mem_childrenOf hb
  rcases List.mem_cons.mp hq with rfl | hq
  · exact hpa.trans hab
  · exact (hpa.trans hab).trans (lt_of_mem_childrenOf hq)

theorem self_notMem_descendants (p : Nat) : p ∉ descendants p := fun h => Nat.lt_irrefl p (lt_of_mem_descendants h)

theorem descendants_eq_nil {p : Nat} (h : childrenOf p = []) : descendants p = [] := by rw [descendants, h]; rfl

/-! ### Starting -/

theorem keepsUnits_tryStart (s : State) {p : Nat} (hp : X p) : KeepsUnits X s (tryStart s p) := by
  unfold tryStart
  exact .ite (fun _ => .ite (fun _ => (keepsUnits_setUState s hp _).trans (keepsUnits_onStarting ..))
    fun _ => keepsUnits_modUnit s hp _) fun _ => .refl X s

theorem tryStart_of_ready {p : Nat} (hoff : (unitAt s p).state = .off) (henable : (unitAt s p).enable = true)
    (hparent : parentUp s p = true) (hsound : (unitAt s p).permanent = false) :
    tryStart s p = onStarting (setUState s p .starting) p := by
  unfold tryStart
  extract_lets u
  rw [if_pos ⟨hoff, henable⟩, hparent, hsound]
  rfl

theorem tryStart_of_not_ready {p : Nat} (hoff : (unitAt s p).state = .off) (henable : (unitAt s p).enable = true)
    (hnot : parentUp s p = false ∨ (unitAt s p).permanent = true) :
    tryStart s p = modUnit s p fun u => { u with pending := true } := by
  unfold tryStart
  extract_lets u
  rw [if_pos ⟨hoff, henable⟩, if_neg]
  rcases hnot with h | h
  · rw [h]
    exact Bool.false_ne_true
  · rw [h, Bool.not_true, Bool.and_false]
    exact Bool.false_ne_true

theorem tryStart_of_disabled {p : Nat} (henable : (unitAt s p).enable = false) : tryStart s p = s := by
  unfold tryStart
  extract_lets u
  exact if_neg fun h => Bool.false_ne_true (henable.symm.trans h.2)

theorem keepsUnits_beginQuiesce (s : State) {p : Nat} (hp : X p) : KeepsUnits X s (beginQuiesce s p) := by
  unfold beginQuiesce
  exact .ite (fun _ => .ite (fun _ => keepsUnits_modUnit s hp _) fun _ => keepsUnits_setUState s hp _) fun _ => .refl X s

theorem keepsUnits_tryRun (s : State) {p : Nat} (hp : X p) : KeepsUnits X s (tryRun s p) := by
  unfold tryRun
  exact .ite (fun _ => .refl X s) fun _ => .ite (fun _ => keepsUnits_setUState s hp _) fun _ => keepsUnits_modUnit s hp _

theorem keepsUnits_wakeChild (s : State) {p : Nat} (hp : X p) : KeepsUnits X s (wakeChild s p) := by
  unfold wakeChild
  split
  · exact keepsUnits_tryStart s hp
  · split
    · exact .ite (fun _ => keepsUnits_beginQuiesce s hp) fun _ => keepsUnits_tryRun s hp
    · exact .refl X s
  · exact keepsUnits_tryRun s hp
  · exact .refl X s

theorem keepsUnits_wakeBelow (s : State) (p : Nat) : KeepsUnits (· ∈ descendants p) s (wakeBelow s p) :=
  .foldl (fun s _ hq => keepsUnits_wakeChild s hq) s

theorem wakeBelow_of_no_child {p : Nat} (h : childrenOf p = []) (s : State) : wakeBelow s p = s := by
  rw [wakeBelow, descendants_eq_nil h]
  rfl

/-! ### Stopping -/

/-- The state of a unit that is told to stop (R102). -/
def stopped : UState → UState
  | .starting | .running | .quiesced => .stopping
  | st => st

theorem stopped_stopped (st : UState) : stopped (stopped st) = stopped st := by cases st <;> rfl

/-- A header after the unit, or one above it, has been told to stop: the state follows, the enable bits stay. -/
structure StoppedFrom (u v : UnitHdr) : Prop where
  state : v.state = stopped u.state
  enable : v.enable = u.enable
  isPending : v.pending = u.pending
  retiring : v.retiring = u.retiring

theorem StoppedFrom.congr {u v w x : UnitHdr} (h : StoppedFrom v w) (hu : MoreEvents u v) (hw : MoreEvents w x) : StoppedFrom u x where
  state := by rw [hw.state, h.state, hu.state]
  enable := by rw [hw.enable, h.enable, hu.enable]
  isPending := by rw [hw.isPending, h.isPending, hu.isPending]
  retiring := by rw [hw.retiring, h.retiring, hu.retiring]

theorem StoppedFrom.trans {u v w : UnitHdr} (h : StoppedFrom u v) (k : StoppedFrom v w) : StoppedFrom u w where
  state := by rw [k.state, h.state, stopped_stopped]
  enable := k.enable.trans h.enable
  isPending := k.isPending.trans h.isPending
  retiring := k.retiring.trans h.retiring

theorem keepsUnits_stopOne (s : State) {p : Nat} (hp : X p) : KeepsUnits X s (stopOne s p) := by
  unfold stopOne
  split
  · exact keepsUnits_setUState s hp _
  · exact keepsUnits_setUState s hp _
  · exact keepsUnits_setUState s hp _
  · exact .refl X s

theorem stoppedFrom_setUState (hs : TablesCanonical s) {p : Nat} (h : stopped (unitAt s p).state = .stopping)
    (hne : (unitAt s p).state ≠ .stopping) : StoppedFrom (unitAt s p) (unitAt (setUState s p .stopping) p) := by
  obtain ⟨hmore, -⟩ := unitAt_setUState hs hne
  exact ⟨hmore.state.trans h.symm, hmore.enable, hmore.isPending, hmore.retiring⟩

theorem unitAt_stopOne (hs : TablesCanonical s) (p : Nat) : StoppedFrom (unitAt s p) (unitAt (stopOne s p) p) := by
  cases h : (unitAt s p).state with
  | starting | running | quiesced =>
    simp only [stopOne, h]
    exact stoppedFrom_setUState hs (by rw [h]; rfl) (by rw [h]; decide)
  | off | stopping | faulted | retired =>
    simp only [stopOne, h]
    exact ⟨by rw [h]; rfl, rfl, rfl, rfl⟩

theorem keepsUnits_stopOnes (l : List Nat) (s : State) : KeepsUnits (· ∈ l) s (l.foldl stopOne s) :=
  .foldl (fun s _ hq => keepsUnits_stopOne s hq) s

theorem unitAt_stopOnes (l : List Nat) {s : State} (hs : TablesCanonical s) {q : Nat} (hq : q ∈ l) :
    StoppedFrom (unitAt s q) (unitAt (l.foldl stopOne s) q) := by
  induction l generalizing s with
  | nil => cases hq
  | cons a l ih =>
    have hone : KeepsUnits (· = a) s (stopOne s a) := keepsUnits_stopOne s rfl
    have hrest := keepsUnits_stopOnes l (stopOne s a)
    by_cases ha : q = a
    · subst ha
      have hfirst := unitAt_stopOne hs q
      by_cases hl : q ∈ l
      · exact hfirst.trans (ih (hone.tables hs) hl)
      · exact hfirst.congr (.refl _) (hrest.headers (hone.tables hs) q hl)
    · have hl : q ∈ l := (List.mem_cons.mp hq).resolve_left ha
      exact (ih (hone.tables hs) hl).congr (hone.headers hs q ha) (.refl _)

theorem stopTree_eq (s : State) (p : Nat) : stopTree s p = (p :: descendants p).foldl stopOne s := rfl

/-! ### Resting -/

theorem keepsUnits_onOff (s : State) (p : Nat) : KeepsUnits X s (onOff s p) := by
  have hlines (b : Bridle) : KeepsUnits X s { s with bridle := b } := .of_units_eq (.upd (.refl s)) rfl rfl
  unfold onOff
  refine .ite (fun _ => hlines _) fun _ => .ite (fun _ => ?_) fun _ => .refl X s
  extract_lets q s'
  have hport : KeepsUnits X s s' := keepsUnits_putPortN s (p - 1) _
  exact .ite (fun _ => hport.trans (keepsUnits_setEvent ..)) fun _ => hport

end

end Sys2Proof.Machine

/-! PROOF. Enabling, disabling, starting and draining a unit (R86, R102, R103). -/

namespace Sys2Proof.Machine

section
variable {s : State} {acc : Acc} {p : Nat}

theorem parentOf_ne {q : Nat} (h : parentOf p = some q) : q ≠ p := by
  unfold parentOf at h
  split at h
  · rename_i hchan
    simp only [isChanPage, decide_eq_true_eq] at hchan
    split at h
    · split at h <;> cases h <;> omega
    · cases h
      simp only [slotOf, chanPage, chanOf] at *
      omega
  · split at h
    · cases h
      omega
    · split at h
      · cases h
        omega
      · split at h
        · cases h
        · cases h
          omega

theorem parentUp_modUnit (s : State) (p : Nat) (f : UnitHdr → UnitHdr) : parentUp (modUnit s p f) p = parentUp s p := by
  unfold parentUp
  split
  · rfl
  · rw [unitAt_modUnit_ne s f (parentOf_ne ‹_›)]

/-! ### UNIT_CTRL.ENABLE = 1 -/

theorem keepsUnits_writeEnable1 (s : State) (p : Nat) : KeepsUnits (· = p) s (writeEnable1 s p) := by
  have hmod (f : UnitHdr → UnitHdr) : KeepsUnits (· = p) s (modUnit s p f) := keepsUnits_modUnit_self s p f
  unfold writeEnable1
  extract_lets u
  split
  · exact .refl _ s
  · exact (hmod _).trans (keepsUnits_tryStart _ rfl)
  · exact hmod _
  · exact hmod _

theorem writeEnable1_of_off (h : (unitAt s p).state = .off) :
    writeEnable1 s p = tryStart (modUnit s p fun u => { u with enable := true }) p := by
  simp only [writeEnable1, h]

theorem writeEnable1_of_stopping (h : (unitAt s p).state = .stopping) :
    writeEnable1 s p = modUnit s p fun u => { u with enable := true, pending := true } := by
  simp only [writeEnable1, h]

theorem writeEnable1_of_retired (h : (unitAt s p).state = .retired) : writeEnable1 s p = s := by
  simp only [writeEnable1, h]

theorem writeEnable1_of_on (h : (unitAt s p).state = .starting ∨ (unitAt s p).state = .running ∨
    (unitAt s p).state = .quiesced ∨ (unitAt s p).state = .faulted) :
    writeEnable1 s p = modUnit s p fun u => { u with enable := true } := by
  rcases h with h | h | h | h <;> simp only [writeEnable1, h]

theorem unitAt_writeEnable1_of_ready (hs : TablesCanonical s) (hoff : (unitAt s p).state = .off)
    (hparent : parentUp s p = true) (hsound : (unitAt s p).permanent = false) :
    MoreEvents (restated .starting { unitAt s p with enable := true }) (unitAt (writeEnable1 s p) p) := by
  have hunit := unitAt_modUnit hs p fun u => { u with enable := true }
  have hmod : KeepsUnits (· = p) s (modUnit s p fun u => { u with enable := true }) := keepsUnits_modUnit_self s p _
  rw [writeEnable1_of_off hoff, tryStart_of_ready (by rw [hunit]; exact hoff) (by rw [hunit])
    (by rw [parentUp_modUnit]; exact hparent) (by rw [hunit]; exact hsound)]
  have hset := unitAt_setUState (p := p) (st := .starting) (hmod.tables hs) (by rw [hunit]; simp only [hoff]; decide)
  rw [hunit] at hset
  have hkeep  := keepsUnits_setUState_self (modUnit s p fun u => { u with enable := true }) p .starting
  exact hset.1.trans ((keepsUnits_onStarting (X := fun _ => False) _ p).headers (hkeep.tables (hmod.tables hs)) p id)

theorem unitAt_writeEnable1_of_not_ready (hs : TablesCanonical s) (hoff : (unitAt s p).state = .off)
    (hnot : parentUp s p = false ∨ (unitAt s p).permanent = true) :
    unitAt (writeEnable1 s p) p = { unitAt s p with enable := true, pending := true } := by
  have hunit := unitAt_modUnit hs p fun u => { u with enable := true }
  have hmod : KeepsUnits (· = p) s (modUnit s p fun u => { u with enable := true }) := keepsUnits_modUnit_self s p _
  rw [writeEnable1_of_off hoff, tryStart_of_not_ready (by rw [hunit]; exact hoff) (by rw [hunit])
    (by rw [parentUp_modUnit, hunit]; exact hnot), unitAt_modUnit (hmod.tables hs), hunit]

theorem exec_unitEnable (hctrl : ctrlWrite s acc p = true) : exec (.unitEnable acc p) s =
    .next (rebindAll (noteCtrl (unitAt s p) (keepEnable (writeEnable1 s p) p) p)) := by
  change execUnitEnable acc p s = _
  rw [execUnitEnable, if_pos hctrl]

/-- What follows a write of ENABLE changes no header but for event bits. -/
theorem keepsUnits_afterEnable (old : UnitHdr) (a : State) (p : Nat) :
    KeepsAllUnits a (rebindAll (noteCtrl old (keepEnable a p) p)) :=
  ((keepsUnits_keepEnable a p).trans (keepsUnits_noteCtrl ..)).trans (keepsUnits_rebindAll _)

/-! ### UNIT_CTRL.ENABLE = 0 -/

theorem writeEnable0_eq (h : (unitAt s p).state ≠ .retired) : writeEnable0 s p =
    (p :: descendants p).foldl stopOne (modUnit s p fun u => { u with enable := false, pending := false }) := by
  rw [writeEnable0, if_neg h, stopTree_eq]

theorem exec_unitDisable (hctrl : ctrlWrite s acc p = true) (hlines : ∀ m, (lineAt s m).lstate ≠ .up) :
    exec (.unitDisable acc p) s =
      .next (noteCtrl (unitAt s p) (keepEnable (rebindAll (writeEnable0 s p)) p) p) := by
  change execUnitDisable acc p s = _
  rw [execUnitDisable, if_pos hctrl, linesAfter_of_no_line_up hlines]

theorem keepsUnits_afterDisable (old : UnitHdr) (a : State) (p : Nat) :
    KeepsAllUnits a (noteCtrl old (keepEnable (rebindAll a) p) p) :=
  ((keepsUnits_rebindAll a).trans (keepsUnits_keepEnable ..)).trans (keepsUnits_noteCtrl ..)

theorem stopped_of_active {st : UState} (h : st = .starting ∨ st = .running ∨ st = .quiesced) : stopped st = .stopping := by
  rcases h with rfl | rfl | rfl <;> rfl

theorem stopped_of_inactive {st : UState} (h : st = .off ∨ st = .stopping ∨ st = .faulted ∨ st = .retired) :
    stopped st = st := by
  rcases h with rfl | rfl | rfl | rfl <;> rfl

end

/-- Settles O13: what follows the write changes event bits alone, and the write itself is one change of state of the unit
(ENABLE = 1) or a stop of every page of its tree (ENABLE = 0). -/
theorem unitEnableAndDisable : Obligations.UnitEnableAndDisable := by
  constructor
  · intro acc p s hs hctrl
    have htab := hs.tables
    have hkeep := keepsUnits_writeEnable1 s p
    have hafter := keepsUnits_afterEnable (unitAt s p) (writeEnable1 s p) p
    have hp := hafter.headers (hkeep.tables htab) p id
    refine ⟨_, exec_unitEnable hctrl, fun q hq => (hkeep.trans hafter.of_all).headers htab q hq,
      fun hoff hparent hsound => ?_, fun hoff hnot => ?_, fun hst => ?_, fun hst => ?_, fun hst => ?_⟩
    · have hmore := (unitAt_writeEnable1_of_ready htab hoff hparent hsound).trans hp
      exact ⟨hmore.state, hmore.enable, hmore.isPending⟩
    · rw [unitAt_writeEnable1_of_not_ready htab hoff hnot] at hp
      exact ⟨hp.state.trans hoff, hp.enable, hp.isPending⟩
    · rw [writeEnable1_of_stopping hst] at hp ⊢
      rw [unitAt_modUnit htab] at hp
      exact ⟨hp.state.trans hst, hp.enable, hp.isPending⟩
    · rw [writeEnable1_of_on hst] at hp ⊢
      rw [unitAt_modUnit htab] at hp
      exact ⟨hp.state, hp.enable⟩
    · rw [writeEnable1_of_retired hst] at hp ⊢
      exact hp
  · intro acc p s hs hctrl hlines hret
    have htab := hs.tables
    have hmod : KeepsUnits (· = p) s (modUnit s p fun u => { u with enable := false, pending := false }) :=
      keepsUnits_modUnit_self s p _
    have hunit := unitAt_modUnit htab p fun u => { u with enable := false, pending := false }
    have hstop := keepsUnits_stopOnes (p :: descendants p) (modUnit s p fun u => { u with enable := false, pending := false })
    have hafter := keepsUnits_afterDisable (unitAt s p) (writeEnable0 s p) p
    rw [writeEnable0_eq hret] at hafter
    have htab' := hstop.tables (hmod.tables htab)
    have hself := (unitAt_stopOnes (p :: descendants p) (hmod.tables htab) (by simp : p ∈ p :: descendants p)).congr
      (.refl _) (hafter.headers htab' p id)
    have hstate (q : Nat) (hq : q = p ∨ q ∈ descendants p) :
        (unitAt (noteCtrl (unitAt s p) (keepEnable (rebindAll ((p :: descendants p).foldl stopOne
          (modUnit s p fun u => { u with enable := false, pending := false }))) p) p) q).state = stopped (unitAt s q).state := by
      have hst := ((unitAt_stopOnes (p :: descendants p) (hmod.tables htab) (List.mem_cons.mpr hq)).congr
        (.refl _) (hafter.headers htab' q id)).state
      by_cases hqp : q = p
      · rw [hst, hqp, hunit]
      · rw [hst, unitAt_modUnit_ne s _ hqp]
    rw [hunit] at hself
    refine ⟨_, exec_unitDisable hctrl hlines, ?_⟩
    rw [writeEnable0_eq hret]
    refine ⟨hself.enable, hself.isPending, fun q hq h => ?_, fun q hq h => ?_, fun q hqp hqd => ?_⟩
    · rw [hstate q hq, stopped_of_active h]
    · rw [hstate q hq, stopped_of_inactive h]
    · exact ((hmod.headers htab q hqp).trans (hstop.headers (hmod.tables htab) q
        fun h => (List.mem_cons.mp h).elim hqp hqd)).trans (hafter.headers htab' q id)

/-! ### A start and a drain that complete -/

section
variable {s : State} {p : Nat}

theorem startComplete_eq {q : Nat} (hst : (unitAt s p).state = .starting) (hparent : parentOf p = some q)
    (hline : kindOf p ≠ 0x10 ∨ p = 0x020) (hport : kindOf p ≠ 0x11)
    (hsail : (kindOf p = 0x05 ∨ kindOf p = 0x06) → (tget {} s.sails p).estate ≠ .wiping) :
    startComplete s p = wakeBelow (setUState s p
      (if (unitAt s p).quiesce ∨ (unitAt s q).state = .quiesced then .quiesced else .running)) p := by
  unfold startComplete
  extract_lets u quiet
  have hguard : ¬(u.state ≠ .starting ∨ kindOf p = 0x11 ∨ (kindOf p = 0x10 ∧ p ≠ 0x020) ∨
      ((kindOf p = 0x05 ∨ kindOf p = 0x06) ∧ (tget {} s.sails p).estate = .wiping)) := by
    rintro (h | h | h | h)
    · exact h hst
    · exact hport h
    · exact hline.elim (fun hk => hk h.1) h.2
    · exact hsail h.1 h.2
  rw [if_neg hguard]
  simp only [quiet, u, hparent, Bool.or_eq_true, decide_eq_true_eq]

theorem exec_unitStartComplete (p : Nat) (s : State) :
    exec (.unitStartComplete p) s = .next (rebindAll (startComplete s p)) := rfl

theorem exec_unitDrainComplete (hlines : ∀ m, (lineAt s m).lstate ≠ .up) :
    exec (.unitDrainComplete p) s = .next (rebindAll (drainComplete s p)) := by
  change execUnitDrainComplete p s = _
  rw [execUnitDrainComplete, linesAfter_of_no_line_up hlines]

theorem restOne_of_disabled (hst : (unitAt s p).state = .stopping) (hidle : workInFlight s p = false)
    (hret : (unitAt s p).retiring = false) (henable : (unitAt s p).enable = false) (hleaf : childrenOf p = []) :
    restOne s p = tryStart (onOff (setUState s p .off) p) p := by
  have hneeds : rootNeeds s p = false := by rw [rootNeeds, henable, Bool.and_false, Bool.false_and]
  unfold restOne
  extract_lets u
  rw [if_pos]
  simp only [u, hst, hidle, hneeds, hret, hleaf]
  rfl

theorem drainComplete_of_stopping (hst : (unitAt s p).state = .stopping) (hleaf : childrenOf p = []) :
    drainComplete s p = restOne s p := by
  unfold drainComplete
  extract_lets u
  rw [if_pos hst, descendants_eq_nil hleaf]
  rfl

theorem drainComplete_of_draining (hst : (unitAt s p).state = .running) (hdrain : (unitAt s p).draining = true)
    (hidle : workInFlight s p = false) (hleaf : childrenOf p = []) : drainComplete s p = setUState s p .quiesced := by
  have hnot : ¬(unitAt s p).state = .stopping := by
    rw [hst]
    decide
  unfold drainComplete
  extract_lets u
  rw [if_neg hnot, show (u.draining && !workInFlight s p) = true by rw [hidle, Bool.not_false, Bool.and_true]; exact hdrain,
    if_pos rfl, quiesceBelow, wakeBelow_of_no_child hleaf, ite_self]

end

/-- Settles O15: each end is one change of state of the unit; the units below follow a start, and what binds the rings again
changes event bits alone. -/
theorem unitStartAndDrainComplete : Obligations.UnitStartAndDrainComplete := by
  constructor
  · intro p q s hs hst hparent hline hport hsail
    have htab := hs.tables
    generalize hto : (if (unitAt s p).quiesce ∨ (unitAt s q).state = .quiesced then UState.quiesced else .running) = st
    have hne : (unitAt s p).state ≠ st := by
      rw [hst, ← hto]
      split <;> decide
    have hkeep : KeepsUnits (fun r => r = p ∨ r ∈ descendants p) s (rebindAll (wakeBelow (setUState s p st) p)) :=
      ((keepsUnits_setUState s (.inl rfl) st).trans ((keepsUnits_wakeBelow _ p).mono fun _ => .inr)).trans
        (keepsUnits_rebindAll _)
    have hrest : KeepsUnits (· ∈ descendants p) (setUState s p st) (rebindAll (wakeBelow (setUState s p st) p)) :=
      (keepsUnits_wakeBelow _ p).trans (keepsUnits_rebindAll _)
    have hset := unitAt_setUState htab hne
    have hself := hrest.headers ((setUState_ev (.refl s)).tables htab) p (self_notMem_descendants p)
    refine ⟨_, exec_unitStartComplete p s, ?_⟩
    rw [startComplete_eq hst hparent hline hport hsail, hto]
    exact ⟨(hset.1.trans hself).state, hself.keepsBit hset.2, fun r hr hd => hkeep.headers htab r fun h => h.elim hr hd⟩
  · intro p s hs hlines hleaf hidle _
    have htab := hs.tables
    refine ⟨fun hst hret henable => ?_, fun hst hdrain => ?_⟩
    · have hset := unitAt_setUState (p := p) (st := .off) htab (by rw [hst]; decide)
      have hkeep : KeepsUnits (· = p) s (setUState s p .off) := keepsUnits_setUState_self s p _
      have hoff : KeepsAllUnits (setUState s p .off) (onOff (setUState s p .off) p) := keepsUnits_onOff _ p
      have hmore := hset.1.trans (hoff.headers (hkeep.tables htab) p id)
      have hafter : KeepsAllUnits (setUState s p .off) (rebindAll (onOff (setUState s p .off) p)) :=
        hoff.trans (keepsUnits_rebindAll _)
      refine ⟨_, exec_unitDrainComplete hlines, ?_⟩
      rw [drainComplete_of_stopping hst hleaf, restOne_of_disabled hst hidle hret henable hleaf,
        tryStart_of_disabled (hmore.enable.trans henable)]
      exact ⟨(hset.1.trans (hafter.headers (hkeep.tables htab) p id)).state,
        fun r hr => (hkeep.trans hafter.of_all).headers htab r hr⟩
    · have hset := unitAt_setUState (p := p) (st := .quiesced) htab (by rw [hst]; decide)
      have hkeep : KeepsUnits (· = p) s (setUState s p .quiesced) := keepsUnits_setUState_self s p _
      have hafter : KeepsAllUnits (setUState s p .quiesced) (rebindAll (setUState s p .quiesced)) := keepsUnits_rebindAll _
      have hmore := hset.1.trans (hafter.headers (hkeep.tables htab) p id)
      refine ⟨_, exec_unitDrainComplete hlines, ?_⟩
      rw [drainComplete_of_draining hst hdrain hidle hleaf]
      exact ⟨hmore.state, hmore.draining, fun r hr => (hkeep.trans hafter.of_all).headers htab r hr⟩

end Sys2Proof.Machine

/-! PROOF. Writes of the fault, event and lock registers, the management message and the retirement of a bridle line (R87,
R89, R94 to R98, R674 to R679). -/

namespace Sys2Proof.Machine

/-! ### The management message (R96) -/

section
variable {s : State} {acc : Acc} {p : Nat}

theorem noteRoot_of_becomes_raised (h : rootRaised s = true) (hsent : s.rootSent = false) :
    noteRoot s = { sendManagement s with rootSent := true } := by
  simp only [noteRoot, h, hsent]
  rfl

theorem noteRoot_of_stays_raised (h : rootRaised s = true) (hsent : s.rootSent = true) : noteRoot s = s := by
  rw [noteRoot, h, hsent]
  exact congrArg (fun b => { s with rootSent := b }) hsent.symm

theorem noteRoot_of_not_raised (h : rootRaised s = false) : noteRoot s = { s with rootSent := false } := by
  rw [noteRoot, h]
  rfl

theorem afterEventWrite_of_raised (h : rootRaised s = true) :
    afterEventWrite s 0 = { sendManagement s with rootSent := true } := if_pos ⟨rfl, h⟩

theorem sendMsix_of_unmasked {func entry : Nat} (h : (msixAt s func entry).masked = false) :
    sendMsix s func entry = emit s (.msix func entry (msixAt s func entry).addr (msixAt s func entry).data) := by
  rw [sendMsix, h]
  rfl

/-- A masked entry holds the message (R169). -/
theorem sendMsix_of_masked {func entry : Nat} (h : (msixAt s func entry).masked = true) : sendMsix s func entry =
    { s with msix := tset {} s.msix (32 * func + entry) { msixAt s func entry with pending := true } } := if_pos h

theorem sendManagement_of_unmasked (h0 : (msixAt s 1024 0).masked = false) (h1 : (msixAt s 1025 0).masked = false) :
    sendManagement s = { s with out := s.out ++
      [.msix 1024 0 (msixAt s 1024 0).addr (msixAt s 1024 0).data, .msix 1025 0 (msixAt s 1025 0).addr (msixAt s 1025 0).data] } := by
  rw [sendManagement, show sendMsix s (pfFunc 0) 0 = _ from sendMsix_of_unmasked h0]
  refine (sendMsix_of_unmasked ?_).trans ?_
  · exact h1
  rw [emit, emit, List.append_assoc]
  rfl

/-- What one function's message leaves of another function's entry. -/
theorem msixAt_sendMsix_ne (s : State) {f g e d : Nat} (h : 32 * g + d ≠ 32 * f + e) :
    msixAt (sendMsix s f e) g d = msixAt s g d := by
  cases hm : (msixAt s f e).masked with
  | true =>
    rw [sendMsix_of_masked hm]
    exact tget_tset_ne _ _ _ _ h
  | false =>
    rw [sendMsix_of_unmasked hm]
    rfl

theorem sendManagement_of_masked (h : (msixAt s 1024 0).masked = true) :
    (msixAt (sendManagement s) 1024 0).pending = true := by
  rw [sendManagement, msixAt_sendMsix_ne _ (by decide), show sendMsix s (pfFunc 0) 0 = _ from sendMsix_of_masked h]
  have hne : ({ msixAt s 1024 0 with pending := true } : MsixEntry) ≠ {} := fun he =>
    Bool.false_ne_true (congrArg MsixEntry.pending he).symm
  exact congrArg MsixEntry.pending (tget_tset_new _ _ _ hne _)

theorem sendMsix_frame (s : State) (f e : Nat) :
    sendMsix s f e = { s with msix := (sendMsix s f e).msix, out := (sendMsix s f e).out } := by
  rw [sendMsix]
  split <;> rfl

theorem sendManagement_frame (s : State) :
    sendManagement s = { s with msix := (sendManagement s).msix, out := (sendManagement s).out } := by
  rw [sendManagement, sendMsix_frame (sendMsix s (pfFunc 0) 0), sendMsix_frame s]

/-! ### The registers of a unit header (R87, R94, R98) -/

theorem afterEventWrite_frame (s : State) (p : Nat) : afterEventWrite s p = { s with
    msix := (afterEventWrite s p).msix, out := (afterEventWrite s p).out, rootSent := (afterEventWrite s p).rootSent } := by
  have hsent := congrArg (fun t => { t with rootSent := true }) (sendManagement_frame s)
  unfold afterEventWrite
  split
  · exact hsent
  · unfold noteRoot
    extract_lets r
    split
    · exact hsent
    · rfl

theorem unitAt_afterEventWrite (s : State) (p q : Nat) : unitAt (afterEventWrite s p) q = unitAt s q := by
  rw [afterEventWrite_frame]
  rfl

theorem exec_faultClear (h : headerWrite s acc p = true) : exec (.faultClear acc p) s = .next (writeFaultClear s p) := by
  change execFaultClear acc p s = _
  rw [execFaultClear, if_pos h]

theorem exec_unitEventClear (h : headerWrite s acc p = true) (v : Word32) :
    exec (.unitEventClear acc p v) s = .next (writeEvent s p v) := by
  change execUnitEventClear acc p v s = _
  rw [execUnitEventClear, if_pos h]

theorem exec_unitEventEnWrite (h : headerWrite s acc p = true) (v : Word32) :
    exec (.unitEventEnWrite acc p v) s = .next (writeEventEn s p v) := by
  change execUnitEventEnWrite acc p v s = _
  rw [execUnitEventEnWrite, if_pos h]

theorem exec_unitLockSet (h : headerWrite s acc p = true) : exec (.unitLockSet acc p) s = .next (writeLock s p) := by
  change execUnitLockSet acc p s = _
  rw [execUnitLockSet, if_pos h]

theorem exec_headerWrites_of_unreached (h : headerWrite s acc p = false) (v : Word32) :
    exec (.faultClear acc p) s = .next s ∧ exec (.unitEventClear acc p v) s = .next s ∧
      exec (.unitEventEnWrite acc p v) s = .next s ∧ exec (.unitLockSet acc p) s = .next s := by
  change execFaultClear acc p s = _ ∧ execUnitEventClear acc p v s = _ ∧ execUnitEventEnWrite acc p v s = _ ∧
    execUnitLockSet acc p s = _
  rw [execFaultClear, execUnitEventClear, execUnitEventEnWrite, execUnitLockSet, h]
  exact ⟨rfl, rfl, rfl, rfl⟩

/-- A write of an event register changes one header, and may send the management message. -/
theorem eventWrite_spec (hs : TablesCanonical s) (p : Nat) (f : UnitHdr → UnitHdr) {t : State}
    (ht : t = afterEventWrite (modUnit s p f) p) :
    unitAt t p = f (unitAt s p) ∧ (∀ q, q ≠ p → unitAt t q = unitAt s q) ∧
      t = { s with units := t.units, msix := t.msix, out := t.out, rootSent := t.rootSent } := by
  subst ht
  refine ⟨by rw [unitAt_afterEventWrite, unitAt_modUnit hs], fun q hq => ?_, ?_⟩
  · rw [unitAt_afterEventWrite, unitAt_modUnit_ne _ _ hq]
  · rw [afterEventWrite_frame]
    rfl

/-! ### A transient fault (R87, R94, R661) -/

theorem unitAt_transientFault (hs : TablesCanonical s) (p cause : Nat) : unitAt (transientFault s p cause) p =
    { unitAt s p with
      transient := sat 255 ((unitAt s p).transient + 1), lastCause := cause
      event := (unitAt s p).event ||| BitVec.ofNat 32 (2 ^ 1) } := by
  rw [transientFault, unitAt_setEvent ((modUnit_ev (.refl s)).tables hs), unitAt_modUnit hs]

theorem unitAt_transientFault_ne {q : Nat} (hq : q ≠ p) (cause : Nat) : unitAt (transientFault s p cause) q = unitAt s q := by
  rw [transientFault, unitAt_setEvent_ne _ _ hq, unitAt_modUnit_ne _ _ hq]

/-- A corrected error is counted and goes no further. -/
theorem exec_transientFault_corrected (hkind : kindOf p ≠ 0) :
    exec (.transientFault p 1 0) s = .next (transientFault s p 1) := by
  have hcharge : charge s p 1 = transientFault s p 1 := by
    rw [charge, if_neg fun h => h.2 rfl]
  change execTransientFault p 1 0 s = _
  have hcause : ¬(0x040 ≤ p ∧ p < 0x080 ∧ (1 : Nat) = 5) := by omega
  have hguard : ¬(kindOf p = 0 ∨ (1 : Nat) = 0 ∨ (6 : Nat) < 1) := by omega
  rw [execTransientFault, if_neg hcause, takeFault, if_neg hguard, hcharge]
  rfl

end

/-- Settles O16: each write is one change of one header; a corrected error is `transientFault` and nothing else. -/
theorem unitFaultEventAndLockWrites : Obligations.UnitFaultEventAndLockWrites := by
  constructor
  · intro acc p v s hs
    have htab := hs.tables
    refine ⟨fun h => ⟨?_, ?_, ?_, ?_⟩, fun h => exec_headerWrites_of_unreached h v⟩
    · exact ⟨_, exec_faultClear h, unitAt_modUnit htab .., fun q hq => unitAt_modUnit_ne _ _ hq, rfl⟩
    · exact ⟨_, exec_unitEventClear h v, eventWrite_spec htab p _ rfl⟩
    · exact ⟨_, exec_unitEventEnWrite h v, eventWrite_spec htab p _ rfl⟩
    · exact ⟨_, exec_unitLockSet h, unitAt_modUnit htab .., fun q hq => unitAt_modUnit_ne _ _ hq, rfl⟩
  · intro p s hs hkind
    have hp := unitAt_transientFault hs.tables p 1
    refine ⟨_, exec_transientFault_corrected hkind, by rw [hp], by rw [hp], ?_, by rw [hp],
      fun q hq => unitAt_transientFault_ne hq 1, ?_⟩
    · rw [hp]
      simp only [BitVec.getLsbD_or]
      rw [show (BitVec.ofNat 32 (2 ^ 1)).getLsbD 1 = true from by decide, Bool.or_true]
    · rw [transientFault, setEvent_jobs, modUnit_jobs]

/-! ### The retirement of a bridle line (R89, R90, R674 to R679) -/

section
variable {s : State} {acc : Acc} {m : Nat}

theorem kindOf_linePage (hm : m < 64) : kindOf (linePage m) = 0x10 := by
  have hchan : isChanPage (linePage m) = false := decide_eq_false (by simp only [linePage]; omega)
  have hinst : ¬(0x400 ≤ linePage m ∧ linePage m < 0x800) := by simp only [linePage]; omega
  have hline : 0x040 ≤ linePage m ∧ linePage m < 0x080 := by simp only [linePage]; omega
  unfold kindOf
  rw [hchan, if_neg Bool.false_ne_true, if_neg hinst, if_pos hline]

theorem linePage_ne (hm : m < 64) : linePage m ≠ 0x020 := by simp only [linePage]; omega

theorem childrenOf_linePage (hm : m < 64) : childrenOf (linePage m) = [] := by
  have hchan : isChanPage (linePage m) = false := decide_eq_false (by simp only [linePage]; omega)
  have hne (k : Nat) (hk : k < 0x040 ∨ 0x080 ≤ k) : linePage m ≠ k := by simp only [linePage]; omega
  have hslot : ¬(isChanPage (linePage m) = true ∧ slotOf (linePage m) = 0) := by
    rw [hchan]
    exact fun h => Bool.false_ne_true h.1
  rw [childrenOf, if_neg (hne 0 (by decide)), if_neg (hne 0x090 (by decide)), if_neg (hne 0x091 (by decide)), if_neg hslot,
    if_neg (hne 0x020 (by decide)), if_neg (hne 0x084 (by decide))]

theorem stopTree_of_no_child {p : Nat} (h : childrenOf p = []) (s : State) : stopTree s p = stopOne s p := by
  rw [stopTree, descendants_eq_nil h]
  rfl

theorem exec_retireRequest (hlines : ∀ j, (lineAt s j).lstate ≠ .up) {p : Nat} (h : headerWrite s acc p = true) :
    exec (.retireRequest acc p) s = .next (rebindAll (requestRetire s p)) := by
  change execRetireRequest acc p s = _
  rw [execRetireRequest, linesAfter_of_no_line_up hlines, if_pos h]

theorem requestRetire_linePage (hm : m < 64) : requestRetire s (linePage m) = writeRetire s (linePage m) := by
  have hkind : ¬kindOf (linePage m) = 0x03 := by
    rw [kindOf_linePage hm]
    decide
  unfold requestRetire
  extract_lets was t
  rw [if_neg fun h => hkind h.1]

/-- The header of a unit that is asked to retire, before it stops. -/
def askedToRetire (u : UnitHdr) : UnitHdr := { u with retiring := true, enable := false, pending := false }

theorem writeRetire_linePage (hm : m < 64) (hlock : (unitAt s (linePage m)).lock = false)
    (hst : (unitAt s (linePage m)).state = .off ∨ (unitAt s (linePage m)).state = .starting ∨
      (unitAt s (linePage m)).state = .running ∨ (unitAt s (linePage m)).state = .quiesced ∨
      (unitAt s (linePage m)).state = .stopping) :
    writeRetire s (linePage m) = if (unitAt s (linePage m)).state = .off
      then setUState (modUnit s (linePage m) askedToRetire) (linePage m) .stopping
      else stopOne (modUnit s (linePage m) askedToRetire) (linePage m) := by
  have hkind : kindOf (linePage m) = 0x03 ∨ (kindOf (linePage m) = 0x10 ∧ linePage m ≠ 0x020) :=
    .inr ⟨kindOf_linePage hm, linePage_ne hm⟩
  unfold writeRetire
  extract_lets u
  rw [if_neg (show ¬u.lock = true by rw [hlock]; exact Bool.false_ne_true), if_pos hkind]
  have htree := stopTree_of_no_child (childrenOf_linePage hm) (modUnit s (linePage m) askedToRetire)
  rcases hst with h | h | h | h | h
  · simp only [u, h]
    rfl
  all_goals
    simp only [u, h]
    exact htree

/-- A line that is asked to retire is STOPPING (R102). -/
theorem unitAt_writeRetire_linePage (hs : TablesCanonical s) (hm : m < 64) (hlock : (unitAt s (linePage m)).lock = false)
    (hst : (unitAt s (linePage m)).state = .off ∨ (unitAt s (linePage m)).state = .starting ∨
      (unitAt s (linePage m)).state = .running ∨ (unitAt s (linePage m)).state = .quiesced ∨
      (unitAt s (linePage m)).state = .stopping) :
    KeepsUnits (· = linePage m) s (writeRetire s (linePage m)) ∧
      (unitAt (writeRetire s (linePage m)) (linePage m)).state = .stopping ∧
      (unitAt (writeRetire s (linePage m)) (linePage m)).retiring = true ∧
      (unitAt (writeRetire s (linePage m)) (linePage m)).enable = false := by
  have hmod := keepsUnits_modUnit_self s (linePage m) askedToRetire
  have hunit := unitAt_modUnit hs (linePage m) askedToRetire
  rw [writeRetire_linePage hm hlock hst]
  split
  next hoff =>
    have hset := (unitAt_setUState (st := .stopping) (hmod.tables hs)
      (show (unitAt _ (linePage m)).state ≠ .stopping by rw [hunit, askedToRetire, hoff]; decide)).1
    rw [hunit] at hset
    exact ⟨hmod.trans (keepsUnits_setUState_self ..), hset.state, hset.retiring, hset.enable⟩
  next hon =>
    have hstop := unitAt_stopOne (hmod.tables hs) (linePage m)
    rw [hunit] at hstop
    refine ⟨hmod.trans (keepsUnits_stopOne (X := (· = linePage m)) _ rfl), ?_, hstop.retiring, hstop.enable⟩
    rw [hstop.state]
    rcases hst with h | h | h | h | h
    · exact absurd h hon
    all_goals rw [askedToRetire, h]; rfl

/-! ### The recording -/

theorem exec_retirementRecorded (hlines : ∀ j, (lineAt s j).lstate ≠ .up) (p : Nat) :
    exec (.retirementRecorded p) s = .next (recordRetirement s p) := by
  change execRetirementRecorded p s = _
  rw [execRetirementRecorded, linesAfter_of_no_line_up hlines]

theorem mapAppend_of_room (h : s.faults.map.length < 255) (kind cause locator : Nat) : mapAppend s kind cause locator =
    { s with faults := { s.faults with
      map := s.faults.map ++ [mapRecord kind cause 0 locator (position s % 2 ^ 56)] } } := if_neg (Nat.not_le.mpr h)

/-- The header of a line as its retirement is recorded at entry `index` of the map, before it is RETIRED. -/
def recordedAt (index : Nat) (u : UnitHdr) : UnitHdr :=
  { u with permanent := true, permCause := 0x0D, field := true, mapIndex := index, retiring := false, enable := false }

theorem recordRetirement_linePage (hm : m < 64) (hst : (unitAt s (linePage m)).state = .stopping)
    (hret : (unitAt s (linePage m)).retiring = true) (hsound : (unitAt s (linePage m)).permanent = false)
    (hroom : s.faults.map.length < 255) :
    recordRetirement s (linePage m) = noteNoChannel (rebindAll (setUState (modUnit (mapAppend s mapLine 0x0D m) (linePage m)
      (recordedAt s.faults.map.length)) (linePage m) .retired)) := by
  have hkind := kindOf_linePage hm
  have hchan : decide (kindOf (linePage m) = 0x03) = false := by rw [hkind]; rfl
  have hline : decide (kindOf (linePage m) = 0x10 ∧ linePage m ≠ 0x020) = true := decide_eq_true ⟨hkind, linePage_ne hm⟩
  have hidle : workInFlight s (linePage m) = false := by simp only [workInFlight, hkind]
  have hfull : decide (255 ≤ s.faults.map.length) = false := decide_eq_false (Nat.not_le.mpr hroom)
  have hpage : linePage m - 0x040 = m := by simp only [linePage]; omega
  unfold recordRetirement
  simp only [hchan, hline, hst, hret, hsound, hidle, hfull, hpage, retireTree,
    descendants_eq_nil (childrenOf_linePage hm), Bool.false_eq_true, if_false, List.foldl_nil]
  rw [if_neg (by decide)]
  rfl

theorem failJobs_units (l : List Nat) (st : Nat) (s : State) :
    (l.foldl (fun s n => failJob s n st) s).units = s.units ∧ (l.foldl (fun s n => failJob s n st) s).faults = s.faults := by
  induction l generalizing s with
  | nil => exact ⟨rfl, rfl⟩
  | cons n l ih =>
    obtain ⟨hunits, hfaults⟩ := ih (failJob s n st)
    exact ⟨hunits.trans (modJob_units ..), hfaults.trans (modJob_faults ..)⟩

/-- Finding no channel left changes the root's header alone, and no record of the map (R679). -/
theorem noteNoChannel_spec (hs : TablesCanonical s) :
    (∀ q, q ≠ 0 → MoreEvents (unitAt s q) (unitAt (noteNoChannel s) q)) ∧ (noteNoChannel s).faults.map = s.faults.map := by
  unfold noteNoChannel
  split
  · extract_lets f t
    have hnote (f : Faults) : KeepsUnits (· = 0) { s with faults := f } (setUState { s with faults := f } 0 .faulted) :=
      keepsUnits_setUState_self ..
    have htab (f : Faults) : TablesCanonical { s with faults := f } := (Evolves.upd (.refl s)).tables hs
    obtain ⟨hunits, hfaults⟩ := failJobs_units (t.jobs.map (·.1)) 0x5001 t
    refine ⟨fun q hq => ?_, ?_⟩
    · have hsame : unitAt _ q = unitAt t q := congrArg (fun u => tget (unitDflt q) u q) hunits
      rw [hsame]
      exact (hnote _).headers (htab _) q hq
    · rw [hfaults, (hnote _).faults]
  · exact ⟨fun q _ => .refl _, rfl⟩

theorem mapAppend_tables (hs : TablesCanonical s) (kind cause locator : Nat) : TablesCanonical (mapAppend s kind cause locator) :=
  (mapAppend_ev (.refl s)).tables hs

end

/-- Settles O17: the message by the cases of `noteRoot` and the masks of its two entries; a line has no page below it, so
its request and its record are one change of its own header each. -/
theorem managementMessageAndRetirement : Obligations.ManagementMessageAndRetirement := by
  constructor
  · intro s
    exact ⟨noteRoot_of_becomes_raised, noteRoot_of_stays_raised, noteRoot_of_not_raised, afterEventWrite_of_raised,
      sendManagement_of_unmasked, sendManagement_of_masked⟩
  · intro acc m s hs hm hlines
    have htab := hs.tables
    refine ⟨fun hreach hlock hst => ?_, fun hst hret hsound hroom => ?_⟩
    · obtain ⟨hkeep, hstate, hretiring, henable⟩ := unitAt_writeRetire_linePage htab hm hlock hst
      have hafter : KeepsAllUnits _ _ := keepsUnits_rebindAll (writeRetire s (linePage m))
      have hself := hafter.headers (hkeep.tables htab) (linePage m) id
      refine ⟨_, exec_retireRequest hlines hreach, ?_⟩
      rw [requestRetire_linePage hm]
      exact ⟨hself.state.trans hstate, hself.retiring.trans hretiring, hself.enable.trans henable,
        fun q hq => (hkeep.trans hafter.of_all).headers htab q hq⟩
    · have hmap := mapAppend_tables htab mapLine 0x0D m
      have hroomed := mapAppend_of_room hroom mapLine 0x0D m
      generalize hb : modUnit (mapAppend s mapLine 0x0D m) (linePage m) (recordedAt s.faults.map.length) = b
      have hunit : unitAt b (linePage m) = recordedAt s.faults.map.length (unitAt s (linePage m)) := by
        rw [← hb, unitAt_modUnit hmap, hroomed]
        rfl
      have hbtab : TablesCanonical b := hb ▸ (modUnit_ev (.refl _)).tables hmap
      have hset := (unitAt_setUState (p := linePage m) (st := .retired) hbtab
        (by rw [hunit, recordedAt, hst]; decide)).1
      have hkeep := (keepsUnits_setUState_self b (linePage m) .retired).trans (keepsUnits_rebindAll _)
      have hbind : KeepsAllUnits _ _ := keepsUnits_rebindAll (setUState b (linePage m) .retired)
      obtain ⟨hnote, hnotemap⟩ := noteNoChannel_spec (hkeep.tables hbtab)
      have hpage : linePage m ≠ 0 := by simp only [linePage]; omega
      have hself := hset.trans ((hbind.headers ((setUState_ev (.refl b)).tables hbtab) (linePage m) id).trans (hnote _ hpage))
      rw [hunit] at hself
      obtain ⟨bits, hself⟩ := hself
      refine ⟨_, exec_retirementRecorded hlines _, ?_⟩
      rw [recordRetirement_linePage hm hst hret hsound hroom, hb, hself]
      refine ⟨rfl, rfl, rfl, rfl, rfl, rfl, ?_⟩
      rw [hnotemap, hkeep.faults, ← hb, modUnit_faults, hroomed]
      rfl

end Sys2Proof.Machine

/-! PROOF. The tether's pulses and numbers (R303 to R314) and the event table (R319 to R326). -/

namespace Sys2Proof.Machine

section
variable {s : State} {acc : Acc}

/-! ### Pulses on TETHER_PPS (R303, R304, R308) -/

theorem exec_tetherPpsPulse (rising : Bool) (held : Nat) (s : State) :
    exec (.tetherPpsPulse rising held) s = .next (ppsPulse s rising held) := rfl

theorem ppsPulse_of_ignored {rising : Bool} (h : rising = s.tether.ppsEdge ∨ tetherSource s.tether = 2 ∨ followsBridle s = true)
    (held : Nat) : ppsPulse s rising held = s := if_pos h

/-- The pulse is neither on the other edge, nor replaced by another source, nor by marks. -/
theorem pps_taken {rising : Bool} (hedge : rising ≠ s.tether.ppsEdge) (hsource : tetherSource s.tether ≠ 2)
    (hbridle : followsBridle s = false) :
    ¬(rising = s.tether.ppsEdge ∨ tetherSource s.tether = 2 ∨ followsBridle s = true) := by
  rw [hbridle]
  rintro (h | h | h)
  · exact hedge h
  · exact hsource h
  · exact Bool.false_ne_true h

theorem ppsPulse_of_short {rising : Bool} {held : Nat} (hedge : rising ≠ s.tether.ppsEdge)
    (hsource : tetherSource s.tether ≠ 2) (hbridle : followsBridle s = false) (hheld : held < 100) :
    ppsPulse s rising held = glitch s := by
  rw [ppsPulse, if_neg (pps_taken hedge hsource hbridle), if_pos hheld]

theorem ppsPulse_of_long {rising : Bool} {held : Nat} (hedge : rising ≠ s.tether.ppsEdge)
    (hsource : tetherSource s.tether ≠ 2) (hbridle : followsBridle s = false) (hheld : 100 ≤ held) :
    ppsPulse s rising held = pulse s none := by
  rw [ppsPulse, if_neg (pps_taken hedge hsource hbridle), if_neg (Nat.not_lt.mpr hheld)]

/-- A pulse within the slack, whose pending number is old enough, is early or accepted (R308, R309). -/
theorem pulse_of_locked (hslack : slackUsed s = false) (hlocked : s.tether.state = .locked)
    (hnumber : ∀ x, s.tether.number = some x → x.2 + 250 ≤ s.cycles) :
    pulse s none = if s.cycles - s.tether.lastPulse < earlyCycles then glitch s
      else acceptPulse s (s.tether.number.map (·.1)) := by
  cases hnum : s.tether.number with
  | none =>
    simp only [pulse, hslack, hnum, hlocked, Bool.false_eq_true, if_false, Bool.and_false, decide_true, true_and,
      Bool.true_or, Bool.and_true, Bool.not_eq_true', decide_eq_false_iff_not]
    exact ite_not ..
  | some x =>
    have hlate : decide (s.cycles < x.2 + 250) = false := decide_eq_false (Nat.not_lt.mpr (hnumber x hnum))
    simp only [pulse, hslack, hnum, hlocked, hlate, Bool.false_eq_true, if_false, Bool.and_false, decide_true, true_and,
      Bool.true_or, Bool.and_true, Bool.not_eq_true', decide_eq_false_iff_not]
    exact ite_not ..

theorem writeAnchor_frame (s : State) (m : Nat) : writeAnchor s m = { s with mooring := (writeAnchor s m).mooring } := rfl

theorem stepSeals_of_no_log (h : s.audit.logs = []) (m : Nat) : stepSeals s m = s := by
  rw [stepSeals, h]
  exact ite_self _

/-- A pulse of a LOCKED tether without a number: the next second begins (R309). -/
theorem acceptPulse_of_locked (hlocked : s.tether.state = .locked) (hever : s.tether.everPulsed = true)
    (hlogs : s.audit.logs = []) (hroot : isTetherRoot s = false) : acceptPulse s none =
      writeAnchor { s with tether := startSecond s.tether s.cycles (s.tether.lastSec + 1) 0 0 } (s.tether.lastSec + 1) := by
  have hsecond : pulseSecond s.tether none = (s.tether.lastSec + 1, 0, 0, false) := by
    simp only [pulseSecond, hlocked]
  generalize hu : writeAnchor { s with tether := startSecond s.tether s.cycles (s.tether.lastSec + 1) 0 0 }
    (s.tether.lastSec + 1) = u
  have hrootu : isTetherRoot u = false := by
    rw [← hu]
    exact hroot
  simp only [acceptPulse, hsecond, stepSeals_of_no_log hlogs, hlocked, hever, if_true, Bool.false_eq_true, if_false, hu, hrootu]

theorem max_position_le (t : Tether) (now m run num : Nat) : positionAt t now ≤ (startSecond t now m run num).pos :=
  Nat.le_max_left ..

/-! ### Numbers (R305, R306) -/

theorem exec_tetherTodFrame (chars : Bytes) (bad : Bool) (s : State) :
    exec (.tetherTodFrame chars bad) s = .next (todFrame s chars bad) := rfl

theorem exec_todIdleExpiry (s : State) : exec .todIdleExpiry s = .next (todIdle s) := rfl

theorem todFrame_of_good {chars : Bytes} (hsource : tetherSource s.tether = 0) (hlen : chars.length = 10)
    (hsync : chars.getD 0 0 = 0x54#8) (hcrc : chars.getD 9 0 = crc8 (slice chars 1 8)) :
    todFrame s chars false = setNumber s (unle (slice chars 1 8)) := by
  have hgood : ¬(false = true ∨ chars.length ≠ 10 ∨ chars.getD 0 0 ≠ 0x54#8 ∨ chars.getD 9 0 ≠ crc8 (slice chars 1 8)) := by
    rw [hlen, hsync, hcrc]
    simp
  unfold todFrame
  extract_lets n
  rw [if_neg (not_not.mpr hsource), if_neg hgood]

theorem todFrame_of_bad {chars : Bytes} {bad : Bool} (hsource : tetherSource s.tether = 0)
    (h : bad = true ∨ chars.length ≠ 10 ∨ chars.getD 0 0 ≠ 0x54#8) : todFrame s chars bad = todError s := by
  have hbad : bad = true ∨ chars.length ≠ 10 ∨ chars.getD 0 0 ≠ 0x54#8 ∨ chars.getD 9 0 ≠ crc8 (slice chars 1 8) :=
    h.imp_right fun h => h.imp_right .inl
  unfold todFrame
  extract_lets n
  rw [if_neg (not_not.mpr hsource), if_pos hbad]

theorem todIdle_of_source (hsource : tetherSource s.tether = 0) : todIdle s = todError s := if_neg (not_not.mpr hsource)

theorem exec_tetherNextSec (hreach : reaches s acc 0x006 = true) (hsource : tetherSource s.tether ≠ 0) (v : Word32) :
    exec (.tetherNextSec acc v) s = .next { s with tether := { s.tether with
      nextSecLo := v, number := some ((v.toNat + 2 ^ 32 * s.tether.nextSecHi.toNat) % 2 ^ 64, s.cycles) } } := by
  change execTetherNextSec acc v s = _
  rw [execTetherNextSec, if_pos hreach, writeNextSec, if_neg hsource, setNumber]

theorem exec_tetherStrobe (hreach : reaches s acc 0x006 = true) (hsource : tetherSource s.tether = 2)
    (hbridle : followsBridle s = false) (v : Word32) : exec (.tetherStrobe acc v) s = .next (pulse s none) := by
  change execTetherStrobe acc v s = _
  rw [execTetherStrobe, if_pos ⟨hreach, hsource, by rw [hbridle]; rfl⟩]

/-! ### ADRIFT and CATCHUP (R310, R311) -/

theorem exec_tetherAdrift_of_slack (h : slackUsed s = true) : exec .tetherAdrift s = .next (enterAdrift s) := by
  change execTetherAdrift s = _
  rw [execTetherAdrift, if_pos h]

theorem exec_tetherAdrift_of_no_slack (h : slackUsed s = false) : exec .tetherAdrift s = .next s := by
  change execTetherAdrift s = _
  rw [execTetherAdrift, h, if_neg Bool.false_ne_true]

theorem enterAdrift_tether (s : State) : (enterAdrift s).tether = { s.tether with
    pos := position s, state := .adrift, number := none, catchup := catchupNow s
    adriftCount := sat 255 (s.tether.adriftCount + 1) } := setEvent_tether ..

theorem exec_catchupEnd (h : s.tether.catchup = true) (hnow : catchupNow s = false) :
    exec .catchupEnd s = .next { s with tether := { s.tether with catchup := false } } := by
  change Host.Outcome.next (endCatchup s) = _
  rw [endCatchup, h, hnow]
  rfl

/-! ### Marks (R313, R314) -/

theorem exec_tetherMark (m second delay : Nat) (s : State) :
    exec (.tetherMark m second delay) s = .next (mark s m second delay) := rfl

theorem mark_of_line_down {m : Nat} (h : lineUp s m = false) (second delay : Nat) : mark s m second delay = s := by
  rw [mark, h]
  rfl

theorem mark_of_first_copy {m second : Nat} (hup : lineUp s m = true) (hlast : s.tether.lastMark ≠ some second)
    (hbridle : followsBridle s = true) (delay : Nat) {t : State}
    (ht : t = { received s m 2 with tether := { s.tether with lastMark := some second } }) : mark s m second delay =
      pulse (sendMarks t (some m) second (delay + (lineAt t m).delay)) (some second) := by
  subst ht
  have hfollows : followsBridle (received s m 2) = true := hbridle
  have hfirst : ¬((received s m 2).tether.lastMark = some second ∨ (!followsBridle (received s m 2)) = true) := by
    rw [hfollows]
    rintro (h | h)
    · exact hlast h
    · exact Bool.false_ne_true h
  unfold mark
  rw [hup, if_neg (by decide)]
  exact if_neg hfirst

end

/-- Settles O35: a pulse is ignored, early or accepted by the cases of `ppsPulse` and `pulse`; numbers, the slack, the held
position and marks by one equation each. -/
theorem tetherPulses : Obligations.TetherPulses := by
  intro acc rising bad held chars v s _
  simp only [exec_tetherPpsPulse, exec_tetherTodFrame, exec_todIdleExpiry, exec_tetherMark]
  refine ⟨fun hedge hsource hbridle hheld => ?_, fun hedge hsource hbridle hheld hslack hlocked hearly hnumber => ?_,
    fun hedge hsource hbridle hheld hslack hlocked hlate hnone hever hlogs hroot => ?_, fun h => ?_,
    fun hsource hbad hlen hsync hcrc => ?_, fun hsource hbad => ?_, fun hreach hsource => exec_tetherNextSec hreach hsource v,
    fun hreach hsource hbridle => exec_tetherStrobe hreach hsource hbridle v, fun hslack => ?_,
    exec_tetherAdrift_of_no_slack, exec_catchupEnd, fun m second delay hup hlast hbridle => ?_,
    fun m second delay hdown => by rw [mark_of_line_down hdown]⟩
  · rw [ppsPulse_of_short hedge hsource hbridle hheld, glitch]
  · have hsoon : s.cycles - s.tether.lastPulse < earlyCycles := by
      simp only [earlyCycles] at *
      omega
    rw [ppsPulse_of_long hedge hsource hbridle hheld, pulse_of_locked hslack hlocked hnumber, if_pos hsoon, glitch]
  · have hnot : ¬s.cycles - s.tether.lastPulse < earlyCycles := by omega
    have hold : ∀ x, s.tether.number = some x → x.2 + 250 ≤ s.cycles := fun x hx => by
      rw [hnone] at hx
      cases hx
    rw [ppsPulse_of_long hedge hsource hbridle hheld, pulse_of_locked hslack hlocked hold, if_neg hnot, hnone, Option.map_none,
      acceptPulse_of_locked hlocked hever hlogs hroot]
    exact ⟨_, rfl, rfl, rfl, rfl, if_pos hlocked, max_position_le .., rfl⟩
  · rw [ppsPulse_of_ignored h]
  · rw [hbad, todFrame_of_good hsource hlen hsync hcrc, setNumber]
  · rw [todFrame_of_bad hsource hbad, todIdle_of_source hsource]
    exact ⟨rfl, rfl⟩
  · refine ⟨_, exec_tetherAdrift_of_slack hslack, ?_⟩
    rw [enterAdrift_tether]
    exact ⟨rfl, rfl, rfl, rfl, setEvent_jobs ..⟩
  · exact ⟨_, rfl, by rw [mark_of_first_copy hup hlast hbridle delay rfl]⟩

/-! ### The event table -/

section
variable {s : State} {acc : Acc} {n : Nat}

theorem exec_arm (hreach : reaches s acc 0x006 = true) : exec (.arm acc) s = .next (armEntry s acc) := by
  change execArm acc s = _
  rw [execArm, if_pos hreach]

theorem exec_disarm (hreach : reaches s acc 0x006 = true) : exec (.disarm acc) s = .next (disarmEntry s acc) := by
  change execDisarm acc s = _
  rw [execDisarm, if_pos hreach]

theorem exec_eventClear (hreach : reaches s acc 0x006 = true) : exec (.eventClear acc) s = .next (clearEntry s acc) := by
  change execEventClear acc s = _
  rw [execEventClear, if_pos hreach]

theorem exec_evtCommands_of_unreached (hreach : reaches s acc 0x006 = false) :
    exec (.arm acc) s = .next s ∧ exec (.disarm acc) s = .next s ∧ exec (.eventClear acc) s = .next s := by
  change execArm acc s = _ ∧ execDisarm acc s = _ ∧ execEventClear acc s = _
  rw [execArm, execDisarm, execEventClear, hreach]
  exact ⟨rfl, rfl, rfl⟩

theorem disarmEntry_of_owned (h : fwOwned acc (evtSel s acc) (evtAt s (evtSel s acc)) = true) :
    disarmEntry s acc = evtResult s acc 3 := if_pos h

theorem disarmEntry_of_armed (h : fwOwned acc (evtSel s acc) (evtAt s (evtSel s acc)) = false)
    (harmed : (evtAt s (evtSel s acc)).state = .armed) : disarmEntry s acc =
      evtResult (putEvt s (evtSel s acc) { evtAt s (evtSel s acc) with state := .empty }) acc 0 := by
  unfold disarmEntry
  extract_lets n e
  rw [if_neg (show ¬fwOwned acc n e = true by rw [h]; exact Bool.false_ne_true), if_neg (not_not.mpr harmed)]

theorem disarmEntry_of_not_armed (h : fwOwned acc (evtSel s acc) (evtAt s (evtSel s acc)) = false)
    (harmed : (evtAt s (evtSel s acc)).state ≠ .armed) : disarmEntry s acc = evtResult s acc 7 := by
  unfold disarmEntry
  extract_lets n e
  rw [if_neg (show ¬fwOwned acc n e = true by rw [h]; exact Bool.false_ne_true), if_pos harmed]

theorem clearEntry_of_owned (h : fwOwned acc (evtSel s acc) (evtAt s (evtSel s acc)) = true) :
    clearEntry s acc = evtResult s acc 3 := if_pos h

theorem clearEntry_of_free (h : fwOwned acc (evtSel s acc) (evtAt s (evtSel s acc)) = false) :
    clearEntry s acc = evtResult (putEvt s (evtSel s acc) {}) acc 0 :=
  if_neg (by rw [h]; exact Bool.false_ne_true)

/-! ### Firings (R321 to R324) -/

theorem exec_eventFire_of_fires (h : fires s n = true) : exec (.eventFire n) s = .next (fireEntry s n) := by
  change execEventFire n s = _
  rw [execEventFire, if_pos h]

theorem exec_eventFire_of_not_due (h : fires s n = false) : exec (.eventFire n) s = .next s := by
  change execEventFire n s = _
  rw [execEventFire, h, if_neg Bool.false_ne_true]

theorem wakeIdle_of_not_idle (h : s.power.state ≠ .idle) : wakeIdle s = s := if_neg h

theorem wakeUp_of_run (h : s.power.state = .run) : wakeUp s = s := by
  have hidle : s.power.state ≠ .idle := by rw [h]; decide
  have hstandby : s.power.state ≠ .standby := by rw [h]; decide
  rw [wakeUp, wakeIdle_of_not_idle hidle, leaveStandby, if_pos hstandby]

theorem fireEntry_of_failed (hidle : s.power.state ≠ .idle) (h : fireAction s (evtAt s n) (position s) = none) :
    fireEntry s n = firedEvent (putEvt s n { evtAt s n with state := .failed, fired := position s }) := by
  simp only [fireEntry, wakeIdle_of_not_idle hidle, h]

/-- NOTIFY only sets its event (R319). -/
theorem fireEntry_of_notify (hrun : s.power.state = .run) (h : (evtAt s n).action = 7) :
    fireEntry s n = if (refire (evtAt s n) (position s)).state = .done
      then firedEvent (putEvt (setEvent s 0x006 20) n (refire (evtAt s n) (position s)))
      else putEvt (setEvent s 0x006 20) n (refire (evtAt s n) (position s)) := by
  have hidle : s.power.state ≠ .idle := by rw [hrun]; decide
  have hwake : wakeUp (setEvent s 0x006 20) = setEvent s 0x006 20 := wakeUp_of_run (by rw [setEvent_power]; exact hrun)
  simp only [fireEntry, wakeIdle_of_not_idle hidle, fireAction, h, hwake]

theorem evtAt_of_events_eq {t : State} (h : t.events = s.events) (k : Nat) : evtAt t k = evtAt s k := by
  rw [evtAt, evtAt, h]

theorem evtAt_firedEvent (s : State) (k : Nat) : evtAt (firedEvent s) k = evtAt s k := evtAt_of_events_eq (setEvent_events ..) k

theorem evtAt_putEvt_ne (s : State) {k : Nat} (e : EvEntry) (h : k ≠ n) : evtAt (putEvt s n e) k = evtAt s k :=
  tget_tset_ne _ _ _ _ h

/-- What a firing of NOTIFY leaves: the entry as `refire` gives it, the others and the jobs as they were. -/
theorem fireEntry_notify_spec (hs : TablesCanonical s) (hrun : s.power.state = .run) (h : (evtAt s n).action = 7) :
    evtAt (fireEntry s n) n = refire (evtAt s n) (position s) ∧ (∀ k, k ≠ n → evtAt (fireEntry s n) k = evtAt s k) ∧
      (fireEntry s n).jobs = s.jobs := by
  have htab : TablesCanonical (setEvent s 0x006 20) := (setEvent_ev (.refl s)).tables hs
  have hothers (k : Nat) (hk : k ≠ n) :
      evtAt (putEvt (setEvent s 0x006 20) n (refire (evtAt s n) (position s))) k = evtAt s k := by
    rw [evtAt_putEvt_ne _ _ hk]
    exact evtAt_of_events_eq (setEvent_events ..) k
  rw [fireEntry_of_notify hrun h]
  split
  · refine ⟨?_, fun k hk => ?_, ?_⟩
    · rw [evtAt_firedEvent, evtAt_putEvt htab]
    · rw [evtAt_firedEvent, hothers k hk]
    · rw [firedEvent, setEvent_jobs, putEvt_jobs, setEvent_jobs]
  · refine ⟨evtAt_putEvt htab .., hothers, ?_⟩
    rw [putEvt_jobs, setEvent_jobs]

theorem refire_of_once {e : EvEntry} (h : e.period = 0) (pos : Nat) : refire e pos = { e with state := .done, fired := pos } :=
  if_pos h

/-- A periodic entry is armed above the position, at most one period above it (R323). -/
theorem refire_of_periodic {e : EvEntry} (h : e.period ≠ 0) {pos : Nat} (hdue : e.pos ≤ pos) (hroom : pos + 2 ^ e.period < 2 ^ 64) :
    (refire e pos).state = e.state ∧ (refire e pos).fired = pos ∧ pos < (refire e pos).pos ∧
      (refire e pos).pos ≤ pos + 2 ^ e.period ∧ 2 ^ e.period ∣ (refire e pos).pos - e.pos := by
  have hpos : 0 < 2 ^ e.period := Nat.two_pow_pos _
  have heq := Nat.div_add_mod (pos - e.pos) (2 ^ e.period)
  have hmod := Nat.mod_lt (pos - e.pos) hpos
  have hstep : ((pos - e.pos) / 2 ^ e.period + 1) * 2 ^ e.period =
      2 ^ e.period * ((pos - e.pos) / 2 ^ e.period) + 2 ^ e.period := by ring
  have hnext : (refire e pos).pos = e.pos + ((pos - e.pos) / 2 ^ e.period + 1) * 2 ^ e.period := by
    rw [refire, if_neg h]
    exact Nat.mod_eq_of_lt (by omega)
  have hstate : (refire e pos).state = e.state ∧ (refire e pos).fired = pos := by
    rw [refire, if_neg h]
    exact ⟨rfl, rfl⟩
  refine ⟨hstate.1, hstate.2, by omega, by omega, ?_⟩
  rw [hnext, Nat.add_sub_cancel_left]
  exact Nat.dvd_mul_left ..

/-- An entry that fires is armed and due (R321). -/
theorem armed_of_fires (h : fires s n = true) : (evtAt s n).state = .armed ∧ (evtAt s n).pos ≤ position s := by
  simp only [fires, Bool.and_eq_true, decide_eq_true_eq] at h
  obtain ⟨⟨⟨-, harmed, hdue⟩, -⟩, -⟩ := h
  exact ⟨harmed, hdue⟩

/-! ### Periodic seals (R320) -/

theorem exec_periodicSealFire (i : Nat) (s : State) : exec (.periodicSealFire i) s = .next (firePeriodic s i) := rfl

theorem firePeriodic_of_due {i m : Nat} (h : periodicDue s i = some m) (hevents : s.events = [])
    (hidle : s.power.state ≠ .idle) :
    firePeriodic s i = putLog (makeSeal s i 1 m) i { logAt (makeSeal s i 1 m) i with lastMultiple := m } := by
  simp only [firePeriodic, h, hevents, wakeIdle_of_not_idle hidle]
  rfl

theorem firePeriodic_of_not_due {i : Nat} (h : periodicDue s i = none) : firePeriodic s i = s := by
  simp only [firePeriodic, h]

end

/-- Settles O36: the commands by the branches of `armEntry`, `disarmEntry` and `clearEntry`; a firing fails, or for NOTIFY
leaves its entry as `refire` gives it. -/
theorem eventTable : Obligations.EventTable := by
  intro acc n s hs
  have htab := hs.tables
  refine ⟨exec_arm, fun hreach hown harmed => ?_, fun hreach hown harmed => ?_, fun hreach hown => ?_,
    fun hreach hown => ⟨?_, ?_⟩, exec_evtCommands_of_unreached, fun hfire hidle hfail => ?_, fun hfire hrun hact => ?_,
    exec_eventFire_of_not_due, fun i m hdue hevents hidle => ?_, fun i hdue => ?_⟩
  · rw [exec_disarm hreach, disarmEntry_of_armed hown harmed]
  · rw [exec_disarm hreach, disarmEntry_of_not_armed hown harmed]
  · rw [exec_eventClear hreach, clearEntry_of_free hown]
  · rw [exec_disarm hreach, disarmEntry_of_owned hown]
  · rw [exec_eventClear hreach, clearEntry_of_owned hown]
  · refine ⟨_, exec_eventFire_of_fires hfire, ?_⟩
    rw [fireEntry_of_failed hidle hfail, evtAt_firedEvent, evtAt_putEvt htab]
    refine ⟨rfl, rfl, fun k hk => ?_, ?_⟩
    · rw [evtAt_firedEvent, evtAt_putEvt_ne _ _ hk]
    · rw [firedEvent, setEvent_jobs, putEvt_jobs]
  · obtain ⟨hself, hothers, hjobs⟩ := fireEntry_notify_spec htab hrun hact
    obtain ⟨harmed, hdue⟩ := armed_of_fires hfire
    refine ⟨_, exec_eventFire_of_fires hfire, ?_, hothers, hjobs, fun honce => ?_, fun hperiod hroom => ?_⟩
    · rw [hself, refire]
      split <;> rfl
    · rw [hself, refire_of_once honce]
      exact ⟨rfl, rfl⟩
    · obtain ⟨hstate, -, habove, hbelow, hdvd⟩ := refire_of_periodic hperiod hdue hroom
      rw [hself, hstate]
      exact ⟨harmed, habove, hbelow, hdvd⟩
  · rw [exec_periodicSealFire, firePeriodic_of_due hdue hevents hidle]
  · rw [exec_periodicSealFire, firePeriodic_of_not_due hdue]

end Sys2Proof.Machine

/-! PROOF. The key cache's flush (R282), the device root key (R335 to R337) and the debug gate (R612 to R615). -/

namespace Sys2Proof.Machine

section
variable {s : State} {acc : Acc}

/-! ### KC_FLUSH (R282) -/

theorem exec_kcFlush (hreach : reaches s acc 0x081 = true) (v : Word32) :
    exec (.kcFlush acc v) s = .next (writeFlush s v) := by
  change execKcFlush acc v s = _
  rw [execKcFlush, if_pos hreach]

theorem exec_kcFlush_of_unreached (hreach : reaches s acc 0x081 = false) (v : Word32) :
    exec (.kcFlush acc v) s = .next s := by
  change execKcFlush acc v s = _
  rw [execKcFlush, hreach, if_neg Bool.false_ne_true]

theorem writeFlush_of_go {v : Word32} (hbusy : s.kc.busy = false) (hgo : bit v.toNat 31 = true) :
    writeFlush s v = { s with kc := { s.kc with
      flushInst := bits v.toNat 0 10, flushAll := bit v.toNat 16, flushOld := bit v.toNat 17, busy := true
      walkInst := bits v.toNat 0 10, walkAll := bit v.toNat 16, walkOld := bit v.toNat 17 } } := by
  unfold writeFlush
  extract_lets n k
  rw [if_neg (by rw [hbusy, Bool.false_and]; exact Bool.false_ne_true), if_pos hgo]

theorem writeFlush_of_no_go {v : Word32} (hgo : bit v.toNat 31 = false) :
    writeFlush s v = { s with kc := { s.kc with
      flushInst := bits v.toNat 0 10, flushAll := bit v.toNat 16, flushOld := bit v.toNat 17 } } := by
  have hn : ¬bit v.toNat 31 = true := by
    rw [hgo]
    exact Bool.false_ne_true
  unfold writeFlush
  extract_lets n k
  rw [if_neg (fun h => hn (Bool.and_eq_true_iff.mp h).2), if_neg hn]

theorem writeFlush_of_busy {v : Word32} (hbusy : s.kc.busy = true) (hgo : bit v.toNat 31 = true) : writeFlush s v = s :=
  if_pos (by rw [hbusy, hgo]; rfl)

theorem exec_kcFlushDone (s : State) : exec .kcFlushDone s = .next (flushDone s) := rfl

/-- What a flush leaves of a cached key: nothing of one that it selects and no job has pinned (R282). -/
def flushedKey (p : Nat → Nat → Bool) (k : Nat × CacheKey) : Option (Nat × CacheKey) :=
  if p k.2.inst k.2.gen then if k.2.pins.isEmpty then none else some (k.1, { k.2 with dead := true }) else some k

theorem flushDone_kc_keys (hbusy : s.kc.busy = true) :
    (flushDone s).kc.busy = false ∧ (flushDone s).kc.keys = s.kc.keys.filterMap (flushedKey (flushSelects s)) ∧
      (flushDone s).jobs = s.jobs := by
  have hgo : ¬(!s.kc.busy) = true := by
    rw [hbusy]
    decide
  unfold flushDone
  rw [if_neg hgo]
  extract_lets sel drain t
  simp only [kcEvent, setEvent_kc, setEvent_jobs]
  exact ⟨trivial, rfl, rfl⟩

theorem flushedKey_of_selected {p : Nat → Nat → Bool} {k k' : Nat × CacheKey} (h : flushedKey p k = some k')
    (hsel : p k'.2.inst k'.2.gen = true) : k'.2.dead = true ∧ k'.2.pins ≠ [] := by
  unfold flushedKey at h
  split at h
  · split at h
    · cases h
    next hpins =>
      cases h
      exact ⟨rfl, fun he => hpins (List.isEmpty_iff.mpr he)⟩
  next hnot =>
    cases h
    exact absurd hsel hnot

/-! ### The device root key (R335 to R337) -/

theorem exec_drkGenerate (s : State) : exec .drkGenerate s = .next (drkGenerate s) := rfl

theorem drkGenerate_of_not_ready (h : s.kh.pendingGen = false ∨ s.rng.gathered = false ∨ s.rng.pool = []) :
    drkGenerate s = s := by
  refine if_pos ?_
  rcases h with h | h | h
  · exact .inl (by rw [h]; rfl)
  · exact .inr (.inl (by rw [h]; rfl))
  · exact .inr (.inr (by rw [h]; rfl))

theorem or_one_ne_of_eq_zero {b : BitVec 1} (h : b = 0) : b ||| 1 ≠ 0 := by
  rw [h]
  decide

/-- The DRK has been drawn: the block of the pool that becomes the key is taken, and the key's check value stands (R336). -/
structure DrkDrawn (s t : State) : Prop where
  isDone : t.kh.pendingGen = false
  check : t.kh.check = some (drkCheckValue t.mooring.drk)
  pool : t.rng.pool = s.rng.pool.drop 1
  jobs : t.jobs = s.jobs

theorem drkGenerate_eq (hpending : s.kh.pendingGen = true) (hgathered : s.rng.gathered = true) (hpool : s.rng.pool ≠ []) :
    ∃ t, DrkDrawn s t ∧ drkGenerate s = if t.otp.drkEver = 0
      then otpBurned { t with otp := { t.otp with drkEver := t.otp.drkEver ||| 1 } } else t := by
  have hready : ¬((!s.kh.pendingGen) = true ∨ (!s.rng.gathered) = true ∨ s.rng.pool.isEmpty = true) := by
    rw [hpending, hgathered, List.isEmpty_iff]
    rintro (h | h | h)
    · exact absurd h (by decide)
    · exact absurd h (by decide)
    · exact hpool h
  refine ⟨_, ?_, if_neg hready⟩
  exact ⟨rfl, rfl, rfl, rfl⟩

/-- The burned bit of OTP says that there has been a DRK (R335). -/
theorem drkGenerate_spec (hpending : s.kh.pendingGen = true) (hgathered : s.rng.gathered = true) (hpool : s.rng.pool ≠ []) :
    DrkDrawn s (drkGenerate s) ∧ (drkGenerate s).otp.drkEver ≠ 0 := by
  obtain ⟨t, ⟨hdone, hcheck, htaken, hjobs⟩, heq⟩ := drkGenerate_eq hpending hgathered hpool
  rw [heq]
  split
  next hzero =>
    refine ⟨⟨?_, ?_, ?_, ?_⟩, ?_⟩
    · rw [otpBurned, setEvent_kh, hdone]
    · rw [otpBurned, setEvent_kh, setEvent_mooring, hcheck]
    · rw [otpBurned, setEvent_rng, htaken]
    · rw [otpBurned, setEvent_jobs, hjobs]
    · rw [otpBurned, setEvent_otp]
      exact or_one_ne_of_eq_zero hzero
  next hburned => exact ⟨⟨hdone, hcheck, htaken, hjobs⟩, hburned⟩

end

/-! ### The debug gate (R612 to R615) -/

section
variable {s : State}

theorem exec_debugChallenge_of_open (hgate : gateTakes s = true) (hlife : lifecycle s ≠ 3) :
    exec .debugChallenge s = .next (emit { (keelDraw s 32).2 with dbg := { (keelDraw s 32).2.dbg with
      state := .challenged, nonce := some (keelDraw s 32).1, inst := 0 } } (.debug (keelDraw s 32).1)) := by
  change execDebugChallenge s = _
  rw [execDebugChallenge, hgate, if_neg (by decide), if_neg hlife]

theorem keelDraw_length (s : State) (n : Nat) : (keelDraw s n).1.length = n := by
  rw [keelDraw, freeBytes]
  exact (List.length_map _).trans List.length_range

theorem exec_debugResponse_of_nonce (hgate : gateTakes s = true) (hst : s.dbg.state = .challenged) {n : Bytes}
    (hn : s.dbg.nonce = some n) (chain : Bytes) (inst : Nat) (sg : Bytes) : exec (.debugResponse chain inst sg) s =
      .next (if inst % 2 ^ 16 < 1024 && decide (lifecycle s ≠ 3) && responseGood s n chain (inst % 2 ^ 16) sg then
        setEvent { s with dbg := { s.dbg with nonce := none, state := .opened, inst := inst % 2 ^ 16 } } gatePage 16
      else refuseDebug { s with dbg := { s.dbg with nonce := none } }) := by
  change execDebugResponse chain inst sg s = _
  rw [execDebugResponse, hgate, if_neg (by decide)]
  simp only [hst, hn]
  split <;> rfl

theorem exec_debugAccess_of_gate (hgate : gateTakes s = true) (core : Nat) (w : Bool) (addr : Nat) (v : Word32) :
    exec (.debugAccess core w addr v) s = .next (if accessRefused s core addr then refuseDebug s
      else if w then memPut s core addr (le 4 v.toNat) else emit s (.debug (memGet s core addr 4))) := by
  change execDebugAccess core w addr v s = _
  rw [execDebugAccess, hgate, if_neg (by decide)]
  split
  · rfl
  · split <;> rfl

theorem exec_debugClose (s : State) : exec .debugClose s = .next (if gateTakes s then closeGate s else s) := rfl

theorem exec_debugChallenge_of_shut (hgate : gateTakes s = false) : exec .debugChallenge s = .next s := by
  change execDebugChallenge s = _
  rw [execDebugChallenge, hgate]
  rfl

end

/-- Settles O37: each command by the branch that its condition selects. -/
theorem cacheFlushRootKeyAndDebugGate : Obligations.CacheFlushRootKeyAndDebugGate := by
  intro acc v s _
  refine ⟨fun hreach hbusy hgo => ?_, fun hreach hgo => ?_, fun h => ?_, fun hbusy => ?_, fun hbusy => ?_,
    fun hpending hgathered hpool => ?_,
    fun h => by rw [exec_drkGenerate, drkGenerate_of_not_ready h], fun hgate hlife => ?_,
    fun n chain inst sg hgate hst hn hinst hlife hgood => ?_, fun n chain inst sg hgate hst hn hbad => ?_,
    fun core addr hgate hok => ?_, fun core addr w hgate hbad => ?_, fun hgate => ?_, fun hgate => ?_⟩
  · rw [exec_kcFlush hreach, writeFlush_of_go hbusy hgo]
  · rw [exec_kcFlush hreach, writeFlush_of_no_go hgo]
  · rcases h with h | ⟨hbusy, hgo⟩
    · exact exec_kcFlush_of_unreached h v
    · cases hreach : reaches s acc 0x081 with
      | false => exact exec_kcFlush_of_unreached hreach v
      | true => rw [exec_kcFlush hreach, writeFlush_of_busy hbusy hgo]
  · obtain ⟨hdone, hkeys, hjobs⟩ := flushDone_kc_keys hbusy
    refine ⟨_, exec_kcFlushDone s, hdone, fun h k hmem hsel => ?_, fun h k hmem hsel => ?_, hjobs⟩
    · rw [hkeys] at hmem
      obtain ⟨k0, -, hk0⟩ := List.mem_filterMap.mp hmem
      exact flushedKey_of_selected hk0 hsel
    · rw [hkeys]
      exact List.mem_filterMap.mpr ⟨(h, k), hmem, if_neg (by rw [hsel]; exact Bool.false_ne_true)⟩
  · rw [exec_kcFlushDone, flushDone, hbusy]
    rfl
  · obtain ⟨⟨hdone, hcheck, htaken, hjobs⟩, hburned⟩ := drkGenerate_spec hpending hgathered hpool
    exact ⟨_, exec_drkGenerate s, hdone, hcheck, htaken, hburned, hjobs⟩
  · exact ⟨_, _, exec_debugChallenge_of_open hgate hlife, keelDraw_length .., rfl, rfl, List.mem_append_right _ (by simp)⟩
  · have hmod : inst % 2 ^ 16 = inst := Nat.mod_eq_of_lt (by omega)
    refine ⟨_, exec_debugResponse_of_nonce hgate hst hn chain inst sg, ?_⟩
    rw [hmod, hgood, decide_eq_true hinst, decide_eq_true hlife, if_pos (by decide), setEvent_debug, setEvent_cores]
    exact ⟨rfl, rfl, rfl, rfl⟩
  · rw [exec_debugResponse_of_nonce hgate hst hn, hbad, Bool.and_false, if_neg Bool.false_ne_true]
  · rw [exec_debugAccess_of_gate hgate, exec_debugAccess_of_gate hgate, hok]
    exact ⟨rfl, rfl⟩
  · rw [exec_debugAccess_of_gate hgate, if_pos hbad]
  · rw [exec_debugClose, if_pos hgate, closeGate]
  · rw [exec_debugClose, hgate, exec_debugChallenge_of_shut hgate]
    exact ⟨rfl, rfl⟩

end Sys2Proof.Machine

/-! PROOF. What the modular and data commands of a Sail engine write (R418, R419, R425) and the rest of an engine's commands
(R415, R437 to R446, R449). -/

namespace Sys2Proof.Machine

/-! ### The words of a result (R418) -/

/-- Addresses and values of the words written, their attributes left out. -/
def wordsWritten (ws : List (Nat × Nat × SailAttr)) : List (Nat × Nat) := ws.map fun w => (w.1, w.2.1)

theorem wordsWritten_wordsOf (addr n v : Nat) (a : SailAttr) :
    wordsWritten (wordsOf addr n v a) = (List.range n).map fun i => (addr + i, v / 2 ^ (64 * i) % 2 ^ 64) := by
  rw [wordsWritten, wordsOf, List.map_map]
  refine List.map_congr_left fun i _ => ?_
  simp only [Function.comp_apply, bits, Nat.shiftRight_eq_div_pow]

section
variable {e : Sail} {x : SailRun}

theorem operands_of_three (h : cmdOp x.word = 0x04 ∨ cmdOp x.word = 0x05 ∨ cmdOp x.word = 0x06) :
    operands e x = [opnd x.arg0 1 true, opnd x.arg1 1 false, opnd x.arg2 1 false] := by
  rcases h with h | h | h <;> simp only [operands, h]

theorem operands_of_two (h : cmdOp x.word = 0x0A ∨ cmdOp x.word = 0x0E) :
    operands e x = [opnd x.arg0 1 true, opnd x.arg1 1 false] := by
  rcases h with h | h <;> simp only [operands, h]

theorem operands_of_clear (h : cmdOp x.word = 0x0D) : operands e x = [opnd x.arg0 1 true] := by
  simp only [operands, h]

theorem operands_of_eq (h : cmdOp x.word = 0x0F) : operands e x = [opnd x.arg1 1 false, opnd x.arg2 1 false] := by
  simp only [operands, h]

theorem operands_of_modSet (h : cmdOp x.word = 0x01) : operands e x = [opnd x.arg1 1 false] := by
  simp only [operands, h]

end

/-- The value of the source operand that an argument register names. -/
abbrev sourceInt (e : Sail) (arg : Nat) : Nat := opInt e (opnd arg 1 false) 0 (opLen (opnd arg 1 false))

/-- The command writes the words of `v` at its destination, and nothing else. -/
def EndWrites (s : State) (e : Sail) (x : SailRun) (v : Nat) : Prop :=
  ∃ a, (primEnd s e x).writes = wordsOf (opnd x.arg0 1 true).addr (opLen (opnd x.arg0 1 true)) v a

section
variable {s : State} {e : Sail} {x : SailRun}

theorem EndWrites.words {v : Nat} (h : EndWrites s e x v) : wordsWritten (primEnd s e x).writes =
    (List.range (opLen (opnd x.arg0 1 true))).map fun i => ((opnd x.arg0 1 true).addr + i, v / 2 ^ (64 * i) % 2 ^ 64) := by
  obtain ⟨a, h⟩ := h
  rw [h, wordsWritten_wordsOf]

theorem endWrites_copy (h : cmdOp x.word = 0x0E) : EndWrites s e x (sourceInt e x.arg1) := by
  simp only [EndWrites, primEnd, operands_of_two (.inr h), h]
  exact ⟨_, rfl⟩

theorem endWrites_clear (h : cmdOp x.word = 0x0D) : EndWrites s e x 0 := by
  simp only [EndWrites, primEnd, operands_of_clear h, h]
  exact ⟨_, rfl⟩

theorem primEnd_eq (h : cmdOp x.word = 0x0F) :
    (primEnd s e x).flag = decide (sourceInt e x.arg1 = sourceInt e x.arg2) ∧ (primEnd s e x).writes = [] := by
  simp only [primEnd, operands_of_eq h, h]
  exact ⟨rfl, trivial⟩

theorem primEnd_modSet (h : cmdOp x.word = 0x01) :
    (primEnd s e x).mods.map (fun q => (q.1, q.2.m, q.2.n)) =
      [(cmdMs x.word, sourceInt e x.arg1, opLen (opnd x.arg1 1 false))] ∧ (primEnd s e x).writes = [] := by
  simp only [primEnd, operands_of_modSet h, h]
  exact ⟨rfl, trivial⟩

variable {m : ModSlot} (hm : tfind e.mods (cmdMs x.word) = some m)
include hm

theorem endWrites_add (h : cmdOp x.word = 0x04) :
    EndWrites s e x ((sourceInt e x.arg1 + sourceInt e x.arg2) % m.m) := by
  simp only [EndWrites, primEnd, operands_of_three (.inl h), h, hm]
  exact ⟨_, rfl⟩

theorem endWrites_sub (h : cmdOp x.word = 0x05) :
    EndWrites s e x ((sourceInt e x.arg1 + m.m - sourceInt e x.arg2) % m.m) := by
  simp only [EndWrites, primEnd, operands_of_three (.inr (.inl h)), h, hm]
  exact ⟨_, rfl⟩

theorem endWrites_mul (h : cmdOp x.word = 0x06) :
    EndWrites s e x (montMul m.n m.m (sourceInt e x.arg1) (sourceInt e x.arg2)) := by
  simp only [EndWrites, primEnd, operands_of_three (.inr (.inr h)), h, hm]
  exact ⟨_, rfl⟩

theorem endWrites_reduce (h : cmdOp x.word = 0x0A) : EndWrites s e x (sourceInt e x.arg1 % m.m) := by
  simp only [EndWrites, primEnd, operands_of_two (.inl h), h, hm]
  exact ⟨_, rfl⟩

end

/-! ### SAIL_ABORT (R440) -/

section
variable {s : State} {acc : Acc} {p : Nat}

theorem exec_sailAbort (hreach : expertReach s acc p = true) :
    exec (.sailAbort acc p 0xA5A5) s = .next (abortEngine s p) := by
  change execSailAbort acc p 0xA5A5 s = _
  rw [execSailAbort, hreach]
  rfl

theorem exec_sailAbort_of_dropped {v : Word32} (h : v ≠ 0xA5A5 ∨ expertReach s acc p = false) :
    exec (.sailAbort acc p v) s = .next s := by
  change execSailAbort acc p v s = _
  rw [execSailAbort, if_neg]
  rcases h with h | h
  · rw [decide_eq_false h, Bool.and_false]
    exact Bool.false_ne_true
  · rw [h, Bool.false_and]
    exact Bool.false_ne_true

theorem withdrawRequests_sails (s : State) (p : Nat) : (withdrawRequests s p).sails = s.sails := by
  unfold withdrawRequests
  extract_lets d s' l
  split <;> rfl

theorem withdrawRequests_jobs (s : State) (p : Nat) : (withdrawRequests s p).jobs = s.jobs := by
  unfold withdrawRequests
  extract_lets d s' l
  split <;> rfl

/-- An engine whose command is aborted (R440): `n` are the cycles that the command took. -/
def abortedSail (e : Sail) (n : Nat) : Sail :=
  { wiped e with
    result := 0xB, countAbort := e.countAbort + 1, countCmd := if e.run.isSome then e.countCmd + 1 else e.countCmd
    cycles := if e.run.isSome then n % 2 ^ 32 else e.cycles, levelAfterWipe := e.levelAfterWipe }

theorem abortEngine_eq (s : State) (p : Nat) : ∃ n u, u.sails = s.sails ∧ u.jobs = s.jobs ∧ abortEngine s p =
    if (sailAt s p).expert && (sailAt s p).run.isSome
      then setEvent (setEvent (putSail u p (abortedSail (sailAt s p) n)) p 16) p 18
      else setEvent (putSail u p (abortedSail (sailAt s p) n)) p 16 :=
  ⟨Config.freeNat (withdrawRequests s p).fresh, { withdrawRequests s p with fresh := (withdrawRequests s p).fresh + 1 },
    withdrawRequests_sails s p, withdrawRequests_jobs s p, rfl⟩

theorem abortEngine_spec (s : State) (p : Nat) :
    ∃ n, (abortEngine s p).sails = tset {} s.sails p (abortedSail (sailAt s p) n) ∧ (abortEngine s p).jobs = s.jobs := by
  obtain ⟨n, u, hsails, hjobs, heq⟩ := abortEngine_eq s p
  refine ⟨n, ?_⟩
  rw [heq, ← hsails, ← hjobs]
  split
  · rw [setEvent_sails, setEvent_sails, setEvent_jobs, setEvent_jobs, putSail_jobs]
    exact ⟨rfl, rfl⟩
  · rw [setEvent_sails, setEvent_jobs, putSail_jobs]
    exact ⟨rfl, rfl⟩

theorem sailAt_of_tset (hs : TablesCanonical s) {t : State} {e : Sail} (h : t.sails = tset {} s.sails p e) :
    sailAt t p = e ∧ ∀ q, q ≠ p → sailAt t q = sailAt s q := by
  refine ⟨?_, fun q hq => ?_⟩
  · rw [sailAt, h]
    exact tget_tset_same (d := fun _ => ({} : Sail)) hs.sails p e
  · rw [sailAt, h]
    exact tget_tset_ne _ _ _ _ hq

/-! ### The end of a wipe (R441) -/

theorem exec_wipeComplete (p : Nat) (b : Bool) (s : State) : exec (.wipeComplete p b) s = .next (wipeDone s p b) := rfl

theorem wipeDone_of_not_wiping (h : (sailAt s p).estate ≠ .wiping) (b : Bool) : wipeDone s p b = s := if_pos h

theorem wipeDone_of_nonzero (h : (sailAt s p).estate = .wiping) :
    wipeDone s p true = rowRepair (setEvent s p 17) p 0 0 := by
  unfold wipeDone
  extract_lets e
  rw [if_neg (not_not.mpr h), if_pos rfl]

theorem wipeDone_of_zero (h : (sailAt s p).estate = .wiping) (hlevel : (sailAt s p).levelAfterWipe = none) :
    wipeDone s p false = putSail { s with sig := { s.sig with tables := s.sig.tables.filter fun t => t.engine ≠ p } } p
      { wiped (sailAt s p) with estate := .idle, countWipe := (sailAt s p).countWipe + 1 } := by
  have hlevel' : ({ wiped (sailAt s p) with estate := .idle, countWipe := (sailAt s p).countWipe + 1 } : Sail).levelAfterWipe = none :=
    hlevel
  unfold wipeDone
  extract_lets e t
  rw [if_neg (not_not.mpr h), if_neg Bool.false_ne_true]
  split
  · rfl
  next lv hlv => exact absurd (hlv.symm.trans hlevel') (by simp)

/-! ### The memory window (R444 to R446) -/

theorem exec_sailMemWrite (hreach : expertReach s acc p = true) (hi : Bool) (v : Word32) :
    exec (.sailMemWrite acc p hi v) s = .next (windowWrite s p hi v) := by
  change execSailMemWrite acc p hi v s = _
  rw [execSailMemWrite, if_pos hreach]

theorem exec_sailMemRead (hreach : expertReach s acc p = true) (hi : Bool) : exec (.sailMemRead acc p hi) s =
    .next (emit (windowRead s p hi).2 (.readValue acc (w32 (windowRead s p hi).1))) := by
  change execSailMemRead acc p hi s = _
  rw [execSailMemRead, if_pos hreach]

theorem windowWrite_of_shut (h : windowShut (sailAt s p) = true) (hi : Bool) (v : Word32) :
    windowWrite s p hi v = putSail s p { sailAt s p with overrun := true } := if_pos h

theorem windowRead_of_shut (h : windowShut (sailAt s p) = true) (hi : Bool) :
    windowRead s p hi = (0, putSail s p { sailAt s p with overrun := true }) := if_pos h

theorem windowWrite_lo (h : windowShut (sailAt s p) = false) (v : Word32) :
    windowWrite s p false v = putSail s p { sailAt s p with heldLo := v } := by
  unfold windowWrite
  extract_lets e a w
  rw [if_neg (show ¬windowShut e = true by rw [h]; exact Bool.false_ne_true)]
  rfl

theorem windowWrite_hi (h : windowShut (sailAt s p) = false) (hmem : bit (sailAt s p).memAddr.toNat 16 = false)
    (hlow : bits (sailAt s p).memAddr.toNat 0 13 < memWords p) (v : Word32) : windowWrite s p true v =
      putSail s p (writeWord { sailAt s p with memAddr := nextAddr (sailAt s p).memAddr }
        (bits (sailAt s p).memAddr.toNat 0 13, (sailAt s p).heldLo.toNat + 2 ^ 32 * v.toNat, {})) := by
  have hword : ¬(bit (sailAt s p).memAddr.toNat 16 = true ∨ memWords p ≤ bits (sailAt s p).memAddr.toNat 0 13) := by
    rw [hmem]
    rintro (h | h)
    · exact Bool.false_ne_true h
    · omega
  unfold windowWrite
  extract_lets e a w e'
  rw [if_neg (show ¬windowShut e = true by rw [h]; exact Bool.false_ne_true), if_neg (by decide)]
  exact if_neg hword

/-- A SECRET word reads 0 (R446). -/
theorem windowRead_of_secret (h : windowShut (sailAt s p) = false) (hmem : bit (sailAt s p).memAddr.toNat 16 = false)
    (hlow : bits (sailAt s p).memAddr.toNat 0 13 < memWords p)
    (hsecret : (attrAt (sailAt s p) (bits (sailAt s p).memAddr.toNat 0 13)).secret = true) :
    windowRead s p false = (0, putSail s p { sailAt s p with hidden := true, readHi := 0 }) := by
  have hin : decide (memWords p ≤ bits (sailAt s p).memAddr.toNat 0 13) = false := decide_eq_false (Nat.not_le.mpr hlow)
  simp only [windowRead, h, hmem, hsecret, hin, Bool.false_eq_true, if_false, if_true, Bool.not_false, Bool.and_true,
    Bool.or_true, Nat.zero_mod, Nat.zero_div]
  rfl

/-! ### PORT_HASH_COMPLETE (R437) -/

theorem exec_portHashComplete {x : SailRun} (hrun : (sailAt s p).run = some x) (hst : (sailAt s p).estate = .waitLane)
    (hport : (tget {} s.lanes (chanOf p)).port ≠ some p) : exec (.portHashComplete p) s =
      .next (putSail s p { sailAt s p with estate := .busy, run := some { x with hashed := true } }) := by
  change execPortHashComplete p s = _
  simp only [execPortHashComplete, hrun, hst, if_true, execPortHashComplete.withdrawLane]
  exact congrArg _ (if_neg hport)

end

/-- Settles O40: what each arithmetic command writes, read word by word, and each command of the engine by the branch that
its condition selects. -/
theorem sailArithmeticAndEngine : Obligations.SailArithmeticAndEngine := by
  constructor
  · rintro s e x d a b m rfl rfl rfl hm
    exact ⟨fun h => (endWrites_add hm h).words, fun h => (endWrites_sub hm h).words, fun h => (endWrites_mul hm h).words,
      fun h => (endWrites_reduce hm h).words, fun h => (endWrites_copy h).words,
      fun h => (endWrites_clear h).words.trans (by simp only [Nat.zero_div, Nat.zero_mod]),
      primEnd_eq, primEnd_modSet⟩
  · intro acc p v s hs
    have htab := hs.tables
    refine ⟨fun hreach => ?_, exec_sailAbort_of_dropped, fun hst hlevel => ?_, fun hst => ?_, fun b hst => ?_,
      fun hreach hopen => ?_, fun hreach hopen hmem hlow => ?_, fun hreach hopen hmem hlow hsecret => ?_,
      fun hreach hshut hi => ⟨?_, ?_⟩, fun x => exec_portHashComplete⟩
    · obtain ⟨n, hsails, hjobs⟩ := abortEngine_spec s p
      obtain ⟨hself, hothers⟩ := sailAt_of_tset htab hsails
      refine ⟨_, exec_sailAbort hreach, ?_⟩
      rw [hself]
      exact ⟨rfl, rfl, rfl, rfl, rfl, hothers, hjobs⟩
    · obtain ⟨hself, hothers⟩ := sailAt_of_tset htab (congrArg State.sails (wipeDone_of_zero hst hlevel))
      refine ⟨_, exec_wipeComplete p false s, ?_⟩
      rw [hself]
      refine ⟨rfl, rfl, rfl, rfl, rfl, rfl, rfl, hothers, ?_⟩
      rw [wipeDone_of_zero hst hlevel]
      rfl
    · rw [exec_wipeComplete, wipeDone_of_nonzero hst]
    · rw [exec_wipeComplete, wipeDone_of_not_wiping hst]
    · rw [exec_sailMemWrite hreach, windowWrite_lo hopen]
    · rw [exec_sailMemWrite hreach, windowWrite_hi hopen hmem hlow]
    · rw [exec_sailMemRead hreach, windowRead_of_secret hopen hmem hlow hsecret]
      rfl
    · rw [exec_sailMemWrite hreach, windowWrite_of_shut hshut]
    · rw [exec_sailMemRead hreach, windowRead_of_shut hshut]
      rfl

end Sys2Proof.Machine

/-! PROOF. How a Carit instruction that passes its checks runs (R535, R538, R543, R552, R565): what its work does, then its
completion, in terms of the one core that changes. -/

namespace Sys2Proof.Machine

section
variable {s t u : State} {p : Nat} {c d : Core} {ps : List Part} {body : State → Res}

/-! ### One core changes -/

theorem OnlyCore.refl (s : State) (p : Nat) : OnlyCore s s p (coreAt s p) := ⟨rfl, fun _ _ => rfl, rfl⟩

theorem OnlyCore.trans (h : OnlyCore s t p c) (k : OnlyCore t u p d) : OnlyCore s u p d where
  core := k.core
  others := fun q hq => (k.others q hq).trans (h.others q hq)
  frame := by
    rw [k.frame, h.frame]

theorem onlyCore_putCore (hs : TablesCanonical s) (p : Nat) (c : Core) : OnlyCore s (putCore s p c) p c :=
  ⟨coreAt_putCore hs p c, fun _ hq => coreAt_putCore_ne _ _ hq, rfl⟩

theorem putCore_tables (hs : TablesCanonical s) (p : Nat) (c : Core) : TablesCanonical (putCore s p c) :=
  (putCore_ev (.refl s)).tables hs

/-! ### Checks and the stack -/

/-- The checks of R565 and R610 find nothing. -/
theorem firstFault_of_canRun (h : CanRun s p ps) : firstFault p (coreAt s p) none false false ps = none := by
  simp only [firstFault, h.fetch, h.aligned, h.depth, ne_eq, not_true_eq_false, if_false, Bool.false_eq_true, Option.map_none]

/-- With its operands in the core and room for its results an instruction neither fills nor spills (R535). -/
theorem ready_of_canRun (h : CanRun s p ps) : ready s p ps = .ok (0, 0, s) := by
  have hodd : decide (coreEntries < leftOf (coreAt s p).stack.length ps) = false := decide_eq_false (Nat.not_lt.mpr h.room)
  have hspills : spillsFor (leftOf (coreAt s p).stack.length ps) = 0 := by
    rw [spillsFor, Nat.sub_eq_zero_of_le h.room]
  have hfill : fillTo p (needOf ps) (coreEntries + 1) s = .ok (0, s) := if_pos h.held
  simp only [ready, hodd, Bool.false_and, Bool.false_eq_true, if_false, Nat.max_zero, hfill, hspills, Nat.lt_irrefl, false_and,
    decide_false, List.range_zero, List.filterMap_nil, List.head?_nil]

theorem runIns_of_canRun (h : CanRun s p ps) (body : State → Res) (full : Bool) :
    runIns p none false false full ps body s =
      if full then takeException s p ⟨6, 0, 0⟩ (coreAt s p).pc 0
      else match body s with
        | .done t jump cycles => completeIns t p jump cycles 0
        | .trap m e => takeException s p e (coreAt s p).pc m
        | .trapAt t e => takeException t p e (coreAt s p).pc 0
        | .wait on t => waitIns t p on
        | .again t cycles => putCore t p (passCycles { coreAt t p with stall := .none } cycles) := by
  have hruns : ¬(!coreRuns s p) = true := by
    rw [h.runs]
    decide
  simp only [runIns, if_neg hruns, firstFault_of_canRun h, ready_of_canRun h]
  rfl

theorem runIns_of_done {jump : Option Word32} {n : Nat} (h : CanRun s p ps) (hbody : body s = .done t jump n) :
    runIns p none false false false ps body s = completeIns t p jump n 0 := by
  simp only [runIns_of_canRun h, hbody, Bool.false_eq_true, if_false]

theorem runPlain_of_done {pops pushes n : Nat} {jump : Option Word32} (h : CanRun s p [(pops, pops, pushes)])
    (hbody : body s = .done t jump n) : runPlain p pops pushes body s = completeIns t p jump n 0 := runIns_of_done h hbody

/-! ### Completion (R552, R566) -/

/-- An instruction that changes one core, and jumps. -/
theorem completeIns_jump (ht : TablesCanonical t) (h : OnlyCore s t p c) (next : Word32) (n : Nat) :
    OnlyCore s (completeIns t p (some next) n 0) p (retired c next n) := by
  refine h.trans ?_
  rw [← h.core]
  exact onlyCore_putCore ht p _

/-- The instruction at PC is not the last one of the innermost loop. -/
def NoLoopEnd (c : Core) : Prop := c.ldepth = 0 ∨ tget 0 c.le (c.ldepth - 1) ≠ c.pc

theorem CanRun.noLoop (h : CanRun s p ps) : NoLoopEnd (coreAt s p) := h.noLoopEnd

theorem loopNext_of_no_end (h : NoLoopEnd c) : loopNext 4 c = (c.pc + 4, c) := if_pos h

/-- An instruction that changes one core, and goes on at `pc + 4`. -/
theorem completeIns_next (ht : TablesCanonical t) (h : OnlyCore s t p c) (hloop : NoLoopEnd c) (n : Nat) :
    OnlyCore s (completeIns t p none n 0) p (retired c (c.pc + 4) n) := by
  refine h.trans ?_
  have hend : NoLoopEnd (coreAt t p) := by rwa [h.core]
  rw [completeIns, spillDown, loopNext_of_no_end hend, h.core]
  exact onlyCore_putCore ht p _

/-- Core `d` stands where `c` does: nothing that decides the next PC has changed. -/
structure SamePlace (c d : Core) : Prop where
  pc : d.pc = c.pc
  ldepth : d.ldepth = c.ldepth
  le : d.le = c.le

theorem SamePlace.noLoop (h : SamePlace c d) (hc : NoLoopEnd c) : NoLoopEnd d := by
  rw [NoLoopEnd, h.pc, h.ldepth, h.le]
  exact hc

theorem SamePlace.trans {e : Core} (h : SamePlace c d) (k : SamePlace d e) : SamePlace c e :=
  ⟨k.pc.trans h.pc, k.ldepth.trans h.ldepth, k.le.trans h.le⟩

theorem runIns_next {n : Nat} (h : CanRun s p ps) (hbody : body s = .done t none n) (ht : TablesCanonical t)
    (hone : OnlyCore s t p d) (hplace : SamePlace (coreAt s p) d) :
    OnlyCore s (runIns p none false false false ps body s) p (retired d ((coreAt s p).pc + 4) n) := by
  rw [runIns_of_done h hbody, ← hplace.pc]
  exact completeIns_next ht hone (hplace.noLoop h.noLoop) n

theorem runIns_jump {n : Nat} {next : Word32} (h : CanRun s p ps) (hbody : body s = .done t (some next) n)
    (ht : TablesCanonical t) (hone : OnlyCore s t p d) :
    OnlyCore s (runIns p none false false false ps body s) p (retired d next n) := by
  rw [runIns_of_done h hbody]
  exact completeIns_jump ht hone next n

theorem runPlain_coreWork (hs : TablesCanonical s) {pops pushes : Nat} (h : CanRun s p [(pops, pops, pushes)]) (n : Nat)
    {f : Core → Core} (hplace : SamePlace (coreAt s p) (f (coreAt s p))) :
    OnlyCore s (runPlain p pops pushes (coreWork p n f) s) p (retired (f (coreAt s p)) ((coreAt s p).pc + 4) n) :=
  runIns_next h rfl (putCore_tables hs p _) (onlyCore_putCore hs p _) hplace

/-! ### Local memory (R294, R599) -/

theorem targetOf_own {a : Nat} (h : a < 0x20000) : targetOf p a = .own a := if_pos h

theorem accessCycles_own {a : Nat} (h : a < 0x20000) : accessCycles s p a = (0, s) := by
  rw [accessCycles, targetOf_own h]

theorem load_own {plain : Bool} {a n : Nat} (h : a + n ≤ 0x20000)
    (hcheck : accessCheck p (coreAt s p) (coreAt s p).ring .read plain a n = none) :
    load s p plain a n = .ok (memGet s p a n, s) := by
  simp only [load, hcheck, loadRaw, if_pos h]

theorem storeRefused_own {ring a n : Nat} (h : a + n ≤ 0x20000) : storeRefused s p ring a n = none := by
  refine List.find?_eq_none.mpr fun b hb => ?_
  obtain ⟨i, hi, rfl⟩ := List.mem_map.mp hb
  have hi := List.mem_range.mp hi
  rw [targetOf_own (by omega)]
  exact Bool.false_ne_true

theorem store_own {plain : Bool} {a : Nat} {bs : Bytes} (h : a + bs.length ≤ 0x20000)
    (hcheck : accessCheck p (coreAt s p) (coreAt s p).ring .write plain a bs.length = none) :
    store s p plain a bs = .ok (memPut s p a bs) := by
  simp only [store, hcheck, storeRefused_own h, storeRaw, if_pos h]

theorem le_length (n v : Nat) : (le n v).length = n := (List.length_map _).trans List.length_range

end

end Sys2Proof.Machine

/-! PROOF. What Carit's value, control, memory and capability instructions do (R540 to R556). -/

namespace Sys2Proof.Machine

section
variable {s : State} {p : Nat}

/-! ### Pairs (R540 to R544) -/

theorem samePlace_shortValue (v : Nat) (c : Core) : SamePlace c (shortValue v c) := by
  unfold shortValue
  extract_lets t n
  split
  · exact ⟨rfl, rfl, rfl⟩
  · split
    · exact ⟨rfl, rfl, rfl⟩
    · split <;> exact ⟨rfl, rfl, rfl⟩

/-- Cycles of a value operation: multiplications take three (R544). -/
def shortCycles (v : Nat) : Nat := if sopOf v = 0x0C ∨ sopOf v = 0x0D then 3 else 1

theorem shortCycles_range (v : Nat) : 1 ≤ shortCycles v ∧ shortCycles v ≤ 3 := by
  unfold shortCycles
  split <;> decide

theorem shortExec_value {v : Nat} (hmem : shortMem v = false) (hcontrol : shortControl v = false) (s : State) :
    shortExec p v s = .ok (putCore s p (shortValue v (coreAt s p)), none, shortCycles v) := by
  rw [shortExec, hmem, hcontrol]
  rfl

theorem exec_pairInstruction {a b : Nat} (ha : a < 2 ^ 15) (hb : b < 2 ^ 15) (hlegal : pairIllegal (coreAt s p) a b = none)
    (hfree : pairDependent a b = false) : exec (.pairInstruction p a b) s =
      .next (runIns p none false false false [shortPart (coreAt s p) a, shortPart (coreAt s p) b] (pairWork p a b) s) := by
  change execPairInstruction p a b s = _
  rw [execPairInstruction, Nat.mod_eq_of_lt ha, Nat.mod_eq_of_lt hb]
  simp only [hlegal, hfree]

theorem pairWork_values (hs : TablesCanonical s) {a b : Nat} (ha : shortMem a = false) (ha' : shortControl a = false)
    (hb : shortMem b = false) (hb' : shortControl b = false) : pairWork p a b s =
      .done (putCore (putCore s p (shortValue a (coreAt s p))) p (shortValue b (shortValue a (coreAt s p)))) none
        (max (shortCycles a) (shortCycles b)) := by
  simp only [pairWork, shortExec_value ha ha', shortExec_value hb hb', coreAt_putCore hs]

theorem pairInstruction_values (hs : TablesCanonical s) {a b : Nat} (hlt : a < 2 ^ 15 ∧ b < 2 ^ 15)
    (hrun : CanRun s p [shortPart (coreAt s p) a, shortPart (coreAt s p) b]) (hlegal : pairIllegal (coreAt s p) a b = none)
    (hfree : pairDependent a b = false) (hmem : shortMem a = false ∧ shortMem b = false)
    (hcontrol : shortControl a = false ∧ shortControl b = false) :
    ∃ t n, exec (.pairInstruction p a b) s = .next t ∧ 1 ≤ n ∧ n ≤ 3 ∧
      OnlyCore s t p (retired (shortValue b (shortValue a (coreAt s p))) ((coreAt s p).pc + 4) n) := by
  obtain ⟨ha1, ha3⟩ := shortCycles_range a
  obtain ⟨hb1, hb3⟩ := shortCycles_range b
  have hfirst := putCore_tables hs p (shortValue a (coreAt s p))
  refine ⟨_, max (shortCycles a) (shortCycles b), exec_pairInstruction hlt.1 hlt.2 hlegal hfree, by omega, by omega, ?_⟩
  exact runIns_next hrun (pairWork_values hs hmem.1 hcontrol.1 hmem.2 hcontrol.2) (putCore_tables hfirst p _)
    ((onlyCore_putCore hs p _).trans (onlyCore_putCore hfirst p _))
    ((samePlace_shortValue a _).trans (samePlace_shortValue b _))

/-! ### Jumps, calls and loops (R551, R553 to R556) -/

/-- A conditional jump pops its word, and jumps or goes on. -/
theorem condJump (hs : TablesCanonical s) (h : CanRun s p [(1, 1, 0)]) (off : Nat) (taken : Word64 → Bool) :
    OnlyCore s (runPlain p 1 0 (condWork p off taken) s) p (if taken (topOf (coreAt s p) 0)
      then retired (popN (coreAt s p) 1) (branchTo (coreAt s p) (signed64 24 off)) 2
      else retired (popN (coreAt s p) 1) ((coreAt s p).pc + 4) 1) := by
  cases htaken : taken (topOf (coreAt s p) 0) with
  | true =>
    refine runIns_jump h ?_ (putCore_tables hs p _) (onlyCore_putCore hs p _)
    simp only [condWork, htaken, if_true]
  | false =>
    refine runIns_next h ?_ (putCore_tables hs p _) (onlyCore_putCore hs p _) ⟨rfl, rfl, rfl⟩
    simp only [condWork, htaken, Bool.false_eq_true, if_false]

/-- The core after the return address has been stored (R555). -/
def called (c : Core) : Core :=
  { c with
    rsp := c.rsp - 8, mem := putBytes c.mem (c.rsp - 8).toNat (le 8 (c.pc + 4).toNat)
    tags := clearTags c.tags (c.rsp - 8).toNat 8 }

theorem call_next (hs : TablesCanonical s) {pops : Nat} (target : Core → Word32) (h : CanRun s p [(pops, pops, 0)])
    (hroom : (coreAt s p).rsl.toNat + 8 ≤ (coreAt s p).rsp.toNat) (htop : (coreAt s p).rsp.toNat ≤ 0x20000)
    (hcheck : accessCheck p (coreAt s p) (coreAt s p).ring .write false ((coreAt s p).rsp - 8).toNat 8 = none) :
    OnlyCore s (runPlain p pops 0 (callWork p pops target) s) p
      (retired (popN (called (coreAt s p)) pops) (target (coreAt s p)) 2) := by
  have hrsp : ((coreAt s p).rsp - 8).toNat = (coreAt s p).rsp.toNat - 8 :=
    BitVec.toNat_sub_of_le (BitVec.le_def.mpr (Nat.le_trans (Nat.le_add_left 8 _) hroom))
  have hlow : ((coreAt s p).rsp - 8).toNat + (le 8 ((coreAt s p).pc + 4).toNat).length ≤ 0x20000 := by
    rw [le_length, hrsp]
    omega
  have hlen := le_length 8 ((coreAt s p).pc + 4).toNat
  have hstore := store_own hlow (by rw [hlen]; exact hcheck)
  have hput := putCore_tables hs p { coreAt s p with
    mem := putBytes (coreAt s p).mem ((coreAt s p).rsp - 8).toNat (le 8 ((coreAt s p).pc + 4).toNat)
    tags := clearTags (coreAt s p).tags ((coreAt s p).rsp - 8).toNat (le 8 ((coreAt s p).pc + 4).toNat).length }
  have hbody : callWork p pops target s = .done (putCore (memPut s p ((coreAt s p).rsp - 8).toNat
      (le 8 ((coreAt s p).pc + 4).toNat)) p (popN (called (coreAt s p)) pops)) (some (target (coreAt s p))) 2 := by
    simp only [callWork, if_neg (Nat.not_lt.mpr hroom), hstore, coreAt_memPut hs, hlen]
    rfl
  exact runIns_jump h hbody (putCore_tables hput p _) ((onlyCore_putCore hs p _).trans (onlyCore_putCore hput p _))

theorem spanIllegal_of_range {span : Nat} (hpos : 0 < span) (hlt : span < 2 ^ 12) : spanIllegal span = none := by
  rw [spanIllegal, Nat.mod_eq_of_lt hlt, if_neg (Nat.ne_of_gt hpos)]

/-- The core after a loop level has opened with count `n` (R551). -/
def loopOpened (c d : Core) (span : Nat) (n : Word64) : Core :=
  { d with
    ls := tset 0 c.ls c.ldepth (c.pc + 4), le := tset 0 c.le c.ldepth (c.pc + BitVec.ofNat 32 (4 * span))
    lc := tset 0 c.lc c.ldepth n, ldepth := c.ldepth + 1 }

theorem exec_loop {span : Nat} (hpos : 0 < span) (hlt : span < 2 ^ 12) : exec (.loop p span) s =
    .next (runIns p none false false (decide (4 ≤ (coreAt s p).ldepth)) [(1, 1, 0)]
      (loopWork p 1 span fun c => topOf c 0) s) := by
  change execLoop p span s = _
  rw [execLoop, spanIllegal_of_range hpos hlt, Nat.mod_eq_of_lt hlt]

theorem exec_loopi {n span : Nat} (hpos : 0 < span) (hlt : span < 2 ^ 12) (hn : n < 2 ^ 12) : exec (.loopi p n span) s =
    .next (runIns p none false false (decide (4 ≤ (coreAt s p).ldepth)) [(0, 0, 0)]
      (loopWork p 0 span fun _ => BitVec.ofNat 64 n) s) := by
  change execLoopi p n span s = _
  rw [execLoopi, spanIllegal_of_range hpos hlt, Nat.mod_eq_of_lt hlt, Nat.mod_eq_of_lt hn]

theorem loop_opens (hs : TablesCanonical s) {pops span : Nat} {count : Core → Word64} (h : CanRun s p [(pops, pops, 0)])
    (hdepth : (coreAt s p).ldepth < 4) (hcount : count (coreAt s p) ≠ 0) :
    OnlyCore s (runIns p none false false (decide (4 ≤ (coreAt s p).ldepth)) [(pops, pops, 0)] (loopWork p pops span count) s) p
      (retired (loopOpened (coreAt s p) (popN (coreAt s p) pops) span (count (coreAt s p))) ((coreAt s p).pc + 4) 1) := by
  rw [decide_eq_false (Nat.not_le.mpr hdepth)]
  exact runIns_jump h (if_neg hcount) (putCore_tables hs p _) (onlyCore_putCore hs p _)

theorem loop_skips (hs : TablesCanonical s) {pops span : Nat} {count : Core → Word64} (h : CanRun s p [(pops, pops, 0)])
    (hdepth : (coreAt s p).ldepth < 4) (hcount : count (coreAt s p) = 0) :
    OnlyCore s (runIns p none false false (decide (4 ≤ (coreAt s p).ldepth)) [(pops, pops, 0)] (loopWork p pops span count) s) p
      (retired (popN (coreAt s p) pops) ((coreAt s p).pc + BitVec.ofNat 32 (4 * span) + 4) 1) := by
  rw [decide_eq_false (Nat.not_le.mpr hdepth)]
  exact runIns_jump h (if_pos hcount) (putCore_tables hs p _) (onlyCore_putCore hs p _)

/-! ### Loads and stores (R546) -/

theorem sizeBytes_pos (size : Nat) : 0 < sizeBytes size := Nat.two_pow_pos _

theorem ld_own (hs : TablesCanonical s) {size a : Nat} {signed : Bool} {disp : Nat} (h : CanRun s p [(1, 1, 1)])
    (ha : a = (topOf (coreAt s p) 0 + signed64 20 disp).toNat) (hlow : a + sizeBytes size ≤ 0x20000)
    (hcheck : accessCheck p (coreAt s p) (coreAt s p).ring .read true a (sizeBytes size) = none) :
    ∃ t, exec (.ld p size signed disp) s = .next t ∧ OnlyCore s t p
      (retired (push (popN (coreAt s p) 1) (extended signed (memGet s p a (sizeBytes size)))) ((coreAt s p).pc + 4) 2) := by
  subst ha
  have hpos := sizeBytes_pos size
  have hfree := accessCycles_own (s := s) (p := p) (a := (topOf (coreAt s p) 0 + signed64 20 disp).toNat) (by omega)
  refine ⟨_, rfl, runIns_next h ?_ (putCore_tables hs p _) (onlyCore_putCore hs p _) ⟨rfl, rfl, rfl⟩⟩
  simp only [hfree, load_own hlow hcheck]

/-- The core after a store into its own memory. -/
def memStored (c : Core) (a : Nat) (bs : Bytes) : Core :=
  { c with mem := putBytes c.mem a bs, tags := clearTags c.tags a bs.length }

theorem memPut_eq_putCore (s : State) (p a : Nat) (bs : Bytes) : memPut s p a bs = putCore s p (memStored (coreAt s p) a bs) := rfl

theorem st_own (hs : TablesCanonical s) {size a disp : Nat} (h : CanRun s p [(2, 2, 0)])
    (ha : a = (topOf (coreAt s p) 0 + signed64 20 disp).toNat) (hlow : a + sizeBytes size ≤ 0x20000)
    (hcheck : accessCheck p (coreAt s p) (coreAt s p).ring .write true a (sizeBytes size) = none) :
    ∃ t, exec (.st p size disp) s = .next t ∧ OnlyCore s t p (retired (popN { coreAt s p with
      mem := putBytes (coreAt s p).mem a (le (sizeBytes size) (topOf (coreAt s p) 1).toNat)
      tags := clearTags (coreAt s p).tags a (sizeBytes size) } 2) ((coreAt s p).pc + 4) 1) := by
  subst ha
  have hpos := sizeBytes_pos size
  have hlen := le_length (sizeBytes size) (topOf (coreAt s p) 1).toNat
  have hput := putCore_tables hs p (memStored (coreAt s p) (topOf (coreAt s p) 0 + signed64 20 disp).toNat
    (le (sizeBytes size) (topOf (coreAt s p) 1).toNat))
  refine ⟨_, rfl, runIns_next h ?_ (putCore_tables hput p _) ((onlyCore_putCore hs p _).trans (onlyCore_putCore hput p _))
    ⟨rfl, rfl, rfl⟩⟩
  have hfree := accessCycles_own (s := s) (p := p) (a := (topOf (coreAt s p) 0 + signed64 20 disp).toNat) (by omega)
  have hstore := store_own (by rw [hlen]; exact hlow) (by rw [hlen]; exact hcheck)
  simp only [hfree, hstore, coreAt_memPut hs, hlen]
  rfl

/-! ### Capabilities (R546 to R550) -/

theorem namesBallast_eq (c : Core) (k : Nat) : namesBallast c k = decide (bits (capReg c k).object 44 4 = 2) := rfl

/-- Reading an object that is no ballast draws nothing. -/
theorem objBytes_of_no_ballast {k off n : Nat} (h : namesBallast (coreAt s p) k = false) :
    (objBytes s (capReg (coreAt s p) k).object off n).2 = s := by
  rw [objBytes, if_neg (of_decide_eq_false h)]

theorem ldc_of_key (hs : TablesCanonical s) {k size disp off : Nat} {signed : Bool} (h : CanRun s p [(1, 1, 1)])
    (hoff : off = (topOf (coreAt s p) 0 + signed64 16 disp).toNat) (hkey : namesBallast (coreAt s p) k = false)
    (huse : capUse s (coreAt s p) k (2 ^ permLoad) off (sizeBytes size) = none) :
    ∃ t, exec (.ldc p k size signed disp) s = .next t ∧ OnlyCore s t p (retired (push (popN (coreAt s p) 1) (extended signed
      (objBytes s (capReg (coreAt s p) k).object ((capReg (coreAt s p) k).offset + off) (sizeBytes size)).1))
      ((coreAt s p).pc + 4) 3) := by
  subst hoff
  refine ⟨_, rfl, runIns_next h ?_ (putCore_tables hs p _) (onlyCore_putCore hs p _) ⟨rfl, rfl, rfl⟩⟩
  simp only [capLoad, huse, objBytes_of_no_ballast hkey, hkey, Bool.false_eq_true, if_false]

theorem objPut_of_ballast {k : Nat} (h : namesBallast (coreAt s p) k = true) (off : Nat) (bs : Bytes) :
    objPut s (capReg (coreAt s p) k).object off bs = { s with jobs := (objPut s (capReg (coreAt s p) k).object off bs).jobs } := by
  rw [objPut, if_pos (of_decide_eq_true h)]
  exact modJob_frame ..

theorem stc_of_ballast (hs : TablesCanonical s) {k size disp off : Nat} (h : CanRun s p [(2, 2, 0)])
    (hoff : off = (topOf (coreAt s p) 0 + signed64 16 disp).toNat) (hballast : namesBallast (coreAt s p) k = true)
    (huse : capUse s (coreAt s p) k (2 ^ permStore) off (sizeBytes size) = none) :
    ∃ t, exec (.stc p k size disp) s = .next t ∧ coreAt t p = retired (popN (coreAt s p) 2) ((coreAt s p).pc + 4) 20 ∧
      t.jobs = (objPut s (capReg (coreAt s p) k).object ((capReg (coreAt s p) k).offset + off)
        (le (sizeBytes size) (topOf (coreAt s p) 1).toNat)).jobs ∧ t = { s with jobs := t.jobs, cores := t.cores } := by
  subst hoff
  have hlen := le_length (sizeBytes size) (topOf (coreAt s p) 1).toNat
  generalize hu : objPut s (capReg (coreAt s p) k).object ((capReg (coreAt s p) k).offset +
    (topOf (coreAt s p) 0 + signed64 16 disp).toNat) (le (sizeBytes size) (topOf (coreAt s p) 1).toNat) = u
  have hframe : u = { s with jobs := u.jobs } := by
    rw [← hu]
    exact objPut_of_ballast hballast ..
  have hcore : coreAt u p = coreAt s p := by rw [hframe]; rfl
  have hut : TablesCanonical u := by
    rw [← hu]
    exact (objPut_ev (.refl s)).tables hs
  have hput := putCore_tables hut p (popN (coreAt s p) 2)
  have hone := onlyCore_putCore hut p (popN (coreAt s p) 2)
  have hend := completeIns_next hput hone (show NoLoopEnd (popN (coreAt s p) 2) from h.noLoop) 20
  have hbody : exec (.stc p k size disp) s = .next (completeIns (putCore u p (popN (coreAt s p) 2)) p none 20 0) := by
    refine congrArg Host.Outcome.next (runPlain_of_done h ?_)
    simp only [capStore, hlen, huse, hu, hcore, hballast, if_true]
  generalize completeIns (putCore u p (popN (coreAt s p) 2)) p none 20 0 = v at hbody hend
  have hv := hend.frame
  have hjobs : v.jobs = u.jobs := by rw [hv]
  refine ⟨v, hbody, hend.core, hjobs, hv.trans ?_⟩
  rw [hjobs]
  exact congrArg (fun w => { w with cores := v.cores }) hframe

theorem granuleRead_own {k : Nat} {off : Nat} (halign : off % 16 = 0) (hlow : off + 16 ≤ 0x20000)
    (hcheck : accessCheck p (coreAt s p) (coreAt s p).ring .read true off 16 = none) :
    granuleRead s p false k off = .ok (memGet s p off 16, memTag s p off, s) := by
  simp only [granuleRead, Bool.false_eq_true, if_false, halign, ne_eq, not_true_eq_false, load_own hlow hcheck, tagOf,
    targetOf_own (show off < 0x20000 by omega)]

theorem cld_own (hs : TablesCanonical s) {k j : Nat} (h : CanRun s p [(1, 1, 0)])
    (halign : (topOf (coreAt s p) 0).toNat % 16 = 0) (hlow : (topOf (coreAt s p) 0).toNat + 16 ≤ 0x20000)
    (hcheck : accessCheck p (coreAt s p) (coreAt s p).ring .read true (topOf (coreAt s p) 0).toNat 16 = none) :
    ∃ t, exec (.cld p k false j) s = .next t ∧ OnlyCore s t p (retired (putCap (popN (coreAt s p) 1) k
      (capOfBits (memTag s p (topOf (coreAt s p) 0).toNat) (unle (memGet s p (topOf (coreAt s p) 0).toNat 16))))
      ((coreAt s p).pc + 4) 3) := by
  refine ⟨_, rfl, runIns_next h ?_ (putCore_tables hs p _) (onlyCore_putCore hs p _) ⟨rfl, rfl, rfl⟩⟩
  simp only [granuleRead_own halign hlow hcheck]

/-- The core after a granule has been stored with its tag in its own memory (R294). -/
def granuleStored (c : Core) (a : Nat) (bs : Bytes) (tag : Bool) : Core :=
  { memStored (memStored c a bs) a bs with
    tags := tset false (memStored (memStored c a bs) a bs).tags (a / 16) tag }

theorem onlyCore_memPut (hs : TablesCanonical s) (a : Nat) (bs : Bytes) :
    OnlyCore s (memPut s p a bs) p (memStored (coreAt s p) a bs) := onlyCore_putCore hs p _

theorem memPut_tables (hs : TablesCanonical s) (a : Nat) (bs : Bytes) : TablesCanonical (memPut s p a bs) :=
  putCore_tables hs p _

theorem onlyCore_memPutTagged (hs : TablesCanonical s) (a : Nat) (bs : Bytes) (tag : Bool) :
    OnlyCore s (memPutTagged s p a bs tag) p
      { memStored (coreAt s p) a bs with tags := tset false (memStored (coreAt s p) a bs).tags (a / 16) tag } := by
  have hone := onlyCore_memPut hs (p := p) a bs
  refine hone.trans ?_
  rw [← hone.core]
  exact onlyCore_putCore (memPut_tables hs a bs) p _

theorem samePlace_popN_granuleStored (c : Core) (a : Nat) (bs : Bytes) (tag : Bool) (n : Nat) :
    SamePlace c (popN (granuleStored c a bs tag) n) := ⟨rfl, rfl, rfl⟩

/-- CST stores as a store does, and then the granule with its tag. -/
theorem granuleWrite_own (hs : TablesCanonical s) {k off : Nat} {bs : Bytes} (tag : Bool) (hlen : bs.length = 16)
    (halign : off % 16 = 0) (hlow : off + 16 ≤ 0x20000)
    (hcheck : accessCheck p (coreAt s p) (coreAt s p).ring .write true off 16 = none) :
    ∃ t, granuleWrite s p false k off bs tag = .ok t ∧ OnlyCore s t p (granuleStored (coreAt s p) off bs tag) ∧
      TablesCanonical t := by
  rw [← hlen] at hcheck hlow
  have hstore := store_own hlow hcheck
  have hput := memPut_tables hs (p := p) off bs
  have hone := onlyCore_memPut hs (p := p) off bs
  have htwo := onlyCore_memPutTagged hput (p := p) off bs tag
  rw [hone.core] at htwo
  refine ⟨memPutTagged (memPut s p off bs) p off bs tag, ?_, hone.trans htwo, putCore_tables (memPut_tables hput off bs) p _⟩
  simp only [granuleWrite, Bool.false_eq_true, if_false, halign, ne_eq, not_true_eq_false, hstore, putGranule,
    targetOf_own (show off < 0x20000 by omega)]

theorem tget_granuleStored_tag {c : Core} (ht : Tab.wf (fun _ => false) c.tags = true) (a : Nat) (bs : Bytes) (tag : Bool) :
    tget false (granuleStored c a bs tag).tags (a / 16) = tag :=
  tget_tset_same (d := fun _ => false) (Laws.Memory.clearTags_wf (Laws.Memory.clearTags_wf ht _ _) _ _) _ _

theorem memGet_granuleStored {t : State} {c : Core} {a : Nat} {bs : Bytes} {tag : Bool} (hm : Memory.wf c.mem = true)
    (hmem : (coreAt t p).mem = (granuleStored c a bs tag).mem) : memGet t p a bs.length = bs := by
  refine List.ext_getElem (by simp [memGet]) fun i _ hi => ?_
  simp only [memGet, List.getElem_map, List.getElem_range, hmem]
  exact tget_putBytes_inside bs (Laws.Memory.putBytes_wf hm a bs) a hi

theorem retired_popN_mem (c : Core) (n m : Nat) (next : Word32) : (retired (popN c n) next m).mem = c.mem := rfl
theorem retired_popN_tags (c : Core) (n m : Nat) (next : Word32) : (retired (popN c n) next m).tags = c.tags := rfl

/-- The work of CST without a window (R547). -/
def cstWork (p k j : Nat) (s : State) : Res :=
  let c := coreAt s p
  let x := capReg c k
  match granuleWrite s p false j (topOf c 0).toNat (le 16 (capBits x)) x.tag with
  | .error e => .trap 0 e
  | .ok s => .done (putCore s p (popN (coreAt s p) 1)) none 2

theorem cst_own (hs : TablesCanonical s) {k j : Nat} (h : CanRun s p [(1, 1, 0)])
    (halign : (topOf (coreAt s p) 0).toNat % 16 = 0) (hlow : (topOf (coreAt s p) 0).toNat + 16 ≤ 0x20000)
    (hcheck : accessCheck p (coreAt s p) (coreAt s p).ring .write true (topOf (coreAt s p) 0).toNat 16 = none)
    (hm : Tab.wf (fun _ => 0) (coreAt s p).mem = true) (ht : Tab.wf (fun _ => false) (coreAt s p).tags = true) :
    ∃ t, exec (.cst p k false j) s = .next t ∧
      memGet t p (topOf (coreAt s p) 0).toNat 16 = le 16 (capBits (capReg (coreAt s p) k)) ∧
      memTag t p (topOf (coreAt s p) 0).toNat = (capReg (coreAt s p) k).tag ∧
      (coreAt t p).depth = (coreAt s p).depth - 1 ∧ (coreAt t p).pc = (coreAt s p).pc + 4 ∧
      t = { s with cores := t.cores } := by
  have hlen := le_length 16 (capBits (capReg (coreAt s p) k))
  obtain ⟨u, hwrite, hone, hu⟩ := granuleWrite_own (k := j) hs (capReg (coreAt s p) k).tag hlen halign hlow hcheck
  have hbody : cstWork p k j s = .done (putCore u p (popN (granuleStored (coreAt s p) (topOf (coreAt s p) 0).toNat
      (le 16 (capBits (capReg (coreAt s p) k))) (capReg (coreAt s p) k).tag) 1)) none 2 := by
    simp only [cstWork, hwrite, hone.core]
  obtain ⟨hcore, -, hframe⟩ := runIns_next h hbody (putCore_tables hu p _) (hone.trans (onlyCore_putCore hu p _))
    (samePlace_popN_granuleStored ..)
  have hexec : exec (.cst p k false j) s = .next (runIns p none false false false [(1, 1, 0)] (cstWork p k j) s) := rfl
  generalize runIns p none false false false [(1, 1, 0)] (cstWork p k j) s = t at hcore hframe hexec
  refine ⟨t, hexec, ?_, ?_, ?_, ?_, hframe⟩
  · have hgot := memGet_granuleStored (p := p) (t := t) hm (by rw [hcore, retired_popN_mem])
    rwa [hlen] at hgot
  · have htags : (coreAt t p).tags = (granuleStored (coreAt s p) (topOf (coreAt s p) 0).toNat
        (le 16 (capBits (capReg (coreAt s p) k))) (capReg (coreAt s p) k).tag).tags := by
      rw [hcore, retired_popN_tags]
    rw [memTag, htags, tget_granuleStored_tag ht]
  · exact congrArg Core.depth hcore
  · exact congrArg Core.pc hcore

theorem cpush_even (hs : TablesCanonical s) {k : Nat} (h : CanRun s p [(0, 0, 2)]) (heven : (coreAt s p).depth % 2 = 0) :
    ∃ t, exec (.cpush p k) s = .next t ∧ OnlyCore s t p (retired (pushEnt (pushEnt (coreAt s p)
      { v := BitVec.ofNat 64 (capBits (capReg (coreAt s p) k)), tag := (capReg (coreAt s p) k).tag, half := false })
      { v := BitVec.ofNat 64 (capBits (capReg (coreAt s p) k) / 2 ^ 64), tag := (capReg (coreAt s p) k).tag, half := true })
      ((coreAt s p).pc + 4) 1) := by
  have hodd : decide ((coreAt s p).depth % 2 = 1) = false := decide_eq_false (by rw [heven]; decide)
  refine ⟨_, rfl, ?_⟩
  rw [hodd]
  exact runPlain_coreWork hs h 1 ⟨rfl, rfl, rfl⟩

/-- Within their fields the three words of CNARROW are taken as they are (R550). -/
theorem cnarrow_next (hs : TablesCanonical s) {k : Nat} (h : CanRun s p [(3, 3, 0)]) (hperms : (topOf (coreAt s p) 0).toNat < 2 ^ 16)
    (hlen : (topOf (coreAt s p) 1).toNat < 2 ^ 23) (hoff : (topOf (coreAt s p) 2).toNat < 2 ^ 23) :
    ∃ t, exec (.cnarrow p k) s = .next t ∧ OnlyCore s t p (retired (putCap (popN (coreAt s p) 3) k
      (narrow (capReg (coreAt s p) k) (topOf (coreAt s p) 2).toNat (topOf (coreAt s p) 1).toNat (topOf (coreAt s p) 0).toNat))
      ((coreAt s p).pc + 4) 2) := by
  have hend := runPlain_coreWork hs h 2 (f := fun c =>
    let perms := (topOf c 0).toNat
    let len := (topOf c 1).toNat
    let off := (topOf c 2).toNat
    let x := narrow (capReg c k) off len perms
    let x : Cap := { x with
      tag := x.tag && decide (perms < 2 ^ 16), perms := perms % 2 ^ 16, length := len % 2 ^ 23, offset := off % 2 ^ 23 }
    putCap (popN c 3) k x) ⟨rfl, rfl, rfl⟩
  simp only [Nat.mod_eq_of_lt hperms, Nat.mod_eq_of_lt hlen, Nat.mod_eq_of_lt hoff, decide_eq_true hperms, Bool.and_true] at hend
  exact ⟨_, rfl, hend⟩

end

/-- Settles O42: each instruction's work is one change of the core, or one access and a change of the core, and
`runIns_next` or `runIns_jump` completes it. -/
theorem caritValuesControlAndMemory : Obligations.CaritValuesControlAndMemory := by
  rintro p s c hs rfl
  have htab := hs.tables
  refine ⟨fun a b ha hb hrun hlegal hfree hma hmb hca hcb =>
      pairInstruction_values htab ⟨ha, hb⟩ hrun hlegal hfree ⟨hma, hmb⟩ ⟨hca, hcb⟩,
    fun imm h => ⟨_, rfl, runPlain_coreWork htab h 1 ⟨rfl, rfl, rfl⟩⟩,
    fun imm h => ⟨_, rfl, runPlain_coreWork htab h 1 ⟨rfl, rfl, rfl⟩⟩,
    fun off h => ⟨_, rfl, runIns_jump h rfl htab (OnlyCore.refl s p)⟩,
    fun h => ⟨_, rfl, runIns_jump h rfl (putCore_tables htab p _) (onlyCore_putCore htab p _)⟩,
    fun off h => ⟨⟨_, rfl, ?_⟩, ⟨_, rfl, ?_⟩⟩,
    fun off h hroom htop hcheck => ⟨_, rfl, call_next htab (fun c => branchTo c (signed64 24 off)) h hroom htop hcheck⟩,
    fun h hroom htop hcheck => ⟨_, rfl, call_next htab (fun c => (topOf c 0).setWidth 32) h hroom htop hcheck⟩,
    fun span h hdepth hpos hlt hcount => ⟨_, exec_loop hpos hlt, loop_opens htab h hdepth hcount⟩,
    fun n span h hdepth hpos hlt hn hn12 => ⟨_, exec_loopi hpos hlt hn12, loop_opens htab h hdepth ?_⟩,
    fun span h hdepth hpos hlt hcount => ⟨_, exec_loop hpos hlt, loop_skips htab h hdepth hcount⟩,
    fun span h hdepth hpos hlt => ?_,
    fun size signed disp a h ha hlow hcheck => ld_own htab h ha hlow hcheck,
    fun size disp a h ha hlow hcheck => st_own htab h ha hlow hcheck,
    fun k size signed disp off h hoff hkey huse => ldc_of_key htab h hoff hkey huse,
    fun k size disp off h hoff hballast huse => stc_of_ballast htab h hoff hballast huse,
    fun k j h halign hlow hcheck => cld_own htab h halign hlow hcheck,
    fun k j h halign hlow hcheck hm ht => cst_own htab h halign hlow hcheck hm ht,
    fun k h heven => cpush_even htab h heven,
    fun k h => ⟨_, rfl, runPlain_coreWork htab h 1 ⟨rfl, rfl, rfl⟩⟩,
    fun k h hperms hlen hoff => cnarrow_next htab h hperms hlen hoff,
    fun k h => ⟨_, rfl, runPlain_coreWork htab h 1 ⟨rfl, rfl, rfl⟩⟩,
    fun k h => ⟨_, rfl, runPlain_coreWork htab h 1 ⟨rfl, rfl, rfl⟩⟩,
    fun k h => ⟨_, rfl, runPlain_coreWork htab h 1 ⟨rfl, rfl, rfl⟩⟩⟩
  · simpa only [decide_eq_true_eq] using condJump htab h off fun v => decide (v = 0)
  · simpa only [decide_eq_true_eq] using condJump htab h off fun v => decide (v ≠ 0)
  · intro hzero
    have hval := congrArg BitVec.toNat hzero
    rw [BitVec.toNat_ofNat, Nat.mod_eq_of_lt (by omega)] at hval
    exact absurd hval (Nat.ne_of_gt hn)
  · rw [exec_loop hpos hlt, hdepth, runIns_of_canRun h]
    rfl

end Sys2Proof.Machine

/-! PROOF. What Carit's block moves, hashes, Sail commands, device reads and writes, special registers and secret operations do
(R557 to R564, R577, R594, R606). -/

namespace Sys2Proof.Machine

section
variable {s t : State} {p : Nat} {c d : Core} {ps : List Part} {body : State → Res}

/-- An instruction that goes on at `pc + 4`, as one write of its core after its work. -/
theorem runIns_eq_putCore {n : Nat} (h : CanRun s p ps) (hbody : body s = .done t none n) (hcore : coreAt t p = d)
    (hplace : SamePlace (coreAt s p) d) :
    runIns p none false false false ps body s = putCore t p (retired d ((coreAt s p).pc + 4) n) := by
  rw [runIns_of_done h hbody, completeIns, spillDown, hcore, loopNext_of_no_end (hplace.noLoop h.noLoop), ← hplace.pc]
  rfl

theorem runIns_of_wait {on : Stall} (h : CanRun s p ps) (hbody : body s = .wait on t) :
    runIns p none false false false ps body s = waitIns t p on := by
  simp only [runIns_of_canRun h, hbody, Bool.false_eq_true, if_false]

/-- An instruction of a stack part needs that part on the stack (R538). -/
theorem CanRun.depth_ge {a b n : Nat} (h : CanRun s p [(a, b, n)]) : max a b ≤ (coreAt s p).depth := by
  have hdepth := h.depth
  unfold underflow at hdepth
  split at hdepth
  · cases hdepth
  next hge => exact Nat.not_lt.mp hge

/-! ### A completed core -/

section
variable (c : Core) (next : Word32) (n : Nat)
@[simp] theorem retired_pc : (retired c next n).pc = next := rfl
@[simp] theorem retired_stack : (retired c next n).stack = c.stack := rfl
@[simp] theorem retired_depth : (retired c next n).depth = c.depth := rfl
@[simp] theorem retired_mem : (retired c next n).mem = c.mem := rfl
@[simp] theorem retired_bmLen : (retired c next n).bmLen = c.bmLen := rfl
@[simp] theorem retired_bmCtl : (retired c next n).bmCtl = c.bmCtl := rfl
@[simp] theorem retired_hfCtl : (retired c next n).hfCtl = c.hfCtl := rfl
@[simp] theorem retired_hash : (retired c next n).hash = c.hash := rfl
@[simp] theorem retired_job : (retired c next n).job = c.job := rfl
@[simp] theorem retired_ctxInst : (retired c next n).ctxInst = c.ctxInst := rfl
@[simp] theorem retired_ctxGen : (retired c next n).ctxGen = c.ctxGen := rfl
@[simp] theorem retired_inJob : (retired c next n).inJob = c.inJob := rfl
@[simp] theorem retired_a : (retired c next n).a = c.a := rfl
@[simp] theorem retired_ring : (retired c next n).ring = c.ring := rfl
@[simp] theorem retired_topOf (i : Nat) : topOf (retired c next n) i = topOf c i := rfl
end

/-! ### Block moves (R557 to R561) -/

theorem getLsbD_clear_zero (v : Word64) : (v &&& ~~~1#64).getLsbD 0 = false := by
  rw [BitVec.getLsbD_and, show (~~~1#64).getLsbD 0 = false from by decide, Bool.and_false]

theorem bmDir_of_no_overlap {ctl src dst len : Nat} (h : dst ≤ src ∨ src + len ≤ dst) : bmDir ctl src dst len = false := by
  rw [bmDir, decide_eq_false, Bool.false_and]
  rintro ⟨-, hlow, hhigh⟩
  omega

theorem bmove_first {operand n : Nat} (hactive : (coreAt s p).bmCtl.getLsbD 0 = false)
    (hlegal : bmIllegal (4 * (operand % 2 ^ 12)) = false) (haligned : bmUnaligned (4 * (operand % 2 ^ 12)) (coreAt s p) = false)
    (h : CanRun s p [(3, 3, 0)]) (hdone : bmStep p (putCore s p (bmBegin (coreAt s p) operand)) = .done t none n)
    (ht : TablesCanonical t) (hone : OnlyCore s t p d) (hplace : SamePlace (coreAt s p) d) :
    ∃ u, exec (.bmove p operand) s = .next u ∧ OnlyCore s u p (retired d ((coreAt s p).pc + 4) n) := by
  refine ⟨_, ?_, runIns_next (body := fun s => if bmUnaligned (4 * (operand % 2 ^ 12)) (coreAt s p) then .trap 0 ⟨1, 0, 0⟩
    else bmStep p (putCore s p (bmBegin (coreAt s p) operand))) h ?_ ht hone hplace⟩
  · change execBmove p operand s = _
    unfold execBmove
    extract_lets c ctl
    rw [if_neg (show ¬c.bmCtl.getLsbD 0 = true by rw [hactive]; exact Bool.false_ne_true),
      if_neg (show ¬bmIllegal ctl = true by rw [hlegal]; exact Bool.false_ne_true)]
  · simp only [haligned, Bool.false_eq_true, if_false, hdone]

/-- A move of no bytes ends with its first issue. -/
theorem bmStep_of_zero (hs : TablesCanonical s) (h : d.bmLen = 0) :
    bmStep p (putCore s p d) = .done (putCore (putCore s p d) p (bmEnd d)) none 1 := by
  unfold bmStep
  extract_lets c ctl back
  have hc : c = d := coreAt_putCore hs p d
  rw [if_pos (show c.bmLen = 0 by rw [hc]; exact h), hc]

theorem samePlace_bmBegin (c : Core) (operand : Nat) : SamePlace c (bmEnd (bmBegin c operand)) := ⟨rfl, rfl, rfl⟩

theorem bmove_zero (hs : TablesCanonical s) {operand : Nat} (h : CanRun s p [(3, 3, 0)])
    (hactive : (coreAt s p).bmCtl.getLsbD 0 = false) (hlegal : bmIllegal (4 * (operand % 2 ^ 12)) = false)
    (haligned : bmUnaligned (4 * (operand % 2 ^ 12)) (coreAt s p) = false) (hzero : topOf (coreAt s p) 0 = 0) :
    ∃ t, exec (.bmove p operand) s = .next t ∧
      (coreAt t p).depth = (coreAt s p).depth - 3 ∧ (coreAt t p).pc = (coreAt s p).pc + 4 ∧
      (coreAt t p).bmCtl.getLsbD 0 = false ∧ (coreAt t p).mem = (coreAt s p).mem ∧ t = { s with cores := t.cores } := by
  have hput := putCore_tables hs p (bmBegin (coreAt s p) operand)
  have hstep := bmStep_of_zero (p := p) hs (show (bmBegin (coreAt s p) operand).bmLen = 0 from hzero)
  obtain ⟨t, hexec, hcore, -, hframe⟩ := bmove_first hactive hlegal haligned h hstep (putCore_tables hput p _)
    ((onlyCore_putCore hs p _).trans (onlyCore_putCore hput p _)) (samePlace_bmBegin ..)
  refine ⟨t, hexec, ?_⟩
  rw [hcore]
  exact ⟨retired_depth .., retired_pc .., getLsbD_clear_zero _, retired_mem .., hframe⟩

/-- The bytes of the one unit of a short move between local addresses. -/
theorem bmUnit_of_short (h : d.bmCtl.getLsbD 1 = false) (halign : d.bmDst.toNat % 16 = 0) (hlen : d.bmLen.toNat ≤ 16) :
    bmUnit d = d.bmLen.toNat := by
  simp only [bmUnit, h, halign, Bool.false_eq_true, if_false, Nat.sub_zero]
  exact Nat.min_eq_right hlen

/-- The checks of an access read nothing of a core but its protection rules (R599, R605). -/
theorem accessCheck_congr {c d : Core} (h : c.mpu = d.mpu) (ring : Nat) (k : AccKind) (plain : Bool) (a n : Nat) :
    accessCheck p c ring k plain a n = accessCheck p d ring k plain a n := by
  have hmpu (c : Core) : accessCheck p c ring k plain a n = accessCheck p { mpu := c.mpu } ring k plain a n := rfl
  rw [hmpu c, hmpu d, h]

/-- `n` bytes of local memory moved from `src` to `dst`, in a core whose move they end. -/
def moved (c : Core) (src dst : Word64) (bs : Bytes) : Core :=
  bmEnd { memStored c dst.toNat bs with
    bmSrc := src + BitVec.ofNat 64 bs.length, bmDst := dst + BitVec.ofNat 64 bs.length
    bmLen := c.bmLen - BitVec.ofNat 64 bs.length }

theorem sub_ofNat_toNat_self (v : Word64) : v - BitVec.ofNat 64 v.toNat = 0#64 := by
  rw [BitVec.ofNat_toNat, BitVec.setWidth_eq, BitVec.sub_self]

/-- BM_CTL of a move that is ACTIVE, goes upward and has a local address at either end (R558). -/
theorem bmRead_local (s : State) (p a n : Nat) : bmRead s p (1 : Word64).toNat a n = load s p true a n := rfl
theorem bmWrite_local (s : State) (p a : Nat) (bs : Bytes) : bmWrite s p (1 : Word64).toNat a bs = store s p true a bs := rfl
theorem bmBlocked_local (s : State) (p : Nat) : bmBlocked s p (1 : Word64).toNat = false := rfl

theorem memGet_length (s : State) (p a n : Nat) : (memGet s p a n).length = n := (List.length_map _).trans List.length_range

/-- One unit that ends a move between local addresses, neither end a window or an engine. -/
theorem bmStep_of_unit (hs : TablesCanonical s) (hcore : coreAt s p = d) (hctl : d.bmCtl = 1) (hpos : d.bmLen ≠ 0)
    (hlen : d.bmLen.toNat ≤ 16) (halign : d.bmDst.toNat % 16 = 0) (hsrc : d.bmSrc.toNat + d.bmLen.toNat ≤ 0x20000)
    (hdst : d.bmDst.toNat + d.bmLen.toNat ≤ 0x20000)
    (hread : accessCheck p d d.ring .read true d.bmSrc.toNat d.bmLen.toNat = none)
    (hwrite : accessCheck p d d.ring .write true d.bmDst.toNat d.bmLen.toNat = none) :
    ∃ n, bmStep p s = .done (putCore (memPut s p d.bmDst.toNat (memGet s p d.bmSrc.toNat d.bmLen.toNat)) p
      (moved d d.bmSrc d.bmDst (memGet s p d.bmSrc.toNat d.bmLen.toNat))) none n := by
  have hup : (1 : Word64).getLsbD 1 = false := by decide
  have hunit := bmUnit_of_short (by rw [hctl]; exact hup) halign hlen
  have hlength := memGet_length s p d.bmSrc.toNat d.bmLen.toNat
  have hload : load s p true d.bmSrc.toNat d.bmLen.toNat = .ok (memGet s p d.bmSrc.toNat d.bmLen.toNat, s) :=
    load_own hsrc (by rw [hcore]; exact hread)
  have hstore : store s p true d.bmDst.toNat (memGet s p d.bmSrc.toNat d.bmLen.toNat) =
      .ok (memPut s p d.bmDst.toNat (memGet s p d.bmSrc.toNat d.bmLen.toNat)) :=
    store_own (by rw [hlength]; exact hdst) (by rw [hlength, hcore]; exact hwrite)
  have hend : d.bmLen - BitVec.ofNat 64 d.bmLen.toNat = 0 := sub_ofNat_toNat_self d.bmLen
  refine ⟨bmCycles (1 : Word64).toNat d.bmLen.toNat, ?_⟩
  simp only [bmStep, hcore, if_neg hpos, hunit, hctl, hup, bmBlocked_local, bmRead_local, bmWrite_local, Bool.false_eq_true,
    if_false, hload, hstore, coreAt_memPut hs, hend, if_true]
  simp only [moved, memStored, hlength, hend, hctl]

/-- The core after the first issue of an upward move between local addresses. -/
def movedFrom (c : Core) : Core :=
  { popN c 3 with bmSrc := topOf c 2, bmDst := topOf c 1, bmLen := topOf c 0, bmCtl := 1 }

theorem samePlace_moved (c : Core) (src dst : Word64) (bs : Bytes) :
    SamePlace c (moved (movedFrom c) src dst bs) := ⟨rfl, rfl, rfl⟩

theorem moved_bmLen (s : State) (p : Nat) (c : Core) (src dst : Word64) (a : Nat) :
    (moved (movedFrom c) src dst (memGet s p a (topOf c 0).toNat)).bmLen = 0 := by
  have hlen : (moved (movedFrom c) src dst (memGet s p a (topOf c 0).toNat)).bmLen =
    topOf c 0 - BitVec.ofNat 64 (memGet s p a (topOf c 0).toNat).length := rfl
  rw [hlen, memGet_length]
  exact sub_ofNat_toNat_self _

theorem bmBegin_local {c : Core} {k : Nat} (hk : k % 2 ^ 12 = 0)
    (hover : (topOf c 1).toNat ≤ (topOf c 2).toNat ∨ (topOf c 2).toNat + (topOf c 0).toNat ≤ (topOf c 1).toNat) :
    bmBegin c k = movedFrom c := by
  simp only [bmBegin, hk, bmDir_of_no_overlap hover, Bool.false_eq_true, if_false]
  rfl

theorem bmove_unit (hs : TablesCanonical s) {k src dst len : Nat} (h : CanRun s p [(3, 3, 0)])
    (hactive : (coreAt s p).bmCtl.getLsbD 0 = false) (hk : k % 2 ^ 12 = 0) (hl : len = (topOf (coreAt s p) 0).toNat)
    (hd : dst = (topOf (coreAt s p) 1).toNat) (hsrc : src = (topOf (coreAt s p) 2).toNat) (hpos : 0 < len) (hmax : len ≤ 16)
    (halign : dst % 16 = 0) (hdst : dst + len ≤ 0x20000) (hsrcl : src + len ≤ 0x20000) (hover : dst ≤ src ∨ src + len ≤ dst)
    (hread : accessCheck p (coreAt s p) (coreAt s p).ring .read true src len = none)
    (hwrite : accessCheck p (coreAt s p) (coreAt s p).ring .write true dst len = none) :
    ∃ t, exec (.bmove p k) s = .next t ∧
      (coreAt t p).mem = putBytes (coreAt s p).mem dst (memGet s p src len) ∧ (coreAt t p).bmLen = 0 ∧
      (coreAt t p).bmCtl.getLsbD 0 = false ∧ (coreAt t p).depth = (coreAt s p).depth - 3 ∧
      (coreAt t p).pc = (coreAt s p).pc + 4 ∧ t = { s with cores := t.cores } := by
  subst hl hd hsrc
  have hlegal : bmIllegal (4 * (k % 2 ^ 12)) = false := by rw [hk]; rfl
  have haligned : bmUnaligned (4 * (k % 2 ^ 12)) (coreAt s p) = false := by rw [hk]; rfl
  have hput := putCore_tables hs p (movedFrom (coreAt s p))
  have hcore := coreAt_putCore hs p (movedFrom (coreAt s p))
  have hlen : topOf (coreAt s p) 0 ≠ 0 := fun h => Nat.ne_of_gt hpos (by rw [h]; rfl)
  have hmpu : (coreAt s p).mpu = (movedFrom (coreAt s p)).mpu := rfl
  obtain ⟨n, hstep⟩ := bmStep_of_unit hput hcore rfl hlen hmax halign hsrcl hdst
    (by rw [accessCheck_congr hmpu] at hread; exact hread) (by rw [accessCheck_congr hmpu] at hwrite; exact hwrite)
  have hsame : memGet (putCore s p (movedFrom (coreAt s p))) p (movedFrom (coreAt s p)).bmSrc.toNat
      (movedFrom (coreAt s p)).bmLen.toNat = memGet s p (topOf (coreAt s p) 2).toNat (topOf (coreAt s p) 0).toNat := by
    simp only [memGet, hcore]
    rfl
  rw [hsame] at hstep
  have hmem := memPut_tables hput (p := p) (movedFrom (coreAt s p)).bmDst.toNat
    (memGet s p (topOf (coreAt s p) 2).toNat (topOf (coreAt s p) 0).toNat)
  obtain ⟨t, hexec, hdone, -, hframe⟩ := bmove_first hactive hlegal haligned h
    (by rw [bmBegin_local hk hover]; exact hstep) (putCore_tables hmem p _)
    ((onlyCore_putCore hs p _).trans ((onlyCore_memPut hput _ _).trans (onlyCore_putCore hmem p _))) (samePlace_moved ..)
  refine ⟨t, hexec, ?_⟩
  rw [hdone]
  exact ⟨retired_mem .., (retired_bmLen ..).trans (moved_bmLen ..), getLsbD_clear_zero _, retired_depth .., retired_pc .., hframe⟩

end

end Sys2Proof.Machine

/-! PROOF. Hashes, Sail commands and device reads and writes of a Carit core (R246, R421, R559, R562 to R564). -/

namespace Sys2Proof.Machine

section
variable {s t : State} {p : Nat}

/-- What an instruction leaves that passes its checks, works, and goes on at `pc + 4`. -/
theorem exec_of_work {i : Instr} {ps : List Part} {body : State → Res} {d : Core} {n : Nat} (h : CanRun s p ps)
    (hexec : exec i s = .next (runIns p none false false false ps body s)) (hbody : body s = .done t none n)
    (hcore : coreAt t p = d) (hplace : SamePlace (coreAt s p) d) :
    exec i s = .next (putCore t p (retired d ((coreAt s p).pc + 4) n)) :=
  hexec.trans (congrArg _ (runIns_eq_putCore h hbody hcore hplace))

/-! ### Hashes (R246, R559) -/

theorem hstart_plain (hs : TablesCanonical s) {alg k : Nat} (h : CanRun s p [(0, 0, 0)]) (halg : alg < 256)
    (hlen : (hashLen alg).isSome = true) : ∃ t, exec (.hstart p alg false k) s = .next t ∧
      OnlyCore s t p (retired { coreAt s p with hash := some (alg, none, []) } ((coreAt s p).pc + 4) 4) := by
  have hlegal : ¬(hashLen alg).isNone = true := by
    rw [Option.isNone_iff_eq_none]
    intro hn
    rw [hn] at hlen
    cases hlen
  refine ⟨_, ?_, runIns_next (body := fun s => .done (putCore s p { coreAt s p with hash := some (alg, none, []) }) none 4)
    h rfl (putCore_tables hs p _) (onlyCore_putCore hs p _) ⟨rfl, rfl, rfl⟩⟩
  change execHstart p alg false k s = _
  rw [execHstart, Nat.mod_eq_of_lt halg, if_neg hlegal]
  rfl

/-- The core as HFEED begins with `n` bytes at `a` (R557). -/
def fedFrom (c : Core) (ctl : Word64) : Core := { popN c 2 with hfLen := topOf c 0, hfPtr := topOf c 1, hfCtl := ctl }

theorem hfCtl_local (k : Nat) : (BitVec.ofNat 64 (1 + bitAt false 1 + 4 * (k % 4)) : Word64).getLsbD 1 = false := by
  have hk : k % 4 < 4 := Nat.mod_lt _ (by decide)
  generalize k % 4 = j at hk
  revert j
  decide

/-- The core after its last unit of HFEED: `bs` is what the hash has taken in all. -/
def fed (c : Core) (alg : Nat) (key : Option Key) (bs : Bytes) : Core :=
  hfEnd { c with
    hash := some (alg, key, bs), hfPtr := c.hfPtr + BitVec.ofNat 64 c.hfLen.toNat
    hfLen := c.hfLen - BitVec.ofNat 64 c.hfLen.toNat }

theorem hashFeed_open (hs : TablesCanonical s) {alg : Nat} {key : Option Key} {had : Bytes}
    (hhash : (coreAt s p).hash = some (alg, key, had)) (bs : Bytes) :
    coreAt (hashFeed s p bs) p = { coreAt s p with hash := some (alg, key, had ++ bs) } ∧ TablesCanonical (hashFeed s p bs) ∧
      hashFeed s p bs = { s with cores := (hashFeed s p bs).cores, lanes := (hashFeed s p bs).lanes } := by
  have hput := putCore_tables hs p { coreAt s p with hash := some (alg, key, had ++ bs) }
  have hfeed : hashFeed s p bs = putLane (putCore s p { coreAt s p with hash := some (alg, key, had ++ bs) }) (chanOf p)
      { laneAt s (chanOf p) with bytes := ((laneAt s (chanOf p)).bytes + bs.length) % 2 ^ 64 } := by
    simp only [hashFeed, hhash]
  rw [hfeed]
  exact ⟨coreAt_putCore hs p _, (putLane_ev (.refl _)).tables hput, rfl⟩

/-- A core written, then a state that differs from it in cores and lanes alone, then the core again. -/
theorem putCore_frame_lanes {s u v : State} {p : Nat} {c d e : Core} (hv : v = putCore s p c)
    (h : u = { v with cores := u.cores, lanes := u.lanes }) :
    putCore (putCore u p d) p e =
      { s with cores := (putCore (putCore u p d) p e).cores, lanes := (putCore (putCore u p d) p e).lanes } := by
  rw [h, hv]
  simp only [putCore]

/-- The one unit of a feed of at most 64 bytes from local memory. -/
theorem hfStep_of_unit (hs : TablesCanonical s) {d : Core} (hcore : coreAt s p = d) {alg : Nat} {key : Option Key} {had : Bytes}
    (hctl : d.hfCtl.getLsbD 1 = false) (hhash : d.hash = some (alg, key, had)) (hpos : d.hfLen.toNat ≠ 0)
    (hmax : d.hfLen.toNat ≤ 64) (hlow : d.hfPtr.toNat + d.hfLen.toNat ≤ 0x20000)
    (hread : accessCheck p d d.ring .read true d.hfPtr.toNat d.hfLen.toNat = none) :
    ∃ n u, hfStep p s = .done (putCore u p (fed d alg key (had ++ memGet s p d.hfPtr.toNat d.hfLen.toNat))) none n ∧
      TablesCanonical u ∧ u = { s with cores := u.cores, lanes := u.lanes } := by
  have hmin : min 64 d.hfLen.toNat = d.hfLen.toNat := Nat.min_eq_right hmax
  have hload : load s p true d.hfPtr.toNat d.hfLen.toNat = .ok (memGet s p d.hfPtr.toNat d.hfLen.toNat, s) :=
    load_own hlow (by rw [hcore]; exact hread)
  have hend : d.hfLen - BitVec.ofNat 64 d.hfLen.toNat = 0 := sub_ofNat_toNat_self d.hfLen
  obtain ⟨hfedcore, htab, hframe⟩ := hashFeed_open hs (p := p) (by rw [hcore]; exact hhash)
    (memGet s p d.hfPtr.toNat d.hfLen.toNat)
  rw [hcore] at hfedcore
  refine ⟨(16 * d.hfLen.toNat + 99) / 100, _, ?_, htab, hframe⟩
  simp only [hfStep, hcore, hmin, if_neg hpos, hctl, Bool.false_eq_true, if_false, hload, hfedcore, hend, if_true]
  simp only [fed, hend]

theorem hfeed_unit (hs : TablesCanonical s) {k alg n a : Nat} {key : Option Key} {had : Bytes} (h : CanRun s p [(2, 2, 0)])
    (hactive : (coreAt s p).hfCtl.getLsbD 0 = false) (hhash : (coreAt s p).hash = some (alg, key, had))
    (hn : n = (topOf (coreAt s p) 0).toNat) (ha : a = (topOf (coreAt s p) 1).toNat) (hpos : 0 < n) (hmax : n ≤ 64)
    (hlow : a + n ≤ 0x20000) (hread : accessCheck p (coreAt s p) (coreAt s p).ring .read true a n = none) :
    ∃ t, exec (.hfeed p false k) s = .next t ∧
      (coreAt t p).hash = some (alg, key, had ++ memGet s p a n) ∧ (coreAt t p).hfCtl.getLsbD 0 = false ∧
      (coreAt t p).depth = (coreAt s p).depth - 2 ∧ (coreAt t p).pc = (coreAt s p).pc + 4 ∧
      t = { s with cores := t.cores, lanes := t.lanes } := by
  subst hn ha
  have hput := putCore_tables hs p (hfBegin (coreAt s p) false k)
  have hcore := coreAt_putCore hs p (hfBegin (coreAt s p) false k)
  have hmpu : (coreAt s p).mpu = (hfBegin (coreAt s p) false k).mpu := rfl
  obtain ⟨m, u, hstep, hu, hframe⟩ := hfStep_of_unit hput hcore (hfCtl_local k) hhash (Nat.ne_of_gt hpos) hmax hlow
    (by rw [accessCheck_congr hmpu] at hread; exact hread)
  have hsame : memGet (putCore s p (hfBegin (coreAt s p) false k)) p (hfBegin (coreAt s p) false k).hfPtr.toNat
      (hfBegin (coreAt s p) false k).hfLen.toNat = memGet s p (topOf (coreAt s p) 1).toNat (topOf (coreAt s p) 0).toNat := by
    simp only [memGet, hcore]
    rfl
  rw [hsame] at hstep
  have hexec : exec (.hfeed p false k) s = .next (runPlain p 2 0
      (fun s => hfStep p (putCore s p (hfBegin (coreAt s p) false k))) s) :=
    if_neg (show ¬(coreAt s p).hfCtl.getLsbD 0 = true by rw [hactive]; exact Bool.false_ne_true)
  have hplace (bs : Bytes) : SamePlace (coreAt s p) (fed (hfBegin (coreAt s p) false k) alg key bs) := ⟨rfl, rfl, rfl⟩
  have hrun := runIns_eq_putCore (body := fun s => hfStep p (putCore s p (hfBegin (coreAt s p) false k))) h hstep
    (coreAt_putCore hu p _) (hplace _)
  refine ⟨_, hexec, ?_⟩
  rw [runPlain, hrun, coreAt_putCore (putCore_tables hu p _)]
  exact ⟨retired_hash .., getLsbD_clear_zero _, retired_depth .., retired_pc .., putCore_frame_lanes rfl hframe⟩

/-- A core whose hash has ended, with the length of its digest `d` on the stack (R246). -/
def hashEnded (c : Core) (d : Bytes) : Core := push { popN c 1 with hash := none } (BitVec.ofNat 64 d.length)

/-- The digest goes to local memory, and its length onto the stack (R246). -/
theorem hend_local (hs : TablesCanonical s) {a : Nat} {d : Bytes} (h : CanRun s p [(1, 1, 1)])
    (hd : hashDigest (coreAt s p) = some d) (hne : d ≠ []) (ha : a = (topOf (coreAt s p) 0).toNat) (hlow : a + d.length ≤ 0x20000)
    (hcheck : accessCheck p (coreAt s p) (coreAt s p).ring .write true a d.length = none) :
    ∃ t, exec (.hend p) s = .next t ∧ (coreAt t p).mem = putBytes (coreAt s p).mem a d ∧ (coreAt t p).hash = none ∧
      topOf (coreAt t p) 0 = BitVec.ofNat 64 d.length ∧ (coreAt t p).depth = (coreAt s p).depth ∧
      (coreAt t p).pc = (coreAt s p).pc + 4 := by
  subst ha
  have hput : TablesCanonical (freeNat (memPut s p (topOf (coreAt s p) 0).toNat d)).2 :=
    (freeNat_ev (.refl _)).snd.tables (memPut_tables hs ..)
  have hdepth : 1 ≤ (coreAt s p).depth := h.depth_ge
  have hcore : coreAt (freeNat (memPut s p (topOf (coreAt s p) 0).toNat d)).2 p = memStored (coreAt s p) (topOf (coreAt s p) 0).toNat d :=
    coreAt_memPut hs _ _
  refine ⟨_, exec_of_work (t := putCore (freeNat (memPut s p (topOf (coreAt s p) 0).toNat d)).2 p
      (hashEnded (memStored (coreAt s p) (topOf (coreAt s p) 0).toNat d) d)) h rfl
    (by simp only [hd, Option.getD_some, if_neg hne, store_own hlow hcheck, hcore, hashEnded]; rfl)
    (coreAt_putCore hput p _) ⟨rfl, rfl, rfl⟩, ?_⟩
  rw [coreAt_putCore (putCore_tables hput p _)]
  exact ⟨retired_mem .., retired_hash .., retired_topOf .., Nat.sub_add_cancel hdepth, retired_pc ..⟩

/-! ### Sail commands (R421, R546, R557, R559) -/

/-- A core operation at an engine of its channel: an engine number that exists is legal and is itself. -/
theorem engineIllegal_of_lt {e : Nat} (he : e < 3) : engineIllegal e = none ∧ e % 4 = e := by
  have hmod : e % 4 = e := Nat.mod_eq_of_lt (by omega)
  exact ⟨by rw [engineIllegal, hmod, if_neg (by omega)], hmod⟩

theorem portIssue_of_busy {e : Nat} (x : SailRun) (hserves : serves s (enginePage p e) = true)
    (hlevel : (unitAt s (enginePage p e)).level = false) (hbusy : (sailAt s (enginePage p e)).estate ≠ .idle) :
    portIssue s p e x = putSail s (enginePage p e) { sailAt s (enginePage p e) with overrun := true } := by
  simp only [portIssue, hserves, hlevel, Bool.not_true, Bool.or_false, Bool.false_eq_true, if_false, if_pos hbusy]

theorem portIssue_of_idle {e : Nat} (x : SailRun) (hserves : serves s (enginePage p e) = true)
    (hlevel : (unitAt s (enginePage p e)).level = false) (hidle : (sailAt s (enginePage p e)).estate = .idle)
    (hjob : jobAt s (coreAt s p).job = none) :
    portIssue s p e x = issue s (enginePage p e) { x with job := none, core := some p } := by
  simp only [portIssue, hserves, hlevel, hidle, hjob, engineFor, Bool.not_true, Bool.or_false, Bool.false_eq_true, if_false, ne_eq,
    not_true_eq_false, Option.isSome_none]

theorem failJob_cores (s : State) (n st : Nat) : (failJob s n st).cores = s.cores := modJob_cores ..

theorem askRand_sail_cores (s : State) (d q code inst gen serial len : Nat) :
    (askRand s d { for_ := .sail q, code := code, inst := inst, gen := gen, serial := serial, len := len }).cores = s.cores := by
  unfold askRand
  extract_lets x
  split
  · simp only [refuseRand]
    split
    · exact failJob_cores ..
    · rfl
  · rfl

theorem issue_cores (s : State) (q : Nat) (x : SailRun) : (issue s q x).cores = s.cores := by
  unfold issue
  extract_lets e e' r n x' u i
  split
  · rfl
  split
  · exact askRand_sail_cores ..
  split <;> rfl

theorem coreAt_issue (s : State) (q : Nat) (x : SailRun) (p : Nat) : coreAt (issue s q x) p = coreAt s p := by
  rw [coreAt, issue_cores]
  rfl

theorem putSail_putCore_frame (s : State) (p q : Nat) (c d : Core) (e : Sail) : putCore (putSail (putCore s p c) q e) p d =
    { s with cores := (putCore (putSail (putCore s p c) q e) p d).cores
             sails := (putCore (putSail (putCore s p c) q e) p d).sails } := by
  simp only [putCore, putSail]

theorem scmd_overrun (hs : TablesCanonical s) {e : Nat} (h : CanRun s p [(6, 6, 0)]) (he : e < 3)
    (hserves : serves s (enginePage p e) = true) (hlevel : (unitAt s (enginePage p e)).level = false)
    (hbusy : (sailAt s (enginePage p e)).estate ≠ .idle) : ∃ t, exec (.scmd p e) s = .next t ∧
      (sailAt t (enginePage p e)).overrun = true ∧ coreAt t p = retired (popN (coreAt s p) 6) ((coreAt s p).pc + 4) 2 ∧
      t = { s with cores := t.cores, sails := t.sails } := by
  obtain ⟨hlegal, hmod⟩ := engineIllegal_of_lt he
  have hput := putCore_tables hs p (popN (coreAt s p) 6)
  refine ⟨_, exec_of_work (t := putSail (putCore s p (popN (coreAt s p) 6)) (enginePage p e) _) h
    (by change execScmd p e s = _; rw [execScmd, hlegal, hmod])
    (congrArg (Res.done · none 2) (portIssue_of_busy (s := putCore s p (popN (coreAt s p) 6)) _ hserves hlevel hbusy))
    (coreAt_putCore hs p _) ⟨rfl, rfl, rfl⟩, ?_⟩
  refine ⟨?_, coreAt_putCore ((putSail_ev (.refl _)).tables hput) p _, putSail_putCore_frame ..⟩
  exact congrArg Sail.overrun (sailAt_of_tset (e := { sailAt s (enginePage p e) with overrun := true }) hs rfl).1

theorem scmd_issues (hs : TablesCanonical s) {e : Nat} (h : CanRun s p [(6, 6, 0)]) (he : e < 2)
    (hserves : serves s (enginePage p e) = true) (hlevel : (unitAt s (enginePage p e)).level = false)
    (hidle : (sailAt s (enginePage p e)).estate = .idle) (hjob : jobAt s (coreAt s p).job = none) :
    ∃ t u, exec (.scmd p e) s = .next t ∧ u = issue (putCore s p (popN (coreAt s p) 6)) (enginePage p e)
      { word := (topOf (coreAt s p) 0).toNat % 2 ^ 32, arg0 := (topOf (coreAt s p) 1).toNat % 2 ^ 32
        arg1 := (topOf (coreAt s p) 2).toNat % 2 ^ 32, arg2 := (topOf (coreAt s p) 3).toNat % 2 ^ 32
        arg3 := (topOf (coreAt s p) 4).toNat % 2 ^ 32, xlen := (topOf (coreAt s p) 5).toNat % 2 ^ 32, core := some p } ∧
      t.sails = u.sails ∧ (coreAt t p).depth = (coreAt s p).depth - 6 ∧ (coreAt t p).pc = (coreAt s p).pc + 4 := by
  obtain ⟨hlegal, hmod⟩ := engineIllegal_of_lt (show e < 3 by omega)
  have hput := putCore_tables hs p (popN (coreAt s p) 6)
  have hcore := coreAt_putCore hs p (popN (coreAt s p) 6)
  refine ⟨_, _, exec_of_work h (by change execScmd p e s = _; rw [execScmd, hlegal, hmod])
    (congrArg (Res.done · none 2) (portIssue_of_idle (s := putCore s p (popN (coreAt s p) 6)) _ hserves hlevel hidle
      (by rw [hcore]; exact hjob))) ((coreAt_issue ..).trans hcore) ⟨rfl, rfl, rfl⟩, rfl, ?_⟩
  rw [coreAt_putCore ((issue_ev (.refl _)).tables hput)]
  exact ⟨rfl, retired_depth .., retired_pc ..⟩

/-- KEY_LOAD draws nothing and hashes nothing: it only sets its engine (R421, R428). -/
theorem issue_keyLoad (s : State) (q : Nat) {x : SailRun} (hop : cmdOp x.word = 0x0C) :
    ∃ e y, issue s q x = putSail s q e ∧ e.run = some y ∧ y.word = x.word ∧ y.arg0 = x.arg0 ∧ y.cap = x.cap := by
  unfold issue
  extract_lets e e' r n x' u i
  have hdraw : n = 0 := by
    change drawLen e' x = 0
    simp only [drawLen, hop]
  have hhash : x'.hashed = true := by
    change (!needsHash x) = true
    simp only [needsHash, hop, Bool.not_false]
  split
  · exact ⟨_, _, rfl, rfl, rfl, rfl, rfl⟩
  · rw [if_neg (not_not.mpr hdraw), if_neg (by rw [hhash]; exact Bool.false_ne_true)]
    exact ⟨_, _, rfl, rfl, rfl, rfl, rfl⟩

theorem skey_issues (hs : TablesCanonical s) {e k : Nat} (h : CanRun s p [(1, 1, 0)]) (he : e < 3)
    (huse : capUse s (coreAt s p) k (2 ^ permEngine) 0 (capReg (coreAt s p) k).length = none)
    (hserves : serves s (enginePage p e) = true) (hlevel : (unitAt s (enginePage p e)).level = false)
    (hidle : (sailAt s (enginePage p e)).estate = .idle) (hjob : jobAt s (coreAt s p).job = none) :
    ∃ t, exec (.skey p e k) s = .next t ∧ ((sailAt t (enginePage p e)).run.map fun x => (x.word, x.arg0, x.cap)) =
        some (0x0C, (topOf (coreAt s p) 0).toNat % 2 ^ 32, capReg (coreAt s p) k) ∧
      (coreAt t p).depth = (coreAt s p).depth - 1 ∧ (coreAt t p).pc = (coreAt s p).pc + 4 := by
  obtain ⟨hlegal, hmod⟩ := engineIllegal_of_lt he
  have hput := putCore_tables hs p (popN (coreAt s p) 1)
  have hcore := coreAt_putCore hs p (popN (coreAt s p) 1)
  obtain ⟨f, y, hissue, hrun, hword, harg, hcap⟩ := issue_keyLoad (putCore s p (popN (coreAt s p) 1)) (enginePage p e)
    (x := { word := 0x0C, arg0 := (topOf (coreAt s p) 0).toNat % 2 ^ 32, cap := capReg (coreAt s p) k, core := some p }) rfl
  have hport := (portIssue_of_idle (s := putCore s p (popN (coreAt s p) 1))
    { word := 0x0C, arg0 := (topOf (coreAt s p) 0).toNat % 2 ^ 32, cap := capReg (coreAt s p) k } hserves
    hlevel hidle (by rw [hcore]; exact hjob)).trans hissue
  refine ⟨_, exec_of_work (t := putSail (putCore s p (popN (coreAt s p) 1)) (enginePage p e) f) (n := 2) h
    (by change execSkey p e k s = _; rw [execSkey, hlegal, hmod]) (by simp only [huse, hport]) hcore ⟨rfl, rfl, rfl⟩, ?_⟩
  rw [coreAt_putCore ((putSail_ev (.refl _)).tables hput), (sailAt_of_tset (p := enginePage p e) (e := f) hs rfl).1, hrun,
    Option.map_some, hword, harg, hcap]
  exact ⟨rfl, retired_depth .., retired_pc ..⟩

theorem swStep_of_idle {s : State} (hs : TablesCanonical s) (hidle : ∀ e, e < 3 → (sailAt s (enginePage p e)).run = none) (c : Core) :
    swStep p (putCore s p c) = .done (putCore (putCore s p c) p { c with swMask := 0 }) none 1 := by
  have hleft : (List.range 3).filter (fun e => bit (bits c.swMask.toNat 0 3) e &&
      (sailAt (putCore s p c) (enginePage p e)).run.isSome) = [] := by
    refine List.filter_eq_nil_iff.mpr fun e he => ?_
    rw [show sailAt (putCore s p c) (enginePage p e) = sailAt s (enginePage p e) from rfl, hidle e (List.mem_range.mp he)]
    simp
  simp only [swStep, coreAt_putCore hs, hleft, List.isEmpty_nil, if_true]

theorem swait_idle (hs : TablesCanonical s) {mask : Nat} (h : CanRun s p [(0, 0, 0)])
    (hactive : (coreAt s p).swMask.getLsbD 63 = false) (hidle : ∀ e, e < 3 → (sailAt s (enginePage p e)).run = none) :
    ∃ t, exec (.swait p mask) s = .next t ∧ OnlyCore s t p (retired { coreAt s p with swMask := 0 } ((coreAt s p).pc + 4) 1) := by
  have hexec : exec (.swait p mask) s = .next (runPlain p 0 0 (fun s => swStep p (putCore s p
      { coreAt s p with swMask := BitVec.ofNat 64 (2 ^ 63 + mask % 8) })) s) :=
    if_neg (show ¬(coreAt s p).swMask.getLsbD 63 = true by rw [hactive]; exact Bool.false_ne_true)
  have hput := putCore_tables hs p { coreAt s p with swMask := BitVec.ofNat 64 (2 ^ 63 + mask % 8) }
  exact ⟨_, hexec, runIns_next h (swStep_of_idle hs hidle _) (putCore_tables hput p _)
    ((onlyCore_putCore hs p _).trans (onlyCore_putCore hput p _)) ⟨rfl, rfl, rfl⟩⟩

theorem sstat_next (hs : TablesCanonical s) {e : Nat} (h : CanRun s p [(0, 0, 1)]) (he : e < 3) :
    ∃ t, exec (.sstat p e) s = .next t ∧
      OnlyCore s t p (retired (push (coreAt s p) (BitVec.ofNat 64 (sailRead s (enginePage p e) 0x818))) ((coreAt s p).pc + 4) 1) := by
  obtain ⟨hlegal, hmod⟩ := engineIllegal_of_lt he
  refine ⟨_, by change execSstat p e s = _; rw [execSstat, hlegal, hmod], ?_⟩
  exact runIns_next h rfl (putCore_tables hs p _) (onlyCore_putCore hs p _) ⟨rfl, rfl, rfl⟩

end

end Sys2Proof.Machine

/-! PROOF. Device reads and writes, special registers, secret operations and the interrupt window of a Carit core (R531, R562 to
R564, R577, R594, R606). -/

namespace Sys2Proof.Machine

section
variable {s t : State} {p : Nat} {d : Core} {ps : List Part} {body : State → Res} {i : Instr} {n : Nat}

/-! ### Instructions that change their core alone -/

theorem exec_next (h : CanRun s p ps) (hexec : exec i s = .next (runIns p none false false false ps body s))
    (hbody : body s = .done t none n) (ht : TablesCanonical t) (hone : OnlyCore s t p d) (hplace : SamePlace (coreAt s p) d) :
    ∃ u, exec i s = .next u ∧ OnlyCore s u p (retired d ((coreAt s p).pc + 4) n) :=
  ⟨_, hexec, runIns_next h hbody ht hone hplace⟩

theorem exec_coreWork {f : Core → Core} (hs : TablesCanonical s) (h : CanRun s p ps)
    (hexec : exec i s = .next (runIns p none false false false ps (coreWork p n f) s))
    (hplace : SamePlace (coreAt s p) (f (coreAt s p))) :
    ∃ u, exec i s = .next u ∧ OnlyCore s u p (retired (f (coreAt s p)) ((coreAt s p).pc + 4) n) :=
  exec_next h hexec rfl (putCore_tables hs p _) (onlyCore_putCore hs p _) hplace

theorem samePlace_push (c : Core) (v : Word64) : SamePlace c (push c v) := ⟨rfl, rfl, rfl⟩

theorem samePlace_putSecret (c : Core) (i : Nat) (v : Word64) : SamePlace c (putSecret c i v) := ⟨rfl, rfl, rfl⟩

/-! ### The ring of an instruction (R562, R577) -/

theorem notRing2_of_ring (h : (coreAt s p).ring = 2) : notRing2 s p = false := decide_eq_false (not_not.mpr h)

theorem notManager_of_ring (h : (coreAt s p).ring ≤ 1) : notManager s p = false := decide_eq_false (Nat.not_lt.mpr h)

/-! ### Random words (R521, R563) -/

/-- Channel `d`'s DRBG holds 8 bytes for the context of core `c`. -/
structure Buffered (s : State) (p : Nat) (c : Core) : Prop where
  healthy : c.entropy = false
  length : 8 ≤ (drbgAt s (chanOf p)).buf.length
  inst : (drbgAt s (chanOf p)).bufInst = (ctxOf s c).1
  gen : (drbgAt s (chanOf p)).bufGen = (ctxOf s c).2

/-- The first 8 bytes that a core's DRBG holds, as a word. -/
def bufferedWord (s : State) (p : Nat) : Word64 := BitVec.ofNat 64 (field (drbgAt s (chanOf p)).buf 0 8)

theorem rngTake_of_buffered (h : Buffered s p (coreAt s p)) (use : State → Word64 → Res) : rngTake p use s =
    use (putDrbg s (chanOf p) { drbgAt s (chanOf p) with buf := (drbgAt s (chanOf p)).buf.drop 8 }) (bufferedWord s p) := by
  simp only [rngTake, h.healthy, if_pos (And.intro h.length (And.intro h.inst h.gen)), Bool.false_eq_true, if_false]
  rfl

theorem putCore_putDrbg_frame (s : State) (p ch : Nat) (x : Drbg) (c d : Core) : putCore (putCore (putDrbg s ch x) p c) p d =
    { s with cores := (putCore (putCore (putDrbg s ch x) p c) p d).cores
             rng := (putCore (putCore (putDrbg s ch x) p c) p d).rng } := rfl

/-- A random word taken from the buffer and put into the core by `f`. -/
theorem randomWord_next {f : Word64 → Core → Core} (hs : TablesCanonical s) (h : CanRun s p ps) (hbuf : Buffered s p (coreAt s p))
    (hexec : exec i s = .next (runIns p none false false false ps
      (rngTake p fun s v => .done (putCore s p (f v (coreAt s p))) none 2) s))
    (hplace : SamePlace (coreAt s p) (f (bufferedWord s p) (coreAt s p))) :
    ∃ t, exec i s = .next t ∧ coreAt t p = retired (f (bufferedWord s p) (coreAt s p)) ((coreAt s p).pc + 4) 2 ∧
      t = { s with cores := t.cores, rng := t.rng } := by
  have hdrbg : TablesCanonical (putDrbg s (chanOf p) { drbgAt s (chanOf p) with buf := (drbgAt s (chanOf p)).buf.drop 8 }) :=
    (putDrbg_ev (.refl s)).tables hs
  exact ⟨_, exec_of_work h hexec (rngTake_of_buffered hbuf _) (coreAt_putCore hdrbg p _) hplace,
    coreAt_putCore (putCore_tables hdrbg p _) p _, putCore_putDrbg_frame ..⟩

theorem rngData_next (hs : TablesCanonical s) (h : CanRun s p [(0, 0, 1)]) (hbuf : Buffered s p (coreAt s p)) :
    ∃ t, exec (.rngDataRead p) s = .next t ∧
      coreAt t p = retired (push (coreAt s p) (bufferedWord s p)) ((coreAt s p).pc + 4) 2 ∧
      t = { s with cores := t.cores, rng := t.rng } := by
  have hexec : exec (.rngDataRead p) s = .next (runIns p none false false false [(0, 0, 1)]
      (rngTake p fun s v => .done (putCore s p (push (coreAt s p) v)) none 2) s) := by
    change execRngDataRead p s = _
    rw [execRngDataRead, runPlain]
  have hnext := randomWord_next (f := fun v c => push c v) hs h hbuf hexec (samePlace_push ..)
  exact hnext

theorem srand_next (hs : TablesCanonical s) {sd : Nat} (h : CanRun s p [(0, 0, 0)]) (hring : (coreAt s p).ring ≤ 1)
    (hbuf : Buffered s p (coreAt s p)) : ∃ t, exec (.srand p sd) s = .next t ∧
      coreAt t p = retired (putSecret (coreAt s p) sd (bufferedWord s p)) ((coreAt s p).pc + 4) 2 ∧
      t = { s with cores := t.cores, rng := t.rng } := by
  have hexec : exec (.srand p sd) s = .next (runIns p none false false false [(0, 0, 0)]
      (rngTake p fun s v => .done (putCore s p (putSecret (coreAt s p) sd v)) none 2) s) := by
    change execSrand p sd s = _
    rw [execSrand, notManager_of_ring hring]
  have hnext := randomWord_next (f := fun v c => putSecret c sd v) hs h hbuf hexec (samePlace_putSecret ..)
  exact hnext

/-! ### The jobs of a core (R562, R563, R578) -/

theorem jobAt_putCore (s : State) (p n : Nat) (c : Core) : jobAt (putCore s p c) n = jobAt s n := rfl

/-- Core `c` with job `n`, which is `j`, as its own (R562). -/
def withJob (c : Core) (n : Nat) (j : Job) : Core :=
  { push c (BitVec.ofNat 64 n) with job := n, ctxInst := j.inst, ctxGen := j.gen, inJob := true, mcSlot := j.image.getD 0 }

theorem jobNext_takes (hs : TablesCanonical s) {n : Nat} {j : Job} (h : CanRun s p [(0, 0, 1)]) (hring : (coreAt s p).ring = 2)
    (hnext : nextJob s p = some (n, j)) (hjob : jobAt s n = some j) : ∃ t, exec (.jobNext p) s = .next t ∧
      jobAt t n = some { j with core := some p } ∧ (coreAt t p).job = n ∧ (coreAt t p).ctxInst = j.inst ∧
      (coreAt t p).ctxGen = j.gen ∧ (coreAt t p).inJob = true ∧ topOf (coreAt t p) 0 = BitVec.ofNat 64 n ∧
      t = { s with cores := t.cores, jobs := t.jobs } := by
  have hmod : TablesCanonical (modJob s n fun j => { j with core := some p }) := (modJob_ev (.refl s)).tables hs
  have hcore : coreAt (modJob s n fun j => { j with core := some p }) p = coreAt s p := by rw [coreAt, modJob_cores]; rfl
  refine ⟨_, exec_of_work (t := putCore (modJob s n fun j => { j with core := some p }) p (withJob (coreAt s p) n j)) (n := 2) h
    (by change execJobNext p s = _; rw [execJobNext, notRing2_of_ring hring]) (by simp only [hnext, hcore]; rfl)
    (coreAt_putCore hmod p _) ⟨rfl, rfl, rfl⟩, ?_⟩
  rw [coreAt_putCore (putCore_tables hmod p _)]
  refine ⟨?_, retired_job .., retired_ctxInst .., retired_ctxGen .., retired_inJob .., retired_topOf .., ?_⟩
  · rw [jobAt_putCore, jobAt_putCore, jobAt_modJob, hjob, Option.map_some]
  · rw [modJob_frame]
    rfl

theorem jobNext_waits (hs : TablesCanonical s) (h : CanRun s p [(0, 0, 1)]) (hring : (coreAt s p).ring = 2)
    (hnext : nextJob s p = none) : ∃ t, exec (.jobNext p) s = .next t ∧ OnlyCore s t p
      (passCycles { coreAt s p with stall := .jobNext, stalls := ((coreAt s p).stalls + 1) % 2 ^ 64 } 1) := by
  refine ⟨_, by change execJobNext p s = _; rw [execJobNext, notRing2_of_ring hring], ?_⟩
  rw [runIns_of_wait (t := s) (on := .jobNext) h (by simp only [hnext])]
  exact onlyCore_putCore hs p _

theorem leafWait_committed (hs : TablesCanonical s) {j : Job} (h : CanRun s p [(0, 0, 1)]) (hring : (coreAt s p).ring = 2)
    (hjob : jobAt s (coreAt s p).job = some j) (hphase : j.phase = .committed) : ∃ t, exec (.leafWait p) s = .next t ∧
      OnlyCore s t p (retired (push (coreAt s p) (BitVec.ofNat 64 j.seq)) ((coreAt s p).pc + 4) 2) :=
  exec_next h (by change execLeafWait p s = _; rw [execLeafWait, notRing2_of_ring hring]) (by simp only [hjob, hphase])
    (putCore_tables hs p _) (onlyCore_putCore hs p _) ⟨rfl, rfl, rfl⟩

theorem leafSubmit_of_not_final (hs : TablesCanonical s) {j : Job} (h : CanRun s p [(1, 1, 0)]) (hring : (coreAt s p).ring = 2)
    (hjob : jobAt s (coreAt s p).job = some j) (hphase : j.phase ≠ .final) (hlow : (topOf (coreAt s p) 0).toNat + 64 ≤ 0x20000)
    (hcheck : accessCheck p (coreAt s p) (coreAt s p).ring .read true (topOf (coreAt s p) 0).toNat 64 = none) :
    ∃ t, exec (.leafSubmit p) s = .next t ∧ OnlyCore s t p (retired (popN (coreAt s p) 1) ((coreAt s p).pc + 4) 2) :=
  exec_next h (by change execLeafSubmit p s = _; rw [execLeafSubmit, notRing2_of_ring hring])
    (by simp only [load_own hlow hcheck, hjob, hphase, false_and, if_false])
    (putCore_tables hs p _) (onlyCore_putCore hs p _) ⟨rfl, rfl, rfl⟩

theorem jobEnd_of_failure {v : Word64} {j : Job} (hjob : jobAt s (coreAt s p).job = some j) (hrun : j.phase = .run)
    (hcore : j.core = some p) (himage : j.image = none) (hallowed : statusAllowed (eOp j.entry) (v.toNat % 2 ^ 16) = true)
    (hlen : v.toNat / 2 ^ 32 ≤ eOutCap j.entry) (hdone : v.toNat % 2 ^ 16 ≠ 0) (hwrong : v.toNat % 2 ^ 16 ≠ 0x3001) :
    jobEnd s p v = failJob s (coreAt s p).job (v.toNat % 2 ^ 16) := by
  have hwork : ¬(j.phase ≠ .run ∨ j.core ≠ some p) := by simp only [hrun, hcore, ne_eq, not_true_eq_false, or_self, not_false_eq_true]
  have hstatus : ¬(eOutCap j.entry < v.toNat / 2 ^ 32 ∨ (!statusAllowed (eOp j.entry) (v.toNat % 2 ^ 16)) = true) := by
    rw [hallowed]
    simp only [Nat.not_lt.mpr hlen, Bool.not_true, Bool.false_eq_true, or_self, not_false_eq_true]
  simp only [jobEnd, hjob, if_neg hwork, if_neg hstatus, himage, Option.isSome_none, Bool.false_eq_true, and_false, if_false, hdone,
    hwrong, false_and, or_self]

theorem jobEnd_fails (hs : TablesCanonical s) {j : Job} (h : CanRun s p [(1, 1, 0)]) (hring : (coreAt s p).ring = 2)
    (hjob : jobAt s (coreAt s p).job = some j) (hrun : j.phase = .run) (hcore : j.core = some p) (himage : j.image = none)
    (hallowed : statusAllowed (eOp j.entry) ((topOf (coreAt s p) 0).toNat % 2 ^ 16) = true)
    (hlen : (topOf (coreAt s p) 0).toNat / 2 ^ 32 ≤ eOutCap j.entry) (hdone : (topOf (coreAt s p) 0).toNat % 2 ^ 16 ≠ 0)
    (hwrong : (topOf (coreAt s p) 0).toNat % 2 ^ 16 ≠ 0x3001) : ∃ t, exec (.jobEnd p) s = .next t ∧
      (jobAt t (coreAt s p).job).map (·.phase) = some .final ∧
      (jobAt t (coreAt s p).job).map (·.status) = some ((topOf (coreAt s p) 0).toNat % 2 ^ 16) ∧
      (coreAt t p).ctxInst = 0x3FF ∧ (coreAt t p).inJob = false ∧ (coreAt t p).depth = (coreAt s p).depth - 1 := by
  have hput := putCore_tables hs p (popN (coreAt s p) 1)
  have hpop := coreAt_putCore hs p (popN (coreAt s p) 1)
  have hend := jobEnd_of_failure (s := putCore s p (popN (coreAt s p) 1)) (v := topOf (coreAt s p) 0) (by rw [hpop]; exact hjob)
    hrun hcore himage hallowed hlen hdone hwrong
  rw [hpop, show (popN (coreAt s p) 1).job = (coreAt s p).job from rfl] at hend
  have hfail : TablesCanonical (failJob (putCore s p (popN (coreAt s p) 1)) (coreAt s p).job
      ((topOf (coreAt s p) 0).toNat % 2 ^ 16)) := (failJob_ev (.refl _)).tables hput
  have hkept : coreAt (failJob (putCore s p (popN (coreAt s p) 1)) (coreAt s p).job ((topOf (coreAt s p) 0).toNat % 2 ^ 16)) p =
      popN (coreAt s p) 1 := by rw [coreAt, failJob_cores]; exact hpop
  have hfinal : (jobAt (failJob (putCore s p (popN (coreAt s p) 1)) (coreAt s p).job ((topOf (coreAt s p) 0).toNat % 2 ^ 16))
      (coreAt s p).job).map (fun j => (j.phase, j.status)) = some (.final, (topOf (coreAt s p) 0).toNat % 2 ^ 16) := by
    rw [failJob, jobAt_modJob, show jobAt (putCore s p (popN (coreAt s p) 1)) (coreAt s p).job = some j from hjob, Option.map_some,
      Option.map_some, if_pos (by rw [undecided, hrun])]
  refine ⟨_, exec_of_work (n := 2) (t := putCore _ p { popN (coreAt s p) 1 with ctxInst := 0x3FF, inJob := false }) h
    (by change execJobEnd p s = _; rw [execJobEnd, notRing2_of_ring hring]) (by simp only [hend, hkept])
    (coreAt_putCore hfail p _) ⟨rfl, rfl, rfl⟩, ?_⟩
  rw [coreAt_putCore (putCore_tables hfail p _)]
  obtain ⟨j', hj', hres⟩ := Option.map_eq_some_iff.mp hfinal
  obtain ⟨hphase, hstatus⟩ := Prod.mk.inj hres
  refine ⟨?_, ?_, retired_ctxInst .., retired_inJob .., retired_depth ..⟩
  · rw [jobAt_putCore, jobAt_putCore, hj', Option.map_some, hphase]
  · rw [jobAt_putCore, jobAt_putCore, hj', Option.map_some, hstatus]

/-! ### Special registers (R531, R577, R606) -/

theorem mfs_next (hs : TablesCanonical s) {r : Nat} (h : CanRun s p [(0, 0, 1)]) (hr : r < 2 ^ 9) (hmsr : msrAssigned r = true)
    (hring : (coreAt s p).ring ≤ 2 ∨ r < 0x040) : ∃ t, exec (.mfs p r) s = .next t ∧
      OnlyCore s t p (retired (push (coreAt s p) (msrRead s p r)) ((coreAt s p).pc + 4) 1) := by
  have hallowed : ¬((coreAt s p).ring = 3 ∧ 0x040 ≤ r) := by omega
  refine exec_coreWork (f := fun c => push c (msrRead s p r)) hs h ?_ ⟨rfl, rfl, rfl⟩
  change execMfs p r s = _
  simp only [execMfs, Nat.mod_eq_of_lt hr, msrIllegal, hmsr, if_true, decide_eq_false hallowed]

theorem msrWrite_accumulator (s : State) (p : Nat) (v : Word64) :
    msrWrite s p 0x008 v = putCore s p { coreAt s p with a := v } := rfl

theorem msrWrite_context (s : State) (p : Nat) (v : Word64) :
    msrWrite s p 0x058 v = putCore s p (ctxSet (coreAt s p) v.toNat) := rfl

theorem mts_accumulator (hs : TablesCanonical s) (h : CanRun s p [(1, 1, 0)]) : ∃ t, exec (.mts p 0x008) s = .next t ∧
    OnlyCore s t p (retired { popN (coreAt s p) 1 with a := topOf (coreAt s p) 0 } ((coreAt s p).pc + 4) 1) := by
  have hput := putCore_tables hs p (popN (coreAt s p) 1)
  refine exec_next (t := putCore (putCore s p (popN (coreAt s p) 1)) p { popN (coreAt s p) 1 with a := topOf (coreAt s p) 0 })
    h rfl ?_ (putCore_tables hput p _) ((onlyCore_putCore hs p _).trans (onlyCore_putCore hput p _)) ⟨rfl, rfl, rfl⟩
  have hcore := coreAt_putCore hs p (popN (coreAt s p) 1)
  refine congrArg (Res.done · none 1) ?_
  change msrWrite (putCore s p (popN (coreAt s p) 1)) p 0x008 (topOf (coreAt s p) 0) = _
  rw [msrWrite_accumulator, hcore]

theorem mts_context (hs : TablesCanonical s) (h : CanRun s p [(1, 1, 0)]) (hring : (coreAt s p).ring ≤ 1) :
    ∃ t, exec (.mts p 0x058) s = .next t ∧
      OnlyCore s t p (retired (ctxSet (popN (coreAt s p) 1) (topOf (coreAt s p) 0).toNat) ((coreAt s p).pc + 4) 1) := by
  have hput := putCore_tables hs p (popN (coreAt s p) 1)
  have hcore := coreAt_putCore hs p (popN (coreAt s p) 1)
  have hallowed : mtsAllowed (coreAt s p) 0x058 = true := decide_eq_true hring
  refine exec_next (t := putCore (putCore s p (popN (coreAt s p) 1)) p (ctxSet (popN (coreAt s p) 1) (topOf (coreAt s p) 0).toNat))
    (n := 1) h (by change execMts p 0x058 s = _; simp only [execMts, show 0x058 % 2 ^ 9 = 0x058 from rfl, hallowed]; rfl) ?_ (putCore_tables hput p _)
    ((onlyCore_putCore hs p _).trans (onlyCore_putCore hput p _)) ⟨rfl, rfl, rfl⟩
  refine congrArg (Res.done · none 1) ?_
  rw [msrWrite_context, hcore]

theorem mpusync_next (hs : TablesCanonical s) (h : CanRun s p [(0, 0, 0)]) (hring : (coreAt s p).ring ≤ 1) :
    ∃ t, exec (.mpusync p) s = .next t ∧
      OnlyCore s t p (retired { coreAt s p with mpu := (coreAt s p).mpuStaged } ((coreAt s p).pc + 4) 4) :=
  exec_coreWork (f := fun c => { c with mpu := c.mpuStaged }) hs h
    (by change execMpusync p s = _; rw [execMpusync, decide_eq_false (Nat.not_lt.mpr hring)]) ⟨rfl, rfl, rfl⟩

theorem waiti_pending (hs : TablesCanonical s) (h : CanRun s p [(0, 0, 0)]) (hring : (coreAt s p).ring ≤ 2)
    (hpending : pendingOf s p ≠ 0) : ∃ t, exec (.waiti p) s = .next t ∧
      OnlyCore s t p (retired (coreAt s p) ((coreAt s p).pc + 4) 1) :=
  exec_next h (by change execWaiti p s = _; rw [execWaiti, decide_eq_false (Nat.not_lt.mpr hring)]) (if_neg hpending) hs
    (.refl s p) ⟨rfl, rfl, rfl⟩

/-! ### What a core reads of itself and of the device (R531, R562) -/

theorem fence_next (hs : TablesCanonical s) (h : CanRun s p [(0, 0, 0)]) : ∃ t, exec (.fence p) s = .next t ∧
    OnlyCore s t p (retired (coreAt s p) ((coreAt s p).pc + 4) 1) :=
  exec_coreWork (f := fun c => c) hs h (by change execFence p s = _; rw [execFence, runPlain]) ⟨rfl, rfl, rfl⟩

theorem deviceRead_next {v : Core → Word64} (hs : TablesCanonical s) (h : CanRun s p [(0, 0, 1)])
    (hexec : exec i s = .next (runPlain p 0 1 (coreWork p 2 fun c => push c (v c)) s)) :
    ∃ t, exec i s = .next t ∧ OnlyCore s t p (retired (push (coreAt s p) (v (coreAt s p))) ((coreAt s p).pc + 4) 2) :=
  exec_coreWork (f := fun c => push c (v c)) hs h hexec (samePlace_push ..)

theorem coreId_next (hs : TablesCanonical s) (h : CanRun s p [(0, 0, 1)]) : ∃ t, exec (.coreId p) s = .next t ∧
    OnlyCore s t p (retired (push (coreAt s p) (BitVec.ofNat 64
      (chanOf p + 2 ^ 6 * (slotOf p - 1) + 2 ^ 8 * halfOf (chanOf p)))) ((coreAt s p).pc + 4) 2) :=
  deviceRead_next (i := .coreId p) (v := fun _ => BitVec.ofNat 64 (chanOf p + 2 ^ 6 * (slotOf p - 1) + 2 ^ 8 * halfOf (chanOf p)))
    hs h (by change execCoreId p s = _; rw [execCoreId])

theorem tetherRead_next (hs : TablesCanonical s) (h : CanRun s p [(0, 0, 1)]) : ∃ t, exec (.tetherRead p) s = .next t ∧
    OnlyCore s t p (retired (push (coreAt s p) (BitVec.ofNat 64 (position s))) ((coreAt s p).pc + 4) 2) :=
  deviceRead_next (i := .tetherRead p) (v := fun _ => BitVec.ofNat 64 (position s)) hs h (by change execTetherRead p s = _; rw [execTetherRead])

theorem jobSerial_next (hs : TablesCanonical s) (h : CanRun s p [(0, 0, 1)]) : ∃ t, exec (.jobSerial p) s = .next t ∧
    OnlyCore s t p (retired (push (coreAt s p) (BitVec.ofNat 64
      (if (jobAt s (coreAt s p).job).isSome then (coreAt s p).job else 0))) ((coreAt s p).pc + 4) 2) :=
  deviceRead_next (v := fun c => BitVec.ofNat 64 (if (jobAt s c.job).isSome then c.job else 0)) hs h
    (by change execJobSerial p s = _; rw [execJobSerial])

/-! ### Secret operations (R346, R532) -/

theorem sld_of_key (hs : TablesCanonical s) {sd k disp off : Nat} (h : CanRun s p [(1, 1, 0)]) (hring : (coreAt s p).ring ≤ 1)
    (hoff : off = (topOf (coreAt s p) 0 + signed64 16 disp).toNat) (hkey : bits (capReg (coreAt s p) k).object 44 4 ≠ 2)
    (huse : capUse s (coreAt s p) k (2 ^ permLoadSecret) off 8 = none) : ∃ t, exec (.sld p sd k disp) s = .next t ∧
      OnlyCore s t p (retired (putSecret (popN (coreAt s p) 1) sd (BitVec.ofNat 64 (unle
        (objBytes s (capReg (coreAt s p) k).object ((capReg (coreAt s p) k).offset + off) 8).1))) ((coreAt s p).pc + 4) 3) := by
  subst hoff
  refine exec_next h (by change execSld p sd k disp s = _; rw [execSld, notManager_of_ring hring]) ?_ (putCore_tables hs p _)
    (onlyCore_putCore hs p _) ⟨rfl, rfl, rfl⟩
  simp only [capLoad, huse, objBytes, if_neg hkey]

theorem sxor_next (hs : TablesCanonical s) {sd ss : Nat} (h : CanRun s p [(0, 0, 0)]) (hring : (coreAt s p).ring ≤ 1) :
    ∃ t, exec (.sxor p sd ss) s = .next t ∧ OnlyCore s t p
      (retired (putSecret (coreAt s p) sd (secretReg (coreAt s p) sd ^^^ secretReg (coreAt s p) ss)) ((coreAt s p).pc + 4) 1) :=
  exec_coreWork (f := fun c => putSecret c sd (secretReg c sd ^^^ secretReg c ss)) hs h
    (by change execSxor p sd ss s = _; rw [execSxor, notManager_of_ring hring]) (samePlace_putSecret ..)

theorem sgfm_next (hs : TablesCanonical s) {sd k : Nat} (h : CanRun s p [(0, 0, 0)]) (hring : (coreAt s p).ring ≤ 1) :
    ∃ t, exec (.sgfm p sd k) s = .next t ∧ OnlyCore s t p
      (retired (putSecret (coreAt s p) sd (gfWord (secretReg (coreAt s p) sd) (BitVec.ofNat 8 k))) ((coreAt s p).pc + 4) 1) :=
  exec_coreWork (f := fun c => putSecret c sd (gfWord (secretReg c sd) (BitVec.ofNat 8 k))) hs h
    (by change execSgfm p sd k s = _; rw [execSgfm, notManager_of_ring hring]) (samePlace_putSecret ..)

/-- The core after SCLR (R346). -/
def secretsCleared (sd : Nat) (all : Bool) (c : Core) : Core := if all then { c with sreg := [] } else putSecret c sd 0

theorem sclr_next (hs : TablesCanonical s) {sd : Nat} (all : Bool) (h : CanRun s p [(0, 0, 0)]) (hring : (coreAt s p).ring ≤ 1) :
    ∃ t, exec (.sclr p sd all) s = .next t ∧ OnlyCore s t p
      (retired (secretsCleared sd all (coreAt s p)) ((coreAt s p).pc + 4) 1) :=
  exec_coreWork hs h (by change execSclr p sd all s = _; rw [execSclr, notManager_of_ring hring]; rfl)
    (by cases all <;> exact ⟨rfl, rfl, rfl⟩)

/-- The keel's staging share input holds `v` (R346). -/
def shareStaged (s : State) (v : BitVec 256) : State := { s with kh := { s.kh with shareIn := v } }

theorem shareStaged_tables {s : State} (hs : TablesCanonical s) (v : BitVec 256) : TablesCanonical (shareStaged s v) :=
  ⟨hs.regs, hs.units, hs.rings, hs.jobs, hs.intakes, hs.msix, hs.events, hs.evtSel, hs.evtRes, hs.sails, hs.lanes, hs.cores, hs.ports⟩

theorem shareStaged_frame (s : State) (p : Nat) (v : BitVec 256) (c d : Core) :
    putCore (shareStaged (putCore s p c) v) p d = { s with
      cores := (putCore (shareStaged (putCore s p c) v) p d).cores
      kh := { s.kh with shareIn := (putCore (shareStaged (putCore s p c) v) p d).kh.shareIn } } := by
  simp only [putCore, shareStaged]

theorem shareStaged_shareIn (s : State) (p : Nat) (v : BitVec 256) (d : Core) : (putCore (shareStaged s v) p d).kh.shareIn = v := rfl

theorem coreAt_shareStaged (s : State) (v : BitVec 256) (p : Nat) : coreAt (shareStaged s v) p = coreAt s p := rfl

theorem samePlace_sport (c : Core) (v : BitVec 256) : SamePlace c { c with sport := v } := ⟨rfl, rfl, rfl⟩

theorem exec_sput_staging {ss : Nat} (hring : (coreAt s p).ring = 1) (hss : ss % 16 % 4 = 0) : exec (.sput p ss 0) s =
    .next (runIns p none false false false [(0, 0, 0)] (fun s => .done
      (shareStaged (putCore s p { coreAt s p with sport := 0 }) (sportOf (coreAt s p) (ss % 16))) none 4) s) := by
  have hlegal : (if ss % 16 % 4 ≠ 0 ∨ 1 < 0 % 4 then some 0 else none) = none := if_neg (by omega)
  change execSput p ss 0 s = _
  rw [execSput, hlegal, decide_eq_false (not_not.mpr hring)]
  rfl

theorem sput_staging (hs : TablesCanonical s) {ss : Nat} (h : CanRun s p [(0, 0, 0)]) (hring : (coreAt s p).ring = 1)
    (hss : ss % 16 % 4 = 0) : ∃ t, exec (.sput p ss 0) s = .next t ∧ t.kh.shareIn = sportOf (coreAt s p) (ss % 16) ∧
      coreAt t p = retired { coreAt s p with sport := 0 } ((coreAt s p).pc + 4) 4 ∧
      t = { s with cores := t.cores, kh := { s.kh with shareIn := t.kh.shareIn } } := by
  have hput := putCore_tables hs p { coreAt s p with sport := 0 }
  have hcore : coreAt (shareStaged (putCore s p { coreAt s p with sport := 0 }) (sportOf (coreAt s p) (ss % 16))) p =
      { coreAt s p with sport := 0 } := (coreAt_shareStaged ..).trans (coreAt_putCore hs p _)
  have hexec := exec_of_work h (exec_sput_staging hring hss) rfl hcore (samePlace_sport ..)
  exact ⟨_, hexec, shareStaged_shareIn ..,
    coreAt_putCore (shareStaged_tables hput _) p _, shareStaged_frame ..⟩

theorem nointExpire_passes (hs : TablesCanonical s) (hruns : coreRuns s p = true) (hopen : (coreAt s p).noint ≠ 0)
    (hstall : (coreAt s p).stall = .none) : ∃ t, exec (.nointExpire p) s = .next t ∧
      OnlyCore s t p (passCycles (coreAt s p) (coreAt s p).noint) ∧ (coreAt t p).noint = 0 := by
  have hwork : ¬(!coreRuns s p || decide ((coreAt s p).noint = 0)) = true := by
    simp only [hruns, hopen, Bool.not_true, decide_false, Bool.or_self, Bool.false_eq_true, not_false_eq_true]
  have hone := onlyCore_putCore hs p (passCycles (coreAt s p) (coreAt s p).noint)
  refine ⟨_, ?_, hone, ?_⟩
  · change execNointExpire p s = _
    simp only [execNointExpire, if_neg hwork, hstall, if_true]
  · rw [hone.core]
    exact Nat.sub_self _

end

/-- Settles O43: each clause is the lemma of its instruction. -/
theorem caritSystemOperations : Obligations.CaritSystemOperations := by
  rintro p s c hlegal rfl
  have hs := hlegal.tables
  exact ⟨fun _ h => bmove_zero hs h, fun _ _ _ _ h => bmove_unit hs h, fun _ _ h => hstart_plain hs h,
    fun _ _ _ _ _ _ h => hfeed_unit hs h, fun _ _ h => hend_local hs h, fun _ h => scmd_overrun hs h,
    fun _ h he hserves hlevel hidle _ => scmd_issues hs h he hserves hlevel hidle,
    fun _ _ h he huse hserves hlevel hidle hjob _ => skey_issues hs h he huse hserves hlevel hidle hjob,
    fun _ h => swait_idle hs h, fun _ h => sstat_next hs h,
    fun h hhealthy hlen hinst hgen => rngData_next hs h ⟨hhealthy, hlen, hinst, hgen⟩,
    fun _ _ h => jobNext_takes hs h, fun h => jobNext_waits hs h, fun _ h => leafWait_committed hs h,
    fun h => ⟨coreId_next hs h, tetherRead_next hs h, jobSerial_next hs h⟩,
    fun _ h => jobEnd_fails hs h, fun _ h => leafSubmit_of_not_final hs h, fun _ h => mfs_next hs h, fun h => mts_accumulator hs h,
    fun h => mts_context hs h, fun h => mpusync_next hs h, fun h => fence_next hs h, fun h => waiti_pending hs h,
    fun _ _ _ _ h => sld_of_key hs h, fun _ _ h => sxor_next hs h, fun _ _ h => sgfm_next hs h,
    fun _ h hring => ⟨sclr_next hs true h hring, sclr_next hs false h hring⟩, fun _ h => sput_staging hs h,
    fun _ h hring hhealthy hlen hinst hgen => srand_next hs h hring ⟨hhealthy, hlen, hinst, hgen⟩, nointExpire_passes hs⟩

end Sys2Proof.Machine

/-! PROOF. Exceptions, traps, interrupts and the return of a Carit core (R565, R575, R581, R584 to R592, R596). -/

namespace Sys2Proof.Machine

/-! ### A write of what is there already -/

section
variable {α : Type} [DecidableEq α] {d : Nat → α} {t : Tab α}

theorem tset_tget_from {lo : Option Nat} (h : tabWfFrom d lo t = true) (k : Nat) : tset (d k) t k (tget (d k) t k) = t := by
  induction t generalizing lo with
  | nil => exact if_pos rfl
  | cons e t ih =>
    rw [wf_head] at h
    obtain ⟨-, hne, htail⟩ := h
    have hrest := ih htail
    by_cases hk : e.1 = k
    · subst hk
      simp only [tget, if_true, tset, if_neg hne, tput]
    · simp only [tget, if_neg hk, tset] at hrest ⊢
      by_cases hd : tget (d k) t k = d k
      · rw [if_pos hd] at hrest ⊢
        simp only [tdel, if_neg hk, hrest]
      · rw [if_neg hd] at hrest ⊢
        have hlow : ¬k < e.1 := fun hlt => hd (tget_below htail (Nat.le_of_lt hlt) _)
        simp only [tput, if_neg hk, if_neg hlow, hrest]

theorem tset_tget (h : Tab.wf d t = true) (k : Nat) : tset (d k) t k (tget (d k) t k) = t := tset_tget_from h k

end

section
variable {s t : State} {p : Nat}

theorem putCore_coreAt (hs : TablesCanonical s) (p : Nat) : putCore s p (coreAt s p) = s := by
  have hcores : tset {} s.cores p (coreAt s p) = s.cores := tset_tget hs.cores p
  rw [putCore, hcores]

theorem stalled_none {c : Core} (h : c.stall = .none) : { c with stall := .none } = c := by rw [← h]

/-! ### The first check that fails (R565, R610) -/

section
variable {ps : List Part} {body : State → Res} {illegal : Option Nat} {ringBad full : Bool}

theorem runIns_of_fault (hruns : coreRuns s p = true) {pairBad : Bool} {m : Nat} {e : Exc}
    (hfault : firstFault p (coreAt s p) illegal ringBad pairBad ps = some (m, e)) :
    runIns p illegal ringBad pairBad full ps body s = takeException s p e (coreAt s p).pc m := by
  have hruns : ¬(!coreRuns s p) = true := by
    rw [hruns]
    decide
  simp only [runIns, if_neg hruns, hfault]

theorem runIns_of_stopped (hruns : coreRuns s p = false) {pairBad : Bool} : runIns p illegal ringBad pairBad full ps body s = s :=
  if_pos (by rw [hruns]; rfl)

theorem firstFault_fetch {e : Exc} (h : fetchCheck p (coreAt s p) = some e) (illegal : Option Nat) (ringBad pairBad : Bool)
    (ps : List Part) : firstFault p (coreAt s p) illegal ringBad pairBad ps = some (0, e) := by
  simp only [firstFault, h]

variable (hfetch : fetchCheck p (coreAt s p) = none) (haligned : (coreAt s p).pc.toNat % 4 = 0)
include hfetch haligned

theorem firstFault_illegal (m : Nat) (ringBad pairBad : Bool) (ps : List Part) :
    firstFault p (coreAt s p) (some m) ringBad pairBad ps = some (m, ⟨1, 0, 0⟩) := by
  simp only [firstFault, hfetch, haligned, ne_eq, not_true_eq_false, if_false]

theorem firstFault_ring (pairBad : Bool) (ps : List Part) :
    firstFault p (coreAt s p) none true pairBad ps = some (0, ⟨2, 0, 0⟩) := by
  simp only [firstFault, hfetch, haligned, ne_eq, not_true_eq_false, if_false, if_true]

theorem firstFault_underflow {x : Part} (h : (coreAt s p).depth < partNeed x) :
    firstFault p (coreAt s p) none false false [x] = some (0, ⟨4, 0, 0⟩) := by
  have hunder : underflow (coreAt s p) [x] = some 0 := if_pos h
  simp only [firstFault, hfetch, haligned, ne_eq, not_true_eq_false, if_false, hunder, Bool.false_eq_true, Option.map_some]

end

theorem mts_ringViolation (hruns : coreRuns s p = true) (hfetch : fetchCheck p (coreAt s p) = none)
    (haligned : (coreAt s p).pc.toNat % 4 = 0) {r : Nat} (hr : r < 2 ^ 9) (hmsr : msrAssigned r = true)
    (hring : mtsAllowed (coreAt s p) r = false) :
    exec (.mts p r) s = .next (takeException s p ⟨2, 0, 0⟩ (coreAt s p).pc 0) := by
  change execMts p r s = _
  rw [execMts]
  simp only [Nat.mod_eq_of_lt hr, msrIllegal, hmsr, hring, if_true, Bool.not_false]
  rw [runIns_of_fault hruns (firstFault_ring hfetch haligned ..)]

theorem mfs_illegal (hruns : coreRuns s p = true) (hfetch : fetchCheck p (coreAt s p) = none)
    (haligned : (coreAt s p).pc.toNat % 4 = 0) {r : Nat} (hr : r < 2 ^ 9) (hmsr : msrAssigned r = false) :
    exec (.mfs p r) s = .next (takeException s p ⟨1, 0, 0⟩ (coreAt s p).pc 0) := by
  change execMfs p r s = _
  rw [execMfs]
  simp only [Nat.mod_eq_of_lt hr, msrIllegal, hmsr, Bool.false_eq_true, if_false]
  rw [runIns_of_fault hruns (firstFault_illegal hfetch haligned ..)]

/-! ### Entry through a vector (R575, R584) -/

/-- The core after an entry into ring `h` whose vector entry is `e` (R584 items 4 to 8). -/
def entered (c : Core) (h e n : Nat) (keep : Bool) : Core :=
  let c := passCycles (enterRing c h) n
  { c with
    pc := BitVec.ofNat 32 e, noint := if bit e 33 then 256 else if keep then c.noint else 0
    nointRing := if bit e 33 then h else c.nointRing }

theorem enterTry_some {vec detail faddr member h : Nat} {pc : Word32} {keep : Bool} (hs : TablesCanonical s)
    (ht : enterTry s p vec detail faddr pc member h keep = some t) : ∃ c e n, coreAt t p = entered c h e n keep := by
  unfold enterTry at ht
  extract_lets c fsp fsl addrs s1 c1 s2 c2 s3 c3 at ht
  have hs2 : TablesCanonical s2 := (frameWrite_ev (spillAll_ev (.refl s))).tables hs
  have hcore : coreAt s3 p = passCycles c2 (36 + 2 * addrs.length) := coreAt_putCore hs2 p _
  split at ht
  · cases ht
  split at ht
  · cases ht
  split at ht
  · cases ht
  next e he =>
  have hc3 : c3 = passCycles c2 (36 + 2 * addrs.length) := hcore
  split at ht
  · cases ht
  cases ht
  refine ⟨rcPut (coreAt s2 p) (0x041 + 8 * h) (BitVec.ofNat 32 (fsp - 256)), e, 36 + 2 * addrs.length,
    (coreAt_putCore (putCore_tables hs2 p _) p _).trans ?_⟩
  rw [hc3]
  rfl

theorem clearSecrets_fields (c : Core) : (clearSecrets c).ring = c.ring ∧ (clearSecrets c).stack = c.stack ∧
    (clearSecrets c).depth = c.depth ∧ (clearSecrets c).ldepth = c.ldepth ∧ (clearSecrets c).pc = c.pc ∧ (clearSecrets c).a = c.a := by
  unfold clearSecrets
  split <;> exact ⟨rfl, rfl, rfl, rfl, rfl, rfl⟩

theorem entered_fields (c : Core) (h e n : Nat) (keep : Bool) : (entered c h e n keep).ring = h ∧
    (entered c h e n keep).stack = [] ∧ (entered c h e n keep).depth = 0 ∧ (entered c h e n keep).ldepth = 0 := by
  obtain ⟨hring, hstack, hdepth, hldepth, -, -⟩ := clearSecrets_fields _
  exact ⟨hring, hstack, hdepth, hldepth⟩

theorem excEvent_of_other {v : Nat} (h1 : v ≠ 1) (h3 : v ≠ 3) (h7 : v ≠ 7) : excEvent s p v = s := by
  simp only [excEvent, h1, h3, h7, or_self, if_false]

theorem enterVector_of_some {vec detail faddr member h : Nat} {pc : Word32} {keep : Bool}
    (ht : enterTry s p vec detail faddr pc member h keep = some t) : enterVector s p vec detail faddr pc member h keep = t := by
  rw [enterVector, ht]

theorem takeException_of_other {e : Exc} {pc : Word32} {m : Nat} (hs : TablesCanonical s) (hbusy : (coreAt s p).dfBusy = false)
    (h1 : e.vec ≠ 1) (h3 : e.vec ≠ 3) (h7 : e.vec ≠ 7) (hforge : e.vec ≠ 0x0B) : takeException s p e pc m =
      enterVector (putCore s p { coreAt s p with entropy := false }) p e.vec e.detail e.faddr pc m ((coreAt s p).ring - 1) false := by
  have hcore := coreAt_putCore hs p { coreAt s p with entropy := false }
  rw [takeException, excEvent_of_other h1 h3 h7]
  simp only [hcore, if_neg hforge]
  exact if_neg (by rw [hbusy]; exact Bool.false_ne_true)

theorem takeException_enters (hs : TablesCanonical s) {e : Exc} {pc : Word32} (hbusy : (coreAt s p).dfBusy = false) (h1 : e.vec ≠ 1)
    (h3 : e.vec ≠ 3) (h7 : e.vec ≠ 7) (hforge : e.vec ≠ 0x0B)
    (ht : enterTry (putCore s p { coreAt s p with entropy := false }) p e.vec e.detail e.faddr pc 0 ((coreAt s p).ring - 1) false =
      some t) : takeException s p e pc 0 = t ∧ (coreAt t p).ring = (coreAt s p).ring - 1 ∧ (coreAt t p).stack = [] ∧
      (coreAt t p).depth = 0 ∧ (coreAt t p).ldepth = 0 := by
  obtain ⟨c, v, n, hcore⟩ := enterTry_some (putCore_tables hs p _) ht
  refine ⟨(takeException_of_other hs hbusy h1 h3 h7 hforge).trans (enterVector_of_some ht), ?_⟩
  rw [hcore]
  exact entered_fields ..

/-! ### TRAP and RETX (R581, R587, R596) -/

theorem trap_enters (h : CanRun s p [(0, 0, 0)]) {n e : Nat} (hn : n < 256)
    (he : vectorEntry (putCore s p { coreAt s p with ring := (coreAt s p).ring - 1 }) p ((coreAt s p).ring - 1) (0x40 + n) = some e)
    (hvalid : bit e 32 = true)
    (ht : enterTry (putCore s p (coreAt s p)) p (0x40 + n) 0 0 ((coreAt s p).pc + 4) 0 ((coreAt s p).ring - 1) false = some t) :
    exec (.trap p n) s = .next (completeIns t p (some (coreAt t p).pc) 0 0) := by
  refine congrArg Host.Outcome.next (runPlain_of_done h ?_)
  simp only [trapWork, handlingRing, Nat.mod_eq_of_lt hn, he, hvalid, Bool.not_true, Bool.false_eq_true, and_false, if_false,
    loopNext_of_no_end h.noLoop, enterVector, ht]

/-- The core that RETX restores from a frame of its own ring at `fr` (R587). -/
def returned (c : Core) (b : Bytes) (tags : Nat → Bool) (fr : Nat) : Core :=
  rcPut { clearSecrets (frameRestore c b tags) with noint := 0, stall := .none } (0x041 + 8 * c.ring) (BitVec.ofNat 32 (fr + 256))

theorem returned_fields (c : Core) (b : Bytes) (tags : Nat → Bool) (fr : Nat) :
    (returned c b tags fr).pc = BitVec.ofNat 32 (field b 0 4) ∧ (returned c b tags fr).ring = bits (field b 5 1) 0 2 ∧
    (returned c b tags fr).depth = field b 16 4 ∧ (returned c b tags fr).a = BitVec.ofNat 64 (field b 48 8) := by
  obtain ⟨hring, -, hdepth, -, hpc, ha⟩ := clearSecrets_fields (frameRestore c b tags)
  exact ⟨hpc, hring, hdepth, ha⟩

theorem clearSecrets_dfBusy (c : Core) : (clearSecrets c).dfBusy = c.dfBusy := by
  unfold clearSecrets
  split <;> rfl

section
variable {b : Bytes} {fr : Nat} (hring : (coreAt s p).ring ≤ 2) (hbusy : (coreAt s p).dfBusy = false)
  (hfr : fr = (rcOf (coreAt s p) (0x041 + 8 * (coreAt s p).ring)).toNat) (hb : b = memGet s p fr 256)
  (hlow : fr + 256 ≤ 0x20000) (hcheck : accessCheck p (coreAt s p) (coreAt s p).ring .read false fr 256 = none)
include hring hbusy hfr hb hlow hcheck

omit hbusy hfr hb hlow hcheck in
theorem exec_retx_of_ring : exec (.retx p) s = .next (runIns p none false false false [(0, 0, 0)] (retxWork p) s) := by
  change execRetx p s = _
  rw [execRetx, decide_eq_false (Nat.not_lt.mpr hring)]

theorem retx_forged (h : CanRun s p [(0, 0, 0)]) (hforged : bits (field b 5 1) 0 2 < (coreAt s p).ring) :
    exec (.retx p) s = .next (takeException s p ⟨0x0B, 0, fr⟩ (coreAt s p).pc 0) := by
  have hwork : retxWork p s = .trap 0 ⟨0x0B, 0, fr⟩ := by
    simp only [retxWork, hbusy, Bool.false_eq_true, if_false, ← hfr, load_own hlow hcheck, ← hb, if_pos hforged]
  rw [exec_retx_of_ring hring, runIns_of_canRun h, hwork]
  rfl

theorem retx_returns (hs : TablesCanonical s) (h : CanRun s p [(0, 0, 0)]) (hgood : (coreAt s p).ring ≤ bits (field b 5 1) 0 2) :
    ∃ t, exec (.retx p) s = .next t ∧ (coreAt t p).pc = BitVec.ofNat 32 (field b 0 4) ∧
      (coreAt t p).ring = bits (field b 5 1) 0 2 ∧ (coreAt t p).depth = field b 16 4 ∧
      (coreAt t p).a = BitVec.ofNat 64 (field b 48 8) ∧ t = { s with cores := t.cores } := by
  have hwork : retxWork p s = .done (putCore s p (returned (coreAt s p) b (fun i => tagOf s p (fr + 160 + 16 * i)) fr))
      (some (returned (coreAt s p) b (fun i => tagOf s p (fr + 160 + 16 * i)) fr).pc) 24 := by
    simp only [retxWork, hbusy, Bool.false_eq_true, if_false, ← hfr, load_own hlow hcheck, ← hb, if_neg (Nat.not_lt.mpr hgood)]
    rfl
  obtain ⟨hpc, hr, hdepth, ha⟩ := returned_fields (coreAt s p) b (fun i => tagOf s p (fr + 160 + 16 * i)) fr
  have hone := runIns_jump h hwork (putCore_tables hs p _) (onlyCore_putCore hs p _)
  refine ⟨_, exec_retx_of_ring hring, ?_⟩
  rw [hone.core]
  exact ⟨(retired_pc ..).trans hpc, (retired_ring ..).trans hr, (retired_depth ..).trans hdepth, (retired_a ..).trans ha, hone.frame⟩

end

/-! ### Interrupts (R591, R592) -/

/-- The state with no request waiting for channel `p`'s DRBG. -/
def requestsCleared (s : State) (p : Nat) : State := putDrbg s (chanOf p) { drbgAt s (chanOf p) with queue := [] }

theorem requestsCleared_tables (hs : TablesCanonical s) : TablesCanonical (requestsCleared s p) := (putDrbg_ev (.refl s)).tables hs

theorem withdraw_idle (hs : TablesCanonical s) (hstall : (coreAt s p).stall = .none) (hqueue : (drbgAt s (chanOf p)).queue = []) :
    withdraw s p = requestsCleared s p := by
  have hwait : ¬(coreAt s p).stall = .waiti := by
    rw [hstall]
    exact Stall.noConfusion
  have hcore : coreAt (requestsCleared s p) p = coreAt s p := rfl
  have hkept := putCore_coreAt (requestsCleared_tables (p := p) hs) p
  rw [hcore] at hkept
  simp only [withdraw, if_neg hwait, hqueue, List.filter_nil]
  change putCore (requestsCleared s p) p { coreAt s p with stall := .none } = _
  rw [stalled_none hstall, hkept]

theorem interruptTaken_request (hs : TablesCanonical s) (hruns : coreRuns s p = true) (hnext : nextInterrupt s p = some 0x22)
    (hstall : (coreAt s p).stall = .none) (hqueue : (drbgAt s (chanOf p)).queue = [])
    (ht : enterTry (putCore (requestsCleared s p) p (coreAt s p)) p 0x22 0 0 (coreAt s p).pc 0 1 true = some t) :
    exec (.interruptTaken p) s = .next t := by
  have hcore : coreAt (requestsCleared s p) p = coreAt s p := rfl
  have hruns : ¬(!coreRuns s p) = true := by
    rw [hruns]
    decide
  change execInterruptTaken p s = _
  simp only [execInterruptTaken, if_neg hruns, hnext, withdraw_idle hs hstall hqueue, hcore]
  change Host.Outcome.next (enterVector (putCore (requestsCleared s p) p (coreAt s p)) p 0x22 0 0 (coreAt s p).pc 0 1 true) = _
  rw [enterVector, ht]

theorem execInterruptTaken_of_stopped (hruns : coreRuns s p = false) : exec (.interruptTaken p) s = .next s :=
  if_pos (by rw [hruns]; rfl)

end

/-- Settles O44: the first failing check, the entry, the trap, the return and the interrupt, by the lemmas above. -/
theorem caritExceptions : Obligations.CaritExceptions := by
  rintro p s c hlegal rfl
  have hs := hlegal.tables
  refine ⟨fun imm e hruns he => ?_, fun hruns hfetch haligned hdepth => ?_,
    fun r hruns hfetch haligned hr => mts_ringViolation hruns hfetch haligned hr,
    fun r hruns hfetch haligned hr => mfs_illegal hruns hfetch haligned hr, ?_, fun n t h hn _ e he hvalid ht => trap_enters h hn he hvalid ht,
    fun b h hring hbusy hb hlow hcheck => ⟨retx_returns hring hbusy rfl hb hlow hcheck hs h, retx_forged hring hbusy rfl hb hlow hcheck h⟩,
    ?_, fun hruns n r imm => ⟨?_, ?_, ?_, ?_, execInterruptTaken_of_stopped hruns⟩⟩
  · exact congrArg Host.Outcome.next (runIns_of_fault hruns (firstFault_fetch he ..))
  · exact congrArg Host.Outcome.next (runIns_of_fault hruns (firstFault_underflow hfetch haligned (by rw [hdepth]; decide)))
  · rintro e n hbusy - h1 h3 h7 hforge t u rfl ht
    exact takeException_enters hs hbusy h1 h3 h7 hforge ht
  · rintro v t hruns hnext rfl hstall hqueue ht
    exact ⟨t, interruptTaken_request hs hruns hnext hstall hqueue ht, rfl, rfl⟩
  all_goals exact congrArg Host.Outcome.next (runIns_of_stopped hruns)

end Sys2Proof.Machine

/-! PROOF. The request windows of the instance manager (R621 to R625): one request at GO, carried out at once. -/

namespace Sys2Proof.Machine

section
variable {s t u : State} {a i op : Nat} {acc : Acc} {d : Option (Bool × Bytes)} {w : ImWindow}

/-! ### Windows -/

theorem winAt_putWin (s : State) (a : Nat) {w : ImWindow} (h : w ≠ {}) : winAt (putWin s a w) a = w := tget_tset_new _ _ _ h _

theorem winAt_putWin_ne (s : State) {a b : Nat} (w : ImWindow) (h : b ≠ a) : winAt (putWin s a w) b = winAt s b :=
  tget_tset_ne _ _ _ _ h

theorem winAt_of_im (h : t.im.windows = s.im.windows) (b : Nat) : winAt t b = winAt s b := by rw [winAt, winAt, h]

theorem window_ne_of_state (h : w.state ≠ .idle) : w ≠ {} := fun hw => h (by rw [hw])

/-- No request waits for its turn or for its data. -/
def Quiet (s : State) : Prop := ∀ b, winBusy (winAt s b) = true → (winAt s b).waits = false

/-- No window but `a` is BUSY. -/
def OnlyBusy (s : State) (a : Nat) : Prop := ∀ b, b ≠ a → winBusy (winAt s b) = false

/-- The request of window `a` is being carried out, the only one that is outstanding. -/
structure Serving (s : State) (a : Nat) : Prop where
  only : OnlyBusy s a
  busy : winBusy (winAt s a) = true
  turn : (winAt s a).waits = false
  kept : (winAt s a).discard = false

theorem Serving.of_windows (h : Serving s a) (hw : t.im.windows = s.im.windows) : Serving t a where
  only := fun b hb => by rw [winAt_of_im hw]; exact h.only b hb
  busy := by rw [winAt_of_im hw]; exact h.busy
  turn := by rw [winAt_of_im hw]; exact h.turn
  kept := by rw [winAt_of_im hw]; exact h.kept

theorem Serving.quiet (h : Serving s a) : Quiet s := by
  intro b hb
  by_cases hba : b = a
  · rw [hba]
    exact h.turn
  · rw [h.only b hba] at hb
    cases hb

/-- The window of a request that has ended (R625). -/
def doneWindow (w : ImWindow) (code : Nat) : ImWindow := { w with state := .done, code := code, waits := false, held := [], data := none }

theorem endRequest_of_serving (h : Serving s a) (code : Nat) :
    endRequest s a code = setEvent (putWin s a (doneWindow (winAt s a) code)) imPage 16 := by
  simp only [endRequest, doneWindow, h.busy, h.kept, Bool.not_true, Bool.false_eq_true, if_false]

theorem quiet_endRequest (h : Serving s a) (code : Nat) : Quiet (endRequest s a code) := by
  have hwindows : (endRequest s a code).im.windows = (putWin s a (doneWindow (winAt s a) code)).im.windows := by
    rw [endRequest_of_serving h, setEvent_im]
  intro b hb
  rw [winAt_of_im hwindows] at hb ⊢
  by_cases hba : b = a
  · rw [hba, winAt_putWin s a (window_ne_of_state ImState.noConfusion)]
    rfl
  · rw [winAt_putWin_ne s _ hba, h.only b hba] at hb
    cases hb

/-! ### Turns (R622) -/

theorem tryRequest_of_idle (h : winBusy (winAt s a) = true → (winAt s a).waits = false) : tryRequest s a = s := by
  refine if_pos ?_
  cases hbusy : winBusy (winAt s a) with
  | false => exact .inl rfl
  | true => exact .inr (.inl (by rw [h hbusy]; rfl))

theorem tryRequests_of_quiet (h : Quiet s) (l : List Nat) : l.foldl tryRequest s = s :=
  List.foldl_fixed' (fun b => tryRequest_of_idle (h b)) l

/-- The first round of turns in which only window `a` has a request. -/
theorem tryRequests_of_one (h : OnlyBusy s a) (htry : tryRequest s a = t) (ht : Quiet t) :
    ∀ {l : List Nat}, a ∈ l → l.foldl tryRequest s = t
  | b :: l, hl => by
    by_cases hb : b = a
    · rw [List.foldl_cons, hb, htry, tryRequests_of_quiet ht]
    · have hidle : tryRequest s b = s := tryRequest_of_idle fun hbusy => by
        rw [h b hb] at hbusy
        cases hbusy
      rw [List.foldl_cons, hidle, tryRequests_of_one h htry ht ((List.mem_cons.mp hl).resolve_left (Ne.symm hb))]

/-- The ripcord ends no RESTORE: none is outstanding that has had its turn, or the ripcord has not come (R639). -/
def NoZeroise (s : State) : Prop := ∀ b, winBusy (winAt s b) = true → (winAt s b).waits = false → (winAt s b).op = 0x08 →
  s.kh.ripcorded = false

theorem zeroiseRestore_of_none (h : NoZeroise s) (b : Nat) : zeroiseRestore s b = s := by
  refine if_neg ?_
  rintro ⟨hripcord, hbusy, hturn, hop⟩
  rw [h b hbusy ((Bool.not_eq_true' _).mp hturn) hop] at hripcord
  cases hripcord

theorem zeroiseRestores_of_none (h : NoZeroise s) (l : List Nat) : l.foldl zeroiseRestore s = s :=
  List.foldl_fixed' (zeroiseRestore_of_none h) l

/-- Rounds of turns after which nothing is left to do. -/
theorem rounds_of_settled {round : State → State} (h : round s = t) (ht : round t = t) :
    ∀ {l : List Nat}, l ≠ [] → l.foldl (fun s _ => round s) s = t
  | _ :: l, _ => by
    rw [List.foldl_cons, h]
    exact List.foldl_fixed' (fun _ => ht) l

theorem pumpRequests_of_quiet (h : Quiet s) (hz : NoZeroise s) : pumpRequests s = s := by
  rw [pumpRequests, zeroiseRestores_of_none hz]
  exact List.foldl_fixed' (f := fun s _ => (List.range 3).foldl tryRequest s) (fun _ => tryRequests_of_quiet h _) _

theorem pumpRequests_of_one (ha : a < 3) (h : OnlyBusy s a) (hz : NoZeroise s) (htry : tryRequest s a = t) (ht : Quiet t) :
    pumpRequests s = t := by
  have hround : (List.range 3).foldl tryRequest s = t := tryRequests_of_one h htry ht (List.mem_range.mpr ha)
  rw [pumpRequests, zeroiseRestores_of_none hz]
  exact rounds_of_settled (round := fun s => (List.range 3).foldl tryRequest s) hround (tryRequests_of_quiet ht _)
    (by decide)

/-! ### A request at GO (R621, R622) -/

theorem accIdx_lt (h : reaches s acc imPage = true) : accIdx acc < 3 := by
  cases acc with
  | vf => rw [reaches, Bool.and_false] at h; cases h
  | _ => decide

section
variable (h : ImRun s acc op i d w t)
include h

theorem ImRun.winBusy_w : winBusy w = true := by rw [h.window]; rfl

theorem ImRun.winAt_same : winAt t (accIdx acc) = w := by
  have hne : w ≠ {} := window_ne_of_state (by rw [h.window]; exact ImState.noConfusion)
  rw [h.device]
  exact tget_tset_new _ _ _ hne _

theorem ImRun.winAt_other {b : Nat} (hb : b ≠ accIdx acc) : winAt t b = winAt s b := by
  rw [h.device]
  exact (tget_tset_ne _ _ _ _ hb).trans (tget_tset_ne _ _ _ _ hb)

theorem ImRun.serving : Serving t (accIdx acc) where
  only := fun b hb => by rw [h.winAt_other hb]; exact h.free b
  busy := by rw [h.winAt_same]; exact h.winBusy_w
  turn := by rw [h.winAt_same, h.window]
  kept := by rw [h.winAt_same, h.window]

theorem ImRun.fields : w.op = op ∧ w.inst = i ∧ w.data = d := by
  rw [h.window]
  exact ⟨rfl, rfl, rfl⟩

/-- The device at GO, before the request has its turn. -/
def atGo (s : State) (a : Nat) (w : ImWindow) : State :=
  { putWin s a { w with waits := true } with im := { (putWin s a { w with waits := true }).im with nextOrder := s.im.nextOrder + 1 } }

theorem ImRun.device_eq : putWin (atGo s (accIdx acc) w) (accIdx acc) w = t := by rw [h.device]; rfl

theorem ImRun.winAt_atGo : winAt (atGo s (accIdx acc) w) (accIdx acc) = { w with waits := true } :=
  winAt_putWin s _ (window_ne_of_state (by rw [h.window]; exact ImState.noConfusion))

theorem ImRun.only_atGo : OnlyBusy (atGo s (accIdx acc) w) (accIdx acc) := by
  intro b hb
  rw [show winAt (atGo s (accIdx acc) w) b = winAt s b from winAt_putWin_ne s _ hb]
  exact h.free b

theorem ImRun.noZeroise_atGo : NoZeroise (atGo s (accIdx acc) w) := by
  intro b hbusy hturn
  by_cases hb : b = accIdx acc
  · rw [hb, h.winAt_atGo] at hturn
    cases hturn
  · rw [h.only_atGo b hb] at hbusy
    cases hbusy

theorem ImRun.imRow_eq : imRow s acc op i d = pumpRequests (atGo s (accIdx acc) w) := by
  obtain ⟨hop, hi⟩ := h.range
  have hbusy : winBusy (winAt s (accIdx acc)) = false := h.free _
  have hdrop : ¬(!reaches s acc imPage ∨ winBusy (winAt s (accIdx acc))) := by
    rw [h.reached, hbusy]
    exact fun h => h.elim Bool.noConfusion Bool.noConfusion
  have hawake : (atGo s (accIdx acc) w).power.state = .run := h.awake
  have hgo : imGo s acc op i d = pumpRequests (wakeUp (atGo s (accIdx acc) w)) := by
    simp only [imGo, if_neg hdrop, Nat.mod_eq_of_lt hop, Nat.mod_eq_of_lt hi]
    rw [h.window]
    rfl
  rw [imRow]
  simp only [hbusy, Bool.false_eq_true, false_and, if_false]
  rw [hgo, wakeUp_of_run hawake]

/-- Where a request's turn leads: its end with a code, or its staying BUSY. -/
def ended (a : Nat) : State × Option Nat → State
  | (s, some c) => endRequest s a c
  | (s, none) => s

theorem ImRun.imRow_runs (hdata : readsHost op = true → d.isSome = true) {r : State × Option Nat}
    (hrun : runRequest t (accIdx acc) = r) (hquiet : Quiet (ended (accIdx acc) r)) :
    imRow s acc op i d = ended (accIdx acc) r := by
  have hgo := h.winAt_atGo
  obtain ⟨hop, -, hd⟩ := h.fields
  have hfirst : mustWait (atGo s (accIdx acc) w) (accIdx acc) = false := by
    rw [mustWait, List.any_eq_false]
    intro b _
    by_cases hb : b = accIdx acc
    · rw [hb]
      simp only [ne_eq, not_true_eq_false, decide_false, Bool.false_and, Bool.false_eq_true, not_false_eq_true]
    · simp only [h.only_atGo b hb, Bool.and_false, Bool.false_and, Bool.false_eq_true, not_false_eq_true]
  have hwaits : ¬(readsHost w.op = true ∧ w.data.isNone = true) := by
    rw [hop, hd]
    rintro ⟨hreads, hnone⟩
    rw [Option.isNone_iff_eq_none.mp hnone] at hdata
    cases hdata hreads
  have htry : tryRequest (atGo s (accIdx acc) w) (accIdx acc) = ended (accIdx acc) r := by
    have hturn : { { w with waits := true } with waits := false } = w := by rw [h.window]
    have hb : winBusy { w with waits := true } = true := h.winBusy_w
    simp only [tryRequest, hgo, hfirst, hb, hwaits, Bool.not_true, Bool.false_eq_true, or_self, if_false, hturn, h.device_eq, hrun]
    obtain ⟨u, _ | c⟩ := r <;> rfl
  rw [h.imRow_eq]
  exact pumpRequests_of_one (accIdx_lt h.reached) h.only_atGo h.noZeroise_atGo htry hquiet

theorem ImRun.imRow_ends (hdata : readsHost op = true → d.isSome = true) {c : Nat}
    (hrun : runRequest t (accIdx acc) = (u, some c)) (hu : Serving u (accIdx acc)) :
    imRow s acc op i d = endRequest u (accIdx acc) c := h.imRow_runs hdata hrun (quiet_endRequest hu c)

theorem ImRun.imRow_stays (hdata : readsHost op = true → d.isSome = true)
    (hrun : runRequest t (accIdx acc) = (u, none)) (hu : Serving u (accIdx acc)) :
    imRow s acc op i d = u := h.imRow_runs hdata hrun hu.quiet

theorem ImRun.runRequest_refused (hc : generalCheck t op i w ≠ 0) :
    runRequest t (accIdx acc) = (t, some (generalCheck t op i w)) := by
  obtain ⟨hop, hi, -⟩ := h.fields
  simp only [runRequest, h.winAt_same, hop, hi, if_pos hc]

end

theorem imRow_of_busy (hbusy : winBusy (winAt s (accIdx acc)) = true) (hturn : (winAt s (accIdx acc)).waits = false) :
    imRow s acc op i d = s := by
  have hgo : imGo s acc op i d = s := if_pos (.inr hbusy)
  rw [imRow]
  simp only [hturn, Bool.false_eq_true, false_and, and_false, if_false, hgo]

theorem imRow_of_unreached (hbusy : winBusy (winAt s (accIdx acc)) = false) (hreach : reaches s acc imPage = false) :
    imRow s acc op i d = s := by
  have hgo : imGo s acc op i d = s := if_pos (.inl (by rw [hreach]; rfl))
  rw [imRow]
  simp only [hbusy, Bool.false_eq_true, false_and, if_false, hgo]

end

/-- The rows of R623: each command is `imRow` with its operation and its data. -/
def requestRows (acc : Acc) (i : Nat) (ok : Bool) (b : Bytes) : List (Nat × Instr × Option (Bool × Bytes)) :=
  [(0x01, .create acc i, none), (0x02, .reset acc i, none), (0x03, .remove acc i, none),
    (0x04, .freeze acc i, none), (0x05, .thaw acc i, none), (0x06, .ticket acc i, none), (0x07, .save acc i ok b, some (ok, b)),
    (0x08, .restore acc i ok b, some (ok, b)), (0x09, .configure acc i, none), (0x0A, .mcBind acc i, none),
    (0x10, .cerJoin acc i, none), (0x11, .cerSplit acc i, none), (0x12, .cerAbandon acc i, none),
    (0x13, .cerActivate acc i, none), (0x14, .mcLoad acc i ok b, some (ok, b))]

theorem requestRows_spec {acc : Acc} {i op : Nat} {ok : Bool} {b : Bytes} {c : Instr} {d : Option (Bool × Bytes)} {s : State}
    (h : (op, c, d) ∈ requestRows acc i ok b) : exec c s = .next (imRow s acc op i d) ∧ (readsHost op = true → d.isSome = true) := by
  simp only [requestRows, List.mem_cons, Prod.mk.injEq, List.not_mem_nil, or_false] at h
  rcases h with ⟨rfl, rfl, rfl⟩ | ⟨rfl, rfl, rfl⟩ | ⟨rfl, rfl, rfl⟩ | ⟨rfl, rfl, rfl⟩ | ⟨rfl, rfl, rfl⟩ | ⟨rfl, rfl, rfl⟩ |
    ⟨rfl, rfl, rfl⟩ | ⟨rfl, rfl, rfl⟩ | ⟨rfl, rfl, rfl⟩ | ⟨rfl, rfl, rfl⟩ | ⟨rfl, rfl, rfl⟩ | ⟨rfl, rfl, rfl⟩ | ⟨rfl, rfl, rfl⟩ |
    ⟨rfl, rfl, rfl⟩ | ⟨rfl, rfl, rfl⟩ <;> exact ⟨rfl, by simp [readsHost]⟩

/-- Settles O45: a failed check ends the one request of its round; a BUSY window or an unreached page drops GO. -/
theorem instanceRequestChecks : Obligations.InstanceRequestChecks := by
  intro acc i ok b s t w op c d hrow
  obtain ⟨hexec, hdata⟩ := requestRows_spec (s := s) hrow
  refine ⟨?_, fun hbusy hturn => ?_, fun hbusy hreach => ?_⟩
  · rintro k hrun rfl hk
    rw [hexec, hrun.imRow_ends hdata (hrun.runRequest_refused hk) hrun.serving]
  · rw [hexec, imRow_of_busy hbusy hturn]
  · rw [hexec, imRow_of_unreached hbusy hreach]

end Sys2Proof.Machine

/-! PROOF. Host ports (R852, R856 to R858, R863, R888, R889): functions, their resets and links; and what a change of units
leaves as it was. -/

namespace Sys2Proof.Machine

/-- `t` comes of `s` by a change of units: only unit headers, what follows a unit's state, events and their messages differ. -/
structure UnitWork (s t : State) : Prop where
  frame : t = { s with
    units := t.units, rootSent := t.rootSent, msix := t.msix, out := t.out, im := { s.im with insts := t.im.insts }
    rings := t.rings, intakes := t.intakes, rng := t.rng, sails := t.sails, cores := t.cores, audit := t.audit }

section
variable {s t u : State}

theorem UnitWork.refl (s : State) : UnitWork s s := ⟨rfl⟩

theorem UnitWork.trans (h : UnitWork s t) (k : UnitWork t u) : UnitWork s u := ⟨k.frame.trans (by rw [h.frame])⟩

theorem UnitWork.ite {c : Prop} [Decidable c] {a b : State} (h : c → UnitWork s a) (k : ¬c → UnitWork s b) :
    UnitWork s (if c then a else b) := by
  split
  · exact h ‹_›
  · exact k ‹_›

theorem UnitWork.foldl {α : Type} {f : State → α → State} (h : ∀ s a, UnitWork s (f s a)) (l : List α) (s : State) :
    UnitWork s (l.foldl f s) := by
  induction l generalizing s with
  | nil => exact .refl s
  | cons a l ih => exact (h s a).trans (ih _)

theorem UnitWork.portAtN (h : UnitWork s t) (n : Nat) : portAtN t n = portAtN s n := by
  rw [h.frame]
  rfl

theorem UnitWork.bridle (h : UnitWork s t) : t.bridle = s.bridle := by rw [h.frame]

theorem UnitWork.power (h : UnitWork s t) : t.power = s.power := by rw [h.frame]

theorem UnitWork.lc (h : UnitWork s t) : t.lc = s.lc := by rw [h.frame]

theorem UnitWork.kh (h : UnitWork s t) : t.kh = s.kh := by rw [h.frame]

theorem UnitWork.windows (h : UnitWork s t) : t.im.windows = s.im.windows := by rw [h.frame]

end

/-! ### Changes of units -/

section
variable (s : State)

theorem unitWork_modUnit (p : Nat) (f : UnitHdr → UnitHdr) : UnitWork s (modUnit s p f) := ⟨rfl⟩

theorem unitWork_sendMsix (func entry : Nat) : UnitWork s (sendMsix s func entry) :=
  ⟨by rw [sendMsix_frame]⟩

theorem noteRoot_frame : noteRoot s =
    { s with msix := (noteRoot s).msix, out := (noteRoot s).out, rootSent := (noteRoot s).rootSent } := by
  unfold noteRoot
  extract_lets r
  split
  · exact congrArg (fun t => { t with rootSent := true }) (sendManagement_frame s)
  · rfl

theorem unitWork_noteRoot : UnitWork s (noteRoot s) := ⟨by rw [noteRoot_frame]⟩

theorem unitWork_setEvent (p b : Nat) : UnitWork s (setEvent s p b) := (unitWork_modUnit s p _).trans (unitWork_noteRoot _)

theorem unitWork_dpEvent (i b : Nat) : UnitWork s (dpEvent s i b) := by
  unfold dpEvent
  extract_lets x ev u
  have hput : UnitWork s u := ⟨rfl⟩
  exact .ite (fun _ => .refl s) fun _ => .ite (fun _ => hput.trans (unitWork_sendMsix ..)) fun _ => hput

theorem unitWork_wakeRing (k : Nat) : UnitWork s (wakeRing s k) := by
  unfold wakeRing
  exact .ite (fun _ => .refl s) fun _ => .ite (fun _ => ⟨rfl⟩) fun _ => ⟨rfl⟩

theorem unitWork_instFollow (p : Nat) (old : UState) : UnitWork s (instFollow s p old) := by
  unfold instFollow
  refine .ite (fun _ => ?_) fun _ => .refl s
  split
  · exact unitWork_dpEvent ..
  · refine UnitWork.trans ?_ (.foldl unitWork_wakeRing _ _)
    exact .ite (fun _ => unitWork_dpEvent ..) fun _ => .refl s
  · exact .refl s

theorem unitWork_drbgFollow (p : Nat) (st : UState) : UnitWork s (drbgFollow s p st) := by
  unfold drbgFollow
  have hrng (r : Rng) : UnitWork s { s with rng := r } := ⟨rfl⟩
  refine .ite (fun _ => ?_) fun _ => .refl s
  extract_lets c healthy x d
  split
  · exact .ite (fun _ => (hrng _).trans (unitWork_setEvent ..)) fun _ => hrng _
  · exact hrng _
  · exact hrng _
  · exact hrng _
  · exact .refl s

theorem unitWork_sailFollow (p : Nat) (st : UState) : UnitWork s (sailFollow s p st) := by
  unfold sailFollow
  refine .ite (fun _ => ?_) fun _ => .refl s
  split <;> exact ⟨rfl⟩

theorem unitWork_coreFollow (p : Nat) (st : UState) : UnitWork s (coreFollow s p st) := by
  unfold coreFollow
  refine .ite (fun _ => ?_) fun _ => .refl s
  split <;> exact ⟨rfl⟩

theorem unitWork_onStarting (p : Nat) : UnitWork s (onStarting s p) := by
  unfold onStarting
  exact .ite (fun _ => ⟨rfl⟩) fun _ => .refl s

theorem unitWork_setUState (p : Nat) (st : UState) : UnitWork s (setUState s p st) := by
  by_cases h : (unitAt s p).state = st
  · rw [setUState_of_state_eq h]
    exact .refl s
  · rw [setUState_of_state_ne h]
    have hfollow : UnitWork s (coreFollow (sailFollow (drbgFollow s p st) p st) p st) :=
      ((unitWork_drbgFollow s p st).trans (unitWork_sailFollow ..)).trans (unitWork_coreFollow ..)
    exact ((hfollow.trans (unitWork_modUnit ..)).trans (unitWork_setEvent ..)).trans (unitWork_instFollow ..)

theorem unitWork_tryStart (p : Nat) : UnitWork s (tryStart s p) := by
  unfold tryStart
  exact .ite (fun _ => .ite (fun _ => (unitWork_setUState ..).trans (unitWork_onStarting ..)) fun _ => unitWork_modUnit ..)
    fun _ => .refl s

theorem unitWork_noteRingWait (i : Nat) : UnitWork s (noteRingWait s i) := by
  have hput (l : Log) : UnitWork s (putLog s i l) := ⟨rfl⟩
  unfold noteRingWait
  exact .ite (fun _ => (hput _).trans (unitWork_setEvent ..)) fun _ => hput _

theorem unitWork_noteRingWaits : UnitWork s (noteRingWaits s) := .foldl unitWork_noteRingWait _ s

end

/-! ### Functions (R856 to R858) -/

section
variable {s t : State} {n k : Nat} (hn : n < 2)
include hn

theorem exec_vfEnable_set (hoff : (portAtN s n).enabled = false) (hidle : (portAtN s n).resetting = []) (hk : k ≤ 1024) :
    exec (.vfEnableWrite n true k) s = .next (putPortN s n { portAtN s n with enabled := true, numVf := k }) := by
  change Host.Outcome.next (writeVfEnable s n true k) = _
  simp only [writeVfEnable, Nat.not_le.mpr hn, hoff, Nat.not_lt.mpr hk, hidle, Bool.false_eq_true, or_self, if_false, if_true,
    List.isEmpty_nil]

theorem exec_vfEnable_pends (hoff : (portAtN s n).enabled = false) (hbusy : (portAtN s n).resetting ≠ []) (hk : k ≤ 1024) :
    exec (.vfEnableWrite n true k) s = .next (putPortN s n { portAtN s n with pending := true, numVf := k }) := by
  have hempty : ¬(portAtN s n).resetting.isEmpty = true := fun h => hbusy (List.isEmpty_iff.mp h)
  change Host.Outcome.next (writeVfEnable s n true k) = _
  simp only [writeVfEnable, Nat.not_le.mpr hn, hoff, Nat.not_lt.mpr hk, hempty, Bool.false_eq_true, or_self, if_false, if_true]

theorem exec_vfEnable_dropped (h : (portAtN s n).enabled = true ∨ 1024 < k) : exec (.vfEnableWrite n true k) s = .next s := by
  change Host.Outcome.next (writeVfEnable s n true k) = _
  simp only [writeVfEnable, Nat.not_le.mpr hn, if_pos h, if_false, if_true]

theorem exec_vfEnable_cleared (hon : (portAtN s n).enabled = true) : exec (.vfEnableWrite n false k) s = .next (clearVfs s n) := by
  change Host.Outcome.next (writeVfEnable s n false k) = _
  simp only [writeVfEnable, Nat.not_le.mpr hn, hon, true_or, Bool.false_eq_true, if_false, if_true]

theorem exec_vfEnable_off (hoff : (portAtN s n).enabled = false) (hpend : (portAtN s n).pending = false) :
    exec (.vfEnableWrite n false k) s = .next s := by
  change Host.Outcome.next (writeVfEnable s n false k) = _
  simp only [writeVfEnable, Nat.not_le.mpr hn, hoff, hpend, Bool.false_eq_true, or_self, if_false]

end

section
variable {s t : State} {n k : Nat}

theorem vfResets_tables (hs : TablesCanonical s) (l : List Nat) : TablesCanonical (l.foldl vfReset s) :=
  (Evolves.foldl (.refl s) fun _ _ h => vfReset_ev h).tables hs

theorem portAtN_clearVfs (hs : TablesCanonical s) (n : Nat) :
    (portAtN (clearVfs s n) n).enabled = false ∧ (portAtN (clearVfs s n) n).numVf = 0 := by
  have hport := portAtN_putPortN (vfResets_tables hs (portInsts s n)) n
  exact ⟨congrArg Port.enabled (hport _), congrArg Port.numVf (hport _)⟩

theorem clearVfs_tables (hs : TablesCanonical s) (n : Nat) : TablesCanonical (clearVfs s n) := (clearVfs_ev (.refl s)).tables hs

theorem portAtN_configReset (hs : TablesCanonical s) (n : Nat) : portAtN (configReset s n) n =
    { portAtN (clearVfs s n) n with bme := false, ctoDisable := true } :=
  tget_tset_same (clearVfs_tables hs n).ports n _

/-! ### Resets and links of a port (R888, R889) -/

theorem portReset_port (hs : TablesCanonical s) (hn : n < 2) {cause : Nat} (hc : cause ≤ 2) :
    ∃ p, portAtN (portReset s n cause) n = { portAtN (configReset s n) n with
      up := false, l1 := false, speed := 0, width := 0, perst := p
      streams := [], sessions := [], spdmVersion := false, spdmCaps := false, spdmAlgs := false, transcript := [] } ∧
      (cause = 0 → p = true) := by
  have hconfig : TablesCanonical (configReset s n) := (configReset_ev (.refl s)).tables hs
  have hdrop : ¬(2 ≤ n ∨ 2 < cause) := by omega
  unfold portReset
  extract_lets was s1 p1 s2 s3 s4 s5
  have h3 : UnitWork s2 s3 := .ite (fun _ => unitWork_setEvent ..) fun _ => .refl s2
  have h4 : UnitWork s3 s4 := .ite (fun _ => unitWork_setEvent ..) fun _ => .refl s3
  have h5 : UnitWork s4 s5 := .ite (fun _ => (unitWork_setUState ..).trans (unitWork_tryStart ..)) fun _ => .refl s4
  rw [if_neg hdrop, (((h3.trans h4).trans h5).trans (unitWork_noteRingWaits s5)).portAtN]
  exact ⟨_, portAtN_putPortN hconfig n _, fun hcause => if_pos hcause⟩

theorem kindOf_portPage (hn : n < 2) : kindOf (portPage n) = 0x11 := by
  interval_cases n <;> rfl

theorem setUState_portPage (hn : n < 2) {st : UState} (h : (unitAt s (portPage n)).state ≠ st) :
    setUState s (portPage n) st = setEvent (modUnit s (portPage n) (restated st)) (portPage n) 0 := by
  have hkind := kindOf_portPage hn
  rw [setUState_of_state_ne h]
  simp only [drbgFollow, sailFollow, coreFollow, instFollow, hkind, Nat.reduceEqDiff, or_self, if_false]

theorem keepsUnits_noteRingWaits (s : State) : KeepsAllUnits s (noteRingWaits s) := by
  refine .foldl (fun s i _ => ?_) _
  have hput (l : Log) : KeepsAllUnits s (putLog s i l) := .of_units_eq (putLog_ev (.refl s)) rfl rfl
  unfold noteRingWait
  exact .ite (fun _ => (hput _).trans (keepsUnits_setEvent ..)) fun _ => hput _

theorem portInsts_of_im (h : t.im = s.im) (n : Nat) : portInsts t n = portInsts s n := by
  unfold portInsts createdInsts instAt
  rw [h]

theorem linkUp_starting (hs : TablesCanonical s) (hn : n < 2) {speed width : Nat} (hperst : (portAtN s n).perst = false)
    (hdown : (portAtN s n).up = false) (hlow : 1 ≤ speed) (hhigh : speed ≤ 5) (hwidth : width ∈ [1, 2, 4, 8, 16])
    (hstart : (unitAt s (portPage n)).state = .starting) (hquiesce : (unitAt s (portPage n)).quiesce = false)
    (hroot : (unitAt s 0).state ≠ .quiesced) (hinsts : portInsts s n = []) :
    ∃ t, exec (.linkUp n speed width) s = .next t ∧ (portAtN t n).up = true ∧ (portAtN t n).speed = speed ∧
      (portAtN t n).width = width ∧ (unitAt t (portPage n)).state = .running := by
  refine ⟨linkUp s n speed width, rfl, ?_⟩
  have hcontains : [1, 2, 4, 8, 16].contains width = true := List.contains_iff_mem.mpr hwidth
  unfold linkUp
  extract_lets p u s1 rootQuiet s2 s3
  have hdrop : ¬(2 ≤ n ∨ p.perst ∨ p.up ∨ speed = 0 ∨ 5 < speed ∨ !([1, 2, 4, 8, 16].contains width) ∨ u.state = .off ∨
      u.state = .stopping) := by
    have hp : p.perst = false := hperst
    have hup : p.up = false := hdown
    have hu : u.state = .starting := hstart
    rw [hcontains, hp, hup, hu]
    simp only [Bool.false_eq_true, Bool.not_true, reduceCtorEq, false_or, or_false]
    omega
  have hput : KeepsAllUnits s (putPortN s n { p with up := true, l1 := false, speed := speed, width := width }) :=
    keepsUnits_putPortN ..
  have h1 : KeepsAllUnits s s1 := hput.trans (keepsUnits_setEvent ..)
  have hrun : s2 = setUState s1 (portPage n) .running := by
    have hquiet : (u.quiesce || rootQuiet) = false := by
      rw [show u.quiesce = false from hquiesce, show rootQuiet = false from
        decide_eq_false (by rw [(h1.headers hs 0 id).state]; exact hroot)]
      rfl
    change (if u.state = .starting then setUState s1 (portPage n) (if u.quiesce || rootQuiet then .quiesced else .running) else s1) = _
    rw [if_pos (show u.state = .starting from hstart), hquiet]
    rfl
  have hstate1 : (unitAt s1 (portPage n)).state ≠ .running := by
    rw [(h1.headers hs _ id).state, hstart]
    decide
  have him : s2.im = s.im := by
    rw [hrun, setUState_portPage hn hstate1, setEvent_im, modUnit_im]
    exact setEvent_im ..
  have hno : portInsts s2 n = [] := (portInsts_of_im him n).trans hinsts
  have hs3 : s3 = s2 := by
    change (portInsts s2 n).foldl _ s2 = s2
    rw [hno]
    rfl
  have hport : portAtN (noteRingWaits s3) n = { p with up := true, l1 := false, speed := speed, width := width } := by
    rw [(unitWork_noteRingWaits s3).portAtN, hs3, hrun, (unitWork_setUState ..).portAtN,
      (unitWork_setEvent ..).portAtN]
    exact portAtN_putPortN hs n _
  have hunit : (unitAt (noteRingWaits s3) (portPage n)).state = .running := by
    have hs2 : TablesCanonical s2 := hrun ▸ (setUState_ev (.refl s1)).tables (h1.tables hs)
    rw [hs3, ((keepsUnits_noteRingWaits s2).headers hs2 _ id).state, hrun]
    exact (unitAt_setUState (h1.tables hs) hstate1).1.state
  rw [if_neg hdrop, hport]
  exact ⟨rfl, rfl, rfl, hunit⟩

theorem exec_linkUp_dropped {speed width : Nat} (h : (portAtN s n).perst = true ∨ (portAtN s n).up = true) :
    exec (.linkUp n speed width) s = .next s := by
  refine congrArg Host.Outcome.next (if_pos ?_)
  rcases h with h | h
  · exact .inr (.inl h)
  · exact .inr (.inr (.inl h))

/-! ### Reads, TLPs and streams (R863) -/

theorem exec_completionTimeout {m : Nat} {j : Job} (hjob : jobAt s m = some j) : exec (.completionTimeout m) s =
    .next (if (portAtN s (instAt s j.inst).port).ctoDisable then s else hostRead s m false []) := by
  change execCompletionTimeout m s = _
  simp only [execCompletionTimeout, hjob]

theorem hostRead_of_failed_head {m : Nat} {j : Job} (hjob : jobAt s m = some j) (hphase : ∃ k, j.phase = .readHead k) :
    hostRead s m false [] = failJob s m 0x1005 := by
  obtain ⟨k, hphase⟩ := hphase
  simp only [hostRead, hjob, hphase, Bool.not_false, if_true]

theorem exec_tlpReceive_discarded (hn : n < 2) {stream : Nat} (hreq : (portAtN s n).require = true)
    (hopen : 3 ≤ stream ∨ streamSecure (portAtN s n) stream = false) : exec (.tlpReceive n false stream) s =
      .next (putPortN s n { portAtN s n with plainDrops := min 65535 ((portAtN s n).plainDrops + 1) }) := by
  have hkept : ¬(2 ≤ n ∨ !(portAtN s n).require ∨ false = true ∨ (stream < 3 ∧ streamSecure (portAtN s n) stream)) := by
    rw [hreq]
    rintro (h | h | h | ⟨h, hsecure⟩)
    · omega
    · cases h
    · cases h
    · rcases hopen with hopen | hopen
      · omega
      · rw [hopen] at hsecure
        cases hsecure
  change Host.Outcome.next (tlpReceive s n false stream) = _
  simp only [tlpReceive, if_neg hkept, sat_eq_min]

theorem exec_tlpReceive_kept {stream : Nat} {exempt : Bool}
    (h : (portAtN s n).require = false ∨ exempt = true ∨ (stream < 3 ∧ streamSecure (portAtN s n) stream = true)) :
    exec (.tlpReceive n exempt stream) s = .next s := by
  refine congrArg Host.Outcome.next (if_pos ?_)
  rcases h with h | h | h
  · exact .inr (.inl (by rw [h]; rfl))
  · exact .inr (.inr (.inl h))
  · exact .inr (.inr (.inr h))

theorem exec_ideIntegrityFail (hn : n < 2) {stream : Nat} (hstream : stream < 3)
    (hsecure : streamSecure (portAtN s n) stream = true) : exec (.ideIntegrityFail n stream) s =
      .next (setEvent (putPortN s n { portAtN s n with
        streams := tset {} (portAtN s n).streams stream { streamAt (portAtN s n) stream with rx := none, tx := none } }) (1 + n) 19) := by
  have hkept : ¬(2 ≤ n ∨ 3 ≤ stream ∨ !streamSecure (portAtN s n) stream) := by
    rw [hsecure]
    rintro (h | h | h)
    · omega
    · omega
    · cases h
  exact congrArg Host.Outcome.next (if_neg hkept)

theorem exec_ideIntegrityFail_dropped {stream : Nat} (h : streamSecure (portAtN s n) stream = false) :
    exec (.ideIntegrityFail n stream) s = .next s :=
  congrArg Host.Outcome.next (if_pos (.inr (.inr (by rw [h]; rfl))))

end

/-- Settles O47: one lemma for each event of a port. -/
theorem hostPortEvents : Obligations.HostPortEvents := by
  intro n k s hlegal hn
  have hs := hlegal.tables
  have hport : ¬2 ≤ n := Nat.not_le.mpr hn
  refine ⟨exec_vfEnable_set hn, exec_vfEnable_pends hn, exec_vfEnable_dropped hn, fun hon => ?_, exec_vfEnable_off hn,
    ⟨congrArg Host.Outcome.next (if_neg hport), ?_, ?_⟩, fun cause hc => ?_,
    fun speed width hperst hdown hlow hhigh hwidth => linkUp_starting hs hn hperst hdown hlow hhigh hwidth,
    fun speed width => exec_linkUp_dropped,
    fun m j hjob hcto => ⟨?_, hostRead_of_failed_head hjob⟩, fun m j hjob hcto => ?_, fun stream => exec_tlpReceive_discarded hn,
    fun stream exempt => exec_tlpReceive_kept, fun stream => exec_ideIntegrityFail hn, fun stream => exec_ideIntegrityFail_dropped,
    fun on => congrArg Host.Outcome.next (if_neg hport), congrArg Host.Outcome.next (if_pos hn)⟩
  · obtain ⟨henabled, hnum⟩ := portAtN_clearVfs hs n
    exact ⟨_, exec_vfEnable_cleared hn hon, rfl, henabled, hnum⟩
  · rw [portAtN_configReset hs]
  · rw [portAtN_configReset hs]
    exact (portAtN_clearVfs hs n).1
  · obtain ⟨p, hreset, hperst⟩ := portReset_port hs hn hc
    refine ⟨_, rfl, ?_⟩
    rw [hreset, portAtN_configReset hs]
    exact ⟨rfl, rfl, rfl, rfl, rfl, rfl, hperst⟩
  · rw [exec_completionTimeout hjob, hcto]
    rfl
  · rw [exec_completionTimeout hjob, hcto]
    rfl

end Sys2Proof.Machine

/-! PROOF. SPDM and IDE_KM on a host port (R859 to R862, R873). -/

namespace Sys2Proof.Machine

/-! ### What a draw leaves as it was (R520, R527) -/

theorem unitWork_demandReseed (s : State) (d : Nat) : UnitWork s (demandReseed s d) := by
  unfold demandReseed
  extract_lets x
  refine .ite (fun _ => .refl s) fun _ => ?_
  unfold postSeed
  exact .ite (fun _ => ⟨rfl⟩) fun _ => ⟨rfl⟩

theorem unitWork_countCall (s : State) (d : Nat) : UnitWork s (countCall s d) := by
  unfold countCall
  extract_lets x k s1 s2 y s3 rs g s4
  have h1 : UnitWork s s1 := ⟨rfl⟩
  have h2 : UnitWork s1 s2 := .ite (fun _ => unitWork_demandReseed ..) fun _ => .refl s1
  have h4 : UnitWork s2 s4 := ⟨rfl⟩
  have h24 : UnitWork s s4 := (h1.trans h2).trans h4
  exact .ite (fun _ => .ite (fun _ => h24) fun _ => h24.trans (unitWork_setEvent ..)) fun _ => h1.trans h2

theorem keelDraw_lc (s : State) (k : Nat) : (keelDraw s k).2.lc = s.lc := (unitWork_countCall (freeBytes s k).2 keelDrbg).lc

theorem keelDraw_bridle (s : State) (k : Nat) : (keelDraw s k).2.bridle = s.bridle :=
  (unitWork_countCall (freeBytes s k).2 keelDrbg).bridle

section
variable {s t : State} {n id stream set : Nat} {b key : Bytes} {tx : Bool}

theorem not_true_of_false {x : Bool} (h : x = false) : (!x) = true := by rw [h]; rfl

/-- A mailbox that takes no data objects answers nothing (R873). -/
theorem exec_of_mailbox_shut (h : doeOpen s n = false) : ∀ c ∈ [Instr.getVersion n b, .getCapabilities n b,
    .negotiateAlgorithms n b, .getDigests n b, .getCertificate n b, .spdmChallenge n b, .getMeasurements n b, .keyExchange n b,
    .finish n b, .keyUpdate n id b, .endSession n id, .query n id stream, .keyProg n id stream set tx key,
    .kSetGo n id stream set tx, .kSetStop n id stream set tx], exec c s = .next s := by
  have hshut := not_true_of_false h
  simp only [List.forall_mem_cons, List.not_mem_nil, IsEmpty.forall_iff, implies_true, and_true]
  exact ⟨congrArg Host.Outcome.next (if_pos hshut), congrArg Host.Outcome.next (if_pos hshut),
    congrArg Host.Outcome.next (if_pos hshut), congrArg Host.Outcome.next (if_pos hshut), congrArg Host.Outcome.next (if_pos hshut),
    congrArg Host.Outcome.next (if_pos hshut), congrArg Host.Outcome.next (if_pos hshut), congrArg Host.Outcome.next (if_pos hshut),
    congrArg Host.Outcome.next (if_pos hshut), congrArg Host.Outcome.next (if_pos hshut), congrArg Host.Outcome.next (if_pos hshut),
    congrArg Host.Outcome.next (if_pos hshut), congrArg Host.Outcome.next (if_pos hshut), congrArg Host.Outcome.next (if_pos hshut),
    congrArg Host.Outcome.next (if_pos hshut)⟩

theorem sessionOf_none_steps (hopen : doeOpen s n = true) (h : sessionOf s n id = none) (content : Bytes)
    (f : IdeStream → IdeStream) : ideKm s n id stream content f = spdmFail s n spdmUnexpected := by
  simp only [ideKm, hopen, h, Bool.not_true, Bool.false_eq_true, if_false]

section
variable (hopen : doeOpen s n = true)
include hopen

/-! ### Version, capabilities, algorithms (R859) -/

theorem exec_getVersion : exec (.getVersion n b) s = .next (spdmAnswer (putPortN s n { portAtN s n with
    spdmVersion := true, spdmCaps := false, spdmAlgs := false, transcript := [] }) n b 0x04 [0x12#8]) := by
  change Host.Outcome.next (spdmVersion s n b) = _
  simp only [spdmVersion, hopen, Bool.not_true, Bool.false_eq_true, if_false]

theorem exec_getCapabilities (h : (portAtN s n).spdmVersion = true) : exec (.getCapabilities n b) s =
    .next (spdmAnswer (putPortN s n { portAtN s n with spdmCaps := true }) n b 0x61 [16#8]) := by
  change Host.Outcome.next (spdmCaps s n b) = _
  simp only [spdmCaps, hopen, h, Bool.not_true, Bool.false_eq_true, if_false]

theorem exec_negotiateAlgorithms (h : (portAtN s n).spdmCaps = true) : exec (.negotiateAlgorithms n b) s =
    .next (spdmAnswer (putPortN s n { portAtN s n with spdmAlgs := true }) n b 0x63
      (ascii "ECDSA-P384" ++ ascii "SHA-384" ++ ascii "secp384r1" ++ ascii "AES-256-GCM")) := by
  change Host.Outcome.next (spdmAlgs s n b) = _
  simp only [spdmAlgs, hopen, h, Bool.not_true, Bool.false_eq_true, if_false]

theorem exec_before_algorithms (h : spdmReady (portAtN s n) = false) : ∀ c ∈ [Instr.getDigests n b, .getCertificate n b,
    .spdmChallenge n b, .getMeasurements n b, .keyExchange n b], exec c s = .next (spdmFail s n 0x04) := by
  have hmail : ¬(!doeOpen s n) = true := by rw [hopen]; decide
  have hearly := not_true_of_false h
  simp only [List.forall_mem_cons, List.not_mem_nil, IsEmpty.forall_iff, implies_true, and_true]
  refine ⟨congrArg Host.Outcome.next ?_, congrArg Host.Outcome.next ?_, congrArg Host.Outcome.next ?_,
    congrArg Host.Outcome.next ?_, congrArg Host.Outcome.next ?_⟩ <;>
  exact (if_neg hmail).trans (if_pos hearly)

/-! ### Certificates, measurements, sessions (R859 to R861) -/

section
variable (hready : spdmReady (portAtN s n) = true)
include hready

theorem exec_getDigests : exec (.getDigests n b) s = .next (spdmAnswer s n b 0x01 (Config.out .sha384 [spdmChain s] 48)) := by
  change Host.Outcome.next (spdmDigests s n b) = _
  simp only [spdmDigests, hopen, hready, Bool.not_true, Bool.false_eq_true, if_false]

theorem exec_getCertificate (hslot : field b 2 1 = 0) : exec (.getCertificate n b) s = .next (spdmAnswer s n b 0x02
    (le 2 (((spdmChain s).drop (field b 4 2)).take (field b 6 2)).length ++
      le 2 ((spdmChain s).length - field b 4 2 - (((spdmChain s).drop (field b 4 2)).take (field b 6 2)).length) ++
      ((spdmChain s).drop (field b 4 2)).take (field b 6 2))) := by
  change Host.Outcome.next (spdmCertificate s n b) = _
  simp only [spdmCertificate, hopen, hready, hslot, Bool.not_true, Bool.false_eq_true, if_false, ne_eq, not_true_eq_false]

theorem exec_challenge_unusable (hkey : identityUsable s = false) : exec (.spdmChallenge n b) s = .next (spdmFail s n 0x05) := by
  change Host.Outcome.next (spdmChallenge s n b) = _
  simp only [spdmChallenge, hopen, hready, hkey, Bool.not_true, Bool.not_false, Bool.false_eq_true, if_false, if_true, spdmUnspecified]

theorem exec_keyExchange_unusable (hkey : identityUsable s = false) : exec (.keyExchange n b) s = .next (spdmFail s n 0x05) := by
  change Host.Outcome.next (spdmKeyExchange s n b) = _
  simp only [spdmKeyExchange, hopen, hready, hkey, Bool.not_true, Bool.not_false, Bool.false_eq_true, if_false, if_true,
    spdmUnspecified]

omit hopen hready in
theorem spdmAnswer_out (s : State) (n : Nat) (b content : Bytes) (code : Nat) :
    Output.spdm n ([0x12#8, BitVec.ofNat 8 code] ++ content) ∈ (spdmAnswer s n b code content).out :=
  List.mem_append_right _ (List.mem_singleton.mpr rfl)

omit hopen hready in
theorem out_length (p : Config.Prim) (args : List Bytes) (k : Nat) : (Config.out p args k).length = k :=
  (List.length_map _).trans List.length_range

omit hopen hready in
theorem spdmChain_keelDraw (s : State) (k : Nat) : spdmChain (keelDraw s k).2 = spdmChain s := by
  simp only [spdmChain, keelDraw_lc]

theorem exec_challenge (hkey : identityUsable s = true) : ∃ t nonce sig, exec (.spdmChallenge n b) s = .next t ∧
    nonce.length = 32 ∧ sig.length = 96 ∧
    Output.spdm n ([0x12#8, 3#8] ++ (Config.out .sha384 [spdmChain s] 48 ++ nonce ++ sig)) ∈ t.out := by
  refine ⟨spdmChallenge s n b, (keelDraw s 32).1, (spdmSign (keelDraw s 32).2 n b
    (Config.out .sha384 [spdmChain (keelDraw s 32).2] 48 ++ (keelDraw s 32).1)).1, rfl, keelDraw_length s 32, out_length .., ?_⟩
  simp only [spdmChallenge, hopen, hready, hkey, Bool.not_true, Bool.false_eq_true, if_false, spdmChain_keelDraw]
  exact spdmAnswer_out ..

theorem exec_measurements_count (hcount : field b 3 1 = 0) (hplain : bit (field b 2 1) 0 = false) :
    exec (.getMeasurements n b) s = .next (spdmAnswer s n b 0x60 [9#8]) := by
  change Host.Outcome.next (spdmMeasurements s n b) = _
  simp only [spdmMeasurements, hopen, hready, hcount, hplain, Bool.not_true, Bool.false_and, Bool.false_eq_true, if_false, if_true,
    Nat.not_lt_zero, false_and]

theorem exec_measurements_one (hlow : 1 ≤ field b 3 1) (hhigh : field b 3 1 ≤ 9) (hplain : bit (field b 2 1) 0 = false) :
    exec (.getMeasurements n b) s =
      .next (spdmAnswer s n b 0x60 (BitVec.ofNat 8 (field b 3 1) :: measurement s (field b 3 1))) := by
  have hone : ¬field b 3 1 = 0 := by omega
  have hall : ¬field b 3 1 = 255 := by omega
  change Host.Outcome.next (spdmMeasurements s n b) = _
  simp only [spdmMeasurements, hopen, hready, hplain, hone, hall, Nat.not_lt.mpr hhigh, Bool.not_true, Bool.false_and,
    Bool.false_eq_true, if_false, false_and]

omit hopen hready in
theorem sessions_spdmAnswer (hs : TablesCanonical s) (r content : Bytes) (code : Nat) :
    (portAtN (spdmAnswer s n r code content) n).sessions = (portAtN s n).sessions := by
  change (portAtN (putPortN s n _) n).sessions = _
  rw [portAtN_putPortN hs]

theorem spdmKeyExchange_eq (hs : TablesCanonical s) (hkey : identityUsable s = true) (hroom : (portAtN s n).sessions.length < 4) :
    ∃ u x content, TablesCanonical u ∧ x.established = false ∧ spdmKeyExchange s n b =
      spdmAnswer (putPortN u n { portAtN u n with sessions := (portAtN s n).sessions ++ [x] }) n b 0x64 content := by
  have hdraw : TablesCanonical (keelDraw s 48).2 := (keelDraw_ev (.refl s)).snd.tables hs
  simp only [spdmKeyExchange, hopen, hready, hkey, Nat.not_le.mpr hroom, Bool.not_true, Bool.false_eq_true, if_false]
  exact ⟨_, _, _, (spdmSign_ev (.refl _)).snd.tables hdraw, rfl, rfl⟩

theorem exec_keyExchange (hs : TablesCanonical s) (hkey : identityUsable s = true) (hroom : (portAtN s n).sessions.length < 4) :
    ∃ t x, exec (.keyExchange n b) s = .next t ∧ (portAtN t n).sessions = (portAtN s n).sessions ++ [x] ∧ x.established = false := by
  obtain ⟨u, x, content, hu, hnew, hdone⟩ := spdmKeyExchange_eq (b := b) hopen hready hs hkey hroom
  refine ⟨spdmKeyExchange s n b, x, rfl, ?_, hnew⟩
  rw [hdone, sessions_spdmAnswer ((putPortN_ev (.refl u)).tables hu), portAtN_putPortN hu]

theorem exec_keyExchange_full (hkey : identityUsable s = true) (hfull : 4 ≤ (portAtN s n).sessions.length) :
    exec (.keyExchange n b) s = .next (spdmFail s n 0x0A) := by
  change Host.Outcome.next (spdmKeyExchange s n b) = _
  simp only [spdmKeyExchange, hopen, hready, hkey, hfull, Bool.not_true, Bool.false_eq_true, if_false, if_true, spdmLimit]

end

theorem exec_finish {x : SpdmSession} (hx : (portAtN s n).sessions.find? (fun x => !x.established) = some x)
    (hcheck : Config.check .spdm [be 48 x.secret.toNat, (portAtN s n).transcript, b] = true) : exec (.finish n b) s =
      .next (spdmAnswer (putPortN s n { portAtN s n with
        sessions := (portAtN s n).sessions.map fun y => if y.id = x.id then { y with established := true } else y }) n b 0x65 []) := by
  change Host.Outcome.next (spdmFinish s n b) = _
  simp only [spdmFinish, hopen, hx, hcheck, Bool.not_true, Bool.false_eq_true, if_false, if_true]

/-! ### Within a session (R859, R862) -/

theorem exec_without_session (h : sessionOf s n id = none) : ∀ c ∈ [Instr.keyUpdate n id b, .endSession n id,
    .query n id stream, .keyProg n id stream set tx key, .kSetGo n id stream set tx, .kSetStop n id stream set tx],
    exec c s = .next (spdmFail s n 0x04) := by
  simp only [List.forall_mem_cons, List.not_mem_nil, IsEmpty.forall_iff, implies_true, and_true]
  refine ⟨congrArg Host.Outcome.next (a₁ := spdmKeyUpdate s n id b) ?_, congrArg Host.Outcome.next (a₁ := spdmEnd s n id) ?_,
    congrArg Host.Outcome.next (sessionOf_none_steps hopen h ..), congrArg Host.Outcome.next (sessionOf_none_steps hopen h ..),
    congrArg Host.Outcome.next (sessionOf_none_steps hopen h ..), congrArg Host.Outcome.next (sessionOf_none_steps hopen h ..)⟩
  · simp only [spdmKeyUpdate, hopen, h, Bool.not_true, Bool.false_eq_true, if_false, spdmUnexpected]
  · simp only [spdmEnd, hopen, h, Bool.not_true, Bool.false_eq_true, if_false, spdmUnexpected]

variable {x : SpdmSession} (hx : sessionOf s n id = some x)
include hx

theorem exec_keyUpdate_both (hop : field b 2 1 = 2) : exec (.keyUpdate n id b) s = .next (spdmAnswer (putPortN s n { portAtN s n with
    sessions := (portAtN s n).sessions.map fun z => if z.id = id then
      { x with updatesReq := x.updatesReq + 1, updatesRsp := x.updatesRsp + 1 } else z }) n b 0x69 (b.drop 2)) := by
  change Host.Outcome.next (spdmKeyUpdate s n id b) = _
  simp only [spdmKeyUpdate, hopen, hx, hop, or_true, Bool.not_true, Bool.false_eq_true, if_false, if_true]

theorem exec_endSession : exec (.endSession n id) s = .next (spdmAnswer (putPortN s n { portAtN s n with
    sessions := (portAtN s n).sessions.filter fun z => z.id ≠ id }) n [] 0x6C []) := by
  change Host.Outcome.next (spdmEnd s n id) = _
  simp only [spdmEnd, hopen, hx, Bool.not_true, Bool.false_eq_true, if_false]

theorem ideKm_of_session (content : Bytes) (f : IdeStream → IdeStream) :
    (stream < 3 → ideKm s n id stream content f = spdmAnswer (putPortN s n { portAtN s n with
      streams := tset {} (portAtN s n).streams stream (f (streamAt (portAtN s n) stream)) }) n [] 0x7E content) ∧
    (3 ≤ stream → ideKm s n id stream content f = spdmFail s n 0x01) := by
  refine ⟨fun h => ?_, fun h => ?_⟩
  · simp only [ideKm, hopen, hx, Nat.not_le.mpr h, Bool.not_true, Bool.false_eq_true, if_false]
  · simp only [ideKm, hopen, hx, h, Bool.not_true, Bool.false_eq_true, if_false, if_true, spdmInvalid]

theorem exec_ideKm {f : IdeStream → IdeStream} {c : Instr} (hc : exec c s = .next (ideKm s n id stream [BitVec.ofNat 8 stream] f)) :
    (stream < 3 → exec c s = .next (spdmAnswer (putPortN s n { portAtN s n with
      streams := tset {} (portAtN s n).streams stream (f (streamAt (portAtN s n) stream)) }) n [] 0x7E [BitVec.ofNat 8 stream])) ∧
    (3 ≤ stream → exec c s = .next (spdmFail s n 0x01)) := by
  obtain ⟨hlow, hhigh⟩ := ideKm_of_session (stream := stream) hopen hx [BitVec.ofNat 8 stream] f
  exact ⟨fun h => hc.trans (congrArg _ (hlow h)), fun h => hc.trans (congrArg _ (hhigh h))⟩

end

/-! ### Key sets (R862) -/

theorem exec_query (s : State) (n id stream : Nat) : exec (.query n id stream) s =
    .next (ideKm s n id stream [BitVec.ofNat 8 stream] fun y => y) := rfl

theorem exec_keyProg (s : State) (n id stream set : Nat) (tx : Bool) (key : Bytes) : exec (.keyProg n id stream set tx key) s =
    .next (ideKm s n id stream [BitVec.ofNat 8 stream] fun y =>
      { y with keys := tput y.keys (2 * (set % 2) + bitAt tx 0) (BitVec.ofNat 256 (unbe (pad 32 key))) }) := by
  change execKeyProg n id stream set tx key s = _
  simp only [execKeyProg, keySlot]

theorem exec_kSetGo (s : State) (n id stream set : Nat) (tx : Bool) : exec (.kSetGo n id stream set tx) s =
    .next (ideKm s n id stream [BitVec.ofNat 8 stream] (setGo set tx)) := rfl

theorem exec_kSetStop (s : State) (n id stream set : Nat) (tx : Bool) : exec (.kSetStop n id stream set tx) s =
    .next (ideKm s n id stream [BitVec.ofNat 8 stream] (setStop set tx)) := rfl

theorem setGo_of_programmed (y : IdeStream) (h : (tfind y.keys (2 * (set % 2))).isSome = true) :
    setGo set false y = { y with rx := some (set % 2) } :=
  if_neg (fun hnone => by rw [show keySlot set false = 2 * (set % 2) from rfl, Option.isNone_iff_eq_none] at hnone; rw [hnone] at h; cases h)

theorem setGo_of_empty (y : IdeStream) (h : tfind y.keys (2 * (set % 2)) = none) : setGo set false y = y :=
  if_pos (by rw [show keySlot set false = 2 * (set % 2) from rfl, h]; rfl)

theorem setStop_of_used (y : IdeStream) (h : y.rx = some (set % 2)) : setStop set false y = { y with rx := none } := if_pos h

end

/-- Settles O48: the mailbox, the order of a connection, the sessions and the key sets, each by its lemma. -/
theorem spdmAndIdeKeys : Obligations.SpdmAndIdeKeys := by
  intro n id stream set tx b key s hlegal
  refine ⟨exec_of_mailbox_shut, exec_getVersion, exec_getCapabilities, exec_negotiateAlgorithms, exec_before_algorithms,
    fun hopen hready => ⟨exec_getDigests hopen hready, ?_,
      fun hkey => ⟨exec_challenge_unusable hopen hready hkey, exec_keyExchange_unusable hopen hready hkey⟩,
      exec_challenge hopen hready, exec_measurements_count hopen hready, exec_measurements_one hopen hready,
      exec_keyExchange hopen hready hlegal.tables, exec_keyExchange_full hopen hready⟩,
    fun x hopen => exec_finish hopen, exec_without_session,
    fun x hopen hx => ⟨exec_keyUpdate_both hopen hx, exec_endSession hopen hx, ?_⟩, setGo_of_programmed, setGo_of_empty,
    setStop_of_used⟩
  · rintro hslot part rfl
    exact exec_getCertificate hopen hready hslot
  · intro f c hc
    simp only [List.mem_cons, Prod.mk.injEq, List.not_mem_nil, or_false] at hc
    rcases hc with ⟨rfl, rfl⟩ | ⟨rfl, rfl⟩ | ⟨rfl, rfl⟩ | ⟨rfl, rfl⟩
    · have hquery := exec_ideKm hopen hx (exec_query s n id stream)
      exact hquery
    · have hprog := exec_ideKm hopen hx (exec_keyProg s n id stream set tx key)
      exact hprog
    · have hgo := exec_ideKm hopen hx (exec_kSetGo s n id stream set tx)
      exact hgo
    · have hstop := exec_ideKm hopen hx (exec_kSetStop s n id stream set tx)
      exact hstop

end Sys2Proof.Machine


/-! PROOF. O49: the bridle lines (R692 to R702). A line's own fields are read and written by the rules of `lineAt` below; a change of
a line's unit leaves the lines alone (`UnitWork`). -/

namespace Sys2Proof.Machine

section
variable {s t : State} {m : Nat} {l : Line}

theorem lineAt_putLine (s : State) (m : Nat) {l : Line} (h : l ≠ {}) : lineAt (putLine s m l) m = l := tget_tset_new _ _ _ h _

theorem lineAt_putLine_ne (s : State) {m k : Nat} (l : Line) (h : k ≠ m) : lineAt (putLine s m l) k = lineAt s k :=
  tget_tset_ne _ _ _ _ h

theorem lineAt_modLine {f : Line → Line} (h : f (lineAt s m) ≠ {}) : lineAt (modLine s m f) m = f (lineAt s m) :=
  lineAt_putLine s m h

theorem lineAt_of_bridle (h : t.bridle = s.bridle) (k : Nat) : lineAt t k = lineAt s k := by
  rw [lineAt, lineAt, h]

theorem UnitWork.lineAt_same (h : UnitWork s t) (k : Nat) : lineAt t k = lineAt s k := lineAt_of_bridle h.bridle k

theorem Line.ne_default_of_lstate (h : l.lstate ≠ .down) : l ≠ {} := fun e => h (congrArg Line.lstate e)

/-- A line that is not UP and does not come UP, and whose peer set therefore stands, changes its state and its unit only. -/
theorem setLine_work {ls : LState} (hne : (lineAt s m).lstate ≠ ls) (hwas : (lineAt s m).lstate ≠ .up) (hup : ls ≠ .up) :
    UnitWork (modLine s m fun l => { l with lstate := ls }) (setLine s m ls) := by
  have hunit := unitWork_setUState (modLine s m fun l => { l with lstate := ls }) (linePage m) (lineUnitState ls)
  have hno : ¬ ((lineAt s m).lstate = .up ∨ ls = .up) := fun h => h.elim hwas hup
  unfold setLine
  extract_lets was t1 t2
  rw [if_neg hne, if_neg hno]
  refine hunit.trans ?_
  cases ls with
  | up => exact absurd rfl hup
  | down => exact unitWork_setEvent t1 _ _
  | mismatch => exact unitWork_setEvent t1 _ _
  | training => exact .refl t1
  | keying => exact .refl t1
  | retraining => exact .refl t1

theorem lineAt_setLine {ls : LState} (hne : (lineAt s m).lstate ≠ ls) (hwas : (lineAt s m).lstate ≠ .up) (hup : ls ≠ .up)
    (hnew : { lineAt s m with lstate := ls } ≠ ({} : Line)) : lineAt (setLine s m ls) m = { lineAt s m with lstate := ls } :=
  ((setLine_work hne hwas hup).lineAt_same m).trans (lineAt_putLine s m hnew)

theorem lineAt_setLine_ne {ls : LState} {k : Nat} (hne : (lineAt s m).lstate ≠ ls) (hwas : (lineAt s m).lstate ≠ .up) (hup : ls ≠ .up)
    (hk : k ≠ m) : lineAt (setLine s m ls) k = lineAt s k :=
  ((setLine_work hne hwas hup).lineAt_same k).trans (lineAt_putLine_ne s _ hk)

theorem startKeying_of_not_forms (h : forms s = false) : startKeying s m = s := by
  simp only [startKeying, h, Bool.not_false, if_true]

/-- A frame on a live line is numbered, kept for replay and put out. -/
theorem putFrame_of_live (h : (lineAt s m).lstate = .up ∨ (lineAt s m).lstate = .keying) (f : Frame) :
    (lineAt (putFrame s m f) m).replay = (lineAt s m).replay ++ [{ f with lseq := (lineAt s m).lseqOut }] ∧
    (lineAt (putFrame s m f) m).keyOut = (lineAt s m).keyOut ∧ (lineAt (putFrame s m f) m).keyIn = (lineAt s m).keyIn ∧
    Output.frame m { f with lseq := (lineAt s m).lseqOut } ∈ (putFrame s m f).out := by
  have hlive : decide ((lineAt s m).lstate = .up ∨ (lineAt s m).lstate = .keying) = true := decide_eq_true h
  have hdown : (lineAt s m).lstate ≠ .down := by rcases h with h | h <;> rw [h] <;> exact LState.noConfusion
  unfold putFrame
  extract_lets l f' n k live u
  have hu : lineAt u m = _ := lineAt_putLine s m (Line.ne_default_of_lstate hdown)
  rw [if_pos hlive]
  change (lineAt u m).replay = _ ∧ (lineAt u m).keyOut = _ ∧ (lineAt u m).keyIn = _ ∧ _
  rw [hu]
  exact ⟨rfl, rfl, rfl, List.mem_append_right _ List.mem_cons_self⟩

/-- Outside of a formation keying draws nothing. -/
theorem lineAt_rekeyLine (hforms : forms s = false) (h : (lineAt s m).lstate = .training) :
    lineAt (rekeyLine s m) m = { lineAt s m with lstate := .keying } := by
  have hne : (lineAt s m).lstate ≠ .keying := by rw [h]; exact LState.noConfusion
  have hwas : (lineAt s m).lstate ≠ .up := by rw [h]; exact LState.noConfusion
  have hkeep : forms (setLine s m .keying) = false := by
    rw [forms, (setLine_work hne hwas LState.noConfusion).bridle]
    exact hforms
  rw [rekeyLine, startKeying_of_not_forms hkeep]
  exact lineAt_setLine hne hwas LState.noConfusion (Line.ne_default_of_lstate LState.noConfusion)

section
variable {good : List Nat} (hen : lineEnabled s m = true) (htrain : (lineAt s m).lstate = .training)
include hen htrain

theorem training_gate : ¬ ((!lineEnabled s m) = true ∨ ¬ ((lineAt s m).lstate = .training ∨ (lineAt s m).lstate = .retraining)) := by
  rw [hen, htrain]
  decide

theorem trainingEnds_of_bad_config (h : lineConfigBad s m = true) : trainingEnds s m good = attemptFailed s m 1 :=
  (if_neg (training_gate hen htrain)).trans (if_pos h)

theorem trainingEnds_of_none (h : lineConfigBad s m = false) : trainingEnds s m [] = attemptFailed s m 2 := by
  refine (if_neg (training_gate hen htrain)).trans ((if_neg (by rw [h]; exact Bool.false_ne_true)).trans (if_pos ?_))
  rw [List.isEmpty_iff, List.filter_eq_nil_iff]
  simp only [List.contains_nil, Bool.and_false, Bool.false_and, Bool.or_self, Bool.false_eq_true, not_false_iff, implies_true]

end

/-- Every position trained: the line starts keying afresh with all of its positions (R693). -/
theorem trainingEnds_of_all_good {good : List Nat} (hen : lineEnabled s m = true) (htrain : (lineAt s m).lstate = .training)
    (hcfg : lineConfigBad s m = false) (hcount : 0 < (lineAt s m).count) (hforms : forms s = false)
    (hgood : ∀ p, p < (lineAt s m).count → p ∈ good ∧ s.bridle.lanesRetired.contains ((lineAt s m).first + p) = false) :
    ∃ d, lineAt (trainingEnds s m good) m = { lineAt s m with
      positions := List.range (lineAt s m).count, spareUsed := false, attempts := 0, cause := 0, delay := d, laneErrs := []
      lseqOut := 0, lseqIn := 0, replay := [], credit := [], tries := 0, naked := false, lstate := .keying } := by
  have hok : ∀ p ∈ List.range (lineAt s m).count,
      (good.contains p && !s.bridle.lanesRetired.contains ((lineAt s m).first + p)) = true := fun p hp => by
    obtain ⟨hin, hret⟩ := hgood p (List.mem_range.mp hp)
    rw [hret, List.contains_iff_mem.mpr hin]
    rfl
  have hretry : (lineAt s m).lstate ≠ .retraining := by rw [htrain]; exact LState.noConfusion
  unfold trainingEnds
  extract_lets l ok bad spare ps s1 s2
  have hbad : bad = [] := List.filter_eq_nil_iff.mpr fun p hp => by
    rw [show ok p = true from hok p hp]
    exact Bool.false_ne_true
  have hspare : spare = false := by
    change (_ && !bad.isEmpty) = false
    rw [hbad]
    exact Bool.and_false _
  have hps : ps = List.range l.count := List.filter_eq_self.mpr fun p hp => by
    rw [show ok p = true from hok p hp]
    rfl
  have hs2 : s2 = s := by
    have hs1 : s1 = s := by
      change bad.foldl _ s = s
      rw [hbad]
      rfl
    exact (if_neg (by rw [hspare]; exact Bool.false_ne_true)).trans hs1
  have hsome : ¬ ps.isEmpty = true := by
    rw [hps, List.isEmpty_iff, List.range_eq_nil]
    exact Nat.pos_iff_ne_zero.mp hcount
  rw [if_neg (training_gate hen htrain), if_neg (by rw [hcfg]; exact Bool.false_ne_true), if_neg hsome, hs2, hps, hspare]
  simp only [freeNat]
  rw [if_neg (show ¬ l.lstate = .retraining from hretry)]
  have htrained : ∀ {x : Line}, x.lstate = l.lstate → x ≠ {} := fun hx => Line.ne_default_of_lstate (by
    rw [hx, show l.lstate = .training from htrain]
    exact LState.noConfusion)
  refine ⟨Config.freeNat s.fresh % 2 ^ 16, (lineAt_rekeyLine ?_ ?_).trans ?_⟩
  · exact hforms
  · rw [lineAt_modLine, lineAt_modLine]
    · exact htrain
    · exact htrained rfl
    · rw [lineAt_modLine]
      · exact htrained rfl
      · exact htrained rfl
  · rw [lineAt_modLine, lineAt_modLine]
    · rfl
    · exact htrained rfl
    · rw [lineAt_modLine]
      · exact htrained rfl
      · exact htrained rfl

theorem noLaneLeft_modLine {f : Line → Line} (h : f (lineAt s m) ≠ {}) (hfirst : (f (lineAt s m)).first = (lineAt s m).first)
    (hcount : (f (lineAt s m)).count = (lineAt s m).count) (hspare : (f (lineAt s m)).spare = (lineAt s m).spare) :
    noLaneLeft (modLine s m f) m = noLaneLeft s m := by
  simp only [noLaneLeft, groupOf, lineAt_modLine h, hfirst, hcount, hspare]
  rfl

theorem attemptFailed_of_first (k : Nat) (htrain : (lineAt s m).lstate = .training) (htry : (lineAt s m).attempts < 2)
    (hlane : noLaneLeft s m = false) :
    lineAt (attemptFailed s m k) m = { lineAt s m with attempts := (lineAt s m).attempts + 1, cause := k, lstate := .down } := by
  have hnew : { lineAt s m with attempts := (lineAt s m).attempts + 1, cause := k } ≠ ({} : Line) := fun h =>
    absurd (congrArg Line.attempts h) (Nat.succ_ne_zero _)
  unfold attemptFailed
  extract_lets l u
  have hu : lineAt u m = _ := lineAt_modLine hnew
  have hleft : noLaneLeft u m = false := (noLaneLeft_modLine hnew rfl rfl rfl).trans hlane
  have hstays : ¬ (2 ≤ l.attempts ∨ noLaneLeft u m = true) := by
    rw [hleft]
    exact fun h => h.elim (Nat.not_le.mpr htry) Bool.false_ne_true
  have hstate : (lineAt u m).lstate = .training := by rw [hu]; exact htrain
  rw [if_neg hstays, if_pos htrain, lineAt_setLine, hu]
  · rw [hstate]; exact LState.noConfusion
  · rw [hstate]; exact LState.noConfusion
  · exact LState.noConfusion
  · rw [hu]
    exact fun h => absurd (congrArg Line.attempts h) (Nat.succ_ne_zero _)

theorem modLine_eq (f : Line → Line) : modLine s m f = putLine s m (f (lineAt s m)) := rfl

theorem lineLive_of (h : (lineAt s m).lstate = .up ∨ (lineAt s m).lstate = .keying) : lineLive s m = true := decide_eq_true h

theorem lineLive_not (hup : (lineAt s m).lstate ≠ .up) (hkey : (lineAt s m).lstate ≠ .keying) : lineLive s m = false :=
  decide_eq_false fun h => h.elim hup hkey

/-- Loss of lock on a lane of an enabled line, by the state of the line (R693, R694). -/
theorem lossOfLock_of_up {lane : Nat} (hen : lineEnabled s m = true) (hup : (lineAt s m).lstate = .up)
    {left : List Nat} (hleft : left = (lineAt s m).positions.filter fun p => decide ((lineAt s m).first + p ≠ lane)) :
    lossOfLock s m lane = if left = (lineAt s m).positions then s
      else if left.isEmpty then lineDown (putLine s m { lineAt s m with positions := left }) m
      else setLine (putLine s m { lineAt s m with positions := left }) m .retraining := by
  simp only [lossOfLock, hen, hup, ← hleft, Bool.not_true, Bool.false_eq_true, if_false, modLine]

/-- A SESSION_KEY message goes out on an UP line and is kept for replay. -/
theorem sendKey_of_up (hup : (lineAt s m).lstate = .up) : ∃ f : Frame, f.cls = 1 ∧ f.cdata = pad 40 [2#8] ∧ f.lseq = (lineAt s m).lseqOut ∧
    (lineAt (sendKey s m) m).replay = (lineAt s m).replay ++ [f] ∧ (lineAt (sendKey s m) m).keyOut = (lineAt s m).keyOut ∧
    (lineAt (sendKey s m) m).keyIn = (lineAt s m).keyIn ∧ Output.frame m f ∈ (sendKey s m).out :=
  ⟨_, rfl, rfl, rfl, putFrame_of_live (.inl hup) _⟩

theorem lseqRekey_of_due (hup : (lineAt s m).lstate = .up) (heph : (lineAt s m).ephemeral = 0)
    (hdue : 2 ^ 47 ≤ (lineAt s m).lseqOut ∨ 2 ^ 47 ≤ (lineAt s m).lseqIn) :
    lseqRekey s m = sendKey (modLine (keelDraw s 48).2 m fun l => { l with ephemeral := BitVec.ofNat 384 (unbe (keelDraw s 48).1) }) m := by
  have hgo : ¬ ((!lineUp s m) = true ∨ (lineAt s m).ephemeral ≠ 0 ∨ ((lineAt s m).lseqOut < 2 ^ 47 ∧ (lineAt s m).lseqIn < 2 ^ 47)) := by
    rw [show lineUp s m = true from decide_eq_true hup]
    rintro (h | h | ⟨ho, hi⟩)
    · exact Bool.false_ne_true h
    · exact h heph
    · exact hdue.elim (Nat.not_le.mpr ho) (Nat.not_le.mpr hi)
  exact if_neg hgo

theorem lineAt_modLine_keelDraw {x : BitVec 384} (hup : (lineAt s m).lstate = .up) :
    lineAt (modLine (keelDraw s 48).2 m fun l => { l with ephemeral := x }) m = { lineAt s m with ephemeral := x } := by
  have hline : lineAt (keelDraw s 48).2 m = lineAt s m := lineAt_of_bridle (keelDraw_bridle s 48) m
  rw [lineAt_modLine, hline]
  rw [hline]
  exact Line.ne_default_of_lstate (by rw [show (lineAt s m).lstate = .up from hup]; exact LState.noConfusion)

theorem lossOfLock_of_down {lane : Nat} (hen : lineEnabled s m = true) (hdown : (lineAt s m).lstate = .down) :
    lossOfLock s m lane = s := by
  simp only [lossOfLock, hen, hdown, Bool.not_true, Bool.false_eq_true, if_false]

theorem nakIn_of_front {q : Nat} {f : Frame} {rest : List Frame} (hup : (lineAt s m).lstate = .up) (hrun : s.power.state = .run)
    (hleft : (lineAt s m).replay.filter (fun f => decide (q ≤ f.lseq)) = f :: rest) (hfront : (lineAt s m).replay.head? = some f) :
    nakIn s m q =
      if 3 ≤ (lineAt s m).tries then
        let t := putLine s m { lineAt s m with replay := if needsCredit f then rest else f :: rest, tries := 0 }
        dropFrame (if lineUp t m then setLine t m .retraining else t) f
      else (f :: rest).foldl (fun s f => emit s (.frame m f)) (putLine s m { lineAt s m with
        replay := f :: rest, tries := (lineAt s m).tries + 1, replays := (lineAt s m).replays + w32 (f :: rest).length
        tx := ((lineAt s m).tx + ((f :: rest).map frameFlits).sum) % 2 ^ 64 }) := by
  have hidle : s.power.state ≠ .idle := by rw [hrun]; decide
  simp only [nakIn, lineLive_of (.inl hup), wakeIdle_of_not_idle hidle, hleft, hfront, List.head?_cons, Bool.not_true,
    Bool.false_eq_true, if_false, if_true, modLine]

theorem creditIn_of_nothing_waiting {cls vlane flits : Nat} (hlive : (lineAt s m).lstate = .up ∨ (lineAt s m).lstate = .keying)
    (hidle : s.power.state ≠ .idle) (hwait : (lineAt s m).waiting = []) : creditIn s m cls vlane flits = putLine s m { lineAt s m with
      credit := tset 0 (lineAt s m).credit (creditKey cls vlane) (tget 0 (lineAt s m).credit (creditKey cls vlane) + flits) } := by
  have hdown : (lineAt s m).lstate ≠ .down := by rcases hlive with h | h <;> rw [h] <;> exact LState.noConfusion
  unfold creditIn
  extract_lets k u
  rw [if_neg (by rw [lineLive_of hlive]; exact Bool.false_ne_true)]
  have hu : u = putLine s m { lineAt s m with
      credit := tset 0 (lineAt s m).credit k (tget 0 (lineAt s m).credit k + flits) } :=
    congrArg (modLine · m _) (wakeIdle_of_not_idle hidle)
  have hnone : (lineAt u m).waiting = [] := by
    rw [hu]
    refine (congrArg Line.waiting (lineAt_putLine s m (Line.ne_default_of_lstate ?_))).trans hwait
    exact hdown
  rw [hnone, ← hu]
  exact ite_self u

section
variable {f : Frame} (hup : (lineAt s m).lstate = .up) (hself : f.dst ≠ selfMember s) (hall : f.dst ≠ 0xFFFF)
include hup hself hall

theorem relay_gate : ¬ ((!lineUp s m) = true ∨ f.dst = selfMember s ∨ f.dst = 0xFFFF) := by
  rw [show lineUp s m = true from decide_eq_true hup]
  exact fun h => h.elim Bool.false_ne_true fun h => h.elim hself hall

theorem relay_of_route {r : Route} (hroom : f.vlane < 7) (hroute : routeTo s f.dst = some r) :
    relay s m f true = grant (sendOn (takeFrame s m (frameFlits f)) r.line { f with vlane := f.vlane + 1 }) m f := by
  rw [relay, if_neg (relay_gate hup hself hall)]
  simp only [hroom, hroute, decide_true, if_true]

theorem relay_of_no_route {ok : Bool} (h : routeTo s f.dst = none ∨ 7 ≤ f.vlane) :
    relay s m f ok = if ok then dropFrame (takeFrame s m (frameFlits f)) f else crcFailed (charge s (linePage m) 5) m := by
  have hnone : (if decide (f.vlane < 7) then routeTo s f.dst else none) = none := by
    rcases h with h | h
    · rw [h]
      exact ite_self none
    · exact if_neg (by rw [decide_eq_true_eq]; exact Nat.not_lt.mpr h)
  rw [relay, if_neg (relay_gate hup hself hall)]
  simp only [hnone]

end

end

/-- Settles O49: the lines by the case of each rule; what a line reads afterwards comes from the rules of `lineAt`. -/
theorem bridleLines : Obligations.BridleLines := by
  unfold Obligations.BridleLines
  rintro m l s rfl
  have hidle (hrun : s.power.state = .run) : s.power.state ≠ .idle := by rw [hrun]; decide
  refine ⟨fun hen hdown => ?_, fun h => ?_, fun good hen htrain hcfg hcount hforms hgood => ?_, fun good hen htrain hcfg => ?_,
    fun hen htrain hcfg => ?_, fun k htrain htry hlane => ?_, fun good h => ?_, ?_, ?_, fun h => ?_, fun q hlive hrun => ?_, ?_, ?_,
    fun q cls vlane flits hup hkey => ?_, ?_, ?_, fun f ok h => ?_⟩
  · have hne : (lineAt s m).lstate ≠ .training := by rw [hdown]; exact LState.noConfusion
    have hwas : (lineAt s m).lstate ≠ .up := by rw [hdown]; exact LState.noConfusion
    exact ⟨setLine s m .training, congrArg Host.Outcome.next (if_pos ⟨hen, hdown⟩),
      lineAt_setLine hne hwas LState.noConfusion (Line.ne_default_of_lstate LState.noConfusion),
      fun k hk => lineAt_setLine_ne hne hwas LState.noConfusion hk⟩
  · exact congrArg Host.Outcome.next (if_neg fun ⟨hen, hdown⟩ => h.elim (fun hoff => Bool.false_ne_true (hoff.symm.trans hen))
      fun hne => hne hdown)
  · obtain ⟨d, hd⟩ := trainingEnds_of_all_good hen htrain hcfg hcount hforms hgood
    refine ⟨trainingEnds s m good, rfl, ?_⟩
    rw [hd]
    exact ⟨rfl, rfl, rfl, rfl, rfl, rfl, rfl⟩
  · exact congrArg Host.Outcome.next (trainingEnds_of_bad_config hen htrain hcfg)
  · exact congrArg Host.Outcome.next (trainingEnds_of_none hen htrain hcfg)
  · rw [attemptFailed_of_first k htrain htry hlane]
    exact ⟨rfl, rfl, rfl⟩
  · refine congrArg Host.Outcome.next (if_pos ?_)
    rcases h with h | ⟨htrain, hretrain⟩
    · exact .inl (by rw [h]; rfl)
    · exact .inr fun h => h.elim htrain hretrain
  · intro lane left hleft hen
    refine ⟨fun hup hne hsome => ?_, fun hup hne hnone => ?_, fun hup heq => ?_, fun hdown => ?_⟩
    · refine congrArg Host.Outcome.next ((lossOfLock_of_up hen hup hleft).trans ?_)
      rw [if_neg hne, if_neg (by rwa [List.isEmpty_iff])]
    · refine congrArg Host.Outcome.next ((lossOfLock_of_up hen hup hleft).trans ?_)
      rw [if_neg hne, hnone]
      rfl
    · exact congrArg Host.Outcome.next ((lossOfLock_of_up hen hup hleft).trans (if_pos heq))
    · exact congrArg Host.Outcome.next (lossOfLock_of_down hen hdown)
  · intro hup heph hdue
    have hline := lineAt_modLine_keelDraw (x := BitVec.ofNat 384 (unbe (keelDraw s 48).1)) hup
    obtain ⟨f, hcls, hdata, hlseq, hreplay, hout, hin, hput⟩ := sendKey_of_up (show (lineAt _ m).lstate = .up by rw [hline]; exact hup)
    rw [hline] at hlseq hreplay hout hin
    exact ⟨_, f, congrArg Host.Outcome.next (lseqRekey_of_due hup heph hdue), hcls, hdata, hlseq, hreplay, hout, hin, hput⟩
  · refine congrArg Host.Outcome.next (if_pos ?_)
    rcases h with hup | hsmall
    · exact .inl (by rw [lineUp, decide_eq_false hup]; rfl)
    · exact .inr (.inr hsmall)
  · refine congrArg Host.Outcome.next ((if_neg ?_).trans (wakeIdle_of_not_idle (hidle hrun)))
    rw [lineLive_of hlive]
    exact Bool.false_ne_true
  · rintro q left f rest hup hrun hleft hcons hfront
    have hnak := nakIn_of_front hup hrun (hleft.symm.trans hcons) hfront
    refine ⟨fun htries => ?_, fun htries hstays => ?_⟩
    · rw [hcons]
      exact congrArg Host.Outcome.next (hnak.trans (if_neg (Nat.not_le.mpr htries)))
    · rw [hcons] at hstays ⊢
      refine congrArg Host.Outcome.next (hnak.trans ((if_pos htries).trans ?_))
      exact congrArg (dropFrame · f) (if_pos hstays)
  · rintro cls vlane flits hlive hrun hwait hflits
    exact congrArg Host.Outcome.next (creditIn_of_nothing_waiting hlive (hidle hrun) hwait)
  · have hno : lineLive s m = false := lineLive_not hup hkey
    exact ⟨congrArg Host.Outcome.next (if_pos (by rw [hno]; rfl)), congrArg Host.Outcome.next (if_pos (by rw [hno]; rfl)),
      congrArg Host.Outcome.next (if_pos (by rw [hno]; rfl))⟩
  · rintro f r hup hself hall hroom hroute
    exact congrArg Host.Outcome.next (relay_of_route hup hself hall hroom hroute)
  · rintro f hup hself hall hnone
    have hstop (ok : Bool) := relay_of_no_route (ok := ok) hup hself hall hnone
    exact ⟨congrArg Host.Outcome.next (hstop true), congrArg Host.Outcome.next (hstop false)⟩
  · refine congrArg Host.Outcome.next (if_pos ?_)
    rcases h with hup | hself
    · exact .inl (by rw [lineUp, decide_eq_false hup]; rfl)
    · exact .inr hself

end Sys2Proof.Machine


/-! PROOF. O51: the commands of BRL_FORM (R704, R705, R721, R722, R729). -/

namespace Sys2Proof.Machine

section
variable {s : State} {acc : Acc}

theorem forms_of_state (hf : s.bridle.state ≠ .forming) (hm : s.bridle.state ≠ .member) : forms s = false :=
  Bool.and_eq_false_imp.mpr fun _ => decide_eq_false fun h => h.elim hf hm

theorem forms_of_isolated (h : s.bridle.state = .isolated) : forms s = false :=
  forms_of_state (by rw [h]; exact FormState.noConfusion) (by rw [h]; exact FormState.noConfusion)

theorem forms_of_none (h : s.bridle.state = .none) : forms s = false :=
  forms_of_state (by rw [h]; exact FormState.noConfusion) (by rw [h]; exact FormState.noConfusion)

theorem formLoad_of_refused {data : Bytes} (h : recordCheck s (slice data 0 s.bridle.recLen.toNat) ≠ 0) :
    formLoad s true data = endForm s (recordCheck s (slice data 0 s.bridle.recLen.toNat)) := if_pos h

theorem formLoad_of_good {data : Bytes} (h : recordCheck s (slice data 0 s.bridle.recLen.toNat) = 0) :
    formLoad s true data = endForm (loadRecord s (slice data 0 s.bridle.recLen.toNat)) 0 := if_neg (not_not_intro h)

theorem formLeave_of_forms {clear : Bool} (h : forms s = true) : formLeave s clear =
    tryLeave (viewEvents s (modBridle s fun b => { b with state := .leaving, busy := true, clearing := clear })) := if_pos h

theorem formLeave_refused {clear : Bool} (hf : forms s = false) (h : ¬ (clear = true ∧ s.bridle.state = .isolated)) :
    formLeave s clear = endForm s 8 := by
  unfold formLeave
  rw [hf, if_neg Bool.false_ne_true, if_neg h]
  rfl

theorem formLeave_of_isolated (h : s.bridle.state = .isolated) : formLeave s true = endForm (dropRecord s) 0 := by
  unfold formLeave
  rw [forms_of_isolated h, if_neg Bool.false_ne_true, if_pos ⟨rfl, h⟩]
  rfl

/-- The commands that are carried out at once run on a page that is reached, and not while BUSY. -/
theorem exec_form (hreach : reaches s acc 0x020 = true) (hfree : s.bridle.busy = false) :
    exec (.formJoin acc) s = .next (formJoin s) ∧ exec (.formLeave acc) s = .next (formLeave s false) ∧
    exec (.formExpel acc) s = .next (formExpel s) ∧ exec (.formClear acc) s = .next (formLeave s true) := by
  have hrun (k : Nat) : (if reaches s acc brlPage then formCmd s k else s) = formCmd s k := if_pos hreach
  have hcmd (k : Nat) (t : State) : (if s.bridle.busy = true then s else t) = t := if_neg (by rw [hfree]; exact Bool.false_ne_true)
  exact ⟨congrArg Host.Outcome.next ((hrun 2).trans (hcmd 2 _)), congrArg Host.Outcome.next ((hrun 3).trans (hcmd 3 _)),
    congrArg Host.Outcome.next ((hrun 4).trans (hcmd 4 _)), congrArg Host.Outcome.next ((hrun 5).trans (hcmd 5 _))⟩

theorem exec_formLoad {ok : Bool} {data : Bytes} (hreach : reaches s acc 0x020 = true) (hfree : s.bridle.busy = false) :
    exec (.formLoad acc ok data) s = .next (formLoad (modBridle s fun b => { b with busy := true }) ok data) := by
  refine congrArg Host.Outcome.next ((if_neg ?_).trans ((if_neg ?_).trans ((if_neg ?_).trans (congrArg (formLoad · ok data) (if_neg ?_)))))
  · rw [show reaches s acc brlPage = true from hreach]; exact Bool.false_ne_true
  · rw [formLoadWaits, hfree]; exact Bool.false_ne_true
  · rw [hfree]; exact Bool.false_ne_true
  · rw [hfree]; exact Bool.false_ne_true

theorem exec_form_of_busy (h : s.bridle.busy = true) (k : Nat) : (if reaches s acc brlPage then formCmd s k else s) = s := by
  have hkeep : formCmd s k = s := if_pos h
  rw [hkeep]
  exact ite_self s

theorem exec_form_of_unreached (h : reaches s acc 0x020 = false) (k : Nat) : (if reaches s acc brlPage then formCmd s k else s) = s :=
  if_neg (by rw [show reaches s acc brlPage = false from h]; exact Bool.false_ne_true)

end

/-- Settles O51: each command by its case. -/
theorem formationCommands : Obligations.FormationCommands := by
  unfold Obligations.FormationCommands
  rintro acc data s u rfl
  refine ⟨fun hreach hfree => ?_, fun k => ?_, ?_, fun ok h => ?_⟩
  · obtain ⟨hjoin, hleave, hexpel, hclear⟩ := exec_form hreach hfree
    have hload (ok : Bool) := exec_formLoad (ok := ok) (data := data) hreach hfree
    refine ⟨hload false, ?_, fun h => ?_, fun hiso => ?_, fun h => ?_, fun hnone => ?_, fun h => ?_, fun h hroot => ?_, fun h => ?_⟩
    · rintro _ rfl hne
      rw [hload true, formLoad_of_refused hne]
      rfl
    · exact (hload true).trans (congrArg Host.Outcome.next (formLoad_of_good h))
    · refine ⟨hjoin.trans (congrArg Host.Outcome.next (if_neg (not_not_intro hiso))), ?_, ?_⟩
      · exact hclear.trans (congrArg Host.Outcome.next (formLeave_of_isolated hiso))
      · exact hleave.trans (congrArg Host.Outcome.next (formLeave_refused (forms_of_isolated hiso) fun h => Bool.false_ne_true h.1))
    · exact hjoin.trans (congrArg Host.Outcome.next (if_pos h))
    · have hno (clear : Bool) : ¬ (clear = true ∧ s.bridle.state = .isolated) := fun h =>
        FormState.noConfusion (hnone.symm.trans h.2)
      exact ⟨hclear.trans (congrArg Host.Outcome.next (formLeave_refused (forms_of_none hnone) (hno true))),
        hleave.trans (congrArg Host.Outcome.next (formLeave_refused (forms_of_none hnone) (hno false)))⟩
    · exact ⟨hleave.trans (congrArg Host.Outcome.next (formLeave_of_forms h)),
        hclear.trans (congrArg Host.Outcome.next (formLeave_of_forms h))⟩
    · refine hexpel.trans (congrArg Host.Outcome.next (if_neg ?_))
      rw [h]
      exact fun h => h.elim Bool.false_ne_true fun h => h hroot
    · refine hexpel.trans (congrArg Host.Outcome.next (if_pos ?_))
      exact h.imp (fun h => by rw [h]; rfl) id
  · have hwork := unitWork_setEvent (modBridle s fun b => { b with busy := false, result := k }) brlPage 22
    have hjobs := congrArg State.jobs hwork.frame
    exact ⟨hwork.bridle, hjobs⟩
  · simp only [List.forall_mem_cons, List.not_mem_nil, IsEmpty.forall_iff, implies_true, and_true]
    refine ⟨⟨fun h => ?_, fun h => ?_⟩, ⟨fun h => ?_, fun h => ?_⟩, ⟨fun h => ?_, fun h => ?_⟩, fun h => ?_, fun h => ?_⟩
    · exact congrArg Host.Outcome.next (exec_form_of_busy h 2)
    · exact congrArg Host.Outcome.next (exec_form_of_unreached h 2)
    · exact congrArg Host.Outcome.next (exec_form_of_busy h 3)
    · exact congrArg Host.Outcome.next (exec_form_of_unreached h 3)
    · exact congrArg Host.Outcome.next (exec_form_of_busy h 4)
    · exact congrArg Host.Outcome.next (exec_form_of_unreached h 4)
    · exact congrArg Host.Outcome.next (exec_form_of_busy h 5)
    · exact congrArg Host.Outcome.next (exec_form_of_unreached h 5)
  · exact congrArg Host.Outcome.next (if_pos (by rw [show reaches s acc brlPage = false from h]; rfl))

end Sys2Proof.Machine


/-! PROOF. O50: the FORMATION messages (R706 to R715, R721, R722, R361, R653). A line that carries a message takes its frame
(`takeFrame`, the state `u` below) and then does what its rule says; one section for each message. -/

namespace Sys2Proof.Machine

section
variable {s u : State} {m n g : Nat}

theorem true_not_false {x : Bool} (h : x = true) : ¬ (!x) = true := by rw [h]; exact Bool.false_ne_true

/-! HELLO (R706). -/

section
variable {cert dg nonce : Bytes} {sys ser pl : Nat} (hu : u = takeFrame s m 2) (hlive : lineLive s m = true)
include hu hlive

theorem hello_of_not_forms (hf : forms u = false) : hello s m cert sys ser dg pl nonce = u := by
  subst hu
  exact (if_neg (true_not_false hlive)).trans (if_pos (not_true_of_false hf))

variable (hup : lineUp u m = false) (hf : forms u = true)
include hup hf

theorem hello_of_bad_cert (hcert : Config.check .x509 [cert] = false) : hello s m cert sys ser dg pl nonce = lineMismatch u m 3 := by
  simp only [hello, ← hu, hlive, hup, hf, hcert, Bool.not_true, Bool.not_false, Bool.false_eq_true, if_false, if_true]

variable (hcert : Config.check .x509 [cert] = true)
include hcert

theorem hello_of_newer (hsys : sys = recSystem (heldRecord u)) (hser : recSerial (heldRecord u) < ser) :
    hello s m cert sys ser dg pl nonce = putFrame u m (formation 3 [] []) := by
  simp only [hello, ← hu, hlive, hup, hf, hcert, hsys, hser, decide_true, and_self, Bool.not_true, Bool.false_eq_true, if_false, if_true]

theorem hello_of_unlisted (hsys : sys ≠ recSystem (heldRecord u))
    (hidx : recIndexOf (heldRecord u) (Config.out .deviceFp [cert] 24) = none) :
    hello s m cert sys ser dg pl nonce = lineMismatch u m 4 := by
  simp only [hello, ← hu, hlive, hup, hf, hcert, hsys, hidx, decide_false, false_and, Bool.not_true, Bool.false_eq_true, if_false]

theorem hello_of_same {k : Nat} (hsys : sys = recSystem (heldRecord u)) (hser : ser = recSerial (heldRecord u)) (hdg : dg = recordDigest u)
    (hidx : recIndexOf (heldRecord u) (Config.out .deviceFp [cert] 24) = some k)
    (hlink : linkListed (heldRecord u) (selfMember u) m k pl = true) : hello s m cert sys ser dg pl nonce =
      sendKey (modLine u m fun l => { l with
        peer := some k, peerHello := pad 32 nonce ++ (lineAt u m).nonce ++ cert ++ dg ++ le 8 sys ++ le 8 ser }) m := by
  have hsame : ¬ ((!decide (sys = recSystem (heldRecord u))) = true ∨ (ser = recSerial (heldRecord u) ∧ dg ≠ recordDigest u)) := by
    rintro (h | ⟨-, h⟩)
    · exact true_not_false (decide_eq_true hsys) h
    · exact h hdg
  have hlt : ¬ recSerial (heldRecord u) < ser := fun h => Nat.lt_irrefl _ (hser ▸ h)
  have hgt : ¬ ser < recSerial (heldRecord u) := fun h => Nat.lt_irrefl _ (hser ▸ h)
  simp only [hello, ← hu, hlive, hup, hf, hcert, hidx, hlink, if_neg hsame, hlt, hgt, and_false, Bool.not_true, Bool.false_eq_true, if_false]

end

/-! RECORD (R708), LINK_STATE (R709), ROOT (R711). -/

section
variable {data : Bytes} (hu : u = takeFrame s m (2 + (data.length + 63) / 64)) (hlive : lineLive s m = true) (hf : forms u = true)
include hu hlive hf

theorem recordMessage_of_request (hd : data = []) : recordMessage s m data = putFrame u m (formation 3 [] [heldRecord u]) := by
  simp only [recordMessage, ← hu, hlive, hf, if_pos hd, Bool.not_true, Bool.false_eq_true, if_false]

theorem recordMessage_of_newer (hd : data ≠ []) (hsys : recSystem data = recSystem (heldRecord u))
    (hser : recSerial (heldRecord u) < recSerial data) (hok : recordCheck u data = 0) :
    recordMessage s m data = reformAll (adoptRecord u data) := by
  simp only [recordMessage, ← hu, hlive, hf, if_neg hd, if_pos (And.intro hsys (And.intro hser hok)), Bool.not_true, Bool.false_eq_true, if_false]

theorem recordMessage_of_bad (hd : data ≠ []) (hbad : recordCheck u data ≠ 0) : recordMessage s m data = u := by
  simp only [recordMessage, ← hu, hlive, hf, if_neg hd, hbad, and_false, Bool.not_true, Bool.false_eq_true, if_false]

end

section
variable {ver : Nat} {lines peers : List Nat} (hu : u = takeFrame s m 2) (hup : lineUp s m = true)
include hu hup

theorem linkState_of_new (hf : forms u = true) (hn : n ≠ selfMember u) (h : tfind u.bridle.links n = none) :
    linkState s m n ver lines peers = settle s (flood (modBridle u fun b => { b with
        links := tput b.links n { version := ver, links := lines.zip peers, seen := b.version }
        left := b.left.filter (· ≠ n), expelled := b.expelled.filter (· ≠ n) }) (some m)
        { formation 4 ([n, ver] ++ (lines.zip peers).flatMap fun e => [e.1, e.2]) [] with src := n }) := by
  simp only [linkState, ← hu, hup, hf, hn, h, or_self, Bool.not_true, Bool.false_eq_true, if_false]

theorem linkState_of_old {x : LinkState} (h : tfind u.bridle.links n = some x) (hver : ver ≤ x.version) :
    linkState s m n ver lines peers = u := by
  simp only [linkState, ← hu, hup, h, decide_eq_false (Nat.not_lt.mpr hver), or_true, Bool.not_true, Bool.not_false, Bool.false_eq_true,
        if_false, if_true]

end

section
variable (hu : u = takeFrame s m 3) (hup : lineUp s m = true)
include hu hup

theorem rootMessage_of_agreed (hf : forms u = true) (hoff : rootInOffice u g ≠ some n) (hag : agreesRoot u m g n = true) :
    rootMessage s m g n = if n = selfMember u then (if u.bridle.noOffice then u else settle s (takeOffice u g))
      else settle s (flood (setRoot u g n) (some m) (formation 5 [g, n] [])) := by
  simp only [rootMessage, ← hu, hup, hf, hoff, hag, or_self, Bool.not_true, Bool.false_eq_true, if_false]

theorem rootMessage_of_not_agreed (h : rootInOffice u g = some n ∨ agreesRoot u m g n = false) : rootMessage s m g n = u := by
  subst hu
  exact (if_neg (true_not_false hup)).trans (if_pos (.inr (h.imp_right not_true_of_false)))

theorem leaveMessage_of_forms (hf : forms u = true) (hn : n ≠ selfMember u) (hl : u.bridle.left.contains n = false) :
    leaveMessage s m n =
      settle s (modBridle (flood u (some m) { formation 13 [n] [] with src := n }) fun b => { b with left := b.left ++ [n] }) := by
  simp only [leaveMessage, ← hu, hup, hf, hn, hl, or_self, Bool.not_true, Bool.false_eq_true, if_false]

theorem expelMessage_of_forms (hf : forms u = true) (hl : u.bridle.expelled.contains n = false) :
    expelMessage s m n = expelMember s (flood u (some m) (formation 14 [n] [])) n := by
  simp only [expelMessage, ← hu, hup, hf, hl, or_self, Bool.not_true, Bool.false_eq_true, if_false]

theorem messages_of_not_forms (hf : forms u = false) : leaveMessage s m n = u ∧ expelMessage s m n = u := by
  subst hu
  exact ⟨(if_neg (true_not_false hup)).trans (if_pos (.inl (not_true_of_false hf))),
    (if_neg (true_not_false hup)).trans (if_pos (.inl (not_true_of_false hf)))⟩

end

/-! KEY (R706). -/

section
variable {ecdh kem ct e p : Bytes} {k : Nat} (hu : u = takeFrame s m 2) (hlive : lineLive s m = true) (hpeer : (lineAt s m).peer = some k)
  (hf : forms u = true) (hhello : (lineAt s m).peerHello ≠ [])
include hu hlive hpeer hf hhello

theorem keyMessage_of_bad_sign
    (hsign : Config.check .sign [[2#8], (lineAt s m).peerHello, e, (lineAt s m).peerHello ++ ecdh ++ kem] = false) :
    keyMessage s m ecdh kem ct e p = lineMismatch u m 7 := by
  simp only [keyMessage, ← hu, hlive, hpeer, hf, hhello, hsign, Bool.not_true, Bool.not_false, Bool.false_eq_true, true_or, or_self, if_false,
    if_true]

/-- A KEY whose signatures hold leaves both link keys on the line and no ephemeral secret; a line in KEYING then comes UP. -/
theorem keyMessage_of_signed
    (hec : Config.check .sign [[2#8], (lineAt s m).peerHello, e, (lineAt s m).peerHello ++ ecdh ++ kem] = true)
    (hpq : Config.check .sign [[0x0A#8], (lineAt s m).peerHello, p, (lineAt s m).peerHello ++ ecdh ++ kem] = true) :
    ∃ t o i, keyMessage s m ecdh kem ct e p =
      let v := modLine t m fun l => { l with keyOut := some o, keyIn := some i, ephemeral := 0 }
      if (lineAt s m).lstate = .keying then
        let w := setLine (greetPeer (modBridle v fun b => { b with
          left := b.left.filter (· ≠ k), expelled := b.expelled.filter (· ≠ k) }) m) m .up
        drainWaiting w m (lineAt w m).waiting.length
      else v := by
  simp only [keyMessage, ← hu, hlive, hpeer, hf, hhello, hec, hpq, Bool.not_true, Bool.false_eq_true, or_self, if_false]
  exact ⟨_, _, _, rfl⟩

end

/-! COSIGN_REQ, COSIGN (R712), CERT (R713), SIGN_REQ (R715). -/

section
variable {ec pq : Bytes} {pos sys ser : Nat} (hu : u = takeFrame s m 46) (hup : lineUp s m = true)
include hu hup

theorem cosignReq_of_listed (hf : forms u = true) (hg : g < (recCounts (heldRecord u)).1) : ∃ sig : Bytes, sig.length = 96 ∧
    cosignReq s m n g (recSystem (heldRecord u)) (recSerial (heldRecord u)) (recordDigest u) ec pq pos =
      sendTo { passKeel u 1 with fresh := (passKeel u 1).fresh + 1 } n (formation 7 [selfMember u, g] [sig]) := by
  have hself : selfMember { passKeel u 1 with fresh := (passKeel u 1).fresh + 1 } = selfMember u := rfl
  simp only [cosignReq, ← hu, hup, hf, Nat.not_le.mpr hg, identitySig, freeBytes, ne_eq, not_true_eq_false, or_self, Bool.not_true,
    Bool.false_eq_true, if_false, hself]
  exact ⟨_, out_length .., rfl⟩

theorem cosignReq_of_other_serial {dg : Bytes} (hser : ser ≠ recSerial (heldRecord u)) :
    cosignReq s m n g sys ser dg ec pq pos = u := by
  subst hu
  exact (if_neg (true_not_false hup)).trans (if_pos (.inr (.inr (.inl hser))))

end

section
variable {sig : Bytes} {k : GKey} (hu : u = takeFrame s m 4) (hup : lineUp s m = true) (hk : tfind u.bridle.keys g = some k)
include hu hup hk

theorem cosign_of_good (hsign : Config.check .sign [[2#8], recFp (heldRecord u) n, sig, k.statement] = true)
    (hfirst : ∀ c ∈ k.cosigns, c.1 ≠ n) (hin : n ∈ devicesIn (heldRecord u) g) :
    cosign s m n g sig = settle s (tryIssue (modBridle u fun b => { b with
      keys := tput b.keys g { k with cosigns := k.cosigns ++ [(n, sig)] } }) g) := by
  have hnew : k.cosigns.any (fun c => decide (c.1 = n)) = false :=
    List.any_eq_false.mpr fun c hc => by rw [decide_eq_true_eq]; exact hfirst c hc
  simp only [cosign, ← hu, hup, hk, hsign, hnew, List.contains_iff_mem.mpr hin, or_self, Bool.not_true, Bool.false_eq_true, if_false]

theorem cosign_of_bad (hsign : Config.check .sign [[2#8], recFp (heldRecord u) n, sig, k.statement] = false) :
    cosign s m n g sig = u := by
  simp only [cosign, ← hu, hup, hk, hsign, true_or, Bool.not_true, Bool.not_false, Bool.false_eq_true, if_false, if_true]

end

section
variable {pos : Nat} {pub data : Bytes} {co : List Nat} (hu : u = takeFrame s m (2 + (data.length + 63) / 64)) (hup : lineUp s m = true)
include hu hup

theorem certMessage_of_good {c : GCert} (hc : c = { pos := pos, root := n, pub := pub, cosigners := co }) (hf : forms u = true)
    (hnew : tfind u.bridle.certs g ≠ some c) (hroot : rootInOffice u g = some n) (hcert : Config.check .x509 [data] = true)
    (hquorum : cosignQuorum u g co = true) :
    certMessage s m g pos n pub co data = settle s (flood (certInForce u g c) (some m) (certFrame g c)) := by
  simp only [certMessage, ← hu, ← hc, hup, hf, hnew, hroot, hcert, hquorum, decide_false, ne_eq, not_true_eq_false, or_self, Bool.not_true,
    Bool.false_eq_true, if_false]

theorem certMessage_of_bad
    (h : rootInOffice u g ≠ some n ∨ Config.check .x509 [data] = false ∨ cosignQuorum u g co = false) :
    certMessage s m g pos n pub co data = u := by
  subst hu
  exact (if_neg (true_not_false hup)).trans (if_pos (.inr (.inr (h.imp_right fun h => h.imp not_true_of_false not_true_of_false))))

end

theorem signReq_of_key {msg : Bytes} {k : GKey} (hu : u = takeFrame s m (2 + (msg.length + 63) / 64)) (hup : lineUp s m = true)
    (hk : tfind u.bridle.keys g = some k) : ∃ a b : Bytes, a.length = 96 ∧ b.length = 4627 ∧ signReq s m n g msg =
      sendTo { passKeel u 2 with fresh := (passKeel u 2).fresh + 1 } n (formation 12 [selfMember u] [a, b]) := by
  have hself : selfMember { passKeel u 2 with fresh := (passKeel u 2).fresh + 1 } = selfMember u := rfl
  simp only [signReq, ← hu, hup, hk, freeBytes, Bool.not_true, Bool.false_eq_true, if_false, hself]
  exact ⟨_, _, out_length .., out_length .., rfl⟩

/-! KBPK (R361), SPAN (R653). -/

section
variable {i k gen pos : Nat} {kcv key : Bytes} (hu : u = takeFrame s m 4) (hup : lineUp s m = true)
include hu hup

theorem kbpkMessage_of_not_held (h : ∀ h ∈ u.bridle.spanHeld, h.inst = i → h.home ≠ n) :
    kbpkMessage s m n 0 i k gen pos kcv key = u ∧ kbpkMessage s m n 4 i k gen pos kcv key = u := by
  have hheld : u.bridle.spanHeld.any (fun h => decide (h.inst = i ∧ h.home = n)) = false :=
    List.any_eq_false.mpr fun x hx => by rw [decide_eq_true_eq]; exact fun ⟨hi, hn⟩ => h x hx hi hn
  constructor
  · simp only [kbpkMessage, ← hu, hup, hheld, true_or, Bool.not_true, Bool.not_false, Bool.false_eq_true, if_false, if_true]
  · simp only [kbpkMessage, ← hu, hup, hheld, true_or, Bool.not_true, Bool.not_false, Bool.false_eq_true, if_false, if_true]

variable {h : SpanHeld} (hmem : h ∈ u.bridle.spanHeld) (hinst : h.inst = i) (hhome : h.home = n)
include hmem hinst hhome

theorem kbpkMessage_of_activate (hstaged : (slotAt u k).state = .staged) (hslot : (slotAt u k).inst = i) :
    kbpkMessage s m n 2 i k gen pos kcv key = armActivate u k i pos := by
  have hheld : u.bridle.spanHeld.any (fun h => decide (h.inst = i ∧ h.home = n)) = true :=
    List.any_eq_true.mpr ⟨h, hmem, decide_eq_true ⟨hinst, hhome⟩⟩
  simp only [kbpkMessage, ← hu, hup, hheld, hstaged, hslot, and_self, Bool.not_true, Bool.false_eq_true, if_false, if_true]

theorem kbpkMessage_of_bad_kcv (hrip : u.kh.ripcorded = false) (hempty : (slotAt u k).state = .empty)
    (hkcv : kbpkKcv (BitVec.ofNat 256 (unbe (pad 32 key))) ≠ kcv) : kbpkMessage s m n 0 i k gen pos kcv key =
      failSlot (putSlot u k { state := .collecting, gen := gen, inst := i, kcv := kcv }) k i 5 := by
  have hheld : u.bridle.spanHeld.any (fun h => decide (h.inst = i ∧ h.home = n)) = true :=
    List.any_eq_true.mpr ⟨h, hmem, decide_eq_true ⟨hinst, hhome⟩⟩
  simp only [kbpkMessage, ← hu, hup, hheld, hrip, hempty, if_pos hkcv, ne_eq, not_true_eq_false, or_self, Bool.not_true, Bool.false_eq_true,
    if_false]

end

section
variable {i kc ballast ov : Nat} {mc : Bytes} (hu : u = takeFrame s m 3) (hup : lineUp s m = true)
include hu hup

theorem spanMessage_of_room (hnone : ∀ h ∈ u.bridle.spanHeld, h.inst ≠ i) (hfree : (instAt u i).created = false)
    (hroom : kcShared u none + kc ≤ 262144) : spanMessage s m n 0 i kc ballast ov mc =
      sendSpan (modBridle u fun b => { b with
        spanHeld := b.spanHeld ++ [{ inst := i, home := n, kc := kc, ballast := ballast, overlap := ov, mc := mc }] }) i 1 n {} := by
  have hothers : u.bridle.spanHeld.filter (fun h => !decide (h.inst = i ∧ h.home = n)) = u.bridle.spanHeld :=
    List.filter_eq_self.mpr fun h hh => not_true_of_false (decide_eq_false fun e => hnone h hh e.1)
  have htaken : u.bridle.spanHeld.any (fun h => decide (h.inst = i)) = false :=
    List.any_eq_false.mpr fun h hh => by rw [decide_eq_true_eq]; exact hnone h hh
  simp only [spanMessage, ← hu, hup, hothers, hfree, htaken, Nat.not_lt.mpr hroom, Bool.or_self, or_self, Bool.not_true, Bool.false_eq_true,
    if_false]
  rfl

theorem spanMessage_of_no_room (h : (instAt u i).created = true ∨ 262144 < kcShared u none + kc) :
    spanMessage s m n 0 i kc ballast ov mc = sendSpan u i 2 n {} := by
  subst hu
  refine (if_neg (true_not_false hup)).trans (if_pos (h.imp_left fun h => ?_))
  rw [h]
  rfl

end

end

/-- A line that does not carry a message drops it. -/
theorem exec_of_line_not_live {s : State} {m : Nat} (h : lineLive s m = false) (cert : Bytes) (sys ser : Nat) (dg : Bytes) (pl : Nat)
    (nonce a b c d e data : Bytes) : exec (.hello m cert sys ser dg pl nonce) s = .next s ∧ exec (.key m a b c d e) s = .next s ∧
    exec (.record m data) s = .next s :=
  ⟨congrArg Host.Outcome.next (if_pos (not_true_of_false h)), congrArg Host.Outcome.next (if_pos (not_true_of_false h)),
    congrArg Host.Outcome.next (if_pos (not_true_of_false h))⟩

theorem exec_of_line_not_up {s : State} {m n g : Nat} (h : lineUp s m = false) : ∀ c ∈ [Instr.linkState m n g [] [], .root m g n,
    .cosign m n g [], .cert m g 0 n [] [] [], .signReq m n g [], .signed m n [] [], .leave m n, .expel m n], exec c s = .next s := by
  have hno := not_true_of_false h
  simp only [List.forall_mem_cons, List.not_mem_nil, IsEmpty.forall_iff, implies_true, and_true]
  exact ⟨congrArg Host.Outcome.next (if_pos hno), congrArg Host.Outcome.next (if_pos hno), congrArg Host.Outcome.next (if_pos hno),
    congrArg Host.Outcome.next (if_pos hno), congrArg Host.Outcome.next (if_pos hno),
    congrArg Host.Outcome.next (if_neg (by rw [h]; exact Bool.false_ne_true)), congrArg Host.Outcome.next (if_pos hno),
    congrArg Host.Outcome.next (if_pos hno)⟩

/-- KEY with good signatures: the line's keys, by the line's state. -/
theorem exec_key_of_signed {s u : State} {m k : Nat} {ecdh kem ct e p : Bytes} (hu : u = takeFrame s m 2) (hlive : lineLive s m = true)
    (hpeer : (lineAt s m).peer = some k) (hf : forms u = true) (hhello : (lineAt s m).peerHello ≠ [])
    (hec : Config.check .sign [[2#8], (lineAt s m).peerHello, e, (lineAt s m).peerHello ++ ecdh ++ kem] = true)
    (hpq : Config.check .sign [[0x0A#8], (lineAt s m).peerHello, p, (lineAt s m).peerHello ++ ecdh ++ kem] = true) :
    ((lineAt s m).lstate = .up → ∃ t, exec (.key m ecdh kem ct e p) s = .next t ∧ (lineAt t m).keyOut.isSome = true ∧
      (lineAt t m).keyIn.isSome = true ∧ (lineAt t m).ephemeral = 0) ∧
    ((lineAt s m).lstate = .keying → ∃ v w, w = setLine (greetPeer v m) m .up ∧
      exec (.key m ecdh kem ct e p) s = .next (drainWaiting w m (lineAt w m).waiting.length) ∧
      (lineAt v m).keyOut.isSome = true ∧ (lineAt v m).keyIn.isSome = true) := by
  obtain ⟨t, o, i, hkey⟩ := keyMessage_of_signed (ct := ct) hu hlive hpeer hf hhello hec hpq
  have hline : lineAt (modLine t m fun l => { l with keyOut := some o, keyIn := some i, ephemeral := 0 }) m = _ :=
    lineAt_modLine fun h => Option.some_ne_none o (congrArg Line.keyOut h)
  refine ⟨fun hup => ⟨_, congrArg Host.Outcome.next (hkey.trans (if_neg ?_)), ?_⟩,
    fun hkeying => ⟨_, _, rfl, congrArg Host.Outcome.next (hkey.trans (if_pos hkeying)), ?_⟩⟩
  · rw [hup]
    exact LState.noConfusion
  · rw [hline]
    exact ⟨rfl, rfl, rfl⟩
  · have hout := congrArg (fun l : Line => l.keyOut.isSome) hline
    have hin := congrArg (fun l : Line => l.keyIn.isSome) hline
    exact ⟨hout, hin⟩

/-- Settles O50: each message by the checks of its rule. -/
theorem formationMessages : Obligations.FormationMessages := by
  unfold Obligations.FormationMessages
  intro m n g s
  refine ⟨exec_of_line_not_live, exec_of_line_not_up, ?_, ?_, ?_, ?_, ?_, ?_, ?_, ?_, ?_, ?_, ?_, ?_, fun _ _ hup => ?_, ?_⟩
  · rintro cert sys ser dg pl nonce u r hu rfl hlive hup
    exact ⟨fun hf => congrArg Host.Outcome.next (hello_of_not_forms hu hlive hf),
      fun hf hcert => congrArg Host.Outcome.next (hello_of_bad_cert hu hlive hup hf hcert),
      fun hf hcert hsys hser => congrArg Host.Outcome.next (hello_of_newer hu hlive hup hf hcert hsys hser),
      fun hf hcert hsys hidx => congrArg Host.Outcome.next (hello_of_unlisted hu hlive hup hf hcert hsys hidx),
      fun k hf hcert hsys hser hdg hidx hlink =>
        congrArg Host.Outcome.next (hello_of_same hu hlive hup hf hcert hsys hser hdg hidx hlink)⟩
  · rintro ecdh kem ct e p k u hu hlive hpeer hf hhello
    exact ⟨fun hsign => congrArg Host.Outcome.next (keyMessage_of_bad_sign hu hlive hpeer hf hhello hsign),
      exec_key_of_signed hu hlive hpeer hf hhello⟩
  · rintro data u hu hlive hf
    refine ⟨fun hd => congrArg Host.Outcome.next (recordMessage_of_request hu hlive hf hd),
      fun hd hsys hser hok => congrArg Host.Outcome.next (recordMessage_of_newer hu hlive hf hd hsys hser hok),
      fun hd hbad => congrArg Host.Outcome.next (recordMessage_of_bad hu hlive hf hd hbad)⟩
  · rintro ver lines peers u hu hup hf hn
    exact ⟨fun h => congrArg Host.Outcome.next (linkState_of_new hu hup hf hn h),
      fun x h hver => congrArg Host.Outcome.next (linkState_of_old hu hup h hver)⟩
  · rintro u hu hup hf
    refine ⟨fun hoff hag hn => ?_, fun hoff hag hn hno => ?_,
      fun h => congrArg Host.Outcome.next (rootMessage_of_not_agreed hu hup h)⟩
    · exact congrArg Host.Outcome.next ((rootMessage_of_agreed hu hup hf hoff hag).trans (if_neg hn))
    · refine congrArg Host.Outcome.next ((rootMessage_of_agreed hu hup hf hoff hag).trans ((if_pos hn).trans (if_neg ?_)))
      rw [hno]
      exact Bool.false_ne_true
  · rintro ser ec pq pos u r hu rfl hup hf
    refine ⟨?_, fun hser => congrArg Host.Outcome.next (cosignReq_of_other_serial hu hup hser)⟩
    rintro rfl hg
    obtain ⟨sig, hlen, hreq⟩ := cosignReq_of_listed (n := n) (ec := ec) (pq := pq) (pos := pos) hu hup hf hg
    exact ⟨sig, hlen, congrArg Host.Outcome.next hreq⟩
  · rintro sig k u hu hup hk
    exact ⟨fun hsign hfirst hin => congrArg Host.Outcome.next (cosign_of_good hu hup hk hsign hfirst hin),
      fun hsign => congrArg Host.Outcome.next (cosign_of_bad hu hup hk hsign)⟩
  · rintro pos pub co data u c hu hup hc hf hnew
    exact ⟨fun hroot hcert hquorum => congrArg Host.Outcome.next (certMessage_of_good hu hup hc hf hnew hroot hcert hquorum),
      fun h => congrArg Host.Outcome.next (certMessage_of_bad hu hup h)⟩
  · rintro i k gen pos kcv key u hu hup h
    obtain ⟨hstage, hchange⟩ := kbpkMessage_of_not_held (k := k) (gen := gen) (pos := pos) (kcv := kcv) (key := key) hu hup h
    exact ⟨congrArg (fun t => Host.Outcome.next (pumpRequests t)) hstage, congrArg (fun t => Host.Outcome.next (pumpRequests t)) hchange⟩
  · rintro i k gen pos kcv key u h hu hup hmem hinst hhome
    exact ⟨fun hstaged hslot => congrArg (fun t => Host.Outcome.next (pumpRequests t))
        (kbpkMessage_of_activate hu hup hmem hinst hhome hstaged hslot),
      fun hrip hempty hkcv => congrArg (fun t => Host.Outcome.next (pumpRequests t))
        (kbpkMessage_of_bad_kcv hu hup hmem hinst hhome hrip hempty hkcv)⟩
  · rintro i kc ballast ov mc u hu hup
    exact ⟨fun hnone hfree hroom => congrArg (fun t => Host.Outcome.next (pumpRequests t)) (spanMessage_of_room hu hup hnone hfree hroom),
      fun h => congrArg (fun t => Host.Outcome.next (pumpRequests t)) (spanMessage_of_no_room hu hup h)⟩
  · rintro msg k u hu hup hk
    obtain ⟨a, b, ha, hb, hreq⟩ := signReq_of_key (n := n) hu hup hk
    exact ⟨a, b, ha, hb, congrArg Host.Outcome.next hreq⟩
  · exact congrArg Host.Outcome.next (if_pos hup)
  · rintro u hu hup
    refine ⟨fun hf hn hl => congrArg Host.Outcome.next (leaveMessage_of_forms hu hup hf hn hl),
      fun hf hl => congrArg Host.Outcome.next (expelMessage_of_forms hu hup hf hl), fun hf => ?_⟩
    obtain ⟨hleave, hexpel⟩ := messages_of_not_forms (n := n) hu hup hf
    exact ⟨congrArg Host.Outcome.next hleave, congrArg Host.Outcome.next hexpel⟩

end Sys2Proof.Machine


/-! PROOF. O53: the tamper unit and the mooring domain (R734 to R757, R870). -/

namespace Sys2Proof.Machine

section
variable {s t : State} {acc : Acc} {src machine unit : Nat} {v : Word32}

theorem UnitWork.tamper (h : UnitWork s t) : t.tamper = s.tamper := by rw [h.frame]

theorem UnitWork.mooring (h : UnitWork s t) : t.mooring = s.mooring := by rw [h.frame]

theorem UnitWork.otp (h : UnitWork s t) : t.otp = s.otp := by rw [h.frame]

theorem UnitWork.jobs (h : UnitWork s t) : t.jobs = s.jobs := by rw [h.frame]

theorem UnitWork.pending (h : UnitWork s t) : t.pending = s.pending := by rw [h.frame]

/-! A source fires on main power (R734, R736, R741). -/

theorem tamperFire_of_source (hvin : vinPresent s = true) (hsrc : src < 42) (hfsm : src ≠ 38) :
    tamperFire s src machine unit = if (fireCore s src).2 then deviceReset (fireCore s src).1 3 else (fireCore s src).1 := by
  refine (if_neg ?_).trans (if_neg hfsm)
  rw [hvin]
  exact fun h => h.elim Bool.false_ne_true (Nat.not_le.mpr hsrc)

theorem tamperFire_of_no_source (h : vinPresent s = false ∨ 42 ≤ src) : tamperFire s src machine unit = s :=
  if_pos (h.imp_left not_true_of_false)

theorem fireCore_of_ignored (h : srcDisabled s src = true ∨ (s.tamper.testBusy = true ∧ s.tamper.testSrc = src ∧ 2 ≤ src)) :
    fireCore s src = (putSrc s src { srcAt s src with count := 0, asserted := decide ((srcRow src).top ≠ 0) }, false) :=
  if_pos (.inr h)

theorem fireCore_of_watched (hsrc : src < 42) (hon : srcDisabled s src = false) (htest : s.tamper.testBusy = false) :
    fireCore s src = fireWith (putSrc s src { srcAt s src with count := 0, asserted := decide ((srcRow src).top ≠ 0) }) src
      (srcAt s src).response := by
  refine if_neg ?_
  rintro (h | h | ⟨h, -⟩)
  · exact absurd hsrc (Nat.not_lt.mpr h)
  · exact Bool.false_ne_true (hon.symm.trans h)
  · exact Bool.false_ne_true (htest.symm.trans h)

/-- A firing of response 0 in an open episode raises nothing: it is noted and logged. -/
theorem fireWith_of_quiet (hopen : s.mooring.epOpen = true) : ∃ k, fireWith s src 0 =
    (mainLog { s with tamper := { s.tamper with fired := s.tamper.fired ||| BitVec.ofNat 42 (2 ^ src) } } src k, false) := by
  have hep : episodeFire s.mooring 0 = (s.mooring, false, false, some s.mooring.epRung) := by
    simp only [episodeFire, hopen, Bool.not_true, Bool.false_eq_true, if_false, Nat.not_lt_zero]
  simp only [fireWith, hep, evidenceEvent, mainLog, show ¬ 3 ≤ 0 from by decide, show ¬ 1 ≤ 0 from by decide,
    Bool.false_eq_true, if_false, if_true, Bool.false_and]
  exact ⟨_, rfl⟩

theorem fireCore_of_quiet (hsrc : src < 42) (hon : srcDisabled s src = false) (htest : s.tamper.testBusy = false)
    (hresp : (srcAt s src).response = 0) (hopen : s.mooring.epOpen = true) :
    ∃ x : Tamper, fireCore s src = ({ s with tamper := x }, false) ∧ x.fired = s.tamper.fired ||| BitVec.ofNat 42 (2 ^ src) ∧
      x.logCount = s.tamper.logCount + 1 := by
  obtain ⟨k, hquiet⟩ := fireWith_of_quiet (src := src)
    (s := putSrc s src { srcAt s src with count := 0, asserted := decide ((srcRow src).top ≠ 0) }) hopen
  rw [fireCore_of_watched hsrc hon htest, hresp, hquiet]
  exact ⟨_, rfl, rfl, rfl⟩

/-! TMP_FIRED (R742). -/

theorem getLsbD_foldl_clear (l : List Nat) (f : BitVec 42) {n : Nat} (hn : n < 42) :
    (l.foldl (fun f k => f &&& ~~~ BitVec.ofNat 42 (2 ^ k)) f).getLsbD n = (f.getLsbD n && !l.contains n) := by
  induction l generalizing f with
  | nil => exact (Bool.and_true _).symm
  | cons k l ih =>
    rw [List.foldl_cons, ih, BitVec.getLsbD_and, BitVec.getLsbD_not, BitVec.getLsbD_ofNat, Nat.testBit_two_pow, List.contains_cons]
    simp only [hn, decide_true, Bool.true_and, Bool.and_assoc, Bool.not_or]
    rw [show decide (k = n) = (n == k) from by rw [beq_eq_decide]; exact decide_eq_decide.mpr eq_comm]

theorem unitWork_closeEpisode (s : State) : ∃ x, UnitWork { s with mooring := x } (closeEpisode s) := by
  unfold closeEpisode
  extract_lets live
  split
  · exact ⟨_, unitWork_setEvent _ _ _⟩
  · exact ⟨s.mooring, .refl s⟩

theorem writeFired_fields (s : State) (hi : Bool) (mask : Word32) {n : Nat} (hn : n < 42) :
    (writeFired s hi mask).tamper.fired.getLsbD n = (s.tamper.fired.getLsbD n && !((if hi then decide (32 ≤ n) && mask.getLsbD (n - 32)
      else decide (n < 32) && mask.getLsbD n) && !(srcAt s n).asserted)) := by
  unfold writeFired
  extract_lets bitsOf f
  have hbits : bitsOf.contains n = ((if hi then decide (32 ≤ n) && mask.getLsbD (n - 32)
      else decide (n < 32) && mask.getLsbD n) && !(srcAt s n).asserted) := by
    rw [Bool.eq_iff_iff, List.contains_iff_mem, List.mem_filter, List.mem_range]
    exact and_iff_right hn
  obtain ⟨x, hwork⟩ := unitWork_closeEpisode { s with tamper := { s.tamper with fired := f } }
  rw [hwork.tamper, ← hbits]
  exact getLsbD_foldl_clear bitsOf _ hn

theorem writeFired_keeps (s : State) (hi : Bool) (mask : Word32) :
    (writeFired s hi mask).jobs = s.jobs ∧ (writeFired s hi mask).otp = s.otp := by
  unfold writeFired
  extract_lets bitsOf f
  obtain ⟨x, hwork⟩ := unitWork_closeEpisode { s with tamper := { s.tamper with fired := f } }
  exact ⟨hwork.jobs, hwork.otp⟩

/-! The evidence thermometer, self-tests and fuses (R736, R746, R748). -/

theorem burnEvidence_of_due (hvin : vinPresent s = true) (hdue : evidenceCount s.otp < s.mooring.evidTarget) :
    burnEvidence s =
      otpBurned { s with otp := { s.otp with evidence := s.otp.evidence ||| BitVec.ofNat 1024 (2 ^ evidenceCount s.otp) } } := by
  refine if_neg ?_
  rw [hvin]
  exact fun h => h.elim Bool.false_ne_true (Nat.not_le.mpr hdue)

theorem writeTest_of_start (hbusy : s.tamper.testBusy = false) (hgo : v.getLsbD 6 = true) (hsrc : v.toNat % 64 < 42)
    (hon : srcDisabled s (v.toNat % 64) = false) :
    writeTest s v = { s with tamper := { s.tamper with testSrc := v.toNat % 64, testBusy := true, testResult := 0 } } := by
  simp only [writeTest, hbusy, hgo, hon, Nat.not_le.mpr hsrc, Bool.not_true, Bool.false_eq_true, or_self, if_false]

theorem writeTest_of_busy (hbusy : s.tamper.testBusy = true) (hgo : v.getLsbD 6 = true) :
    writeTest s v = { s with tamper := { s.tamper with testResult := 3 } } := by
  simp only [writeTest, hbusy, hgo, if_true]

theorem testDone_fields (pass : Bool) (h : s.tamper.testBusy = true) : (testDone s pass).tamper.testBusy = false ∧
    (testDone s pass).tamper.testResult = (if pass then 1 else 2) ∧ (testDone s pass).tamper.fired = s.tamper.fired ∧
    (testDone s pass).jobs = s.jobs := by
  unfold testDone
  extract_lets t x s1 s2 y s3 z
  have h1 : s2.tamper.fired = s.tamper.fired ∧ s2.jobs = s.jobs := by
    change (if pass then (if 3 ≤ x.response then _ else s1) else s).tamper.fired = _ ∧
      (if pass then (if 3 ≤ x.response then _ else s1) else s).jobs = _
    split
    · split
      · exact ⟨rfl, rfl⟩
      · exact ⟨rfl, rfl⟩
    · exact ⟨rfl, rfl⟩
  have h3 : s3.tamper.fired = s2.tamper.fired ∧ s3.jobs = s2.jobs := by
    change (if 2 ≤ t.testSrc then _ else s2).tamper.fired = _ ∧ (if 2 ≤ t.testSrc then _ else s2).jobs = _
    split
    · exact ⟨rfl, rfl⟩
    · exact ⟨rfl, rfl⟩
  rw [if_neg (true_not_false h)]
  have hwork := unitWork_setEvent { s3 with tamper := { s3.tamper with testBusy := false, testResult := if pass then 1 else 2 } } tamperPage 19
  rw [hwork.tamper, hwork.jobs]
  exact ⟨rfl, rfl, h3.1.trans h1.1, h3.2.trans h1.2⟩

/-- A disabled source is not asserted: the fuses themselves stand. -/
theorem foldl_disable_keeps (l : List Nat) (s : State) :
    (l.foldl (fun s n => if srcDisabled s n then putSrc s n { srcAt s n with count := 0, asserted := false } else s) s).otp = s.otp ∧
    (l.foldl (fun s n => if srcDisabled s n then putSrc s n { srcAt s n with count := 0, asserted := false } else s) s).jobs = s.jobs := by
  induction l generalizing s with
  | nil => exact ⟨rfl, rfl⟩
  | cons n l ih =>
    obtain ⟨hotp, hjobs⟩ := ih (if srcDisabled s n then putSrc s n { srcAt s n with count := 0, asserted := false } else s)
    exact ⟨hotp.trans (by split <;> rfl), hjobs.trans (by split <;> rfl)⟩

theorem burnFuse_of_key (hkey : v.toNat / 2 ^ 24 = 0xF5) (hlc : lifecycle s < 2) (hlock : (unitAt s 0x004).lock = false) :
    (burnFuse s v).otp = { s.otp with fuse := s.otp.fuse ||| BitVec.ofNat 20 v.toNat } ∧ (burnFuse s v).jobs = s.jobs := by
  by_cases hsame : s.otp.fuse ||| BitVec.ofNat 20 v.toNat = s.otp.fuse
  · have hkeep : burnFuse s v = s := if_pos (.inr (.inr (.inr hsame)))
    rw [hkeep, hsame]
    exact ⟨rfl, rfl⟩
  · have hgo : ¬ (v.toNat / 2 ^ 24 ≠ 0xF5 ∨ 2 ≤ lifecycle s ∨ (unitAt s tamperPage).lock = true ∨
        s.otp.fuse ||| BitVec.ofNat 20 v.toNat = s.otp.fuse) := by
      rintro (h | h | h | h)
      · exact h hkey
      · exact absurd hlc (Nat.not_lt.mpr h)
      · exact Bool.false_ne_true (hlock.symm.trans h)
      · exact hsame h
    have hburn := unitWork_setEvent { s with otp := { s.otp with fuse := s.otp.fuse ||| BitVec.ofNat 20 v.toNat } } 0x00B 16
    unfold burnFuse
    extract_lets mask o s1
    rw [if_neg hgo]
    obtain ⟨hotp, hjobs⟩ := foldl_disable_keeps (List.range 42) s1
    exact ⟨hotp.trans hburn.otp, hjobs.trans hburn.jobs⟩

theorem burnFuse_of_barred (h : v.toNat / 2 ^ 24 ≠ 0xF5 ∨ 2 ≤ lifecycle s ∨ (unitAt s 0x004).lock = true) : burnFuse s v = s :=
  if_pos (h.imp_right fun h => h.imp_right .inl)

/-! TMP_SRC_CFG (R739). -/

section
variable (hsrc : src < 42) (hon : srcDisabled s src = false) (hr : bits v.toNat 0 3 < 6)
include hsrc hon

theorem writeSrcCfg_gate : ¬ (42 ≤ src ∨ srcDisabled s src = true) := by
  rw [hon]
  exact fun h => h.elim (Nat.not_le.mpr hsrc) Bool.false_ne_true

include hr

theorem writeSrcCfg_of_unlocked (hlock : (unitAt s 0x004).lock = false)
    (hfloor : lifecycle s ≠ 2 ∨ (srcRow src).floor ≤ bits v.toNat 0 3) (hf : 1 ≤ bits v.toNat 8 8) (htop : bits v.toNat 8 8 ≤ (srcRow src).top) :
    writeSrcCfg s src v = putSrcCfg s src { srcAt s src with response := bits v.toNat 0 3, filter := bits v.toNat 8 8 } := by
  have hbad : (decide (lifecycle s = 2) && decide (bits v.toNat 0 3 < (srcRow src).floor)) = false :=
    Bool.and_eq_false_iff.mpr (hfloor.imp decide_eq_false fun h => decide_eq_false (Nat.not_lt.mpr h))
  have hresp : (if decide (bits v.toNat 0 3 < 6 ∧ bits v.toNat 0 3 ≠ (srcAt s src).response) = true then bits v.toNat 0 3
      else (srcAt s src).response) = bits v.toNat 0 3 := by
    split
    · rfl
    · next h => exact (not_not.mp fun hne => h (decide_eq_true ⟨hr, fun e => hne e.symm⟩))
  have hfilter : (if decide (1 ≤ bits v.toNat 8 8 ∧ bits v.toNat 8 8 ≤ (srcRow src).top ∧ bits v.toNat 8 8 ≠ (srcAt s src).filter) = true
      then bits v.toNat 8 8 else (srcAt s src).filter) = bits v.toNat 8 8 := by
    split
    · rfl
    · next h => exact (not_not.mp fun hne => h (decide_eq_true ⟨hf, htop, fun e => hne e.symm⟩))
  unfold writeSrcCfg
  rw [if_neg (writeSrcCfg_gate hsrc hon)]
  simp only [show (unitAt s tamperPage).lock = false from hlock, hbad, Bool.or_self, Bool.not_false, Bool.and_true, Bool.and_false,
    Bool.false_eq_true, if_false, hresp, hfilter]

theorem writeSrcCfg_of_locked (hlock : (unitAt s 0x004).lock = true) (hne : bits v.toNat 0 3 ≠ (srcAt s src).response) :
    writeSrcCfg s src v = refuseWrite (putSrcCfg s src (srcAt s src)) 0x004 := by
  unfold writeSrcCfg
  rw [if_neg (writeSrcCfg_gate hsrc hon)]
  simp only [show (unitAt s tamperPage).lock = true from hlock, decide_eq_true (And.intro hr hne), Bool.true_or, Bool.not_true,
    Bool.and_false, Bool.true_and, Bool.false_eq_true, if_false, if_true]
  rfl

end

/-! Loss of VIN (R870) and the cell (R753). -/

/-- What a change of the flash or of the tag while VIN fails leaves alone. -/
def KeepsCell (s t : State) : Prop := t.mooring = s.mooring ∧ t.otp = s.otp ∧ t.pending = s.pending

theorem KeepsCell.refl (s : State) : KeepsCell s s := ⟨rfl, rfl, rfl⟩

theorem KeepsCell.trans {u : State} (h : KeepsCell s t) (k : KeepsCell t u) : KeepsCell s u := by
  obtain ⟨hm, ho, hp⟩ := h
  obtain ⟨km, ko, kp⟩ := k
  exact ⟨km.trans hm, ko.trans ho, kp.trans hp⟩

theorem UnitWork.keepsCell (h : UnitWork s t) : KeepsCell s t := ⟨h.mooring, h.otp, h.pending⟩

theorem keepsCell_eraseSector (s : State) (b k : Nat) : KeepsCell s (eraseSector s b k) := by
  unfold eraseSector
  extract_lets lo hi f f' s1
  split
  · exact ⟨rfl, rfl, rfl⟩
  split
  · exact ⟨rfl, rfl, rfl⟩
  split
  · exact ⟨rfl, rfl, rfl⟩
  split
  · exact ⟨rfl, rfl, rfl⟩
  split
  · exact ⟨rfl, rfl, rfl⟩
  split
  · exact ⟨rfl, rfl, rfl⟩
  split
  · split
    · split
      · exact ⟨rfl, rfl, rfl⟩
      · exact ⟨rfl, rfl, rfl⟩
    · exact ⟨rfl, rfl, rfl⟩
  · exact ⟨rfl, rfl, rfl⟩

theorem keepsCell_tearGranules (s : State) (g n : Nat) : KeepsCell s (tearGranules s g n) := by
  unfold tearGranules
  split
  · exact .refl s
  · exact ⟨rfl, rfl, rfl⟩

theorem keepsCell_tearRun (s : State) (b : Nat) (r : FlashRun) (k : Nat) : KeepsCell s (tearRun s b r k) := by
  unfold tearRun
  split
  · exact (keepsCell_eraseSector s b r.sector).trans (keepsCell_tearGranules ..)
  · split
    · exact .refl s
    · exact keepsCell_tearGranules ..

theorem keepsCell_abandonAppend (s : State) : KeepsCell s (abandonAppend s) := by
  unfold abandonAppend
  split
  · exact .refl s
  · next a _ =>
    extract_lets x s1
    have h1 : KeepsCell s s1 := ⟨rfl, rfl, rfl⟩
    split
    · unfold tagEvent
      split
      · exact h1.trans (unitWork_setEvent s1 _ _).keepsCell
      · exact h1
    · exact h1

theorem keepsCell_tagVinLoss (s : State) : KeepsCell s (tagVinLoss s) := by
  unfold tagVinLoss
  extract_lets s1 dead x
  have h1 : KeepsCell s s1 := by
    change KeepsCell s (match s.tag.run with
      | some a => if !a.reader && !s.tag.field then abandonAppend s else s
      | none => s)
    split
    · split
      · exact keepsCell_abandonAppend s
      · exact .refl s
    · exact .refl s
  exact h1.trans ⟨rfl, rfl, rfl⟩

theorem vinLoss_fields (h : s.power.state ≠ .moored) : (vinLoss s).power.state = .moored ∧ (vinLoss s).jobs = [] ∧
    (vinLoss s).otp = s.otp ∧ (vinLoss s).mooring = s.mooring ∧ (vinLoss s).units = [] ∧ (vinLoss s).pending = s.pending := by
  unfold vinLoss
  extract_lets tear u b
  have htear (s : State) (k : Nat) : KeepsCell s (tear s k) := by
    change KeepsCell s (match (bankAt s k).run with
      | some r => tearRun s k r 0
      | none => s)
    split
    · exact keepsCell_tearRun ..
    · exact .refl s
  obtain ⟨hm, ho, hp⟩ := ((htear s 0).trans (htear _ 1)).trans (keepsCell_tagVinLoss (tear (tear s 0) 1))
  rw [if_neg (by rw [vinPresent, decide_eq_true h]; exact Bool.false_ne_true)]
  exact ⟨rfl, rfl, ho, hm, rfl, hp⟩

theorem episodeFire_fields (m : Mooring) (r : Nat) : (episodeFire m r).1.epOpen = true ∧ (episodeFire m r).1.drk = m.drk ∧
    (m.epOpen = false → (episodeFire m r).2.1 = true ∧ (episodeFire m r).2.2.2 = none) := by
  unfold episodeFire
  split
  · extract_lets ev m'
    refine ⟨?_, ?_, fun _ => ⟨rfl, rfl⟩⟩
    · change (if ev then raiseEvidence m' else m').epOpen = true
      split <;> rfl
    · change (if ev then raiseEvidence m' else m').drk = _
      split <;> rfl
  · next h =>
    have hopen : m.epOpen = true := by simpa using h
    split
    · extract_lets ev m'
      refine ⟨?_, ?_, fun h => absurd (h.symm.trans hopen) Bool.false_ne_true⟩
      · change (if ev then raiseEvidence m' else m').epOpen = true
        split
        · exact hopen
        · exact hopen
      · change (if ev then raiseEvidence m' else m').drk = _
        split <;> rfl
    · exact ⟨hopen, rfl, fun h => absurd (h.symm.trans hopen) Bool.false_ne_true⟩

section
variable (hvin : vinPresent s = false) (hheld : s.mooring.held = true) (hsrc : src < 42) (hcell : (srcRow src).cell = true)
  (hon : srcDisabled s src = false)
include hvin hheld hsrc hcell hon

theorem fireCell_fields : (fireCell s src).mooring.cellNew = true ∧ (fireCell s src).mooring.epOpen = true ∧
    (s.mooring.epOpen = false → (srcAt s src).response = 4 →
      (fireCell s src).mooring.drk = 0 ∧ (fireCell s src).mooring.ripcordSeen = true) ∧
    (s.mooring.epOpen = false → (srcAt s src).response < 4 → (fireCell s src).mooring.drk = s.mooring.drk) ∧
    (fireCell s src).otp = s.otp := by
  have hgo : ¬ (vinPresent s = true ∨ (!s.mooring.held) = true ∨ 42 ≤ src ∨ (!(srcRow src).cell) = true ∨ srcDisabled s src = true) := by
    rw [hvin, hheld, hcell, hon]
    rintro (h | h | h | h | h)
    · exact Bool.false_ne_true h
    · exact Bool.false_ne_true h
    · exact absurd hsrc (Nat.not_lt.mpr h)
    · exact Bool.false_ne_true h
    · exact Bool.false_ne_true h
  obtain ⟨hopen, hdrk, hfirst⟩ := episodeFire_fields s.mooring (srcAt s src).response
  unfold fireCell
  rw [if_neg hgo]
  extract_lets x s1
  have hs1 : s1.mooring = s.mooring := rfl
  rw [hs1]
  generalize episodeFire s.mooring x.response = ep at hopen hdrk hfirst ⊢
  obtain ⟨m, raised, ev, old⟩ := ep
  dsimp -zeta only at hopen hdrk hfirst ⊢
  extract_lets s2 newly m1 m2
  have hm2 : m2.cellNew = true ∧ m2.epOpen = true := by
    change (if newly 4 = true then _ else m1).cellNew = true ∧ (if newly 4 = true then _ else m1).epOpen = true
    split
    · exact ⟨rfl, hopen⟩
    · exact ⟨rfl, hopen⟩
  have hend (m' : Mooring) (hm' : m' = if newly 5 then { m2 with pendingLock := true } else m2) : m'.cellNew = m2.cellNew ∧
      m'.epOpen = m2.epOpen ∧ m'.drk = m2.drk ∧ m'.ripcordSeen = m2.ripcordSeen := by
    subst hm'
    split
    · exact ⟨rfl, rfl, rfl, rfl⟩
    · exact ⟨rfl, rfl, rfl, rfl⟩
  obtain ⟨hnew, hep, hkey, hseen⟩ := hend _ rfl
  refine ⟨hnew.trans hm2.1, hep.trans hm2.2, fun hclosed h4 => ?_, fun hclosed hlt => ?_, rfl⟩
  · obtain ⟨rfl, rfl⟩ := hfirst hclosed
    have h4' : newly 4 = true := by
      change (true && decide (4 ≤ (srcAt s src).response) && true) = true
      rw [h4]
      rfl
    have hm2 : m2 = { m1 with drk := 0, ripcordSeen := true } := if_pos h4'
    rw [hkey, hseen, hm2]
    exact ⟨rfl, rfl⟩
  · obtain ⟨rfl, rfl⟩ := hfirst hclosed
    have h4' : ¬ newly 4 = true := by
      change ¬ (true && decide (4 ≤ (srcAt s src).response) && true) = true
      rw [decide_eq_false (Nat.not_le.mpr hlt)]
      exact Bool.false_ne_true
    have hm2 : m2 = m1 := if_neg h4'
    rw [hkey, hm2]
    exact hdrk

end

theorem fireCell_of_barred (h : vinPresent s = true ∨ s.mooring.held = false ∨ 42 ≤ src ∨ (srcRow src).cell = false ∨
    srcDisabled s src = true) : fireCell s src = s :=
  if_pos (h.imp_right fun h => h.imp not_true_of_false fun h => h.imp_right fun h => h.imp_left not_true_of_false)

/-! A sample of a source (R734). -/

theorem sample_of_unwatched (b : Bool) (h : srcWatched s src = false) : sample s src b = s := if_pos (not_true_of_false h)

section
variable (h : srcWatched s src = true)
include h

theorem sample_of_quiet : sample s src false = closeEpisode (putSrc s src { srcAt s src with count := 0, asserted := false }) :=
  if_neg (true_not_false h)

theorem sample_of_early (hfew : (srcAt s src).count + 1 < (srcAt s src).filter) :
    sample s src true = putSrc s src { srcAt s src with count := (srcAt s src).count + 1, asserted := true } :=
  (if_neg (true_not_false h)).trans (if_neg (Nat.not_le.mpr hfew))

theorem sample_of_full (hfull : (srcAt s src).filter ≤ (srcAt s src).count + 1) (hvin : vinPresent s = true) :
    sample s src true = fireTamper s src :=
  (if_neg (true_not_false h)).trans ((if_pos hfull).trans (if_pos hvin))

end

/-! The register commands reach the page of the tamper unit, or of the mooring domain. -/

theorem vinPresent_of_moored (h : s.power.state = .moored) : vinPresent s = false := decide_eq_false (not_not_intro h)

theorem clearMooringLog_of_key (hkey : v.toNat % 2 ^ 16 = 0xC1EA) (hlock : (unitAt s 0x00A).lock = false)
    (hep : s.mooring.epOpen = false) :
    clearMooringLog s v = { s with mooring := { s.mooring with log := [], dropped := 0, cellNew := false } } := by
  refine if_neg ?_
  rintro (h | h | h)
  · exact h hkey
  · exact Bool.false_ne_true (hlock.symm.trans h)
  · exact Bool.false_ne_true (hep.symm.trans h)

end

/-- Settles O53: each command by the cases of its rule. -/
theorem tamperCommands : Obligations.TamperCommands := by
  unfold Obligations.TamperCommands
  intro acc src machine unit v s
  have hfire (hvin : vinPresent s = true) (hsrc : src < 42) (hfsm : src ≠ 38) :=
    tamperFire_of_source (machine := machine) (unit := unit) hvin hsrc hfsm
  refine ⟨fun hvin hsrc hfsm h => ?_, fun hvin hsrc hfsm h => ?_, fun hvin hsrc hfsm hon htest hresp hopen => ?_,
    fun hvin hsrc hfsm h => ?_, fun h => congrArg Host.Outcome.next (tamperFire_of_no_source h), fun hi hreach => ?_, fun hvin hdue => ?_,
    fun h => ?_, fun hreach hbusy hgo hsrc hon => ?_, fun hreach hbusy hgo => ?_, fun pass hbusy => ?_, fun pass hbusy => ?_,
    fun hreach hkey hlc hlock => ?_, fun h => ?_, fun hreach hsrc hon hlock hr hfloor hf htop => ?_,
    fun hreach hsrc hon hlock hr hne => ?_, fun h => ⟨vinLoss s, rfl, vinLoss_fields h⟩, fun h => ?_,
    fun hvin hheld hsrc hcell hon => ⟨fireCell s src, rfl, fireCell_fields hvin hheld hsrc hcell hon⟩,
    fun h => congrArg Host.Outcome.next (fireCell_of_barred h), fun hvin => ?_, fun hvin => congrArg Host.Outcome.next (if_pos hvin),
    fun hreach hkey hlock hep => ?_, fun h => ?_, fun h hfew => congrArg Host.Outcome.next (sample_of_early h hfew),
    fun h hfull hvin => congrArg Host.Outcome.next (sample_of_full h hfull hvin), fun h => congrArg Host.Outcome.next (sample_of_quiet h),
    fun b h => congrArg Host.Outcome.next (sample_of_unwatched b h)⟩
  · refine congrArg Host.Outcome.next ((hfire hvin hsrc hfsm).trans (if_neg ?_))
    rw [h]
    exact Bool.false_ne_true
  · exact congrArg Host.Outcome.next ((hfire hvin hsrc hfsm).trans (if_pos h))
  · obtain ⟨x, hcore, hfired, hcount⟩ := fireCore_of_quiet hsrc hon htest hresp hopen
    refine ⟨{ s with tamper := x }, congrArg Host.Outcome.next ((hfire hvin hsrc hfsm).trans ?_), rfl, hfired, hcount⟩
    rw [hcore]
    rfl
  · have hcore := fireCore_of_ignored h
    refine congrArg Host.Outcome.next ((hfire hvin hsrc hfsm).trans ?_)
    rw [hcore]
    rfl
  · obtain ⟨hjobs, hotp⟩ := writeFired_keeps s hi v
    refine ⟨writeFired s hi v, congrArg Host.Outcome.next (if_pos hreach), fun n hn => ?_, fun n hn h42 => ?_, hjobs, hotp⟩
    · rw [writeFired_fields s hi v (Nat.lt_of_lt_of_le hn (by decide)), decide_eq_false (Nat.not_le.mpr hn), decide_eq_true hn]
      cases hi <;> rfl
    · rw [writeFired_fields s hi v h42, decide_eq_true hn, decide_eq_false (Nat.not_lt.mpr hn)]
      cases hi <;> rfl
  · have hburn := unitWork_setEvent { s with otp := { s.otp with
      evidence := s.otp.evidence ||| BitVec.ofNat 1024 (2 ^ evidenceCount s.otp) } } 0x00B 16
    exact ⟨_, congrArg Host.Outcome.next (burnEvidence_of_due hvin hdue), hburn.otp, hburn.jobs⟩
  · exact congrArg Host.Outcome.next (if_pos (h.imp_left not_true_of_false))
  · exact congrArg Host.Outcome.next ((if_pos hreach).trans (writeTest_of_start hbusy hgo hsrc hon))
  · exact congrArg Host.Outcome.next ((if_pos hreach).trans (writeTest_of_busy hbusy hgo))
  · exact ⟨testDone s pass, rfl, testDone_fields pass hbusy⟩
  · exact congrArg Host.Outcome.next (if_pos (not_true_of_false hbusy))
  · exact ⟨burnFuse s v, congrArg Host.Outcome.next (if_pos hreach), burnFuse_of_key hkey hlc hlock⟩
  · refine congrArg Host.Outcome.next ?_
    rw [burnFuse_of_barred h]
    exact ite_self s
  · exact congrArg Host.Outcome.next ((if_pos hreach).trans (writeSrcCfg_of_unlocked hsrc hon hr hlock hfloor hf htop))
  · exact congrArg Host.Outcome.next ((if_pos hreach).trans (writeSrcCfg_of_locked hsrc hon hr hlock hne))
  · exact congrArg Host.Outcome.next (if_pos (not_true_of_false (vinPresent_of_moored h)))
  · refine congrArg Host.Outcome.next (if_neg ?_)
    rw [hvin]
    exact Bool.false_ne_true
  · exact congrArg Host.Outcome.next ((if_pos hreach).trans (clearMooringLog_of_key hkey hlock hep))
  · refine congrArg Host.Outcome.next ?_
    rw [show clearMooringLog s v = s from if_pos h]
    exact ite_self s

end Sys2Proof.Machine


/-! PROOF. O55: the card bus (R796 to R817). -/

namespace Sys2Proof.Machine

section
variable {s t : State} {acc : Acc} {k : Nat}

theorem UnitWork.ccb (h : UnitWork s t) : t.ccb = s.ccb := by rw [h.frame]

theorem cardSlotAt_putCardSlot (s : State) (k : Nat) {x : CardSlot} (h : x ≠ {}) : cardSlotAt (putCardSlot s k x) k = x :=
  tget_tset_new _ _ _ h _

theorem cardAccAt_putCardAcc (s : State) (a : Nat) {x : CardAcc} (h : x ≠ {}) : cardAccAt (putCardAcc s a x) a = x :=
  tget_tset_new _ _ _ h _

/-! Presence and removal (R796, R797, R812). -/

theorem cardNext_of_bringUp {ks : List Nat} (htxn : s.ccb.txn = none) (hwork : takesWork s 0x008 = true) (hup : s.ccb.bringUp = k :: ks) :
    cardNext s = bringStep (putCardSlot s k { cardSlotAt s k with state := .powering, power := true }) k 0x01 0 := by
  simp only [cardNext, htxn, show takesWork s cardPage = true from hwork, hup, Option.isSome_none, Bool.not_true, Bool.false_eq_true, or_self,
    if_false]

theorem cardNext_of_busy (h : s.ccb.txn ≠ none) : cardNext s = s :=
  if_pos (.inl (Option.isSome_iff_ne_none.mpr h))

theorem cardNext_of_queue {a op slot record : Nat} {rest : List (Nat × Nat × Nat × Nat)} (htxn : s.ccb.txn = none)
    (hwork : takesWork s 0x008 = true) (hup : s.ccb.bringUp = []) (hq : s.ccb.queue = (a, op, slot, record) :: rest) :
    cardNext s = beginCard s a op slot record := by
  simp only [cardNext, htxn, show takesWork s cardPage = true from hwork, hup, hq, Option.isSome_none, Bool.not_true, Bool.false_eq_true,
    or_self, if_false]

/-- The bring-up of a present card begins with the ANNOUNCE frame (R809). -/
theorem cardNext_bringUp_fields {ks : List Nat} (htxn : s.ccb.txn = none) (hwork : takesWork s 0x008 = true) (hup : s.ccb.bringUp = k :: ks)
    (hpresent : (cardSlotAt s k).present = true) : ∃ t x, cardNext s = t ∧ (cardSlotAt t k).present = true ∧
      (cardSlotAt t k).power = true ∧ (cardSlotAt t k).state = .powering ∧ t.ccb.txn = some x ∧ x.acc = none ∧ x.slot = k ∧ x.op = 1 ∧
      x.phase = .reply ∧ Output.cardFrame 0 1 0 (frameCrc 0 1 0) ∈ t.out ∧ t.jobs = s.jobs := by
  have hslot := cardSlotAt_putCardSlot s k (x := { cardSlotAt s k with state := .powering, power := true })
    fun h => Bool.noConfusion (congrArg CardSlot.power h)
  rw [cardNext_of_bringUp htxn hwork hup]
  refine ⟨_, _, rfl, (congrArg CardSlot.present hslot).trans hpresent, congrArg CardSlot.power hslot, congrArg CardSlot.state hslot, rfl, rfl,
    rfl, rfl, rfl, List.mem_append_right _ List.mem_cons_self, rfl⟩

theorem slotPresent_of_absent (hk : k < 4) (habs : (cardSlotAt s k).present = false) (htxn : s.ccb.txn = none) (hup : s.ccb.bringUp = [])
    (hwork : takesWork s 0x008 = true) : ∃ t x, slotPresent s k = t ∧ (cardSlotAt t k).present = true ∧ (cardSlotAt t k).power = true ∧
      (cardSlotAt t k).state = .powering ∧ t.ccb.txn = some x ∧ x.acc = none ∧ x.slot = k ∧ x.op = 1 ∧ x.phase = .reply ∧
      Output.cardFrame 0 1 0 (frameCrc 0 1 0) ∈ t.out ∧ t.jobs = s.jobs := by
  have hgo : ¬ (4 ≤ k ∨ (cardSlotAt s k).present = true) := by
    rw [habs]
    exact fun h => h.elim (Nat.not_le.mpr hk) Bool.false_ne_true
  unfold slotPresent
  extract_lets x u
  rw [if_neg hgo]
  have hslot : cardSlotAt u k = { x with present := true, overcurrent := false } :=
    cardSlotAt_putCardSlot s k fun h => Bool.noConfusion (congrArg CardSlot.present h)
  have hpresent : (cardSlotAt u k).present = true := congrArg CardSlot.present hslot
  have hqueue : u.ccb.bringUp ++ [k] = [k] := congrArg (· ++ [k]) hup
  exact cardNext_bringUp_fields (s := { u with ccb := { u.ccb with bringUp := u.ccb.bringUp ++ [k] } }) htxn hwork hqueue hpresent

theorem slotRemoval_of_present (hk : k < 4) (h : (cardSlotAt s k).present = true) :
    slotRemoval s [k] = removeSlots (putCardSlot s k { cardSlotAt s k with present := false }) [k] := by
  have hks : (List.range 4).filter (fun q => [k].contains q && (cardSlotAt s q).present) = [k] := by
    have hone : ∀ q, ([k].contains q && (cardSlotAt s q).present) = decide (q = k) := fun q => by
      by_cases hq : q = k
      · simp [hq, h]
      · simp [hq]
    simp only [hone]
    interval_cases k <;> rfl
  simp only [slotRemoval, hks, List.isEmpty_cons, Bool.false_eq_true, if_false, List.foldl_cons, List.foldl_nil]

theorem slotRemoval_of_absent {ks : List Nat} (h : ∀ q ∈ ks, (cardSlotAt s q).present = false) : slotRemoval s ks = s := by
  refine if_pos (List.isEmpty_iff.mpr (List.filter_eq_nil_iff.mpr fun q _ hq => ?_))
  obtain ⟨hin, hp⟩ := Bool.and_eq_true_iff.mp hq
  exact Bool.false_ne_true ((h q (List.contains_iff_mem.mp hin)).symm.trans hp)

/-! Replies and blocks (R801 to R806). -/

section
variable {x : CardTxn} {a st d : Nat} (htxn : s.ccb.txn = some x)
include htxn

section
variable (hphase : x.phase = .reply)
include hphase

theorem cardReply_of_bad_crc : cardReply s a st d false = cardRetry s x := by
  simp only [cardReply, htxn, hphase, ne_eq, not_true_eq_false, false_and, Bool.not_false, if_false, if_true]

theorem cardReply_of_other_addr (ha : a ≠ replyAddr x) : cardReply s a st d true = s := by
  simp only [cardReply, htxn, hphase, ne_eq, not_true_eq_false, false_and, Bool.not_true, Bool.false_eq_true, if_false, ha,
    not_false_eq_true, if_true]

theorem cardReply_of_reply : cardReply s (replyAddr x) st d true =
    if st = 0xFE ∨ st = 0xFD then cardRetry s x else if st ≠ 0 then cardRefuses s x st
    else if x.acc.isNone then bringReply s x d else commandReply s x d := by
  have hack : ¬ (CardPhase.reply = .ack) := CardPhase.noConfusion
  simp only [cardReply, htxn, hphase, ne_eq, not_true_eq_false, false_and, Bool.not_true, Bool.false_eq_true, if_false, hack]

theorem cardReply_of_command (hacc : x.acc ≠ none) : cardReply s (replyAddr x) 0 d true = commandReply s x d := by
  rw [cardReply_of_reply htxn hphase, if_neg (by decide), if_neg (by decide), if_neg]
  rwa [Option.isNone_iff_eq_none]

theorem cardReply_of_announce (hacc : x.acc = none) (hop : x.op = 0x01) : cardReply s (replyAddr x) 0 d true =
    bringStep (putCardSlot s x.slot { cardSlotAt s x.slot with caps := d }) x.slot 0x02 (nextCardAddr s) := by
  rw [cardReply_of_reply htxn hphase, if_neg (by decide), if_neg (by decide), hacc, Option.isNone_none, if_pos rfl]
  simp only [bringReply, hop]

end

theorem cardReply_of_ack (hphase : x.phase = .ack) : cardReply s (replyAddr x) 0 d true = putTxn s (some { x with phase := .busy }) := by
  simp only [cardReply, htxn, hphase, ne_eq, not_true_eq_false, and_false, Bool.not_true, Bool.false_eq_true, if_false, if_true,
    show ¬ (0 = 0xFE ∨ 0 = 0xFD) by decide]

section
variable {data : Bytes} {crc : Nat} (hphase : x.phase = .readBlock)
include hphase

theorem cardBlock_of_bad (h : data.length ≠ cardBlockLen x.op ∨ crc ≠ (crc32c data).toNat) : cardBlock s data crc = cardRetry s x := by
  simp only [cardBlock, htxn, hphase, ne_eq, not_true_eq_false, if_false]
  exact if_pos h

theorem cardBlock_of_good (hlen : data.length = cardBlockLen x.op) (hcrc : crc = (crc32c data).toNat) : cardBlock s data crc =
    match x.acc with
    | none => bringStep (putCardSlot s x.slot { cardSlotAt s x.slot with id := data }) x.slot 0x06 0
    | some a => finishCard (recordRead s x a data) 0 := by
  simp only [cardBlock, htxn, hphase, ne_eq, not_true_eq_false, if_false]
  exact if_neg fun h => h.elim (fun h => h hlen) fun h => h hcrc

end

section
variable (hphase : x.phase = .busy) (hacc : x.acc = some a)
include hphase hacc

theorem cardBusyEnd_of_record (hop : x.op = 0x11) (ha : a ≠ 2) :
    cardBusyEnd s = finishCard (putCardAcc s a { cardAccAt s a with wcount := (cardAccAt s a).wcount + 1 }) 0 := by
  simp only [cardBusyEnd, htxn, hphase, hacc, if_pos hop, if_neg ha]

theorem cardBusyEnd_of_credential (hop : x.op = 0x12) : cardBusyEnd s = finishCard (putCardSlot s x.slot { cardSlotAt s x.slot with
    state := afterCred (field x.block 0 4) (cardSlotAt s x.slot).state }) 0 := by
  have hne : ¬ x.op = 0x11 := by rw [hop]; decide
  simp only [cardBusyEnd, htxn, hphase, hacc, if_neg hne]

end

theorem cardAbort_of_running {v : Word32} (hkey : v.toNat % 2 ^ 16 = 0xAB07) (hacc : x.acc = some (accIdx acc)) :
    cardAbort s acc v = finishCard s 9 := by
  simp only [cardAbort, hkey, htxn, hacc, decide_true, ne_eq, not_true_eq_false, if_false, if_true]

end

theorem no_txn_no_reply {a st d : Nat} {ok : Bool} {data : Bytes} {crc : Nat} (h : s.ccb.txn = none) :
    cardReply s a st d ok = s ∧ cardBlock s data crc = s ∧ cardBusyEnd s = s := by
  rw [cardReply, cardBlock, cardBusyEnd, h]
  exact ⟨rfl, rfl, rfl⟩

theorem cardAbort_of_idle {v : Word32} (hkey : v.toNat % 2 ^ 16 = 0xAB07) (h : s.ccb.txn = none) :
    cardAbort s acc v = endWaiting s 9 fun q => decide (q.1 = accIdx acc) := by
  simp only [cardAbort, hkey, h, ne_eq, not_true_eq_false, Bool.false_eq_true, if_false]

/-! CCB_CMD (R815 to R817). -/

/-- The password of an accessor other than the firmware's and the share buffer are cleared at the end of a CREDENTIAL command. -/
theorem endCard_clears {a op code : Nat} (ha : a ≠ 2) (hop : 4 ≤ op) :
    (cardAccAt (endCard s a op k code) a).pwd = [] ∧ (endCard s a op k code).ccb.share = [] := by
  have hno (mine : Bool) : ¬ (a = 2 ∧ op = 1 ∧ code ≠ 0 ∧ mine = true) := fun h => ha h.1
  unfold endCard
  extract_lets x u mine y w
  have hw : w = u := if_neg (hno mine)
  have hacc : cardAccAt u a = _ := cardAccAt_putCardAcc s a fun h => Nat.noConfusion (congrArg CardAcc.state h)
  rw [cardAccAt, (unitWork_setEvent _ _ _).ccb]
  refine ⟨?_, rfl⟩
  change (cardAccAt w a).pwd = []
  rw [hw]
  exact (congrArg CardAcc.pwd hacc).trans (if_pos hop)

/-- The fields of the word that a command writes to CCB_CMD. -/
theorem cardWord_fields {op k r : Nat} (hop : op ≤ 8) (hk : k < 4) (hr : r < 16) :
    let n := (w32 (op + 16 * (k % 4) + 256 * (r % 16) + 2 ^ 31)).toNat
    bits n 0 4 = op ∧ bits n 4 2 = k ∧ bits n 8 4 = r ∧ bit n 31 = true := by
  intro n
  have hn : n = op + 16 * k + 256 * r + 2 ^ 31 := by
    change (w32 _).toNat = _
    rw [w32, BitVec.toNat_ofNat]
    omega
  simp only [bits, bit, Nat.shiftRight_eq_div_pow, Nat.testBit_eq_decide_div_mod_eq, hn, decide_eq_true_eq]
  omega

/-- The state in which a command that is taken stands in the queue. -/
def cardQueued (s : State) (a op k r : Nat) : State :=
  let u := putCardAcc s a { cardAccAt s a with op := op, slot := k, record := r }
  let w := putCardAcc u a { cardAccAt s a with op := op, slot := k, record := r, state := 1 }
  { w with ccb := { w.ccb with queue := w.ccb.queue ++ [(a, op, k, r)] } }

theorem cardAccAt_cardQueued (s : State) (a op k r : Nat) :
    cardAccAt (cardQueued s a op k r) a = { cardAccAt s a with op := op, slot := k, record := r, state := 1 } :=
  cardAccAt_putCardAcc _ a fun h => Nat.noConfusion (congrArg CardAcc.state h)

/-- A command that begins sends its request frame (R803, R804). -/
theorem beginCard_fields (s : State) (a k : Nat) {op r : Nat} (hop : 1 ≤ op) (hr : 2 < op → r = 0) : ∃ t x, beginCard s a op k r = t ∧ t.ccb.txn = some x ∧
    x.acc = some a ∧ x.slot = k ∧ x.phase = .reply ∧
    x.op = (if op = 1 then 0x10 else if op = 2 then 0x11 else if op = 3 then 0x06 else 0x12) ∧ x.arg = r ∧
    x.addr = (cardSlotAt s k).addr ∧ Output.cardFrame x.addr x.op x.arg (frameCrc x.addr x.op x.arg) ∈ t.out ∧ t.jobs = s.jobs := by
  unfold beginCard
  extract_lets y u x code block
  have hu : u.ccb.slots = s.ccb.slots ∧ u.jobs = s.jobs := by
    change (if a = 2 ∧ op = 2 then (match splitSlot s with
      | some k => _
      | none => s) else s).ccb.slots = _ ∧ (if a = 2 ∧ op = 2 then (match splitSlot s with
      | some k => _
      | none => s) else s).jobs = _
    split
    · split
      · exact ⟨rfl, rfl⟩
      · exact ⟨rfl, rfl⟩
    · exact ⟨rfl, rfl⟩
  have harg : (if op = 1 ∨ op = 2 then r else 0) = r := by
    split
    · rfl
    · exact (hr (by omega)).symm
  have haddr : (cardSlotAt u k).addr = (cardSlotAt s k).addr := by rw [cardSlotAt, hu.1, cardSlotAt]
  exact ⟨_, _, rfl, rfl, rfl, rfl, rfl, rfl, harg, haddr, List.mem_append_right _ List.mem_cons_self, hu.2⟩

section
variable {op r : Nat} (hreach : reaches s acc 0x008 = true) (hop : 1 ≤ op) (hop8 : op ≤ 8) (hk : k < 4) (hr : r < 16)
  (hfree : (cardAccAt s (accIdx acc)).state ≠ 1)
include hreach hop hop8 hk hr hfree

/-- A GO while the accessor has no command running (R815). -/
theorem cardGo_of_free : cardGo s acc op k r =
    let a := accIdx acc
    let x := { cardAccAt s a with op := op, slot := k, record := r }
    let u := putCardAcc s a x
    if op ≤ 2 ∧ a ≠ 2 then endCard u a op k 2
    else if (cardSlotAt s k).state ≠ .ready ∧ (cardSlotAt s k).state ≠ .locked then endCard u a op k 1
    else
      let w := wakeIdle (putCardAcc u a { x with state := 1 })
      cardNext { w with ccb := { w.ccb with queue := w.ccb.queue ++ [(a, op, k, r)] } } := by
  obtain ⟨hbop, hbk, hbr, hgo⟩ := cardWord_fields hop8 hk hr
  have hno : ¬ ((!true) = true ∨ (cardAccAt s (accIdx acc)).state = 1 ∨ op = 0 ∨ 8 < op) := by
    rintro (h | h | h | h)
    · exact Bool.false_ne_true h
    · exact hfree h
    · exact absurd hop (by rw [h]; decide)
    · exact absurd hop8 (Nat.not_le.mpr h)
  refine (if_pos hreach).trans ?_
  simp only [writeCardCmd, hbop, hbk, hbr, hgo, if_neg hno]
  rfl

theorem cardGo_of_no_card (ha : 3 ≤ op ∨ accIdx acc = 2) (hready : (cardSlotAt s k).state ≠ .ready) (hlocked : (cardSlotAt s k).state ≠ .locked) :
    cardGo s acc op k r =
      endCard (putCardAcc s (accIdx acc) { cardAccAt s (accIdx acc) with op := op, slot := k, record := r }) (accIdx acc) op k 1 :=
  (cardGo_of_free hreach hop hop8 hk hr hfree).trans ((if_neg fun h => by omega).trans (if_pos ⟨hready, hlocked⟩))

theorem cardGo_of_not_firmware (h2 : op ≤ 2) (ha : accIdx acc ≠ 2) : cardGo s acc op k r =
    endCard (putCardAcc s (accIdx acc) { cardAccAt s (accIdx acc) with op := op, slot := k, record := r }) (accIdx acc) op k 2 :=
  (cardGo_of_free hreach hop hop8 hk hr hfree).trans (if_pos ⟨h2, ha⟩)

variable (hrun : s.power.state = .run) (ha : 3 ≤ op ∨ accIdx acc = 2)
  (hcard : (cardSlotAt s k).state = .ready ∨ (cardSlotAt s k).state = .locked)
include hrun ha hcard

theorem cardGo_of_taken : cardGo s acc op k r = cardNext (cardQueued s (accIdx acc) op k r) := by
  have hidle : s.power.state ≠ .idle := by rw [hrun]; decide
  refine (cardGo_of_free hreach hop hop8 hk hr hfree).trans ((if_neg fun h => by omega).trans ((if_neg fun h => ?_).trans ?_))
  · exact hcard.elim h.1 h.2
  · exact congrArg (fun w : State => cardNext { w with ccb := { w.ccb with queue := w.ccb.queue ++ [(accIdx acc, op, k, r)] } })
      (wakeIdle_of_not_idle hidle)

end

theorem exec_card_command {record op : Nat} {c : Instr} (h : (op, c) ∈ [(1, Instr.readRecord acc k record), (2, .writeRecord acc k record),
    (3, .status acc k), (4, .setPwd acc k), (5, .clrPwd acc k), (6, .lock acc k), (7, .unlock acc k), (8, .forceErase acc k)]) :
    1 ≤ op ∧ op ≤ 8 ∧ exec c s = .next (cardGo s acc op k (if op ≤ 2 then record else 0)) := by
  simp only [List.mem_cons, Prod.mk.injEq, List.not_mem_nil, or_false] at h
  obtain ⟨rfl, rfl⟩ | ⟨rfl, rfl⟩ | ⟨rfl, rfl⟩ | ⟨rfl, rfl⟩ | ⟨rfl, rfl⟩ | ⟨rfl, rfl⟩ | ⟨rfl, rfl⟩ | ⟨rfl, rfl⟩ := h <;>
  exact ⟨by decide, by decide, rfl⟩

end

/-- The commands of CCB_CMD (R815 to R817). -/
theorem cardCommands (acc : Acc) (k record : Nat) (s : State) :
    ∀ op c, (op, c) ∈ [(1, Instr.readRecord acc k record), (2, .writeRecord acc k record), (3, .status acc k), (4, .setPwd acc k),
        (5, .clrPwd acc k), (6, .lock acc k), (7, .unlock acc k), (8, .forceErase acc k)] → k < 4 → record < 16 →
      ∀ a r, a = accIdx acc → r = (if op ≤ 2 then record else 0) →
      (reaches s acc 0x008 = true → s.power.state = .run → (cardAccAt s a).state ≠ 1 → 3 ≤ op ∨ a = 2 →
        (cardSlotAt s k).state = .ready ∨ (cardSlotAt s k).state = .locked →
        (s.ccb.txn ≠ none → ∃ t, exec c s = .next t ∧ t.ccb.queue = s.ccb.queue ++ [(a, op, k, r)] ∧ (cardAccAt t a).state = 1 ∧
          (cardAccAt t a).op = op ∧ (cardAccAt t a).slot = k ∧ (cardAccAt t a).record = r ∧ t.ccb.txn = s.ccb.txn ∧ t.jobs = s.jobs) ∧
        (s.ccb.txn = none → s.ccb.queue = [] → s.ccb.bringUp = [] → takesWork s 0x008 = true →
          ∃ t x, exec c s = .next t ∧ t.ccb.txn = some x ∧ x.acc = some a ∧ x.slot = k ∧ x.phase = .reply ∧
            x.op = (if op = 1 then 0x10 else if op = 2 then 0x11 else if op = 3 then 0x06 else 0x12) ∧ x.arg = r ∧
            x.addr = (cardSlotAt s k).addr ∧ Output.cardFrame x.addr x.op x.arg (frameCrc x.addr x.op x.arg) ∈ t.out ∧
            t.jobs = s.jobs)) ∧
      (reaches s acc 0x008 = true → (cardAccAt s a).state ≠ 1 → 3 ≤ op ∨ a = 2 →
        (cardSlotAt s k).state ≠ .ready → (cardSlotAt s k).state ≠ .locked → exec c s =
          .next (endCard (putCardAcc s a { cardAccAt s a with op := op, slot := k, record := r }) a op k 1)) ∧
      (reaches s acc 0x008 = true → (cardAccAt s a).state ≠ 1 → op ≤ 2 → a ≠ 2 → exec c s =
          .next (endCard (putCardAcc s a { cardAccAt s a with op := op, slot := k, record := r }) a op k 2)) ∧
      (reaches s acc 0x008 = false → exec c s = .next s) := by
  rintro op c hc hk hrec a r rfl hr
  obtain ⟨hop, hop8, hexec⟩ := exec_card_command (s := s) hc
  rw [← hr] at hexec
  have hr16 : r < 16 := by
    rw [hr]
    split
    · exact hrec
    · decide
  have hr0 : 2 < op → r = 0 := fun h => hr.trans (if_neg (Nat.not_le.mpr h))
  refine ⟨fun hreach hrun hfree ha hcard => ?_, fun hreach hfree ha hready hlocked => ?_, fun hreach hfree h2 ha => ?_, fun hreach => ?_⟩
  · have hgo := cardGo_of_taken hreach hop hop8 hk hr16 hfree hrun ha hcard
    have hacc := cardAccAt_cardQueued s (accIdx acc) op k r
    refine ⟨fun htxn => ?_, fun htxn hq hup hwork => ?_⟩
    · refine ⟨_, hexec.trans (congrArg Host.Outcome.next (hgo.trans (cardNext_of_busy htxn))), rfl, ?_⟩
      rw [hacc]
      exact ⟨rfl, rfl, rfl, rfl, rfl, rfl⟩
    · have hnext : cardNext (cardQueued s (accIdx acc) op k r) = beginCard (cardQueued s (accIdx acc) op k r) (accIdx acc) op k r :=
        cardNext_of_queue (rest := []) htxn hwork hup (congrArg (· ++ [(accIdx acc, op, k, r)]) hq)
      obtain ⟨t, x, ht, hfields⟩ := beginCard_fields (cardQueued s (accIdx acc) op k r) (accIdx acc) k hop hr0
      exact ⟨t, x, hexec.trans (congrArg Host.Outcome.next (hgo.trans (hnext.trans ht))), hfields⟩
  · exact hexec.trans (congrArg Host.Outcome.next (cardGo_of_no_card hreach hop hop8 hk hr16 hfree ha hready hlocked))
  · exact hexec.trans (congrArg Host.Outcome.next (cardGo_of_not_firmware hreach hop hop8 hk hr16 hfree h2 ha))
  · refine hexec.trans (congrArg Host.Outcome.next (if_neg ?_))
    rw [show reaches s acc cardPage = false from hreach]
    exact Bool.false_ne_true

/-- Settles O55: presence, replies and blocks by the case of the transaction; commands from `cardCommands`. -/
theorem cardBus : Obligations.CardBus := by
  unfold Obligations.CardBus
  intro acc k record v s
  refine ⟨fun hk habs htxn hup hwork => ?_, fun h => congrArg Host.Outcome.next (if_pos h),
    fun hk h => congrArg Host.Outcome.next (slotRemoval_of_present hk h), fun ks h => congrArg Host.Outcome.next (slotRemoval_of_absent h),
    fun h => congrArg Host.Outcome.next (if_neg (true_not_false h)), fun h => congrArg Host.Outcome.next (if_pos (not_true_of_false h)),
    ?_, fun x h => if_neg (Nat.not_le.mpr h), fun x h => if_pos h,
    fun x htxn hphase => congrArg Host.Outcome.next (cardReply_of_ack htxn hphase), fun a st ok h => ?_, ?_, fun data crc h => ?_, ?_,
    cardCommands acc k record s, ?_, fun h => ?_, fun a op code ha hop => endCard_clears ha hop⟩
  · obtain ⟨t, x, ht, hfields⟩ := slotPresent_of_absent hk habs htxn hup hwork
    exact ⟨t, x, congrArg Host.Outcome.next ht, hfields⟩
  · rintro x st htxn hphase
    have hreply := cardReply_of_reply (st := st) (d := v.toNat) htxn hphase
    refine ⟨fun a => congrArg Host.Outcome.next (cardReply_of_bad_crc htxn hphase),
      fun h => congrArg Host.Outcome.next (hreply.trans (if_pos h)),
      fun a ha => congrArg Host.Outcome.next (cardReply_of_other_addr htxn hphase ha), fun h0 hfe hfd => ?_, ?_, ?_, ?_, ?_⟩
    · exact congrArg Host.Outcome.next (hreply.trans ((if_neg fun h => h.elim hfe hfd).trans (if_pos h0)))
    · rintro rfl hacc hop
      exact congrArg Host.Outcome.next ((cardReply_of_command htxn hphase hacc).trans (if_pos (decide_eq_true (.inr hop))))
    · rintro rfl hacc hop
      have hreads : ¬ cardReads x.op = true := fun h => by rcases hop with hop | hop <;> rw [hop] at h <;> exact absurd h (by decide)
      exact congrArg Host.Outcome.next ((cardReply_of_command htxn hphase hacc).trans
        ((if_neg hreads).trans (if_pos (decide_eq_true hop))))
    · rintro rfl hacc hop
      have hreads : ¬ cardReads x.op = true := by rw [hop]; decide
      have hwrites : ¬ cardWrites x.op = true := by rw [hop]; decide
      exact congrArg Host.Outcome.next ((cardReply_of_command htxn hphase hacc).trans ((if_neg hreads).trans (if_neg hwrites)))
    · rintro rfl hacc hop
      exact congrArg Host.Outcome.next (cardReply_of_announce htxn hphase hacc hop)
  · obtain ⟨hreply, -, -⟩ := no_txn_no_reply (a := a) (st := st) (d := v.toNat) (ok := ok) (data := []) (crc := 0) h
    exact congrArg Host.Outcome.next hreply
  · rintro x data crc htxn hphase
    refine ⟨fun h => congrArg Host.Outcome.next (cardBlock_of_bad htxn hphase h), fun hlen hcrc => ?_⟩
    have hgood := cardBlock_of_good htxn hphase hlen hcrc
    refine ⟨fun a hacc => congrArg Host.Outcome.next (hgood.trans ?_), fun hacc => congrArg Host.Outcome.next (hgood.trans ?_)⟩
    · rw [hacc]
    · rw [hacc]
  · obtain ⟨-, hblock, hbusy⟩ := no_txn_no_reply (a := 0) (st := 0) (d := 0) (ok := true) (data := data) (crc := crc) h
    exact ⟨congrArg Host.Outcome.next hblock, congrArg Host.Outcome.next hbusy⟩
  · rintro x a htxn hphase hacc
    exact ⟨fun hop ha => congrArg Host.Outcome.next (cardBusyEnd_of_record htxn hphase hacc hop ha),
      fun hop => congrArg Host.Outcome.next (cardBusyEnd_of_credential htxn hphase hacc hop)⟩
  · rintro hreach hkey
    exact ⟨fun x htxn hacc => congrArg Host.Outcome.next ((if_pos hreach).trans (cardAbort_of_running htxn hkey hacc)),
      fun htxn => congrArg Host.Outcome.next ((if_pos hreach).trans (cardAbort_of_idle hkey htxn))⟩
  · refine congrArg Host.Outcome.next ?_
    rcases h with h | h
    · exact if_neg (by rw [show reaches s acc cardPage = false from h]; exact Bool.false_ne_true)
    · rw [show cardAbort s acc v = s from if_pos h]
      exact ite_self s

end Sys2Proof.Machine


/-! PROOF. O57: the field and the frames of the custody tag (R822 to R829), its APDUs and its registers (R830 to R843). -/

namespace Sys2Proof.Machine

section
variable {s t : State}

theorem UnitWork.tag (h : UnitWork s t) : t.tag = s.tag := by rw [h.frame]

theorem unitWork_tagEvent (s : State) (b : Nat) : UnitWork s (tagEvent s b) :=
  .ite (fun _ => unitWork_setEvent ..) fun _ => .refl s

/-! Field (R825, R829). -/

theorem fieldOn_fields (h : s.tag.field = false) : (fieldOn s).tag.field = true ∧ (fieldOn s).tag.state = .idle ∧
    (fieldOn s).tag.wake = true ∧ (fieldOn s).tag.uid = 0x08#8 :: slice (tagBlock s.tag.seed s.tag.counter) 0 3 ∧
    (fieldOn s).tag.counter = (s.tag.counter + 2 ^ 16) % 2 ^ 64 ∧ (fieldOn s).tag.session = none ∧
    (fieldOn s).tag.slots = s.tag.slots ∧ (fieldOn s).jobs = s.jobs := by
  unfold fieldOn
  extract_lets t uid u
  rw [if_neg (by rw [show t.field = false from h]; exact Bool.false_ne_true), (unitWork_tagEvent _ _).tag, (unitWork_tagEvent _ _).jobs]
  exact ⟨rfl, rfl, rfl, rfl, rfl, rfl, rfl, rfl⟩

theorem takeAppend_of_none (h : s.tag.waiting = []) : takeAppend s = s := by
  cases hrun : s.tag.run with
  | none => simp only [takeAppend, hrun, h]
  | some a => simp only [takeAppend, hrun, h]

theorem fieldOff_fields (h : s.tag.field = true) (hrun : s.tag.run = none) (hwait : ∀ a ∈ s.tag.waiting, a.reader = true) :
    (fieldOff s).tag.field = false ∧ (fieldOff s).tag.state = .idle ∧ (fieldOff s).tag.uid = [] ∧ (fieldOff s).tag.selected = false ∧
    (fieldOff s).tag.session = none ∧ (fieldOff s).tag.challenge = none ∧ (fieldOff s).tag.slots = s.tag.slots ∧
    (fieldOff s).jobs = s.jobs := by
  have hnone : s.tag.waiting.filter (fun a => !a.reader) = [] := List.filter_eq_nil_iff.mpr fun a ha => true_not_false (hwait a ha)
  simp only [fieldOff, h, hrun, hnone, Bool.not_true, Bool.false_eq_true, if_false]
  rw [takeAppend_of_none, (unitWork_tagEvent _ _).tag, (unitWork_tagEvent _ _).jobs]
  · exact ⟨rfl, rfl, rfl, rfl, rfl, rfl, rfl, rfl⟩
  · rw [(unitWork_tagEvent _ _).tag]
    rfl

/-! Frames (R824, R826). -/

section
variable (hlisten : tagListens s = true)
include hlisten

theorem reqa_of_idle_or_ready (h : s.tag.state = .idle ∨ s.tag.state = .ready) (w : Bool) :
    reqa s w = emit { s with tag := { s.tag with state := .ready } } (.tagFrame [0x04#8, 0x00#8]) := by
  rcases h with h | h
  · simp only [reqa, hlisten, h, Bool.not_true, Bool.false_eq_true, if_false, putTag]
  · simp only [reqa, hlisten, h, Bool.not_true, Bool.false_eq_true, if_false, putTag]

theorem reqa_of_halt (h : s.tag.state = .halt) : reqa s false = s ∧
    reqa s true = emit { s with tag := { s.tag with state := .ready } } (.tagFrame [0x04#8, 0x00#8]) := by
  constructor
  · simp only [reqa, hlisten, h, Bool.not_true, Bool.false_eq_true, if_false]
  · simp only [reqa, hlisten, h, Bool.not_true, Bool.false_eq_true, if_false, if_true, putTag]

theorem reqa_of_active (h : s.tag.state = .active) (w : Bool) : reqa s w = { s with tag := { s.tag with state := .idle } } := by
  simp only [reqa, otherFrame, hlisten, h, Bool.not_true, Bool.false_eq_true, if_false, putTag]

theorem anticollision_of_ready {nvb : Nat} {b : Bytes} {full : Bool} (h : s.tag.state = .ready) (hlo : 0x20 ≤ nvb) (hhi : nvb ≤ 0x70)
    (hmod : nvb % 16 < 8) : anticollision s nvb b full =
      if (sentBits (pad 5 b)).take (nvbBits nvb) ≠ (sentBits (uidBcc s.tag)).take (nvbBits nvb) then s
      else if nvb = 0x70 then
        if full then emit { s with tag := { s.tag with state := .active } } (.tagFrame [0x20#8]) else s
      else emit s (.tagBits ((sentBits (uidBcc s.tag)).drop (nvbBits nvb))) := by
  have hgo : ¬ (nvb < 0x20 ∨ 0x70 < nvb ∨ 8 ≤ nvb % 16) := by omega
  simp only [anticollision, hlisten, h, if_neg hgo, Bool.not_true, Bool.false_eq_true, if_false, putTag]

theorem hlta_of_active (h : s.tag.state = .active) : hlta s = { s with tag := { s.tag with state := .halt } } := by
  simp only [hlta, hlisten, h, Bool.not_true, Bool.false_eq_true, if_false, putTag]

theorem rats_of_active (h : s.tag.state = .active) : rats s =
    emit { s with tag := { s.tag with state := .protocol } } (.tagFrame [0x05#8, 0x78#8, 0x00#8, 0x80#8, 0x00#8]) := by
  simp only [rats, hlisten, h, Bool.not_true, Bool.false_eq_true, if_false, putTag]

theorem deselect_of_protocol (h : s.tag.state = .protocol) : deselect s =
    emit { s with tag := { s.tag with state := .halt } } (.tagFrame [0xC2#8]) := by
  simp only [deselect, hlisten, h, Bool.not_true, Bool.false_eq_true, if_false, putTag]

end

theorem length_sentBits (b : Bytes) : (sentBits b).length = 8 * b.length := by
  induction b with
  | nil => rfl
  | cons x b ih =>
    rw [sentBits, List.flatMap_cons, List.length_append, List.length_map, List.length_range, List.length_cons]
    change 8 + (sentBits b).length = _
    rw [ih]
    ring

theorem slice_zero_of_length {b : Bytes} {n : Nat} (h : b.length = n) : slice b 0 n = b := by
  unfold slice
  refine List.ext_getElem ?_ fun i _ hb => ?_
  · rw [List.length_map, List.length_range, h]
  · rw [List.getElem_map, List.getElem_range, Nat.zero_add, List.getD_eq_getElem _ _ hb]

/-- SELECT compares all forty bits (R826). -/
theorem anticollision_of_select {b : Bytes} (hlisten : tagListens s = true) (h : s.tag.state = .ready) (hb : b.length = 5)
    (huid : s.tag.uid.length = 4) : anticollision s 0x70 b true =
      if sentBits b ≠ sentBits (uidBcc s.tag) then s
      else emit { s with tag := { s.tag with state := .active } } (.tagFrame [0x20#8]) := by
  have hpad : pad 5 b = b := slice_zero_of_length hb
  have hbits : (sentBits b).take (nvbBits 0x70) = sentBits b :=
    List.take_of_length_le (by rw [length_sentBits, hb]; exact Nat.le_refl _)
  have hown : (sentBits (uidBcc s.tag)).take (nvbBits 0x70) = sentBits (uidBcc s.tag) :=
    List.take_of_length_le (by rw [length_sentBits, uidBcc, List.length_append, huid]; exact Nat.le_refl _)
  rw [anticollision_of_ready hlisten h (by decide) (Nat.le_refl _) (by decide), hpad, hbits, hown]
  rfl

/-! APDUs (R830 to R835). The checks of R832 before the command's own. -/

section
variable {cla ins p1 p2 len : Nat} {data : Bytes} {sel pOk : Bool} {body : State → State} (hlisten : tagListens s = true)
  (hstate : s.tag.state = .protocol)
include hlisten hstate

theorem apdu_of_listening : apdu s ⟨cla, ins, p1, p2, data⟩ sel pOk len body =
    if !sel && !s.tag.selected then answer s [] 0x6D00
    else if cla ≠ (if sel then 0x00 else 0x80) then answer s [] 0x6E00
    else if !pOk then answer s [] 0x6A86
    else if data.length ≠ len then answer s [] 0x6700
    else body s := by
  rw [apdu, if_neg (true_not_false hlisten), if_neg (not_not_intro hstate)]

theorem apdu_of_unselected (hsel : s.tag.selected = false) : apdu s ⟨cla, ins, p1, p2, data⟩ false pOk len body = answer s [] 0x6D00 := by
  rw [apdu_of_listening hlisten hstate, hsel]
  rfl

variable (hsel : s.tag.selected = true)
include hsel

theorem apdu_of_selected : apdu s ⟨cla, ins, p1, p2, data⟩ false pOk len body =
    if cla ≠ 0x80 then answer s [] 0x6E00 else if !pOk then answer s [] 0x6A86
    else if data.length ≠ len then answer s [] 0x6700 else body s := by
  rw [apdu_of_listening hlisten hstate, hsel]
  rfl

theorem apdu_of_good (hlen : data.length = len) : apdu s ⟨0x80, ins, p1, p2, data⟩ false true len body = body s := by
  rw [apdu_of_selected hlisten hstate hsel, if_neg (not_not_intro rfl), if_neg (true_not_false rfl), if_neg (not_not_intro hlen)]

end

theorem selectAid_of_listening (hlisten : tagListens s = true) (hstate : s.tag.state = .protocol) {data : Bytes} (hlen : data.length = 6) :
    selectAid s ⟨0, 0xA4, 4, 0, data⟩ = if data = tagAid then answer { s with tag := { s.tag with selected := true } } [] 0x9000
      else answer s [] 0x6A82 := by
  unfold selectAid
  rw [apdu_of_listening hlisten hstate, if_neg (not_not_intro hlen)]
  rfl

theorem cMacOk_of_short {key : BitVec 128} {ctr ins p2 : Nat} {data : Bytes} (hlen : data.length = 8) :
    cMacOk key ctr ⟨0x80, ins, 0, p2, data⟩ =
      decide (data = tagCmac key (be 2 ctr ++ [0x80#8, BitVec.ofNat 8 ins, 0#8, BitVec.ofNat 8 p2]) 8) := by
  have hn : data.length - 8 = 0 := by rw [hlen]
  simp only [cMacOk, hn, slice_zero_of_length hlen, List.take_zero, List.append_nil]
  rfl

/-- Check 5 of R832 for a command of the READ key. -/
theorem sessionCheck_of_read {key : BitVec 128} {ctr ins p2 : Nat} {data : Bytes} (hses : s.tag.session = some (1, key, ctr))
    (hfresh : s.tag.stale = false) (hlen : data.length = 8) : sessionCheck s ⟨0x80, ins, 0, p2, data⟩ 1 =
      if data = tagCmac key (be 2 ctr ++ [0x80#8, BitVec.ofNat 8 ins, 0#8, BitVec.ofNat 8 p2]) 8 then (true, s)
      else (false, answer { s with tag := { s.tag with session := none } } [] 0x6982) := by
  simp only [sessionCheck, hses, hfresh, cMacOk_of_short hlen, ne_eq, not_true_eq_false, Bool.false_eq_true, if_false, decide_eq_true_eq,
    putTag]

/-! Appends (R840 to R843). -/

/-- The append at the front of those that wait, once it may be taken (R841). -/
theorem takeAppend_of_front {a : TagAppend} {rest : List TagAppend} (hrun : s.tag.run = none) (hwait : s.tag.waiting = a :: rest)
    (hgo : a.reader = true ∨ (takesWork s 0x009 = true ∧ a.type ≠ 0)) :
    takeAppend s = let u := putTag s { s.tag with waiting := rest }
      if a.expect ≠ (journal u).length then endAppend u a .expect
      else if journalFull u then endAppend u a .full
      else if !mayProgram u then endAppend u a .weak
      else putTag u { u.tag with run := some a } := by
  have hwork : ¬ (!a.reader && !takesWork s tagPage) = true := by
    rcases hgo with h | ⟨h, -⟩
    · rw [h]
      exact Bool.false_ne_true
    · rw [show takesWork s tagPage = true from h, Bool.not_true, Bool.and_false]
      exact Bool.false_ne_true
  have htype : ¬ ((!a.reader) = true ∧ a.type = 0) := by
    rcases hgo with h | ⟨-, h⟩
    · exact fun hr => true_not_false h hr.1
    · exact fun hr => h hr.2
  unfold takeAppend
  rw [hrun, hwait]
  exact (if_neg hwork).trans (if_neg htype)

/-- An append that is asked for while none runs or waits is taken at once. -/
theorem requestAppend_of_idle (a : TagAppend) (hrun : s.tag.run = none) (hwait : s.tag.waiting = [])
    (hgo : a.reader = true ∨ (takesWork s 0x009 = true ∧ a.type ≠ 0)) :
    requestAppend s a = if a.expect ≠ (journal s).length then endAppend s a .expect
      else if journalFull s then endAppend s a .full
      else if !mayProgram s then endAppend s a .weak
      else putTag s { s.tag with run := some a } := by
  have hback : putTag (putTag s { s.tag with waiting := [a] }) { s.tag with waiting := [] } = s := by
    rw [← hwait]
    rfl
  have hfront := takeAppend_of_front (s := putTag s { s.tag with waiting := [a] }) (a := a) (rest := []) hrun rfl hgo
  rw [requestAppend, hwait, List.nil_append, hfront]
  change (let u := putTag (putTag s { s.tag with waiting := [a] }) { s.tag with waiting := [] }
      if a.expect ≠ (journal u).length then endAppend u a .expect
      else if journalFull u then endAppend u a .full
      else if !mayProgram u then endAppend u a .weak
      else putTag u { u.tag with run := some a }) = _
  rw [hback]

section
variable {p1 p2 : Nat} {data : Bytes} (hlisten : tagListens s = true) (hstate : s.tag.state = .protocol) (hsel : s.tag.selected = true)
include hlisten hstate hsel

/-! AUTH_BEGIN and AUTH_END (R833). -/

theorem authBegin_of_key (hp : p1 = 1 ∨ p1 = 2) : authBegin s ⟨0x80, 0x30, p1, 0, []⟩ =
    if s.tag.blocked then answer s [] 0x6983
    else answer (putTag (tagDraw s).2 { (tagDraw s).2.tag with session := none, stale := false, challenge := some (p1, (tagDraw s).1) })
      (tagDraw s).1 0x9000 := by
  have hok : decide ((p1 = 1 ∨ p1 = 2) ∧ 0 = 0) = true := decide_eq_true ⟨hp, rfl⟩
  unfold authBegin
  rw [hok]
  exact apdu_of_good hlisten hstate hsel rfl

section
variable {k : Nat} {rndT : Bytes} {key : BitVec 128} (hlen : data.length = 32) (hch : s.tag.challenge = some (k, rndT))
  (hkey : tagKey s k = some key)
include hlen hch hkey

theorem authEnd_of_good
    (hmac : slice data 16 16 = tagCmac key (ascii "ECZ-TAG" ++ [1#8] ++ rndT ++ slice data 0 16 ++ s.tag.uid) 16) :
    authEnd s ⟨0x80, 0x32, 0, 0, data⟩ = answer { s with tag := { s.tag with
        challenge := none, stale := false
        session := some (k, BitVec.ofNat 128 (unbe (tagCmac key ([3#8] ++ rndT ++ slice data 0 16) 16)), 0) } }
      (tagCmac key (ascii "ECZ-TAG" ++ [2#8] ++ slice data 0 16 ++ rndT ++ s.tag.uid) 16) 0x9000 := by
  have hkey' : tagKey (putTag s { s.tag with challenge := none }) k = some key := hkey
  refine (apdu_of_good hlisten hstate hsel hlen).trans ?_
  simp only [hch, hkey', ne_eq]
  exact if_neg (not_not_intro hmac)

theorem authEnd_of_bad
    (hmac : slice data 16 16 ≠ tagCmac key (ascii "ECZ-TAG" ++ [1#8] ++ rndT ++ slice data 0 16 ++ s.tag.uid) 16) :
    (authEnd s ⟨0x80, 0x32, 0, 0, data⟩).tag.blocked = true ∧ (authEnd s ⟨0x80, 0x32, 0, 0, data⟩).tag.challenge = none ∧
      (authEnd s ⟨0x80, 0x32, 0, 0, data⟩).tag.session = s.tag.session ∧
      Output.tagFrame [0x69#8, 0x82#8] ∈ (authEnd s ⟨0x80, 0x32, 0, 0, data⟩).out := by
  have hkey' : tagKey (putTag s { s.tag with challenge := none }) k = some key := hkey
  have hfail : authEnd s ⟨0x80, 0x32, 0, 0, data⟩ = answer (tagEvent (putTag s { s.tag with
      challenge := none, blocked := true, authFails := if vinPresent s then sat 255 (s.tag.authFails + 1) else s.tag.authFails }) 19)
      [] 0x6982 := by
    refine (apdu_of_good hlisten hstate hsel hlen).trans ?_
    simp only [hch, hkey', ne_eq]
    exact if_pos hmac
  have htag : ∀ u : State, (answer (tagEvent u 19) [] 0x6982).tag = u.tag := fun u => (unitWork_tagEvent u 19).tag
  rw [hfail, htag]
  exact ⟨rfl, rfl, rfl, List.mem_append_right _ List.mem_cons_self⟩

end

/-! Commands of a session (R833, R835, R842). -/

theorem readIdentity_of_no_session (hlen : data.length = 8) (hnone : s.tag.session = none) :
    readIdentity s ⟨0x80, 0x40, 0, 0, data⟩ = answer s [] 0x6982 := by
  refine (apdu_of_good hlisten hstate hsel hlen).trans ?_
  simp only [sessionCheck, hnone, Bool.not_false, if_true]

section
variable {key : BitVec 128} {ctr : Nat} (hses : s.tag.session = some (1, key, ctr)) (hfresh : s.tag.stale = false) (hlen : data.length = 8)
include hses hfresh hlen

theorem readIdentity_of_good (hmac : data = tagCmac key (be 2 ctr ++ [0x80#8, 0x40#8, 0#8, 0#8]) 8) :
    readIdentity s ⟨0x80, 0x40, 0, 0, data⟩ = raiseCtr (answer s (identityBytes s ++ rMac key ctr (identityBytes s)) 0x9000) := by
  refine (apdu_of_good hlisten hstate hsel hlen).trans ?_
  rw [sessionCheck_of_read hses hfresh hlen, if_pos hmac]
  simp only [answerMac, sessionCtr, hses, Bool.not_true, Bool.false_eq_true, if_false]

theorem readIdentity_of_bad (hmac : data ≠ tagCmac key (be 2 ctr ++ [0x80#8, 0x40#8, 0#8, 0#8]) 8) :
    readIdentity s ⟨0x80, 0x40, 0, 0, data⟩ = answer { s with tag := { s.tag with session := none } } [] 0x6982 := by
  refine (apdu_of_good hlisten hstate hsel hlen).trans ?_
  rw [sessionCheck_of_read hses hfresh hlen, if_neg hmac]
  rfl

theorem readMoorLog_of_good {e : Bytes} (hp : p2 < 16)
    (hmac : data = tagCmac key (be 2 ctr ++ [0x80#8, 0x42#8, 0#8, BitVec.ofNat 8 p2]) 8) (he : s.mooring.log[p2]? = some e) :
    readMoorLog s ⟨0x80, 0x42, 0, p2, data⟩ = raiseCtr (answer s (e ++ rMac key ctr e) 0x9000) := by
  have hok : decide (0 = 0 ∧ p2 < 16) = true := decide_eq_true ⟨rfl, hp⟩
  unfold readMoorLog
  rw [hok]
  refine (apdu_of_good hlisten hstate hsel hlen).trans ?_
  rw [sessionCheck_of_read hses hfresh hlen, if_pos hmac]
  simp only [answerMac, sessionCtr, hses, he, Bool.not_true, Bool.false_eq_true, if_false]

end

section
variable {key : BitVec 128} {ctr : Nat} (hses : s.tag.session = some (2, key, ctr)) (hfresh : s.tag.stale = false) (hlen : data.length = 37)
  (hmac : slice data 29 8 = tagCmac key (be 2 ctr ++ [0x80#8, 0x50#8, 0#8, 0#8] ++ data.take 29) 8)
include hses hfresh hlen hmac

theorem readerAppend_of_session : readerAppend s ⟨0x80, 0x50, 0, 0, data⟩ = requestAppend s {
      expect := field data 0 4, type := field data 4 1, payload := slice data 5 24, reader := true, ctr := ctr } := by
  have hn : data.length - 8 = 29 := by rw [hlen]
  have hok : sessionCheck s ⟨0x80, 0x50, 0, 0, data⟩ 2 = (true, s) := by
    have hcmac : cMacOk key ctr ⟨0x80, 0x50, 0, 0, data⟩ = true := by
      simp only [cMacOk, hn]
      exact decide_eq_true hmac
    simp only [sessionCheck, hses, hfresh, hcmac, ne_eq, not_true_eq_false, Bool.false_eq_true, if_false, if_true]
  refine (apdu_of_good hlisten hstate hsel hlen).trans ?_
  simp only [hok, sessionCtr, hses, Bool.not_true, Bool.false_eq_true, if_false]

end

end

theorem endAppend_of_expect {a : TagAppend} (hrun : s.tag.run = none) (ha : a.reader = true) :
    endAppend s a .expect = raiseCtr (answer s [] 0x6A80) := by
  have hback : putTag s { s.tag with run := none } = s := by rw [putTag, ← hrun]
  have hend : endAppend s a .expect = raiseCtr (answer (putTag s { s.tag with run := none }) [] 0x6A80) := if_pos ha
  rw [hend, hback]

/-! Steps of an append and the registers (R836, R838, R840, R843). -/

theorem mayProgram_of_strong (hfield : s.tag.field = true) (hstrong : s.tag.strong = true) : mayProgram s = true := by
  rw [mayProgram, hfield, hstrong]
  exact Bool.or_true _

theorem mayProgram_of_vin (h : vinPresent s = true) : mayProgram s = true := by
  rw [mayProgram, h]
  rfl

theorem appendStep_of_first {a : TagAppend} (hrun : s.tag.run = some a) (hstep : a.step = 1) (hmay : mayProgram s = true) :
    appendStep s = putTag s { s.tag with
      slots := s.tag.slots ++ [recordBody s a ++ List.replicate 16 0xFF#8], run := some { a with step := 2 } } := by
  unfold appendStep
  rw [hrun]
  simp only [hmay, hstep, Bool.not_true, Bool.false_eq_true, if_false]

theorem deviceAppend_of_go {v : Word32} (hgo : v.getLsbD 31 = true) (hstate : s.tag.appState ≠ 1) : deviceAppend s v =
    requestAppend { s with tag := { s.tag with appType := v.toNat % 256, appState := 1 } } {
      expect := s.tag.appExpect.toNat, type := v.toNat % 256
      payload := (List.range 6).flatMap fun p => le 4 (tget 0 s.tag.appData p).toNat } := by
  refine if_neg ?_
  rw [hgo]
  exact fun h => h.elim Bool.false_ne_true hstate

theorem writeTagKey_of_read {v : Word32} (hgo : v.getLsbD 31 = true) (hset : v.getLsbD 2 = false) (hlock : (unitAt s 0x009).lock = false)
    (hlc : lifecycle s ≠ 3) (hid : v.toNat % 4 = 1) : (writeTagKey s v).tag.kJournal = s.tag.kJournal ∧ (writeTagKey s v).tag.keyWords = [] ∧
      (writeTagKey s v).tag.kRead = some (BitVec.ofNat 128 (unbe ((List.range 4).flatMap fun p => le 4 (tget 0 s.tag.keyWords p).toNat))) ∧
      (writeTagKey s v).tag.slots = s.tag.slots ∧ (writeTagKey s v).jobs = s.jobs := by
  unfold writeTagKey
  extract_lets t0 t u k key same t'
  have hno : ¬ ((!v.getLsbD 31) = true ∨ (unitAt u tagPage).lock = true ∨ lifecycle u = 3) := by
    rw [hgo]
    rintro (h | h | h)
    · exact Bool.false_ne_true h
    · exact Bool.false_ne_true (hlock.symm.trans h)
    · exact hlc h
  have hid' : t'.keyId = 1 := hid
  have hkey : key = some (BitVec.ofNat 128 (unbe k)) := if_neg (by
    rw [show t.keyClear = false from hset]
    exact Bool.false_ne_true)
  rw [if_neg hno]
  simp only [hid', hkey]
  exact ⟨rfl, rfl, rfl, rfl, rfl⟩

theorem writeTagKey_of_locked {v : Word32} (h : (unitAt s 0x009).lock = true ∨ lifecycle s = 3) : (writeTagKey s v).tag.kRead = s.tag.kRead ∧
    (writeTagKey s v).tag.kJournal = s.tag.kJournal ∧ (writeTagKey s v).tag.keyWords = s.tag.keyWords := by
  have hkeep : writeTagKey s v = putTag s { s.tag with keyId := v.toNat % 4, keyClear := v.getLsbD 2 } := if_pos (.inr h)
  rw [hkeep]
  exact ⟨rfl, rfl, rfl⟩

theorem clearJournal_of_key {v : Word32} (hkey : v.toNat % 2 ^ 16 = 0xC1E7) (hlc : lifecycle s < 2) (hrun : s.tag.run = none) :
    clearJournal s v = { s with tag := { s.tag with slots := [] } } := by
  refine (if_neg fun h => h.elim (fun h => h hkey) (Nat.not_le.mpr hlc)).trans ?_
  simp only [hrun, Option.map_none, putTag]

end

/-- The field and the ISO 14443-3 frames. -/
theorem tagFrames (nvb p : Nat) (b : Bytes) (s : State) :
    (s.tag.field = false → ∃ t, exec .fieldOn s = .next t ∧ t.tag.field = true ∧ t.tag.state = .idle ∧ t.tag.wake = true ∧
      t.tag.uid = 0x08#8 :: slice (tagBlock s.tag.seed s.tag.counter) 0 3 ∧ t.tag.counter = (s.tag.counter + 2 ^ 16) % 2 ^ 64 ∧
      t.tag.session = none ∧ t.tag.slots = s.tag.slots ∧ t.jobs = s.jobs) ∧
    (s.tag.field = true → exec .fieldOn s = .next s) ∧
    (s.tag.field = true → s.tag.run = none → (∀ a ∈ s.tag.waiting, a.reader = true) → ∃ t, exec .fieldOff s = .next t ∧
      t.tag.field = false ∧ t.tag.state = .idle ∧ t.tag.uid = [] ∧ t.tag.selected = false ∧ t.tag.session = none ∧
      t.tag.challenge = none ∧ t.tag.slots = s.tag.slots ∧ t.jobs = s.jobs) ∧
    (s.tag.field = false → exec .fieldOff s = .next s ∧
      exec .fdWakeRelease s = .next { s with tag := { s.tag with wake := false } }) ∧
    (s.tag.field = true → exec .fdWakeRelease s = .next s) ∧
    (tagListens s = true → s.tag.state = .idle ∨ s.tag.state = .ready → ∀ c ∈ [Instr.reqa, .wupa], exec c s =
      .next (emit { s with tag := { s.tag with state := .ready } } (.tagFrame [0x04#8, 0x00#8]))) ∧
    (tagListens s = true → s.tag.state = .halt → exec .reqa s = .next s ∧ exec .wupa s =
      .next (emit { s with tag := { s.tag with state := .ready } } (.tagFrame [0x04#8, 0x00#8]))) ∧
    (tagListens s = true → s.tag.state = .active → ∀ c ∈ [Instr.reqa, .wupa],
      exec c s = .next { s with tag := { s.tag with state := .idle } }) ∧
    (tagListens s = true → s.tag.state = .ready → 0x20 ≤ nvb → nvb < 0x70 → nvb % 16 < 8 →
      ((sentBits (pad 5 b)).take (nvbBits nvb) = (sentBits (uidBcc s.tag)).take (nvbBits nvb) →
        exec (.anticollision nvb b) s = .next (emit s (.tagBits ((sentBits (uidBcc s.tag)).drop (nvbBits nvb))))) ∧
      ((sentBits (pad 5 b)).take (nvbBits nvb) ≠ (sentBits (uidBcc s.tag)).take (nvbBits nvb) →
        exec (.anticollision nvb b) s = .next s)) ∧
    (tagListens s = true → s.tag.state = .ready → b.length = 5 → s.tag.uid.length = 4 →
      (b = uidBcc s.tag → exec (.select 0x70 b true) s =
        .next (emit { s with tag := { s.tag with state := .active } } (.tagFrame [0x20#8]))) ∧
      (sentBits b ≠ sentBits (uidBcc s.tag) → exec (.select 0x70 b true) s = .next s)) ∧
    (tagListens s = true → s.tag.state = .active →
      exec (.hlta true) s = .next { s with tag := { s.tag with state := .halt } } ∧
      (p < 256 → exec (.rats p true) s = .next (emit { s with tag := { s.tag with state := .protocol } }
        (.tagFrame [0x05#8, 0x78#8, 0x00#8, 0x80#8, 0x00#8])))) ∧
    (tagListens s = true → s.tag.state = .protocol →
      exec (.sDeselect true) s = .next (emit { s with tag := { s.tag with state := .halt } } (.tagFrame [0xC2#8]))) ∧
    (tagListens s = false → ∀ ok, ∀ c ∈ [Instr.reqa, .wupa, .anticollision nvb b, .select nvb b ok, .hlta ok, .rats p ok,
      .sDeselect ok], exec c s = .next s) ∧
    (∀ c ∈ [Instr.select nvb b false, .hlta false, .rats p false, .sDeselect false], exec c s = .next s) := by
  refine ⟨fun h => ⟨fieldOn s, rfl, fieldOn_fields h⟩, fun h => congrArg Host.Outcome.next (if_pos h),
    fun h hrun hwait => ⟨fieldOff s, rfl, fieldOff_fields h hrun hwait⟩, fun h => ⟨congrArg Host.Outcome.next (if_pos (not_true_of_false h)), ?_⟩,
    fun h => congrArg Host.Outcome.next (if_pos h), fun hlisten h => ?_, fun hlisten h => ?_, fun hlisten h => ?_,
    fun hlisten h hlo hhi hmod => ?_, fun hlisten h hb huid => ?_, fun hlisten h => ⟨?_, fun hp => ?_⟩, fun hlisten h => ?_,
    fun h ok => ?_, ?_⟩
  · refine congrArg Host.Outcome.next (if_neg ?_)
    rw [h]
    exact Bool.false_ne_true
  · simp only [List.forall_mem_cons, List.not_mem_nil, IsEmpty.forall_iff, implies_true, and_true]
    exact ⟨congrArg Host.Outcome.next (reqa_of_idle_or_ready hlisten h false),
      congrArg Host.Outcome.next (reqa_of_idle_or_ready hlisten h true)⟩
  · obtain ⟨hreqa, hwupa⟩ := reqa_of_halt hlisten h
    exact ⟨congrArg Host.Outcome.next hreqa, congrArg Host.Outcome.next hwupa⟩
  · simp only [List.forall_mem_cons, List.not_mem_nil, IsEmpty.forall_iff, implies_true, and_true]
    exact ⟨congrArg Host.Outcome.next (reqa_of_active hlisten h false), congrArg Host.Outcome.next (reqa_of_active hlisten h true)⟩
  · have hready := anticollision_of_ready (b := b) (full := false) hlisten h hlo (Nat.le_of_lt hhi) hmod
    exact ⟨fun hsame => congrArg Host.Outcome.next (hready.trans ((if_neg (not_not_intro hsame)).trans (if_neg (Nat.ne_of_lt hhi)))),
      fun hne => congrArg Host.Outcome.next (hready.trans (if_pos hne))⟩
  · have hselect := anticollision_of_select hlisten h hb huid
    exact ⟨fun hsame => congrArg Host.Outcome.next (hselect.trans (if_neg (not_not_intro (congrArg sentBits hsame)))),
      fun hne => congrArg Host.Outcome.next (hselect.trans (if_pos hne))⟩
  · exact congrArg Host.Outcome.next (hlta_of_active hlisten h)
  · exact congrArg Host.Outcome.next ((if_pos ⟨rfl, hp⟩).trans (rats_of_active hlisten h))
  · exact congrArg Host.Outcome.next (deselect_of_protocol hlisten h)
  · have hno := not_true_of_false h
    simp only [List.forall_mem_cons, List.not_mem_nil, IsEmpty.forall_iff, implies_true, and_true]
    have hsel : anticollision s nvb b true = s := if_pos hno
    have hhlta : hlta s = s := if_pos hno
    have hrats : rats s = s := if_pos hno
    have hdes : deselect s = s := if_pos hno
    refine ⟨congrArg Host.Outcome.next (if_pos hno), congrArg Host.Outcome.next (if_pos hno), congrArg Host.Outcome.next (if_pos hno),
      congrArg Host.Outcome.next ?_, congrArg Host.Outcome.next ?_, congrArg Host.Outcome.next ?_, congrArg Host.Outcome.next ?_⟩
    · rw [hsel]
      exact ite_self s
    · rw [hhlta]
      exact ite_self s
    · rw [hrats]
      exact ite_self s
    · rw [hdes]
      exact ite_self s
  · simp only [List.forall_mem_cons, List.not_mem_nil, IsEmpty.forall_iff, implies_true, and_true]
    exact ⟨rfl, rfl, congrArg Host.Outcome.next (if_neg fun h => Bool.false_ne_true h.1), rfl⟩

/-- APDUs once the application is selected (R830 to R835, R842). -/
theorem tagApdus (p1 p2 : Nat) (data : Bytes) (s : State) (hlisten : tagListens s = true) (hstate : s.tag.state = .protocol)
    (hsel : s.tag.selected = true) :
        exec (.getEvidence 0x80 0 0 []) s = .next (answer s (evidenceBytes s) 0x9000) ∧
        exec (.getEvidence 0x00 0 0 []) s = .next (answer s [] 0x6E00) ∧
        exec (.getEvidence 0x80 1 0 []) s = .next (answer s [] 0x6A86) ∧
        exec (.getEvidence 0x80 0 0 [0]) s = .next (answer s [] 0x6700) ∧
        (∀ r, (journal s)[256 * p1 + p2]? = some r → exec (.readJournal 0x80 p1 p2 []) s = .next (answer s r 0x9000)) ∧
        ((journal s)[256 * p1 + p2]? = none → exec (.readJournal 0x80 p1 p2 []) s = .next (answer s [] 0x6A82)) ∧
        (s.tag.blocked = false → p1 = 1 ∨ p1 = 2 → ∃ t rnd, exec (.authBegin 0x80 p1 0 []) s = .next t ∧
          rnd = tagBlock s.tag.seed s.tag.genNext ∧ t.tag.challenge = some (p1, rnd) ∧ t.tag.session = none ∧
          Output.tagFrame (rnd ++ [0x90#8, 0x00#8]) ∈ t.out ∧ t.jobs = s.jobs) ∧
        (s.tag.blocked = true → p1 = 1 ∨ p1 = 2 → exec (.authBegin 0x80 p1 0 []) s = .next (answer s [] 0x6983)) ∧
        (∀ k rndT key, data.length = 32 → s.tag.challenge = some (k, rndT) → tagKey s k = some key →
          (slice data 16 16 = tagCmac key (ascii "ECZ-TAG" ++ [1#8] ++ rndT ++ slice data 0 16 ++ s.tag.uid) 16 →
            exec (.authEnd 0x80 0 0 data) s = .next (answer { s with tag := { s.tag with
              challenge := none, stale := false
              session := some (k, BitVec.ofNat 128 (unbe (tagCmac key ([3#8] ++ rndT ++ slice data 0 16) 16)), 0) } }
              (tagCmac key (ascii "ECZ-TAG" ++ [2#8] ++ slice data 0 16 ++ rndT ++ s.tag.uid) 16) 0x9000)) ∧
          (slice data 16 16 ≠ tagCmac key (ascii "ECZ-TAG" ++ [1#8] ++ rndT ++ slice data 0 16 ++ s.tag.uid) 16 →
            ∃ t, exec (.authEnd 0x80 0 0 data) s = .next t ∧ t.tag.blocked = true ∧ t.tag.challenge = none ∧
              t.tag.session = s.tag.session ∧ Output.tagFrame [0x69#8, 0x82#8] ∈ t.out)) ∧
        (∀ key ctr, s.tag.session = some (1, key, ctr) → s.tag.stale = false → data.length = 8 →
          (data = tagCmac key (be 2 ctr ++ [0x80#8, 0x40#8, 0#8, 0#8]) 8 → exec (.readIdentity 0x80 0 0 data) s =
            .next (raiseCtr (answer s (identityBytes s ++ rMac key ctr (identityBytes s)) 0x9000))) ∧
          (data ≠ tagCmac key (be 2 ctr ++ [0x80#8, 0x40#8, 0#8, 0#8]) 8 → exec (.readIdentity 0x80 0 0 data) s =
            .next (answer { s with tag := { s.tag with session := none } } [] 0x6982)) ∧
          (∀ e, p2 < 16 → data = tagCmac key (be 2 ctr ++ [0x80#8, 0x42#8, 0#8, BitVec.ofNat 8 p2]) 8 → s.mooring.log[p2]? = some e →
            exec (.readMoorLog 0x80 0 p2 data) s = .next (raiseCtr (answer s (e ++ rMac key ctr e) 0x9000)))) ∧
        (s.tag.session = none → data.length = 8 → exec (.readIdentity 0x80 0 0 data) s = .next (answer s [] 0x6982)) ∧
        (∀ key ctr, s.tag.session = some (2, key, ctr) → s.tag.stale = false → data.length = 37 →
          slice data 29 8 = tagCmac key (be 2 ctr ++ [0x80#8, 0x50#8, 0#8, 0#8] ++ data.take 29) 8 → s.tag.run = none →
          s.tag.waiting = [] →
          (field data 0 4 = (journal s).length → journalFull s = false → mayProgram s = true →
            exec (.append 0x80 0 0 data) s = .next { s with tag := { s.tag with run := some {
              expect := field data 0 4, type := field data 4 1, payload := slice data 5 24, reader := true, ctr := ctr } } }) ∧
          (field data 0 4 ≠ (journal s).length →
            exec (.append 0x80 0 0 data) s = .next (raiseCtr (answer s [] 0x6A80)))) := by
  refine ⟨?_, ?_, ?_, ?_, fun r hr => ?_, fun hr => ?_, fun hfree hp => ?_, fun hblocked hp => ?_, fun k rndT key hlen hch hkey => ?_,
    fun key ctr hses hfresh hlen => ?_, fun hnone hlen => congrArg Host.Outcome.next (readIdentity_of_no_session hlisten hstate hsel hlen hnone),
    fun key ctr hses hfresh hlen hmac hrun hwait => ?_⟩
  · exact congrArg Host.Outcome.next (apdu_of_good hlisten hstate hsel rfl)
  · exact congrArg Host.Outcome.next ((apdu_of_selected hlisten hstate hsel).trans (if_pos (by decide)))
  · exact congrArg Host.Outcome.next (apdu_of_selected hlisten hstate hsel)
  · exact congrArg Host.Outcome.next (apdu_of_selected hlisten hstate hsel)
  · refine congrArg Host.Outcome.next ((apdu_of_good hlisten hstate hsel rfl).trans ?_)
    simp only [hr]
  · refine congrArg Host.Outcome.next ((apdu_of_good hlisten hstate hsel rfl).trans ?_)
    simp only [hr]
  · have hauth := authBegin_of_key hlisten hstate hsel hp
    rw [hfree, if_neg Bool.false_ne_true] at hauth
    exact ⟨_, _, congrArg Host.Outcome.next hauth, rfl, rfl, rfl, List.mem_append_right _ List.mem_cons_self, rfl⟩
  · exact congrArg Host.Outcome.next ((authBegin_of_key hlisten hstate hsel hp).trans (if_pos hblocked))
  · exact ⟨fun hmac => congrArg Host.Outcome.next (authEnd_of_good hlisten hstate hsel hlen hch hkey hmac),
      fun hmac => ⟨_, rfl, authEnd_of_bad hlisten hstate hsel hlen hch hkey hmac⟩⟩
  · exact ⟨fun hmac => congrArg Host.Outcome.next (readIdentity_of_good hlisten hstate hsel hses hfresh hlen hmac),
      fun hmac => congrArg Host.Outcome.next (readIdentity_of_bad hlisten hstate hsel hses hfresh hlen hmac),
      fun e hp hmac he => congrArg Host.Outcome.next (readMoorLog_of_good hlisten hstate hsel hses hfresh hlen hp hmac he)⟩
  · have happ := (readerAppend_of_session hlisten hstate hsel hses hfresh hlen hmac).trans (requestAppend_of_idle _ hrun hwait (.inl rfl))
    refine ⟨fun hexp hfull hmay => congrArg Host.Outcome.next (happ.trans ?_), fun hexp => congrArg Host.Outcome.next (happ.trans ?_)⟩
    · rw [if_neg (not_not_intro hexp), hfull, hmay]
      rfl
    · exact (if_pos hexp).trans (endAppend_of_expect hrun rfl)

/-- The steps of an append and the registers of the tag (R836 to R843). -/
theorem tagRegisters (acc : Acc) (v : Word32) (s : State) :
    (s.tag.field = true → s.tag.run = none → ∀ b, exec (.appendResume b) s =
      .next { s with tag := { s.tag with strong := b } }) ∧
    (∀ a, s.tag.field = true → s.tag.run = some a → a.step = 1 → ∃ t, exec (.appendResume true) s = .next t ∧
      t.tag.run = some { a with step := 2 } ∧ t.tag.slots = s.tag.slots ++ [recordBody s a ++ List.replicate 16 0xFF#8] ∧
      t.jobs = s.jobs) ∧
    (∀ b, s.tag.field = false → exec (.appendResume b) s = .next s) ∧
    (reaches s acc 0x009 = true → v.getLsbD 31 = true → s.tag.appState ≠ 1 → s.tag.run = none → s.tag.waiting = [] →
      takesWork s 0x009 = true → vinPresent s = true → v.toNat % 256 ≠ 0 → s.tag.appExpect.toNat = (journal s).length →
      journalFull s = false → ∃ t a, exec (.deviceAppend acc v) s = .next t ∧ t.tag.appState = 1 ∧ t.tag.run = some a ∧
        a.type = v.toNat % 256 ∧ a.reader = false ∧ a.payload = (List.range 6).flatMap (fun p => le 4 (tget 0 s.tag.appData p).toNat) ∧
        t.tag.slots = s.tag.slots ∧ t.jobs = s.jobs) ∧
    (reaches s acc 0x009 = true → v.getLsbD 31 = true → v.getLsbD 2 = false → (unitAt s 0x009).lock = false → lifecycle s ≠ 3 →
      v.toNat % 4 = 1 → ∃ t, exec (.tagKeyWrite acc v) s = .next t ∧ t.tag.kJournal = s.tag.kJournal ∧ t.tag.keyWords = [] ∧
        t.tag.kRead = some (BitVec.ofNat 128 (unbe ((List.range 4).flatMap fun p => le 4 (tget 0 s.tag.keyWords p).toNat))) ∧
        t.tag.slots = s.tag.slots ∧ t.jobs = s.jobs) ∧
    (reaches s acc 0x009 = true → (unitAt s 0x009).lock = true ∨ lifecycle s = 3 → ∃ t, exec (.tagKeyWrite acc v) s = .next t ∧
      t.tag.kRead = s.tag.kRead ∧ t.tag.kJournal = s.tag.kJournal ∧ t.tag.keyWords = s.tag.keyWords) ∧
    (reaches s acc 0x009 = true → v.toNat % 2 ^ 16 = 0xC1E7 → lifecycle s < 2 → s.tag.run = none → exec (.tagJrnlClr acc v) s =
      .next { s with tag := { s.tag with slots := [] } }) ∧
    (v.toNat % 2 ^ 16 ≠ 0xC1E7 ∨ 2 ≤ lifecycle s → exec (.tagJrnlClr acc v) s = .next s) ∧
    (reaches s acc 0x009 = false → exec (.deviceAppend acc v) s = .next s ∧ exec (.tagKeyWrite acc v) s = .next s ∧
      exec (.tagJrnlClr acc v) s = .next s) := by
  have hunreached (h : reaches s acc 0x009 = false) (t : State) : (if reaches s acc tagPage then t else s) = s :=
    if_neg (by rw [show reaches s acc tagPage = false from h]; exact Bool.false_ne_true)
  refine ⟨fun hfield hrun b => ?_, fun a hfield hrun hstep => ?_, fun b hfield => ?_, fun hreach hgo hstate hrun hwait hwork hvin htype hexp hfull => ?_,
    fun hreach hgo hset hlock hlc hid => ⟨_, congrArg Host.Outcome.next (if_pos hreach), writeTagKey_of_read hgo hset hlock hlc hid⟩,
    fun hreach h => ⟨_, congrArg Host.Outcome.next (if_pos hreach), writeTagKey_of_locked h⟩,
    fun hreach hkey hlc hrun => congrArg Host.Outcome.next ((if_pos hreach).trans (clearJournal_of_key hkey hlc hrun)), fun h => ?_,
    fun h => ⟨congrArg Host.Outcome.next (hunreached h _), congrArg Host.Outcome.next (hunreached h _), congrArg Host.Outcome.next (hunreached h _)⟩⟩
  · refine congrArg Host.Outcome.next ((if_pos hfield).trans (if_neg fun h => ?_))
    rw [putTag, hrun] at h
    exact Bool.false_ne_true h.2
  · have hstep' := appendStep_of_first (s := putTag s { s.tag with strong := true }) hrun hstep (mayProgram_of_strong hfield rfl)
    have hgo : (true = true ∧ (putTag s { s.tag with strong := true }).tag.run.isSome = true) :=
      ⟨rfl, (congrArg Option.isSome hrun).trans rfl⟩
    exact ⟨_, congrArg Host.Outcome.next ((if_pos hfield).trans ((if_pos hgo).trans hstep')), rfl, rfl, rfl⟩
  · exact congrArg Host.Outcome.next (if_neg (by rw [hfield]; exact Bool.false_ne_true))
  · have hreq := requestAppend_of_idle (s := { s with tag := { s.tag with appType := v.toNat % 256, appState := 1 } }) {
        expect := s.tag.appExpect.toNat, type := v.toNat % 256
        payload := (List.range 6).flatMap fun p => le 4 (tget 0 s.tag.appData p).toNat } hrun hwait (.inr ⟨hwork, htype⟩)
    have hfull' : ¬ journalFull { s with tag := { s.tag with appType := v.toNat % 256, appState := 1 } } = true := fun h =>
      Bool.false_ne_true (hfull.symm.trans h)
    have hmay : mayProgram { s with tag := { s.tag with appType := v.toNat % 256, appState := 1 } } = true :=
      mayProgram_of_vin hvin
    have htake := hreq.trans ((if_neg (not_not_intro hexp)).trans ((if_neg hfull').trans (if_neg (true_not_false hmay))))
    exact ⟨_, _, congrArg Host.Outcome.next ((if_pos hreach).trans ((deviceAppend_of_go hgo hstate).trans htake)), rfl, rfl, rfl, rfl, rfl, rfl,
      rfl⟩
  · refine congrArg Host.Outcome.next ?_
    rw [show clearJournal s v = s from if_pos h]
    exact ite_self s

/-- Settles O57: the frames of the tag, its APDUs and its registers. -/
theorem tagFramesApdusAndJournal : Obligations.TagFramesApdusAndJournal := by
  refine ⟨tagFrames, fun acc p1 p2 data v s => ⟨fun hlisten hstate => ?_, tagRegisters acc v s⟩⟩
  refine ⟨congrArg Host.Outcome.next (selectAid_of_listening hlisten hstate rfl), fun hlen hne => ?_, fun hsel cla => ?_,
    tagApdus p1 p2 data s hlisten hstate⟩
  · exact congrArg Host.Outcome.next ((selectAid_of_listening hlisten hstate hlen).trans (if_neg hne))
  · simp only [List.forall_mem_cons, List.not_mem_nil, IsEmpty.forall_iff, implies_true, and_true]
    have hno := fun (ins : Nat) (pOk : Bool) (len : Nat) (body : State → State) =>
      congrArg (Host.Outcome.next (φ := Fault) (ρ := Refusal)) (apdu_of_unselected (cla := cla) (ins := ins) (p1 := p1) (p2 := p2) (data := data) (pOk := pOk) (len := len)
        (body := body) hlisten hstate hsel)
    exact ⟨hno _ _ _ _, hno _ _ _ _, hno _ _ _ _, hno _ _ _ _, hno _ _ _ _, hno _ _ _ _, hno _ _ _ _⟩

end Sys2Proof.Machine


/-! PROOF. O58: power states, start-up and staging (R865 to R875, R888). -/

namespace Sys2Proof.Machine

section
variable {s t : State} {straps : Nat}

theorem UnitWork.sig (h : UnitWork s t) : t.sig = s.sig := by rw [h.frame]

theorem requestStandby_of_running (h : s.power.state = .run ∨ s.power.state = .idle) : requestStandby s =
    if standbyCheck s = 0 then standbyNow { s with power := { s.power with result := standbyCheck s } }
    else { s with power := { s.power with result := standbyCheck s } } := by
  refine if_neg fun hno => ?_
  rcases h with h | h <;> rw [h] at hno <;> exact absurd hno (by decide)

theorem setPower_fields (s : State) (p : PState) : (setPower s p).power.state = p ∧ (setPower s p).sig = s.sig := by
  have h := unitWork_setEvent { s with power := { s.power with state := p, quietSince := s.cycles } } 0 17
  exact ⟨congrArg Power.state h.power, h.sig⟩

theorem standbyNow_fields (s : State) : (standbyNow s).power.state = .standby ∧ (standbyNow s).sig.tables = [] := by
  unfold standbyNow
  extract_lets s1 s2 l1
  refine ⟨(setPower_fields _ _).1, ?_⟩
  rw [(setPower_fields _ _).2]

theorem deviceStart_of_no_reset {k : Nat} {u : State} (h : startOnce s k straps = (u, false)) : deviceStart s k straps = u := by
  rw [deviceStart, h]
  rfl

/-- A start-up ends early when the strap test is on, or when no half of the flash is valid (R872). -/
theorem startOnce_of_choice {k : Nat} {u : State} {h : Option Nat} {f : Bool}
    (hchoose : chooseHalf (bootMooring (reburnMarginal
      (sampleStraps { resetBase s with power := { (resetBase s).power with cause := k } } straps))) = (h, f, u)) :
    (u.power.strapTest = true → startOnce s k straps = (setUState u 0 .starting, false)) ∧
    (u.power.strapTest = false → h = none → startOnce s k straps = (setUState u 0 .faulted, false)) := by
  constructor
  · intro htest
    simp only [startOnce, hchoose, htest, if_true]
  · rintro htest rfl
    simp only [startOnce, hchoose, htest, Bool.false_eq_true, if_false]

theorem stageFirmware_fields (s : State) (ok : Bool) (data : Bytes) :
    (stageFirmware s ok data).power = { s.power with
      fwState := 2, fwResult := stageResult s ok (slice data 0 s.power.stageLen.toNat)
      staged := if stageResult s ok (slice data 0 s.power.stageLen.toNat) = 0 then some (slice data 0 s.power.stageLen.toNat)
        else s.power.staged } ∧ (stageFirmware s ok data).jobs = s.jobs ∧ (stageFirmware s ok data).otp = s.otp := by
  unfold stageFirmware
  extract_lets b r staged
  have h := unitWork_setEvent { s with power := { s.power with fwState := 2, fwResult := r, staged := staged } } 0 18
  exact ⟨h.power, h.jobs, h.otp⟩

theorem stageResult_fwGo (s : State) (ok : Bool) (b : Bytes) : stageResult (fwGo s) ok b = stageResult s ok b := by
  unfold fwGo
  split
  · rfl
  · rfl

theorem fwGo_fields (s : State) : (fwGo s).power = { s.power with fwState := (fwGo s).power.fwState } ∧ (fwGo s).jobs = s.jobs ∧
    (fwGo s).otp = s.otp := by
  unfold fwGo
  split
  · exact ⟨rfl, rfl, rfl⟩
  · exact ⟨rfl, rfl, rfl⟩

end

/-- Settles O58: each command by the cases of its rule. -/
theorem powerAndStartUp : Obligations.PowerAndStartUp := by
  unfold Obligations.PowerAndStartUp
  intro acc ok data straps s
  have hnext {t u : State} (h : t = u) : (Host.Outcome.next t : Host.Outcome State Fault Refusal) = .next u := congrArg _ h
  refine ⟨fun hrun hen hquiet hdelay => hnext (if_pos ⟨hrun, hen, hquiet, hdelay⟩), fun h => hnext (if_neg ?_), fun hreach hstate => ?_,
    fun h => ?_, standbyNow_fields, fun hreach h => hnext ((if_pos hreach).trans (if_neg (not_not_intro h))), fun h => ?_,
    fun h => hnext (if_pos (h.imp_right not_true_of_false)), fun hne hready => hnext (if_neg ?_), fun b h => hnext (if_neg h),
    fun b h => hnext (if_pos h), fun k u => deviceStart_of_no_reset, fun k u h f => startOnce_of_choice,
    ⟨rfl, rfl, rfl, rfl, rfl, rfl, rfl, rfl, rfl, rfl⟩, fun hreach => ?_, fun hreach => hnext (if_neg ?_)⟩
  · rintro ⟨hrun, hen, hquiet, -⟩
    rcases h with h | h | h
    · exact h hrun
    · exact Bool.false_ne_true (h.symm.trans hen)
    · exact Bool.false_ne_true (h.symm.trans hquiet)
  · have hrow := requestStandby_of_running hstate
    refine ⟨fun h0 => hnext ((if_pos hreach).trans (hrow.trans ((if_pos h0).trans ?_))), ?_⟩
    · rw [h0]
    · rintro _ rfl hne
      exact hnext ((if_pos hreach).trans (hrow.trans (if_neg hne)))
  · refine hnext ?_
    rw [show requestStandby s = s from if_pos (.inl h)]
    exact ite_self s
  · refine hnext ?_
    rcases h with h | h
    · exact if_neg (by rw [h]; exact Bool.false_ne_true)
    · rw [show leaveStandby s = s from if_pos h]
      exact ite_self s
  · rw [hready]
    exact fun h => h.elim hne Bool.false_ne_true
  · obtain ⟨hpower, hjobs, hotp⟩ := stageFirmware_fields (fwGo s) ok data
    obtain ⟨hgo, hgojobs, hgootp⟩ := fwGo_fields s
    rw [stageResult_fwGo, hgo] at hpower
    refine ⟨_, _, hnext (if_pos hreach), rfl, ?_, ?_, ?_, hjobs.trans hgojobs, hotp.trans hgootp⟩
    · rw [hpower]
    · rw [hpower]
    · rw [hpower]
  · rw [hreach]
    exact Bool.false_ne_true

end Sys2Proof.Machine


/-! PROOF. O59: the lifecycle commands (R878 to R885). -/

namespace Sys2Proof.Machine

section
variable {s t u : State} {acc : Acc} {a k len : Nat} {b data : Bytes} {ok : Bool}

theorem UnitWork.dbg (h : UnitWork s t) : t.dbg = s.dbg := by rw [h.frame]

theorem lcAt_putLc (s : State) (a : Nat) {x : LcAcc} (h : x ≠ {}) : lcAt (putLc s a x) a = x := tget_tset_new _ _ _ h _

theorem lcAt_putLc_of_state (s : State) (a : Nat) {x : LcAcc} (h : x.state ≠ 0) : lcAt (putLc s a x) a = x :=
  lcAt_putLc s a fun e => h (congrArg LcAcc.state e)

theorem lcAt_of_lc (h : t.lc = s.lc) (a : Nat) : lcAt t a = lcAt s a := by rw [lcAt, lcAt, h]

/-- An accessor's entry is its default or stands in the table. -/
theorem tget_default_or_mem {α : Type} (d : α) (l : Tab α) (k : Nat) : tget d l k = d ∨ ∃ e ∈ l, e.2 = tget d l k := by
  induction l with
  | nil => exact .inl rfl
  | cons e l ih =>
    rw [tget]
    split
    · exact .inr ⟨e, List.mem_cons_self, rfl⟩
    · exact ih.imp_right fun ⟨x, hx, he⟩ => ⟨x, List.mem_cons_of_mem _ hx, he⟩

theorem lcAt_state_of_none_busy (h : ∀ e ∈ s.lc.accs, e.2.state ≠ 1) (a : Nat) : (lcAt s a).state ≠ 1 := by
  rcases tget_default_or_mem {} s.lc.accs a with hd | ⟨e, he, hx⟩
  · rw [lcAt, hd]
    decide
  · rw [lcAt, ← hx]
    exact h e he

/-! A row of R878 to R882 (R884, R885). -/

theorem lcDone_of_run {code : Nat} (h : lcRun s (lcAt s a).cmd ok data (lcAt s a).bufLen.toNat = (u, code)) :
    lcDone s a ok data = setEvent (putLc u a { lcAt u a with state := 2, code := code }) 0x00D 17 := by
  rw [lcDone, h]

theorem lcDone_state (s : State) (a : Nat) (ok : Bool) (data : Bytes) : (lcAt (lcDone s a ok data) a).state = 2 := by
  unfold lcDone
  extract_lets x
  obtain ⟨u, code⟩ := lcRun s x.cmd ok data x.bufLen.toNat
  have hwork := unitWork_setEvent (putLc u a { lcAt u a with state := 2, code := code }) 0x00D 17
  refine congrArg LcAcc.state ((lcAt_of_lc hwork.lc a).trans (lcAt_putLc_of_state u a ?_))
  exact Nat.succ_ne_zero 1

section
variable (hreach : reaches s acc 0x00D = true) (hfree : ∀ e ∈ s.lc.accs, e.2.state ≠ 1) (hk : k < 8)
include hreach hfree hk

theorem lcGo_of_free : lcGo s acc k =
    let t := putLc s (accIdx acc) { lcAt s (accIdx acc) with cmd := k, state := 1, code := 0 }
    if lcReads t k then t else lcDone t (accIdx acc) true [] := by
  have hno : ¬ ((!reaches s acc 0x00D) = true ∨ (s.lc.accs.any fun e => decide (e.2.state = 1)) = true) := by
    rw [hreach]
    refine fun h => h.elim Bool.false_ne_true fun h => ?_
    obtain ⟨e, he, hbusy⟩ := List.any_eq_true.mp h
    exact hfree e he (of_decide_eq_true hbusy)
  refine (if_neg hno).trans ?_
  rw [Nat.mod_eq_of_lt hk]

/-- A command that reads its bundle, with what the read returned. -/
theorem lcRow_of_reads (hreads : lcReads s k = true) :
    lcRow s acc k ok data =
      lcDone (putLc s (accIdx acc) { lcAt s (accIdx acc) with cmd := k, state := 1, code := 0 }) (accIdx acc) ok data := by
  have hstate := lcAt_state_of_none_busy hfree (accIdx acc)
  have hgo : lcGo s acc k = putLc s (accIdx acc) { lcAt s (accIdx acc) with cmd := k, state := 1, code := 0 } :=
    (lcGo_of_free hreach hfree hk).trans (if_pos hreads)
  have hnew := lcAt_putLc_of_state s (accIdx acc) (x := { lcAt s (accIdx acc) with cmd := k, state := 1, code := 0 }) Nat.one_ne_zero
  refine (if_neg fun h => hstate h.1).trans ?_
  rw [hgo]
  refine if_pos ⟨?_, ?_, hstate⟩
  · rw [hnew]
  · rw [hnew]

/-- A command that ends at once. -/
theorem lcRow_of_no_read (hreads : lcReads s k = false) :
    lcRow s acc k ok data =
      lcDone (putLc s (accIdx acc) { lcAt s (accIdx acc) with cmd := k, state := 1, code := 0 }) (accIdx acc) true [] := by
  have hstate := lcAt_state_of_none_busy hfree (accIdx acc)
  have hgo : lcGo s acc k =
      lcDone (putLc s (accIdx acc) { lcAt s (accIdx acc) with cmd := k, state := 1, code := 0 }) (accIdx acc) true [] :=
    (lcGo_of_free hreach hfree hk).trans (if_neg (by
      rw [show lcReads (putLc _ _ _) k = false from hreads]
      exact Bool.false_ne_true))
  refine (if_neg fun h => hstate h.1).trans ?_
  rw [hgo]
  refine if_neg fun h => ?_
  rw [lcDone_state] at h
  exact absurd h.1 (by decide)

end

theorem lcRow_of_dropped (hstate : (lcAt s (accIdx acc)).state ≠ 1)
    (h : (∃ e ∈ s.lc.accs, e.2.state = 1) ∨ reaches s acc 0x00D = false) : lcRow s acc k ok data = s := by
  have hgo : lcGo s acc k = s := by
    refine if_pos ?_
    rcases h with ⟨e, he, hbusy⟩ | h
    · exact .inr (List.any_eq_true.mpr ⟨e, he, decide_eq_true hbusy⟩)
    · exact .inl (not_true_of_false h)
  refine (if_neg fun h => hstate h.1).trans ?_
  rw [hgo]
  exact if_neg fun h => hstate h.1

/-! The lifecycle bits (R878, R880, R881). -/

/-- The lifecycle state that a value of the lifecycle bits stands for. -/
def lifecycleBits (l : BitVec 3) : Nat := if l.getLsbD 2 then 3 else if l.getLsbD 1 then 2 else if l.getLsbD 0 then 1 else 0

theorem lifecycleOf_eq (o : Otp) : lifecycleOf o = lifecycleBits o.lifecycle := rfl

theorem lifecycleBits_first : ∀ l : BitVec 3, lifecycleBits l = 0 → lifecycleBits (l ||| BitVec.ofNat 3 (2 ^ 0)) = 1 := by decide

theorem lifecycleBits_second : ∀ l : BitVec 3, lifecycleBits l = 1 → lifecycleBits (l ||| BitVec.ofNat 3 (2 ^ 1)) = 2 := by decide

theorem lifecycleBits_all : ∀ l : BitVec 3, lifecycleBits (l ||| 7) = 3 := by decide

theorem unitWork_lifecycleChanged (old : Nat) (s : State) : UnitWork s (lifecycleChanged old s) :=
  .ite (fun _ => .refl s) fun _ => unitWork_setEvent ..

theorem unitWork_burnLifecycle (s : State) (n : Nat) :
    UnitWork { s with otp := { s.otp with lifecycle := s.otp.lifecycle ||| BitVec.ofNat 3 (2 ^ n) } } (burnLifecycle s n) :=
  unitWork_setEvent ..

/-- The device is ZEROISED with its debug gate closed (R881). -/
theorem zeroiseLock_fields (s : State) : lifecycle (zeroiseLock s) = 3 ∧ (zeroiseLock s).dbg.state = .closed := by
  have hburn := unitWork_setEvent { s with otp := { s.otp with lifecycle := s.otp.lifecycle ||| 7, overwritten := s.otp.overwritten ||| 1 } }
    0x00B 16
  have hend := unitWork_lifecycleChanged (lifecycle s) (closeGate (otpBurned { s with otp := { s.otp with
    lifecycle := s.otp.lifecycle ||| 7, overwritten := s.otp.overwritten ||| 1 } }))
  have hotp : (zeroiseLock s).otp = _ := hend.otp.trans hburn.otp
  have hdbg : (zeroiseLock s).dbg = _ := hend.dbg
  rw [lifecycle, hotp, hdbg]
  exact ⟨lifecycleBits_all s.otp.lifecycle, rfl⟩

/-! SHIP (R878). -/

section
variable (hb : b ≠ []) (hlen : b.length ≤ 65536) (hform : Config.check .x509 [b, [2#8]] = true)
include hb hlen hform

theorem ship_format_ok : ¬ (b = [] ∨ 65536 < b.length ∨ (!Config.check .x509 [b, [2#8]]) = true) := by
  rw [hform]
  rintro (h | h | h)
  · exact hb h
  · exact absurd hlen (Nat.not_le.mpr h)
  · exact Bool.false_ne_true h

variable (h0 : lifecycle s = 0)
include h0

theorem ship_of_unsigned (hsign : Config.check .x509 [b] = false) : ship s true b = (s, 7) := by
  rw [ship, if_neg (not_not_intro h0), if_neg (true_not_false rfl), if_neg (ship_format_ok hb hlen hform), hsign]
  rfl

theorem ship_fields (hsign : Config.check .x509 [b] = true) : (ship s true b).2 = 0 ∧ lifecycle (ship s true b).1 = 1 ∧
    (ship s true b).1.lc.deviceCert = b ∧ (ship s true b).1.dbg.state = .closed := by
  have hburn := unitWork_burnLifecycle { s with lc := { s.lc with deviceCert := b } } 0
  have hchange := hburn.trans (unitWork_lifecycleChanged 0 (burnLifecycle { s with lc := { s.lc with deviceCert := b } } 0))
  have hship : ship s true b =
      (closeGate (lifecycleChanged 0 (burnLifecycle { s with lc := { s.lc with deviceCert := b } } 0)), 0) := by
    rw [ship, if_neg (not_not_intro h0), if_neg (true_not_false rfl), if_neg (ship_format_ok hb hlen hform), hsign]
    rfl
  have hotp := hchange.otp
  have hlc := hchange.lc
  rw [hship]
  refine ⟨rfl, (congrArg lifecycleOf hotp).trans (lifecycleBits_first s.otp.lifecycle h0), congrArg Lifecycle.deviceCert hlc, rfl⟩

end

/-! COMMISSION (R880). -/

theorem foldl_floor_keeps (l : List Nat) (s : State) :
    (l.foldl (fun s n => let x := srcAt s n
      if x.response < (srcRow n).floor then putSrcCfg s n { x with response := (srcRow n).floor } else s) s).otp = s.otp ∧
    (l.foldl (fun s n => let x := srcAt s n
      if x.response < (srcRow n).floor then putSrcCfg s n { x with response := (srcRow n).floor } else s) s).lc = s.lc := by
  induction l generalizing s with
  | nil => exact ⟨rfl, rfl⟩
  | cons n l ih =>
    obtain ⟨hotp, hlc⟩ := ih (if (srcAt s n).response < (srcRow n).floor then
      putSrcCfg s n { srcAt s n with response := (srcRow n).floor } else s)
    exact ⟨hotp.trans (by split <;> rfl), hlc.trans (by split <;> rfl)⟩

theorem raiseFloors_keeps (s : State) : (raiseFloors s).otp = s.otp ∧ (raiseFloors s).lc = s.lc := foldl_floor_keeps _ s

theorem unitAt_writeLock_tamper (s : State) : (unitAt (writeLock s 0x004) 0x004).lock = true := by
  have hne : { unitAt s 0x004 with lock := true } ≠ unitDflt 0x004 := fun h => Bool.noConfusion (congrArg UnitHdr.lock h)
  exact congrArg UnitHdr.lock (tget_tset_new _ _ _ hne _)

/-- What COMMISSION does once every check has passed, from the state with its nonce used. -/
def commissioned (s : State) (cert : Bytes) (fp : BitVec 192) : State :=
  let s := otpBurned { s with lc := { s.lc with ownerCert := cert }, otp := { s.otp with ownerFp := s.otp.ownerFp ||| fp } }
  closeGate (writeLock (raiseFloors (lifecycleChanged 1 (burnLifecycle s 1))) 0x004)

theorem commissioned_fields (cert : Bytes) (fp : BitVec 192) (h1 : lifecycle s = 1) (hfp : s.otp.ownerFp = 0) :
    lifecycle (commissioned s cert fp) = 2 ∧ (commissioned s cert fp).lc.nonce = s.lc.nonce ∧
    (commissioned s cert fp).otp.ownerFp = fp ∧ (unitAt (commissioned s cert fp) 0x004).lock = true := by
  unfold commissioned
  extract_lets y o u
  have hu : UnitWork { s with lc := { s.lc with ownerCert := cert }, otp := { s.otp with ownerFp := s.otp.ownerFp ||| fp } } u :=
    unitWork_setEvent ..
  have hchange := (unitWork_burnLifecycle u 1).trans (unitWork_lifecycleChanged 1 (burnLifecycle u 1))
  generalize lifecycleChanged 1 (burnLifecycle u 1) = v at hchange
  obtain ⟨hotp, hlc⟩ := raiseFloors_keeps v
  generalize raiseFloors v = w at hotp hlc
  have huotp : u.otp = { s.otp with ownerFp := s.otp.ownerFp ||| fp } := hu.otp
  have hvotp : v.otp = { u.otp with lifecycle := u.otp.lifecycle ||| BitVec.ofNat 3 (2 ^ 1) } := hchange.otp
  have hulc : u.lc.nonce = s.lc.nonce := by rw [hu.lc]
  have hvlc : v.lc = u.lc := hchange.lc
  refine ⟨?_, ?_, ?_, unitAt_writeLock_tamper _⟩
  · change lifecycleOf w.otp = 2
    rw [hotp, hvotp, huotp]
    exact lifecycleBits_second s.otp.lifecycle h1
  · change w.lc.nonce = _
    rw [hlc, hvlc, hulc]
  · change w.otp.ownerFp = fp
    rw [hotp, hvotp, huotp, hfp]
    exact BitVec.zero_or

section
variable (h1 : lifecycle s = 1) (hform : commissionFormat b len = true)
include h1 hform

theorem commission_of_other_nonce (hnonce : s.lc.nonce ≠ some (slice b 12 32)) :
    commission s true b len = ({ s with lc := { s.lc with nonce := none } }, 5) := by
  simp only [commission, h1, hform, useNonce, decide_eq_false hnonce, ne_eq, not_true_eq_false, Bool.not_true, Bool.not_false,
    Bool.false_eq_true, if_false, if_true]
  rfl

theorem commission_of_good (hnonce : s.lc.nonce = some (slice b 12 32)) (hdev : slice b 44 24 = deviceFp)
    (hcert : Config.check .x509 [slice b 72 (field b 8 4), [4#8]] = true)
    (hsign : ownerSigned (slice b 72 (field b 8 4)) (b.take (72 + field b 8 4)) (slice b (72 + field b 8 4) 96)
        (slice b (168 + field b 8 4) 4627) (ascii "ECZ-COMMISSION") = true) (hfp : s.otp.ownerFp = 0) :
    commission s true b len = (commissioned { s with lc := { s.lc with nonce := none } } (slice b 72 (field b 8 4))
      (BitVec.ofNat 192 (unle (Config.out .deviceFp [slice b 72 (field b 8 4)] 24))), 0) := by
  have hfree : ¬ (s.otp.ownerFp &&& ~~~BitVec.ofNat 192 (unle (Config.out .deviceFp [slice b 72 (field b 8 4)] 24)) ≠ 0) := by
    rw [hfp]
    exact not_not_intro BitVec.zero_and
  simp only [commission, h1, hform, useNonce, decide_eq_true hnonce, hdev, hcert, hsign, if_neg hfree, ne_eq, not_true_eq_false, or_self,
    Bool.not_true, Bool.false_eq_true, if_false]
  rfl

theorem commission_fields (hnonce : s.lc.nonce = some (slice b 12 32)) (hdev : slice b 44 24 = deviceFp)
    (hcert : Config.check .x509 [slice b 72 (field b 8 4), [4#8]] = true)
    (hsign : ownerSigned (slice b 72 (field b 8 4)) (b.take (72 + field b 8 4)) (slice b (72 + field b 8 4) 96)
        (slice b (168 + field b 8 4) 4627) (ascii "ECZ-COMMISSION") = true) (hfp : s.otp.ownerFp = 0) :
    (commission s true b len).2 = 0 ∧ lifecycle (commission s true b len).1 = 2 ∧ (commission s true b len).1.lc.nonce = none ∧
      (commission s true b len).1.otp.ownerFp = BitVec.ofNat 192 (unle (Config.out .deviceFp [slice b 72 (field b 8 4)] 24)) ∧
      (unitAt (commission s true b len).1 0x004).lock = true := by
  obtain ⟨hlc, hused, hown, hlock⟩ := commissioned_fields (s := { s with lc := { s.lc with nonce := none } }) (slice b 72 (field b 8 4))
    (BitVec.ofNat 192 (unle (Config.out .deviceFp [slice b 72 (field b 8 4)] 24))) h1 hfp
  rw [commission_of_good h1 hform hnonce hdev hcert hsign hfp]
  generalize commissioned _ _ _ = v at hlc hused hown hlock
  exact ⟨rfl, hlc, hused, hown, hlock⟩

end

/-! OWNER_LIST (R882). -/

theorem storeReady_frame (s : State) : storeReady s = { s with fresh := (storeReady s).fresh, flash := (storeReady s).flash } := by
  unfold storeReady
  split
  · rfl
  · rfl

theorem unitWork_storeLow (old : Flash) (s : State) : UnitWork s (storeLow old s) :=
  .ite (fun _ => unitWork_setEvent ..) fun _ => .refl s

theorem storePut_keeps (s : State) (type item : Nat) (p : StorePayload) :
    (storePut s type item p).lc = s.lc ∧ (storePut s type item p).otp = s.otp := by
  unfold storePut
  split
  · exact ⟨rfl, rfl⟩
  · extract_lets s1 f it
    have hlow := unitWork_storeLow s1.flash
      { s1 with fresh := s1.fresh + 1, flash := { f with nextSeq := f.nextSeq + 1, store := tput f.store (storeKey type item) it } }
    have hready : s1 = { s with fresh := s1.fresh, flash := s1.flash } := storeReady_frame s
    have hlc : s1.lc = s.lc := by rw [hready]
    have hotp : s1.otp = s.otp := by rw [hready]
    exact ⟨hlow.lc.trans hlc, hlow.otp.trans hotp⟩

section
variable (h2 : lifecycle s = 2) (hform : listFormat b = true) (howner : slice b 24 24 = ownerFp s)
  (hsign : ownerSigned s.lc.ownerCert (b.take (48 + 24 * field b 16 2)) (slice b (48 + 24 * field b 16 2) 96)
        (slice b (144 + 24 * field b 16 2) 4627) (ascii "ECZ-OWNERLIST") = true)
include h2 hform howner hsign

theorem ownerList_of_old {l : Nat × List Bytes} (hl : s.lc.list = some l) (hold : field b 8 8 ≤ l.1) : ownerList s true b = (s, 9) := by
  simp only [ownerList, h2, hform, howner, hsign, hl, hold, Option.isSome_some, and_self, ne_eq, not_true_eq_false, Bool.not_true,
    Bool.false_eq_true, if_false, if_true]
  rfl

theorem ownerList_of_new (hnew : ∀ l, s.lc.list = some l → l.1 < field b 8 8) : ownerList s true b =
    (storePut { s with lc := { s.lc with list := some (field b 8 8, (List.range (field b 16 2)).map fun k => slice b (48 + 24 * k) 24) } }
      4 0 (.ownerList (field b 8 8) ((List.range (field b 16 2)).map fun k => slice b (48 + 24 * k) 24)), 0) := by
  cases hl : s.lc.list with
  | none =>
    simp only [ownerList, h2, hform, howner, hsign, hl, Option.isSome_none, Bool.false_eq_true, false_and, ne_eq, not_true_eq_false,
      Bool.not_true, if_false]
    rfl
  | some l =>
    simp only [ownerList, h2, hform, howner, hsign, hl, Nat.not_le.mpr (hnew l hl), and_false, ne_eq, not_true_eq_false,
      Bool.not_true, Bool.false_eq_true, if_false]
    rfl

theorem ownerList_fields (hnew : ∀ l, s.lc.list = some l → l.1 < field b 8 8) : (ownerList s true b).2 = 0 ∧
    (ownerList s true b).1.lc.list = some (field b 8 8, (List.range (field b 16 2)).map fun k => slice b (48 + 24 * k) 24) ∧
    (ownerList s true b).1.otp = s.otp := by
  obtain ⟨hlc, hotp⟩ := storePut_keeps { s with lc := { s.lc with
    list := some (field b 8 8, (List.range (field b 16 2)).map fun k => slice b (48 + 24 * k) 24) } } 4 0
    (.ownerList (field b 8 8) ((List.range (field b 16 2)).map fun k => slice b (48 + 24 * k) 24))
  have hlist := congrArg Lifecycle.list hlc
  rw [ownerList_of_new h2 hform howner hsign hnew]
  generalize storePut _ _ _ _ = v at hlist hotp
  exact ⟨rfl, hlist, hotp⟩

end

/-! ZEROISE (R881) and CHALLENGE (R879). -/

theorem zeroise_of_early (h : lifecycle s < 2) : zeroise s true b 0 = (zeroiseNow s, 0) := by
  rw [zeroise, if_neg (by omega), if_pos (by omega), if_pos rfl]
  rfl

theorem zeroise_of_good (h2 : lifecycle s = 2) (hform : zeroiseFormat b len = true) (hnonce : s.lc.nonce = some (slice b 8 32))
    (hdev : slice b 40 24 = deviceFp)
    (hsign : ownerSigned s.lc.ownerCert (b.take 64) (slice b 64 96) (slice b 160 4627) (ascii "ECZ-ZEROISE") = true) :
    zeroise s true b len = (zeroiseNow { s with lc := { s.lc with nonce := none } }, 0) := by
  have h3 : ¬ 2 = 3 := by decide
  simp only [zeroise, h2, h3, hform, useNonce, decide_eq_true hnonce, hdev, hsign, ne_eq, not_true_eq_false, Bool.not_true,
    Bool.false_eq_true, if_false]
  rfl

theorem lcChallenge_fields (s : State) : (lcChallenge s).1.lc.nonce = some (keelDraw s 32).1 ∧ (lcChallenge s).1.jobs = s.jobs ∧
    (lcChallenge s).2 = 0 :=
  ⟨rfl, (unitWork_countCall (freeBytes s 32).2 keelDrbg).jobs, rfl⟩

end

theorem exec_lifecycle_command {acc : Acc} {ok : Bool} {data : Bytes} {k : Nat} {c : Instr} (s : State)
    (h : (k, c) ∈ [(1, Instr.challenge acc), (2, .ship acc ok data), (3, .commission acc ok data), (4, .ownerList acc ok data),
      (5, .zeroise acc ok data)]) : k < 8 ∧ (k = 1 ∨ exec c s = .next (lcRow s acc k ok data)) ∧
    ∃ ok' data', exec c s = .next (lcRow s acc k ok' data') := by
  simp only [List.mem_cons, Prod.mk.injEq, List.not_mem_nil, or_false] at h
  obtain ⟨rfl, rfl⟩ | ⟨rfl, rfl⟩ | ⟨rfl, rfl⟩ | ⟨rfl, rfl⟩ | ⟨rfl, rfl⟩ := h
  · exact ⟨by decide, .inl rfl, true, [], rfl⟩
  · exact ⟨by decide, .inr rfl, ok, data, rfl⟩
  · exact ⟨by decide, .inr rfl, ok, data, rfl⟩
  · exact ⟨by decide, .inr rfl, ok, data, rfl⟩
  · exact ⟨by decide, .inr rfl, ok, data, rfl⟩

/-- LC_CMD: a command is carried out, or dropped (R884, R885). -/
theorem lifecycleRows (acc : Acc) (ok : Bool) (data : Bytes) (a : Nat) (s t : State) (ha : a = accIdx acc) :
    ∀ k c, (k, c) ∈ [(1, Instr.challenge acc), (2, .ship acc ok data), (3, .commission acc ok data), (4, .ownerList acc ok data),
        (5, .zeroise acc ok data)] →
      t = putLc s a { lcAt s a with cmd := k, state := 1, code := 0 } →
      (∀ u code, reaches s acc 0x00D = true → (∀ e ∈ s.lc.accs, e.2.state ≠ 1) → lcReads s k = true →
        lcRun t k ok data (lcAt s a).bufLen.toNat = (u, code) →
        exec c s = .next (setEvent (putLc u a { lcAt u a with state := 2, code := code }) 0x00D 17)) ∧
      (∀ u code, reaches s acc 0x00D = true → (∀ e ∈ s.lc.accs, e.2.state ≠ 1) → lcReads s k = false →
        lcRun t k true [] (lcAt s a).bufLen.toNat = (u, code) →
        exec c s = .next (setEvent (putLc u a { lcAt u a with state := 2, code := code }) 0x00D 17)) ∧
      ((lcAt s a).state ≠ 1 → (∃ e ∈ s.lc.accs, e.2.state = 1) ∨ reaches s acc 0x00D = false → exec c s = .next s) := by
  subst ha
  rintro k c hc rfl
  obtain ⟨hk, hexec, ok', data', hrow⟩ := exec_lifecycle_command s hc
  have hx := lcAt_putLc_of_state s (accIdx acc) (x := { lcAt s (accIdx acc) with cmd := k, state := 1, code := 0 }) Nat.one_ne_zero
  refine ⟨fun u code hreach hfree hreads hrun => ?_, fun u code hreach hfree hreads hrun => ?_, fun hstate h => ?_⟩
  · have hread : exec c s = .next (lcRow s acc k ok data) := by
      rcases hexec with rfl | h
      · exact absurd hreads Bool.false_ne_true
      · exact h
    refine hread.trans (congrArg Host.Outcome.next ((lcRow_of_reads hreach hfree hk hreads).trans (lcDone_of_run ?_)))
    rw [hx]
    exact hrun
  · refine hrow.trans (congrArg Host.Outcome.next ((lcRow_of_no_read hreach hfree hk hreads).trans (lcDone_of_run ?_)))
    rw [hx]
    exact hrun
  · exact hrow.trans (congrArg Host.Outcome.next (lcRow_of_dropped hstate h))

theorem exec_challenge_of_free {acc : Acc} {s : State} (hreach : reaches s acc 0x00D = true) (hfree : ∀ e ∈ s.lc.accs, e.2.state ≠ 1) :
    ∃ u n, exec (.challenge acc) s = .next u ∧ n.length = 32 ∧ u.lc.nonce = some n ∧ (lcAt u (accIdx acc)).state = 2 ∧
      (lcAt u (accIdx acc)).code = 0 ∧ u.jobs = s.jobs := by
  obtain ⟨-, hrun, -⟩ := lifecycleRows acc true [] (accIdx acc) s _ rfl 1 (.challenge acc) List.mem_cons_self rfl
  obtain ⟨hnonce, hjobs, -⟩ := lcChallenge_fields (putLc s (accIdx acc) { lcAt s (accIdx acc) with cmd := 1, state := 1, code := 0 })
  have hexec := hrun (lcChallenge (putLc s (accIdx acc) { lcAt s (accIdx acc) with cmd := 1, state := 1, code := 0 })).1 0 hreach hfree rfl rfl
  have hlen := keelDraw_length (putLc s (accIdx acc) { lcAt s (accIdx acc) with cmd := 1, state := 1, code := 0 }) 32
  generalize (lcChallenge (putLc s (accIdx acc) { lcAt s (accIdx acc) with cmd := 1, state := 1, code := 0 })).1 = v at hexec hnonce hjobs
  have hwork := unitWork_setEvent (putLc v (accIdx acc) { lcAt v (accIdx acc) with state := 2, code := 0 }) 0x00D 17
  have hat : lcAt (setEvent (putLc v (accIdx acc) { lcAt v (accIdx acc) with state := 2, code := 0 }) 0x00D 17) (accIdx acc) =
      { lcAt v (accIdx acc) with state := 2, code := 0 } :=
    (lcAt_of_lc hwork.lc _).trans (lcAt_putLc_of_state v (accIdx acc) (Nat.succ_ne_zero 1))
  refine ⟨_, _, hexec, hlen, ?_, ?_, ?_, hwork.jobs.trans hjobs⟩
  · rw [hwork.lc]
    exact hnonce
  · rw [hat]
  · rw [hat]

/-- Settles O59: the rows of LC_CMD, and what each command does. -/
theorem lifecycleCommands : Obligations.LifecycleCommands := by
  unfold Obligations.LifecycleCommands
  rintro acc ok data b len a s t rfl
  refine ⟨lifecycleRows acc ok data _ s t rfl, exec_challenge_of_free, fun h0 hb hlen hform hsign => ship_fields hb hlen hform h0 hsign,
    fun h0 hb hlen hform hsign => ship_of_unsigned hb hlen hform h0 hsign, fun h => if_pos h,
    fun h1 hform hnonce hdev hcert hsign hfp => ?_, fun h1 hform hnonce => commission_of_other_nonce h1 hform hnonce, fun h => if_pos h,
    fun h2 hform howner hsign hnew => ?_, fun l h2 hform howner hsign hl hold => ownerList_of_old h2 hform howner hsign hl hold,
    fun h => if_pos h, zeroise_of_early, fun h => if_pos h,
    fun h2 hform hnonce hdev hsign => zeroise_of_good h2 hform hnonce hdev hsign, zeroiseLock_fields (ripcord s)⟩
  · exact commission_fields h1 hform hnonce hdev hcert hsign hfp
  · exact ownerList_fields h2 hform howner hsign hnew

end Sys2Proof.Machine

/-! PROOF. A window table with two entries for one window: what an ended request uncovers (R622, R640). -/

namespace Sys2Proof.Machine

/-- A FREEZE that was discarded (R857 of 22) while instance 0 drained. -/
def discardedFreeze : ImWindow := { op := 0x04, state := .busy, discard := true }

/-- A request with an unknown OP that waits for its turn. -/
def waitingRequest : ImWindow := { op := 0x0F, inst := 1, state := .busy, waits := true }

/-- Instance 0 has nothing in flight and has rested; the window table, not canonical, holds window 0 twice, so that a read shows
the discarded FREEZE alone. -/
def twiceListed : State :=
  { units := [(instPage 0, { state := .quiesced })]
    kh := { ripcorded := true }
    im := { insts := [(0, { freezing := true })], windows := [(0, discardedFreeze), (0, waitingRequest)] } }

/-- The end of the FREEZE takes the first entry away, and the second one shows. -/
theorem windows_finishFreeze_twiceListed : (finishFreeze twiceListed 0).im.windows = [(0, waitingRequest)] := by rfl

section
variable {s : State} (h : s.im.windows = [(0, waitingRequest)])
include h

theorem winAt_zero_of_waiting : winAt s 0 = waitingRequest := by
  rw [winAt, h]
  rfl

theorem onlyBusy_of_waiting : OnlyBusy s 0 := by
  rintro (_ | b) hb
  · cases hb rfl
  · rw [winAt, h]
    rfl

theorem noZeroise_of_waiting : NoZeroise s := by
  rintro (_ | b) hbusy hturn
  · rw [winAt_zero_of_waiting h] at hturn
    cases hturn
  · rw [onlyBusy_of_waiting h (b + 1) b.succ_ne_zero] at hbusy
    cases hbusy

/-- The waiting request as it is carried out. -/
theorem serving_of_waiting : Serving (putWin s 0 { waitingRequest with waits := false }) 0 where
  only := fun b hb => by
    rw [winAt_putWin_ne s _ hb]
    exact onlyBusy_of_waiting h b hb
  busy := by
    rw [winAt_putWin s 0 (window_ne_of_state ImState.noConfusion)]
    rfl
  turn := by rw [winAt_putWin s 0 (window_ne_of_state ImState.noConfusion)]
  kept := by
    rw [winAt_putWin s 0 (window_ne_of_state ImState.noConfusion)]
    rfl

theorem tryRequest_of_waiting :
    tryRequest s 0 = endRequest (putWin s 0 { waitingRequest with waits := false }) 0 codeBadOp := by
  have hfirst : mustWait s 0 = false := by
    rw [mustWait, List.any_eq_false]
    rintro (_ | b) -
    · exact Bool.false_ne_true
    · simp only [onlyBusy_of_waiting h (b + 1) b.succ_ne_zero, Bool.and_false, Bool.false_and, Bool.false_eq_true, not_false_eq_true]
  have hrun : runRequest (putWin s 0 { waitingRequest with waits := false }) 0 =
      (putWin s 0 { waitingRequest with waits := false }, some codeBadOp) := by
    rw [runRequest]
    simp only [winAt_putWin s 0 (w := { waitingRequest with waits := false }) (window_ne_of_state ImState.noConfusion)]
    rfl
  have hwait : ¬(!winBusy waitingRequest ∨ !waitingRequest.waits ∨ mustWait s 0 ∨
      (readsHost waitingRequest.op ∧ waitingRequest.data.isNone)) := by
    rw [hfirst]
    decide
  simp only [tryRequest, winAt_zero_of_waiting h, if_neg hwait, hrun]

/-- The next turns carry out the request that waits. -/
theorem pumpRequests_of_waiting : pumpRequests s ≠ s := by
  intro hsame
  have hquiet := quiet_endRequest (serving_of_waiting h) codeBadOp
  have hpump := pumpRequests_of_one (by decide) (onlyBusy_of_waiting h) (noZeroise_of_waiting h) (tryRequest_of_waiting h) hquiet
  rw [← hpump, hsame] at hquiet
  have hturn := hquiet 0 (by rw [winAt_zero_of_waiting h]; rfl)
  rw [winAt_zero_of_waiting h] at hturn
  cases hturn

end

/-- Refutes O46: its completions are stated for every window table, and in one that is not canonical the end of a discarded
FREEZE uncovers a request that waits, which the same command then carries out: `twiceListed`. -/
theorem not_instanceRequestsAndCompletions : ¬ Obligations.InstanceRequestsAndCompletions := by
  rintro ⟨-, hcompletions⟩
  have hwindows : ∀ a, winBusy (winAt twiceListed a) = true → (winAt twiceListed a).waits = false ∧
      ((winAt twiceListed a).op = 0x08 → twiceListed.kh.ripcorded = false)
    | 0 => fun _ => ⟨rfl, fun hop => absurd hop (by decide)⟩
    | _ + 1 => fun hbusy => Bool.noConfusion hbusy
  obtain ⟨-, -, hfreeze, -⟩ := hcompletions 0 twiceListed hwindows
  have hend : pumpRequests (finishFreeze twiceListed 0) = finishFreeze twiceListed 0 :=
    Host.Outcome.next.inj (hfreeze rfl rfl)
  exact pumpRequests_of_waiting windows_finishFreeze_twiceListed hend

end Sys2Proof.Machine
